-- ==== Sys2Proof/Word.lean ====
section
/-! DEFINITION. The word types of the ZPN-6416 and the identifiers of R9. -/
namespace Sys2Proof

/-- One byte of memory (R4). -/
abbrev Byte := BitVec 8
/-- A register word: every register is 32 bits wide (R5). -/
abbrev Word := BitVec 32
/-- A low/high register pair, an address or a count of 64 bits (R6, R10). -/
abbrev DWord := BitVec 64
/-- A 64-byte work, admin or configuration entry, block row or cache line; bit 0 is bit 0 of byte 0 (R4). -/
abbrev Entry := BitVec 512

/-- Quotient rounded up, as the spec's ceil(a ÷ b). -/
def ceilDiv (a b : Nat) : Nat := (a + b - 1) / b

/-- `a` rounded up to a multiple of `b`. -/
def roundUp (a b : Nat) : Nat := ceilDiv a b * b

/-- `x` limited to the range from `lo` to `hi`. -/
def clampNat (lo hi x : Nat) : Nat := max lo (min hi x)

/-- `x` limited to the range from `lo` to `hi`. -/
def clampInt (lo hi x : Int) : Int := max lo (min hi x)

end Sys2Proof
end

