-- ==== Sys2Proof/Types.lean ====
section
/-! DEFINITION. The data that commands carry: what comes from outside the block with them. -/
namespace Sys2Proof

/-- One entry as a fetch read returned it, with the auxiliary, ladder or conversion block rows it names (R301). -/
structure FetchedEntry where
  raw     : Entry
  blockOk : Bool
  blocks  : List Entry
  deriving DecidableEq, Repr

/-- A block of bytes a command read from outside; `ok` is false where the read failed or was poisoned (Table 14-2). -/
structure Block where
  ok    : Bool
  bytes : List Byte
  deriving DecidableEq, Repr

/-- One damage condition of Table 6-5: the CTU in decoding order at which it is met (0 with `header` for a header before every CTU),
its cause, and, where the condition names CTUs, how many in decoding order (COVERAGE, BUDGET, WINDOW). -/
structure Damage where
  header : Bool
  ctu    : Nat
  cause  : Nat
  count  : Nat
  deriving DecidableEq, Repr

/-- One segment of a picture as the stream's structure gives it (Table 2-7). -/
structure SegInfo where
  ctus    : Nat
  samples : Nat
  luma    : Nat
  bytes   : Nat
  cols    : Nat            -- CTU columns of it
  row0    : Nat            -- CTU row of the picture at which it begins
  deriving DecidableEq, Repr

/-- Tools that Tables 5-2 to 5-6 name as not supported for decode. -/
inductive Tool where
  | fmo | aso | redundantPictures | dataPartitioning | switchingSlices   -- AVC; the last are SP and SI slices
  | extendedPrecision | bypassAlignment | screenContent                  -- HEVC; the first VVC too
  | layered                                                              -- SVC, MVC, 3D, SHVC, MV-HEVC, multilayer
  | largeScaleTile                                                       -- AV1
  deriving DecidableEq, Repr

/-- What a sequence-level header says (R113): the profile by its place in the decode column of its codec's table, level × 10 (0 where
none is signalled), chroma format 0 to 3 as CHROMA and 4 for 4:4:0, depths, luma size, DPB size, the reorder and latency limits of R145
where they are given, MaxFrameNum of AVC, and AV1's operating points. -/
structure SeqInfo where
  profile : Nat
  level   : Nat
  chroma  : Nat
  depthY  : Nat
  depthC  : Nat
  width   : Nat
  height  : Nat
  dpbSize : Nat
  reorder : Option Nat
  latency : Option Nat
  maxFrameNum : Nat
  opIdc   : List Nat
  deriving DecidableEq, Repr

/-- What a parser of the session's codec finds in one coded picture (log entry 6). -/
structure PicInfo where
  unit_      : Nat            -- number of its first unit in the input range
  needs      : List Nat       -- parameter sets its headers refer to: kind × 64 + identifier (R153)
  ptype      : Nat            -- PIC_TYPE of Table 6-10
  order      : Word           -- ORDER of Table 6-10
  width      : Nat            -- cropped luma width
  height     : Nat            -- cropped luma height
  codedW     : Nat            -- coded luma width, before cropping
  codedH     : Nat
  cropX      : Nat            -- where the cropped picture begins
  cropY      : Nat
  ctuSize    : Nat            -- luma width and height of one CTU, 16 to 128
  tileCols   : Nat            -- tile columns and rows; 1 and 1 without tiles
  tileRows   : Nat
  cavlc      : Bool           -- AVC with entropy_coding_mode_flag = 0
  edge       : Nat            -- samples on edges between segments
  segs       : List SegInfo   -- its tiles in raster order, or with one tile its CTU rows
  wavefront  : Bool           -- entry points for wavefront rows
  shown      : Bool           -- PicOutputFlag, show_frame
  isRef      : Bool           -- kept as a reference
  showExisting : Option Nat   -- show_existing_frame: the named slot's picture number
  refs       : List Nat       -- picture numbers it predicts from
  dropRefs   : List Nat       -- picture numbers no longer referenced after it
  prior      : Option Bool    -- of an IDR or IRAP picture that begins a sequence: no_output_of_prior_pics_flag (R145)
  leading    : Bool           -- RASL picture of the last random access point (R152)
  frameNum   : Nat            -- AVC frame_num (R152)
  slices     : List Nat       -- first CTU, in coding order, of every slice segment (R153)
  dataEnd    : Nat            -- first CTU whose data lies beyond the input range, where it is truncated (R153)
  damages    : List Damage
  preds      : List (Nat × List (Nat × Nat)) -- 16 x 16 blocks in decoding order, with the pictures and blocks that each predicts from (R166)
  blkIntra   : Nat            -- BLK_INTRA to MAX_CLL of Table 6-10
  blkSkip    : Nat
  qpMax      : Nat
  qpMin      : Nat
  qpAvg      : Nat
  renderW    : Nat
  renderH    : Nat
  maxFall    : Nat
  maxCll     : Nat
  grain      : Bool           -- apply_grain = 1
  grainP     : List Byte      -- its film-grain parameters (R162)
  hash       : Option (Nat × List Byte) -- a decoded picture hash SEI message: method 0 MD5, 1 CRC, 2 checksum, and its value (R164)
  trailing   : Bool           -- TRAILING_DATA
  field      : Bool           -- a single field
  parity     : Nat            -- AVC field picture: 1 top, 2 bottom; 0 for a frame
  second     : Bool           -- the second field of a complementary pair (R119)
  superres   : Bool           -- AV1 super-resolution is enabled
  headerBytes : Nat
  codedBytes : Nat
  deriving DecidableEq, Repr

/-- What comes with an entry's input range: its bytes where they come from host memory, and what a parser of the session's codec finds
in them (R113, R127, R131; log entry 6). -/
structure AuParse where
  poisoned : Bool                 -- a read of the input range returned poison (R168)
  data     : List Byte
  seq      : Option SeqInfo       -- the sequence-level header in force
  tools    : List Tool            -- tools not supported for decode that its syntax enables
  psets    : List (Nat × Nat)     -- undamaged parameter sets: number of the unit, kind × 64 + identifier (R131)
  recovery : Option Nat           -- recovery_frame_cnt of a recovery point SEI message, recovery_poc_cnt of a GDR picture (R152)
  damage   : List Damage          -- damage outside every coded picture (R156)
  pics     : List PicInfo         -- coded pictures in decoding order
  deriving DecidableEq, Repr

/-- An access unit, temporal unit or superframe as the device decodes it: what was found, cut to what its form and the session admit
(R113 to R116, R125 to R131). -/
structure AuInfo where
  poisoned    : Bool
  unsupported : Option Nat        -- 0x10 or 0x11 of R158
  seq         : Option SeqInfo
  overLimit   : Bool              -- a structural limit of Table 5-7 is exceeded
  rap         : Bool              -- random access point of Table 6-4
  missingTd   : Bool              -- AV1 temporal delimiter missing (R129)
  ends        : Bool              -- an end-of-sequence or end-of-bitstream NAL unit (R145)
  recovery    : Option Nat
  damage      : List Damage       -- damage outside every coded picture
  units       : List (List Byte)  -- NAL units without emulation-prevention bytes, OBUs or frames
  psets       : List (Nat × List Byte)
  pics        : List PicInfo      -- empty: no coded slice data (R131)
  bytes       : Nat               -- input bytes
  deriving DecidableEq, Repr

/-- The four kinds of resource Babbitt decides for (12_dispatch.md). -/
inductive ResKind where
  | dec | enc | mau | pcf
  deriving DecidableEq, Repr

/-- Kinds of request that reach a sequencer (R99, Table 4-4); the argument names the reason of an abort. -/
inductive SeqReq where
  | abortSession      -- rank 1: session reset, drain, or the abort of R516
  | fenceAbort        -- rank 2
  | abortBudget       -- rank 3
  | abortWindow       -- rank 4
  | preempt           -- rank 5
  deriving DecidableEq, Repr

/-- A bitstream mark that enters the output stream FIFO with a word (R136). -/
inductive FifoMark where
  | none
  | unitStart (fixedSize : Option Nat)   -- start of a NAL unit or OBU; its size where fixed
  | unitEnd                              -- its last byte is in this word
  deriving DecidableEq, Repr

/-- A ROI map and a hint map that lie in host memory, as a picture's reads of them return: session, display index, bytes (R184, R185). -/
structure MapRead where
  session : Nat
  index   : Nat
  roi     : List Byte
  hints   : List Byte
  deriving DecidableEq, Repr

/-- What the datapaths of a half give the sequencer in the cycle a microword issues (log entry 8). -/
structure IssueIn where
  conds    : Word                 -- truth of conditions 8 to 24 and 14 as the datapaths show them (Table 4-2)
  index    : Nat                  -- dispatch index for SRC 2 to 5 (R94)
  stall    : Nat                  -- cycles held on a memory read before the word issued
  parity   : Bool                 -- a parity error in the fetched word
  addr     : DWord                -- address of a MEM_OP access
  data     : List Byte            -- bytes of a MEM_OP write
  tail     : Option (Nat × List (Nat × Byte)) -- a write to a tail granule (R44): granule, bytes in it
  fifoWord : Option (Word × Nat)  -- a word for the FIFO and its valid bytes (R134)
  mark     : FifoMark
  ctus     : Nat                  -- CTUs the half has completed in the unit
  bins     : Nat                  -- bins of the CTU about to be coded (R209)
  sync     : List Byte            -- entropy synchronisation state published (R53)
  deriving DecidableEq, Repr

/-- A mailbox side (R390): VF n, PF0 towards the firmware, PF0 towards VF n, the firmware. -/
inductive MbxSide where
  | vf (n : Nat) | pf0 | pf0Vf (n : Nat) | fw
  deriving DecidableEq, Repr

/-- Which query register result becomes valid (Tables 2-14, 12-11, 13-17, 15-8). -/
inductive QueryKind where
  | ctx | dsc | qe | bpm
  deriving DecidableEq, Repr

/-- The user of a data-mover slot (R340): a channel, a COPY entry of a queue, a demand request of a half. -/
inductive DmvUser where
  | channel (g : Nat) | copy (q : Nat) (seq : Word) | demand (half : Nat)
  deriving DecidableEq, Repr

/-- Anti-rollback counts of Table 20-2. -/
inductive ArbKind where
  | fw | patch | image
  deriving DecidableEq, Repr

/-- One DIMM as its SPD and its training give it (R400, R414). -/
structure Dimm where
  present : Bool
  width   : Nat   -- 0 = x4, 1 = x8
  density : Nat   -- code of DRS_CH_CFG.DENSITY
  ranks   : Nat
  rate    : Nat   -- highest rate code it supports
  trains  : Bool
  deriving DecidableEq, Repr

/-- One copy of a firmware partition as the ROM finds it (R460 step 1): its level, version and its
signature's validity are in its own signed header, whose layout is the firmware's. -/
structure FwCopy where
  sigOk   : Bool
  arb     : Nat
  version : Word
  digest  : BitVec 384
  deriving DecidableEq, Repr

/-- The boot flash (R463, Table 20-4). -/
structure Flash where
  fwA        : Option FwCopy
  fwB        : Option FwCopy
  fwCur      : Bool            -- false = copy A
  patchA     : Option (List Byte)
  patchB     : Option (List Byte)
  patchCur   : Bool
  imageA     : Option (List Byte)
  imageB     : Option (List Byte)
  imageCur   : Bool
  recovery   : Option FwCopy
  recMicro   : List Word       -- the recovery microcode of R455
  recNano    : List (BitVec 192)
  recTable   : List (BitVec 13)
  subVendor  : BitVec 16
  subDevice  : BitVec 16
  rankRecs   : List (Nat × Nat × Nat × Bool)   -- channel, stripe, physical rank, retired (R428)
  deriving DecidableEq, Repr

/-- What JTAG loads into every half's writable store in manufacturing-test mode (R110). -/
structure TestStore where
  micro : List Word
  nano  : List (BitVec 192)
  table : List (BitVec 13)
  deriving DecidableEq, Repr

/-- What the board shows at a deassertion of PERST#: the straps, the flash on the first boot, the DIMMs (log entry 9). -/
structure Board where
  jtag   : TestStore       -- read in manufacturing-test mode only
  straps : BitVec 3
  flash  : Option Flash
  dimms  : List Dimm
  deriving DecidableEq, Repr

/-- A transaction a requester presents to the fabric (R401): port, granules, direction, address. -/
structure Txn where
  port     : Nat
  granules : Nat
  write    : Bool
  addr     : Nat
  id       : Nat
  deriving DecidableEq, Repr

/-- What a read of one line met (R413): clean, corrected, or uncorrectable. -/
inductive EccResult where
  | clean | corrected | uncorrectable
  deriving DecidableEq, Repr

/-- The link as trained (Table 16-8). -/
structure LinkMode where
  protocol : Nat   -- 0 = PCIe, 1 = CXL 1.1, 2 = CXL 2.0, 3 = CXL 3.1
  speed    : Nat   -- 1 to 6
  width    : Nat   -- 1 to 16
  flit     : Bool
  payload  : Nat   -- Max_Payload_Size in bytes (R337, R359)
  deriving DecidableEq, Repr

/-- A PF_NITINOL tile named by its picture and place (R240). -/
structure TileRef where
  base   : Nat     -- picture base address
  width  : Nat
  height : Nat
  chroma : Nat     -- 0 to 3 as header field CHROMA (R42)
  isChroma : Bool  -- a chroma tile
  tx     : Nat
  ty     : Nat
  deriving DecidableEq, Repr

/-- The samples of one source plane, row by row, in the 12-bit form of R239. -/
abbrev Plane := List (List Nat)

/-- What a self-test of a half found (R109). -/
inductive SelfTest where
  | pass               -- every ROM word matches its CRC; patch words that differ are rewritten
  | failRom            -- ROM CRC mismatch
  | failDatapath       -- SRAM or datapath error
  deriving DecidableEq, Repr

/-- A power rail that the device monitors (R499). -/
inductive Rail where
  | vddCc | vddSoc | vddqMc | vddAon
  deriving DecidableEq, Repr

/-- A firmware request block as read from host memory (R464): the outbound slot it came by and its bytes. -/
structure FwBlock where
  slot  : Nat
  bytes : List Byte
  deriving DecidableEq, Repr

end Sys2Proof
end

