-- ==== Sys2Proof/Syntax.lean ====
section
/-! DEFINITION. The commands of the block: one constructor per row of the table of operations and events. -/
namespace Sys2Proof

/-- A command of the ZPN-6416, with the data that comes from outside with it. `fn` is the requesting
function, `q` a global queue ID, `seq` an entry's sequence number, `e` a 64-byte admin or configuration entry,
`half` is 2 × core + h with h = 0 for decode and 1 for encode (Table 19-2), `ch` a DRAM channel. -/
inductive Instr where
  -- work queues (13_work_queues.md)
  | wqDoorbell (fn index off : Nat) (v : Word)
  | entryFetch (q : Nat) (ok : Bool) (entries : List FetchedEntry)
  | chainTmo (q : Nat)
  | completionReservation (q : Nat)
  | decodeAu (q : Nat) (seq : Word) (au : AuParse)
  | encodePicture (q : Nat) (seq : Word)
  | transcodeAu (q : Nat) (seq : Word) (au : AuParse)
  | convertPicture (q : Nat) (seq : Word)
  | analyzePicture (q : Nat) (seq : Word)
  | copy (q : Nat) (seq : Word)
  | flushSession (q : Nat) (seq : Word)
  | fence (q : Nat) (seq : Word)
  | publishHead (q : Nat)
  | modTimer (q : Nat)
  | evqConsWrite (fn : Nat) (v : Word)
  | evqOverflowClear (fn : Nat)
  | admqDb (fn : Nat) (v : Word)
  | cfgqDb (fn : Nat) (v : Word)
  | admqEnable (fn : Nat) (v : Word)
  | admqDisable (fn : Nat) (v : Word)
  | cfgqEnable (fn : Nat) (v : Word)
  -- admin and configuration commands (14_admin_commands.md)
  | createQueue (fn : Nat) (e : Entry)
  | destroyQueue (fn : Nat) (e : Entry)
  | enableQueue (fn : Nat) (e : Entry)
  | disableQueue (fn : Nat) (e : Entry)
  | resetQueue (fn : Nat) (e : Entry)
  | setQueueMod (fn : Nat) (e : Entry)
  | createSession (fn : Nat) (e : Entry) (b : Block)
  | destroySession (fn : Nat) (e : Entry)
  | setSessionParams (fn : Nat) (e : Entry) (b : Block)
  | resetSession (fn : Nat) (e : Entry)
  | querySession (fn : Nat) (e : Entry)
  | createPool (fn : Nat) (e : Entry)
  | destroyPool (fn : Nat) (e : Entry)
  | setClass (fn : Nat) (e : Entry)
  | queryClass (fn : Nat) (e : Entry)
  | setGateList (fn : Nat) (e : Entry) (b : Block)
  | createEventRing (fn : Nat) (e : Entry)
  | destroyEventRing (fn : Nat) (e : Entry)
  | queryFunction (fn : Nat) (e : Entry)
  | restructure (e : Entry) (b : Block)
  | restructureInForce
  | spareRank (e : Entry)
  | retireRank (e : Entry)
  | queryImage (e : Entry)
  -- dispatch (12_dispatch.md)
  | scheduleDecision (kind : ResKind)
  | unitDispatch (entry : Nat)
  | bucketRefill
  | gateClaim (lane : Nat)
  | gateWindowOpen (lane : Nat)
  | gateWindowClose (lane : Nat)
  | gateListSwitch (lane : Nat)
  -- the context store (02_sessions.md)
  | preloadDone (half bank : Nat)
  | contextPrefetch
  | bankDrainDone (half bank : Nat)
  -- the coding core and its control store (03, 04, 05)
  | microwordIssue (half : Nat) (x : IssueIn)
  | fifoTailFlush (half : Nat)
  | commitFlip (entry : Nat)
  | requestArrival (half : Nat) (r : SeqReq) (tag : BitVec 16)
  | waitWatchdog (half : Nat)
  | decodeBudgetAbort (half : Nat)
  | encodeBudgetAbort (half : Nat)
  | machineCheck (half cause : Nat) (uaddr : BitVec 13)
  | fenceDec (core : Nat) (abort : Bool)
  | fenceEnc (core : Nat) (abort : Bool)
  | unfenceDec (core : Nat)
  | unfenceEnc (core : Nat)
  | selfTestDone (half : Nat) (r : SelfTest)
  | clockChange (core mhz : Nat)
  | clockSettled (core : Nat)
  | rcacheParity (cluster : Nat) (addr : Nat)
  -- rate control (08_rate_control.md)
  | rcuRowRequest (half row spent : Nat)
  | rcuRowDecision
  | rcuPlanRequest (session pic : Nat)
  | rcuPlanDone (maps : List MapRead)
  | invarRestart
  -- analysis and conversion (09, 11)
  | mauUnitDone (engine : Nat) (src : Block) (prev : Plane)
  | mauParity (engine : Nat)
  | pcfPassDone (pipe : Nat) (luma chroma : List Byte) (poisoned : Bool)
  | pcfParity (pipe : Nat)
  -- Nitinol engines (10_picture_formats.md)
  | tileWrite (t : TileRef) (samples : List (Nat × Nat))
  | tileRead (t : TileRef)
  | tileMerge (t : TileRef)
  -- fabric and DRAM (18_memory.md)
  | portGrant (cluster : Nat) (reqs : List (Nat × Txn))
  | ingressGrant (ch : Nat) (reqs : List Txn)
  | creditRefill (ch : Nat)
  | backoffExpiry (ch port : Nat)
  | writeAck (ch id : Nat) (addr : Nat) (data : List Byte)
  | mfxWeightWrite (ch port : Nat) (v : Word)
  | dramCommand (ch : Nat)
  | dramReadData (ch : Nat) (addr : Nat) (r : EccResult)
  | refreshDue (ch rank : Nat)
  | calibrationDue (ch : Nat)
  | calibrationDone (ch : Nat)
  | dimmThermalRead (ch : Nat) (temp : Int)
  | powerDownEntry (ch rank : Nat)
  | selfRefreshEntry (ch : Nat)
  | selfRefreshExit (ch : Nat)
  | patrolScrubRead (ch : Nat) (r : EccResult)
  | ceWindowEnd
  | migrationCopy (ch : Nat) (bad : BitVec 64) (r : EccResult)
  | rankRecordWrite
  -- the data mover (15_data_mover_buffers.md)
  | dmvChDb (fn chan : Nat) (v : Word)
  | channelEnable (fn chan : Nat) (v : Word)
  | channelDisable (fn chan : Nat) (v : Word)
  | dmvChBaseWrite (fn chan : Nat) (v : DWord)
  | descriptorRead (g : Nat) (ok : Bool) (descs : List (BitVec 256))
  | readBurstDone (u : DmvUser) (poisoned : Bool) (data : List Byte)
  | writeRequestIssue (u : DmvUser)
  | descriptorWriteback (g : Nat)
  | demandRead (half : Nat) (space addr len : Nat)
  | demandWrite (half : Nat) (window : Nat) (addr : Nat) (data : List Byte)
  | demandWriteHold (half : Nat)
  | dmvBufferParity (u : DmvUser)
  | bpmAllocReq (fn : Nat) (v : Word)
  | bpmFree (fn : Nat) (v : Word)
  | poolArbitration (pool : Nat)
  | allocBackoff (g : Nat)
  | allocWaitExpiry (g : Nat)
  | poolCacheRefill (pool : Nat)
  | poolCacheSpill (pool : Nat)
  -- interrupts, mailboxes, semaphores (17_interrupts_mailboxes.md)
  | sourceAssert (source : Nat) (level : Bool)
  | imbClaim (fn : Nat)
  | imbComplete (fn : Nat) (v : Word)
  | imbThreshold (fn : Nat) (v : Word)
  | imbLsrcB (fn slot : Nat) (v : Word)
  | msixUnmask (fn vector : Nat)
  | mbxOutSlot (side : MbxSide) (k w : Nat) (v : Word)
  | mbxOutDb (side : MbxSide) (v : Word)
  | mbxInDb (side : MbxSide) (v : Word)
  | mbxTimeout (side : MbxSide) (k : Nat)
  | semAcquire (target n : Nat)
  | semRelease (target n : Nat) (v : Word)
  -- reset inputs, supplies and clocks (22_package_electrical.md)
  | perstAssert
  | perstDeassert (b : Board)
  | pwrgoodFall
  | pwrgoodRise
  | railUndervoltage (r : Rail) (ns : Nat)
  | refclkLoss
  | xtalLoss (ns : Nat)
  -- the host link (16_host_link.md)
  | hotReset
  | linkDown
  | linkTrained (m : LinkMode)
  | flr (fn : Nat)
  | flrComplete (fn : Nat)
  | vfEnableClear
  | d3hotEntry (fn : Nat)
  | d0Return (fn : Nat)
  | pmeTurnOff
  | aspmL1Entry (idleUs : Nat)
  | l1Exit
  | l0pReduce (percent ms : Nat)
  | l0pRestore (percent : Nat)
  | ptmRequest
  | ptmResponse (root : DWord)
  | hdmDecoderCommit (d : Nat) (host dev size : Nat)
  | cxlMemRead (addr : Nat) (caches : Bool)
  | cxlMemWrite (addr : Nat) (data : List Byte) (poison : Bool)
  | bar4Access (off : Nat) (write : Bool) (len : Nat) (data : Block)
  | bisnpResponse (line : Nat) (dirty : Option (List Byte))
  | snoopReceived (addr : Nat)
  | ideIntegrityFail (stream : Nat)
  | ideKeyProgram (stream : Nat)
  | spdmRequest (code : Nat) (param : Nat) (secured : Bool)
  -- faults and recovery (19_faults_recovery.md)
  | faultRecord
  | fclPop (v : Word)
  | firstValidClear
  | aliveResume
  | policyWindowEnd (hour : Bool)
  | lockstepMismatch (pair : Nat)
  | firmwareRestartDone (pair : Nat)
  | electrumLineError (session : Nat)
  | thermalReading (temps : List Int)
  -- boot and firmware (20_boot_configuration.md)
  | bootComplete
  | bootTimeout
  | arbBurn (kind : ArbKind)
  | fwInfo (b : FwBlock)
  | fwEnrollOwner (b : FwBlock)
  | fwFlashWrite (b : FwBlock)
  | fwDebugUnlock (b : FwBlock)
  -- register access (00_scope.md, 21_register_map.md, 22_package_electrical.md)
  | tgtRead (index : Nat)
  | telemetrySnapshot
  | ctxQueryIdWrite (v : Word)
  | dscClassQueryWrite (v : Word)
  | qeQueryIdWrite (v : Word)
  | bpmQueryIdWrite (v : Word)
  | queryResultValid (k : QueryKind)
  | regWrite (fn off : Nat) (be : BitVec 4) (v : List Word)
  | rcRead (fn off : Nat)
  | pairLowRead (fn off : Nat)
  | pairHighRead (fn off : Nat)
  | pairLowWrite (fn off : Nat) (v : Word)
  | pairHighWrite (fn off : Nat) (v : Word)
  | unalignedRead (fn off len : Nat)
  | vfEnableSet (numVfs : Nat)
  | pwrgoodSettleTime (b : Board)
  | flushReadCompletion (q : Nat)
  | hostBiasResponse (line : Nat) (data : Option (List Byte))
  | fclParityError
  | clusterPortError (cluster : Nat)
  | nitinolEngineError (engine : Nat) (merge : Bool) (addr : Nat)
  deriving DecidableEq, Repr

end Sys2Proof
end

