-- ==== Sys2Proof/Decode.lean ====
section
/-! DEFINITION. The decoder of table words. No row of the table of operations gives bits, so no word spells a command. -/
namespace Sys2Proof

/-- The command a word of the table spells: none, because no row of the table gives bits (log entry 1). -/
def decodeTableWord (_nbits _w : Nat) : Option Instr := none

end Sys2Proof
end

