-- ==== Sys2Proof/Config.lean ====
section
/-! DEFINITION. What an implementation fixes and the spec does not state: constants without a body, so that
nothing can be proved of their values (log entries 5, 8, 10, 16). -/
namespace Sys2Proof.Config

/-- Free values: the n-th value the spec leaves open, at any width (log entry 5). -/
opaque freeValue (n : Nat) (w : Nat) : BitVec w
/-- The n-th open value of a work unit, the same whenever the unit runs again (R47; log entry 5). -/
opaque unitValue (unit n : Nat) (w : Nat) : BitVec w
/-- Bytes of a context head in the regions whose inner layout the spec leaves open: session, unit number, offset (Table 2-3;
log entry 42). -/
opaque headByte (session unit off : Nat) : BitVec 8
/-- The micro ROM, fixed at manufacture (R105; log entry 8). -/
opaque microRom (a : Nat) : BitVec 32
/-- The nano ROM (R105; log entry 8). -/
opaque nanoRom (a : Nat) : BitVec 192
/-- OPTABLE, a ROM table of 1,024 addresses (R94; log entry 8). -/
opaque opTable (i : Nat) : BitVec 13
/-- SHA-384 of a byte string (log entry 10). -/
opaque sha384 (b : List (BitVec 8)) : BitVec 384
/-- ECDSA P-384 verification of a digest under a public key given as KEY_X ‖ KEY_Y, with r ‖ s (log entry 10). -/
opaque ecdsaOk (key : List (BitVec 8)) (digest : BitVec 384) (rs : List (BitVec 8)) : Bool
/-- Verification under the Proush root key whose hash is ROOT_HASH (log entry 10). -/
opaque rootOk (digest : BitVec 384) (rs : List (BitVec 8)) : Bool
/-- AES-256-GCM under PATCH_KEY: the payload where the tag is right (log entry 10). -/
opaque gcmOpen (iv aad tag payload : List (BitVec 8)) : Option (List (BitVec 8))
/-- The firmware's own signed header, whose layout is the firmware's: its signature's validity under the Proush root key, its
anti-rollback level and its version (R458, R460; log entry 9). -/
opaque fwSigOk (b : List (BitVec 8)) : Bool
opaque fwArb (b : List (BitVec 8)) : Nat
opaque fwVersion (b : List (BitVec 8)) : BitVec 32
/-- SHA-384 of the boot ROM (R468; log entry 10). -/
opaque romDigest : BitVec 384
/-- The fused UNIQUE_ID (R457; log entry 10). -/
opaque uniqueId : BitVec 64
/-- The fused ROOT_HASH (R457; log entry 10). -/
opaque rootHash : BitVec 384
/-- Largest luma picture size of a codec's level x 10, a table of the coding standard (log entry 16). -/
opaque levelLuma (codec level : Nat) : Nat
/-- Largest luma sample rate of a codec's level (log entry 16). -/
opaque levelRate (codec level : Nat) : Nat
/-- Maximum bit rate of a level and tier, in bit/s (log entry 16). -/
opaque levelBitrate (codec level tier profile : Nat) : Nat
/-- Maximum CPB size of a level and tier, in bits (log entry 16). -/
opaque levelCpb (codec level tier profile : Nat) : Nat
/-- The level's limit on the size of one coded picture, in bytes (R204; log entry 16). -/
opaque levelPicBytes (codec level tier : Nat) : Nat
/-- The level's limits on tile columns, tile rows and tiles in a picture (R183; log entry 16). -/
opaque levelTileCols (codec level : Nat) : Nat
opaque levelTileRows (codec level : Nat) : Nat
opaque levelTiles (codec level : Nat) : Nat
/-- The level's limit on the slices of a picture (Table 5-7; log entry 16). -/
opaque levelSlices (codec level : Nat) : Nat
/-- The codec's minimum tile width and height in luma samples (R183; log entry 16). -/
opaque minTileWidth (codec : Nat) : Nat
opaque minTileHeight (codec : Nat) : Nat
/-- The standard's AC quantiser lookup of VP9 and AV1 (R205; log entry 16). -/
opaque acQ (codec depth q : Nat) : Nat
/-- The planar prediction of a 16 × 16 block from the column of samples left of it and the row above it, a form that R195 names without its
formula (log entry 17). -/
opaque planarPredict (left top : List Nat) : List (List Nat)
/-- A mean or an interpolated sample that is no whole number is rounded up: numerator, denominator (R195, R222; log entry 17). -/
opaque roundsUp (n d : Nat) : Bool
/-- The DRAM's minimum self-refresh residence in ns, a figure of the DIMM (R420). -/
opaque srResidence : Nat
/-- Bank within a bank group, and row, of a run of 4 KiB pages of one bank group: the mapping that R400 leaves open
beside the bank groups of consecutive pages (log entry 21). -/
opaque dramBank (run : Nat) : Nat
opaque dramRow (run : Nat) : Nat
/-- The coding standards' reconstruction of some CTUs of a picture before its in-loop filters: codec, parameter sets, coded units and the
picture's first, the samples of its references in the 12-bit form, the CTUs, those that are concealed, and the picture so far
(R66, R117; log entry 78). -/
opaque reconstruct (codec : Nat) (psets : List (Nat × List (BitVec 8))) (units : List (List (BitVec 8))) (first : Nat)
  (refs : List (List (List (List Nat)))) (ctus off : List (Nat × Nat)) (before : List (List (List Nat))) : List (List (List Nat))
/-- One in-loop filter of a standard over a part of a picture: inside some CTUs, or across the segments (R68; log entry 78). -/
opaque loopFilter (codec filter : Nat) (psets : List (Nat × List (BitVec 8))) (units : List (List (BitVec 8))) (first : Nat) (across : Bool)
  (ctus off : List (Nat × Nat)) (ps : List (List (List Nat))) : List (List (List Nat))
/-- The motion side record of a decoded block with its error-map value, and of a concealed block that copies from a picture with zero
motion, in a layout the spec does not give (R63, R154; log entry 78). -/
opaque motionRecord (codec : Nat) (psets : List (Nat × List (BitVec 8))) (units : List (List (BitVec 8))) (first block mark : Nat) : BitVec 128
opaque concealedRecord (codec ref : Nat) : BitVec 128
/-- MD5, CRC or checksum of a decoded picture as the hash SEI message defines it: method, depths, samples (R164; log entry 78). -/
opaque pictureHash (method depthY depthC : Nat) (ps : List (List (List Nat))) : List (BitVec 8)
/-- AV1's film-grain synthesis with a frame's parameters, seed included (R162; log entry 78). -/
opaque filmGrain (params : List (BitVec 8)) (depthY depthC : Nat) (ps : List (List (List Nat))) : List (List (List Nat))
/-- A parameter set or sequence header of a coding standard: codec, kind, profile, level and tier with the session's sizes and formats, its
parameter block, and the HRD figures where they are signalled (R132, R213, R513; log entry 80). -/
opaque paramSet (codec kind : Nat) (header : List Nat) (block : BitVec 7680) (hrd : List Nat) : List (BitVec 8)
/-- An access unit delimiter or an SEI message that the encoder generates: codec, kind, what it says of the picture (R132, R182, R213; log
entry 80). -/
opaque pictureUnit (codec kind : Nat) (facts : List Int) : List (BitVec 8)
/-- The header of a slice or frame with its NAL unit header: codec, parameters, what it says of the picture, first CTU (R132, R133, R213; log
entry 80). -/
opaque sliceHead (codec : Nat) (header : List Nat) (block : BitVec 7680) (hrd : List Nat) (facts : List Int) (first : Nat) : List (BitVec 8)
/-- The vector range of a codec in luma samples (Table 3-3; log entry 16). -/
opaque mvRange (codec : Nat) : Nat
/-- The predictors of a block's spatial and temporal neighbours in order of priority, for a reference at a display distance (Table 3-3; log
entry 83). -/
opaque neighbourSeed (codec rank bx by_ : Nat) (dist : Int) (size : List Nat) : Int × Int
/-- What an encode half decides for a block, within the limits it is given: codec, parameters, figures of the decision, seeds of each
reference, source and reference samples. Bits: vector 0, vector 1, mode, reference 0, reference 1, skip, coding-block size (R69, R178, R195;
log entry 83). -/
opaque blockChoice (codec : Nat) (block : BitVec 7680) (facts : List Int) (seeds : List (List (Int × Int))) (src : List (List (List Nat)))
  (refs : List (List (List (List Nat)))) : BitVec 128
/-- The inter prediction of a block that a decision gives, 16 × 16 luma samples (R195; log entry 83). -/
opaque predictInter (codec choice bx by_ : Nat) (refs : List (List (List Nat))) : List (List Nat)
/-- A film-grain scaling value fitted to the difference of a source and its pre-filtered form over some blocks (R187; log entry 80). -/
opaque grainPoint (k : Nat) (blocks : List (Nat × Nat)) (src filtered : List (List (List Nat))) : BitVec 8
/-- Chroma format of the PF_NITINOL picture of a size at an address, which a CONVERT_PICTURE entry does not name (log entry 25). -/
opaque nitinolChroma (addr w h : Nat) : BitVec 2
/-- SPDM responses of the management processors (R379; log entry 10). -/
opaque spdmResponse (code param : Nat) : BitVec 64

end Sys2Proof.Config
end

