-- ==== Sys2Proof/Machine/Table.lean ====
section
/-! DEFINITION. Sparse tables: the canonical form in which the state holds device memory, registers files and
numbered objects. Keys rise strictly, and no entry equals what an unlisted key reads as. -/
namespace Sys2Proof.Machine

/-- A sparse table: pairs of a key and a value. -/
abbrev Tbl (α : Type) := List (Nat × α)

/-- The value at key `i`; an unlisted key reads `d`. -/
def tblGet {α : Type} (d : α) : Tbl α → Nat → α
  | [], _ => d
  | (k, v) :: t, i => if k = i then v else tblGet d t i

/-- The table without key `i`. -/
def tblErase {α : Type} : Tbl α → Nat → Tbl α
  | [], _ => []
  | (k, v) :: t, i => if k = i then tblErase t i else (k, v) :: tblErase t i

/-- The table with `v` at key `i`, keys kept rising. -/
def tblInsert {α : Type} : Tbl α → Nat → α → Tbl α
  | [], i, v => [(i, v)]
  | (k, w) :: t, i, v =>
    if i < k then (i, v) :: (k, w) :: t
    else if i = k then (i, v) :: t
    else (k, w) :: tblInsert t i v

/-- Write `v` at key `i`: the value an unlisted key reads removes the entry. -/
def tblSet {α : Type} [DecidableEq α] (d : α) (t : Tbl α) (i : Nat) (v : α) : Tbl α :=
  if v = d then tblErase t i else tblInsert t i v

/-- Change the value at key `i` by `f`. -/
def tblMod {α : Type} [DecidableEq α] (d : α) (t : Tbl α) (i : Nat) (f : α → α) : Tbl α :=
  tblSet d t i (f (tblGet d t i))

/-- Keys rise strictly. -/
def tblSorted {α : Type} : Tbl α → Bool
  | [] => true
  | (_, _) :: [] => true
  | (k, _) :: (k', v') :: t => decide (k < k') && tblSorted ((k', v') :: t)

/-- The canonical form of a table whose unlisted keys read `d`. -/
def tblWf {α : Type} [DecidableEq α] (d : α) (t : Tbl α) : Bool :=
  tblSorted t && t.all fun p => decide (p.2 ≠ d)

/-- The list of keys. -/
def tblKeys {α : Type} (t : Tbl α) : List Nat := t.map Prod.fst

end Sys2Proof.Machine
end

