-- ==== Sys2Proof/Machine/State.lean ====
section
/-! DEFINITION. The state of the ZPN-6416 as plain data, the reasons a command can stop, and the state at cold reset. -/
namespace Sys2Proof.Machine

/-- Why the model stops with a fault. -/
inductive Fault where
  /-- A device physical address the spec says does not exist, at or above 16 × S × RS (R399), reached by a
  command that names device memory directly. Safe: the model stops where the hardware has no such byte. -/
  | noSuchAddress (addr : Nat)
  deriving DecidableEq, Repr

/-- Why the model refuses a command. -/
inductive Refusal where
  /-- No meaning yet for the command with this mnemonic. Raised by the dispatch table alone. Safe. -/
  | notModelled (mnemonic : String)
  deriving DecidableEq, Repr

/-! ### The Rirak image (20_boot_configuration.md) -/

/-- A region of the MEMORY_MAP section (Table 20-9). -/
structure Region where
  base  : Nat
  size  : Nat
  grant : BitVec 64
  kind  : Nat
  id    : Nat
  hdm   : Bool
  deriving DecidableEq, Repr

/-- A function record (Table 20-10). -/
structure FnRec where
  queues   : Nat
  pools    : Nat
  channels : Nat
  sessions : Nat
  vectors  : Nat
  classes  : Nat
  deriving DecidableEq, Repr

/-- A class record (Table 20-11). -/
structure ClassRec where
  cls       : Nat
  parent    : Nat
  owner     : Nat
  lane      : Nat
  maxWeight : Nat
  maxRate   : Nat
  deriving DecidableEq, Repr

/-- One gate-list entry (Table 12-3). -/
structure GateEntry where
  interval : Nat
  isOpen   : Bool
  resDec   : Nat
  resEnc   : Nat
  deriving DecidableEq, Repr

/-- A gate list with its lane parameters (Table 12-4). -/
structure GateList where
  base    : Nat
  guardF  : Nat
  lead    : Nat
  preempt : Bool
  list    : List GateEntry
  deriving DecidableEq, Repr

/-- A filter bank of 64 phases (R259). -/
structure FilterBank where
  ratio  : Nat
  luma   : List Int
  chroma : List Int
  deriving DecidableEq, Repr

/-- A route template (Table 11-2). -/
structure Template where
  id       : Nat
  chroma   : Nat
  depth    : Nat
  dither   : Nat
  siteInH  : Bool
  siteInV  : Bool
  siteOutH : Bool
  siteOutV : Bool
  mInEn    : Bool
  mOutEn   : Bool
  lutEn    : Bool
  mIn      : List Int
  mOut     : List Int
  deriving DecidableEq, Repr

/-- A route of a device interrupt source (R476). -/
structure Route where
  source : Nat
  target : Nat
  prio   : Nat
  deriving DecidableEq, Repr

/-- The fault policy (Table 19-6). -/
structure Policy where
  autoUnfence  : Bool
  mchkLimit    : Nat
  unitLimit    : Nat
  mpLimit      : Nat
  escalateUc   : Bool
  aliveClasses : BitVec 4
  autoMigrate  : Bool
  ceThresh     : Nat
  deriving DecidableEq, Repr

/-- The defaults of Table 19-6. -/
def Policy.default : Policy :=
  { autoUnfence := true, mchkLimit := 3, unitLimit := 3, mpLimit := 1, escalateUc := false,
    aliveClasses := 0b0100#4, autoMigrate := true, ceThresh := 1024 }

/-- A Rirak image as its sections say (R469 to R478). -/
structure Image where
  version   : Word
  arb       : Nat
  permit    : BitVec 16
  clusterEn : BitVec 8
  ranks     : Nat
  width     : Nat
  density   : Nat
  rateMax   : Nat
  spareEn   : Bool
  regions   : List Region
  fns       : List FnRec
  classes   : List ClassRec
  lanes     : List (Nat × GateList)
  banks     : List FilterBank
  templates : List Template
  routes    : List Route
  defPrio   : BitVec 16
  semPermit : List (BitVec 68)
  policy    : Policy
  digest    : BitVec 384
  deriving DecidableEq, Repr

/-! ### Sessions (02, 05 to 09) -/

/-- Session states (Table 2-1). -/
inductive SessState where
  | free | parked | ready | cached | running | draining | sessionReset | error
  deriving DecidableEq, Repr

/-- Session parameters: the header fields of R42 that a command sets, and the 960-byte parameter block (Table 14-6). -/
structure Params where
  cls      : Nat
  depthC   : Nat
  depthY   : Nat
  chroma   : Nat
  encode   : Bool
  codec    : Nat
  conceal  : Nat
  lookahead : Nat
  gangMax  : Nat
  dpbSlots : Nat
  maxW     : Nat
  maxH     : Nat
  block    : BitVec 7680
  deriving DecidableEq, Repr

/-- A contiguous reservation of device memory (R329). -/
structure Range where
  base : Nat
  size : Nat
  deriving DecidableEq, Repr

/-- A host buffer of the output queue (R146). -/
structure OutBuf where
  seq   : Word
  index : Nat
  space : Nat
  addr  : Nat
  size  : Nat
  deriving DecidableEq, Repr

/-- A decoded picture that holds a reference slot of the session (R147, R148, R151). -/
structure Pict where
  num     : Nat
  slot    : Nat
  width   : Nat
  height  : Nat
  isRef   : Bool
  awaiting : Bool      -- awaiting output, not yet due
  due     : Bool       -- due and held for a buffer
  grain   : Bool
  grainP  : List Byte  -- its film-grain parameters (R162)
  codedW  : Nat        -- size and cropping of the picture in its slot; chroma format and depths (R144, R145)
  codedH  : Nat
  cropX   : Nat
  cropY   : Nat
  chroma  : Nat
  depthY  : Nat
  depthC  : Nat
  parity  : Nat        -- the field it holds: 1 top, 2 bottom; 0 for a frame or a complementary pair (R119)
  mate    : Option Nat -- of a complementary pair, the number of its first field
  latency : Nat        -- pictures decoded since it that follow it in output order (R145)
  marks   : List Nat   -- error-map values of its blocks, in raster order (R166)
  dflags  : BitVec 16
  virtual : Bool       -- the virtual picture of R159, shown in place of a missing one
  readers : Nat        -- 1 while it is being decoded, and 1 from its release until its readers are queued (R16)
  rap     : Bool       -- a random access point (KEY_FOLLOW)
  order   : Int        -- picture order count, order hint or frame number (Table 6-10 ORDER)
  relIndex : Option Nat -- release index, R151; none before its release to the MAU, the PCF or a ladder
  deriving DecidableEq, Repr

/-- A source picture taken in by an encode session, or handed to a rendition (R172, R180). -/
structure SrcPic where
  index    : Nat          -- display index
  entryQ   : Nat          -- queue and SEQ of the entry it belongs to
  entrySeq : Word
  slot     : Nat
  width    : Nat
  height   : Nat
  taken    : Bool         -- intake has completed
  forceKey : Bool         -- FORCE_KEY asked; once decided, that FORCE_KEY, KEY_PERIOD, the size or KEY_FOLLOW made it a key picture
  sizeKey  : Bool
  firstKey : Bool
  followKey : Bool        -- KEY_FOLLOW or rendition 0 decided a key picture here
  score    : Nat
  decided  : Bool
  key      : Bool
  keyScene : Bool         -- the scene cut made it a key picture
  bpic     : Bool         -- coded as a B picture
  layer    : Nat
  hiddenWith : Bool       -- coded as hidden frame plus show_existing (R181)
  codedIx  : Option Nat   -- CODED_INDEX
  refs     : List Nat     -- display indices it predicts from
  coded    : Bool
  kind     : Nat          -- PIC_TYPE: 0 key, 1 P, 2 B, 5 hidden
  feed     : Option (Nat × Nat) -- rendition: source session and release index
  lead     : Option (Nat × Nat) -- rendition: rendition 0's session and its display index (R188)
  ruled    : Option Bool  -- rendition 0's decision for the picture, once made (R188)
  hidden_  : Bool         -- its hidden frame has committed (R181)
  direct   : Bool         -- a rendition's picture that is the decoded picture itself (R255)
  ready    : Bool         -- its samples are readable: intake or the PCF pass has committed, or it is read directly
  showOrd  : Nat          -- place in coding order of the unit that shows its hidden frame
  failed   : Nat          -- code with which its last entry ended; 0 while an entry holds it (R172)
  band     : Option Nat   -- with REFRESH, its place in the sweep (R182)
  store    : Range        -- a rendition's picture that a pass converts: where its samples lie (R14)
  deriving DecidableEq, Repr

/-- The MAU block record of Table 9-2. -/
structure MauBlock where
  mvp   : Int × Int
  mvn   : Int × Int
  satdP : Nat
  satdN : Nat
  intra : Nat
  act   : Nat
  deriving DecidableEq, Repr

/-- An analysed picture: its analysis slot, field and picture record (R219, Table 9-3). -/
structure AnaPic where
  index   : Nat
  slot    : Nat
  width   : Nat
  height  : Nat
  complete : Bool
  final   : Bool
  first   : Bool
  fwd     : Bool
  flushed : Bool
  field   : List MauBlock
  score   : Nat
  meanY   : Nat
  seq     : Word
  deriving DecidableEq, Repr

/-- Invar's state of an encode session, fixed point with 16 fractional bits where a fraction is held (R203, R205, R211). -/
structure RcState where
  e    : Int
  f    : Int
  kKey : Nat
  kL0  : Nat
  kHi  : Nat
  deriving DecidableEq, Repr

/-- A picture plan of Invar (R203 to R206). -/
structure Plan where
  pic    : Nat
  target : Nat
  cap    : Nat
  qPic   : Int
  hdr    : Nat
  cPic   : Nat                       -- complexity, 16 fractional bits
  segs   : List (Nat × Nat × List Nat)   -- H_s, T_s, row complexities
  roi    : List Byte                 -- the ROI map and the hint map as the picture reads them (R184, R185)
  hints  : List Byte
  deriving DecidableEq, Repr

/-- A piece of a picture in the staging area: 0 for the units before the first slice or frame, k + 1 for segment k; its runs of bytes with
their marks (R137). -/
structure Piece where
  part   : Nat
  chunks : List (FifoMark × Nat)
  deriving DecidableEq, Repr

/-- The decision for one 16 × 16 block of a coded picture, as its block record reports it (Table 7-8). -/
structure BlockRec where
  x     : Nat
  y     : Nat
  mode  : Nat
  ref0  : Nat
  ref1  : Nat
  skip  : Bool
  qp    : Int
  mv0   : Int × Int
  mv1   : Int × Int
  satd  : Nat
  intra : Nat
  act   : Nat
  deriving DecidableEq, Repr

/-- The result gathered for a picture while its units run (Tables 6-10, 7-7). -/
structure PicResult where
  pic     : Nat
  started : Bool      -- its picture start has committed, and its picture finish has not (R516)
  segs    : List Nat  -- its segments that have committed
  cycles  : Nat
  estSum  : Nat       -- sum of est_cycles with EST_CORR taken as 256 (R280)
  bytes   : Nat
  filler  : Nat      -- bytes of them that are filler (R212)
  units   : Nat      -- NAL units, OBUs or frames written (Table 5-10)
  stage1  : Bool
  stage2  : Bool
  window  : Bool
  budget  : Bool
  missing : Bool      -- a reference that its picture predicts from is missing (R159)
  blocks  : List BlockRec -- of a coded picture: the decisions for its blocks (R193, R195)
  pieces  : List Piece -- of a coded picture: its pieces in the staging area (R137)
  damages : List Damage
  deriving DecidableEq, Repr

/-- A member slot: the segment it holds plus 1, its progress in CTUs, and its entropy synchronisation state (R53). -/
structure Member where
  seg  : Nat
  done : Nat
  sync : List Byte
  deriving DecidableEq, Repr

/-- A session: its directory entry, header, parameters, stream state and reservations. -/
structure Session where
  state    : SessState
  fn       : Nat
  vsel     : Bool
  stale    : BitVec 48
  par      : Params
  pendPar  : Option Params
  unitSeq  : Word
  pictures : DWord
  commitTime : DWord
  refR     : Range
  srcR     : Range
  stageR   : Range
  mauR     : Range
  nextR    : List Range       -- ranges that the pending parameters bring: reference, source, staging, analysis (R329)
  oldR     : List Range       -- ranges given up when the unit that applies them commits (R329)
  estCorr  : Nat
  prevHdr  : Nat
  sTag     : Nat
  fTag     : Nat
  lastCluster : Option Nat
  destroyAfter : Bool         -- DRAINING ends in FREE rather than PARKED
  destroyer : Option (Nat × Word) -- admin command (function, TAG) that waits for FREE
  -- decode
  beforeRap : Bool
  skip     : Bool
  recovering : Bool           -- decoding began at the last random access point: its associated pictures are treated (R152)
  recoverTo : Option Int      -- the recovery point to come: its frame_num or picture order count (R152)
  recoverAt : Option Int      -- the recovery point's picture order count, once it is decoded (R152)
  outq     : List OutBuf
  pics     : List Pict
  picNext  : Nat
  outIndex : Nat
  relCount : Nat
  ladder   : Option (List Nat)
  flushes  : List Nat         -- flush points: display indices, or release indices, before which a flush took effect (R177)
  -- encode
  intakeOp : Nat              -- 0 none, 2 ENCODE_PICTURE, 5 ANALYZE_PICTURE (R229)
  nextIndex : Nat
  src      : List SrcPic
  codedNext : Nat
  anchor   : Option Nat       -- display index of the last key or anchor picture
  refreshPos : Nat
  since    : List Nat         -- the last four pictures coded since the last key picture (R179)
  size     : Nat × Nat        -- size of the last source picture (R171)
  recons   : List (Nat × Nat) -- reference slots that hold coded pictures: display index, slot (R16)
  grain    : List Nat        -- film-grain scaling values that the last shown frame carried; none where none did (R187)
  headSets : Option (List (List Byte)) -- parameter sets or sequence header written last (R132)
  hiddenHeld : Option (Nat × Nat)   -- hidden frame in staging: display index, bytes (R181)
  rc       : RcState
  plans    : List Plan        -- plans of pictures not yet coded (R201, R215)
  -- analysis
  ana      : List AnaPic
  anaNext  : Nat             -- one past the last picture that the MAU has analysed (R175)
  anaSize  : Nat × Nat       -- size of that picture; (0, 0) for none (R225)
  results  : List PicResult
  zero     : List Nat         -- lines to zero before the next unit (R442)
  rebuild  : Bool             -- reservation to be taken again (R426)
  members  : Tbl Member       -- the 16 member slots of the unit bookkeeping, by gang position (Table 2-3, R53)
  psets    : Tbl (List Byte)  -- the parameter-set store: kind × 64 + identifier (Table 2-3, R131)
  deriving DecidableEq, Repr

/-! ### Work units and Babbitt (02, 12) -/

/-- Kinds of work unit. -/
inductive UKind where
  | start | segment | finish | fused | release | mau | pcf
  deriving DecidableEq, Repr

/-- Where a work unit stands. -/
inductive UStage where
  | queued                                   -- in Babbitt
  | hinted (half bank : Nat) (at_ : Nat) (startT : Nat) -- hint sent at `at_`, projected start `startT`
  | running (place : Nat)                    -- half, engine or pipe
  | committing (place : Nat) (halfBank : Nat) -- final CHECKPOINT passed; waits for its flip
  deriving DecidableEq, Repr

/-- One of a unit's 16 address windows (R73); `also` holds the space, base and size of a second buffer of the window. -/
structure Window where
  base    : Nat
  size    : Nat
  space   : Nat
  read    : Bool
  write   : Bool
  nitinol : Bool
  cached  : Bool
  fail    : Bool
  also    : List (Nat × Nat × Nat)
  deriving DecidableEq, Repr

/-- A work unit. -/
structure WUnit where
  uid     : Nat
  kind    : UKind
  stage   : UStage
  q       : Nat
  seq     : Word
  session : Nat            -- session whose class schedules it; 2^20 and above: none
  rend    : Option Nat     -- rendition of a ladder
  fn      : Nat
  cls     : Nat
  pic     : Nat            -- picture number or display index
  seg     : Nat
  samples : Nat
  luma    : Nat
  ctus    : Nat
  bytes   : Nat
  cost    : Nat            -- C of R276, in ns at nominal clock
  estRaw  : Nat            -- est_cycles with EST_CORR as 256
  budget  : Nat
  cycles  : Nat
  charged : Bool           -- tags advanced for it (R290)
  front   : Bool           -- rolled back: at the front of its session
  tag     : BitVec 16      -- in-flight tag; meaningful while hinted, running or committing
  written : BitVec 48      -- tail granules written
  aborted : Bool           -- budget reached: the concealment routine runs
  mchk    : List Nat       -- halves whose machine checks rolled it back
  windows : List Window
  wantDrop : Bool          -- discard at rollback rather than queue again (R35, R38, R516)
  slot    : Nat            -- decode: the reference slot it decodes into; MAU: the source slot it fills
  show_   : Bool           -- encode: the unit that shows a hidden frame (R181)
  runT    : Nat            -- DEV_TIME at which it started
  ord     : Nat            -- encode: place in coding order, twice CODED_INDEX, and one more for a unit that shows a hidden frame
  skips   : Bool           -- decode: it decodes no picture (R515)
  done    : Nat            -- CTUs it has completed
  first   : Nat            -- its first CTU in coding order
  outputs : List Nat       -- PCF: output numbers or rendition numbers of the pass
  lut     : Nat
  lines   : List Nat       -- device-memory lines it wrote (R45 step 2)
  cols    : Nat            -- CTU columns of its segment, the picture's CTU row at which it begins, and the picture's CTU rows
  row0    : Nat
  rows    : Nat
  par     : Option Params  -- the parameters it runs with: those of its picture's start, once dispatched (R40)
  seed    : Nat            -- what its open values are drawn from, fixed as it is queued (R47)
  steps   : Nat            -- open values drawn since its start
  avoid   : List Nat       -- halves that a fence took it from (R83)
  deriving DecidableEq, Repr

/-- A scheduler class's parameters and tags (R275, R276, R282). -/
structure Cls where
  weight : Nat
  rate   : Nat
  burst  : Nat
  sTag   : Nat
  fTag   : Nat
  vTime  : Nat
  bucket : Int
  deriving DecidableEq, Repr

/-- A gate lane (R283 to R287). -/
structure Lane where
  cur     : GateList
  next    : Option (GateList × Nat)    -- pending list and its switchover time
  decHalves : List Nat                 -- halves claimed for the window
  encHalves : List Nat
  claimFrom : Nat
  claimTo   : Nat
  wasOpen : Bool
  late    : Word
  deriving DecidableEq, Repr

/-- Babbitt (12_dispatch.md). -/
structure Dsc where
  ctrl      : Word
  classes   : Tbl Cls
  lanes     : Tbl Lane
  gens      : Tbl (BitVec 4)
  inflight  : List (Nat × Nat)       -- in-flight entry index and unit
  units     : List WUnit
  nextUid   : Nat
  dispatched : DWord
  preempts  : Word
  replans   : Word
  oversize  : Word
  resvWaits : Word
  queryId   : Nat
  queryRes  : Word
  queryTag  : DWord
  lastRefill : Nat
  deriving DecidableEq, Repr

/-! ### Electrum (02_sessions.md) -/

/-- A line of the Electrum cache. -/
structure CLine where
  session : Nat
  dirty   : Bool
  used    : Nat       -- LRU stamp
  deriving DecidableEq, Repr

/-- Electrum's registers and cache; `sets` holds up to 16 lines per set of 256. -/
structure Ctx where
  ctrl   : Word
  hits   : DWord
  misses : DWord
  late   : Word
  bypass : Word
  queryId : Nat
  queryRes : Word
  sets   : Tbl (List CLine)
  lostWays : Tbl Nat        -- ways disabled in a set (Table 19-5)
  stamp  : Nat
  deriving DecidableEq, Repr

/-! ### Core halves (03, 04, 05) -/

/-- Fence states (Table 3-8). -/
inductive FState where
  | active | fencing | fenced | testing | failed | disabled
  deriving DecidableEq, Repr

/-- A context bank of a half. -/
inductive BankState where
  | empty
  | loading (session hintT : Nat)
  | ready (session hintT : Nat)
  | active (session : Nat)
  | draining (session : Nat)
  deriving DecidableEq, Repr

/-- A NAL unit or OBU in the FIFO: first stream byte, slot position, and whether its end has entered. -/
structure FifoUnit where
  start : Nat
  slot  : Nat          -- bytes of its slot; 0 where it has none
  endAt : Option Nat
  filled : Bool
  deriving DecidableEq, Repr

/-- The output stream FIFO of an encode half (R134 to R142). -/
structure Fifo where
  bytes   : List Byte      -- stream bytes from the buffer start
  written : Nat            -- stream bytes written through window 1
  units   : List FifoUnit
  timer   : Nat            -- DEV_TIME of the last granule write or of the first held byte
  overrun : Bool
  zeros   : Nat            -- zero bytes at the end of the NAL payload (emulation prevention)
  acked   : Nat            -- stream bytes whose writes the Memory Fabric has acknowledged
  opened  : Bool           -- the units that go before the first slice or frame have entered
  head    : Nat                   -- bytes before the first slice or frame of the unit's own: head units and a hidden frame (R205, R208)
  chunks  : List (FifoMark × Nat) -- of a piece written to the staging area: its runs of bytes with their marks (R137)
  deriving DecidableEq, Repr

/-- The datapaths of a half as the sequencer sees them (R64, R94): the last entropy result, the current block mode and transform
descriptor, the loop-filter stage, and the operation with its argument that each datapath took last. What an operation does inside its
datapath is the A1 ROM's, not part of the device's outside behaviour (R96). -/
structure Datapath where
  ent    : Word
  mode   : BitVec 8
  tx     : BitVec 8
  lf     : BitVec 8
  entOp  : Word             -- ENG, ENT_OP and CTX_IDX
  tqOp   : Word
  predOp : Word
  lfOp   : Word             -- LF_OP and LF_ARG
  meOp   : Word             -- ME_OP and ME_ARG
  deriving DecidableEq, Repr

/-- A core half: fence state, banks, sequencer, counters, window set. -/
structure Half where
  fstate  : FState
  abortF  : Bool             -- the fence in progress is in abort mode
  passed  : Bool             -- TESTING: the self-test has passed and the half waits for its core's clock (R87)
  cause   : Nat
  bank0   : BankState
  bank1   : BankState
  activeBank : Nat
  unit    : Option Nat       -- uid of the executing unit
  winSet  : List Window      -- the window set loaded last (R73, Tables 3-17 to 3-19)
  lastBudget : Nat
  lastCycles : Nat
  done    : DWord
  budgetAborts : Word
  winViol : Word
  -- sequencer
  uaddr   : BitVec 13
  nextA   : BitVec 13
  link    : BitVec 13
  cnt     : List (BitVec 16)
  flags   : BitVec 4
  alu     : Word
  regs    : Tbl Word
  waiting : Bool
  waitCycles : Nat
  waitProg : Bool            -- the WAIT word it holds at awaits a neighbour's progress (R98)
  gap     : Nat
  gapMax  : Nat
  entBin  : Bool
  dp      : Datapath
  sent    : List (SeqReq × BitVec 16) -- requests on their way (R99)
  dropped : List (SeqReq × BitVec 16) -- requests whose sender was told that they were dropped (R104)
  reqs    : List (SeqReq × BitVec 16) -- requests that have arrived
  wdogExp : Nat
  mchkAddr : BitVec 13
  mchkCount : Nat
  mchkCause : Nat
  mchkWindow : Nat           -- machine checks in the 24 h window (R439)
  patchStatus : Nat
  patchLevel : Nat
  matches_ : List Word       -- 32 match registers
  patchMicro : Tbl Word
  patchNano : Tbl (BitVec 192)
  wcsMicro : Tbl Word
  wcsNano : Tbl (BitVec 192)
  wcsTable : Tbl (BitVec 13)
  store   : Bool             -- writable control store
  preempts : Word
  matchHits : Word
  fifo    : Fifo
  stage1  : Bool
  stage2  : Bool
  rowQp   : Option Int       -- Invar's answer for the current row
  qps     : Tbl (Option (Int × Bool)) -- the segment's rows after the first: their quantisers, and that ROI offsets apply (R207, R209)
  forced  : Option Nat       -- the CTU from which stage 2 forces every CTU of the segment (R209)
  rowWait : Bool
  deriving DecidableEq, Repr

/-- A core island (Table 3-11). -/
structure Core where
  mode    : Bool             -- CCA_CTRL.FENCE_MODE
  ignored : Bool             -- CMD_IGNORED
  mhz     : Nat
  want    : Option Nat       -- pending clock
  changing : Bool
  heldFor : List Nat         -- halves whose fence came while the change was pending (R87)
  stress  : Word
  was     : Option Nat       -- its clock before a hot sensor lowered it (Table 19-5)
  deriving DecidableEq, Repr

/-- A cluster: its reference cache and memory port. -/
structure Cluster where
  sets    : Tbl (List Nat)   -- set -> addresses of the granules held, most recently used first (R70)
  hits    : DWord
  misses  : DWord
  parity  : Word
  credits : Tbl Int          -- 17 requesters
  hints   : Tbl Nat
  deriving DecidableEq, Repr

/-! ### Invar, MAU, PCF (08, 09, 11) -/

/-- Invar's queues and counters. -/
structure Rcu where
  rows    : List (Nat × Nat × Nat × Nat)   -- arrival, half, row, spent
  plans   : List (Nat × Nat × Nat)         -- arrival, session, picture
  busy    : Bool
  plansN  : DWord
  rowsN   : DWord
  stage1  : Word
  stage2  : Word
  filler  : Word
  waitMax : Word
  restarts : List Nat                      -- times of restarts within 1 s
  deriving DecidableEq, Repr

/-- The MAU block. -/
structure Mau where
  enable  : BitVec 8
  units   : Tbl Nat          -- engine -> uid + 1
  pictures : DWord
  blocks  : DWord
  scHits  : Word
  parity  : Tbl Nat          -- parity events per engine in the window
  deriving DecidableEq, Repr

/-- The PCF block. -/
structure Pcf where
  enable  : BitVec 16
  units   : Tbl Nat
  lutValid : Tbl Bool
  lutAddr : Tbl Nat
  lut     : Tbl (List DWord)   -- the entries of the LUT that each pipe's SRAM holds (R262)
  passes  : DWord
  outSamples : DWord
  lutLoads : Word
  parityN : Word
  parity  : Tbl Nat
  deriving DecidableEq, Repr

/-- A merge-buffer entry of a Nitinol engine: tile and the samples held (R248). -/
structure MergeEnt where
  tile    : TileRef
  samples : List (Nat × Nat)
  deriving DecidableEq, Repr

/-- The Nitinol engines. -/
structure Ntl where
  merge   : Tbl (List MergeEnt)
  tiles   : List DWord       -- NTL_TILES[0..6]
  merges  : DWord
  invalid : Word
  deriving DecidableEq, Repr

/-! ### The Queue Engine (13, 14) -/

/-- Work-queue states (Table 13-2). -/
inductive QState where
  | free | disabled | enabled | stopping | error
  deriving DecidableEq, Repr

/-- Where a fetched entry stands. -/
inductive EStage where
  | fetched          -- waits for its chain or for reservations
  | reserved         -- holds its completion reservation
  | running          -- its command has been received by Babbitt
  | done
  deriving DecidableEq, Repr

/-- The result of one rendition of a ladder entry (Table 13-11). -/
structure RendRes where
  session : Nat
  done    : Bool
  code    : Nat
  cause   : Nat
  bytes   : Nat
  pics    : List Nat     -- display indices of the rendition's pictures of this entry
  left    : Nat          -- pictures still to be coded
  units   : Nat          -- complete NAL units, OBUs or frames of its coded pictures (Table 5-10)
  prog    : Nat × Nat    -- BYTES and flags of its last progress record (R140)
  deriving DecidableEq, Repr

/-- A progress record that waits for the acknowledgement of the writes it covers: of a rendition or of the entry itself, BYTES and flags,
where it goes, and its bytes (R140). -/
structure ProgRec where
  rend  : Option Nat
  bytes : Nat
  flags : Nat
  space : Nat
  addr  : Nat
  data  : List Byte
  deriving DecidableEq, Repr

/-- A fetched work entry and the result gathered for it. -/
structure QEntry where
  ix      : Nat          -- ring index
  seq     : Word
  raw     : Entry
  blocks  : List Entry
  chain   : Nat          -- chain number
  stage   : EStage
  closing : Bool         -- its outcome is fixed; it completes once no unit of it is left
  started : Bool         -- a unit of it has been hinted or dispatched (R316)
  code    : Nat
  cause   : Nat
  dflags  : BitVec 16
  released : Nat
  held    : Nat
  bytes   : Nat
  codedIx : Nat
  cycles  : Nat
  doneTime : DWord
  rends   : List RendRes
  rels    : List (Word × BitVec 16 × Nat × Nat × Nat × Nat) -- release records (Table 6-9)
  au      : Option AuInfo
  pics    : List Nat     -- picture numbers it decodes
  relPics : List Nat     -- release indices handed to its ladder
  analysed : Bool        -- waits for its field to be final (R229)
  order   : Nat          -- place in the order of fetching (R309)
  added   : Bool         -- its output buffers have joined the queue (R146)
  recs    : Nat          -- picture sections of its decode report
  secs    : List (List Byte) -- their bytes, written with the report (R165)
  prog    : Nat × Nat    -- BYTES and flags of its last progress record (R140)
  due     : List ProgRec -- progress records not yet written (R140)
  sourced : Bool         -- of a ladder entry: its decode has ended, so its pictures are known (R191)
  lines   : List Nat     -- device-memory lines it wrote; acknowledged once none awaits the host (R307 condition 2)
  roOut   : Bool         -- a host write of it carried Relaxed Ordering (R307 condition 3)
  deriving DecidableEq, Repr

/-- A work queue (R294 to R318). -/
structure WorkQ where
  state   : QState
  fn      : Nat
  local_  : Nat
  cls     : Nat
  vector  : Nat
  depth   : Nat
  rdepth  : Nat
  modCount : Nat
  modTimer : Nat
  nextMod : Option (Nat × Nat)   -- SET_QUEUE_MOD waiting for the next status block write
  wqSpace : Nat
  resSpace : Nat
  sbSpace : Nat
  wqAddr  : Nat
  resAddr : Nat
  sbAddr  : Nat
  prod    : Nat
  fetch   : Nat
  head    : Nat
  headSeq : Word
  errCause : Nat
  errIndex : Nat
  resvFree : Nat
  chainOpen : Bool
  chainFirst : Nat               -- ring index of the open chain's FIRST entry
  chainLen : Nat
  chainNo : Nat
  chainTimer : Option Nat        -- DEV_TIME at which the chain timer started
  resvWaiting : Bool             -- the wait of R288 has been counted
  pend    : Nat
  pendTimer : Option Nat
  entries : List QEntry
  flushRead : Nat                -- entries the outstanding zero-length read of R307 covers; 0 = none outstanding
  deriving DecidableEq, Repr

/-- An admin or configuration queue of a function (Table 13-15). -/
structure AdmQ where
  base    : DWord
  res     : DWord
  sb      : DWord
  enable  : Bool
  stopped : Bool
  errCause : Nat
  space   : BitVec 8
  depthLog : Nat
  prod    : Nat
  head    : Nat
  seq     : Word
  errIndex : Nat
  deriving DecidableEq, Repr

/-- A function's event ring (R320, Table 13-16). -/
structure EvRing where
  isThere : Bool
  depth   : Nat
  ringSpace : Nat
  wordSpace : Nat
  ringAddr : Nat
  wordAddr : Nat
  prod    : Nat
  overflow : Bool
  cons    : Nat
  pend    : BitVec 16
  lost    : Word
  deriving DecidableEq, Repr

/-- The QE block registers. -/
structure Qe where
  chainTmo : Nat
  fetched : DWord
  dropped : Word
  malformed : Word
  queryId : Nat
  queryRes : Word
  queryProd : Word
  deriving DecidableEq, Repr

/-! ### The outside (16, 17, 22) -/

/-- What the block sends outside, in order (log entry 7). -/
inductive Out where
  | hostWrite (fn : Nat) (addr : Nat) (bytes : List Byte) (relaxed : Bool)
  | hostRead (fn : Nat) (addr len : Nat)
  | msix (fn vector : Nat)
  | pme (fn : Nat)
  | drs                          -- Device Readiness Status
  | frs (fn : Nat)               -- Function Readiness Status
  | aer (fn cls : Nat)           -- Table 19-5a
  | biSnp (line : Nat) (data : Bool)
  | snoopMiss (addr : Nat)
  | hostBias (line : Nat) (write : Bool)
  | cxlData (addr : Nat) (bytes : List Byte) (poison : Bool)
  | readData (v : List Byte)     -- completion of a memory read
  | ptmReq
  | spdm (v : DWord) (blocks : List (Nat × List Byte))   -- an answer, with the measurement blocks it reports
  | avs (mv : Nat)               -- AVSBus voltage command of rail 0
  | ibi                          -- in-band interrupt of the management port
  | mpSignal (target source : Nat)
  deriving DecidableEq, Repr

/-- A function: readiness, power state, its ACS capability and the writes held for it. -/
structure Func where
  isThere : Bool
  ready   : Bool
  flr     : Bool
  d3      : Bool
  roEn    : Bool
  acs     : Option Bool          -- whether its ACS capability reports that requests are routed between functions; none has none (R358)
  held    : List Out
  deriving DecidableEq, Repr

/-- An HDM decoder (R363). -/
structure Hdm where
  committed : Bool
  bad     : Bool
  host    : Nat
  dev     : Nat
  size    : Nat
  deriving DecidableEq, Repr

/-- A host-bias request of R365: the line, and for a write the bytes held until the host answers; a write without bytes is
one that the fabric holds. -/
structure BiasReq where
  line  : Nat
  write : Bool
  addr  : Nat
  bytes : List Byte
  deriving DecidableEq, Repr

/-- The Host Link Unit. -/
structure Hlu where
  up      : Bool
  mode    : LinkMode
  activeWidth : Nat
  lstate  : Nat
  ctrl    : Word
  ptmCtrl : Word
  synced  : Bool
  stepped : Bool
  slew    : Int
  ptmOffset : DWord
  ptmAsked : Nat                 -- DEV_TIME of the last PTM request
  ptmGot  : Nat
  biCount : Word
  poisonRd : Word
  flrCount : Word
  ide     : BitVec 5
  hdm     : Tbl Hdm
  track   : Tbl (List (Nat × Bool))  -- set -> lines, oldest first, with 'possibly modified'
  snoops  : List (Nat × Bool)    -- back-invalidates, BISnpData where true; the first 256 are outstanding
  bias    : List BiasReq          -- outstanding host-bias requests
  biasOk  : List Nat              -- lines whose host-bias read has been answered and not yet used (R365)
  numVfs  : Nat
  vfEn    : Bool
  wake    : Bool
  l2      : Bool
  deriving DecidableEq, Repr

/-! ### Interrupts, mailboxes, semaphores (17) -/

/-- An interrupt source (R382). -/
structure Src where
  pending : Bool
  count   : Nat
  level   : Bool
  prio    : Option Nat           -- a changed PRIO; none = the image's
  vector  : Nat
  deliverable : Bool
  deriving DecidableEq, Repr

/-- An interrupt target (R383). -/
structure Target where
  threshold : Nat
  active  : Nat
  stack   : List (Nat × Nat)     -- saved ACTIVE_LEVEL and claimed slot
  deriving DecidableEq, Repr

/-- One mailbox side as a sender and as a receiver (R390 to R394). -/
structure Mbx where
  out     : Word
  slots   : Tbl Word             -- 4 words of each of 8 outbound slots; key 4k + w
  started : Tbl Nat              -- DEV_TIME + 1 at which the timer of a bit started
  tmoFlags : Word
  mask    : Word
  slotBusy : Bool
  rcvReset : Bool
  tmo     : Nat
  gen     : Nat
  stale   : Word                 -- bits posted before this side's own reset: no timeout reported
  deriving DecidableEq, Repr

/-- A semaphore (R395). -/
structure Sem where
  holder  : Option Nat
  abandoned : Bool
  deriving DecidableEq, Repr

/-- The Interrupt and Mailbox Block. -/
structure Imb where
  srcs    : Tbl Src
  targets : Tbl Target
  mbx     : Tbl Mbx              -- key: 0 PF0, n VF n, 64 + n PF0 towards VF n, 128 the firmware
  sems    : Tbl Sem
  mask    : Tbl (List Nat)       -- per function: unmasked vectors
  pba     : Tbl (List Nat)       -- per function: pending vectors
  messages : DWord
  claimErr : Word
  mbxTimeouts : Word
  deriving DecidableEq, Repr

/-! ### Data mover and pools (15) -/

/-- A descriptor in progress. -/
structure Desc where
  raw     : BitVec 256
  slot    : Nat                  -- ring slot
  dst     : Nat
  rdDone  : Nat                  -- source bytes read
  wrDone  : Nat                  -- destination bytes written
  alloc   : Bool                 -- still waits for a buffer
  started : Bool
  status  : Nat
  cause   : Nat
  failed  : Bool
  deriving DecidableEq, Repr

/-- Channel states (Table 15-2). -/
inductive ChState where
  | disabled | running | idle | stopping | error
  deriving DecidableEq, Repr

/-- A data-mover channel. -/
structure Chan where
  state   : ChState
  base    : DWord
  enable  : Bool
  stopOnFail : Bool
  depthLog : Nat
  space   : BitVec 8
  vector  : Nat
  next    : Nat
  cause   : Nat
  inprog  : List Desc
  bell    : Bool                 -- a doorbell arrived while the read of NEXT was outstanding
  done    : Word
  allocw  : Nat
  backoff : Nat                  -- fabric cycles of the next backoff
  waited  : Nat                  -- DEV_TIME + 1 of the first EMPTY since the last success
  askAt   : Nat                  -- DEV_TIME at which it asks again; 0 while no backoff runs
  asking  : Bool
  deriving DecidableEq, Repr

/-- A filled slot of the data buffer: user, the descriptor's ring slot, where its bytes came from, the destination
address of its first byte, and the bytes left; after a parity error it waits to be read once more (R440). -/
structure Slot where
  user    : DmvUser
  desc    : Nat
  srcSpace : Nat
  src     : Nat
  space   : Nat
  addr    : Nat
  bytes   : List Byte
  reread  : Bool
  waiting : Bool
  deriving DecidableEq, Repr

/-- A COPY entry in progress. -/
structure CopyU where
  q       : Nat
  seq     : Word
  src     : Nat
  srcSpace : Nat
  dst     : Nat
  dstSpace : Nat
  len     : Nat
  rdDone  : Nat
  wrDone  : Nat
  failed  : Bool
  uid     : Nat                  -- its number in the in-flight table (R289)
  deriving DecidableEq, Repr

/-- The Data Mover. -/
structure Dmv where
  chans   : Tbl Chan
  slots   : List Slot
  lostSlots : Nat
  copies  : List CopyU
  demand  : List (Nat × Nat × Nat × List Byte × Nat)  -- held write granules: half, window, address, bytes, arrival
  demandRd : List (Nat × Nat × Nat × Nat) -- outstanding demand reads: half, space, address, length
  turn    : Nat                  -- place in the read engine's turn of the user it served last: a channel, or 256 + a COPY unit's number
  bytesRd : DWord
  bytesWr : DWord
  withdrawn : Word
  deriving DecidableEq, Repr

/-- A request waiting at a pool's arbitration point: a register path (function) or a channel. -/
structure PoolReq where
  port    : Nat                  -- 0 to 63 functions, 64 + g channels
  isFree  : Bool
  owner   : Nat
  addr    : Nat                  -- address of a free
  deriving DecidableEq, Repr

/-- A buffer pool (R351 to R354). -/
structure Pool where
  fn      : Nat
  region  : Nat
  base    : Nat
  bufLog  : Nat
  count   : Nat
  cache   : List Nat             -- most recently placed first
  ring    : List Nat             -- oldest first
  ringPos : Nat                  -- ring slot of the oldest entry
  owners  : Tbl Nat              -- ALLOCATED buffers: owner + 1
  barred  : List Nat             -- buffers never handed out again (R426, R441)
  loose   : List Nat             -- buffers whose frees are accepted without checks (R441)
  rotate  : Nat
  reqs    : List PoolReq
  deriving DecidableEq, Repr

/-- A function's register path to the pools (Tables 15-11, 15-12). -/
structure RegPath where
  allocLo : Word
  allocHi : Word
  freeLo  : Word
  freeStatus : Word
  deriving DecidableEq, Repr

/-- The Buffer Pool Manager. -/
structure Bpm where
  pools   : Tbl (Option Pool)
  paths   : Tbl RegPath
  queryId : Nat
  queryRes : Word
  queryFree : Word
  usage   : Word
  empty   : Word
  deriving DecidableEq, Repr

/-! ### Memory fabric and DRAM (18) -/

/-- A queued transaction of a channel. -/
structure QTxn where
  port    : Nat                  -- 0 to 11, 12 patrol scrub, 13 migration
  id      : Nat
  write   : Bool
  addr    : Nat
  gran    : Nat
  arrived : Nat                  -- order of arrival
  since   : Nat                  -- DEV_TIME at which it was queued
  deriving DecidableEq, Repr

/-- A migration in progress (R423, R424). -/
structure Mig where
  rank    : Nat                  -- failing physical rank
  stripe  : Nat
  p       : Nat
  mask    : BitVec 64
  deriving DecidableEq, Repr

/-- A DRAM channel with its ingress point and controller. -/
structure Chn where
  state   : Nat                  -- DRS_CH_STATUS.STATE
  credits : Tbl Int              -- foreground ports 0 to 11
  weights : Tbl Nat              -- key p: written weight + 1
  bgCredit : Tbl Int             -- 0 scrub, 1 migration
  served  : Tbl Nat              -- granules granted to scrub and to migration and not yet moved
  backoff : Tbl Nat              -- port -> length of its last backoff, in fabric cycles
  waitTill : Tbl Nat             -- port -> fabric cycle at which its running backoff ends, plus 1
  queue   : List QTxn
  arrivals : Nat
  drain   : Bool                 -- writes are being drained
  inOrder : Tbl Nat              -- bank in in-order mode -> arrivals when the mode began
  grant   : Option Nat           -- arrival number of the transaction whose bank was opened for it
  lastAt  : Nat                  -- DEV_TIME of the last transaction granted
  srAt    : Nat                  -- DEV_TIME at which self-refresh was entered
  openRow : Tbl Nat              -- bank -> row + 1
  owed    : Tbl Nat              -- refreshes owed per rank
  pdown   : List Nat             -- ranks in power-down
  calNext : Nat
  calPend : Bool
  temp    : Int
  hot     : Bool                 -- doubled refresh rate
  throttled : Bool
  scrubEn : Bool
  refMode : Bool
  pdIdle  : Nat
  scrubHours : Nat
  scrubPos : Nat
  behind  : Bool
  passStart : Nat
  ce      : Tbl Nat
  uc      : Tbl Word
  thresh  : Nat
  mig     : Option Mig
  onSpare : Option Nat           -- stripe the spare holds
  spareUsed : Bool
  retired : BitVec 4
  outRanks : BitVec 4            -- physical ranks out of service
  inorderN : Word
  sreAborts : Word
  deriving DecidableEq, Repr

/-- The Memory Fabric and the DRAM as a whole. -/
structure Mem where
  cells   : Tbl Byte             -- device memory; an unlisted byte reads 0 (log entry 4)
  poison  : Tbl Bool             -- line addresses marked poisoned
  chans   : Tbl Chn
  hintGate : Nat
  backoffs : Word
  revokes : Word
  trained : Option (Nat × Nat × Nat × Nat)  -- width, density, ranks, rate
  pendRec : List (Nat × Nat × Nat × Bool)  -- completed changes of service not yet in flash (R428)
  deriving DecidableEq, Repr

/-! ### Faults (19) -/

/-- A fault report or record (Table 19-4). -/
structure Rec where
  time    : DWord
  recSeq  : Word
  cls     : Nat
  fn      : Option Nat
  session : Option Nat
  source  : Nat
  code    : Nat
  info    : BitVec 16
  tag     : BitVec 16
  addr    : DWord
  untold  : Bool                 -- an FLR of the function came before the record: no event tells of it (R447)
  deriving DecidableEq, Repr

/-- The Fault Collector. -/
structure Fcl where
  inbox   : List Rec             -- reports not yet accepted (log entry 12)
  fifo    : List Rec             -- oldest first
  nextSeq : Word
  first   : Option Rec
  ovf     : Tbl Word
  count   : Tbl Word
  safe    : Nat                  -- FCL_SAFE.CAUSE, kept over PERST# (R436)
  inSafe  : Bool                 -- the device is in the safe state (R445)
  aliveStopped : Bool
  restarts : Tbl Nat             -- firmware restarts per management pair in the hour
  mpFenced : BitVec 2
  mpDown  : BitVec 2             -- restarting
  deriving DecidableEq, Repr

/-! ### Boot and pins (20, 22) -/

/-- Fuses that a rule writes or reads (Table 20-2). -/
structure Fuses where
  testLock : Bool
  ownerHash : BitVec 384
  ownerLock : Bool
  fwArb   : Nat
  patchArb : Nat
  imageArb : Nat
  deriving DecidableEq, Repr

/-- Boot state and the CSC registers (Tables 20-15 to 20-17, 21-3). -/
structure Boot where
  fuses   : Fuses
  flash   : Option Flash
  mode    : BitVec 3
  step    : Nat
  protLock : Bool
  regions : List Region          -- the locked protection tables
  functions : Nat                -- function count the tables were built for
  image   : Option Image
  restruct : Option Image        -- checked image that waits for the drain (R334)
  restrTag : Word
  stopped : List Nat             -- queues a restructure disabled
  debug   : Bool
  fwCopy  : Bool
  imgCopy : Bool
  reason  : Nat
  chkReason : Nat
  chkOffset : Nat
  fwVersion : Word
  fwLevel : Nat
  imgFromFlash : Bool
  bootTime : Word
  patch   : Option (List Byte)   -- decrypted patch kept by the CSC (R107)
  patchLevel : Nat
  patchDigest : BitVec 384
  fwDigest : BitVec 384
  nonce   : DWord
  therm   : Tbl (Int × Int)      -- TEMP and PEAK of sensors with a reading
  burnAllowed : Bool             -- the readiness message has been sent
  deriving DecidableEq, Repr

/-- Pins and supplies. -/
structure Pins where
  pwrgood : Bool
  perst   : Bool                 -- asserted
  settled : Bool                 -- 2 ms since PWRGOOD rose
  thermtrip : Bool               -- THERMTRIP_N held low
  alive   : Bool                 -- ALIVE toggles
  vddMv   : Nat                  -- VDD_CC set point in mV
  tgtAlert : Bool                -- TGT_ALERT_N held low
  deriving DecidableEq, Repr

/-- The block. -/
structure State where
  pending : List Instr
  free    : Nat                  -- free values taken so far (log entry 5)
  time    : Nat                  -- DEV_TIME in ns, modulo 2^64 where it is read
  aon     : Nat                  -- always-on time in ns since PWRGOOD rose (log entry 1)
  out     : List Out
  rdata   : DWord                -- the last register read's value
  latches : Tbl Word             -- read latch + marker of R6: key fn * 2^28 + offset, value of the high word
  latched : Tbl Bool
  heldW   : Tbl Word
  heldV   : Tbl Bool
  pins    : Pins
  boot    : Boot
  funcs   : Tbl Func
  admq    : Tbl AdmQ
  cfgq    : AdmQ
  evq     : Tbl EvRing
  qe      : Qe
  queues  : Tbl WorkQ
  sessions : Tbl Session
  dsc     : Dsc
  ctx     : Ctx
  halves  : Tbl Half
  cores   : Tbl Core
  clusters : Tbl Cluster
  rcu     : Rcu
  mau     : Mau
  pcf     : Pcf
  ntl     : Ntl
  mem     : Mem
  dmv     : Dmv
  bpm     : Bpm
  hlu     : Hlu
  imb     : Imb
  fcl     : Fcl
  deriving DecidableEq, Repr

/-! ### What unlisted table entries read, and the state at cold reset

The values are the Reset columns of the field maps; where the spec gives none they are zero or empty (log entry 3). -/

/-- Default session parameters: every field zero. -/
def Params.init : Params :=
  { cls := 0, depthC := 0, depthY := 0, chroma := 0, encode := false, codec := 0, conceal := 0, lookahead := 0,
    gangMax := 0, dpbSlots := 0, maxW := 0, maxH := 0, block := 0 }

/-- An identifier that is not allocated (R33). -/
def Session.init : Session :=
  { state := .free, fn := 0, vsel := false, stale := 0, par := Params.init, pendPar := none, unitSeq := 0,
    pictures := 0, commitTime := 0, refR := ⟨0, 0⟩, srcR := ⟨0, 0⟩, stageR := ⟨0, 0⟩, mauR := ⟨0, 0⟩, nextR := [], oldR := [],
    estCorr := 256, prevHdr := 1024, sTag := 0, fTag := 0, lastCluster := none, destroyAfter := false,
    destroyer := none, beforeRap := true, skip := false, recovering := false, recoverTo := none, recoverAt := none, outq := [], pics := [], picNext := 0,
    outIndex := 0, relCount := 0, ladder := none, flushes := [], intakeOp := 0, nextIndex := 0, src := [],
    codedNext := 0, anchor := none, refreshPos := 0, since := [], size := (0, 0), recons := [], grain := [], headSets := none, hiddenHeld := none,
    rc := ⟨0, 0, 262144, 262144, 262144⟩, plans := [], ana := [], anaSize := (0, 0), anaNext := 0, results := [], zero := [],
    rebuild := false, members := [], psets := [] }

/-- A class as it starts, before the image's maxima apply (R474). -/
def Cls.init : Cls := { weight := 256, rate := 0, burst := 1000, sTag := 0, fTag := 0, vTime := 0, bucket := 1000000 }

/-- An empty gate list with the lane parameters' defaults (Table 12-4). -/
def GateList.init : GateList := { base := 0, guardF := 320, lead := 500, preempt := true, list := [] }

/-- A lane at reset. -/
def Lane.init : Lane :=
  { cur := GateList.init, next := none, decHalves := [], encHalves := [], claimFrom := 0, claimTo := 0,
    wasOpen := true, late := 0 }

/-- An empty FIFO. -/
def Fifo.init : Fifo :=
  { bytes := [], written := 0, units := [], timer := 0, overrun := false, zeros := 0, acked := 0, opened := false, head := 0, chunks := [] }

/-- Idle datapaths. -/
def Datapath.init : Datapath := { ent := 0, mode := 0, tx := 0, lf := 0, entOp := 0, tqOp := 0, predOp := 0, lfOp := 0, meOp := 0 }

/-- A core half before boot: FENCED (R107). -/
def Half.init : Half :=
  { fstate := .fenced, abortF := false, passed := false, cause := 0, bank0 := .empty, bank1 := .empty, activeBank := 0, unit := none, winSet := [],
    lastBudget := 0, lastCycles := 0, done := 0, budgetAborts := 0, winViol := 0, uaddr := 0, nextA := 0, link := 0,
    cnt := [0, 0, 0, 0], flags := 0, alu := 0, regs := [], waiting := false, waitCycles := 0, waitProg := false, gap := 0, gapMax := 0,
    entBin := false, dp := Datapath.init, sent := [], dropped := [], reqs := [], wdogExp := 22, mchkAddr := 0, mchkCount := 0, mchkCause := 0, mchkWindow := 0,
    patchStatus := 0, patchLevel := 0, matches_ := [], patchMicro := [], patchNano := [], wcsMicro := [],
    wcsNano := [], wcsTable := [], store := false, preempts := 0, matchHits := 0, fifo := Fifo.init, stage1 := false,
    stage2 := false, rowQp := none, qps := [], forced := none, rowWait := false }

/-- A core island at reset (Tables 3-13 to 3-16). -/
def Core.init : Core :=
  { mode := false, ignored := false, mhz := 1500, want := none, changing := false, heldFor := [], stress := 0,
    was := none }

/-- A cluster at reset. -/
def Cluster.init : Cluster := { sets := [], hits := 0, misses := 0, parity := 0, credits := [], hints := [] }

/-- A work queue that is not created. -/
def WorkQ.init : WorkQ :=
  { state := .free, fn := 0, local_ := 0, cls := 0, vector := 0, depth := 16, rdepth := 16, modCount := 1,
    modTimer := 50, nextMod := none, wqSpace := 0, resSpace := 0, sbSpace := 0, wqAddr := 0, resAddr := 0,
    sbAddr := 0, prod := 0, fetch := 0, head := 0, headSeq := 0, errCause := 0, errIndex := 0, resvFree := 0,
    chainOpen := false, chainFirst := 0, chainLen := 0, chainNo := 0, chainTimer := none, resvWaiting := false,
    pend := 0, pendTimer := none, entries := [], flushRead := 0 }

/-- An admin queue at reset (Table 13-15). -/
def AdmQ.init : AdmQ :=
  { base := 0, res := 0, sb := 0, enable := false, stopped := false, errCause := 0, space := 0, depthLog := 4,
    prod := 0, head := 0, seq := 0, errIndex := 0 }

/-- No event ring (Table 13-16). -/
def EvRing.init : EvRing :=
  { isThere := false, depth := 16, ringSpace := 0, wordSpace := 0, ringAddr := 0, wordAddr := 0, prod := 0,
    overflow := false, cons := 0, pend := 0, lost := 0 }

/-- A function that does not exist. -/
def Func.init : Func :=
  { isThere := false, ready := false, flr := false, d3 := false, roEn := false, acs := none, held := [] }

/-- An HDM decoder at reset. -/
def Hdm.init : Hdm := { committed := false, bad := false, host := 0, dev := 0, size := 0 }

/-- A source at reset (R382). -/
def Src.init : Src :=
  { pending := false, count := 0, level := false, prio := none, vector := 0, deliverable := false }

/-- A target at reset. -/
def Target.init : Target := { threshold := 0, active := 0, stack := [] }

/-- A mailbox side after PERST# (Table 17-9, R394). -/
def Mbx.init : Mbx :=
  { out := 0, slots := [], started := [], tmoFlags := 0, mask := 0xFFFFFFFF, slotBusy := false, rcvReset := false,
    tmo := 50000, gen := 1, stale := 0 }

/-- A free semaphore. -/
def Sem.init : Sem := { holder := none, abandoned := false }

/-- A channel at reset (Table 15-9). -/
def Chan.init : Chan :=
  { state := .disabled, base := 0, enable := false, stopOnFail := true, depthLog := 4, space := 0, vector := 0,
    next := 0, cause := 0, inprog := [], bell := false, done := 0, allocw := 100, backoff := 8,
    waited := 0, askAt := 0, asking := false }

/-- A register path at reset. -/
def RegPath.init : RegPath := { allocLo := 0, allocHi := 0, freeLo := 0, freeStatus := 0 }

/-- A DRAM channel at reset (Tables 18-8 to 18-11). -/
def Chn.init : Chn :=
  { state := 0, credits := [], weights := [], bgCredit := [], served := [], backoff := [], waitTill := [], queue := [], arrivals := 0,
    drain := false, inOrder := [], grant := none, lastAt := 0, srAt := 0, openRow := [], owed := [], pdown := [], calNext := 0, calPend := false,
    temp := 0, hot := false, throttled := false, scrubEn := true, refMode := true, pdIdle := 128, scrubHours := 24,
    scrubPos := 0, behind := false, passStart := 0, ce := [], uc := [], thresh := 1024, mig := none, onSpare := none,
    spareUsed := false, retired := 0, outRanks := 0, inorderN := 0, sreAborts := 0 }

/-- Fuses of the board at hand: shipped, not enrolled (log entry 9). -/
def Fuses.init : Fuses :=
  { testLock := true, ownerHash := 0, ownerLock := false, fwArb := 0, patchArb := 0, imageArb := 0 }

/-- Boot state at cold reset. -/
def Boot.init : Boot :=
  { fuses := Fuses.init, flash := none, mode := 0, step := 0, protLock := false, regions := [], functions := 0,
    image := none, restruct := none, restrTag := 0, stopped := [], debug := false, fwCopy := false, imgCopy := false,
    reason := 0, chkReason := 0, chkOffset := 0, fwVersion := 0, fwLevel := 0, imgFromFlash := false, bootTime := 0,
    patch := none, patchLevel := 0, patchDigest := 0, fwDigest := 0, nonce := 0,
    therm := [], burnAllowed := false }

/-- Pins at cold reset: PWRGOOD low, PERST# asserted, ALIVE low (Table 22-8). -/
def Pins.init : Pins :=
  { pwrgood := false, perst := true, settled := false, thermtrip := false, alive := false, vddMv := 750,
    tgtAlert := false }

/-- Babbitt at reset (Table 12-8). -/
def Dsc.init : Dsc :=
  { ctrl := 0x14320003, classes := [], lanes := [], gens := [], inflight := [], units := [], nextUid := 0,
    dispatched := 0, preempts := 0, replans := 0, oversize := 0, resvWaits := 0, queryId := 0, queryRes := 0,
    queryTag := 0, lastRefill := 0 }

/-- Electrum at reset (Table 2-11). -/
def Ctx.init : Ctx :=
  { ctrl := 0x140, hits := 0, misses := 0, late := 0, bypass := 0, queryId := 0, queryRes := 0, sets := [],
    lostWays := [], stamp := 0 }

/-- The QE block at reset (Table 13-17). -/
def Qe.init : Qe :=
  { chainTmo := 10, fetched := 0, dropped := 0, malformed := 0, queryId := 0, queryRes := 0, queryProd := 0 }

/-- Invar at reset (Table 8-6). -/
def Rcu.init : Rcu :=
  { rows := [], plans := [], busy := false, plansN := 0, rowsN := 0, stage1 := 0, stage2 := 0, filler := 0,
    waitMax := 0, restarts := [] }

/-- The MAU at reset (Table 9-6). -/
def Mau.init : Mau :=
  { enable := 0xFF, units := [], pictures := 0, blocks := 0, scHits := 0, parity := [] }

/-- The PCF at reset (Table 11-4). -/
def Pcf.init : Pcf :=
  { enable := 0xFFFF, units := [], lutValid := [], lutAddr := [], lut := [], passes := 0, outSamples := 0, lutLoads := 0,
    parityN := 0, parity := [] }

/-- The Nitinol engines at reset. -/
def Ntl.init : Ntl := { merge := [], tiles := [0, 0, 0, 0, 0, 0, 0], merges := 0, invalid := 0 }

/-- The Memory Fabric at reset: nothing listed (Table 18-8; log entry 4). -/
def Mem.init : Mem :=
  { cells := [], poison := [], chans := [], hintGate := 256, backoffs := 0, revokes := 0, trained := none,
    pendRec := [] }

/-- The Data Mover at reset. -/
def Dmv.init : Dmv :=
  { chans := [], slots := [], lostSlots := 0, copies := [], demand := [], demandRd := [], turn := 0, bytesRd := 0, bytesWr := 0,
    withdrawn := 0 }

/-- The Buffer Pool Manager at reset. -/
def Bpm.init : Bpm := { pools := [], paths := [], queryId := 0, queryRes := 0, queryFree := 0, usage := 0, empty := 0 }

/-- The Host Link Unit at reset (Tables 16-8 to 16-10). -/
def Hlu.init : Hlu :=
  { up := false, mode := ⟨0, 0, 0, false, 0⟩, activeWidth := 0, lstate := 6, ctrl := 0x200A1903, ptmCtrl := 0x8000000A,
    synced := false, stepped := false, slew := 0, ptmOffset := 0, ptmAsked := 0, ptmGot := 0, biCount := 0,
    poisonRd := 0, flrCount := 0, ide := 0, hdm := [], track := [], snoops := [], bias := [], biasOk := [], numVfs := 0,
    vfEn := false, wake := false, l2 := false }

/-- The IMB at reset. -/
def Imb.init : Imb :=
  { srcs := [], targets := [], mbx := [], sems := [], mask := [], pba := [], messages := 0, claimErr := 0,
    mbxTimeouts := 0 }

/-- The FCL at cold reset (R435, Tables 19-13, 19-14). -/
def Fcl.init : Fcl :=
  { inbox := [], fifo := [], nextSeq := 1, first := none, ovf := [], count := [], safe := 0, inSafe := false, aliveStopped := false,
    restarts := [], mpFenced := 0, mpDown := 0 }

/-- The machine at cold reset: PWRGOOD low, no image in force, no command waiting. -/
def State.reset : State :=
  { pending := [], free := 0, time := 0, aon := 0, out := [], rdata := 0, latches := [], latched := [], heldW := [],
    heldV := [], pins := Pins.init, boot := Boot.init, funcs := [], admq := [], cfgq := AdmQ.init, evq := [],
    qe := Qe.init, queues := [], sessions := [], dsc := Dsc.init, ctx := Ctx.init, halves := [], cores := [],
    clusters := [], rcu := Rcu.init, mau := Mau.init, pcf := Pcf.init, ntl := Ntl.init, mem := Mem.init,
    dmv := Dmv.init, bpm := Bpm.init, hlu := Hlu.init, imb := Imb.init, fcl := Fcl.init }

end Sys2Proof.Machine
end

