-- ==== Sys2Proof/Machine/Ops.lean ====
section
/-! DEFINITION. The named operations over the state: fields and bytes, the units' records, device memory, and what the
block sends outside. -/
namespace Sys2Proof.Machine

/-- The answer of a command. -/
abbrev Res := Host.Outcome State Fault Refusal

/-! ### Bit fields and bytes (R4) -/

/-- The `w`-bit field of `v` whose lowest bit is `lo`. -/
def fld (v lo w : Nat) : Nat := v / 2 ^ lo % 2 ^ w

/-- Bit `n` of `v`. -/
def bitAt (v n : Nat) : Bool := fld v n 1 == 1

/-- The `w`-bit field of a 64-byte block that begins at bit `lo` of byte `byte`. -/
def efld (e : Entry) (byte lo w : Nat) : Nat := fld e.toNat (8 * byte + lo) w

/-- A value placed at bit `lo` of byte `byte` of a record. -/
def put (byte lo v : Nat) : Nat := v * 2 ^ (8 * byte + lo)

/-- 1 for true. -/
def b2n (b : Bool) : Nat := if b then 1 else 0

/-- The `n` little-endian bytes of `v`. -/
def leBytes : Nat → Nat → List Byte
  | 0, _ => []
  | n + 1, v => BitVec.ofNat 8 v :: leBytes n (v / 256)

/-- The value of a little-endian byte string. -/
def leNat : List Byte → Nat
  | [] => 0
  | b :: bs => b.toNat + 256 * leNat bs

/-- The `n` bytes of a byte string from offset `off`, as a value. -/
def bytesAt (bs : List Byte) (off n : Nat) : Nat := leNat ((bs.drop off).take n)

/-- Two's complement reading of a `w`-bit value. -/
def signedOf (w v : Nat) : Int := if v < 2 ^ (w - 1) then (v : Int) else (v : Int) - (2 ^ w : Nat)

/-- Two's complement form of an integer in `w` bits. -/
def twosOf (w : Nat) (x : Int) : Nat := (x % (2 ^ w : Nat)).toNat

/-- A 32-bit counter that saturates (R323, R398, R431, R452). -/
def sat32 (c : Word) (n : Nat) : Word := BitVec.ofNat 32 (min (c.toNat + n) 0xFFFFFFFF)

/-- A 64-bit counter that saturates. -/
def sat64 (c : DWord) (n : Nat) : DWord := BitVec.ofNat 64 (min (c.toNat + n) 0xFFFFFFFFFFFFFFFF)

/-- `f` where `b` holds, else no change (log entry 2). -/
def onlyIf (b : Bool) (f : State → State) (s : State) : State := if b then f s else s

/-- `f` folded over the numbers below `n`, in rising order. -/
def forUpTo {α : Type} : Nat → (Nat → α → α) → α → α
  | 0, _, a => a
  | n + 1, f, a => f n (forUpTo n f a)

/-- `f` folded over a list, first element first. -/
def forEach {α β : Type} : List β → (β → α → α) → α → α
  | [], _, a => a
  | x :: xs, f, a => forEach xs f (f x a)

/-- Least `k` with `n` at most 2^`k`. -/
def clog2 (n : Nat) : Nat := if n ≤ 1 then 0 else Nat.log2 (n - 1) + 1

/-- A list without every element equal to `x`. -/
def without {α : Type} [DecidableEq α] (xs : List α) (x : α) : List α := xs.filter (fun y => decide (y ≠ x))

/-- Insertion by a numeric key, stable. -/
def insertBy {α : Type} (key : α → Int) (x : α) : List α → List α
  | [] => [x]
  | y :: ys => if key x < key y then x :: y :: ys else y :: insertBy key x ys

/-- A list sorted by a numeric key, stable. -/
def sortBy {α : Type} (key : α → Int) : List α → List α
  | [] => []
  | x :: xs => (fun ys => (ys.filter (fun y => decide (key y < key x))) ++ x :: ys.filter (fun y => decide (¬ key y < key x)))
      (sortBy key xs)

/-- The element of least key, the first among equals. -/
def leastBy {α : Type} (key : α → Int) : List α → Option α
  | [] => none
  | x :: xs =>
    match leastBy key xs with
    | none => some x
    | some y => if key y < key x then some y else some x

/-! ### Records of the state -/

namespace State

/-- The state with another queue of commands. -/
def withPending (s : State) (p : List Instr) : State := { s with pending := p }
/-- A core half, 2 × core + h. -/
def half (s : State) (h : Nat) : Half := tblGet Half.init s.halves h
def modHalf (s : State) (h : Nat) (f : Half → Half) : State := { s with halves := tblMod Half.init s.halves h f }
def core (s : State) (c : Nat) : Core := tblGet Core.init s.cores c
def modCore (s : State) (c : Nat) (f : Core → Core) : State := { s with cores := tblMod Core.init s.cores c f }
def cluster (s : State) (c : Nat) : Cluster := tblGet Cluster.init s.clusters c
def modCluster (s : State) (c : Nat) (f : Cluster → Cluster) : State :=
  { s with clusters := tblMod Cluster.init s.clusters c f }
def func (s : State) (f : Nat) : Func := tblGet Func.init s.funcs f
def modFunc (s : State) (n : Nat) (f : Func → Func) : State := { s with funcs := tblMod Func.init s.funcs n f }
def queue (s : State) (q : Nat) : WorkQ := tblGet WorkQ.init s.queues q
def modQueue (s : State) (q : Nat) (f : WorkQ → WorkQ) : State := { s with queues := tblMod WorkQ.init s.queues q f }
def sess (s : State) (n : Nat) : Session := tblGet Session.init s.sessions n
def modSess (s : State) (n : Nat) (f : Session → Session) : State :=
  { s with sessions := tblMod Session.init s.sessions n f }
def admQ (s : State) (f : Nat) : AdmQ := tblGet AdmQ.init s.admq f
def modAdmQ (s : State) (n : Nat) (f : AdmQ → AdmQ) : State := { s with admq := tblMod AdmQ.init s.admq n f }
def modCfgQ (s : State) (f : AdmQ → AdmQ) : State := { s with cfgq := f s.cfgq }
def ring (s : State) (f : Nat) : EvRing := tblGet EvRing.init s.evq f
def modRing (s : State) (n : Nat) (f : EvRing → EvRing) : State := { s with evq := tblMod EvRing.init s.evq n f }
def modPins (s : State) (f : Pins → Pins) : State := { s with pins := f s.pins }
def modBoot (s : State) (f : Boot → Boot) : State := { s with boot := f s.boot }
def modQe (s : State) (f : Qe → Qe) : State := { s with qe := f s.qe }
def modDsc (s : State) (f : Dsc → Dsc) : State := { s with dsc := f s.dsc }
def cls (s : State) (c : Nat) : Cls := tblGet Cls.init s.dsc.classes c
def modCls (s : State) (c : Nat) (f : Cls → Cls) : State :=
  s.modDsc fun d => { d with classes := tblMod Cls.init d.classes c f }
def lane (s : State) (l : Nat) : Lane := tblGet Lane.init s.dsc.lanes l
def modLane (s : State) (l : Nat) (f : Lane → Lane) : State :=
  s.modDsc fun d => { d with lanes := tblMod Lane.init d.lanes l f }
/-- The unit with number `u`. -/
def unit? (s : State) (u : Nat) : Option WUnit := s.dsc.units.find? (fun w => w.uid == u)
def modUnit (s : State) (u : Nat) (f : WUnit → WUnit) : State :=
  s.modDsc fun d => { d with units := d.units.map fun w => if w.uid == u then f w else w }
def dropUnit (s : State) (u : Nat) : State :=
  s.modDsc fun d => { d with units := d.units.filter fun w => w.uid != u }
def modCtx (s : State) (f : Ctx → Ctx) : State := { s with ctx := f s.ctx }
def modRcu (s : State) (f : Rcu → Rcu) : State := { s with rcu := f s.rcu }
def modMau (s : State) (f : Mau → Mau) : State := { s with mau := f s.mau }
def modPcf (s : State) (f : Pcf → Pcf) : State := { s with pcf := f s.pcf }
def modNtl (s : State) (f : Ntl → Ntl) : State := { s with ntl := f s.ntl }
def modMem (s : State) (f : Mem → Mem) : State := { s with mem := f s.mem }
def chn (s : State) (k : Nat) : Chn := tblGet Chn.init s.mem.chans k
def modChn (s : State) (k : Nat) (f : Chn → Chn) : State :=
  { s with mem := { s.mem with chans := tblMod Chn.init s.mem.chans k f } }
def modDmv (s : State) (f : Dmv → Dmv) : State := { s with dmv := f s.dmv }
def chan (s : State) (g : Nat) : Chan := tblGet Chan.init s.dmv.chans g
def modChan (s : State) (g : Nat) (f : Chan → Chan) : State :=
  s.modDmv fun d => { d with chans := tblMod Chan.init d.chans g f }
def modBpm (s : State) (f : Bpm → Bpm) : State := { s with bpm := f s.bpm }
def pool? (s : State) (p : Nat) : Option Pool := tblGet none s.bpm.pools p
def setPool (s : State) (p : Nat) (v : Option Pool) : State :=
  s.modBpm fun b => { b with pools := tblSet none b.pools p v }
def modPool (s : State) (p : Nat) (f : Pool → Pool) : State := s.setPool p ((s.pool? p).map f)
def path (s : State) (f : Nat) : RegPath := tblGet RegPath.init s.bpm.paths f
def modPath (s : State) (n : Nat) (f : RegPath → RegPath) : State :=
  s.modBpm fun b => { b with paths := tblMod RegPath.init b.paths n f }
def modHlu (s : State) (f : Hlu → Hlu) : State := { s with hlu := f s.hlu }
def modImb (s : State) (f : Imb → Imb) : State := { s with imb := f s.imb }
def src (s : State) (n : Nat) : Src := tblGet Src.init s.imb.srcs n
def modSrc (s : State) (n : Nat) (f : Src → Src) : State :=
  s.modImb fun b => { b with srcs := tblMod Src.init b.srcs n f }
def target (s : State) (t : Nat) : Target := tblGet Target.init s.imb.targets t
def modTarget (s : State) (t : Nat) (f : Target → Target) : State :=
  s.modImb fun b => { b with targets := tblMod Target.init b.targets t f }
def mbx (s : State) (k : Nat) : Mbx := tblGet Mbx.init s.imb.mbx k
def modMbx (s : State) (k : Nat) (f : Mbx → Mbx) : State :=
  s.modImb fun b => { b with mbx := tblMod Mbx.init b.mbx k f }
def sem (s : State) (n : Nat) : Sem := tblGet Sem.init s.imb.sems n
def modSem (s : State) (n : Nat) (f : Sem → Sem) : State :=
  s.modImb fun b => { b with sems := tblMod Sem.init b.sems n f }
def modFcl (s : State) (f : Fcl → Fcl) : State := { s with fcl := f s.fcl }
def withRdata (s : State) (v : DWord) : State := { s with rdata := v }

end State

/-- The next free value at width `w`, and the state in which it is taken (log entry 5). -/
def freeNow (s : State) (w : Nat) : BitVec w := Config.freeValue s.free w
/-- The state after one free value is taken (log entry 5). -/
def State.tookFree (s : State) : State := { s with free := s.free + 1 }

/-- The parameters that a unit runs with (R40). -/
def State.parOf (s : State) (u : WUnit) : Params := u.par.getD (s.sess u.session).par

/-- The next open value of a unit at width `w`: the same whenever the unit runs again from its start (R47; log entry 5). -/
def WUnit.open_ (u : WUnit) (w : Nat) : BitVec w := Config.unitValue u.seed u.steps w

/-- The instant of a timer: DEV_TIME stands at `t` or later (log entry 1). -/
def State.reach (s : State) (t : Nat) : State := { s with time := max s.time t, aon := s.aon + (t - s.time) }

/-! ### Register pairs (R6) -/

/-- Key of a register of a function in the latches and the held writes. -/
def pairKey (fn off : Nat) : Nat := fn * 2 ^ 28 + off

/-- The low word that the function's write of a pair holds. -/
def State.heldLow (s : State) (fn off : Nat) : Option Word :=
  if tblGet false s.heldV (pairKey fn off) then some (tblGet 0 s.heldW (pairKey fn off)) else none

/-- A low word is held for the function, in place of an earlier one. -/
def State.holdLow (s : State) (fn off : Nat) (v : Word) : State :=
  { s with heldW := tblSet 0 s.heldW (pairKey fn off) v, heldV := tblSet false s.heldV (pairKey fn off) true }

/-- The held low word has taken effect. -/
def State.dropHeld (s : State) (fn off : Nat) : State :=
  { s with heldW := tblSet 0 s.heldW (pairKey fn off) 0, heldV := tblSet false s.heldV (pairKey fn off) false }

/-! ### When units run -/

/-- The device is powered and out of reset: PWRGOOD has been high for 2 ms, PERST# is deasserted, and the link has not taken
the device to L2 (R375, R501, R502). -/
def State.running (s : State) : Bool := s.pins.pwrgood && s.pins.settled && !s.pins.perst && !s.hlu.l2

/-- The device is powered, out of reset and outside the safe state (R444, R445, R501). -/
def State.up (s : State) : Bool := s.running && !s.fcl.inSafe

/-- The link's own IDE stream is not Insecure; one that is passes nothing until it is keyed again (R378). -/
def State.linkPasses (s : State) : Bool := !s.hlu.ide.getLsbD 0

/-- PF0 answers memory requests, in the safe state too (R370, R372, R445). -/
def State.pf0Answers (s : State) : Bool := s.running && (s.func 0).ready && !(s.func 0).flr && s.linkPasses

/-- The Rirak image in force (R22, R480). -/
def State.img (s : State) : Option Image := s.boot.image

/-- The device runs work: it is up, boot has completed and an image is in force (R462). -/
def State.live (s : State) : Bool := s.up && s.boot.step == 6 && s.boot.image.isSome

/-- The fault policy in force; defaults without an image (Table 19-6). -/
def State.policy (s : State) : Policy :=
  match s.boot.image with
  | some i => i.policy
  | none => Policy.default

/-- Function count of the image (R473). -/
def State.fnCount (s : State) : Nat :=
  match s.boot.image with
  | some i => i.fns.length
  | none => 1

/-- The record of function `f` in the image; nothing granted where there is none (Table 20-10). -/
def State.fnRec (s : State) (f : Nat) : FnRec :=
  match s.boot.image with
  | some i => i.fns.getD f ⟨0, 0, 0, 0, 0, 0⟩
  | none => ⟨0, 0, 0, 0, 0, 0⟩

/-- The record of class `c` (Table 20-11). -/
def State.clsRec (s : State) (c : Nat) : Option ClassRec :=
  match s.boot.image with
  | some i => i.classes.find? (fun r => r.cls == c)
  | none => none

/-- Class `c` exists and has no children (R273). -/
def State.isLeaf (s : State) (c : Nat) : Bool :=
  match s.boot.image with
  | some i => i.classes.any (fun r => r.cls == c) && !i.classes.any (fun r => r.parent == c && r.cls != 0)
  | none => false

/-- The gate lane of a class (R273). -/
def State.laneOf (s : State) (c : Nat) : Nat :=
  match s.clsRec c with
  | some r => r.lane
  | none => 0

/-! ### Device physical addresses (R399) -/

/-- Channel of an address. -/
def channelOf (a : Nat) : Nat :=
  ((fld a 12 4 ^^^ fld a 16 4) ^^^ fld a 20 4) ^^^ fld a 24 4

/-- Byte offset within the channel. -/
def offsetOf (a : Nat) : Nat := a / 65536 * 4096 + a % 4096

/-- The address whose channel is `k` and whose channel offset is `o`: the inverse of R399. -/
def addressOf (k o : Nat) : Nat :=
  let hi := o / 4096
  let n := ((k ^^^ fld hi 0 4) ^^^ fld hi 4 4) ^^^ fld hi 8 4
  hi * 65536 + n * 4096 + o % 4096

/-- Rank size in GiB from device width (0 = x4) and density code (Table 18-1). -/
def rankGib (width density : Nat) : Nat := (if width == 0 then 32 else 16) + density * (if width == 0 then 16 else 8)

/-- RS of R399, in bytes; 0 before training. -/
def State.rankSize (s : State) : Nat :=
  match s.mem.trained with
  | some (w, d, _, _) => rankGib w d * 2 ^ 30
  | none => 0

/-- A spare rank is configured (R400). -/
def State.spareConf (s : State) : Bool :=
  match s.boot.image with
  | some i => i.spareEn
  | none => false

/-- Number of physical ranks per DIMM, as trained. -/
def State.physRanks (s : State) : Nat :=
  match s.mem.trained with
  | some (_, _, r, _) => r
  | none => 0

/-- S of R399: ranks per DIMM, less 1 when spares are configured. -/
def State.stripes (s : State) : Nat := if s.spareConf then s.physRanks - 1 else s.physRanks

/-- Device memory runs from 0 to this address (R399). -/
def State.memSize (s : State) : Nat := 16 * s.stripes * s.rankSize

/-- Stripe of an address (R399). -/
def State.stripeOf (s : State) (a : Nat) : Nat := offsetOf a / s.rankSize

/-- The page of the address is retired (R426). -/
def State.retiredAt (s : State) (a : Nat) : Bool := (s.chn (channelOf a)).retired.getLsbD (s.stripeOf a)

/-- Address of the 64-byte line. -/
def lineOf (a : Nat) : Nat := a / 64 * 64

/-- Addresses of the lines that `n` bytes from `a` touch. -/
def linesOf (a n : Nat) : List Nat :=
  if n == 0 then [] else (List.range ((a + n - 1) / 64 - a / 64 + 1)).map (fun i => (a / 64 + i) * 64)

/-! ### Device memory -/

/-- One byte (log entry 4: an unlisted byte reads 0). -/
def State.byteAt (s : State) (a : Nat) : Byte := tblGet 0 s.mem.cells a

/-- `n` bytes from `a`. -/
def State.memRead (s : State) (a : Nat) : Nat → List Byte
  | 0 => []
  | n + 1 => s.byteAt a :: s.memRead (a + 1) n

/-- Some line of the range is marked poisoned or lies in a retired page (R413, R426). -/
def State.poisoned (s : State) (a n : Nat) : Bool :=
  (linesOf a n).any fun l => tblGet false s.mem.poison l || s.retiredAt l

/-- Device memory is in its canonical form: addresses rise strictly, and no entry is 0, what an unlisted byte reads as (log entry
4). -/
def Memory.wf (m : Mem) : Bool := tblWf 0 m.cells

/-- The cells with bytes stored from `a` on, retired pages left out (R426). -/
def writeCells (retired : Nat → Bool) (t : Tbl Byte) (a : Nat) : List Byte → Tbl Byte
  | [] => t
  | b :: bs => writeCells retired (if retired a then t else tblSet 0 t a b) (a + 1) bs

/-- Poison marks after a write of `n` bytes at `a`: a full-line write clears the mark, a partial one keeps it (R413). -/
def writePoison (t : Tbl Bool) (a n : Nat) : Tbl Bool :=
  forEach ((linesOf a n).filter fun l => decide (a ≤ l) && decide (l + 64 ≤ a + n)) (fun l u => tblSet false u l false) t

/-- The written lines leave every cluster's reference cache (R71). -/
def invalidateCopies (c : Tbl Cluster) (a n : Nat) : Tbl Cluster :=
  forUpTo 8 (fun k t => tblMod Cluster.init t k fun cl =>
    { cl with sets := forEach (linesOf a n) (fun l u => tblMod [] u (l / 64 % 4096) fun g => without g l) cl.sets }) c

/-- The mask of a migration's block after a foreground write (R424). -/
def markCopy (s : State) (a : Nat) (c : Chn) : Chn :=
  match c.mig with
  | none => c
  | some m =>
    if s.stripeOf a == m.stripe && decide (m.p ≤ offsetOf a % s.rankSize)
        && decide (offsetOf a % s.rankSize < m.p + 4096)
    then { c with mig := some { m with mask := m.mask ||| BitVec.twoPow 64 ((offsetOf a % s.rankSize - m.p) / 64) } }
    else c

/-- A write to device memory: bytes, poison marks, cache copies and a migration's mask (R71, R413, R424, R426). -/
def State.memWrite (s : State) (a : Nat) (bs : List Byte) : State :=
  { s with
    mem := { s.mem with
      cells := writeCells s.retiredAt s.mem.cells a bs
      poison := writePoison s.mem.poison a bs.length
      chans := forEach (linesOf a bs.length) (fun l t => tblMod Chn.init t (channelOf l) (markCopy s l)) s.mem.chans }
    clusters := invalidateCopies s.clusters a bs.length }

/-- A line marked poisoned (R413). -/
def State.poisonLine (s : State) (a : Nat) : State :=
  s.modMem fun m => { m with poison := tblSet false m.poison (lineOf a) true }

/-! ### Regions and rights (R466) -/

/-- The region of the locked protection tables that holds the whole range. -/
def State.regionOf (s : State) (a n : Nat) : Option Region :=
  s.boot.regions.find? fun r => decide (r.base ≤ a) && decide (a + n ≤ r.base + r.size)

/-- Kinds of region (Table 20-9): 1 CTX, 2 CTX_DIR, 3 REFERENCE, 4 MAU, 5 POOL, 6 HOST. -/
def State.granted (s : State) (fn a n : Nat) : Bool :=
  match s.regionOf a n with
  | some r => (r.kind == 5 || r.kind == 6) && r.grant.getLsbD fn
  | none => false

/-- The address is exposed to the host (R362, R363, R426). -/
def State.exposed (s : State) (a n : Nat) : Bool :=
  match s.regionOf a n with
  | some r => r.hdm && !(linesOf a n).any s.retiredAt
  | none => false

/-! ### What the block sends outside (log entry 7) -/

/-- Something sent. -/
def State.emit (s : State) (o : Out) : State := { s with out := s.out ++ [o] }

/-- LSTATE once the link has left L1: L0, or L0p where the width is still reduced (R376). -/
def Hlu.awake (h : Hlu) : Hlu :=
  if 2 ≤ h.lstate ∧ h.lstate ≤ 4 then { h with lstate := if h.activeWidth < h.mode.width then 1 else 0 } else h

/-- A request that the device sends over the link, which leaves L1 for it (R376). -/
def State.send (s : State) (o : Out) : State := (s.modHlu Hlu.awake).emit o

/-- A message to the host that no function's suspension holds back. -/
def State.tellHost (s : State) (o : Out) : State := if s.linkPasses then s.send o else s

/-- Something sent for a function: held in D3hot (R375), and not sent once an FLR of it has begun (R372) or over an Insecure
link (R378). -/
def State.emitFor (s : State) (fn : Nat) (o : Out) : State :=
  if (s.func fn).flr || !s.linkPasses then s
  else if (s.func fn).d3 then s.modFunc fn fun f => { f with held := f.held ++ [o] }
  else s.send o

/-- The link is CXL 3.1, where exposed memory is HDM-DB (R364). -/
def State.hdmDb (s : State) : Bool := s.hlu.up && s.hlu.mode.protocol == 3
/-- The link is CXL 2.0 or 1.1, where exposed memory is HDM-D (R365). -/
def State.hdmD (s : State) : Bool := s.hlu.up && (s.hlu.mode.protocol == 1 || s.hlu.mode.protocol == 2)

/-- Set of a line in the back-invalidate tracker: 262,144 entries of 16 ways (R364; log entry 18). -/
def trackSet (l : Nat) : Nat := l / 64 % 16384

/-- The line is tracked. -/
def State.tracked (s : State) (l : Nat) : Bool := (tblGet [] s.hlu.track (trackSet l)).any fun e => e.1 == l

/-- A back-invalidate is outstanding for the line. -/
def State.snooping (s : State) (l : Nat) : Bool := s.hlu.snoops.any fun e => e.1 == l

/-- A back-invalidate goes out and is counted (R364). -/
def State.issueSnoop (s : State) (e : Nat × Bool) : State :=
  (s.modHlu fun h => { h with biCount := sat32 h.biCount 1 }).send (.biSnp e.1 e.2)

/-- One back-invalidate for a line; one serves every purpose. Those past 256 outstanding wait (R364, Table 16-3). -/
def State.sendSnoop (s : State) (l : Nat) (data : Bool) : State :=
  if s.snooping l then s
  else
    let t := s.modHlu fun h => { h with snoops := h.snoops ++ [(l, data)] }
    if s.hlu.snoops.length < 256 then t.issueSnoop (l, data) else t

/-- A device-side write to the line waits for the host: a back-invalidate of a tracked line, or the host-bias flow (R364, R365). -/
def State.mustAsk (s : State) (l : Nat) : Bool := (s.hdmDb && s.tracked l) || (s.hdmD && s.exposed l 64)

/-- One line of a device-side write: held until the host has answered, or stored (R364, R365). -/
def State.lineWrite (s : State) (l a : Nat) (bs : List Byte) : State :=
  if s.mustAsk l then
    let t := s.modHlu fun h => { h with bias := h.bias ++ [⟨l, true, a, bs⟩] }
    if s.hdmD then t.send (.hostBias l true) else t.sendSnoop l false
  else s.memWrite a bs

/-- The part of a byte string from `a` on that lies in line `l`: where it begins, and its bytes. -/
def linePart (l a : Nat) (bs : List Byte) : Nat × List Byte :=
  (max a l, (bs.drop (max a l - a)).take (min (a + bs.length) (l + 64) - max a l))

/-- A device-side write to device memory; its lines are acknowledged only when the host has answered for them (R364, R365). -/
def State.devWrite (s : State) (a : Nat) (bs : List Byte) : State :=
  if (linesOf a bs.length).any s.mustAsk then
    forEach (linesOf a bs.length) (fun l t => t.lineWrite l (linePart l a bs).1 (linePart l a bs).2) s
  else s.memWrite a bs

/-- Every write to these lines has been acknowledged (R402). -/
def State.linesAcked (s : State) (ls : List Nat) : Bool :=
  ls.all fun l => !s.snooping l && !s.hlu.bias.any (fun b => b.write && b.line == l)

/-- Output data sent for a function: what is under way in D3hot ends, and nothing is sent once an FLR has begun (R372, R375). -/
def State.emitData (s : State) (fn : Nat) (o : Out) : State := if (s.func fn).flr || !s.linkPasses then s else s.send o

/-- A write by the device for function `fn` into a space of R10: host memory through the HLU, or device memory. -/
def State.putBytes (s : State) (fn space a : Nat) (bs : List Byte) (relaxed : Bool) : State :=
  if space == 0 then s.emitFor fn (.hostWrite fn a bs relaxed) else s.devWrite a bs

/-- Output data carries Relaxed Ordering where the function and HLU_CTRL.RO_EN permit it (R367). -/
def State.relaxedFor (s : State) (fn : Nat) : Bool := (s.func fn).roEn && bitAt s.hlu.ctrl.toNat 0

/-- A record, never relaxed (R367); none is written for a function once an FLR of it has begun (R372). -/
def State.putRecord (s : State) (fn space a : Nat) (bs : List Byte) : State :=
  if (s.func fn).flr then s else s.putBytes fn space a bs false

/-- Output data (R367). -/
def State.putData (s : State) (fn space a : Nat) (bs : List Byte) : State :=
  if space == 0 then s.emitData fn (.hostWrite fn a bs (s.relaxedFor fn)) else s.devWrite a bs

/-! ### Address windows (R73, R76) -/

/-- A window that no unit may use. -/
def noWindow : Window :=
  { base := 0, size := 0, space := 0, read := false, write := false, nitinol := false, cached := false, fail := false, also := [] }

/-- The window as an access at `a` meets it: its own range, or the other buffer that it covers. -/
def Window.over (w : Window) (a : Nat) : Window :=
  match w.also.find? fun r => decide (r.2.1 ≤ a) && decide (a < r.2.1 + r.2.2) with
  | some r => { w with space := r.1, base := r.2.1, size := r.2.2, also := [] }
  | none => w

/-- The window admits an access (R76). -/
def Window.admits (w : Window) (write : Bool) (a n : Nat) : Bool :=
  w.size != 0 && decide (w.base ≤ a) && decide (a + n ≤ w.base + w.size) && (if write then w.write else w.read)

end Sys2Proof.Machine
end

