-- ==== Sys2Proof/Machine/Clock.lean ====
section
/-! DEFINITION. What happens when no command waits: one nanosecond passes (log entry 1). -/
namespace Sys2Proof.Machine

/-- What one nanosecond adds to DEV_TIME: 2 or 0 in every 10^6 ÷ |SLEW| of them, and 1 otherwise (R377; log entry 37). -/
def State.slewStep (s : State) : Nat :=
  let p := s.hlu.slew
  if p == 0 || s.aon % (1000000 / p.natAbs) != 0 then 1 else if 0 < p then 2 else 0

/-- One nanosecond: DEV_TIME runs while PERST# is deasserted (R377, R501), the always-on time while PWRGOOD is high
(R500). -/
def idle (s : State) : State :=
  { s with
    time := if s.running then s.time + s.slewStep else s.time
    aon := if s.pins.pwrgood then s.aon + 1 else s.aon }

end Sys2Proof.Machine
end

