-- ==== Sys2Proof/Machine/Image.lean ====
section
/-! DEFINITION. The Rirak image: its sections, what they say, and the checks of Table 20-13 (20_boot_configuration.md). -/
namespace Sys2Proof.Machine

/-! ### Fields and sections (R469, R470) -/

/-- The byte at an offset. -/
def u8 (b : List Byte) (o : Nat) : Nat := bytesAt b o 1
def u16 (b : List Byte) (o : Nat) : Nat := bytesAt b o 2
def u32 (b : List Byte) (o : Nat) : Nat := bytesAt b o 4
def u64 (b : List Byte) (o : Nat) : Nat := bytesAt b o 8
/-- A signed 16-bit field. -/
def i16 (b : List Byte) (o : Nat) : Int := signedOf 16 (u16 b o)

/-- `n` bytes from `o` are reserved and 0. -/
def zeros (b : List Byte) (o n : Nat) : Bool := bytesAt b o n == 0

/-- A check of a field: its offset, and whether it holds. -/
abbrev Check := Nat × Bool

/-- The offset of the first field that fails. -/
def firstBad (cs : List Check) : Option Nat := (cs.find? fun c => !c.2).map Prod.fst

/-- The sum of some numbers. -/
def total (ns : List Nat) : Nat := ns.foldl (· + ·) 0

/-- A section: its type, where its body begins, and the body's length. -/
structure Sect where
  type : Nat
  at_  : Nat
  len  : Nat
  deriving DecidableEq, Repr

/-- TOTAL_SIZE of the header (Table 20-8). -/
def imageSize (b : List Byte) : Nat := u32 b 16

/-- The header's fields (R469). -/
def headerChecks (b : List Byte) : List Check :=
  [(0, u32 b 0 == 0x5A524B31), (4, u16 b 4 == 1), (6, u16 b 6 == 64), (12, decide (u16 b 12 ≤ 128)), (14, fld (u16 b 14) 1 15 == 0),
   (16, imageSize b % 8 == 0 && decide (64 ≤ imageSize b) && decide (imageSize b ≤ 16777216) && decide (imageSize b ≤ b.length)),
   (20, u16 b 20 == 0x00A1), (22, zeros b 22 42)]

/-- The sections from an offset on, or the offset at fault. -/
def sectsFrom (b : List Byte) (size : Nat) : Nat → Nat → Nat → Sum Nat (List Sect)
  | 0, o, _ => .inl o
  | fuel + 1, o, prev =>
    if o == size then (if prev == 8 then .inr [] else .inl 0)
    else
      let t := u16 b o
      let n := u32 b (o + 4)
      if size < o + 8 || t ≤ prev || 8 < t then .inl o
      else if u16 b (o + 2) != 0 then .inl (o + 2)
      else if n % 8 != 0 || size < o + 8 + n || (t == 8 && o + 8 + n != size) then .inl (o + 4)
      else
        match sectsFrom b size fuel (o + 8 + n) t with
        | .inl e => .inl e
        | .inr ss => .inr (⟨t, o + 8, n⟩ :: ss)

/-- The sections of an image: ascending types, all required ones present (R470). -/
def imageSects (b : List Byte) : Sum Nat (List Sect) :=
  match sectsFrom b (imageSize b) 9 64 0 with
  | .inl e => .inl e
  | .inr ss => if [1, 2, 3, 4, 5, 8].all fun t => ss.any fun x => x.type == t then .inr ss else .inl 0

/-- A section by type; an empty one where there is none. -/
def sectOf (ss : List Sect) (t : Nat) : Sect := (ss.find? fun x => x.type == t).getD ⟨t, 0, 0⟩

/-- The section is there. -/
def hasSect (ss : List Sect) (t : Nat) : Bool := ss.any fun x => x.type == t

/-! ### TOPOLOGY (R471) -/

def topologyChecks (b : List Byte) (x : Sect) : List Check :=
  let o := x.at_
  [(o - 4, x.len == 8), (o, u8 b o != 0), (o + 1, [1, 2, 4].contains (u8 b (o + 1))), (o + 2, decide (u8 b (o + 2) < 2)),
   (o + 3, decide (u8 b (o + 3) < 3)), (o + 4, decide (u8 b (o + 4) < 6)),
   (o + 5, u8 b (o + 5) == 0 || (u8 b (o + 5) == 1 && u8 b (o + 1) != 1)), (o + 6, zeros b (o + 6) 2)]

/-- RS of the image's organisation, and the device memory it makes (R399). -/
def topoRank (b : List Byte) (o : Nat) : Nat := rankGib (u8 b (o + 2)) (u8 b (o + 3)) * 2 ^ 30
def topoSize (b : List Byte) (o : Nat) : Nat := 16 * (u8 b (o + 1) - u8 b (o + 5)) * topoRank b o

/-! ### MEMORY_MAP (R472) -/

/-- Offsets of the entries of a list: COUNT of `size` bytes each from `o`. -/
def entryOffs (o count size : Nat) : List Nat := (List.range count).map fun i => o + i * size

/-- A region entry (Table 20-9). -/
def regionAt (b : List Byte) (o : Nat) : Region :=
  { base := u64 b o, size := u64 b (o + 8), grant := BitVec.ofNat 64 (u64 b (o + 16)), kind := u8 b (o + 24), id := u8 b (o + 25),
    hdm := bitAt (u8 b (o + 26)) 0 }

/-- The regions of a MEMORY_MAP body. -/
def regionsAt (b : List Byte) (o : Nat) : List Region := (entryOffs (o + 8) (u8 b o) 32).map (regionAt b)

/-- Two regions meet. -/
def Region.meets (r q : Region) : Bool := decide (r.base < q.base + q.size) && decide (q.base < r.base + r.size)

/-- The rules of one entry, the earlier ones at hand. BASE 0 is a multiple of 2 MiB, as in the example of R479. -/
def regionChecks (b : List Byte) (o mem rank : Nat) (before_ : List Region) : List Check :=
  let r := regionAt b o
  let grain := if r.hdm then 2 ^ 28 else 2 ^ 21
  [(o, r.base % grain == 0 && !before_.any fun q => q.meets r),
   (o + 8, r.size % grain == 0 && r.size != 0 && decide (r.base + r.size ≤ mem) && (r.kind != 1 || decide (r.size ≤ 2 ^ 35))
      && (!(r.kind == 1 || r.kind == 2) || decide (r.base + r.size ≤ 16 * rank))),
   (o + 16, r.kind == 5 || r.kind == 6 || r.grant == 0), (o + 24, decide (1 ≤ r.kind) && decide (r.kind ≤ 6)),
   (o + 25, if r.kind == 5 then decide (r.id < 64) && !before_.any (fun q => q.kind == 5 && q.id == r.id) else r.id == 0),
   (o + 26, fld (u8 b (o + 26)) 1 7 == 0 && (!r.hdm || r.kind == 5 || r.kind == 6)), (o + 27, zeros b (o + 27) 5)]

/-- CTX SIZE ÷ 32 KiB: the sessions that the device holds (R472). -/
def sessionsOf (rs : List Region) : Nat := ((rs.find? fun r => r.kind == 1).map fun r => r.size / 32768).getD 0

def mapChecks (b : List Byte) (x t : Sect) : List Check :=
  let o := x.at_
  let rs := regionsAt b o
  [(o, decide (4 ≤ u8 b o) && decide (u8 b o ≤ 64)), (o + 1, zeros b (o + 1) 7), (o - 4, x.len == 8 + 32 * u8 b o)]
    ++ ((List.range (u8 b o)).flatMap fun i => regionChecks b (o + 8 + 32 * i) (topoSize b t.at_) (topoRank b t.at_) (rs.take i))
    ++ [(0, [1, 2, 3, 4].all fun k => (rs.filter fun r => r.kind == k).length == 1),
        (0, rs.all fun r => r.kind != 2 || decide (8 * sessionsOf rs ≤ r.size))]

/-! ### FUNCTIONS (R473) -/

/-- A function record (Table 20-10). -/
def fnAt (b : List Byte) (o : Nat) : FnRec :=
  { queues := u16 b o, pools := u8 b (o + 2), channels := u8 b (o + 3), sessions := u32 b (o + 4), vectors := u16 b (o + 8),
    classes := u16 b (o + 10) }

def fnsAt (b : List Byte) (o : Nat) : List FnRec := (entryOffs (o + 8) (u8 b o) 16).map (fnAt b)

/-- A class record (Table 20-11). -/
def classAt (b : List Byte) (o : Nat) : ClassRec :=
  { cls := fld (u32 b o) 0 10, parent := fld (u32 b o) 16 10, owner := fld (u32 b o) 26 6, maxWeight := fld (u32 b (o + 4)) 16 16,
    lane := fld (u32 b (o + 4)) 0 3, maxRate := fld (u32 b (o + 8)) 0 18 }

def classesAt (b : List Byte) (o : Nat) : List ClassRec := (entryOffs (o + 8) (u16 b o) 16).map (classAt b)

def fnChecks (b : List Byte) (o : Nat) (pf : Bool) (classes : Nat) : List Check :=
  let r := fnAt b o
  [(o, decide (r.queues ≤ 2048)), (o + 3, decide (r.channels ≤ 32)), (o + 4, decide (r.sessions ≤ 1048576)),
   (o + 8, decide (1 ≤ r.vectors) && decide (r.vectors ≤ if pf then 2048 else 64)), (o + 10, r.classes == classes),
   (o + 12, zeros b (o + 12) 4)]

def functionsChecks (b : List Byte) (x m c : Sect) : List Check :=
  let o := x.at_
  let fs := fnsAt b o
  let cs := classesAt b c.at_
  [(o, decide (1 ≤ u8 b o) && decide (u8 b o ≤ 64)), (o + 1, zeros b (o + 1) 7), (o - 4, x.len == 8 + 16 * u8 b o)]
    ++ ((List.range (u8 b o)).flatMap fun f => fnChecks b (o + 8 + 16 * f) (f == 0) (cs.filter fun r => r.owner == f).length)
    ++ [(0, decide (total (fs.map FnRec.queues) ≤ 65536)), (0, decide (total (fs.map FnRec.sessions) ≤ sessionsOf (regionsAt b m.at_))),
        (0, decide (total (fs.map FnRec.pools) ≤ 256)), (0, decide (total (fs.map FnRec.channels) ≤ 256))]

/-! ### SCHEDULER (R474, R332, Tables 12-3 and 12-4) -/

/-- A gate entry of 8 bytes (R332). -/
def gateAt (b : List Byte) (o : Nat) : GateEntry :=
  { interval := u32 b o, isOpen := bitAt (u8 b (o + 4)) 0, resDec := fld (u8 b (o + 5)) 0 7, resEnc := fld (u8 b (o + 6)) 0 7 }

def gatesAt (b : List Byte) (o count : Nat) : List GateEntry := (entryOffs o count 8).map (gateAt b)

/-- The rules of one gate entry of a lane. -/
def gateChecks (b : List Byte) (o lane : Nat) : List Check :=
  let g := gateAt b o
  let top := if lane < 2 then 64 else 0
  [(o, decide (1000 ≤ g.interval)), (o + 4, fld (u8 b (o + 4)) 1 7 == 0), (o + 5, bitAt (u8 b (o + 5)) 7 == false && decide (g.resDec ≤ top)),
   (o + 6, bitAt (u8 b (o + 6)) 7 == false && decide (g.resEnc ≤ top)), (o + 7, zeros b (o + 7) 1)]

/-- A lane's list and parameters from its header (R474). -/
def laneAt (b : List Byte) (o : Nat) : GateList :=
  { base := u64 b o, guardF := u16 b (o + 8), lead := u16 b (o + 10), preempt := bitAt (u8 b (o + 12)) 0,
    list := gatesAt b (o + 32) (u8 b (o + 13)) }

def laneChecks (b : List Byte) (o lane : Nat) : List Check :=
  [(o + 8, decide (256 ≤ u16 b (o + 8)) && decide (u16 b (o + 8) ≤ 1024)),
   (o + 10, if lane < 2 then decide (10 ≤ u16 b (o + 10)) else u16 b (o + 10) == 0), (o + 12, decide (u8 b (o + 12) ≤ if lane < 2 then 1 else 0)),
   (o + 13, decide (u8 b (o + 13) ≤ 64)), (o + 14, zeros b (o + 14) 18)]
    ++ (entryOffs (o + 32) (u8 b (o + 13)) 8).flatMap fun p => gateChecks b p lane

/-- Lanes of a mask with the offsets of their headers, and where the last ends. -/
def laneOffs (b : List Byte) (mask : Nat) : List Nat → Nat → List (Nat × Nat) × Nat
  | [], o => ([], o)
  | l :: ls, o =>
    if bitAt mask l then
      let r := laneOffs b mask ls (o + 32 + 8 * u8 b (o + 13))
      ((l, o) :: r.1, r.2)
    else laneOffs b mask ls o

/-- The lane headers of a SCHEDULER body. -/
def lanesOf (b : List Byte) (o : Nat) : List (Nat × Nat) × Nat := laneOffs b (u8 b (o + 2)) (List.range 8) (o + 8 + 16 * u16 b o)

/-- Depth of a class among the records before it, the root at 1 (R273). -/
def depthOf (cs : List ClassRec) : Nat → Nat → Nat
  | 0, _ => 7
  | fuel + 1, c => if c == 0 then 1 else
    match cs.find? fun r => r.cls == c with
    | some r => 1 + depthOf cs fuel r.parent
    | none => 7

def classChecks (b : List Byte) (o fns : Nat) (before_ all_ : List ClassRec) : List Check :=
  let r := classAt b o
  let parent := before_.find? fun q => q.cls == r.parent
  [(o, fld (u32 b o) 10 6 == 0 && r.cls != 0 && !(before_.any fun q => q.cls == r.cls)),
   (o + 2, (r.parent == 0 || parent.isSome) && decide (depthOf before_ 6 r.parent ≤ 5)),
   (o + 3, decide (r.owner < fns) && parent.all fun p => p.owner == 0 || p.owner == r.owner),
   (o + 4, fld (u32 b (o + 4)) 3 13 == 0 && (r.lane == 0 || !all_.any fun q => q.parent == r.cls)), (o + 6, decide (1 ≤ r.maxWeight)),
   (o + 8, fld (u32 b (o + 8)) 18 14 == 0 && decide (r.maxRate ≤ 152000)), (o + 12, zeros b (o + 12) 4)]

def schedulerChecks (b : List Byte) (x f : Sect) : List Check :=
  let o := x.at_
  let n := u16 b o
  let cs := classesAt b o
  [(o, decide (n ≤ 1023)), (o + 3, zeros b (o + 3) 5), (o - 4, (lanesOf b o).2 == o + x.len)]
    ++ ((List.range n).flatMap fun i => classChecks b (o + 8 + 16 * i) (u8 b f.at_) (cs.take i) cs)
    ++ (lanesOf b o).1.flatMap fun p => laneChecks b p.2 p.1

/-! ### PCF_ROUTES (R475, R259) -/

/-- A filter bank of 1,544 bytes. -/
def bankAt (b : List Byte) (o : Nat) : FilterBank :=
  { ratio := u16 b o, luma := (List.range 512).map fun i => i16 b (o + 8 + 2 * i), chroma := (List.range 256).map fun i => i16 b (o + 1032 + 2 * i) }

/-- Sum of the taps of phase `p`, `n` to a phase. -/
def phaseSum (taps : List Int) (n p : Nat) : Int := ((taps.drop (n * p)).take n).foldl (· + ·) 0

/-- A tap lies in −512 to 511. -/
def tapOk (t : Int) : Bool := decide (-512 ≤ t) && decide (t ≤ 511)

def bankChecks (b : List Byte) (o : Nat) (prev : Option Nat) : List Check :=
  let k := bankAt b o
  [(o, match prev with
      | none => decide (k.ratio ≤ 128)
      | some r => decide (r < k.ratio)), (o + 2, zeros b (o + 2) 6)]
    ++ ((List.range 64).map fun p => (o + 8 + 16 * p, ((k.luma.drop (8 * p)).take 8).all tapOk && phaseSum k.luma 8 p == 256))
    ++ (List.range 64).map fun p => (o + 1032 + 8 * p, ((k.chroma.drop (4 * p)).take 4).all tapOk && phaseSum k.chroma 4 p == 256)

/-- A route template of 64 bytes. -/
def templateAt (b : List Byte) (o : Nat) : Template :=
  let f := u8 b (o + 4)
  { id := u8 b o, chroma := u8 b (o + 1), depth := u8 b (o + 2), dither := u8 b (o + 3), siteInH := bitAt f 0, siteInV := bitAt f 1,
    siteOutH := bitAt f 2, siteOutV := bitAt f 3, mInEn := bitAt f 4, mOutEn := bitAt f 5, lutEn := bitAt f 6,
    mIn := (List.range 12).map fun i => i16 b (o + 8 + 2 * i), mOut := (List.range 12).map fun i => i16 b (o + 32 + 2 * i) }

/-- A matrix: all zeros where it is not enabled, and its offsets in range (R475). -/
def matrixOk (en : Bool) (m : List Int) : Bool :=
  if en then (m.drop 9).all fun o => decide (-4096 ≤ o) && decide (o ≤ 4095) else m.all fun v => v == 0

def templateChecks (b : List Byte) (o : Nat) (before_ : List Template) : List Check :=
  let t := templateAt b o
  [(o, decide (t.id < 64) && !before_.any fun q => q.id == t.id), (o + 1, decide (1 ≤ t.chroma) && decide (t.chroma ≤ 3)),
   (o + 2, decide (8 ≤ t.depth) && decide (t.depth ≤ 12)), (o + 3, decide (t.dither ≤ 2)), (o + 4, bitAt (u8 b (o + 4)) 7 == false),
   (o + 5, zeros b (o + 5) 3), (o + 8, matrixOk t.mInEn t.mIn), (o + 32, matrixOk t.mOutEn t.mOut), (o + 56, zeros b (o + 56) 8)]

def banksAt (b : List Byte) (o : Nat) : List FilterBank := (entryOffs (o + 8) (u8 b o) 1544).map (bankAt b)
def templatesAt (b : List Byte) (o : Nat) : List Template := (entryOffs (o + 8 + 1544 * u8 b o) (u8 b (o + 1)) 64).map (templateAt b)

def routesChecks (b : List Byte) (x : Sect) : List Check :=
  let o := x.at_
  let n := u8 b o
  let ts := templatesAt b o
  [(o, decide (1 ≤ n) && decide (n ≤ 8)), (o + 1, decide (u8 b (o + 1) ≤ 64)), (o + 2, zeros b (o + 2) 6),
   (o - 4, x.len == 8 + 1544 * n + 64 * u8 b (o + 1))]
    ++ ((List.range n).flatMap fun i => bankChecks b (o + 8 + 1544 * i) (if i == 0 then none else some (u16 b (o + 8 + 1544 * (i - 1)))))
    ++ (List.range (u8 b (o + 1))).flatMap fun i => templateChecks b (o + 8 + 1544 * n + 64 * i) (ts.take i)

/-! ### INTERRUPT_ROUTES (R476) -/

/-- A route of 8 bytes. -/
def routeAt (b : List Byte) (o : Nat) : Route := { source := fld (u32 b o) 0 10, target := fld (u32 b o) 16 7, prio := fld (u32 b o) 24 4 }

def irRoutes (b : List Byte) (o : Nat) : List Route := (entryOffs (o + 8) (u16 b o) 8).map (routeAt b)

/-- Device sources that a table of routes sends to a target (R476). -/
def routedTo (rs : List Route) (t : Nat) : Nat :=
  ((List.range 256).filter fun i =>
    (match rs.find? fun r => r.source == 512 + i with
      | some r => r.target
      | none => if i < 2 then 0 else 64) == t).length

def routeChecks (b : List Byte) (o : Nat) (before_ : List Route) : List Check :=
  let r := routeAt b o
  [(o, fld (u32 b o) 10 6 == 0 && decide (512 ≤ r.source) && decide (r.source < 768) && !before_.any fun q => q.source == r.source),
   (o + 2, bitAt (u32 b o) 23 == false && (r.target == 0 || (decide (64 ≤ r.target) && decide (r.target < 68)))),
   (o + 3, fld (u32 b o) 28 4 == 0), (o + 4, zeros b (o + 4) 4)]

def interruptChecks (b : List Byte) (x f : Sect) : List Check :=
  let o := x.at_
  let n := u16 b o
  let rs := irRoutes b o
  [(o, decide (n ≤ 256)), (o + 4, zeros b (o + 4) 4), (o - 4, x.len == 8 + 8 * n + 1024)]
    ++ ((List.range n).flatMap fun i => routeChecks b (o + 8 + 8 * i) (rs.take i))
    ++ ((entryOffs (o + 8 + 8 * n) 64 16).map fun p => (p + 8, fld (bytesAt b p 16) 68 60 == 0))
    ++ [(0, decide (routedTo rs 0 + 3 + (fnAt b (f.at_ + 8)).channels ≤ 256)), (0, [64, 65, 66, 67].all fun t => decide (routedTo rs t ≤ 256))]

/-! ### FAULT_POLICY (R477, Tables 19-6 and 19-15) -/

def policyAt (b : List Byte) (o : Nat) : Policy :=
  let v := u32 b o
  { autoUnfence := bitAt v 22, mchkLimit := fld v 0 4, unitLimit := fld v 8 4, mpLimit := fld v 12 4, escalateUc := bitAt v 23,
    aliveClasses := BitVec.ofNat 4 (fld v 16 4), autoMigrate := bitAt v 24, ceThresh := u16 b (o + 4) }

def policyChecks (b : List Byte) (x : Sect) : List Check :=
  let o := x.at_
  let v := u32 b o
  [(o - 4, x.len == 8), (o, fld v 0 4 != 0 && fld v 4 4 == 0), (o + 1, fld v 8 4 != 0 && fld v 12 4 != 0),
   (o + 2, bitAt v 18 && fld v 20 2 == 0), (o + 3, fld v 25 7 == 0), (o + 4, u16 b (o + 4) != 0), (o + 6, zeros b (o + 6) 2)]

/-! ### What an image says, and its checks (R478, R479) -/

/-- The image's bytes that its signature covers (R478). -/
def signedBytes (b : List Byte) (ss : List Sect) : List Byte := b.take ((sectOf ss 8).at_ - 8)

/-- The digest of the image: its identity (R478). -/
def imageDigest (b : List Byte) (ss : List Sect) : BitVec 384 := Config.sha384 (signedBytes b ss)

/-- The image as its sections say. -/
def readImage (b : List Byte) (ss : List Sect) : Image :=
  let t := (sectOf ss 1).at_
  let c := (sectOf ss 4).at_
  let p := (sectOf ss 5).at_
  let r := (sectOf ss 6).at_
  { version := BitVec.ofNat 32 (u32 b 8), arb := u16 b 12, permit := BitVec.ofNat 16 (u16 b 14), clusterEn := BitVec.ofNat 8 (u8 b t),
    ranks := u8 b (t + 1), width := u8 b (t + 2), density := u8 b (t + 3), rateMax := u8 b (t + 4), spareEn := u8 b (t + 5) == 1,
    regions := regionsAt b (sectOf ss 2).at_, fns := fnsAt b (sectOf ss 3).at_, classes := classesAt b c,
    lanes := (lanesOf b c).1.map fun l => (l.1, laneAt b l.2), banks := banksAt b p, templates := templatesAt b p,
    routes := if hasSect ss 6 then irRoutes b r else [],
    defPrio := if hasSect ss 6 then BitVec.ofNat 16 (u16 b (r + 2)) else 0x4664,
    semPermit := if hasSect ss 6 then (entryOffs (r + 8 + 8 * u16 b r) 64 16).map fun o => BitVec.ofNat 68 (bytesAt b o 16)
      else List.replicate 64 (BitVec.ofNat 68 (15 * 2 ^ 64 + 1)),
    policy := if hasSect ss 7 then policyAt b (sectOf ss 7).at_ else Policy.default, digest := imageDigest b ss }

/-- The checks of one section, by its type (Table 20-13). -/
def sectionChecks (b : List Byte) (ss : List Sect) (t : Nat) : List Check :=
  let x := sectOf ss t
  if t == 1 then topologyChecks b x
  else if t == 2 then mapChecks b x (sectOf ss 1)
  else if t == 3 then functionsChecks b x (sectOf ss 2) (sectOf ss 4)
  else if t == 4 then schedulerChecks b x (sectOf ss 3)
  else if t == 5 then routesChecks b x
  else if t == 6 then (if hasSect ss 6 then interruptChecks b x (sectOf ss 3) else [])
  else if hasSect ss 7 then policyChecks b x else []

/-- Reasons 0x08 to 0x0E: the first section whose rules fail. -/
def sectionsFail (b : List Byte) (ss : List Sect) : Option (Nat × Nat) :=
  ((List.range 7).filterMap fun i => (firstBad (sectionChecks b ss (i + 1))).map fun o => (0x08 + i, o)).head?

/-- KEY_X ‖ KEY_Y, and R ‖ S of the SIGNATURE body (Table 20-12). -/
def sigKey (b : List Byte) (x : Sect) : List Byte := (b.drop x.at_).take 96
def sigRs (b : List Byte) (x : Sect) : List Byte := (b.drop (x.at_ + 96)).take 96

/-- What a whole check of an image finds: REASON and OFFSET where it fails, or what the image says (Table 20-13, R479). -/
def checkImage (fu : Fuses) (b : List Byte) : Sum (Nat × Nat) Image :=
  match firstBad (headerChecks b) with
  | some o => .inl (0x02, o)
  | none =>
    match imageSects b with
    | .inl o => .inl (0x03, o)
    | .inr ss =>
      let x := sectOf ss 8
      if !fu.ownerLock then .inl (0x04, 0)
      else if Config.sha384 (sigKey b x) != fu.ownerHash then .inl (0x05, x.at_)
      else if x.len != 192 || !Config.ecdsaOk (sigKey b x) (imageDigest b ss) (sigRs b x) then .inl (0x06, x.at_ + 96)
      else if u16 b 12 < fu.imageArb then .inl (0x07, 12)
      else
        match sectionsFail b ss with
        | some r => .inl r
        | none => .inr (readImage b ss)

end Sys2Proof.Machine
end

