-- ==== Sys2Proof/Machine/Notify.lean ====
section
/-! DEFINITION. How units tell the outside: fault reports, interrupt sources and their messages, event records
(17_interrupts_mailboxes.md, 19_faults_recovery.md, 13_work_queues.md). -/
namespace Sys2Proof.Machine

/-! ### Fault reports (R432 to R435; log entry 12) -/

/-- Class of a fault code (Table 19-3): 0 C, 1 UC, 2 F, 3 U. -/
def codeClass (code : Nat) : Nat :=
  if code == 0x01 || code == 0x06 || code == 0x0A || code == 0x0C then 0
  else if 0x20 ≤ code ∧ code < 0x30 then 3
  else if 0x30 ≤ code then 2
  else 1

/-- The class a report takes under the policy: ESCALATE_UC handles every UC fault as F (Table 19-6). -/
def State.reportClass (s : State) (code : Nat) : Nat :=
  if codeClass code == 1 && s.policy.escalateUc then 2 else codeClass code

/-- A unit reports a fault; it waits in the FCL's inbox until the FCL accepts it (R436; log entry 12). -/
def State.report (s : State) (code source : Nat) (fn session : Option Nat) (info : Nat) (tag : BitVec 16) (addr : Nat) :
    State :=
  s.modFcl fun f => { f with inbox := f.inbox ++
    [{ time := BitVec.ofNat 64 s.time, recSeq := 0, cls := s.reportClass code, fn := fn, session := session,
       source := source, code := code, info := BitVec.ofNat 16 info, tag := tag, addr := BitVec.ofNat 64 addr, untold := false }] }

/-- A refused register access: source 0xAB, code 0x20, INFO = offset [15:0] (Tables 19-2 and 19-3). -/
def State.reportAccess (s : State) (fn off : Nat) : State := s.report 0x20 0xAB (some fn) none (off % 65536) 0 0

/-! ### Channels and their owners (R341, R473) -/

/-- First global channel of function `f`: the sum of CHANNELS over the functions below it. -/
def State.chanBase (s : State) : Nat → Nat
  | 0 => 0
  | f + 1 => s.chanBase f + (s.fnRec f).channels

/-- Global number of local channel `l` of function `f`. -/
def State.chanOf (s : State) (f l : Nat) : Nat := s.chanBase f + l

/-- The function that owns global channel `g`, with its local number. -/
def State.chanOwner (s : State) (g : Nat) : Option (Nat × Nat) :=
  ((List.range s.fnCount).find? fun f => decide (s.chanBase f ≤ g) && decide (g < s.chanBase (f + 1))).map
    fun f => (f, g - s.chanBase f)

/-! ### Interrupt sources (R381 to R386) -/

/-- The route of a device source: the image's, else PF0 at priority 8 for 512 and 513, else target 64 at 1 (R476). -/
def State.routeOf (s : State) (n : Nat) : Nat × Nat :=
  match s.boot.image with
  | some i =>
    match i.routes.find? (fun r => r.source == n) with
    | some r => (r.target, r.prio)
    | none => if n == 512 || n == 513 then (0, 8) else (64, 1)
  | none => if n == 512 || n == 513 then (0, 8) else (64, 1)

/-- DEF_PRIO of the image (R476); 4, 6, 6, 4 without one. -/
def State.defPrio (s : State) : Nat :=
  match s.boot.image with
  | some i => i.defPrio.toNat
  | none => 0x4664

/-- Target of a source; none where it exists for no function or is reserved (R381, Table 17-1). -/
def State.sourceTarget (s : State) (n : Nat) : Option Nat :=
  if n < 192 then (if (s.func (n % 64)).isThere then some (n % 64) else none)
  else if n < 448 then
    match s.chanOwner (n - 192) with
    | some (f, _) => if (s.func f).isThere then some f else none
    | none => none
  else if 512 ≤ n ∧ n < 768 then some (s.routeOf n).1
  else none

/-- MBX_IN is the level source; every source that this manual's chapters raise otherwise is an edge source (Table 17-1). -/
def isLevelSource (n : Nat) : Bool := decide (64 ≤ n) && decide (n < 128)

/-- The priority a source has at reset (R476). -/
def State.resetPrio (s : State) (n : Nat) : Nat :=
  if n < 64 then fld s.defPrio 0 4
  else if n < 128 then fld s.defPrio 4 4
  else if n < 192 then fld s.defPrio 8 4
  else if n < 448 then fld s.defPrio 12 4
  else (s.routeOf n).2

/-- Current priority of a source. -/
def State.prioOf (s : State) (n : Nat) : Nat :=
  match (s.src n).prio with
  | some p => p
  | none => s.resetPrio n

/-- Current vector of a source; a DMV source shares DMV_CH_CTRL.VECTOR (R386). -/
def State.vectorOf (s : State) (n : Nat) : Nat :=
  if 192 ≤ n ∧ n < 448 then (s.chan (n - 192)).vector else (s.src n).vector

/-- The sources of a target in slot order, at most 256 (R381). -/
def State.slots (s : State) (t : Nat) : List Nat :=
  let own := if t < 64 then
      [t, 64 + t, 128 + t] ++ (List.range (s.fnRec t).channels).map (fun l => 192 + s.chanOf t l)
    else []
  let dev := (List.range 256).map (· + 512) |>.filter fun n => (s.routeOf n).1 == t
  ((own ++ dev).filter fun n => s.sourceTarget n == some t).take 256

/-- R383: pending, and PRIO above both THRESHOLD and ACTIVE_LEVEL. -/
def State.deliverable (s : State) (n : Nat) : Bool :=
  match s.sourceTarget n with
  | some t => (s.src n).pending && decide (s.prioOf n > (s.target t).threshold) && decide (s.prioOf n > (s.target t).active)
  | none => false

/-! ### Messages (R386 to R388) -/

/-- The vector's mask bit is clear. -/
def State.unmasked (s : State) (fn v : Nat) : Bool := (tblGet [] s.imb.mask fn).contains v

/-- A message of either kind: dropped in the safe state and under an FLR, a Pending Bit Array bit where masked, held
with PME in D3hot, and otherwise sent, leaving L1 first (R388, R376, R375). -/
def State.message (s : State) (fn v : Nat) : State :=
  if !s.up || (s.func fn).flr || !s.linkPasses then s
  else if !s.unmasked fn v then
    s.modImb fun b => { b with pba := tblMod [] b.pba fn fun l => if l.contains v then l else l ++ [v] }
  else if (s.func fn).d3 then
    (s.modFunc fn fun f => { f with held := f.held ++ [.msix fn v] }).send (.pme fn)
  else
    (s.modImb fun b => { b with messages := sat64 b.messages 1 }).send (.msix fn v)

/-- One source settles: a message each time it becomes deliverable after having been not deliverable (R386). -/
def State.settleSource (s : State) (n : Nat) : State :=
  let now := s.deliverable n
  let t := s.modSrc n fun c => { c with deliverable := now }
  if now && !(s.src n).deliverable then
    match s.sourceTarget n with
    | some k => if k < 64 then t.message k (s.vectorOf n) else t.emit (.mpSignal k n)
    | none => t
  else t

/-- Every source of a target settles, in slot order. -/
def State.settleTarget (s : State) (t : Nat) : State := forEach (s.slots t) (fun n u => u.settleSource n) s

/-- One assertion: the pending bit, and the count up to 255 (R382). -/
def State.assertSource (s : State) (n : Nat) : State :=
  if (s.sourceTarget n).isNone || !s.up then s
  else (s.modSrc n fun c => { c with pending := true, count := min 255 (c.count + 1) }).settleSource n

/-- The level of a level source: a rising edge asserts it (R382). -/
def State.setLevel (s : State) (n : Nat) (l : Bool) : State :=
  let t := s.modSrc n fun c => { c with level := l }
  if l && !(s.src n).level then t.assertSource n else t

/-! ### Event rings (R320 to R322) -/

/-- Full: producer and consumer differ only in the wrap bit (R295). -/
def ringFull (prod cons depth : Nat) : Bool := prod ^^^ cons == depth

/-- An index one on, within 0 to 2 × depth − 1 (R295). -/
def ringNext (i depth : Nat) : Nat := (i + 1) % (2 * depth)

/-- The published index word: producer and OVERFLOW (R320). -/
def EvRing.word (r : EvRing) : Nat := r.prod % 131072 + b2n r.overflow * 2 ^ 31

/-- The index word written for function `fn`. -/
def State.putEventWord (s : State) (fn : Nat) : State :=
  s.putRecord fn (s.ring fn).wordSpace (s.ring fn).wordAddr (leBytes 4 (s.ring fn).word)

/-- An event of function `fn` (Table 13-14a): written to its ring, or lost under R322. The ring's interrupt source
follows the record. Nothing is written without a ring, under an FLR (R372), or in the safe state (R444). -/
def State.event (s : State) (fn type : Nat) (queue : Option Nat) (cause session : Nat) (seq tag : Word) (arg : Nat) : State :=
  let r := s.ring fn
  if !r.isThere || !s.up || (s.func fn).flr then s
  else if ringFull r.prod r.cons r.depth then
    (s.modRing fn fun r => { r with
      pend := r.pend ||| BitVec.twoPow 16 type, lost := sat32 r.lost 1, overflow := true }).putEventWord fn
  else
    let rec_ := leBytes 32 (put 0 0 type + put 0 8 cause + put 0 16 (queue.getD 0xFFFF) + put 4 0 session
      + put 8 0 seq.toNat + put 12 0 tag.toNat + put 16 0 (s.time % 2 ^ 64) + put 24 0 arg)
    let t := s.putRecord fn r.ringSpace (r.ringAddr + r.prod % r.depth * 32) rec_
    ((t.modRing fn fun r => { r with prod := ringNext r.prod r.depth }).putEventWord fn).assertSource fn

/-! ### Mailbox levels (R390, R394) -/

/-- Key of a mailbox side in `imb.mbx`. -/
def mbxKey : MbxSide → Nat
  | .vf n => n
  | .pf0 => 0
  | .pf0Vf n => 64 + n
  | .fw => 128

/-- The side at the far end (R390). -/
def mbxPeer : MbxSide → MbxSide
  | .vf n => .pf0Vf n
  | .pf0Vf n => .vf n
  | .pf0 => .fw
  | .fw => .pf0

/-- The function whose MBX_IN and MBX_OUT sources a side has: VF n, PF0 towards the firmware, and PF0 again for its
side of a VF's mailbox (R390). -/
def mbxFn : MbxSide → Option Nat
  | .vf n => some n
  | .pf0 => some 0
  | .pf0Vf _ => some 0
  | .fw => none

/-- The sides exist: numbers 1 to 63 for VFs. -/
def mbxValid : MbxSide → Bool
  | .vf n => decide (1 ≤ n) && decide (n < 64)
  | .pf0Vf n => decide (1 ≤ n) && decide (n < 64)
  | _ => true

/-- Inbound bits of a side: its peer's outbound bits (R390). -/
def State.mbxIn (s : State) (d : MbxSide) : Word := (s.mbx (mbxKey (mbxPeer d))).out

/-- Unmasked inbound bits of a side. -/
def State.mbxLevelOf (s : State) (d : MbxSide) : Bool := (s.mbxIn d &&& ~~~ (s.mbx (mbxKey d)).mask) != 0

/-- The level of MBX_IN[f]: any unmasked inbound bit of function f's mailbox; PF0's takes in its sides of the VFs'
mailboxes (Table 17-1; log entry 19). -/
def State.mbxInLevel (s : State) (f : Nat) : Bool :=
  if f == 0 then s.mbxLevelOf .pf0 || (List.range 64).any fun n => n != 0 && s.mbxLevelOf (.pf0Vf n)
  else s.mbxLevelOf (.vf f)

/-- MBX_IN of a side's function follows its inbound bits and mask. -/
def State.settleMbx (s : State) (d : MbxSide) : State :=
  match mbxFn d with
  | some f => s.setLevel (64 + f) (s.mbxInLevel f)
  | none => s

/-- MBX_OUT of a side's function (Table 17-1). -/
def State.raiseMbxOut (s : State) (d : MbxSide) : State :=
  match mbxFn d with
  | some f => s.assertSource (128 + f)
  | none => s

end Sys2Proof.Machine
end

