-- ==== Sys2Proof/Machine/Imb.lean ====
section
/-! DEFINITION. Interrupts, mailboxes and semaphores (17_interrupts_mailboxes.md). -/
namespace Sys2Proof.Machine

/-- A function's registers answer: it exists, is ready, and no FLR of it is running (R370, R372, R445). -/
def State.fnOpen (s : State) (fn : Nat) : Bool := s.up && (s.func fn).isThere && (s.func fn).ready && !(s.func fn).flr && s.linkPasses

/-- As `fnOpen`, with an image in force (R462). -/
def State.fnLive (s : State) (fn : Nat) : Bool := s.live && s.fnOpen fn

/-- Base of a function's page at `vf` in VF BAR 0 and at `pf` in PF0 BAR 0 (R361, R484). -/
def pageBase (fn pf vf : Nat) : Nat := if fn == 0 then pf else vf

/-! ### Sources -/

/-- An assertion: an edge source when its event comes; MBX_IN follows the level of its doorbell bits (R382, Table 17-1). -/
def assertOp (n : Nat) (level : Bool) (s : State) : State :=
  if isLevelSource n then s.setLevel n (s.mbxInLevel (n % 64))
  else onlyIf level (fun t => t.assertSource n) s

/-- The number names a source; 448 to 511 and 768 up are reserved (Table 17-1). -/
def sourceOk (n : Nat) : Bool := decide (n < 448) || (decide (512 ≤ n) && decide (n < 768))

def execSourceAssert (source : Nat) (level : Bool) (s : State) : Res :=
  .next (onlyIf (s.up && sourceOk source) (assertOp source level) s)

/-- The claim of R384: the slot, the source, and the state after it; none where nothing is deliverable. -/
def State.claimed (s : State) (t : Nat) : Option (Nat × Nat) :=
  leastBy (fun p => -(s.prioOf p.2 : Int)) ((List.zip (List.range 256) (s.slots t)).filter fun p => s.deliverable p.2)

/-- The word that a claim returns (Table 17-4). -/
def State.claimWord (s : State) (slot n : Nat) : Nat :=
  2 ^ 31 + b2n (isLevelSource n) * 2 ^ 30 + s.prioOf n * 2 ^ 24 + (s.src n).count * 2 ^ 16 + slot

/-- Claiming source `n` in slot `slot` raises ACTIVE_LEVEL to its PRIO, and clears an edge source (R384). -/
def State.takeClaim (s : State) (t slot n : Nat) : State :=
  let p := s.prioOf n
  let u := s.modTarget t fun g => { g with active := p, stack := (g.active, slot) :: g.stack }
  (if isLevelSource n then u else u.modSrc n fun c => { c with pending := false, count := 0 }).settleTarget t

/-- A read of IMB_CLAIM (R384). -/
def claimOp (fn : Nat) (s : State) : State :=
  match s.claimed fn with
  | none => s.withRdata 0
  | some (slot, n) => (s.takeClaim fn slot n).withRdata (BitVec.ofNat 64 (s.claimWord slot n))

def execImbClaim (fn : Nat) (s : State) : Res := .next (if s.fnLive fn then claimOp fn s else s.withRdata 0)

/-- A level source settles at its completion: cleared when its level is low, count 1 when high (R385). -/
def settleLevel (c : Src) : Src := if c.level then { c with pending := true, count := 1 } else { c with pending := false, count := 0 }

/-- A write of IMB_COMPLETE (R385). -/
def completeOp (fn : Nat) (v : Word) (s : State) : State :=
  let slot := fld v.toNat 0 8
  match (s.target fn).stack with
  | (lvl, k) :: rest =>
    if k == slot then
      let t := s.modTarget fn fun g => { g with active := lvl, stack := rest }
      let u := match (s.slots fn)[slot]? with
        | some n => if isLevelSource n then t.modSrc n settleLevel else t
        | none => t
      u.settleTarget fn
    else (s.modImb fun b => { b with claimErr := sat32 b.claimErr 1 }).report 0x24 0xA6 (some fn) none 0 0 0
  | [] => (s.modImb fun b => { b with claimErr := sat32 b.claimErr 1 }).report 0x24 0xA6 (some fn) none 0 0 0

def execImbComplete (fn : Nat) (v : Word) (s : State) : Res := .next (onlyIf (s.fnLive fn) (completeOp fn v) s)

/-- A write of THRESHOLD (R386). -/
def thresholdOp (fn : Nat) (v : Word) (s : State) : State :=
  (s.modTarget fn fun g => { g with threshold := fld v.toNat 0 4 }).settleTarget fn

def execImbThreshold (fn : Nat) (v : Word) (s : State) : Res := .next (onlyIf (s.fnLive fn) (thresholdOp fn v) s)

/-- A write of IMB_LSRC_B: PRIO and VECTOR, refused whole where VECTOR is not below the function's count (Table 17-5). -/
def lsrcOp (fn slot : Nat) (v : Word) (s : State) : State :=
  match (s.slots fn)[slot]? with
  | none => s
  | some n =>
    if fld v.toNat 0 11 < (s.fnRec fn).vectors then
      let t := s.modSrc n fun c => { c with prio := some (fld v.toNat 16 4), vector := fld v.toNat 0 11 }
      (if 192 ≤ n ∧ n < 448 then t.modChan (n - 192) fun c => { c with vector := fld v.toNat 0 11 } else t).settleSource n
    else s.reportAccess fn (pageBase fn 0x2402000 0x21000 + 0x804 + 8 * slot)

def execImbLsrcB (fn slot : Nat) (v : Word) (s : State) : Res := .next (onlyIf (s.fnLive fn) (lsrcOp fn slot v) s)

/-- A mask bit clears: one message where messages were masked (R388). -/
def unmaskOp (fn vector : Nat) (s : State) : State :=
  let t := s.modImb fun b =>
    { b with mask := tblMod [] b.mask fn fun l => if l.contains vector then l else l ++ [vector]
             pba := tblMod [] b.pba fn fun l => without l vector }
  if (tblGet [] s.imb.pba fn).contains vector then t.message fn vector else t

def execMsixUnmask (fn vector : Nat) (s : State) : Res :=
  .next (onlyIf (s.up && (s.func fn).isThere && !(s.func fn).flr && decide (vector < if fn == 0 then 2048 else 64))
    (unmaskOp fn vector) s)

/-! ### Mailboxes (R390 to R394) -/

/-- The requester that drives a side, and may: the firmware, PF0, or the VF (R390, R462, R485). -/
def State.mbxOpen (s : State) (d : MbxSide) : Bool :=
  match d with
  | .vf n => mbxValid d && s.fnLive n
  | .pf0 => s.fnOpen 0
  | .pf0Vf _ => mbxValid d && s.fnLive 0
  | .fw => s.up && s.fcl.mpFenced != 3

/-- The far side can take a message: its function exists and is not under an FLR (Table 17-11). -/
def State.peerThere (s : State) (d : MbxSide) : Bool :=
  match d with
  | .vf _ => !(s.func 0).flr
  | .pf0Vf n => (s.func n).isThere && !(s.func n).flr
  | .fw => !(s.func 0).flr
  | .pf0 => true

/-- A write of one word of an outbound slot: discarded while the slot's bit is set (R392). -/
def slotOp (d : MbxSide) (k w : Nat) (v : Word) (s : State) : State :=
  s.modMbx (mbxKey d) fun m =>
    if m.out.getLsbD k then { m with slotBusy := true } else { m with slots := tblSet 0 m.slots (4 * k + w) v }

def execMbxOutSlot (side : MbxSide) (k w : Nat) (v : Word) (s : State) : Res :=
  .next (onlyIf (s.mbxOpen side && decide (k < 8) && decide (w < 4)) (slotOp side k w v) s)

/-- One outbound bit set: GEN stamped in a slot's byte 11, and its timer started (R392 to R394). -/
def setBit (now gen k : Nat) (m : Mbx) : Mbx :=
  { m with
    out := m.out ||| BitVec.twoPow 32 k
    slots := if k < 8 then tblMod 0 m.slots (4 * k + 2) fun w => BitVec.ofNat 32 (w.toNat % 2 ^ 24 + gen * 2 ^ 24) else m.slots
    started := tblSet 0 m.started k (now + 1)
    stale := m.stale &&& ~~~ BitVec.twoPow 32 k }

/-- Every bit of `v` that is not yet set is set; a set bit stays as it is (R392). -/
def setBits (now : Nat) (v : Word) (m : Mbx) : Mbx :=
  forUpTo 32 (fun k m' => if v.getLsbD k && !m.out.getLsbD k then setBit now m.gen k m' else m') m

/-- A write of MBX_OUT_DB: delivered at once, discarded where the peer is being reset (R392, Table 17-11). -/
def outDbOp (d : MbxSide) (v : Word) (s : State) : State :=
  if s.peerThere d then (s.modMbx (mbxKey d) (setBits s.time v)).settleMbx (mbxPeer d) else s

def execMbxOutDb (side : MbxSide) (v : Word) (s : State) : Res := .next (onlyIf (s.mbxOpen side) (outDbOp side v) s)

/-- Consumption: the bits clear in both views, their timers stop, and the slots are free (R392, R393). -/
def consume (v : Word) (m : Mbx) : Mbx :=
  { m with out := m.out &&& ~~~ v, stale := m.stale &&& ~~~ v,
           started := m.started.filter fun p => !v.getLsbD p.1 }

/-- A write of MBX_IN_DB (R392). -/
def inDbOp (d : MbxSide) (v : Word) (s : State) : State := (s.modMbx (mbxKey (mbxPeer d)) (consume v)).settleMbx d

def execMbxInDb (side : MbxSide) (v : Word) (s : State) : Res := .next (onlyIf (s.mbxOpen side) (inDbOp side v) s)

/-- The timer of an outbound bit runs: the bit is set and not stale (R393, R394). -/
def State.mbxTimed (s : State) (d : MbxSide) (k : Nat) : Bool :=
  let m := s.mbx (mbxKey d)
  decide (k < 32) && m.out.getLsbD k && !m.stale.getLsbD k && tblGet 0 m.started k != 0

/-- A timeout: flag, MBX_OUT of the sender; the message stays (R393). -/
def timeoutOp (d : MbxSide) (k : Nat) (s : State) : State :=
  let m := s.mbx (mbxKey d)
  (((s.reach (tblGet 0 m.started k - 1 + m.tmo * 1000)).modMbx (mbxKey d) fun m =>
    { m with tmoFlags := m.tmoFlags ||| BitVec.twoPow 32 k, started := tblSet 0 m.started k 0 }).modImb fun b =>
    { b with mbxTimeouts := sat32 b.mbxTimeouts 1 }).raiseMbxOut d

def execMbxTimeout (side : MbxSide) (k : Nat) (s : State) : Res :=
  .next (onlyIf (s.up && mbxValid side && s.mbxTimed side k) (timeoutOp side k) s)

/-- A side's own reset (R394): its inbound bits and slots clear and the peer sees RECEIVER_RESET; messages it posted stay,
stale, with their old GEN; its generation moves on, 255 to 1. -/
def State.resetMbx (s : State) (d : MbxSide) : State :=
  let t := s.modMbx (mbxKey (mbxPeer d)) fun m =>
    { m with out := 0, stale := 0, slots := [], started := [], rcvReset := true }
  let u := t.modMbx (mbxKey d) fun m =>
    { m with stale := m.out, started := [], gen := if m.gen == 255 then 1 else m.gen + 1 }
  (u.settleMbx d).raiseMbxOut (mbxPeer d)

/-! ### Semaphores (R395, R396) -/

/-- The image permits the target to use the semaphore (R395, R476). -/
def State.semPermitted (s : State) (t n : Nat) : Bool :=
  match s.boot.image with
  | some i => (i.semPermit.getD n 0).getLsbD t
  | none => false

/-- SEM[n]'s read fields, without acquiring (Table 17-10). -/
def semWord (g : Bool) (m : Sem) : Nat := b2n g * 2 ^ 31 + b2n m.abandoned * 2 ^ 30 + m.holder.getD 0x7F

/-- A requester of the semaphores answers: a function that is open, or a management processor (R395). -/
def State.semOpen (s : State) (t : Nat) : Bool := if t < 64 then s.fnLive t else s.live && decide (t < 68)

/-- An acquire (R395, R396). -/
def acquireOp (t n : Nat) (s : State) : State :=
  if !s.semPermitted t n then
    (s.report 0x24 0xA6 (if t < 64 then some t else none) none 0 0 0).withRdata 0
  else
    match (s.sem n).holder with
    | none =>
      (s.modSem n fun m => { m with holder := some t, abandoned := false }).withRdata
        (BitVec.ofNat 64 (2 ^ 31 + b2n (s.sem n).abandoned * 2 ^ 30 + t))
    | some h => s.withRdata (BitVec.ofNat 64 (semWord (h == t) (s.sem n)))

def execSemAcquire (target n : Nat) (s : State) : Res :=
  .next (if s.semOpen target && decide (n < 64) then acquireOp target n s else s.withRdata 0)

/-- A release: by the holder it frees the semaphore, by any other it is refused (R395). -/
def releaseOp (t n : Nat) (v : Word) (s : State) : State :=
  if s.semPermitted t n && (s.sem n).holder == some t then
    if v.getLsbD 0 then s.modSem n fun m => { m with holder := none } else s
  else if !s.semPermitted t n || v.getLsbD 0 then s.report 0x24 0xA6 (if t < 64 then some t else none) none 0 0 0
  else s

def execSemRelease (target n : Nat) (v : Word) (s : State) : Res :=
  .next (onlyIf (s.semOpen target && decide (n < 64)) (releaseOp target n v) s)

/-- The semaphores that a reset or fenced holder held are free, with ABANDONED set (R396). -/
def State.abandonSems (s : State) (t : Nat) : State :=
  forUpTo 64 (fun n u => if (u.sem n).holder == some t then u.modSem n fun m => { m with holder := none, abandoned := true } else u) s

end Sys2Proof.Machine
end

