-- ==== Sys2Proof/Machine/Queue.lean ====
section
/-! DEFINITION. Work queues: doorbells, reservations, publication, moderation and event rings (13_work_queues.md). -/
namespace Sys2Proof.Machine

/-! ### Entries (Table 13-4) -/

/-- OPCODE of an entry. -/
def QEntry.op (e : QEntry) : Nat := efld e.raw 0 0 8
/-- TAG of an entry. -/
def QEntry.tag (e : QEntry) : Word := BitVec.ofNat 32 (efld e.raw 4 0 32)
/-- NOTIFY of an entry (R310). -/
def QEntry.notify (e : QEntry) : Bool := efld e.raw 1 4 1 == 1
/-- INT of an entry (R311). -/
def QEntry.intr (e : QEntry) : Bool := efld e.raw 1 3 1 == 1
/-- FENCE flag of an entry, or a FENCE opcode (R294). -/
def QEntry.fenced (e : QEntry) : Bool := efld e.raw 1 2 1 == 1 || e.op == 8
/-- OPARG of an entry. -/
def QEntry.arg (e : QEntry) : Nat := efld e.raw 2 0 16
/-- SESSION of an entry. -/
def QEntry.sess (e : QEntry) : Nat := efld e.raw 8 0 20

/-- An entry with sequence number `seq`. -/
def WorkQ.entry? (q : WorkQ) (seq : Word) : Option QEntry := q.entries.find? fun e => e.seq == seq

/-- Change the entry with sequence number `seq`. -/
def WorkQ.modEntry (q : WorkQ) (seq : Word) (f : QEntry → QEntry) : WorkQ :=
  { q with entries := q.entries.map fun e => if e.seq == seq then f e else e }

/-- Change an entry of a queue. -/
def State.modEntry (s : State) (q : Nat) (seq : Word) (f : QEntry → QEntry) : State := s.modQueue q fun w => w.modEntry seq f

/-- Code of a work-queue state (Table 13-2). -/
def qCode : QState → Nat
  | .free => 0
  | .disabled => 1
  | .enabled => 2
  | .stopping => 3
  | .error => 4

/-! ### Status blocks (Table 13-12) -/

/-- The 64 bytes of a status block at time `now`. -/
def WorkQ.status (w : WorkQ) (now : Nat) : List Byte :=
  leBytes 64 (put 0 0 w.head + put 4 0 w.headSeq.toNat + put 8 8 (if w.state == .error then w.errCause else 0)
    + put 8 0 (qCode w.state) + put 12 0 w.errIndex + put 16 0 (now % 2 ^ 64) + put 24 0 w.fetch + put 28 0 w.resvFree)

/-- A status block is written; new moderation values take effect with it (R308, Table 14-3 SET_QUEUE_MOD). -/
def State.putStatus (s : State) (q : Nat) : State :=
  let t := s.modQueue q fun w =>
    match w.nextMod with
    | some (c, m) => { w with modCount := c, modTimer := m, nextMod := none }
    | none => w
  let w := t.queue q
  t.putRecord w.fn w.sbSpace w.sbAddr (w.status t.time)

/-- The queue's message at once; PEND goes to 0 and its timer stops (R311). -/
def State.queueMessage (s : State) (q : Nat) : State :=
  (s.modQueue q fun w => { w with pend := 0, pendTimer := none }).message (s.queue q).fn (s.queue q).vector

/-- PEND grows by `n` with a status block write: the timer starts from 0, and a message falls due at MOD_COUNT (R311). -/
def State.moderate (s : State) (q n : Nat) : State :=
  let t := s.modQueue q fun w =>
    { w with pend := w.pend + n, pendTimer := if w.pend == 0 && n != 0 then some s.time else w.pendTimer }
  if (t.queue q).pend != 0 && decide ((t.queue q).modCount ≤ (t.queue q).pend) then t.queueMessage q else t

/-- An event that concerns the queue (Table 13-14a). -/
def State.queueEvent (s : State) (q type cause : Nat) (arg : Nat) : State :=
  s.event (s.queue q).fn type (some (s.queue q).local_) cause 0 0 0 arg

/-- A STOPPING queue with no kept entry left becomes DISABLED: status block, QUEUE_STOPPED and a message (R316, R311). A queue that a
restructure disabled has them written when the image is in force (R334 step 6). -/
def State.settleQueue (s : State) (q : Nat) : State :=
  if (s.queue q).state == .stopping && (s.queue q).entries.isEmpty then
    let t := s.modQueue q fun w => { w with state := .disabled }
    if s.boot.stopped.contains q then t
    else
      let u := t.putStatus q
      (u.queueEvent q 0x03 0 (u.queue q).head).queueMessage q
  else s

/-- The queue goes to ERROR with a cause and an index (R298, R299, R304, R313): the chain at fault is discarded without
results, a status block and a QUEUE_ERROR event are written, a class U fault is recorded, and a message is sent. -/
def State.queueError (s : State) (q cause index : Nat) : State :=
  let w := s.queue q
  let t := s.modQueue q fun w =>
    { w with
      state := .error, errCause := cause, errIndex := index
      entries := if w.chainOpen then w.entries.filter fun e => e.chain != w.chainNo else w.entries
      chainOpen := false, chainLen := 0, chainTimer := none }
  let u := (t.modQe fun e => { e with malformed := sat32 e.malformed 1 }).report 0x21 0xA2 (some w.fn) none cause 0 0
  ((u.putStatus q).queueEvent q 0x02 cause index).queueMessage q

/-! ### Doorbells (R297, R298) -/

/-- R298's test of a doorbell write. -/
def WorkQ.bellValid (w : WorkQ) (new : Nat) : Bool :=
  let m := 2 * w.depth
  decide (new < m) && decide ((new + m - w.head) % m ≤ w.depth) && decide ((w.prod + m - w.head) % m ≤ (new + m - w.head) % m)

/-- Work queues of a function. -/
def State.queuesOf (s : State) (fn : Nat) : List Nat :=
  (tblKeys s.queues).filter fun q => (s.queue q).state != .free && (s.queue q).fn == fn

/-- The global queue a doorbell write names: PF0 by global number, a VF by its local index (R297). -/
def State.bellQueue (s : State) (fn index : Nat) : Option Nat :=
  if fn == 0 then (if index < 65536 then some index else none)
  else (tblKeys s.queues).find? fun q => (s.queue q).state != .free && (s.queue q).fn == fn && (s.queue q).local_ == index

/-- A valid write sets PROD; the chain timer restarts whenever a doorbell adds entries (R298, R304). -/
def ringOp (q new : Nat) (s : State) : State :=
  s.modQueue q fun w =>
    { w with prod := new, chainTimer := if new == w.prod then w.chainTimer else none }

/-- A doorbell write (R297, R298). -/
def doorbellOp (fn index off : Nat) (v : Word) (s : State) : State :=
  if off != 0 then s
  else
    match s.bellQueue fn index with
    | none => s.reportAccess fn (index * 64)
    | some q =>
      let w := s.queue q
      if w.state == .free || w.fn != fn then s.reportAccess fn (index * 64)
      else if w.state == .enabled then
        (if w.bellValid (fld v.toNat 0 17) then ringOp q (fld v.toNat 0 17) s
         else s.queueError q 0x09 (fld v.toNat 0 17))
      else s.modQe fun e => { e with dropped := sat32 e.dropped 1 }

def execWqDoorbell (fn index off : Nat) (v : Word) (s : State) : Res :=
  .next (onlyIf (s.fnLive fn) (doorbellOp fn index off v) s)

/-! ### Chains and reservations -/

/-- The instant at which the chain timer of an open chain reaches CHAIN_TMO (R304). -/
def State.chainEnd (s : State) (q : Nat) : Option Nat :=
  if (s.queue q).state == .enabled && (s.queue q).chainOpen then
    (s.queue q).chainTimer.map fun t => t + s.qe.chainTmo * 1000000
  else none

/-- The chain timer ends (R304). -/
def chainTmoOp (q : Nat) (s : State) : State :=
  match s.chainEnd q with
  | some t => (s.reach t).queueError q 0x07 (s.queue q).chainFirst
  | none => s

def execChainTmo (q : Nat) (s : State) : Res := .next (onlyIf s.live (chainTmoOp q) s)

/-- The first complete chain that waits for its reservations. -/
def WorkQ.waitingChain (w : WorkQ) : Option Nat :=
  (w.entries.find? fun e => e.stage == .fetched && !(w.chainOpen && e.chain == w.chainNo)).map QEntry.chain

/-- A chain takes one reservation for each entry, or waits whole and is counted once (R288). -/
def reserveOp (q : Nat) (s : State) : State :=
  match (s.queue q).waitingChain with
  | none => s
  | some c =>
    let n := ((s.queue q).entries.filter fun e => e.chain == c).length
    if n ≤ (s.queue q).resvFree then
      s.modQueue q fun w =>
        { w with resvFree := w.resvFree - n, resvWaiting := false,
                 entries := w.entries.map fun e => if e.chain == c then { e with stage := .reserved } else e }
    else if (s.queue q).resvWaiting then s
    else (s.modQueue q fun w => { w with resvWaiting := true }).modDsc fun d => { d with resvWaits := sat32 d.resvWaits 1 }


/-! ### Results (Table 13-11) -/

/-- REND_CODE, REND_BYTES and REND_CAUSE from rendition `i` on. -/
def rendFields : Nat → List RendRes → Nat
  | _, [] => 0
  | i, r :: rs => put (48 + i) 0 (r.code % 256) + put (64 + 4 * i) 0 (r.bytes % 2 ^ 32) + put (112 + i) 0 (r.cause % 256)
      + rendFields (i + 1) rs

/-- The 128 bytes of a result record (Table 13-11). -/
def QEntry.result (e : QEntry) : List Byte :=
  leBytes 128 (put 0 0 e.seq.toNat + put 4 0 e.tag.toNat + put 8 16 e.op + put 8 8 (e.cause % 256) + put 8 0 (e.code % 256)
    + put 12 16 e.dflags.toNat + put 12 8 (e.released % 256) + put 12 0 (e.held % 256) + put 16 0 (e.bytes % 2 ^ 32)
    + put 20 0 (e.codedIx % 2 ^ 32) + put 24 0 (min e.cycles 0xFFFFFFFF) + put 32 0 e.doneTime.toNat
    + rendFields 0 (e.rends.take 12))

/-- The slot of an entry's result (R306). -/
def WorkQ.resultAddr (w : WorkQ) (seq : Word) : Nat := w.resAddr + seq.toNat % w.rdepth * 128

/-- The result record of an entry is written (R306). -/
def State.putResult (s : State) (q : Nat) (seq : Word) : State :=
  match (s.queue q).entry? seq with
  | none => s
  | some e =>
    let w := s.queue q
    let t := s.putRecord w.fn w.resSpace (w.resultAddr seq) e.result
    if w.resSpace == 1 then t.modEntry q seq fun e => { e with lines := e.lines ++ linesOf (w.resultAddr seq) 128 } else t

/-! ### Publication (R307 to R310) -/

/-- The Memory Fabric has acknowledged every write of an entry, in device memory and in the host's: none waits for an answer of the host,
or for the function to leave D3hot (R45, R364, R365, R375). -/
def State.entryAcked (s : State) (q : Nat) (e : QEntry) : Bool := s.linesAcked e.lines && (s.func (s.queue q).fn).held.isEmpty

/-- BYTES and flags of the last progress record of a rendition, or of the entry itself. -/
def QEntry.progOf (e : QEntry) (rend : Option Nat) : Nat × Nat :=
  match rend with
  | some n => ((e.rends.find? fun r => r.session == n).map RendRes.prog).getD (0, 0)
  | none => e.prog

/-- The last progress record is remembered. -/
def QEntry.setProg (e : QEntry) (rend : Option Nat) (v : Nat × Nat) : QEntry :=
  match rend with
  | some n => { e with rends := e.rends.map fun r => if r.session == n then { r with prog := v } else r }
  | none => { e with prog := v }

/-- A progress record says something new: BYTES has grown, or a flag is new at the same BYTES (R140). -/
def ProgRec.isNew (r : ProgRec) (old : Nat × Nat) : Bool :=
  decide (old.1 < r.bytes) || (old.1 == r.bytes && r.flags &&& old.2 != r.flags)

/-- A progress record is written, where it says something new and has an address (R139, R140). -/
def State.putProg (s : State) (q : Nat) (seq : Word) (r : ProgRec) : State :=
  match (s.queue q).entry? seq with
  | none => s
  | some e =>
    if !r.isNew (e.progOf r.rend) then s
    else
      let t := s.modEntry q seq fun f => { f.setProg r.rend (r.bytes, r.flags) with
        lines := if r.addr != 0 && r.space == 1 then f.lines ++ linesOf r.addr 16 else f.lines }
      if r.addr == 0 then t else t.putRecord (s.queue q).fn r.space r.addr r.data

/-- Progress records that wait are written once every write that they cover is acknowledged (R140). -/
def State.putDue (s : State) (q : Nat) (seq : Word) : State :=
  match (s.queue q).entry? seq with
  | none => s
  | some e =>
    if e.due.isEmpty || !s.entryAcked q e then s
    else forEach e.due (fun r t => t.putProg q seq r) (s.modEntry q seq fun f => { f with due := [] })

/-- The entries from HEAD on that are complete, whose device-memory writes are acknowledged, and of whose function no write is held
back from the host (R307, R309, R375). -/
def State.readyEntries (s : State) (q : Nat) : List QEntry :=
  (s.queue q).entries.takeWhile fun e => e.stage == .done && e.due.isEmpty && s.entryAcked q e

/-- ENTRY_DONE for each covered entry that carries NOTIFY (R310). -/
def State.notifyEntries (s : State) (q : Nat) (es : List QEntry) : State :=
  forEach es (fun e t => if e.notify then
    t.event (t.queue q).fn 0x01 (some (t.queue q).local_) e.code (if e.op == 4 || e.op == 6 || e.op == 8 then 0 else e.sess)
      e.seq e.tag 0 else t) s

/-- HEAD passes `es`: reservations return, and the status block, the events and the moderated message follow (R307 to
R311, R288). A queue that this settles is DISABLED in the same status block (R316). -/
def publishOp (q : Nat) (es : List QEntry) (s : State) : State :=
  let n := es.length
  let t := s.modQueue q fun w =>
    { w with head := (w.head + n) % (2 * w.depth), headSeq := w.headSeq + BitVec.ofNat 32 n, resvFree := w.resvFree + n,
             entries := w.entries.drop n,
             state := if w.state == .stopping && (w.entries.drop n).isEmpty then .disabled else w.state }
  let u := ((t.putStatus q).notifyEntries q es)
  if (s.queue q).state == .stopping && (t.queue q).state == .disabled && !s.boot.stopped.contains q then
    (u.queueEvent q 0x03 0 (u.queue q).head).queueMessage q
  else u.moderate q (es.filter fun e => e.intr).length

/-- The zero-length read that flushes Relaxed Ordering writes before a status block (R307 condition 3, R367). -/
def flushOp (q n : Nat) (s : State) : State :=
  if (s.queue q).flushRead == 0 then
    (s.modQueue q fun w => { w with flushRead := n }).emitFor (s.queue q).fn (.hostRead (s.queue q).fn (s.queue q).sbAddr 0)
  else s

/-- The QE publishes what it may (R307). -/
def publishReady (q : Nat) (s : State) : State :=
  let es := s.readyEntries q
  if es.isEmpty then s.settleQueue q
  else
    let es' := es.takeWhile fun e => !e.roOut
    if es'.isEmpty then flushOp q es.length s else publishOp q es' s

/-- The QE publishes what it may, once the progress records of the entries that are done are written (R140, R307). -/
def publishHeadOp (q : Nat) (s : State) : State :=
  publishReady q (forEach ((s.queue q).entries.filter fun e => e.stage == .done && !e.due.isEmpty) (fun e t => t.putDue q e.seq) s)

def execPublishHead (q : Nat) (s : State) : Res :=
  .next (onlyIf (s.live && (s.queue q).state != .free && (s.queue q).state != .disabled) (publishHeadOp q) s)

/-- The read's completion: the entries it covers carry no unflushed write any longer (R307). -/
def flushDoneOp (q : Nat) (s : State) : State :=
  s.modQueue q fun w =>
    { w with entries := (w.entries.take w.flushRead).map (fun e => { e with roOut := false }) ++ w.entries.drop w.flushRead,
             flushRead := 0 }

def execFlushReadCompletion (q : Nat) (s : State) : Res :=
  .next (onlyIf (s.up && (s.queue q).state != .free) (flushDoneOp q) s)

/-- The moderation timer of a queue with PEND set reaches MOD_TIMER (R311). -/
def modTimerOp (q : Nat) (s : State) : State :=
  match (s.queue q).pendTimer with
  | some t => if (s.queue q).pend != 0 then (s.reach (t + (s.queue q).modTimer * 1000)).queueMessage q else s
  | none => s

def execModTimer (q : Nat) (s : State) : Res := .next (onlyIf s.live (modTimerOp q) s)

/-! ### Event-ring registers (R321, R322) -/

def execEvqConsWrite (fn : Nat) (v : Word) (s : State) : Res :=
  .next (onlyIf (s.fnLive fn) (fun t => t.modRing fn fun r => { r with cons := fld v.toNat 0 17 }) s)

/-- OVERFLOW clears; the published word shows it with the next write of it (R322). -/
def execEvqOverflowClear (fn : Nat) (s : State) : Res :=
  .next (onlyIf (s.fnLive fn) (fun t => t.modRing fn fun r => { r with overflow := false }) s)

end Sys2Proof.Machine
end

