-- ==== Sys2Proof/Machine/Operands.lean ====
section
/-! DEFINITION. The operand forms: fields of the session parameter block (Table 14-6) and of work-entry bodies
(Tables 13-6 to 13-10, 11-1), and picture sizes (10_picture_formats.md). -/
namespace Sys2Proof.Machine

/-! ### Session parameters (Table 14-6) -/

/-- `w` bits from bit `lo` of the parameter block's byte `off`. -/
def Params.at (p : Params) (off lo w : Nat) : Nat := fld p.block.toNat (8 * off + lo) w

def Params.bsFormat (p : Params) : Nat := p.at 0x000 0 3
def Params.prefixBytes (p : Params) : Nat := p.at 0x000 3 2
def Params.prefixBig (p : Params) : Bool := p.at 0x000 5 1 == 0
def Params.audEn (p : Params) : Bool := p.at 0x000 6 1 == 1
def Params.fifoTmo (p : Params) : Nat := p.at 0x002 0 16
def Params.outFormat (p : Params) : Nat := p.at 0x008 0 4
def Params.filmGrain (p : Params) : Bool := p.at 0x008 4 1 == 1
def Params.dphCheck (p : Params) : Bool := p.at 0x008 5 1 == 1
def Params.mauEn (p : Params) : Bool := p.at 0x008 6 1 == 1
def Params.srcMode (p : Params) : Nat := p.at 0x010 0 1
def Params.preset (p : Params) : Nat := p.at 0x010 1 3
def Params.gopMode (p : Params) : Nat := p.at 0x010 4 2
def Params.minigop (p : Params) : Nat := p.at 0x010 6 5
def Params.keyType (p : Params) : Nat := p.at 0x010 11 1
def Params.keyFollow (p : Params) : Bool := p.at 0x010 12 1 == 1
def Params.sceneCut (p : Params) : Bool := p.at 0x010 13 1 == 1
def Params.refresh (p : Params) : Bool := p.at 0x010 14 1 == 1
def Params.roiEn (p : Params) : Bool := p.at 0x010 15 1 == 1
def Params.hintEn (p : Params) : Bool := p.at 0x010 16 1 == 1
def Params.tpf (p : Params) : Nat := p.at 0x010 17 2
def Params.grainEst (p : Params) : Bool := p.at 0x010 19 1 == 1
def Params.parallel (p : Params) : Nat := p.at 0x010 20 3
def Params.keyPeriod (p : Params) : Nat := p.at 0x014 0 16
def Params.scThresh (p : Params) : Nat := p.at 0x014 16 8
def Params.refreshPeriod (p : Params) : Nat := p.at 0x014 24 8
def Params.tileCols (p : Params) : Nat := p.at 0x018 0 7
def Params.tileRows (p : Params) : Nat := p.at 0x018 8 5
def Params.slices (p : Params) : Nat := p.at 0x018 16 10
def Params.rcMode (p : Params) : Nat := p.at 0x020 0 3
def Params.rowRc (p : Params) : Bool := p.at 0x020 3 1 == 1
def Params.hrdSignal (p : Params) : Bool := p.at 0x020 4 1 == 1
def Params.initFullness (p : Params) : Nat := p.at 0x020 8 8
def Params.layerStep (p : Params) : Nat := p.at 0x020 16 4
def Params.bitrate (p : Params) : Nat := p.at 0x024 0 32
def Params.maxBitrate (p : Params) : Nat := p.at 0x028 0 32
def Params.bufSize (p : Params) : Nat := p.at 0x02C 0 32
def Params.fpsNum (p : Params) : Nat := p.at 0x030 0 32
def Params.fpsDen (p : Params) : Nat := p.at 0x034 0 32
def Params.picCap (p : Params) : Nat := p.at 0x040 0 32
def Params.encProfile (p : Params) : Nat := p.at 0x044 0 4
def Params.encTier (p : Params) : Nat := p.at 0x044 4 1
def Params.encLevel (p : Params) : Nat := p.at 0x044 8 8
def Params.seiLen (p : Params) : Nat := p.at 0x0C0 0 16
/-- OUT_DESC, the rendition's output descriptor (Table 11-1). -/
def Params.outDesc (p : Params) : Entry := BitVec.ofNat 512 (p.at 0x080 0 512)

/-- VP9 (2) and AV1 (3) among the codec codes of Table 2-4. -/
def Params.isVp (p : Params) : Bool := p.codec == 2 || p.codec == 3

/-- A QP byte: unsigned for VP9 and AV1, signed for the others (R198). -/
def Params.qpAt (p : Params) (off : Nat) : Int := if p.isVp then (p.at off 0 8 : Int) else signedOf 8 (p.at off 0 8)

def Params.qpI (p : Params) : Int := p.qpAt 0x038
def Params.qpP (p : Params) : Int := p.qpAt 0x039
def Params.qpB (p : Params) : Int := p.qpAt 0x03A
def Params.cqLevel (p : Params) : Int := p.qpAt 0x03B
def Params.qpMin (p : Params) : Int := p.qpAt 0x03C
def Params.qpMax (p : Params) : Int := p.qpAt 0x03D

/-! ### Picture sizes (R236, R240, Table 6-2) -/

/-- `n` rounded up to 4 KiB. -/
def up4k (n : Nat) : Nat := roundUp n 4096

/-- The end of a plane that begins at `start`, with row bytes and rows (R236). -/
def planeEnd (start rowBytes rows : Nat) : Nat := start + up4k (roundUp rowBytes 256 * rows)

/-- The size S of a host-format picture; 0 for a code that names no host format (R236, Table 10-2). -/
def hostSize (fmt w h : Nat) : Nat :=
  let cw := ceilDiv w 2
  let ch := ceilDiv h 2
  match fmt with
  | 0 => planeEnd (planeEnd (planeEnd 0 w h) cw ch) cw ch
  | 1 => planeEnd (planeEnd 0 (2 * w) h) (4 * cw) ch
  | 2 => planeEnd (planeEnd 0 (4 * ceilDiv w 3) h) (4 * ceilDiv (2 * cw) 3) ch
  | 3 => planeEnd (planeEnd 0 (2 * w) h) (4 * cw) h
  | 4 => planeEnd (planeEnd (planeEnd 0 (2 * w) h) (2 * w) h) (2 * w) h
  | _ => 0

/-- Chroma plane size of a picture; 0 for 4:0:0 (R240). CHROMA codes 0 to 3 are 4:0:0, 4:2:0, 4:2:2, 4:4:4. -/
def chromaSize (chroma w h : Nat) : Nat × Nat :=
  match chroma with
  | 1 => (ceilDiv w 2, ceilDiv h 2)
  | 2 => (ceilDiv w 2, h)
  | 3 => (w, h)
  | _ => (0, 0)

/-- Luma tiles per row and tile rows, and the same for chroma (R240). -/
def tileCounts (chroma w h : Nat) : Nat × Nat × Nat × Nat :=
  let c := chromaSize chroma w h
  (ceilDiv w 32, ceilDiv h 8, ceilDiv c.1 16, ceilDiv c.2 8)

/-- Bytes of a PF_NITINOL picture: `end` less base (R240). -/
def nitinolSize (chroma w h : Nat) : Nat :=
  let t := tileCounts chroma w h
  up4k (t.1 * t.2.1 * 384) + up4k (t.2.2.1 * t.2.2.2 * 384) + up4k (t.1 * t.2.1 + t.2.2.1 * t.2.2.2)

/-- Bytes of a source picture in any format code. -/
def pictureSize (fmt chroma w h : Nat) : Nat := if fmt == 15 then nitinolSize chroma w h else hostSize fmt w h

/-- Table 6-2: the host formats that hold a chroma format and depth without loss. -/
def formatHolds (chroma depth fmt : Nat) : Bool :=
  match chroma with
  | 2 => fmt == 3
  | 3 => fmt == 4
  | _ => fmt == 1 || (fmt == 0 && depth == 8) || (fmt == 2 && decide (depth ≤ 10))

/-- Largest width or height, and largest area, of an encode session (Table 5-1). -/
def encodeLimit (codec : Nat) : Nat × Nat := if codec == 0 then (8192, 9437184) else (16384, 35651584)

/-! ### Work-entry bodies (Tables 13-6 to 13-10) -/

/-- Bytes of an entry's body are addressed from the entry's start. -/
def e64 (e : Entry) (byte : Nat) : Nat := efld e byte 0 64
def e32 (e : Entry) (byte : Nat) : Nat := efld e byte 0 32
def e16 (e : Entry) (byte : Nat) : Nat := efld e byte 0 16
def e8 (e : Entry) (byte : Nat) : Nat := efld e byte 0 8

/-- OPCODE. -/
def eOp (e : Entry) : Nat := e8 e 0
/-- OPARG. -/
def eArg (e : Entry) : Nat := e16 e 2
/-- SESSION. -/
def eSess (e : Entry) : Nat := efld e 8 0 20

/-- OUT_COUNT of an entry, by opcode (Tables 13-6, 13-8, 13-10). -/
def outCount (e : Entry) : Nat :=
  match eOp e with
  | 1 => fld (eArg e) 0 3
  | 3 => fld (eArg e) 5 3
  | 4 => fld (eArg e) 4 3
  | 7 => fld (eArg e) 0 3
  | _ => 0

/-- OUT_ADDR, OUT_SIZE and OUT_SPACE of an entry that adds output buffers. -/
def outAddr (e : Entry) : Nat :=
  match eOp e with
  | 1 => e64 e 32
  | 3 => e64 e 48
  | 7 => e64 e 16
  | _ => 0
def outSize (e : Entry) : Nat :=
  match eOp e with
  | 1 => e32 e 40
  | 3 => e32 e 40
  | 7 => e32 e 24
  | _ => 0
def outSpace (e : Entry) : Nat :=
  match eOp e with
  | 1 => e8 e 29
  | 3 => e8 e 30
  | 7 => e8 e 28
  | _ => 0

/-- REND_COUNT of a TRANSCODE_AU entry. -/
def rendCount (e : Entry) : Nat := fld (eArg e) 0 4

/-- SRC_FORMAT, width and height of an entry that names a source picture. -/
def srcFormat (e : Entry) : Nat := fld (eArg e) 0 4
def srcW (e : Entry) : Nat := e16 e 24
def srcH (e : Entry) : Nat := e16 e 26

/-- Statistics buffer of an ENCODE_PICTURE or ANALYZE_PICTURE entry: address, size, space. -/
def statBuf (e : Entry) : Nat × Nat × Nat :=
  if eOp e == 5 then (e64 e 32, e32 e 40, e8 e 30) else (e64 e 48, e32 e 44, e8 e 30)

/-- Bytes that a session's statistics buffer needs (R193, R231). -/
def statNeed (p : Params) : Nat := 64 + ceilDiv p.maxW 16 * ceilDiv p.maxH 16 * 16

/-- Picture sections of a decode report: 8 for VP9 and AV1 (R165). -/
def Params.pMax (p : Params) : Nat := if p.isVp then 8 else 1

/-- Bytes of one section of a decode report (R165). -/
def Params.section (p : Params) : Nat :=
  roundUp (64 + 8 * ceilDiv (ceilDiv p.maxW 16) 32 * ceilDiv p.maxH 16) 64

/-- Bytes of a decode report (R165). -/
def Params.reportSize (p : Params) : Nat := 256 + p.pMax * p.section

/-- The ladder block address and space of an entry: TRANSCODE_AU and FLUSH_SESSION. -/
def ladAddr (e : Entry) : Nat := if eOp e == 3 then e64 e 32 else e64 e 48
def ladSpace (e : Entry) : Nat := if eOp e == 3 then e8 e 29 else e8 e 30

/-- Rows of 64 bytes that the blocks of an entry take, `flushRends` being the renditions of the session's last ladder:
address, space, rows (R301). -/
def blockRows (e : Entry) (flushRends : Nat) : Nat × Nat × Nat :=
  match eOp e with
  | 2 => if e64 e 56 == 0 then (0, 0, 0) else (e64 e 56, e8 e 31, 1)
  | 3 => (e64 e 32, e8 e 29, 1 + rendCount e)
  | 4 => (e64 e 32, e8 e 29, outCount e)
  | 7 => if e64 e 48 == 0 then (0, 0, 0) else (e64 e 48, e8 e 30, 1 + flushRends)
  | _ => (0, 0, 0)

/-! ### Output descriptors (Table 11-1) -/

def odRoute (d : Entry) : Nat := efld d 0 0 6
def odFormat (d : Entry) : Nat := efld d 0 12 4
def odSeed (d : Entry) : Nat := efld d 0 16 16
def odCropX (d : Entry) : Nat := e16 d 4
def odCropY (d : Entry) : Nat := e16 d 6
/-- Crop width with 0 resolved to the source's right edge. -/
def odCropW (d : Entry) (w : Nat) : Nat := if e16 d 8 == 0 then w - odCropX d else e16 d 8
def odCropH (d : Entry) (h : Nat) : Nat := if e16 d 10 == 0 then h - odCropY d else e16 d 10
def odActX (d : Entry) : Nat := e16 d 16
def odActY (d : Entry) : Nat := e16 d 18
def odPadY (d : Entry) : Nat := efld d 24 0 12
def odPadCb (d : Entry) : Nat := efld d 24 16 12
def odPadCr (d : Entry) : Nat := efld d 28 0 12
def odLut (d : Entry) : Nat := e64 d 32
def odAddr (d : Entry) : Nat := e64 d 40
def odSpace (d : Entry) : Nat := e8 d 48
def odLutSpace (d : Entry) : Nat := e8 d 49
def odSize (d : Entry) : Nat := e32 d 52

end Sys2Proof.Machine
end

