-- ==== Sys2Proof/Machine/Costs.lean ====
section
/-! DEFINITION. Cycle costs, estimates and budgets of work units (R78, R81, R279, R515), the levels of an encode session
(R513) and the segments it cuts a picture into (R50, R183). -/
namespace Sys2Proof.Machine

/-- Cycles at 1.5 per nanosecond or samples at 1.5 per cycle, rounded up: ceil(n ÷ 1.5). -/
def per15 (n : Nat) : Nat := ceilDiv (2 * n) 3

/-- Twice the samples per pixel of a chroma format (R1). -/
def spp2 (chroma : Nat) : Nat :=
  match chroma with
  | 1 => 3
  | 2 => 4
  | 3 => 6
  | _ => 2

/-- Samples of a number of luma samples. -/
def samplesOf (chroma luma : Nat) : Nat := ceilDiv (luma * spp2 chroma) 2

/-- Level ceiling l of Table 3-6 for a level × 10; a stream that signals none takes the 6.x ceiling (R78). -/
def levelCeiling (level : Nat) : Nat := if level == 0 then 4096 else if level < 50 then 1024 else if level < 60 then 2048 else 4096

/-- A unit's cycle budget (R78): `k` is 2 for decode and 4 for encode. -/
def budgetOf (k s y b l : Nat) : Nat := 16384 + k * per15 s + 3 * min b (ceilDiv y 4096 * l)

/-- Bins per coded byte × 10 (Table 3-7). -/
def binsPerByte10 (codec : Nat) (cavlc : Bool) : Nat :=
  match codec with
  | 0 => if cavlc then 20 else 85
  | 2 => 80
  | 3 => 64
  | _ => 85

/-- est_cycles of a core unit (R279, R81): `f4` is four times the preset's sample factor. -/
def estCycles (fixed f4 s bytes bpb10 corr : Nat) : Nat :=
  fixed + ceilDiv (max (80 * s * f4) (12 * bpb10 * bytes) * corr) (480 * 256)

/-- Four times the sample factor of a preset, with the temporal pre-filter's share (R178). -/
def presetFactor4 (p : Params) : Nat :=
  (match p.preset with
    | 4 => 6
    | 5 => 8
    | 6 => 10
    | _ => 4) + (if p.tpf == 0 then 0 else 1)

/-! ### Levels of an encode session (R513) -/

/-- Levels × 10 of the encode columns, lowest first; 9 is AVC level 1b, which lies above level 1. -/
def encLevels (codec : Nat) : List Nat :=
  match codec with
  | 0 => [10, 9, 11, 12, 13, 20, 21, 22, 30, 31, 32, 40, 41, 42, 50, 51, 52]
  | 1 => [10, 20, 21, 30, 31, 40, 41, 50, 51, 52, 60, 61, 62]
  | 2 => [10, 11, 20, 21, 30, 31, 40, 41, 50, 51, 52, 60, 61, 62]
  | 3 => [20, 21, 22, 23, 30, 31, 32, 33, 40, 41, 42, 43, 50, 51, 52, 53, 60, 61, 62, 63]
  | 4 => [10, 20, 21, 30, 31, 40, 41, 50, 51, 52, 60, 61, 62]
  | _ => []

/-- Profiles of an encode session's codec in the order of Table 7-1a: code, chroma formats and depths held (Tables 5-2 to 5-6). -/
def encProfiles (codec : Nat) : List (Nat × List Nat × List Nat) :=
  match codec with
  | 0 => [(1, [1], [8]), (2, [1], [8]), (3, [1], [8, 10])]
  | 1 => [(1, [1], [8]), (2, [1], [10]), (3, [1], [12]), (4, [1, 2], [10]), (5, [1, 2], [12]), (6, [1, 2, 3], [10]), (7, [1, 2, 3], [12])]
  | 2 => [(1, [1], [8]), (2, [1], [10, 12])]
  | 3 => [(1, [1], [8, 10]), (2, [3], [8, 10]), (3, [1, 2, 3], [12])]
  | 4 => [(1, [1], [10]), (2, [1], [10, 12])]
  | _ => []

/-- A profile holds the session's chroma format and depths. -/
def profileHolds (p : Params) (r : Nat × List Nat × List Nat) : Bool :=
  r.2.1.contains p.chroma && r.2.2.contains p.depthY && r.2.2.contains p.depthC

/-- The session's profile: the one named, or the first that holds the formats, High for AVC at 8 bits; 0 where none does. -/
def Params.profile (p : Params) : Nat :=
  if p.encProfile != 0 then (if (encProfiles p.codec).any fun r => r.1 == p.encProfile && profileHolds p r then p.encProfile else 0)
  else if p.codec == 0 && p.depthY == 8 && p.chroma == 1 && p.depthC == 8 then 2
  else match (encProfiles p.codec).find? (profileHolds p) with
    | some r => r.1
    | none => 0

/-- A level holds the picture size, the picture rate and, in modes 1 to 3, the rates (R513). -/
def levelHolds (p : Params) (lv : Nat) : Bool :=
  decide (p.maxW * p.maxH ≤ Config.levelLuma p.codec lv)
    && decide (p.maxW * p.maxH * p.fpsNum ≤ Config.levelRate p.codec lv * p.fpsDen)
    && (p.rcMode == 0 || p.rcMode == 4 ||
      (decide (p.maxBitrate * 1000 ≤ Config.levelBitrate p.codec lv p.encTier p.profile)
        && decide (p.bufSize * 1000 ≤ Config.levelCpb p.codec lv p.encTier p.profile)))

/-- The session's level; 0 where none fits (R513). -/
def Params.level (p : Params) : Nat :=
  if p.encLevel != 0 then p.encLevel
  else match (encLevels p.codec).find? (levelHolds p) with
    | some lv => lv
    | none => 0

/-! ### Segments of an encoded picture (R183) -/

/-- CTU size of the encoder. -/
def encCtu (codec : Nat) : Nat :=
  match codec with
  | 0 => 16
  | 4 => 128
  | _ => 64

/-- Forms of Table 7-5. -/
inductive SegForm where
  | single | tiles | wavefront
  deriving DecidableEq, Repr

/-- The form that PARALLEL gives a picture of a width (Table 7-5). -/
def segForm (p : Params) (w : Nat) : SegForm :=
  match p.parallel with
  | 0 => .single
  | 1 => .tiles
  | 2 => .wavefront
  | 3 => .tiles
  | _ => if w ≤ 1280 || p.codec == 0 then .single else if p.isVp then .tiles else .wavefront

/-- Largest power of two not above `n`. -/
def pow2Below (n : Nat) : Nat := if n == 0 then 1 else 2 ^ Nat.log2 n

/-- A count reduced to what a side and the minimum tile size allow, and to the level's limit; a limit of 0 is none (R183). -/
def reduceTiles (n side minTile limit : Nat) : Nat :=
  let a := if minTile == 0 then n else min n (side / minTile)
  max 1 (if limit == 0 then a else min a limit)

/-- Rows, then columns, are reduced one at a time until their product fits the level's limit (R183). -/
def fitTiles (limit : Nat) : Nat → Nat → Nat → Nat × Nat
  | 0, c, r => (c, r)
  | fuel + 1, c, r =>
    if limit == 0 || c * r ≤ limit then (c, r)
    else if 1 < r then fitTiles limit fuel c (r - 1)
    else if 1 < c then fitTiles limit fuel (c - 1) r
    else (c, r)

/-- Tile columns and rows of a picture (R183). -/
def tileGrid (p : Params) (w h : Nat) : Nat × Nat :=
  let lv := p.level
  let c0 := if p.parallel == 4 then ceilDiv w 1024 else p.tileCols
  let r0 := if p.parallel == 4 then 1 else p.tileRows
  let c1 := if p.codec == 2 then pow2Below c0 else c0
  let r1 := if p.codec == 2 then 1 else r0
  let c2 := reduceTiles c1 w (Config.minTileWidth p.codec) (Config.levelTileCols p.codec lv)
  let r2 := reduceTiles r1 h (Config.minTileHeight p.codec) (Config.levelTileRows p.codec lv)
  fitTiles (Config.levelTiles p.codec lv) 64 (if p.codec == 2 then pow2Below c2 else c2) r2

/-- A segment as CTU columns from x0 below x1 and CTU rows from y0 below y1. -/
abbrev SegRect := Nat × Nat × Nat × Nat

/-- Luma samples of a segment, partial CTUs counted whole. -/
def SegRect.luma (g : SegRect) (ctu : Nat) : Nat := (g.2.1 - g.1) * (g.2.2.2 - g.2.2.1) * ctu * ctu

/-- Luma samples of a segment that lie inside the picture. -/
def SegRect.inside (g : SegRect) (ctu w h : Nat) : Nat :=
  (min (g.2.1 * ctu) w - g.1 * ctu) * (min (g.2.2.2 * ctu) h - g.2.2.1 * ctu)

/-- CTUs of a segment. -/
def SegRect.ctus (g : SegRect) : Nat := (g.2.1 - g.1) * (g.2.2.2 - g.2.2.1)

/-- The largest count of items from the front, at most 4, whose sum keeps within a bound; at least 1 (R50). -/
def groupCount (cost : List Nat → Nat) (limit : Nat) (xs : List Nat) : Nat :=
  if cost (xs.take 4) ≤ limit && decide (4 ≤ xs.length) then 4
  else if cost (xs.take 3) ≤ limit && decide (3 ≤ xs.length) then 3
  else if cost (xs.take 2) ≤ limit && decide (2 ≤ xs.length) then 2
  else 1

/-- Wavefront row groups: the sizes in rows (R50). -/
def rowGroups (cost : List Nat → Nat) (limit : Nat) : Nat → List Nat → List Nat
  | 0, _ => []
  | fuel + 1, xs =>
    if xs.isEmpty then []
    else
      let n := groupCount cost limit xs
      n :: rowGroups cost limit fuel (xs.drop n)

/-- The row groups as segments of the whole width. -/
def rowRects (w : Nat) : Nat → List Nat → List SegRect
  | _, [] => []
  | y, n :: ns => (0, w, y, y + n) :: rowRects w (y + n) ns

/-- Estimate of an encode segment of some luma samples, partial CTUs counted whole, in cycles (R81, R279). -/
def encSegEst (p : Params) (fixed luma bytes corr : Nat) : Nat :=
  estCycles fixed (presetFactor4 p) (samplesOf p.chroma luma) bytes (binsPerByte10 p.codec false) corr

/-- The segments of an encoded picture; rows are grouped before Invar's plan gives bytes to them, so by their samples (R183, R50; log
entry 46). -/
def encSegs (p : Params) (corr w h : Nat) : List SegRect :=
  let t := encCtu p.codec
  let cw := ceilDiv w t
  let ch := ceilDiv h t
  match segForm p w with
  | .single => [(0, cw, 0, ch)]
  | .tiles =>
    let g := tileGrid p w h
    (List.range g.2).flatMap fun r => (List.range g.1).map fun c =>
      (c * cw / g.1, (c + 1) * cw / g.1, r * ch / g.2, (r + 1) * ch / g.2)
  | .wavefront =>
    let rows := List.replicate ch (cw * t * t)
    rowRects cw 0 (rowGroups (fun ls => encSegEst p 600 (ls.foldl (· + ·) 0) 0 corr) 300000 ch rows)

/-- Samples on edges between the segments of an encoded picture. -/
def encEdge (p : Params) (corr w h : Nat) : Nat :=
  match segForm p w with
  | .single => 0
  | .tiles => let g := tileGrid p w h; samplesOf p.chroma ((g.1 - 1) * h + (g.2 - 1) * w)
  | .wavefront => samplesOf p.chroma (((encSegs p corr w h).length - 1) * w)

/-! ### Rate-control figures (R199, R200, R173) -/

/-- Most segments a MAX_WIDTH × MAX_HEIGHT picture can have, plus SLICES (R199). -/
def minSegs (p : Params) : Nat :=
  (match segForm p p.maxW with
    | .single => 1
    | .tiles => (tileGrid p p.maxW p.maxH).1 * (tileGrid p p.maxW p.maxH).2
    | .wavefront => ceilDiv p.maxH (encCtu p.codec)) + p.slices

/-- CTUs of a MAX_WIDTH × MAX_HEIGHT picture. -/
def maxCtus (p : Params) : Nat := ceilDiv p.maxW (encCtu p.codec) * ceilDiv p.maxH (encCtu p.codec)

/-- Bytes of the items of SEI_DATA, each a 2-byte length and a NAL unit or OBU; none where they do not fill it (Table 14-6). -/
def seiItems : Nat → List Byte → Option Nat
  | 0, bs => if bs.isEmpty then some 0 else none
  | fuel + 1, bs =>
    if bs.isEmpty then some 0
    else
      let n := bytesAt bs 0 2
      if n == 0 || decide (bs.length < 2 + n) then none else (seiItems fuel (bs.drop (2 + n))).map (· + n)

/-- `sei` of R199: bytes of the SEI messages or metadata OBUs of the session; none where SEI_DATA is ill formed. -/
def Params.sei (p : Params) : Option Nat :=
  if p.codec == 2 || p.seiLen == 0 then some 0
  else seiItems p.seiLen (leBytes p.seiLen (p.at 0x0C8 0 6080))

/-- min_pic in bytes (R199). -/
def minPic (p : Params) : Nat := 1024 + p.sei.getD 0 + 16 * minSegs p + ceilDiv (maxCtus p) 2

/-- stage_pic in bytes (R173). -/
def stagePic (p : Params) : Nat :=
  ceilDiv (5 * ceilDiv (p.maxW * p.maxH * spp2 p.chroma * p.depthY) 16) 3 + 65536

/-- RC_MODE is one of those that keep a rate. -/
def Params.rated (p : Params) : Bool := decide (1 ≤ p.rcMode) && decide (p.rcMode ≤ 3)

/-- The rate that G is taken at, in bit/s (R200). -/
def gRate (p : Params) : Nat := (if p.rcMode == 3 then p.maxBitrate else p.bitrate) * 1000

/-- G in bytes with 16 fractional bits (R200). -/
def gBytes (p : Params) : Nat := if p.fpsNum == 0 then 0 else gRate p * p.fpsDen * 65536 / (8 * p.fpsNum)

/-- Bits that the modelled buffer gains in one picture interval, with 16 fractional bits (R211). -/
def arrival (p : Params) : Nat :=
  if p.fpsNum == 0 then 0 else (if p.rcMode == 1 then p.bitrate else p.maxBitrate) * 1000 * p.fpsDen * 65536 / p.fpsNum

/-- Size of the modelled buffer in bits, with 16 fractional bits (R211). -/
def bufBits (p : Params) : Nat := p.bufSize * 1000 * 65536

/-- Pictures of a mini-GOP: MINIGOP in GOP_MODE 0, otherwise 1 (R179). -/
def Params.gopLen (p : Params) : Nat := if p.gopMode == 0 then max 1 p.minigop else 1

end Sys2Proof.Machine
end

