-- ==== Sys2Proof/Machine/Units.lean ====
section
/-! DEFINITION. Sessions and work units: session states, completion of entries, rollback, reset and drain
(02_sessions.md, 12_dispatch.md). -/
namespace Sys2Proof.Machine

/-! ### Completion of an entry -/

/-- Order of outcomes that meet in one entry; the lowest rank stands. 0x20 with a cause of 0x10 or above is a code of R158, below it one
of Table 6-6 (R169, R197). -/
def codeRank (code cause : Nat) : Nat :=
  if code == 0x30 then 0
  else if code == 0x40 then 1
  else if code == 0xF0 then 2
  else if code == 0x20 && decide (0x10 ≤ cause) then 3
  else if code == 0x41 || code == 0x11 then 4
  else if code == 0x10 then 5
  else if code == 0x20 || code == 0x21 then 6
  else if code == 0x02 then 7
  else if code == 0x01 then 8
  else 9

/-- An outcome noted for an entry: it replaces one of lower standing, and of the same code one without a cause (R153, R169). -/
def QEntry.note (e : QEntry) (code cause : Nat) : QEntry :=
  if codeRank code cause < codeRank e.code e.cause || (code == e.code && e.cause == 0) then { e with code := code, cause := cause } else e

/-- Units of an entry. -/
def State.entryUnits (s : State) (q : Nat) (seq : Word) : List WUnit :=
  s.dsc.units.filter fun u => u.q == q && u.seq == seq

/-- The entry has completed, or is not there. -/
def State.entryDone (s : State) (q : Nat) (seq : Word) : Bool :=
  match (s.queue q).entry? seq with
  | some e => e.stage == .done
  | none => true

/-- What the end of an entry means for the source picture it brought: one not yet taken in is forgotten, and a flush fetched after it reaches
one picture less far; one taken in and not coded keeps the code for a resubmission (R172, R176, R177). -/
def State.noteEnd (s : State) (q : Nat) (e : QEntry) : State :=
  if (e.op == 2 || e.op == 5) && decide (0x10 ≤ e.code) then
    let ix := efld e.raw 12 0 32
    let gone := decide ((s.sess e.sess).nextIndex ≤ ix)
    s.modSess e.sess fun x => { x with
      flushes := if gone then x.flushes.map fun k => if ix < k then k - 1 else k else x.flushes
      src := (x.src.filter fun p => p.taken || !(p.entryQ == q && p.entrySeq == e.seq)).map fun p =>
        if p.entryQ == q && p.entrySeq == e.seq && !p.coded then { p with failed := e.code } else p }
  else s

/-- An entry completes: its result record is written, and where its code is 0x10 or above every later entry of its
chain completes with ABORTED, cause 0x40, without running (R305, R306). -/
def State.finishEntry (s : State) (q : Nat) (seq : Word) : State :=
  match (s.queue q).entry? seq with
  | none => s
  | some e =>
    if e.stage == .done then s
    else
      let now := BitVec.ofNat 64 s.time
      let t := (s.modEntry q seq fun e => { e with stage := .done, doneTime := now }).putResult q seq |>.noteEnd q e
      if 0x10 ≤ e.code then
        let later := ((s.queue q).entries.dropWhile fun f => f.seq != seq).filter fun f =>
          f.chain == e.chain && f.seq != seq && f.stage != .done
        forEach later (fun f u =>
          let u1 := u.modEntry q f.seq fun g => { g with stage := .done, doneTime := now, code := 0x40, cause := 0x40 }
          (u1.modDsc fun d => { d with units := d.units.filter fun w => !(w.q == q && w.seq == f.seq) }).putResult q f.seq) t
      else t

/-- A ladder entry still owes its source statistics: the field of a picture that its decode released is not final yet (R230, R231). -/
def State.statsOpen (s : State) (e : QEntry) : Bool :=
  e.op == 3 && efld e.raw 56 0 64 != 0 && (s.sess e.sess).state != .draining && (s.sess e.sess).state != .error
    && (e.relPics.take 8).any fun r => (s.sess e.sess).ana.any fun a => a.index == r && !a.final

/-- An entry whose outcome is fixed completes once no unit of it is left and its buffers are written (R231, R307 condition 1). -/
def State.settleEntry (s : State) (q : Nat) (seq : Word) : State :=
  match (s.queue q).entry? seq with
  | some e => if e.closing && (s.entryUnits q seq).isEmpty && !s.statsOpen e then s.finishEntry q seq else s
  | none => s

/-- The outcome of an entry is fixed. -/
def State.closeEntry (s : State) (q : Nat) (seq : Word) (code cause : Nat) : State :=
  (s.modEntry q seq fun e => { e.note code cause with closing := true }).settleEntry q seq

/-! ### Session states (R33, R34) -/

/-- Code of a session state (Table 2-1). -/
def sessCode : SessState → Nat
  | .free => 0
  | .parked => 1
  | .ready => 2
  | .cached => 3
  | .running => 4
  | .draining => 5
  | .sessionReset => 6
  | .error => 7

/-- A unit runs on a core half (the other kinds run on MAU engines and PCF pipes). -/
def UKind.onCore : UKind → Bool
  | .mau => false
  | .pcf => false
  | _ => true

/-- A unit begins a picture or takes one's place. -/
def UKind.begins (k : UKind) : Bool := k == .start || k == .fused || k == .release

/-- A unit is queued in Babbitt. -/
def WUnit.queued (u : WUnit) : Bool := u.stage == .queued
/-- A unit's bank holds or is loading its context. -/
def WUnit.hinted (u : WUnit) : Bool :=
  match u.stage with
  | .hinted _ _ _ _ => true
  | _ => false
/-- A unit executes, or its commit is in progress. -/
def WUnit.active (u : WUnit) : Bool :=
  match u.stage with
  | .running _ => true
  | .committing _ _ => true
  | _ => false

/-- The highest-ranked state that applies to a session's units (R34). -/
def State.unitState (s : State) (n : Nat) : SessState :=
  let us := s.dsc.units.filter fun u => u.session == n
  if us.any fun u => u.active && u.kind.onCore then .running
  else if us.any fun u => u.hinted && u.kind.onCore then .cached
  else if us.any WUnit.queued then .ready
  else .parked

/-- DRAINING, SESSION_RESET, ERROR and FREE override the ranking (R34). -/
def SessState.fixed : SessState → Bool
  | .draining => true
  | .sessionReset => true
  | .error => true
  | .free => true
  | _ => false

/-- A session's state follows its units (R34). -/
def State.settleState (s : State) (n : Nat) : State :=
  if (s.sess n).state.fixed then s else s.modSess n fun x => { x with state := s.unitState n }

/-- SESSION_STATE event of a session (Table 13-14b). -/
def State.sessionEvent (s : State) (n : Nat) : State :=
  s.event (s.sess n).fn 0x04 none 0 n 0 0 (sessCode (s.sess n).state)

/-- A line of the Electrum cache leaves with its session. -/
def State.dropLine (s : State) (n : Nat) : State :=
  s.modCtx fun c => { c with sets := tblMod [] c.sets (n % 256) fun ls => ls.filter fun l => l.session != n }

/-- The 8 bytes of a session's directory entry (R43, Table 2-5). -/
def State.dirBytes (s : State) (n : Nat) : List Byte :=
  let x := s.sess n
  leBytes 8 (put 0 58 (b2n x.vsel) + put 0 54 (sessCode x.state) + put 0 48 x.fn + put 0 0 x.stale.toNat)

/-- Where a session's directory entry lies in CTX_DIR; none without such a region. -/
def State.dirAt (s : State) (n : Nat) : Option Nat := (s.boot.regions.find? fun r => r.kind == 2).map fun r => r.base + 8 * n

/-- A session's directory entry is written to CTX_DIR. -/
def State.writeDir (s : State) (n : Nat) : State :=
  match s.dirAt n with
  | some a => s.memWrite a (s.dirBytes n)
  | none => s

/-- A session becomes FREE: its reservations and its output queue are returned, and its directory entry says so (R34, R43, R150). -/
def State.freeSession (s : State) (n : Nat) : State :=
  ((s.modSess n fun _ => Session.init).dropLine n).writeDir n

/-- The admin queue of a function, or the configuration queue. -/
def State.adm (s : State) (cfg : Bool) (fn : Nat) : AdmQ := if cfg then s.cfgq else s.admQ fn

/-- Change the admin queue of a function, or the configuration queue. -/
def State.modAdm (s : State) (cfg : Bool) (fn : Nat) (f : AdmQ → AdmQ) : State := if cfg then s.modCfgQ f else s.modAdmQ fn f

/-- Ring depth of an admin queue (Table 13-15). -/
def AdmQ.depth (a : AdmQ) : Nat := 2 ^ a.depthLog

/-- The 64 bytes of an admin queue's status block (Table 13-12): 2 running or 4 stopped; it takes no reservations. -/
def AdmQ.status (a : AdmQ) (now : Nat) : List Byte :=
  leBytes 64 (put 0 0 a.head + put 4 0 a.seq.toNat + put 8 8 (if a.stopped then a.errCause else 0) + put 8 0 (if a.stopped then 4 else 2)
    + put 12 0 a.errIndex + put 16 0 (now % 2 ^ 64) + put 24 0 a.head)

/-- The status block of an admin queue is written. -/
def State.putAdmStatus (s : State) (cfg : Bool) (fn : Nat) : State :=
  s.putRecord fn (s.adm cfg fn).space.toNat (s.adm cfg fn).sb.toNat ((s.adm cfg fn).status s.time)

/-- An admin or configuration command completes: its record with the return area `ret` goes to the result ring, and the published
head passes it (R324, R326, Table 13-11). -/
def State.finishAdm (s : State) (cfg : Bool) (fn : Nat) (tag : Word) (op code cause ret : Nat) : State :=
  let a := s.adm cfg fn
  let t := s.putRecord fn a.space.toNat (a.res.toNat + a.seq.toNat % a.depth * 128)
    (leBytes 128 (put 0 0 a.seq.toNat + put 4 0 tag.toNat + put 8 0 code + put 8 8 cause + put 8 16 op + ret))
  (t.modAdm cfg fn fun a => { a with head := (a.head + 1) % (2 * a.depth), seq := a.seq + 1 }).putAdmStatus cfg fn

/-- A session parked by a restructure: its open picture is discarded, with its slot and its plan (R34, R516). -/
def Session.parked (x : Session) : Session :=
  let opened := (x.results.filter PicResult.started).map PicResult.pic
  { x with
    state := .parked, results := []
    pics := x.pics.filter fun p => !(p.readers != 0 && p.relIndex.isNone && opened.contains p.num)
    plans := x.plans.filter fun k => !opened.contains k.pic }

/-- A DRAINING session with no unit left becomes FREE after DESTROY_SESSION or FLR, PARKED in a restructure (R34); the command that
waits for it completes (Table 14-3). -/
def State.settleDrain (s : State) (n : Nat) : State :=
  let x := s.sess n
  if x.state == .draining && !(s.dsc.units.any fun u => u.session == n) then
    if x.destroyAfter then
      match x.destroyer with
      | some (fn, tag) => (s.freeSession n).finishAdm false fn tag 0x11 0 0 0
      | none => s.freeSession n
    else s.modSess n Session.parked
  else s

/-! ### Scheduler nodes (R273 to R278) -/

/-- A class's path to the root, at most 6 levels (R273). -/
def State.pathUp (s : State) : Nat → Nat → List Nat
  | 0, _ => []
  | k + 1, c => if c == 0 then [0] else
    match s.clsRec c with
    | some r => c :: s.pathUp k r.parent
    | none => []

/-- The classes a unit of leaf `c` is charged to, leaf first. -/
def State.classPath (s : State) (c : Nat) : List Nat := s.pathUp 6 c

/-- A class holds queued units (R278). -/
def State.backlogged (s : State) (c : Nat) : Bool := s.dsc.units.any fun u => u.queued && (s.classPath u.cls).contains c

/-- Parent of a class. -/
def State.parentOf (s : State) (c : Nat) : Nat :=
  match s.clsRec c with
  | some r => r.parent
  | none => 0

/-- The child that schedules units naming no session: one for each queue, after every session (log entry 20). -/
def noSession (q : Nat) : Nat := 2 ^ 20 + q

/-- The wake rule on a unit's arrival: each idle node of its path starts at max(f_node, v_parent) (R278). -/
def State.wake (s : State) (u : WUnit) : State :=
  let t := forEach (s.classPath u.cls) (fun c t =>
    if s.backlogged c || c == 0 then t
    else t.modCls c fun k => { k with sTag := max k.fTag (s.cls (s.parentOf c)).vTime }) s
  if s.dsc.units.any fun w => w.queued && w.session == u.session then t
  else t.modSess u.session fun x => { x with sTag := max x.fTag (s.cls u.cls).vTime }

/-- A new unit is queued in Babbitt. -/
def State.addUnit (s : State) (u : WUnit) : State :=
  ((s.wake u).modDsc fun d =>
    { d with units := d.units ++ [{ u with uid := d.nextUid, seed := d.nextUid }], nextUid := d.nextUid + 1 }).settleState u.session

/-! ### Leaving a half (R46, R290) -/

/-- Outstanding demand requests of a half are withdrawn (R349). -/
def State.withdraw (s : State) (h : Nat) : State :=
  s.modDmv fun d =>
    let n := (d.demand.filter fun x => x.1 == h).length + (d.demandRd.filter fun x => x.1 == h).length
    { d with demand := d.demand.filter fun x => x.1 != h, demandRd := d.demandRd.filter fun x => x.1 != h,
             slots := d.slots.filter fun x => x.user != .demand h, withdrawn := sat32 d.withdrawn n }

/-- A FENCING half with no unit and both banks released becomes FENCED (R82). -/
def State.settleHalf (s : State) (h : Nat) : State :=
  let x := s.half h
  if x.fstate == .fencing && x.unit.isNone && x.bank0 == .empty && x.bank1 == .empty then
    s.modHalf h fun x => { x with fstate := .fenced }
  else s

/-- The half's own state after its unit has gone: counters show the last unit (CCA_UNIT_BUDGET, CCA_UNIT_CYCLES), the
sequencer is free, and its active bank is in state `b`. -/
def leaveHalf (b : BankState) (u : WUnit) (x : Half) : Half :=
  { x with unit := none, lastBudget := u.budget, lastCycles := u.cycles, waiting := false, waitCycles := 0, gap := 0, reqs := [], stage1 := false, stage2 := false, rowQp := none, qps := [], forced := none, rowWait := false, fifo := Fifo.init,
           bank0 := if x.activeBank == 0 then b else x.bank0, bank1 := if x.activeBank == 0 then x.bank1 else b }

/-- An in-flight entry frees (R289). -/
def State.freeInflight (s : State) (u : Nat) : State :=
  s.modDsc fun d => { d with inflight := d.inflight.filter fun p => p.2 != u }

/-- A bucket is clamped to its depth (R282). -/
def clampBucket (c : Cls) (x : Int) : Int := min x ((c.burst * 1000 : Nat) : Int)

/-- Every bucket on a unit's path gains `n` (R282). -/
def State.refund (s : State) (u : WUnit) (n : Int) : State :=
  forEach (s.classPath u.cls) (fun c t => t.modCls c fun k => { k with bucket := clampBucket k (k.bucket + n) }) s

/-- The place a running unit occupies is released. -/
def State.releasePlace (s : State) (u : WUnit) (b : BankState) : State :=
  match u.stage with
  | .running p =>
    if u.kind == .mau then s.modMau fun m => { m with units := tblSet 0 m.units p 0 }
    else if u.kind == .pcf then s.modPcf fun m => { m with units := tblSet 0 m.units p 0 }
    else ((s.modHalf p (leaveHalf b u)).withdraw p).settleHalf p
  | .hinted h k _ _ =>
    if u.kind.onCore then
      (s.modHalf h fun x => if k == 0 then { x with bank0 := .empty } else { x with bank1 := .empty }).settleHalf h
    else s
  | _ => s

/-- A rendition's own outcome (R17). -/
def setRend (n code cause : Nat) (e : QEntry) : QEntry :=
  { e with rends := e.rends.map fun r => if r.session == n && !r.done then { r with done := true, code := code, cause := cause } else r }

/-- A ladder entry whose decode and renditions have all ended carries the numerically highest code of its stages (R17). -/
def QEntry.settleLadder (e : QEntry) : QEntry :=
  if e.sourced && !e.rends.isEmpty && e.rends.all fun r => r.done then
    let worst := e.rends.foldl (fun (b : Nat × Nat) r => if b.1 < r.code then (r.code, r.cause) else b) (e.code, e.cause)
    { e with closing := true, code := worst.1, cause := worst.2 }
  else e

/-- In a drain the entry of a discarded unit completes with ABORTED, of a rendition's unit that rendition (R17, R38). -/
def State.abortedEntry (s : State) (u : WUnit) : State :=
  s.modEntry u.q u.seq fun e =>
    if u.rend.isSome then (setRend u.session 0x40 0 e).settleLadder else { e.note 0x40 0 with closing := true }

/-- A unit leaves Babbitt for good without committing; its entry and its session settle, and in DRAINING its entry completes
with ABORTED (R38). What an abandoned MAU unit had written to its statistics buffer, which R39 leaves undefined, stands as it was
(DESIGN CHOICE, log entry 71). -/
def State.discardUnit (s : State) (u : WUnit) : State :=
  let t := (((s.releasePlace u .empty).freeInflight u.uid).modSess u.session fun x =>
    { x with stale := x.stale ||| u.written }).dropUnit u.uid
  let v := if (t.sess u.session).state == .draining then t.abortedEntry u else t
  ((v.settleState u.session).settleEntry u.q u.seq).settleDrain u.session

/-- A unit rolls back: STALE grows by the granules it wrote, its cost returns to every bucket, and it is queued again
at the front of its session, or discarded where it may not run again (R46, R290, R516). -/
def State.rollback (s : State) (n : Nat) : State :=
  match s.unit? n with
  | none => s
  | some u =>
    if u.wantDrop then (s.refund u (u.cost : Int)).discardUnit u
    else
      (((((((s.releasePlace u .empty).freeInflight n).modSess u.session fun x =>
        { x with stale := x.stale ||| u.written }).refund u (u.cost : Int)).wake u).modUnit n fun w =>
        { w with stage := .queued, front := true, cycles := 0, written := 0, aborted := false, done := 0, lines := [], steps := 0 }).settleState
          u.session).settleDrain u.session

/-- A hinted unit returns to its session; its bank is reclaimed (Table 2-2 unhint, R290). -/
def State.unhint (s : State) (n : Nat) : State :=
  match s.unit? n with
  | none => s
  | some u =>
    (((((s.releasePlace u .empty).freeInflight n).refund u (u.cost : Int)).wake u).modUnit n fun w =>
      { w with stage := .queued, front := true }).settleState u.session

/-- A request is sent to the half that runs a unit (R99, R104). -/
def State.sendReq (s : State) (u : WUnit) (r : SeqReq) : State :=
  match u.stage with
  | .running h => if u.kind.onCore then s.modHalf h fun x => { x with sent := x.sent ++ [(r, u.tag)] } else s
  | _ => s

/-- A unit that may not run again: a queued or hinted one is discarded, an executing core unit is aborted at its next
CHECKPOINT with rank 1, a MAU or PCF unit is abandoned (R35, R38, R39, R516). -/
def State.stopUnit (s : State) (u : WUnit) : State :=
  if u.queued || u.hinted || !u.kind.onCore then s.discardUnit u
  else (s.modUnit u.uid fun w => { w with wantDrop := true }).sendReq u .abortSession

/-- Every unit of a list stops. -/
def State.stopUnits (s : State) (us : List WUnit) : State := forEach us (fun u t => t.stopUnit u) s

/-! ### Entries that name a session -/

/-- An entry names the session: itself, or as a rendition (Table 13-9). -/
def QEntry.names (e : QEntry) (n : Nat) : Bool :=
  (e.op != 4 && e.op != 6 && e.op != 8 && e.sess == n) ||
    e.rends.any fun r => r.session == n

/-- Fetched entries, not yet complete, that name the session themselves. -/
def State.entriesOf (s : State) (n : Nat) : List (Nat × Word) :=
  (tblKeys s.queues).flatMap fun q =>
    ((s.queue q).entries.filter fun e => e.stage != .done && e.op != 4 && e.op != 6 && e.op != 8 && e.sess == n).map
      fun e => (q, e.seq)

/-- Every ladder entry settles. -/
def State.settleLadders (s : State) : State :=
  forEach ((tblKeys s.queues).flatMap fun q => ((s.queue q).entries.filter fun e => !e.rends.isEmpty && e.stage != .done).map fun e => (q, e.seq))
    (fun p t => (t.modEntry p.1 p.2 QEntry.settleLadder).settleEntry p.1 p.2) s

/-- Entries in which the session is a rendition: that rendition alone ends with the code (R17). -/
def State.closeRends (s : State) (n code cause : Nat) : State :=
  (forEach (tblKeys s.queues) (fun q t =>
    t.modQueue q fun w => { w with entries := w.entries.map fun e => if e.stage != .done then setRend n code cause e else e }) s).settleLadders

/-- Every fetched, incomplete entry of a session ends with a code. -/
def State.closeEntries (s : State) (n code cause : Nat) : State :=
  forEach (s.entriesOf n) (fun p t => t.closeEntry p.1 p.2 code cause) (s.closeRends n code cause)

/-! ### Reset and drain (R35, R38, R39) -/

/-- Initial fullness F_0 of Invar in bits, with 16 fractional bits: INIT_FULL × BUF_SIZE × 1,000 ÷ 256 (R211). -/
def initFull (p : Params) : Int :=
  let b := p.block.toNat
  ((fld b (8 * 0x02C) 32 * fld b (8 * 0x020 + 8) 8 * 256000 : Nat) : Int)

/-- The stream-level state that a reset discards; parameters and reservations are kept (R35, R150, R214, R280). -/
def Session.afterReset (x : Session) : Session :=
  { x with pictures := 0, estCorr := 256, prevHdr := 1024, beforeRap := true, skip := false, recovering := false, recoverTo := none, recoverAt := none, outq := [],
           pics := [], picNext := 0, outIndex := 0, relCount := 0, ladder := none, flushes := [], intakeOp := 0, nextIndex := 0,
           src := [], codedNext := 0, anchor := none, refreshPos := 0, since := [], size := (0, 0), recons := [], grain := [], headSets := none, hiddenHeld := none,
           rc := ⟨0, initFull x.par, 262144, 262144, 262144⟩, plans := [], ana := [], anaSize := (0, 0), anaNext := 0, results := [], members := [], psets := [] }

/-- With its output queue a decode session loses the writes to its buffers that the data mover still holds: a buffer that no report named is
never written after the discard (R150). -/
def State.dropOutputs (s : State) (n : Nat) : State :=
  if (s.sess n).par.encode then s
  else
    let hs := s.dsc.units.filterMap fun u => match u.stage with
      | .running h => if u.session == n && u.kind.onCore then some h else none
      | _ => none
    s.modDmv fun d => { d with demand := d.demand.filter fun x => !(hs.contains x.1 && x.2.1 == 1) }

/-- The reset transition: units stop, entries complete with SESSION_RESET, stream state is discarded (R35, R39). -/
def State.resetSession (s : State) (n : Nat) : State :=
  if (s.sess n).state == .sessionReset || (s.sess n).state == .free || (s.sess n).state == .draining then s
  else
    let t := (s.dropOutputs n).modSess n fun x => { x.afterReset with state := .sessionReset }
    let us := s.dsc.units.filter fun u => u.session == n
    (t.stopUnits us).closeEntries n 0x30 0

/-- A reset that a fault causes is followed by a SESSION_STATE event, and the lines named are zeroed before the next unit
(Table 19-7, R442, Table 13-14b). -/
def State.faultReset (s : State) (n : Nat) (lines : List Nat) : State :=
  if (s.sess n).state == .free || (s.sess n).state == .draining then s
  else if (s.sess n).state == .sessionReset then s.modSess n fun x => { x with zero := x.zero ++ lines }
  else ((s.resetSession n).modSess n fun x => { x with zero := x.zero ++ lines }).sessionEvent n

/-- A session that goes to ERROR keeps no picture for output and no output buffer (R34, R156). -/
def Session.stopped (x : Session) : Session :=
  let kept := x.pics.filter fun p => p.isRef || p.readers != 0
  { x with state := .error, outq := [], pics := kept.map fun p => { p with due := false, awaiting := false } }

/-- The whole entry ends with a code, every rendition of it too (R17, R36, R75). -/
def State.endEntry (s : State) (q : Nat) (seq : Word) (code cause : Nat) : State :=
  (s.modEntry q seq fun e => { e with
    rends := e.rends.map fun r => if r.done then r else { r with done := true, code := code, cause := cause } }).closeEntry q seq code cause

/-- Received entries that name a session and whose outcome is open: not those whose decode has ended, where only the renditions'
work is left (R17, R37). -/
def State.openEntries (s : State) (n : Nat) : List (Nat × Word) :=
  (s.entriesOf n).filter fun p => ((s.queue p.1).entry? p.2).any fun e => e.stage == .running && !e.closing && !e.sourced

/-- In ERROR the session runs no further work: its units stop, and the entries received for it complete with ABORTED; those not yet
received do as their turn comes (R37). -/
def State.abortOpen (s : State) (n : Nat) : State :=
  let t := s.stopUnits (s.dsc.units.filter fun u => u.session == n)
  forEach (t.openEntries n) (fun p v => v.endEntry p.1 p.2 0x40 0) t

/-- The stop transition to ERROR: held pictures and the output queue are lost, a SESSION_STATE event follows, and the session's
other entries are aborted (R34, R37, R156). -/
def State.stopSession (s : State) (n : Nat) : State :=
  if (s.sess n).state == .free || (s.sess n).state == .draining || (s.sess n).state == .sessionReset then s
  else (((s.dropOutputs n).modSess n Session.stopped).sessionEvent n).abortOpen n

/-- The remaining units of a picture stop after its entry has completed (R516). -/
def State.stopPicture (s : State) (n pic : Nat) : State :=
  s.stopUnits (s.dsc.units.filter fun u => u.session == n && u.pic == pic && u.kind.onCore)

/-- A unit's entry fails with a code: of a rendition's unit, that rendition alone (R17, R196); of any other, the entry, whose
remaining units stop and are not dispatched again for it (R168, R516). -/
def State.failEntry (s : State) (u : WUnit) (code cause : Nat) : State :=
  if u.rend.isSome then
    let t := s.stopUnits (s.dsc.units.filter fun w => w.q == u.q && w.seq == u.seq && w.session == u.session && w.rend.isSome)
    ((t.modEntry u.q u.seq fun e => (setRend u.session code cause e).settleLadder)).settleEntry u.q u.seq
  else
    let t := s.stopUnits (s.dsc.units.filter fun w => w.q == u.q && w.seq == u.seq)
    (t.modEntry u.q u.seq fun e =>
      { e with rends := e.rends.map fun r => if r.done then r else { r with done := true, code := code, cause := cause } }).closeEntry u.q u.seq code cause

/-- A unit rolls back for good, and its entry ends with a code. -/
def State.failUnit (s : State) (u : WUnit) (code cause : Nat) : State :=
  let t := s.modUnit u.uid fun w => { w with wantDrop := true }
  let v := (if u.rend.isSome then t else t.modEntry u.q u.seq fun e => { e.note code cause with closing := true }).rollback u.uid
  v.failEntry { u with wantDrop := true } code cause

/-- A unit consumed poisoned data: it is rolled back, and its entry completes with DEVICE_FAULT_RETRY, cause 0x30 (R168,
R196, R441). -/
def State.poisonUnit (s : State) (uid : Nat) : State :=
  match s.unit? uid with
  | none => s
  | some u => s.failUnit u 0xF0 0x30

end Sys2Proof.Machine
end

