-- ==== Sys2Proof/Machine/Windows.lean ====
section
/-! DEFINITION. What an entry asks of memory, the address windows of its units, and units before their figures are set
(R73 to R76). -/
namespace Sys2Proof.Machine

/-! ### Entries -/

/-- The sessions that an entry names, renditions included. -/
def QEntry.sessions (e : QEntry) : List Nat :=
  (if e.op == 4 || e.op == 6 || e.op == 8 then [] else [e.sess]) ++ e.rends.map RendRes.session

/-- Every fetched entry with its queue. -/
def State.allEntries (s : State) : List (Nat × QEntry) :=
  (tblKeys s.queues).flatMap fun q => (s.queue q).entries.map fun e => (q, e)

/-- An entry has been received by Babbitt. -/
def QEntry.received (e : QEntry) : Bool := e.stage == .running || e.stage == .done

/-! ### Windows (R73 to R75) -/

/-- A window check of R74: the range lies in one granted region, or does not pass 2^64. -/
def State.windowOk (s : State) (fn space a n : Nat) : Bool :=
  a == 0 || n == 0 || (if space == 1 then s.granted fn a n else decide (a + n ≤ 2 ^ 64))

/-- A range that an entry asks for: window, space, address, size. -/
abbrev Ask := Nat × Nat × Nat × Nat

/-- Size of a ROI map and of a hint map (R184, R185). -/
def roiSize (p : Params) : Nat := 64 * ceilDiv (ceilDiv p.maxW 16) 64 * ceilDiv p.maxH 16
def hintSize (p : Params) : Nat := 64 * ceilDiv (ceilDiv p.maxW 16 * 8) 64 * ceilDiv p.maxH 16

/-- The ranges that a rendition descriptor asks for. -/
def rendAsks (p : Params) (r : Entry) : List Ask :=
  [(1, e8 r 52, e64 r 8, e32 r 4), (5, e8 r 53, e64 r 16, e32 r 48), (1, e8 r 54, e64 r 24, 16),
   (7, e8 r 55, e64 r 32, if p.roiEn then roiSize p else 0), (7, e8 r 56, e64 r 40, if p.hintEn then hintSize p else 0)]

/-- The ranges that an entry asks for itself (Tables 3-5, 13-6 to 13-10). -/
def entryAsks (p : Params) (e : Entry) (bs : List Entry) : List Ask :=
  let b := bs.headD 0
  match eOp e with
  | 1 => [(0, e8 e 28, e64 e 16, e32 e 24), (1, outSpace e, outAddr e, outCount e * outSize e), (5, e8 e 30, e64 e 48, e32 e 44),
      (4, e8 e 31, e64 e 56, nitinolSize p.chroma p.maxW p.maxH)]
  | 2 => [(0, e8 e 28, e64 e 16, hostSize (srcFormat e) (srcW e) (srcH e)), (1, e8 e 29, e64 e 32, e32 e 40),
      (5, e8 e 30, e64 e 48, e32 e 44), (7, e8 b 24, e64 b 0, if p.roiEn then roiSize p else 0),
      (7, e8 b 25, e64 b 8, if p.hintEn then hintSize p else 0), (1, e8 b 26, e64 b 16, 16)]
  | 3 => [(0, e8 e 28, e64 e 16, e32 e 24), (1, outSpace e, outAddr e, outCount e * outSize e), (5, e8 b 12, e64 b 0, e32 b 8),
      (5, e8 e 31, e64 e 56, e32 e 44)]
  | 5 => [(0, e8 e 28, e64 e 16, hostSize (srcFormat e) (srcW e) (srcH e)), (5, e8 e 30, e64 e 32, e32 e 40)]
  | 7 => [(1, outSpace e, outAddr e, outCount e * outSize e), (5, e8 e 29, e64 e 32, e32 e 40)]
  | _ => []

/-- The first window that fails the check of R74. -/
def State.badWindow (s : State) (fn : Nat) (as : List Ask) : Option Nat :=
  (as.find? fun a => !s.windowOk fn a.2.1 a.2.2.1 a.2.2.2).map Prod.fst

/-- A window refusal is recorded (R75). -/
def State.reportWindow (s : State) (fn n w : Nat) : State := s.report 0x22 0xA3 (some fn) (some n) w 0 0

/-- The rendition descriptor of a session in a ladder entry. -/
def QEntry.rendDesc (e : QEntry) (n : Nat) : Entry := ((e.blocks.drop 1).find? fun r => efld r 0 0 20 == n).getD 0

/-- Renditions whose windows fail are refused alone (R75). -/
def State.refuseRends (s : State) (q : Nat) (e : QEntry) : State :=
  forEach (e.rends.map RendRes.session) (fun n t =>
    match t.badWindow (t.queue q).fn (rendAsks (t.sess n).par (e.rendDesc n)) with
    | some w => if e.rends.any (fun r => r.session == n && r.done) then t
        else (t.reportWindow (t.queue q).fn n w).modEntry q e.seq (setRend n 0x11 0x23)
    | none => t) s

/-- What an entry asks for itself of the windows of its units; the range of a resubmission's source picture is ignored (R75, R172). -/
def State.asksOf (s : State) (e : QEntry) : List Ask :=
  let again := (e.op == 2 || e.op == 5) && (s.sess e.sess).src.any fun p => p.index == e32 e.raw 12 && p.taken && p.failed != 0
  (entryAsks (s.sess e.sess).par e.raw e.blocks).filter fun a => !(again && a.1 == 0)

/-- The entry names a session that may run work for it (R37, R38, R75). -/
def State.checksWindows (s : State) (e : QEntry) : Bool :=
  [1, 2, 3, 5, 7].contains e.op && !((s.sess e.sess).state == .error || (s.sess e.sess).state == .draining || (s.sess e.sess).state == .free
    || (s.sess e.sess).state == .sessionReset)

/-- A window list with window `i` set. -/
def setWindow (ws : List Window) (i : Nat) (w : Window) : List Window :=
  (List.range 16).map fun k => if k == i then w else ws.getD k noWindow

/-- Base of the session's context: CTX_BASE + 32 KiB × ID (R41). -/
def State.ctxBase (s : State) (n : Nat) : Nat :=
  match s.boot.regions.find? fun r => r.kind == 1 with
  | some r => r.base + n * 32768
  | none => n * 32768

/-- Window 15, the context window, which the device maps (R41, R74). -/
def State.ctxWindow (s : State) (n : Nat) : Window :=
  { noWindow with base := s.ctxBase n, size := 32768, space := 1, read := true, write := true }

/-- The windows that a unit's asks give, with permissions by window (Table 3-5). Two buffers of one window, ROI map and hint map or
decode report and statistics, are two ranges of it: the first its BASE and SIZE (DESIGN CHOICE, log entry 74). -/
def askWindows (encode : Bool) (as : List Ask) : List Window :=
  as.foldl (fun ws (a : Ask) =>
    let w := ws.getD a.1 noWindow
    if a.2.2.1 == 0 || a.2.2.2 == 0 then ws
    else if w.size != 0 then setWindow ws a.1 { w with also := w.also ++ [(a.2.1, a.2.2.1, a.2.2.2)] }
    else setWindow ws a.1 { noWindow with
      base := a.2.2.1, size := a.2.2.2, space := a.2.1, read := a.1 == 0 || a.1 == 7, write := a.1 == 1 || a.1 == 4 || a.1 == 5,
      nitinol := a.1 == 4 && !encode }) []

/-- Kind of the region (Table 20-9) in which the device itself places a window of a unit; none where the entry names its range. -/
def deviceKind (encode : Bool) (i : Nat) : Option Nat :=
  if i == 2 || i == 3 || i == 8 then some 3
  else if encode && (i == 0 || i == 4) then some 3
  else if encode && i == 6 then some 4
  else none

/-- The check of R74 on one range as a half loads it: a device window lies wholly in one region that the protection tables grant for
it, a host window does not pass 2^64 (R74, R75). -/
def State.rangeLoads (s : State) (fn : Nat) (encode : Bool) (i : Nat) (r : Nat × Nat × Nat) : Bool :=
  if r.1 == 0 then decide (r.2.1 + r.2.2 ≤ 2 ^ 64)
  else match deviceKind encode i with
    | some k => (s.regionOf r.2.1 r.2.2).any fun g => g.kind == k
    | none => s.granted fn r.2.1 r.2.2

/-- Window `i` of a set passes the check of R74 as the half loads it; window 15, and one of size 0, are not checked. -/
def State.windowLoads (s : State) (fn : Nat) (encode : Bool) (i : Nat) (w : Window) : Bool :=
  w.size == 0 || i == 15 || ((w.space, w.base, w.size) :: w.also).all (s.rangeLoads fn encode i)

/-- The first window of a set that fails the check (R75). -/
def State.loadFails (s : State) (fn : Nat) (encode : Bool) (ws : List Window) : Option Nat :=
  (List.range 16).find? fun i => !s.windowLoads fn encode i (ws.getD i noWindow)

/-- A window set with the window that failed its check marked (Table 3-19). -/
def markFail (i : Nat) (ws : List Window) : List Window := setWindow ws i { ws.getD i noWindow with fail := true }

/-- Bytes of one reference slot (R63). -/
def refSlotSize (p : Params) : Nat :=
  nitinolSize p.chroma p.maxW p.maxH + up4k (16 * ceilDiv p.maxW 16 * ceilDiv p.maxH 16)

/-- First granule of the Nitinol tile that an address of a session's reference slots lies in (R70; log entry 32). -/
def slotTile (x : Session) (a : Nat) : Nat :=
  let p := x.par
  let off := (a - x.refR.base) % max 1 (refSlotSize p)
  let c := tileCounts p.chroma p.maxW p.maxH
  let l := up4k (c.1 * c.2.1 * 384)
  if off < l then a - off % 384
  else if off < l + up4k (c.2.2.1 * c.2.2.2 * 384) then a - (off - l) % 384
  else lineOf a

/-- A granule enters its set of a cluster's cache as the most recently used, the least recently used leaving (Table 3-4). -/
def fillGranule (l : Nat) (c : Cluster) : Cluster :=
  { c with sets := tblMod [] c.sets (l / 64 % 4096) fun g => (l :: without g l).take 16 }

/-- The cluster holds a granule. -/
def Cluster.holds (c : Cluster) (l : Nat) : Bool := (tblGet [] c.sets (l / 64 % 4096)).contains l

/-- A granule and the others of its tile, six from the tile's first; one alone outside every session's slots (R70, R72). -/
def State.tileGranules (s : State) (a : Nat) : List Nat :=
  match (tblKeys s.sessions).find? fun n => decide ((s.sess n).refR.base ≤ a) && decide (a < (s.sess n).refR.base + (s.sess n).refR.size) with
  | some n => (List.range 6).map fun i => lineOf (slotTile (s.sess n) a) + 64 * i
  | none => [lineOf a]

/-- Windows 2 and 3 of a unit: every reference slot, and the slot it decodes into. -/
def refWindows (x : Session) (slot : Nat) (ws : List Window) : List Window :=
  let a := setWindow ws 2 { noWindow with
    base := x.refR.base, size := x.refR.size, space := 1, read := true, nitinol := true, cached := true }
  setWindow a 3 { noWindow with
    base := x.refR.base + slot * refSlotSize x.par, size := refSlotSize x.par, space := 1, read := true, write := true,
    nitinol := true, cached := true }

/-! ### Units -/

/-- A unit of an entry before its kind's figures are set. -/
def blankUnit (q : Nat) (seq : Word) (n fn cls : Nat) (kind : UKind) : WUnit :=
  { uid := 0, kind := kind, stage := .queued, q := q, seq := seq, session := n, rend := none, fn := fn, cls := cls, pic := 0, seg := 0,
    samples := 0, luma := 0, ctus := 0, bytes := 0, cost := 0, estRaw := 0, budget := 0, cycles := 0, charged := false,
    front := false, tag := 0, written := 0, aborted := false, mchk := [], windows := [], wantDrop := false, slot := 0,
    show_ := false, runT := 0, ord := 0, skips := false, done := 0, first := 0, outputs := [], lut := 0, lines := [],
    cols := 1, row0 := 0, rows := 1, par := none, seed := 0, steps := 0, avoid := [] }

/-- A unit with its estimate in cycles at EST_CORR and at 256, and its budget. -/
def WUnit.costed (u : WUnit) (est raw budget : Nat) : WUnit := { u with cost := per15 est, estRaw := raw, budget := budget }


end Sys2Proof.Machine
end

