-- ==== Sys2Proof/Machine/Encode.lean ====
section
/-! DEFINITION. Source pictures of encode sessions: analysis fields, mini-GOPs and key pictures, coding order and the units of
a coded picture (07_encoding.md, 09_motion_analysis.md). -/
namespace Sys2Proof.Machine

/-! ### Output data of an entry -/

/-- Output data written for an entry: device lines wait for the host's answers, relaxed host writes for a flush (R307). -/
def State.entryOut (s : State) (q : Nat) (seq : Word) (fn space a : Nat) (bs : List Byte) : State :=
  (s.putData fn space a bs).modEntry q seq fun e => { e with
    lines := if space == 1 then e.lines ++ linesOf a bs.length else e.lines
    roOut := e.roOut || (space == 0 && s.relaxedFor fn) }

/-! ### Analysis records (Tables 9-2, 9-3) -/

/-- The 16 bytes of a block record. -/
def MauBlock.bytes (b : MauBlock) : List Byte :=
  leBytes 16 (put 0 16 (twosOf 16 b.mvp.2) + put 0 0 (twosOf 16 b.mvp.1) + put 4 16 (twosOf 16 b.mvn.2) + put 4 0 (twosOf 16 b.mvn.1)
    + put 8 16 b.satdN + put 8 0 b.satdP + put 12 16 b.intra + put 12 0 b.act)

/-- A sum stored saturated to 32 bits (R226). -/
def sumSat (f : MauBlock → Nat) (bs : List MauBlock) : Nat := min ((bs.map f).foldl (· + ·) 0) 0xFFFFFFFF

/-- The 64 bytes of a picture record. -/
def AnaPic.record (a : AnaPic) : List Byte :=
  leBytes 64 (put 0 0 (a.index % 2 ^ 32) + put 4 16 a.height + put 4 0 a.width + put 8 0 (sumSat MauBlock.intra a.field)
    + put 12 0 (sumSat (fun b => min b.satdP b.intra) a.field) + put 16 0 (sumSat MauBlock.act a.field) + put 20 0 a.field.length
    + put 24 16 a.score + put 24 2 (b2n a.flushed) + put 24 1 (b2n a.fwd) + put 24 0 (b2n a.first) + put 28 0 a.meanY + put 32 0 a.seq.toNat)

/-- A statistics buffer of the analysis: the record, then the field row by row (R231). -/
def State.putField (s : State) (q : Nat) (seq : Word) (fn space addr maxW : Nat) (a : AnaPic) : State :=
  let cw := ceilDiv a.width 16
  forUpTo (ceilDiv a.height 16) (fun y t =>
    t.entryOut q seq fn space (addr + 64 + y * ceilDiv maxW 16 * 16) (((a.field.drop (y * cw)).take cw).flatMap MauBlock.bytes))
    (s.entryOut q seq fn space addr a.record)

/-- The analysis of picture `ix` of session `n`. -/
def State.ana? (s : State) (n ix : Nat) : Option AnaPic := (s.sess n).ana.find? fun a => a.index == ix

/-- Picture `ix` of session `n` is complete (R224). -/
def State.complete (s : State) (n ix : Nat) : Bool := (s.ana? n ix).any fun a => a.complete

/-- Its field is final (R224). -/
def State.fieldFinal (s : State) (n ix : Nat) : Bool := (s.ana? n ix).any fun a => a.complete && a.final

/-- An analysis-only entry completes when its field is final: its buffer is written, and its source slot is free (R229). -/
def State.finishAnalysis (s : State) (q : Nat) (e : QEntry) : State :=
  match s.ana? e.sess (e32 e.raw 12) with
  | some a =>
    let x := s.sess e.sess
    let t := if (statBuf e.raw).1 == 0 then s
      else s.putField q e.seq x.fn (statBuf e.raw).2.2 (statBuf e.raw).1 x.par.maxW a
    (t.modSess e.sess fun y => { y with src := y.src.filter fun p => p.index != a.index }).closeEntry q e.seq 0 0
  | none => s

/-- Every analysis-only entry of a session whose field is final completes. -/
def State.settleAnalysis (s : State) (n : Nat) : State :=
  forEach s.allEntries (fun p t =>
    if p.2.op == 5 && p.2.sess == n && p.2.analysed && p.2.stage == .running && t.fieldFinal n (e32 p.2.raw 12)
    then t.finishAnalysis p.1 p.2 else t) s

/-! ### Drain (R38) -/

/-- A unit whose commit would end a rendition's part of an entry executes (R38, R191). -/
def State.lastRunning (s : State) (q : Nat) (seq : Word) (n : Nat) : Bool :=
  s.dsc.units.any fun u => u.q == q && u.seq == seq && u.session == n && u.active && (u.kind == .finish || u.kind == .fused)

/-- In a drain a rendition's part of an entry ends with ABORTED, unless the unit that ends it executes (R17, R38). -/
def State.drainRends (s : State) (n : Nat) : State :=
  let end_ := fun (q : Nat) (e : QEntry) =>
    if e.stage == .done || (s.lastRunning q e.seq n && e.rends.any fun r => r.session == n && decide (r.left ≤ 1)) then e
    else setRend n 0x40 0 e
  (forEach (tblKeys s.queues) (fun q t => t.modQueue q fun w => { w with entries := w.entries.map (end_ q) }) s).settleLadders

/-- An analysed picture whose units have all committed completes with the code that its work earned, its field as it stands (R38,
R229). -/
def State.drainAnalysis (s : State) (q : Nat) (e : QEntry) : State :=
  (s.modSess e.sess fun x => { x with ana := x.ana.map fun a => if a.index == e32 e.raw 12 then { a with final := true } else a }).finishAnalysis q e

/-- Entries of a session close in a drain: those with a unit still executing keep the code that its commit earns (R38). -/
def State.closeDrained (s : State) (n : Nat) : State :=
  forEach (s.entriesOf n) (fun p t =>
    match (t.queue p.1).entry? p.2 with
    | some e =>
      if e.analysed && e.stage == .running then t.drainAnalysis p.1 e
      else if (t.entryUnits p.1 p.2).isEmpty then t.closeEntry p.1 p.2 0x40 0
      else t.modEntry p.1 p.2 fun e => { e with closing := true }
    | none => t) (s.drainRends n)

/-- The drain transition (R38): queued units are discarded and their entries complete with ABORTED; executing units are aborted at
their next CHECKPOINT unless they commit before it. -/
def State.drainSession (s : State) (n : Nat) (destroy : Bool) : State :=
  let t := (if destroy then s.dropOutputs n else s).modSess n fun x => { x with state := .draining, destroyAfter := destroy }
  let us := s.dsc.units.filter fun u => u.session == n
  (((t.stopUnits us).closeDrained n).modSess n fun x => { x with outq := if destroy then [] else x.outq }).settleDrain n

/-! ### Source pictures -/

/-- A source picture of the session. -/
def Session.pic? (x : Session) (ix : Nat) : Option SrcPic := x.src.find? fun p => p.index == ix

/-- Change a source picture. -/
def Session.modPic (x : Session) (ix : Nat) (f : SrcPic → SrcPic) : Session :=
  { x with src := x.src.map fun p => if p.index == ix then f p else p }

/-- The parameters whose changes take effect at the first mini-GOP decided after their command (R180). -/
def Session.gopPar (x : Session) : Params := x.pendPar.getD x.par

/-- The session and index under which a picture is analysed. -/
def SrcPic.at_ (p : SrcPic) (n : Nat) : Nat × Nat := p.feed.getD (n, p.index)

/-- A FLUSH_SESSION of the session is fetched and not yet complete. -/
def State.flushPending (s : State) (n : Nat) : Bool :=
  s.allEntries.any fun p => p.2.op == 7 && p.2.sess == n && p.2.stage != .done && !p.2.closing

/-- A flush makes the picture codeable without further lookahead (R177, R175). -/
def State.flushed (s : State) (n : Nat) (p : SrcPic) : Bool :=
  let m := p.at_ n
  (s.sess m.1).flushes.any (fun k => decide (m.2 < k)) || (p.feed.isSome && s.flushPending m.1)

/-- A flush ends the mini-GOP at this picture (R177, R191). -/
def State.flushEnds (s : State) (n : Nat) (p : SrcPic) : Bool :=
  let m := p.at_ n
  (s.sess m.1).flushes.contains (m.2 + 1)
    || (p.feed.isSome && s.flushPending m.1 && ((s.sess n).src.getLast?.any fun l => l.index == p.index))

/-- The picture is taken in and analysed. -/
def State.analysed (s : State) (n : Nat) (p : SrcPic) : Bool := p.taken && s.complete (p.at_ n).1 (p.at_ n).2

/-- The MAU has analysed picture `ix` of session `n`, whether or not its analysis is still held (R175). -/
def State.wasAnalysed (s : State) (n ix : Nat) : Bool :=
  s.complete n ix || (decide (ix < (s.sess n).anaNext) && (s.ana? n ix).isNone)

/-- The lookahead of R175 is satisfied. -/
def State.lookOk (s : State) (n : Nat) (p : SrcPic) : Bool :=
  let m := p.at_ n
  s.flushed n p || s.wasAnalysed m.1 (m.2 + (s.sess m.1).par.lookahead)

/-- Scene-cut score of a picture (R227). -/
def State.scoreOf (s : State) (n : Nat) (p : SrcPic) : Nat :=
  match s.ana? (p.at_ n).1 (p.at_ n).2 with
  | some a => a.score
  | none => p.score

/-- The scene cut makes the picture a key picture (R180, R182); of a ladder's pictures, rendition 0's (R188). -/
def State.cutKey (s : State) (n : Nat) (p : SrcPic) : Bool :=
  let x := s.sess n
  if p.lead.isSome then p.keyScene
  else x.par.sceneCut && !x.gopPar.refresh && decide (x.par.scThresh ≤ s.scoreOf n p)

/-- The session's own key rules (R180, R182, R188). -/
def State.ownKey (s : State) (n : Nat) (p : SrcPic) : Bool :=
  let g := (s.sess n).gopPar
  s.cutKey n p || p.forceKey || p.firstKey || p.sizeKey || p.followKey || g.gopMode == 3
    || (!g.refresh && g.keyPeriod != 0 && p.index % g.keyPeriod == 0)

/-- Rendition 0 has still to decide the picture (R188). -/
def State.leadOpen (s : State) (p : SrcPic) : Bool :=
  match p.lead with
  | some (l, i) => p.ruled.isNone && ((s.sess l).pic? i).any fun r => !r.decided
  | none => false

/-- The picture becomes a key picture (R180, R188, Table 7-4). -/
def State.isKey (s : State) (n : Nat) (p : SrcPic) : Bool :=
  match p.lead with
  | some _ => p.firstKey || p.ruled == some true || (s.sess n).gopPar.gopMode == 3
  | none => s.ownKey n p

/-! ### Mini-GOPs (R179 to R181) -/

/-- One picture of a mini-GOP as it is to be coded. -/
structure Coded where
  index  : Nat
  kind   : Nat
  layer  : Nat
  bpic   : Bool
  refs   : List Nat
  hidden : Bool
  deriving DecidableEq, Repr

/-- Midpoints of intervals, breadth first: lower end, upper end, depth (Table 7-4). -/
def midpoints : Nat → List (Nat × Nat × Nat) → List Coded
  | 0, _ => []
  | _ + 1, [] => []
  | fuel + 1, (lo, hi, d) :: rest =>
    if hi ≤ lo + 1 then midpoints fuel rest
    else
      let m := (lo + hi) / 2
      { index := m, kind := 2, layer := d, bpic := true, refs := [lo, hi], hidden := false } ::
        midpoints fuel (rest ++ [(lo, m, d + 1), (m, hi, d + 1)])

/-- References per list of a preset (Table 7-3). -/
def refCount (preset : Nat) : Nat := [1, 1, 2, 2, 3, 4, 4].getD preset 4

/-- Pictures coded in display order, each predicting from those before it (Table 7-4 modes 1 and 2). -/
def lowDelay (bpic : Bool) (n : Nat) : List Nat → List Nat → List Coded
  | _, [] => []
  | since, i :: is =>
    { index := i, kind := if bpic then 2 else 1, layer := 0, bpic := bpic, refs := since.take n, hidden := false } ::
      lowDelay bpic n ((i :: since).take 4) is

/-- The coding order and structure of a mini-GOP of consecutive pictures after anchor `a` (R179, R181). -/
def gopStructure (p g : Params) (a : Nat) (since is : List Nat) (full : Bool) : List Coded :=
  if g.gopMode == 0 && decide (1 < g.minigop) then
    let last := is.getLastD a
    if p.isVp then
      (if full && decide (1 < is.length) then
        { index := last, kind := 5, layer := 0, bpic := false, refs := [a], hidden := true } ::
          (is.dropLast.map fun i => { index := i, kind := 1, layer := 0, bpic := false, refs := [a, last], hidden := false })
      else lowDelay false (refCount p.preset) since is)
    else { index := last, kind := 1, layer := 0, bpic := false, refs := [a], hidden := false } :: midpoints 128 [(a, last, 1)]
  else lowDelay (g.gopMode == 2) (refCount p.preset) since is

/-! ### Units of a coded picture -/

/-- Invar's plan for a picture. -/
def Session.plan? (x : Session) (pic : Nat) : Option Plan := x.plans.find? fun k => k.pic == pic

/-- The byte cap b of a unit's budget: H_s of its segment, the picture cap for a fused unit; 0 before the plan is made (R78, R206). -/
def Session.byteCap (x : Session) (pic seg : Nat) (fused : Bool) : Nat :=
  match x.plan? pic with
  | some k => if fused then k.cap else (k.segs.getD seg (0, 0, [])).1
  | none => 0

/-- Bytes of a source slot (R173) and of an analysis slot (Table 9-1). -/
def srcSlotSize (p : Params) : Nat := nitinolSize p.chroma p.maxW p.maxH
def anaSlotSize (p : Params) : Nat :=
  up4k (roundUp (ceilDiv p.maxW 4) 256 * ceilDiv p.maxH 4) + up4k (roundUp (ceilDiv p.maxW 16) 256 * ceilDiv p.maxH 16)
    + up4k (ceilDiv p.maxW 16 * ceilDiv p.maxH 16 * 16) + 4096

/-- The ranges that the units of a coded picture ask for: those of its entry, the source picture apart. -/
def encAsks (p : Params) (e : QEntry) (n : Nat) : List Ask :=
  if p.srcMode == 1 then rendAsks p (e.rendDesc n) else (entryAsks p e.raw e.blocks).filter fun a => a.1 != 0

/-- The source picture of an encode unit in device memory: a source slot, the decoded picture that a rendition reads directly, or what a
pass stored for it (R14, R172, R255). -/
def State.sourceRange (s : State) (n : Nat) (p : SrcPic) : Range :=
  match p.feed with
  | some (m, _) => if p.direct then ⟨(s.sess m).refR.base + p.slot * refSlotSize (s.sess m).par, srcSlotSize (s.sess m).par⟩ else p.store
  | none => ⟨(s.sess n).srcR.base + p.slot * srcSlotSize (s.sess n).par, srcSlotSize (s.sess n).par⟩

/-- The analysis slot that holds a picture's field and record (R219). -/
def State.fieldRange (s : State) (n : Nat) (p : SrcPic) : Range :=
  let m := (p.at_ n).1
  match s.ana? m (p.at_ n).2 with
  | some a => ⟨(s.sess m).mauR.base + a.slot * anaSlotSize (s.sess m).par, anaSlotSize (s.sess m).par⟩
  | none => ⟨0, 0⟩

/-- Windows 0 and 6 of the units of a coded picture: its source picture and its MAU field (Table 3-5). -/
def State.sourceWindows (s : State) (n : Nat) (p : SrcPic) (ws : List Window) : List Window :=
  let dev := { noWindow with space := 1, read := true }
  let a := s.sourceRange n p
  let b := s.fieldRange n p
  setWindow (setWindow ws 0 { dev with base := a.base, size := a.size, nitinol := true }) 6 { dev with base := b.base, size := b.size }

/-- The windows of the units of a coded picture (Table 3-5). -/
def State.encWindows (s : State) (n : Nat) (x : Session) (e : QEntry) (p : SrcPic) : List Window :=
  let dev := { noWindow with space := 1, read := true }
  let a := askWindows true (encAsks x.par e n)
  let b := s.sourceWindows n p a
  let c := if x.par.tpf != 0 && x.par.srcMode == 0 then setWindow b 8 { dev with base := x.srcR.base, size := x.srcR.size, nitinol := true } else b
  let d := if x.stageR.size != 0 then setWindow c 4 { dev with base := x.stageR.base, size := x.stageR.size, read := true, write := true } else c
  setWindow (refWindows x 0 d) 15 (s.ctxWindow n)

/-- Segment units of a coded picture, from number `i` and first CTU `c`. -/
def encSegUnits (u : WUnit) (x : Session) (fused : Bool) (w h : Nat) : Nat → Nat → List SegRect → List WUnit
  | _, _, [] => []
  | i, c, g :: gs =>
    let ctu := encCtu x.par.codec
    let luma := SegRect.luma g ctu
    { u.costed (encSegEst x.par 600 luma 0 x.estCorr) (encSegEst x.par 600 luma 0 256)
        (budgetOf 4 (samplesOf x.par.chroma luma) luma (x.byteCap u.pic i fused) (levelCeiling x.par.level)) with
      kind := .segment, seg := i, first := c, ctus := SegRect.ctus g, cols := g.2.1 - g.1, row0 := g.2.2.1, rows := ceilDiv h ctu, samples := samplesOf x.par.chroma luma, luma := luma } ::
      encSegUnits u x fused w h (i + 1) (c + SegRect.ctus g) gs

/-- The units of a coded picture: fused where it has one segment (R48, R183). -/
def encPicUnits (u : WUnit) (x : Session) (w h : Nat) : List WUnit :=
  let gs := encSegs x.par x.estCorr w h
  let hdr := 4 * x.prevHdr
  let level := levelCeiling x.par.level
  if gs.length ≤ 1 then
    (encSegUnits u x true w h 0 0 gs).map fun v =>
      { v with kind := .fused, cost := v.cost + per15 (4200 + hdr), estRaw := v.estRaw + 4200 + hdr }
  else
    let edge := encEdge x.par x.estCorr w h
    { u.costed (3600 + hdr) (3600 + hdr) 16384 with kind := .start } ::
      (encSegUnits u x false w h 0 0 gs ++
        [{ u.costed (1000 + ceilDiv edge 8) (1000 + ceilDiv edge 8) (budgetOf 4 edge 0 0 level) with
            kind := .finish, seg := gs.length, samples := edge }])

/-- Units of the session's open picture that have committed do not run again (R516). -/
def dropDone (x : Session) (pic : Nat) (us : List WUnit) : List WUnit :=
  match x.results.find? fun r => r.pic == pic && r.started with
  | some r => us.filter fun u => u.kind == .finish || u.kind == .fused || u.skips || (u.kind == .segment && !r.segs.contains u.seg)
  | none => us

/-- The unit that shows a hidden frame (R181). -/
def showUnit (u : WUnit) (x : Session) : WUnit :=
  { u.costed (3600 + 4 * x.prevHdr) (3600 + 4 * x.prevHdr) 16384 with kind := .fused, show_ := true }

/-- The units of one source picture that has its place in coding order. -/
def State.unitsOf (s : State) (n : Nat) (e : QEntry) (q : Nat) (p : SrcPic) : List WUnit :=
  let x := s.sess n
  let k := if x.par.srcMode == 1 then some ((e.rends.map RendRes.session).idxOf n) else none
  let u := { blankUnit q e.seq n x.fn x.par.cls .start with
    pic := p.index, rend := k, windows := s.encWindows n x e p, ord := 2 * p.codedIx.getD 0 }
  (if p.hidden_ then [] else dropDone x p.index (encPicUnits u x p.width p.height))
    ++ (if p.hiddenWith then [{ showUnit u x with ord := p.showOrd }] else [])

/-- The units of a picture are queued, unless its entry is gone. -/
def State.queuePic (s : State) (n : Nat) (p : SrcPic) : State :=
  match (s.queue p.entryQ).entry? p.entrySeq with
  | some e =>
    if e.stage == .running && p.failed == 0 then
      let t := if e.op == 2 then s.modEntry p.entryQ e.seq fun f => { f with codedIx := p.codedIx.getD 0 } else s
      forEach (t.unitsOf n e p.entryQ p) (fun u t => t.addUnit u) t
    else s
  | none => s

/-! ### Decisions (R180) -/

/-- FORCE_KEY, KEY_PERIOD, a size change or KEY_FOLLOW makes the picture a key picture (R180, Table 7-7 KEY_FORCED); what makes one of a
ladder's pictures a key picture is what did so for rendition 0 (R188). -/
def Session.keyForced (x : Session) (p : SrcPic) : Bool :=
  if p.lead.isSome then p.forceKey
  else p.forceKey || p.sizeKey || p.followKey || (!x.gopPar.refresh && x.gopPar.keyPeriod != 0 && p.index % x.gopPar.keyPeriod == 0)

/-- What rendition 0 decides for a picture reaches the other renditions, with its reason (R188). -/
def State.tellRends (s : State) (n : Nat) (p : SrcPic) (key : Bool) : State :=
  let cut := key && s.cutKey n p
  let forced := key && (s.sess n).keyForced p
  let tell := fun r : SrcPic => if r.lead == some (n, p.index) then { r with ruled := some key, keyScene := cut, forceKey := forced } else r
  forEach ((tblKeys s.sessions).filter fun m => (s.sess m).src.any fun r => r.lead == some (n, p.index)) (fun m t =>
    t.modSess m fun x => { x with src := x.src.map tell }) s

/-- The decision on a placed picture of rendition 0, told as `s` had it. -/
def State.tellPlaced (t s : State) (n : Nat) (c : Coded) : State :=
  match (s.sess n).pic? c.index with
  | some p => t.tellRends n p (c.kind == 0)
  | none => t

/-- A picture takes its place in coding order. -/
def Session.place (x : Session) (c : Coded) (cut : Bool) (score : Nat) : Session :=
  { x.modPic c.index (fun p => { p with
      decided := true, key := c.kind == 0, keyScene := c.kind == 0 && cut, forceKey := c.kind == 0 && x.keyForced p, bpic := c.bpic, layer := c.layer, kind := c.kind,
      hiddenWith := c.hidden, codedIx := some x.codedNext, refs := c.refs, score := score
      band := if x.gopPar.refresh && c.kind != 0 then some x.refreshPos else none }) with
    refreshPos := if x.gopPar.refresh && c.kind != 0 then (x.refreshPos + 1) % max 1 x.par.refreshPeriod else 0
    codedNext := x.codedNext + 1, since := (c.index :: x.since).take 4 }

/-- Every picture of a decided group takes its place, and its units are queued in coding order. -/
def State.placeAll (s : State) (n : Nat) (cs : List Coded) : State :=
  let t := forEach cs (fun c t => (t.modSess n fun x =>
    match x.pic? c.index with
    | some p => x.place c (s.cutKey n p) (s.scoreOf n p)
    | none => x).tellPlaced s n c) s
  let t := forEach cs (fun c t => t.modSess n fun x => x.modPic c.index fun p => { p with showOrd := 2 * x.codedNext - 1 }) t
  forEach cs (fun c u =>
    match (u.sess n).pic? c.index with
    | some p => u.queuePic n p
    | none => u) t

/-- A key picture alone: it begins a new mini-GOP and a new refresh sweep (R180, R182). -/
def State.placeKey (s : State) (n : Nat) (p : SrcPic) : State :=
  let t := s.modSess n fun x => { x with since := [], anchor := some p.index, refreshPos := 0 }
  t.placeAll n [{ index := p.index, kind := 0, layer := 0, bpic := false, refs := [], hidden := false }]

/-- A mini-GOP of inter pictures; `full` says it has its whole length (R179, R181). -/
def State.placeGop (s : State) (n : Nat) (ps : List SrcPic) (full : Bool) : State :=
  let x := s.sess n
  let is := ps.map SrcPic.index
  let cs := gopStructure x.par x.gopPar (x.anchor.getD 0) x.since is full
  let t := s.placeAll n cs
  t.modSess n fun y => { y with anchor := some (is.getLastD (x.anchor.getD 0)) }

/-- The pictures up to the first at which a flush ends the mini-GOP. -/
def State.cutAtFlush (s : State) (n : Nat) : List SrcPic → List SrcPic
  | [] => []
  | p :: ps => if s.flushEnds n p then [p] else p :: s.cutAtFlush n ps

/-- Pictures of a session that wait for their decision, in display order. -/
def Session.undecided (x : Session) : List SrcPic := x.src.filter fun p => !p.decided

/-- The next decision of a session, if one can be made: its first picture alone (Table 7-2), otherwise, once the MAU has analysed a whole
mini-GOP or a flush ends it, a key picture that comes first, or the mini-GOP up to its first key picture (R180). -/
def State.decideOne (s : State) (n : Nat) : Option State :=
  match (s.sess n).undecided with
  | [] => none
  | p :: ps =>
    if !s.analysed n p || s.leadOpen p then none
    else if (s.sess n).anchor.isNone && s.isKey n p then some (s.placeKey n p)
    else
      let m := (s.sess n).gopPar.gopLen
      let g := s.cutAtFlush n ((p :: ps).take m)
      if (g.length == m || g.getLast?.any fun l => s.flushEnds n l) && g.all fun r => s.analysed n r && !s.leadOpen r then
        let body := g.takeWhile fun r => !s.isKey n r
        some (if body.isEmpty then s.placeKey n p else s.placeGop n body (body.length == m))
      else none

/-- Every decision of a session that can be made now. -/
def State.decideAll (n : Nat) : Nat → State → State
  | 0, s => s
  | fuel + 1, s =>
    match s.decideOne n with
    | some t => State.decideAll n fuel t
    | none => s

/-- A session decides what it can. -/
def State.advance (s : State) (n : Nat) : State := State.decideAll n ((s.sess n).src.length + 1) s

/-- Sessions that code pictures of session `m`, itself included, in rising order. -/
def State.followers (s : State) (m : Nat) : List Nat :=
  (tblKeys s.sessions).filter fun n => n == m || (s.sess n).src.any fun p => p.feed.any fun f => f.1 == m

/-- Rendition 0's decisions free the other renditions': each session decides twice over. -/
def State.advanceAll (s : State) (m : Nat) : State :=
  let ns := s.followers m
  forEach ns (fun n t => t.advance n) (forEach ns (fun n t => t.advance n) s)

/-! ### Fields in analysis slots (R219, R225, R226, Table 9-1) -/

/-- Byte runs written from a base address. -/
def State.writeRuns (s : State) (base : Nat) (rs : List (Nat × List Byte)) : State :=
  forEach rs (fun r t => t.devWrite (base + r.1) r.2) s

/-- Where the field of an analysis slot begins, and its record. -/
def fieldOffset (p : Params) : Nat :=
  up4k (roundUp (ceilDiv p.maxW 4) 256 * ceilDiv p.maxH 4) + up4k (roundUp (ceilDiv p.maxW 16) 256 * ceilDiv p.maxH 16)
def recordOffset (p : Params) : Nat := fieldOffset p + up4k (ceilDiv p.maxW 16 * ceilDiv p.maxH 16 * 16)

/-- The field of a picture as its rows stand in its slot (R225). -/
def fieldRuns (p : Params) (a : AnaPic) : List (Nat × List Byte) :=
  let cw := ceilDiv a.width 16
  (List.range (ceilDiv a.height 16)).map fun y =>
    (fieldOffset p + y * ceilDiv p.maxW 16 * 16, ((a.field.drop (y * cw)).take cw).flatMap MauBlock.bytes)

/-- A picture's field and record are written to its slot. -/
def State.storeField (s : State) (n : Nat) (a : AnaPic) : State :=
  let x := s.sess n
  s.writeRuns (x.mauR.base + a.slot * anaSlotSize x.par) (fieldRuns x.par a ++ [(recordOffset x.par, a.record)])

/-! ### Flushes as they are fetched (R177, R224) -/

/-- Fetching a FLUSH_SESSION closes the forward direction of the session's last complete picture, and of an encode session
makes every picture before display index `k` codeable (R175, R177, R180, R224). -/
def State.flushFetched (s : State) (n k : Nat) : State :=
  let open_ := (s.sess n).ana.filter fun a => a.complete && !a.final
  let t := s.modSess n fun x => { x with
    flushes := if x.par.encode then x.flushes ++ [k] else x.flushes
    ana := x.ana.map fun a => if a.complete && !a.final then { a with final := true, flushed := true } else a }
  let v := forEach open_ (fun a z => z.storeField n { a with final := true, flushed := true }) t
  (v.settleAnalysis n).advanceAll n

/-- A FLUSH_SESSION fetched before picture `ix` of session `n` was complete closes its forward direction (R224; log entry 87). -/
def State.flushCloses (s : State) (n ix : Nat) : Bool :=
  (s.sess n).flushes.any (fun k => decide (ix < k))
    || (!(s.sess n).par.encode && s.dsc.units.any fun u => u.session == n && u.kind == .release)

/-! ### Units of the MAU (R221, R233) -/

/-- 1.2 cycles per nanosecond: ceil(n ÷ 1.2). -/
def per12 (n : Nat) : Nat := ceilDiv (5 * n) 6

/-- Blocks of a picture. -/
def blocksOf (w h : Nat) : Nat := ceilDiv w 16 * ceilDiv h 16

/-- The MAU unit of a picture; `fwd` says a forward pass is foreseen (R233). -/
def mauUnit (u : WUnit) (pic w h : Nat) (fwd : Bool) : WUnit :=
  { u with kind := .mau, pic := pic, luma := blocksOf w h, cost := per12 (blocksOf w h * (if fwd then 24 else 16)) }

/-- The unit that runs on MAU engine `e`. -/
def State.mauUnit? (s : State) (e : Nat) : Option WUnit :=
  let k := tblGet 0 s.mau.units e
  if k == 0 then none else (s.unit? (k - 1)).filter fun u => u.kind == .mau && u.stage == .running e

/-- The backward direction of a picture exists: the picture before it was analysed, and has the same size (R225). -/
def Session.hasBack (x : Session) (ix w h : Nat) : Bool := ix != 0 && x.anaNext == ix && x.anaSize == (w, h)

/-- The picture before, where its forward direction is searched in picture `ix`: LOOKAHEAD is at least 1, it has the same size, and no
flush has closed it (R221 pass 3). -/
def Session.forwardOf (x : Session) (ix w h : Nat) : Option AnaPic :=
  if x.par.lookahead == 0 || !x.hasBack ix w h then none else x.ana.find? fun a => a.index + 1 == ix && !a.flushed

/-- The unit has written its quarter and sixteenth planes: its first pass of 8 cycles a block is over (R221, R233). -/
def WUnit.planesDone (u : WUnit) (now : Nat) : Bool := u.active && decide (u.runT + per12 (8 * u.luma) ≤ now)

/-! ### Slots (R173, R219, R220) -/

/-- SRC_SLOTS (R173). -/
def srcSlots (p : Params) : Nat := p.lookahead + p.minigop + (if p.tpf == 0 then 0 else 2)

/-- Analysis slots of a session (R219). -/
def anaSlots (p : Params) : Nat :=
  if p.encode then (if p.srcMode == 0 then p.lookahead + p.minigop + 2 else 0) else if p.mauEn then p.lookahead + 18 else 0

/-- The lowest slot below `k` that is not in use. -/
def lowestFree (used : List Nat) (k : Nat) : Option Nat := (List.range k).find? fun i => !used.contains i

/-- Source slots of a session in use: of pictures taken in, and of intakes that execute (R173). -/
def State.sourceSlots (s : State) (n : Nat) : List Nat :=
  ((s.sess n).src.filter SrcPic.taken).map SrcPic.slot ++ (s.dsc.units.filter fun u => u.session == n && u.kind == .mau && u.active).map WUnit.slot

/-- An encode unit, a plan or a pre-filter pass still reads the analysis of picture `ix` of session `m` (R220). -/
def State.anaRead (s : State) (m ix : Nat) : Bool :=
  (tblKeys s.sessions).any fun n =>
    let reach := if (s.sess n).par.tpf == 0 then 0 else 2
    (s.sess n).src.any fun p => !(p.coded || p.hidden_) && (p.at_ n).1 == m && decide (ix ≤ (p.at_ n).2 + reach) && decide ((p.at_ n).2 ≤ ix + reach)

/-- Analysis slots that nothing needs any longer are released (R220). -/
def State.pruneAna (s : State) (m : Nat) : State :=
  s.modSess m fun x => { x with ana := x.ana.filter fun a =>
    !(a.complete && (a.flushed || x.ana.any fun b => b.complete && decide (a.index < b.index)) && !s.anaRead m a.index) }

/-- Coded pictures whose reference slots are still held: those being coded, those that a picture still to be coded refers to, and those
that pictures not yet decided may refer to (R16, R179). -/
def Session.liveRecons (x : Session) : List (Nat × Nat) :=
  x.recons.filter fun r => x.anchor == some r.1 || (x.since.take (refCount x.par.preset)).contains r.1
    || x.src.any fun p => !p.coded && (p.index == r.1 || p.refs.contains r.1)

/-- Source pictures that are coded and that no pre-filter reads any longer are released (R186, Table 7-2). -/
def Session.pruneSrc (x : Session) : Session :=
  { x with recons := x.liveRecons, src := x.src.filter fun p =>
      !p.coded || (x.par.tpf != 0 && x.src.any fun r => !r.coded && decide (r.index ≤ p.index + 2) && decide (p.index ≤ r.index + 2)) }

end Sys2Proof.Machine
end

