-- ==== Sys2Proof/Machine/Safe.lean ====
section
/-! DEFINITION. The safe state, ALIVE and the alert pin, and what becomes of lost lines (19_faults_recovery.md). -/
namespace Sys2Proof.Machine

/-! ### Alert and ALIVE (R446, R507) -/

/-- The condition of TGT_ALERT_N (R507). -/
def State.alerting (s : State) : Bool :=
  (s.boot.therm.any fun p => decide (p.2.1 ≥ 100)) || s.fcl.safe != 0 || s.fcl.aliveStopped

/-- TGT_ALERT_N follows its condition; its beginning is told in-band (R507). -/
def State.settleAlert (s : State) : State :=
  let now := s.alerting
  let t := s.modPins fun p => { p with tgtAlert := now }
  if now && !s.pins.tgtAlert then t.emit .ibi else t

/-- ALIVE is driven low (R446). -/
def State.stopAlive (s : State) : State :=
  ((s.modFcl fun f => { f with aliveStopped := true }).modPins fun p => { p with alive := false }).settleAlert

/-! ### Every unit stops (Tables 19-8 and 22-8) -/

/-- A half's working state is discarded. -/
def haltHalf (h : Half) : Half :=
  { h with unit := none, waiting := false, waitCycles := 0, sent := [], reqs := [], rowQp := none, qps := [], forced := none, rowWait := false,
           fifo := Fifo.init, bank0 := .empty, bank1 := .empty }

/-- A unit that executed or was hinted stands queued again; nothing of it commits. -/
def haltUnit (u : WUnit) : WUnit := { u with stage := .queued, cycles := 0, written := 0, aborted := false, lines := [] }

/-- A trained channel stops granting and enters self-refresh (R419). -/
def haltChn (c : Chn) : Chn :=
  if c.state == 0 || c.state == 5 then c else { c with state := 4, queue := [], waitTill := [], grant := none, inOrder := [], drain := false }

/-- Working state is discarded as at a machine check, the mover's bursts are abandoned, and the DRAM refreshes itself
(Table 19-8). -/
def State.haltAll (s : State) : State :=
  let t := { s with
    halves := s.halves.map (fun p : Nat × Half => (p.1, haltHalf p.2))
    mem := { s.mem with chans := forUpTo 16 (fun k t => tblMod Chn.init t k haltChn) s.mem.chans } }
  (((((t.modDsc fun d => { d with units := d.units.map haltUnit, inflight := [] }).modMau fun m =>
    { m with units := [] }).modPcf fun m => { m with units := [] }).modRcu fun r =>
    { r with rows := [], plans := [], busy := false }).modDmv fun d =>
    { d with slots := [], copies := [], demand := [], demandRd := [] })

/-- Entry to the safe state with FCL_SAFE.CAUSE; a fault during it changes nothing (R437, R444). -/
def State.enterSafe (s : State) (cause : Nat) : State :=
  if s.fcl.inSafe then s
  else ((s.haltAll.modFcl fun f => { f with inSafe := true, safe := cause }).stopAlive)

/-! ### Sessions and pools that a line belongs to (Table 19-7) -/

/-- The line lies in the range. -/
def Range.holds (r : Range) (l : Nat) : Bool := decide (r.base ≤ l) && decide (l < r.base + r.size)

/-- The line lies in a reservation of the session. -/
def Session.holds (x : Session) (l : Nat) : Bool :=
  x.state != .free && ((x.refR.holds l || x.srcR.holds l || x.stageR.holds l || x.mauR.holds l) || (x.oldR ++ x.nextR).any fun r => r.holds l)

/-- Sessions whose reservations hold the line. -/
def State.sessionsAt (s : State) (l : Nat) : List Nat := (tblKeys s.sessions).filter fun n => (s.sess n).holds l

/-- Size of a pool's free ring in slots: COUNT rounded up to a power of two (R351). -/
def Pool.ringSize (p : Pool) : Nat := 2 ^ clog2 p.count

/-- Address of the free ring (R351). -/
def Pool.ringBase (p : Pool) : Nat := p.base + p.count * 2 ^ p.bufLog

/-- Address of the owner table (R351). -/
def Pool.ownerBase (p : Pool) : Nat := p.ringBase + roundUp (4 * p.ringSize) 4096

/-- End of the pool (R351). -/
def Pool.limit (p : Pool) : Nat := p.ownerBase + roundUp (2 * p.count) 4096

/-- Buffers whose owner entries a line holds. -/
def Pool.ownersAt (p : Pool) (l : Nat) : List Nat :=
  if p.ownerBase ≤ l ∧ l < p.limit then
    (List.range 32).map (fun i => (l - p.ownerBase) / 2 + i) |>.filter fun i => decide (i < p.count)
  else []

/-- Ring entries paired with their ring slots. -/
def Pool.slotted (p : Pool) : List (Nat × Nat) :=
  (List.range p.ring.length).zip p.ring |>.map fun x => ((p.ringPos + x.1) % p.ringSize, x.2)

/-- Buffers whose indices a line of the free ring holds. -/
def Pool.indicesAt (p : Pool) (l : Nat) : List Nat :=
  if p.ringBase ≤ l ∧ l < p.ownerBase then
    (p.slotted.filter fun x => decide ((l - p.ringBase) / 4 ≤ x.1) && decide (x.1 < (l - p.ringBase) / 4 + 16)).map Prod.snd
  else []

/-- Buffers leave the pool for good (R426, R441). -/
def Pool.bar (p : Pool) (bs : List Nat) : Pool :=
  { p with barred := p.barred ++ bs, cache := p.cache.filter fun i => !bs.contains i }

/-- A lost line of a pool's ring or owner table (Table 19-7). -/
def Pool.loseLine (l : Nat) (p : Pool) : Pool :=
  let bs := p.indicesAt l ++ p.ownersAt l
  { p.bar bs with loose := p.loose ++ bs }

/-- A line of a context slot: the header and the parameter block come back from the other slot, anything else resets the
session (Table 19-7, R443). -/
def State.loseContext (s : State) (base l : Nat) : State :=
  let n := (l - base) / 32768
  let other := base + ((l - base) ^^^ 16384)
  if (l - base) % 16384 < 1024 && !s.poisoned other 64 then s.memWrite l (s.memRead other 64)
  else s.faultReset n [l]

/-- One session of a lost directory line: VSEL 0, every STALE bit set, SESSION_RESET where its header shows it exists. -/
def State.rebuildSession (s : State) (n : Nat) : State :=
  if (s.sess n).state == .free then s
  else ((s.faultReset n []).modSess n fun x => { x with vsel := false, stale := BitVec.allOnes 48 }).writeDir n

/-- A lost line, handled according to the region that holds it (R441, Table 19-7): 1 context store, 2 session directory,
3 and 4 session reservations, 5 pools. Driver-owned data and host-owned ranges stay poisoned. -/
def State.loseLine (s : State) (a : Nat) : State :=
  let l := lineOf a
  match s.regionOf l 64 with
  | none => s
  | some r =>
    if r.kind == 1 then s.loseContext r.base l
    else if r.kind == 2 then
      (forUpTo 8 (fun i t => t.rebuildSession ((l - r.base) / 8 + i)) s).modMem fun m => { m with poison := tblSet false m.poison l false }
    else if r.kind == 5 then forEach (tblKeys s.bpm.pools) (fun p t => t.modPool p (Pool.loseLine l)) s
    else forEach (s.sessionsAt l) (fun n t => t.faultReset n [l]) s

/-! ### Capacity events (R429) -/

/-- A CAPACITY event to PF0's ring, and the record beside it. -/
def State.capacity (s : State) (ch cause arg : Nat) : State :=
  (s.event 0 0x07 none cause 0 0 0 arg).report 0x0A (0xB0 + ch) none none cause 0 0

end Sys2Proof.Machine
end

