-- ==== Sys2Proof/Machine/Tiles.lean ====
section
/-! DEFINITION. PF_NITINOL tiles: their places, the codec, and the engines that read and write them (10_picture_formats.md). -/
namespace Sys2Proof.Machine

/-! ### The codec (R241 to R246) -/

/-- Width of a component of a tile in samples: 32 for luma, 16 for chroma. -/
def tileWidth (chroma : Bool) : Nat := if chroma then 16 else 32

/-- Number of sample `k` within its component (R241). -/
def inComp (chroma : Bool) (k : Nat) : Nat := if chroma then k % 128 else k

/-- Place of sample `k` in the order of the residuals: group by group, in raster order within a group (R244). -/
def streamPos (chroma : Bool) (k : Nat) : Nat :=
  let w := tileWidth chroma
  let x := inComp chroma k % w
  let y := inComp chroma k / w
  16 * ((if chroma then 8 * (k / 128) else 0) + w / 4 * (y / 4) + x / 4) + (y % 4 * 4 + x % 4)

/-- The sample at place `p` of the residuals. -/
def streamIx (chroma : Bool) (p : Nat) : Nat :=
  let g := p / 16
  let i := p % 16
  if chroma then 128 * (g / 8) + 16 * (4 * (g % 8 / 4) + i / 4) + 4 * (g % 4) + i % 4
  else 32 * (4 * (g / 8) + i / 4) + 4 * (g % 8) + i % 4

/-- The prediction of sample `k` from those before it, in the domain of `n` bits (R245). -/
def predict (chroma : Bool) (n : Nat) (us : List Nat) (k : Nat) : Nat :=
  let w := tileWidth chroma
  let x := inComp chroma k % w
  let y := inComp chroma k / w
  let a := us.getD (k - 1) 0
  let b := us.getD (k - w) 0
  let c := us.getD (k - w - 1) 0
  if x = 0 ∧ y = 0 then 2 ^ (n - 1)
  else if y = 0 then a
  else if x = 0 then b
  else if max a b ≤ c then min a b
  else if c ≤ min a b then max a b
  else a + b - c

/-- The residual of value `u` against prediction `p`, as its `n`-bit two's complement form (R245). -/
def residual (n u p : Nat) : Nat := (u + 2 ^ n - p % 2 ^ n) % 2 ^ n

/-- A residual in `n`-bit form fits `w` bits of two's complement. -/
def fitsBits (n w r : Nat) : Bool :=
  if w == 0 then r == 0 else decide (r < 2 ^ (w - 1)) || decide (2 ^ n - 2 ^ (w - 1) ≤ r)

/-- The least width that holds every residual of a group (R245). -/
def groupWidth (n : Nat) (rs : List Nat) : Nat := ((List.range (n + 1)).find? fun w => rs.all fun r => fitsBits n w r).getD n

/-- Fields of given widths, the first lowest. -/
def packBits : List (Nat × Nat) → Nat
  | [] => 0
  | (w, v) :: t => v % 2 ^ w + 2 ^ w * packBits t

/-- The fields of given widths, the first lowest. -/
def unpackBits : List Nat → Nat → List Nat
  | [], _ => []
  | w :: t, v => v % 2 ^ w :: unpackBits t (v / 2 ^ w)

/-- SHIFT: the largest `s` up to 4 whose low bits are 0 in every sample (R244). -/
def tileShift (ss : List Nat) : Nat := ([4, 3, 2, 1].find? fun k => ss.all fun v => v % 2 ^ k == 0).getD 0

/-- The residuals of a tile's shifted values in stream order. -/
def tileResiduals (chroma : Bool) (n : Nat) (us : List Nat) : List Nat :=
  (List.range 256).map fun p => let k := streamIx chroma p; residual n (us.getD k 0) (predict chroma n us k)

/-- Residuals of group `g`. -/
def groupOf (rs : List Nat) (g : Nat) : List Nat := (rs.drop (16 * g)).take 16

/-- The widths of the 16 groups. -/
def tileWidths (n : Nat) (rs : List Nat) : List Nat := (List.range 16).map fun g => groupWidth n (groupOf rs g)

/-- Length of the compressed form in bytes (R244). -/
def tileLength (ws : List Nat) : Nat := 9 + 2 * ws.foldl (· + ·) 0

/-- The widths of all 256 residuals. -/
def residualWidths (ws : List Nat) : List Nat := (List.range 256).map fun p => ws.getD (p / 16) 0

/-- The compressed form as one little-endian number: preamble, width codes, residuals (R244). -/
def compressed (shift : Nat) (ws rs : List Nat) : Nat :=
  shift + 2 ^ 8 * packBits (ws.map fun w => (4, w)) + 2 ^ 72 * packBits ((residualWidths ws).zip rs)

/-- A tile as stored: its header byte and the bytes of its granules (R243). -/
def encodeTile (chroma : Bool) (ss : List Nat) : Nat × List Byte :=
  let v := ss.getD 0 0
  if ss.all (fun x => x == v) && v % 128 == 0 then (v / 128 * 8, [])
  else
    let shift := tileShift ss
    let n := 12 - shift
    let rs := tileResiduals chroma n (ss.map fun x => x / 2 ^ shift)
    let ws := tileWidths n rs
    if tileLength ws ≤ 320 then (ceilDiv (tileLength ws) 64, leBytes (64 * ceilDiv (tileLength ws) 64) (compressed shift ws rs))
    else (6, leBytes 384 (packBits (ss.map fun x => (12, x))))

/-- A residual of `w` bits extended to `n`. -/
def extendBits (n w r : Nat) : Nat := if w != 0 && decide (2 ^ (w - 1) ≤ r) then r + 2 ^ n - 2 ^ w else r

/-- The values of a tile from its residuals, in raster order (R245). -/
def rebuild (chroma : Bool) (n : Nat) (rs : List Nat) : Nat → List Nat
  | 0 => []
  | k + 1 =>
    let us := rebuild chroma n rs k
    us ++ [(predict chroma n us k + rs.getD (streamPos chroma k) 0) % 2 ^ n]

/-- Expansion of a stored tile: none where it is invalid (R246). -/
def decodeTile (chroma : Bool) (header : Nat) (bs : List Byte) : Option (List Nat) :=
  let size := header % 8
  let const := header / 8 % 32
  if size = 0 then some (List.replicate 256 (const * 128))
  else if size = 7 ∨ const ≠ 0 then none
  else if size = 6 then some (unpackBits (List.replicate 256 12) (leNat (bs.take 384)))
  else
    let v := leNat (bs.take (64 * size))
    let shift := v % 8
    let n := 12 - shift
    let ws := unpackBits (List.replicate 16 4) (v / 2 ^ 8)
    if v % 256 / 8 ≠ 0 ∨ 4 < shift ∨ ws.any (fun w => decide (n < w)) ∨ 64 * size < tileLength ws then none
    else
      let rs := unpackBits (residualWidths ws) (v / 2 ^ 72)
      some ((rebuild chroma n (((residualWidths ws).zip rs).map fun p => extendBits n p.1 p.2) 256).map fun u => u * 2 ^ shift)

/-! ### Places (R240, R247) -/

/-- Luma tiles per row and rows, chroma tiles per row and rows of a tile's picture. -/
def refCounts (t : TileRef) : Nat × Nat × Nat × Nat := tileCounts t.chroma t.width t.height

/-- Number of the tile in its plane. -/
def refNumber (t : TileRef) : Nat := t.ty * (if t.isChroma then (refCounts t).2.2.1 else (refCounts t).1) + t.tx

/-- Address of the tile's 384 bytes. -/
def refAddr (t : TileRef) : Nat :=
  t.base + (if t.isChroma then up4k ((refCounts t).1 * (refCounts t).2.1 * 384) else 0) + (refNumber t) * 384

/-- Address of the tile's header byte. -/
def refHeader (t : TileRef) : Nat :=
  t.base + up4k ((refCounts t).1 * (refCounts t).2.1 * 384) + up4k ((refCounts t).2.2.1 * (refCounts t).2.2.2 * 384)
    + (if t.isChroma then (refCounts t).1 * (refCounts t).2.1 else 0) + (refNumber t)

/-- The engine of a tile (R247). -/
def refEngine (t : TileRef) : Nat := fld (refHeader t) 6 5

/-- The tile lies in its picture. -/
def refValid (t : TileRef) : Bool :=
  if t.isChroma then decide (t.tx < (refCounts t).2.2.1) && decide (t.ty < (refCounts t).2.2.2)
  else decide (t.tx < (refCounts t).1) && decide (t.ty < (refCounts t).2.1)

/-! ### Engines (R248) -/

/-- Entries of an engine's merge buffer. -/
def State.mergeBuf (s : State) (e : Nat) : List MergeEnt := tblGet [] s.ntl.merge e

/-- A merge buffer with other entries. -/
def State.setMerge (s : State) (e : Nat) (ms : List MergeEnt) : State :=
  s.modNtl fun k => { k with merge := tblSet [] k.merge e ms }

/-- Clusters in which a half runs a unit that reconstructs into the slot that holds an address: what it writes updates their copies in
place (R71). -/
def State.writers (s : State) (a : Nat) : List Nat :=
  (s.dsc.units.filterMap fun u => match u.stage with
    | .running h => (fun w : Window => if u.kind.onCore && w.size != 0 && decide (w.base ≤ a) && decide (a < w.base + w.size) then some (h / 16) else none)
        (u.windows.getD 3 noWindow)
    | _ => none).eraseDups

/-- Copies of the written lines that some clusters held stand, with the new bytes (R71). -/
def State.keepCopies (s old : State) (cs ls : List Nat) : State :=
  forEach cs (fun c t => t.modCluster c fun k => (ls.filter (old.cluster c).holds).foldl (fun k l => fillGranule l k) k) s

/-- A tile is stored: data first, then its header byte (R248). -/
def State.storeTile (s : State) (t : TileRef) (ss : List Nat) : State :=
  let r := encodeTile t.isChroma ss
  let u := if r.2.isEmpty then s else (s.devWrite (refAddr t) r.2).keepCopies s (s.writers t.base) (linesOf (refAddr t) 384)
  (u.devWrite (refHeader t) [BitVec.ofNat 8 r.1]).modNtl fun k =>
    { k with tiles := (List.range 7).map fun i => if i == r.1 % 8 then sat64 (k.tiles.getD i 0) 1 else k.tiles.getD i 0 }

/-- The samples of a stored tile; none where it is invalid, poisoned granules included (R246). -/
def State.tileAt (s : State) (t : TileRef) : Option (List Nat) :=
  let h := (s.byteAt (refHeader t)).toNat
  if s.poisoned (refHeader t) 1 || (h % 8 != 0 && s.poisoned (refAddr t) (64 * min 6 (h % 8))) then none
  else decodeTile t.isChroma h (s.memRead (refAddr t) 384)

/-- An invalid tile is counted and recorded (R246, Table 19-2). -/
def State.invalidTile (s : State) (t : TileRef) : State :=
  (s.modNtl fun k => { k with invalid := sat32 k.invalid 1 }).report 0x09 (0xC0 + (refEngine t)) none none 0 0 (refAddr t)

/-- Samples written over others, a later write standing (R248). -/
def overlay (ss : List Nat) (ws : List (Nat × Nat)) : List Nat :=
  ws.foldl (fun us (p : Nat × Nat) => us.set p.1 (p.2 % 4096)) ss

/-- A merge-buffer entry is merged over its stored tile and leaves the buffer (R248). -/
def State.mergeTile (s : State) (m : MergeEnt) : State :=
  let e := (refEngine m.tile)
  let u := s.setMerge e ((s.mergeBuf e).filter fun k => k.tile != m.tile)
  let v := u.modNtl fun k => { k with merges := sat64 k.merges 1 }
  match v.tileAt m.tile with
  | some ss => v.storeTile m.tile (overlay ss m.samples)
  | none => (v.invalidTile m.tile).storeTile m.tile (overlay (List.replicate 256 2048) m.samples)

/-- Every sample number is present. -/
def allPresent (ws : List (Nat × Nat)) : Bool := (List.range 256).all fun i => ws.any fun p => p.1 == i

/-- A write to a tile (R248): with all samples it is stored at once; otherwise it joins the 16-entry merge buffer, whose
oldest entry gives way. -/
def State.writeTile (s : State) (t : TileRef) (ws : List (Nat × Nat)) : State :=
  let e := (refEngine t)
  let buf := s.mergeBuf e
  let old := match buf.find? fun k => k.tile == t with
    | some k => k.samples
    | none => []
  let all := old ++ ws
  if allPresent all then (s.setMerge e (buf.filter fun k => k.tile != t)).storeTile t (overlay (List.replicate 256 0) all)
  else if buf.any fun k => k.tile == t then
    s.setMerge e (buf.map fun k => if k.tile == t then { k with samples := all } else k)
  else
    let u := if 16 ≤ buf.length then
        match buf.head? with
        | some k => s.mergeTile k
        | none => s
      else s
    u.setMerge e (u.mergeBuf e ++ [{ tile := t, samples := all }])

/-- The samples that a read of a tile delivers, merge buffer included; none where it is invalid (R246, R248). -/
def State.readTile (s : State) (t : TileRef) : Option (List Nat) :=
  (s.tileAt t).map fun ss =>
    match (s.mergeBuf (refEngine t)).find? fun k => k.tile == t with
    | some k => overlay ss k.samples
    | none => ss

/-- A tile address that the spec says does not exist (R399). -/
def State.noTile (s : State) (t : TileRef) : Bool := decide (s.memSize ≤ max ((refAddr t) + 383) (refHeader t))

/-! ### Commands -/

/-- A tile command: on the tile of an existing address, while the fabric runs. -/
def State.onTile (s : State) (t : TileRef) (f : State → State) : Res :=
  if s.up && (refValid t) then (if s.noTile t then .fault (.noSuchAddress (max ((refAddr t) + 383) (refHeader t))) else .next (f s)) else .next s

/-- Samples as delivered: 16 bits each, a poisoned tile as 2,048 throughout (R246). -/
def deliver (ss : List Nat) : List Byte := ss.flatMap fun v => leBytes 2 v

/-- A read meets an invalid tile: it is counted and recorded, and what its region has lost follows (R246, R441). -/
def State.loseTile (s : State) (t : TileRef) : State := (s.invalidTile t).loseLine (refAddr t)

def tileReadOp (t : TileRef) (s : State) : State :=
  match s.readTile t with
  | some ss => s.emit (.readData (deliver ss))
  | none => (s.loseTile t).emit (.readData (deliver (List.replicate 256 2048)))

def tileMergeOp (t : TileRef) (s : State) : State :=
  match (s.mergeBuf (refEngine t)).find? fun k => k.tile == t with
  | some k => s.mergeTile k
  | none => s

def execTileWrite (t : TileRef) (samples : List (Nat × Nat)) (s : State) : Res :=
  s.onTile t fun u => if samples.all fun p => decide (p.1 < 256) then u.writeTile t samples else u

def execTileRead (t : TileRef) (s : State) : Res := s.onTile t (tileReadOp t)

def execTileMerge (t : TileRef) (s : State) : Res := s.onTile t (tileMergeOp t)

/-! ### Whole pictures -/

/-- A sample of a plane, the nearest inside it where the place lies beyond (R241). -/
def planeAt (p : Plane) (x y : Nat) : Nat :=
  let row := p.getD (min y (p.length - 1)) []
  row.getD (min x (row.length - 1)) 0

/-- The samples of one tile of a picture given as planes. -/
def tileOf (planes : List Plane) (isChroma : Bool) (tx ty : Nat) : List Nat :=
  (List.range 256).map fun k =>
    if isChroma then
      let j := k % 128
      planeAt (planes.getD (1 + k / 128) []) (16 * tx + j % 16) (8 * ty + j / 16)
    else planeAt (planes.getD 0 []) (32 * tx + k % 32) (8 * ty + k / 32)

/-- A tile written with all its samples: what its engine held of it earlier gives way (R248). -/
def State.replaceTile (s : State) (t : TileRef) (ss : List Nat) : State :=
  (s.setMerge (refEngine t) ((s.mergeBuf (refEngine t)).filter fun k => k.tile != t)).storeTile t ss

/-- A whole picture stored in PF_NITINOL form at a base address (R240). -/
def State.storePicture (s : State) (base chroma w h : Nat) (planes : List Plane) : State :=
  let ref : TileRef := { base := base, width := w, height := h, chroma := chroma, isChroma := false, tx := 0, ty := 0 }
  let c := (refCounts ref)
  let luma := forUpTo c.2.1 (fun ty t => forUpTo c.1 (fun tx u =>
    u.replaceTile { ref with tx := tx, ty := ty } (tileOf planes false tx ty)) t) s
  forUpTo c.2.2.2 (fun ty t => forUpTo c.2.2.1 (fun tx u =>
    u.replaceTile { ref with isChroma := true, tx := tx, ty := ty } (tileOf planes true tx ty)) t) luma

/-- The tiles of a picture in PF_NITINOL form (R240). -/
def pictureTiles (base chroma w h : Nat) : List TileRef :=
  let ref : TileRef := { base := base, width := w, height := h, chroma := chroma, isChroma := false, tx := 0, ty := 0 }
  let c := refCounts ref
  let grid := fun (k : Bool) (nx ny : Nat) => (List.range ny).flatMap fun ty => (List.range nx).map fun tx =>
    ({ ref with isChroma := k, tx := tx, ty := ty } : TileRef)
  grid false c.1 c.2.1 ++ grid true c.2.2.1 c.2.2.2

/-- The writer of a picture asks for acknowledgement: what the engines hold of its tiles is merged and stored (R45 step 2, R248). -/
def State.ackTiles (s : State) (base : Nat) : State :=
  forUpTo 32 (fun e t => forEach ((t.mergeBuf e).filter fun m => m.tile.base == base) (fun m v => v.mergeTile m) t) s

/-- The samples of every tile of a plane of a stored picture, an invalid tile as 2,048 throughout (R246). -/
def State.tilesOf (s : State) (ref : TileRef) (nx ny : Nat) : List (List (List Nat)) :=
  (List.range ny).map fun ty => (List.range nx).map fun tx => (s.readTile { ref with tx := tx, ty := ty }).getD (List.replicate 256 2048)

/-- A component of `w` by `h` samples out of tiles `tw` wide, its samples from place `off` of each tile on. -/
def fromTiles (ts : List (List (List Nat))) (tw off w h : Nat) : Plane :=
  (List.range h).map fun y => (List.range w).map fun x => ((ts.getD (y / 8) []).getD (x / tw) []).getD (off + y % 8 * tw + x % tw) 0

/-- The planes of a picture stored in PF_NITINOL form at a base address (R240). -/
def State.pictureAt (s : State) (base chroma w h : Nat) : List Plane :=
  let ref : TileRef := { base := base, width := w, height := h, chroma := chroma, isChroma := false, tx := 0, ty := 0 }
  let c := refCounts ref
  let k := s.tilesOf { ref with isChroma := true } c.2.2.1 c.2.2.2
  let z := chromaSize chroma w h
  fromTiles (s.tilesOf ref c.1 c.2.1) 32 0 w h ::
    (if chroma == 0 then [] else [fromTiles k 16 0 z.1 z.2, fromTiles k 16 128 z.1 z.2])

end Sys2Proof.Machine
end

