-- ==== Sys2Proof/Machine/Conversion.lean ====
section
/-! DEFINITION. The Pixel Conversion Fabric: what a pass checks, how renditions are grouped into passes, and the samples a pass
writes (11_pixel_conversion.md). -/
namespace Sys2Proof.Machine

/-! ### Checks and grouping (R253 to R257) -/

/-- A source or converted picture: width, height, chroma format. -/
structure PicShape where
  w      : Nat
  h      : Nat
  chroma : Nat
  deriving DecidableEq, Repr

/-- Horizontal and vertical subsampling of a chroma format. -/
def subX (chroma : Nat) : Nat := if chroma == 1 || chroma == 2 then 2 else 1
def subY (chroma : Nat) : Nat := if chroma == 1 then 2 else 1

/-- A route template of the image (R259). -/
def State.template? (s : State) (r : Nat) : Option Template := (s.img.map Image.templates).getD [] |>.find? fun t => t.id == r

/-- The front of a template: what acts before scaling (R253). -/
def Template.front (t : Template) : Bool × List Int × Bool × Bool × List Int := (t.mInEn, t.mIn, t.lutEn, t.mOutEn, t.mOut)

/-- The crop rectangle of a descriptor on a source. -/
def cropOf (d : Entry) (p : PicShape) : Nat × Nat × Nat × Nat := (odCropX d, odCropY d, odCropW d p.w, odCropH d p.h)

/-- What two outputs of one pass share (R253). -/
def sameFront (s : State) (p : PicShape) (a b : Entry) : Bool :=
  (s.template? (odRoute a)).map Template.front == (s.template? (odRoute b)).map Template.front && cropOf a p == cropOf b p
    && odLut a == odLut b

/-- DST of a descriptor, its zeros resolved against the crop (Table 11-1). -/
def dstOf (d : Entry) (p : PicShape) : Nat × Nat := (if e16 d 12 == 0 then odCropW d p.w else e16 d 12, if e16 d 14 == 0 then odCropH d p.h else e16 d 14)

/-- The active rectangle with its zeros resolved against DST. -/
def actRect (d : Entry) (p : PicShape) : Nat × Nat × Nat × Nat :=
  (odActX d, odActY d, (if e16 d 20 == 0 then (dstOf d p).1 - odActX d else e16 d 20),
   if e16 d 22 == 0 then (dstOf d p).2 - odActY d else e16 d 22)

/-- R257's conditions on an output, those of R190 on sizes and ratio included; `maxW` and `maxH` bound a rendition, and
`chroma`, `depth` are what the output must be. A width or height of 0 is resolved first (log entry 49). -/
def outputFails (t : Template) (d : Entry) (p : PicShape) (maxW maxH chroma : Nat) (depthOk : Bool) : Bool :=
  let c := cropOf d p
  let a := actRect d p
  let dst := dstOf d p
  let hx := subX p.chroma == 2 || subX t.chroma == 2
  let hy := subY p.chroma == 2 || subY t.chroma == 2
  c.2.2.1 == 0 || c.2.2.2 == 0 || decide (p.w < c.1 + c.2.2.1) || decide (p.h < c.2.1 + c.2.2.2)
    || a.2.2.1 == 0 || a.2.2.2 == 0 || decide (dst.1 < a.1 + a.2.2.1) || decide (dst.2 < a.2.1 + a.2.2.2)
    || (hx && (c.1 % 2 == 1 || c.2.2.1 % 2 == 1 || a.1 % 2 == 1 || a.2.2.1 % 2 == 1))
    || (hy && (c.2.1 % 2 == 1 || c.2.2.2 % 2 == 1 || a.2.1 % 2 == 1 || a.2.2.2 % 2 == 1))
    || decide (maxW < dst.1) || decide (maxH < dst.2) || t.chroma != chroma || !depthOk
    || decide (a.2.2.1 * 8 < c.2.2.1) || decide (8 * c.2.2.1 < a.2.2.1) || decide (a.2.2.2 * 8 < c.2.2.2) || decide (8 * c.2.2.2 < a.2.2.2)

/-- A rendition reads the decoded picture directly (R255). -/
def State.direct (s : State) (n : Nat) (p : PicShape) (depth : Nat) : Bool :=
  let d := (s.sess n).par.outDesc
  match s.template? (odRoute d) with
  | some t => !t.mInEn && !t.lutEn && !t.mOutEn && t.chroma == p.chroma && t.depth == depth && cropOf d p == (0, 0, p.w, p.h)
      && dstOf d p == (p.w, p.h) && actRect d p == (0, 0, p.w, p.h)
  | none => false

/-- A rendition's output fails (R190, R257); one that reads the decoded picture directly has no output of a pass, and only R190's
conditions bind it (R253, R255; log entry 49). -/
def State.rendFails (s : State) (n : Nat) (p : PicShape) (depth : Nat) : Bool :=
  let x := (s.sess n).par
  match s.template? (odRoute x.outDesc) with
  | some t =>
    if s.direct n p depth then decide (x.maxW < p.w) || decide (x.maxH < p.h) || t.chroma != x.chroma || t.depth != x.depthY
    else outputFails t x.outDesc p x.maxW x.maxH x.chroma (t.depth == x.depthY)
  | none => true

/-- Sets of renditions with one front, in rendition order (R254). -/
def State.frontSets (s : State) (p : PicShape) : Nat → List Nat → List (List Nat)
  | 0, _ => []
  | _, [] => []
  | fuel + 1, n :: ns =>
    let same := fun m => sameFront s p (s.sess n).par.outDesc (s.sess m).par.outDesc
    (n :: ns.filter same) :: s.frontSets p fuel (ns.filter fun m => !same m)

/-- A list in pieces of four. -/
def fours : Nat → List Nat → List (List Nat)
  | 0, _ => []
  | _, [] => []
  | fuel + 1, xs => xs.take 4 :: fours fuel (xs.drop 4)

/-- The passes of a ladder, in the order of each pass's lowest rendition (R254). -/
def State.passes (s : State) (p : PicShape) (ns : List Nat) : List (List Nat) :=
  sortBy (fun g : List Nat => (ns.idxOf (g.headD 0) : Int)) ((s.frontSets p ns.length ns).flatMap fun g => fours g.length g)

/-- Samples of an output picture. -/
def outSamples (t : Template) (dst : Nat × Nat) : Nat :=
  let c := chromaSize t.chroma dst.1 dst.2
  dst.1 * dst.2 + 2 * (c.1 * c.2)

/-- Cycles of a pass (R271). -/
def passCycles (lut : Bool) (crop samples : Nat) : Nat := 256 + (if lut then 800 else 0) + max (ceilDiv crop 8) (ceilDiv samples 6)

/-- Samples that a pass writes. -/
def State.passSamples (s : State) (p : PicShape) (ds : List Entry) : Nat :=
  (ds.map fun d => match s.template? (odRoute d) with
    | some t => outSamples t (dstOf d p)
    | none => 0).foldl (· + ·) 0

/-- A descriptor's pass reads a 3D LUT: one is named, or its template enables it (R258, R262). -/
def State.usesLut (s : State) (d : Entry) : Bool := odLut d != 0 || (s.template? (odRoute d)).any fun t => t.lutEn

/-- Cycles of a pass over some descriptors, its LUT counted as loaded where it reads one. -/
def State.passCost (s : State) (p : PicShape) (ds : List Entry) : Nat :=
  let d := ds.headD 0
  passCycles (s.usesLut d) ((cropOf d p).2.2.1 * (cropOf d p).2.2.2) (s.passSamples p ds)

/-! ### Samples (R260 to R268) -/

/-- A plane with rows and columns exchanged. -/
def flipPlane (p : Plane) : Plane :=
  (List.range (p.headD []).length).map fun x => p.map fun r => r.getD x 0

/-- A 12-bit value: an integer limited to 0 to 4,095. -/
def clamp12 (x : Int) : Nat := (clampInt 0 4095 x).toNat

/-- Pre-decimation factor (R263). -/
def decimation (ci ao : Nat) : Nat := if ci ≤ 2 * ao then 1 else if ci ≤ 4 * ao then 2 else 4

/-- A row decimated by `d` (R263). -/
def decimateRow (d : Nat) (r : List Nat) : List Nat :=
  if d ≤ 1 then r
  else (List.range (ceilDiv r.length d)).map fun m =>
    (((List.range d).map fun i => r.getD (min (m * d + i) (r.length - 1)) 0).foldl (· + ·) 0 + d / 2) / d

/-- How one dimension of one component is scaled (R264): luma crop and active sizes, factor, subsampling in and out, siting
in and out, output samples. -/
structure Axis where
  ci : Nat
  ao : Nat
  d  : Nat
  si : Nat
  so : Nat
  hi : Nat
  ho : Nat
  n  : Nat
  deriving DecidableEq, Repr

/-- The dimension is passed through without filtering (R265). -/
def Axis.through (a : Axis) : Bool := a.ci == a.ao && a.d == 1 && a.si == a.so && a.hi == a.ho

/-- Position of output sample `j` in units of 1/65,536 (R264). -/
def Axis.pos (a : Axis) (j : Nat) : Int :=
  ((((2 * j * a.so + a.ho + 1) * a.ci : Nat) : Int) - (((1 + a.hi + (a.d - 1) * a.si) * a.ao : Nat) : Int)) * 65536 /
    ((2 * a.ao * a.d * a.si : Nat) : Int)

/-- Integer part and phase of a position (R264). -/
def Axis.place (a : Axis) (j : Nat) : Int × Nat :=
  let p := a.pos j
  let ph := ((p % 65536).toNat + 512) / 1024
  if ph == 64 then (p / 65536 + 1, 0) else (p / 65536, ph)

/-- The bank for a ratio: the largest BANK_RATIO not above it, else bank 0 (R266). -/
def bankFor (banks : List FilterBank) (ratio : Nat) : FilterBank :=
  match (banks.filter fun b => decide (b.ratio ≤ ratio)).getLast? with
  | some b => b
  | none => banks.headD { ratio := 0, luma := [], chroma := [] }

/-- A row filtered (R265). -/
def Axis.filter (a : Axis) (banks : List FilterBank) (luma : Bool) (r : List Nat) : List Nat :=
  if a.through then r
  else
    let b := bankFor banks (a.ao * a.d * a.si * 256 / (a.ci * a.so))
    let taps := if luma then 8 else 4
    let cs := if luma then b.luma else b.chroma
    (List.range a.n).map fun j =>
      let p := a.place j
      clamp12 ((((List.range taps).map fun k =>
        cs.getD (p.2 * taps + k) 0 * ((r.getD (clampInt 0 ((r.length : Int) - 1) (p.1 - (if luma then 3 else 1) + (k : Int))).toNat 0 : Nat) : Int)).foldl
          (· + ·) 0 + 128) / 256)

/-- A component scaled: decimated horizontally then vertically, filtered horizontally then vertically (R263 to R265). -/
def scalePlane (banks : List FilterBank) (luma : Bool) (h v : Axis) (p : Plane) : Plane :=
  let q := flipPlane ((flipPlane (p.map (decimateRow h.d))).map (decimateRow v.d))
  flipPlane ((flipPlane (q.map (h.filter banks luma))).map (v.filter banks luma))

/-- A plane cropped. -/
def cropPlane (p : Plane) (x y w h : Nat) : Plane := ((p.drop y).take h).map fun r => (r.drop x).take w

/-- A 3 × 4 matrix on three components (R261): coefficients m[i][j] at 4i + j, offset o[i] at 4i + 3. -/
def matrixRow (m : List Int) (i : Nat) (x : Nat × Nat × Nat) : Nat :=
  clamp12 ((m.getD (4 * i) 0 * (x.1 : Int) + m.getD (4 * i + 1) 0 * (x.2.1 : Int) + m.getD (4 * i + 2) 0 * (x.2.2 : Int)
    + m.getD (4 * i + 3) 0 * 4096 + 2048) / 4096)
def applyMatrix (en : Bool) (m : List Int) (x : Nat × Nat × Nat) : Nat × Nat × Nat :=
  if en then (matrixRow m 0 x, matrixRow m 1 x, matrixRow m 2 x) else x

/-- Component `k` of a LUT entry (R262). -/
def lutAt (lut : List DWord) (i0 i1 i2 k : Nat) : Nat := fld ((lut.getD ((i2 * 17 + i1) * 17 + i0) 0).toNat) (16 * k) 12

/-- A lattice point one on along an axis. -/
def stepAxis (p : Nat × Nat × Nat) (a : Nat) : Nat × Nat × Nat :=
  if a == 0 then (p.1 + 1, p.2.1, p.2.2) else if a == 1 then (p.1, p.2.1 + 1, p.2.2) else (p.1, p.2.1, p.2.2 + 1)

/-- Tetrahedral interpolation in the LUT (R262). -/
def applyLut (en : Bool) (lut : List DWord) (x : Nat × Nat × Nat) : Nat × Nat × Nat :=
  if !en then x
  else
    let fs := [x.1 % 256, x.2.1 % 256, x.2.2 % 256]
    let axes := sortBy (fun a : Nat => -((fs.getD a 0 : Nat) : Int)) [0, 1, 2]
    let f := fun i => fs.getD (axes.getD i 0) 0
    let p0 := (x.1 / 256, x.2.1 / 256, x.2.2 / 256)
    let p1 := stepAxis p0 (axes.getD 0 0)
    let p2 := stepAxis p1 (axes.getD 1 0)
    let p3 := (p0.1 + 1, p0.2.1 + 1, p0.2.2 + 1)
    let at_ := fun (p : Nat × Nat × Nat) k => lutAt lut p.1 p.2.1 p.2.2 k
    let y := fun k => min 4095 ((at_ p0 k * (256 - f 0) + at_ p1 k * (f 0 - f 1) + at_ p2 k * (f 1 - f 2) + at_ p3 k * f 2 + 128) / 256)
    (y 0, y 1, y 2)

/-- The three planes after matrices and LUT, sample by sample (R260 stages 3 to 5). -/
def colour (t : Template) (lut : List DWord) (ps : List Plane) : List Plane :=
  let rows := (List.range (ps.getD 0 []).length).map fun y =>
    (List.range ((ps.getD 0 []).getD y []).length).map fun x =>
      applyMatrix t.mOutEn t.mOut (applyLut t.lutEn lut (applyMatrix t.mInEn t.mIn
        (planeAt (ps.getD 0 []) x y, planeAt (ps.getD 1 []) x y, planeAt (ps.getD 2 []) x y)))
  [rows.map fun r => r.map fun v => v.1, rows.map fun r => r.map fun v => v.2.1, rows.map fun r => r.map fun v => v.2.2]

/-- A plane whose samples are 12-bit fields of one number, from field `k`. -/
def openPlane (v w h k : Nat) : Plane := (List.range h).map fun y => (List.range w).map fun x => fld v (12 * (k + y * w + x)) 12

/-- Chroma planes of a source; a 4:0:0 source has none, and each sample is a value the spec leaves open, a field of `v` (log entries 5,
49). -/
def chromaPlanes (v : Nat) (p : PicShape) (ps : List Plane) : List Plane :=
  if p.chroma == 0 then [ps.getD 0 [], openPlane v p.w p.h 0, openPlane v p.w p.h (p.w * p.h)]
  else [ps.getD 0 [], ps.getD 1 [], ps.getD 2 []]

/-- Chroma resampled to the luma grid (R260 stage 2). -/
def to444 (banks : List FilterBank) (t : Template) (chroma w h : Nat) (ps : List Plane) : List Plane :=
  let ax := { ci := w, ao := w, d := 1, si := subX chroma, so := 1, hi := b2n t.siteInH, ho := 0, n := w : Axis }
  let ay := { ci := h, ao := h, d := 1, si := subY chroma, so := 1, hi := b2n t.siteInV, ho := 0, n := h : Axis }
  [ps.getD 0 [], scalePlane banks false ax ay (ps.getD 1 []), scalePlane banks false ax ay (ps.getD 2 [])]

/-- The pass's front on a source: crop, and where a matrix or the LUT is enabled 4:4:4 and colour; the planes with the
chroma format and siting the scaling sees (R260 stages 1 to 5). -/
def frontPlanes (banks : List FilterBank) (t : Template) (lut : List DWord) (d : Entry) (p : PicShape) (ps : List Plane) :
    List Plane × Nat × Nat × Nat :=
  let c := cropOf d p
  let sx := subX p.chroma
  let sy := subY p.chroma
  let cut := [cropPlane (ps.getD 0 []) c.1 c.2.1 c.2.2.1 c.2.2.2,
    cropPlane (ps.getD 1 []) (c.1 / sx) (c.2.1 / sy) (ceilDiv c.2.2.1 sx) (ceilDiv c.2.2.2 sy),
    cropPlane (ps.getD 2 []) (c.1 / sx) (c.2.1 / sy) (ceilDiv c.2.2.1 sx) (ceilDiv c.2.2.2 sy)]
  if t.mInEn || t.lutEn || t.mOutEn then (colour t lut (to444 banks t p.chroma c.2.2.1 c.2.2.2 cut), 3, 0, 0)
  else (cut, p.chroma, b2n t.siteInH, b2n t.siteInV)

/-- Depth reduction without dither (R239). -/
def reduce12 (d v : Nat) : Nat := if 12 ≤ d then v else min (2 ^ d - 1) ((v + 2 ^ (11 - d)) / 2 ^ (12 - d))

/-- The ordered-dither value (R268). -/
def bayer (x y : Nat) : Nat :=
  let b := fun n k => fld n k 1
  32 * (b x 0 ^^^ b y 0) + 16 * b y 0 + 8 * (b x 1 ^^^ b y 1) + 4 * b y 1 + 2 * (b x 2 ^^^ b y 2) + b y 2

/-- The random-dither register one step on (R268). -/
def lfsr (r : Nat) : Nat := if r % 2 == 1 then r / 2 ^^^ 0xB400 else r / 2

/-- The random-dither register `n` steps on. -/
def lfsrN : Nat → Nat → Nat
  | 0, r => r
  | n + 1, r => lfsrN n (lfsr r)

/-- The seed of a plane component (R268). -/
def ditherSeed (seed comp n : Nat) : Nat := let r := (seed + 0x9E37 * comp + n) % 65536; if r == 0 then 1 else r

/-- An active row reduced with random dither: the values and the register after it. -/
def randomRow (d : Nat) : Nat → List Nat → List Nat × Nat
  | r, [] => ([], r)
  | r, v :: vs =>
    let r' := lfsr r
    let k := 12 - d
    let rest := randomRow d r' vs
    (min (2 ^ d - 1) ((v + r' / 2 ^ (16 - k)) / 2 ^ k) :: rest.1, rest.2)

/-- Rows reduced with random dither, in raster order. -/
def randomRows (d : Nat) : Nat → Plane → Plane
  | _, [] => []
  | r, v :: vs => let a := randomRow d r v; a.1 :: randomRows d a.2 vs

/-- An active rectangle at (ax, ay) reduced to depth `d` by the template's mode (R268). -/
def reducePlane (mode d seed ax ay : Nat) (p : Plane) : Plane :=
  if 12 ≤ d then p
  else if mode == 2 then randomRows d seed p
  else (List.range p.length).map fun y =>
    let row := p.getD y []
    (List.range row.length).map fun x =>
      let v := row.getD x 0
      if mode == 1 then min (2 ^ d - 1) ((v + bayer (ax + x) (ay + y) * 2 ^ (12 - d) / 64) / 2 ^ (12 - d)) else reduce12 d v

/-- A plane placed within an output plane, the rest holding the pad value (R267). -/
def padPlane (w h x y pad : Nat) (p : Plane) : Plane :=
  (List.range h).map fun j => (List.range w).map fun i =>
    if x ≤ i ∧ y ≤ j ∧ j < y + p.length ∧ i < x + (p.getD (j - y) []).length then (p.getD (j - y) []).getD (i - x) 0 else pad

/-- One output of a pass, at its own depth in the low bits of each sample (R260 stages 6 to 8); `n` is the release index. -/
def outputPlanes (banks : List FilterBank) (t : Template) (d : Entry) (p : PicShape) (n : Nat) (f : List Plane × Nat × Nat × Nat) :
    List Plane :=
  let c := cropOf d p
  let a := actRect d p
  let dst := dstOf d p
  (List.range 3).map fun k =>
    let luma := k == 0
    let si := if luma then (1, 1) else (subX f.2.1, subY f.2.1)
    let so := if luma then (1, 1) else (subX t.chroma, subY t.chroma)
    let ax := { ci := c.2.2.1, ao := a.2.2.1, d := decimation c.2.2.1 a.2.2.1, si := si.1, so := so.1,
                hi := if luma then 0 else f.2.2.1, ho := if luma then 0 else b2n t.siteOutH, n := ceilDiv a.2.2.1 so.1 : Axis }
    let ay := { ci := c.2.2.2, ao := a.2.2.2, d := decimation c.2.2.2 a.2.2.2, si := si.2, so := so.2,
                hi := if luma then 0 else f.2.2.2, ho := if luma then 0 else b2n t.siteOutV, n := ceilDiv a.2.2.2 so.2 : Axis }
    let pad := if k == 0 then odPadY d else if k == 1 then odPadCb d else odPadCr d
    padPlane (ceilDiv dst.1 so.1) (ceilDiv dst.2 so.2) (a.1 / so.1) (a.2.1 / so.2) (reduce12 t.depth pad)
      (reducePlane t.dither t.depth (ditherSeed (odSeed d) k n) (a.1 / so.1) (a.2.1 / so.2)
        (scalePlane banks luma ax ay (f.1.getD k [])))

/-! ### Host-format bytes (R236, R238) -/

/-- A row of samples of depth `d` in containers of a format: 8 bits, 16 bits, or three to a 32-bit word. -/
def packRow (fmt d : Nat) (r : List Nat) : List Byte :=
  if fmt == 0 then r.map fun v => BitVec.ofNat 8 v
  else if fmt == 2 then
    (List.range (ceilDiv r.length 3)).flatMap fun j =>
      leBytes 4 ((r.getD (3 * j) 0 + r.getD (3 * j + 1) 0 * 2 ^ 10 + r.getD (3 * j + 2) 0 * 2 ^ 20) * 2 ^ (10 - d))
  else r.flatMap fun v => leBytes 2 (v * 2 ^ (16 - d))

/-- Two chroma rows interleaved. -/
def weave : List Nat → List Nat → List Nat
  | a :: as, b :: bs => a :: b :: weave as bs
  | _, _ => []

/-- The planes of a picture as the rows a host format stores: each plane's rows. -/
def hostRows (fmt d : Nat) (ps : List Plane) : List (List (List Byte)) :=
  let y := (ps.getD 0 []).map (packRow fmt d)
  let cb := ps.getD 1 []
  let cr := ps.getD 2 []
  if fmt == 0 || fmt == 4 then [y, cb.map (packRow fmt d), cr.map (packRow fmt d)]
  else [y, (cb.zip cr).map fun p => packRow fmt d (weave p.1 p.2)]

/-- Byte runs of a picture in a host format from a base address: address and bytes of every row (R236). -/
def hostRuns : Nat → List (List (List Byte)) → List (Nat × List Byte)
  | _, [] => []
  | base, rows :: rest =>
    let pitch := roundUp (rows.headD []).length 256
    (List.range rows.length).map (fun i => (base + i * pitch, rows.getD i [])) ++ hostRuns (base + up4k (pitch * rows.length)) rest

/-- Chroma format of a host picture format code (Table 10-1). -/
def formatChroma (f : Nat) : Nat := if f == 3 then 2 else if f == 4 then 3 else 1

/-- Bytes of a row of `n` samples in a format's containers. -/
def rowBytes (fmt n : Nat) : Nat := if fmt == 0 then n else if fmt == 2 then 4 * ceilDiv n 3 else 2 * n

/-- Sample `k` of a row, of depth `d`, in the 12-bit form: the container's top `d` bits (R171, R238, R239). -/
def sampleIn (fmt d k : Nat) (row : List Byte) : Nat :=
  if fmt == 0 then (row.getD k 0).toNat * 16
  else if fmt == 2 then fld (bytesAt row (4 * (k / 3)) 4) (10 * (k % 3)) 10 / 2 ^ (10 - d) * 2 ^ (12 - d)
  else bytesAt row (2 * k) 2 / 2 ^ (16 - d) * 2 ^ (12 - d)

/-- The planes of a picture of depth `d` in a host format (R171, R236, R238). -/
def hostPlanes (fmt d w h : Nat) (bs : List Byte) : List Plane :=
  let c := chromaSize (formatChroma fmt) w h
  let pitch := roundUp (rowBytes fmt w) 256
  let row := fun base pitch y n => (bs.drop (base + y * pitch)).take (rowBytes fmt n)
  let all := fun base pitch rows n => (List.range rows).map fun y =>
    let r := row base pitch y n
    (List.range n).map fun k => sampleIn fmt d k r
  let at_ := up4k (pitch * h)
  if fmt == 0 || fmt == 4 then
    let cp := roundUp (rowBytes fmt c.1) 256
    [all 0 pitch h w, all at_ cp c.2 c.1, all (at_ + up4k (cp * c.2)) cp c.2 c.1]
  else
    let both := all at_ (roundUp (rowBytes fmt (2 * c.1)) 256) c.2 (2 * c.1)
    let half := fun i => both.map fun r => (List.range c.1).map fun k => r.getD (2 * k + i) 0
    [all 0 pitch h w, half 0, half 1]

/-- Samples of depth `d` in the 12-bit form (R239). -/
def to12 (d : Nat) (ps : List Plane) : List Plane := ps.map fun p => p.map fun r => r.map fun v => v * 2 ^ (12 - d)

end Sys2Proof.Machine
end

