-- ==== Sys2Proof/Machine/Entries.lean ====
section
/-! DEFINITION. Fetching work entries: their checks, and the chains they build (13_work_queues.md). -/
namespace Sys2Proof.Machine

/-! ### Reserved fields (R7, R300, Tables 13-4 to 13-10, 11-1) -/

/-- Fields of an entry or block that must be 0: byte, lowest bit, width. -/
def zeroAt (e : Entry) (fs : List (Nat × Nat × Nat)) : Bool := fs.all fun f => efld e f.1 f.2.1 f.2.2 == 0

/-- Reserved fields of the body and of OPARG, by opcode; bytes that no body table names are reserved (R7). -/
def reservedBody (op : Nat) : List (Nat × Nat × Nat) :=
  match op with
  | 1 => [(2, 3, 13)]
  | 2 => [(2, 5, 11)]
  | 3 => [(2, 8, 8)]
  | 4 => [(2, 7, 9), (30, 0, 16), (40, 0, 192)]
  | 5 => [(2, 4, 12), (29, 0, 8), (31, 0, 8), (44, 0, 160)]
  | 6 => [(2, 0, 16), (38, 0, 208)]
  | 7 => [(2, 3, 13), (31, 0, 8), (44, 0, 32), (56, 0, 64)]
  | 8 => [(2, 0, 16), (33, 0, 248)]
  | _ => []

/-- No reserved field of an entry is set. -/
def entryClean (e : Entry) : Bool :=
  zeroAt e [(1, 5, 3), (8, 20, 12)] && zeroAt e (reservedBody (eOp e)) && (eOp e == 2 || eOp e == 5 || e32 e 12 == 0)

/-- Reserved fields of an auxiliary block, ladder header, rendition descriptor and output descriptor. -/
def auxClean (b : Entry) : Bool := zeroAt b [(27, 0, 296)]
def ladHeadClean (b : Entry) : Bool := zeroAt b [(13, 0, 408)]
def rendClean (b : Entry) : Bool := zeroAt b [(0, 20, 12), (57, 0, 56)]
def descClean (b : Entry) : Bool := zeroAt b [(0, 6, 6), (24, 28, 4), (24, 12, 4), (28, 12, 20), (50, 0, 16), (56, 0, 64)]

/-- The blocks of an entry have no reserved field set. -/
def blocksClean (op : Nat) (bs : List Entry) : Bool :=
  match op, bs with
  | 2, b :: _ => auxClean b
  | 3, b :: rs => ladHeadClean b && rs.all rendClean
  | 4, ds => ds.all descClean
  | 7, b :: rs => ladHeadClean b && rs.all rendClean
  | _, _ => true

/-! ### Address spaces (R10) -/

/-- Offsets of the address-space bytes of an entry. -/
def spaceBytes (op : Nat) : List Nat :=
  match op with
  | 1 => [28, 29, 30, 31]
  | 2 => [28, 29, 30, 31]
  | 3 => [28, 29, 30, 31]
  | 4 => [28, 29]
  | 5 => [28, 30]
  | 6 => [36, 37]
  | 7 => [28, 29, 30]
  | 8 => [32]
  | _ => []

/-- Offsets of the address-space bytes of a block. -/
def blockSpaces (op : Nat) (bs : List Entry) : List Nat :=
  match op, bs with
  | 2, b :: _ => [e8 b 24, e8 b 25, e8 b 26]
  | 3, b :: rs => e8 b 12 :: rs.flatMap fun r => [e8 r 52, e8 r 53, e8 r 54, e8 r 55, e8 r 56]
  | 4, ds => ds.flatMap fun d => [odSpace d, odLutSpace d]
  | 7, b :: rs => e8 b 12 :: rs.flatMap fun r => [e8 r 52, e8 r 53, e8 r 54, e8 r 55, e8 r 56]
  | _, _ => []

/-- Cause SPACE of Table 13-13: a space byte above 1 (R10), or a named LUT or pool buffer that is not in device space (Tables 11-1
and 13-6). -/
def badSpace (e : Entry) (bs : List Entry) : Bool :=
  ((spaceBytes (eOp e)).map (e8 e) ++ blockSpaces (eOp e) bs).any (fun x => decide (1 < x))
    || (eOp e == 1 && e64 e 56 != 0 && e8 e 31 != 1)
    || (eOp e == 4 && bs.any fun d => odLut d != 0 && odLutSpace d != 1)

/-! ### Sizes and ranges (Table 13-13 RANGE) -/

/-- A named address range: an address of 0 names nothing. -/
def named (a n : Nat) : Nat × Nat := if a == 0 then (0, 0) else (a, n)

/-- The address ranges that an entry and its blocks give with their sizes, source pictures apart. -/
def rangesOf (e : Entry) (bs : List Entry) : List (Nat × Nat) :=
  match eOp e with
  | 1 => [(e64 e 16, e32 e 24), named (outAddr e) (outCount e * outSize e), named (e64 e 48) (e32 e 44)]
  | 2 => [(e64 e 32, e32 e 40), named (statBuf e).1 (statBuf e).2.1]
  | 3 => [(e64 e 16, e32 e 24), named (outAddr e) (outCount e * outSize e), named (e64 e 56) (e32 e 44)]
      ++ (bs.take 1).map (fun b => named (e64 b 0) (e32 b 8))
      ++ (bs.drop 1).flatMap (fun r => [(e64 r 8, e32 r 4), named (e64 r 16) (e32 r 48)])
  | 4 => bs.flatMap fun d => [(odAddr d, odSize d), named (odLut d) 39304]
  | 5 => [named (statBuf e).1 (statBuf e).2.1]
  | 6 => [(e64 e 16, e32 e 32), (e64 e 24, e32 e 32)]
  | 7 => [named (outAddr e) (outCount e * outSize e), named (e64 e 32) (e32 e 40)]
      ++ (bs.take 1).map (fun b => named (e64 b 0) (e32 b 8))
      ++ (bs.drop 1).flatMap (fun r => [(e64 r 8, e32 r 4), named (e64 r 16) (e32 r 48)])
  | 8 => [named (e64 e 16) 8]
  | _ => []

/-- Two ranges of one space overlap (Table 15-5 OVERLAP, R350). -/
def overlap (a b n : Nat) : Bool := decide (a < b + n) && decide (b < a + n)

/-- A count, size or dimension of the entry is outside its field's range. -/
def badCount (e : Entry) (bs : List Entry) : Bool :=
  match eOp e with
  | 1 => e32 e 24 == 0 || decide (268435456 < e32 e 24) || decide (4 < outCount e)
  | 2 => e32 e 40 == 0
  | 3 => e32 e 24 == 0 || decide (268435456 < e32 e 24) || decide (4 < outCount e) || rendCount e == 0
      || decide (12 < rendCount e) || (bs.drop 1).any fun r => e32 r 4 == 0
  | 4 => outCount e == 0 || decide (4 < outCount e) || srcW e == 0 || srcH e == 0 || (bs.any fun d => odLut d % 4096 != 0)
  | 6 => e32 e 32 == 0 || (e8 e 36 == e8 e 37 && overlap (e64 e 16) (e64 e 24) (e32 e 32))
  | 7 => decide (4 < outCount e) || (bs.drop 1).any fun r => e32 r 4 == 0
  | 8 => e64 e 16 % 8 != 0
  | _ => false

/-- A buffer, map or record that a session's entry names passes 2^64, by the size that the session gives it (Table 13-13 RANGE). -/
def State.askWraps (s : State) (e : Entry) (bs : List Entry) : Bool :=
  let rends := if eOp e == 3 || eOp e == 7 then (bs.drop 1).flatMap fun r => rendAsks (s.sess (efld r 0 0 20)).par r else []
  (((entryAsks (s.sess (eSess e)).par e bs).filter fun a => a.1 != 0) ++ rends).any fun a => a.2.2.1 != 0 && decide (2 ^ 64 < a.2.2.1 + a.2.2.2)

/-- Cause RANGE of Table 13-13. -/
def badRange (e : Entry) (bs : List Entry) : Bool :=
  badCount e bs || (rangesOf e bs).any fun r => decide (2 ^ 64 < r.1 + r.2)

/-! ### Sessions (R31, Table 13-5) -/

/-- The session is allocated and belongs to the function (R31). -/
def State.owns (s : State) (fn n : Nat) : Bool := (s.sess n).state != .free && (s.sess n).fn == fn

/-- Direction and source mode of the session that an opcode asks for (Table 13-5). -/
def sessionFits (op : Nat) (p : Params) : Bool :=
  match op with
  | 1 => !p.encode
  | 2 => p.encode && p.srcMode == 0
  | 3 => !p.encode
  | 5 => p.encode && p.srcMode == 0
  | _ => true

/-- No element occurs twice. -/
def distinct : List Nat → Bool
  | [] => true
  | x :: xs => !xs.contains x && distinct xs

/-- The renditions that a ladder block names. -/
def rendsOf (bs : List Entry) : List Nat := (bs.drop 1).map fun r => efld r 0 0 20

/-- Cause SESSION of Table 13-13 (R31, R188). -/
def State.badSession (s : State) (fn : Nat) (e : Entry) (bs : List Entry) : Bool :=
  let op := eOp e
  (op != 4 && op != 6 && op != 8 && !(s.owns fn (eSess e) && sessionFits op (s.sess (eSess e)).par))
    || ((op == 3 || op == 7) && (!distinct (rendsOf bs)
      || (rendsOf bs).any fun n => !(s.owns fn n && (s.sess n).par.encode && (s.sess n).par.srcMode == 1)))

/-! ### Source pictures (R171, R172, R229, R237, R250) -/

/-- Entries fetched and not yet complete that bring a session a source picture. -/
def State.sourceEntries (s : State) (n : Nat) : List QEntry :=
  (tblKeys s.queues).flatMap fun q =>
    (s.queue q).entries.filter fun e => e.stage != .done && (e.op == 2 || e.op == 5) && e.sess == n

/-- The least number from `k` on that is not in `used`, within `fuel` tries. -/
def firstFree (used : List Nat) : Nat → Nat → Nat
  | 0, k => k
  | fuel + 1, k => if used.contains k then firstFree used fuel (k + 1) else k

/-- The display index that the next new picture must carry (R172). -/
def State.nextSource (s : State) (n : Nat) : Nat :=
  let used := (s.sourceEntries n).map fun e => e32 e.raw 12
  firstFree used used.length (s.sess n).nextIndex

/-- The entry resubmits a picture whose last entry failed after its intake (R172). -/
def State.resubmits (s : State) (n ix : Nat) : Bool :=
  ((s.sess n).src.any fun p => p.index == ix && p.taken && !p.coded && (p.failed == 0x10 || p.failed == 0xF0 || p.failed == 0x40))
    && !(s.sourceEntries n).any fun e => e32 e.raw 12 == ix

/-- The opcode by which a session takes pictures in: fixed by the first accepted, until a reset (R229). -/
def State.intakeOpcode (s : State) (n : Nat) : Nat :=
  if (s.sess n).intakeOp != 0 then (s.sess n).intakeOp
  else
    match s.sourceEntries n with
    | e :: _ => e.op
    | [] => 0

/-- The source picture keeps R171, R237 and R250. -/
def sourceFits (p : Params) (e : Entry) : Bool :=
  let w := srcW e
  let h := srcH e
  let lim := encodeLimit p.codec
  formatHolds p.chroma p.depthY (srcFormat e) && decide (64 ≤ w) && decide (64 ≤ h) && decide (w ≤ p.maxW) && decide (h ≤ p.maxH)
    && decide (w ≤ lim.1) && decide (h ≤ lim.1) && decide (w * h ≤ lim.2) && e64 e 16 % 4096 == 0

/-- A picture format code of Table 10-1: 0 to 4 for host formats, 15 for PF_NITINOL. -/
def formatKnown (f : Nat) : Bool := decide (f ≤ 4) || f == 15

/-- Cause SOURCE of Table 13-13: R171 for a new source picture; R237 and R250 for the pictures an entry names. -/
def State.badSource (s : State) (e : Entry) (bs : List Entry) : Bool :=
  match eOp e with
  | 1 => outAddr e != 0 && outCount e != 0 && (outAddr e % 4096 != 0 || (decide (2 ≤ outCount e) && outSize e % 4096 != 0))
  | 3 => outAddr e != 0 && outCount e != 0 && (outAddr e % 4096 != 0 || (decide (2 ≤ outCount e) && outSize e % 4096 != 0))
  | 7 => outAddr e != 0 && outCount e != 0 && (outAddr e % 4096 != 0 || (decide (2 ≤ outCount e) && outSize e % 4096 != 0))
  | 4 =>
    let f := srcFormat e
    !formatKnown f || (f == 15 && e8 e 28 == 0) || (f != 15 && e64 e 16 % 4096 != 0)
      || bs.any fun d => !formatKnown (odFormat d) || (odFormat d == 15 && odSpace d == 0) || (odFormat d != 15 && odAddr d % 4096 != 0)
  | 2 => !s.resubmits (eSess e) (e32 e 12) && !sourceFits (s.sess (eSess e)).par e
  | 5 => !s.resubmits (eSess e) (e32 e 12) && !sourceFits (s.sess (eSess e)).par e
  | _ => false

/-- A new source picture's range passes 2^64 (Table 13-13 RANGE). -/
def State.sourceWraps (s : State) (e : Entry) : Bool :=
  match eOp e with
  | 2 => !s.resubmits (eSess e) (e32 e 12) && decide (2 ^ 64 < e64 e 16 + hostSize (srcFormat e) (srcW e) (srcH e))
  | 5 => !s.resubmits (eSess e) (e32 e 12) && decide (2 ^ 64 < e64 e 16 + hostSize (srcFormat e) (srcW e) (srcH e))
  | 4 => decide (2 ^ 64 < e64 e 16 + hostSize (srcFormat e) (srcW e) (srcH e))
  | _ => false

/-- Cause INDEX of Table 13-13 (R172, R229). -/
def State.badIndex (s : State) (e : Entry) : Bool :=
  let op := eOp e
  (op == 2 || op == 5) &&
    (!(e32 e 12 == s.nextSource (eSess e) || (s.resubmits (eSess e) (e32 e 12)))
      || (s.intakeOpcode (eSess e) != 0 && s.intakeOpcode (eSess e) != op))

/-! ### Ladders (R188, R191, R218) -/

/-- Renditions whose descriptors the ladder block of a FLUSH_SESSION must hold (R191). -/
def State.flushRends (s : State) (e : Entry) : List Nat := ((s.sess (eSess e)).ladder).getD []

/-- Cause LADDER of Table 13-13. -/
def State.badLadder (s : State) (e : Entry) (bs : List Entry) : Bool :=
  let x := s.sess (eSess e)
  match eOp e with
  | 3 => !x.par.mauEn || e64 e 32 == 0
  | 7 =>
    if x.par.encode then e64 e 48 != 0
    else match x.ladder with
      | none => e64 e 48 != 0
      | some ns => e64 e 48 == 0 || (!bs.isEmpty && decide (rendsOf bs ≠ ns))
  | _ => false

/-! ### Blocks (R301) -/

/-- Entries of 64 bytes from device memory. -/
def State.rowsAt (s : State) (a : Nat) : Nat → List Entry
  | 0 => []
  | n + 1 => BitVec.ofNat 512 (leNat (s.memRead a 64)) :: s.rowsAt (a + 64) n

/-- A range of device memory that a function may read, holding no poison. -/
def State.readable (s : State) (fn a n : Nat) : Bool := s.granted fn a n && !s.poisoned a n

/-- The blocks that an entry names, read once; none where they cannot be read (R301). -/
def State.blocksFor (s : State) (fn : Nat) (e : Entry) (x : FetchedEntry) : Option (List Entry) :=
  let r := blockRows e (s.flushRends e).length
  let n := if eOp e == 3 && decide (12 < rendCount e) then 0 else r.2.2
  if n == 0 || (eOp e == 3 && r.1 == 0) then some []
  else if r.2.1 == 0 then (if x.blockOk && decide (n ≤ x.blocks.length) then some (x.blocks.take n) else none)
  else if s.readable fn r.1 (64 * n) then some (s.rowsAt r.1 n) else none

/-! ### One entry -/

/-- The first cause whose condition holds, in numeric order; 0 for none (log entry 11). -/
def firstCause : List (Nat × Bool) → Nat
  | [] => 0
  | (c, b) :: cs => if b then c else firstCause cs

/-- An encode session's flush gives no output buffers (Table 13-10). -/
def State.flushOut (s : State) (e : Entry) : Bool :=
  eOp e == 7 && (s.sess (eSess e)).par.encode && (outCount e != 0 || outAddr e != 0 || outSize e != 0)

/-- The ERR_CAUSE of an entry as fetched; 0 where it is well formed (R312, Table 13-13). -/
def State.entryCause (s : State) (w : WorkQ) (e : Entry) (blocks : Option (List Entry)) : Nat :=
  let bs := blocks.getD []
  let first := efld e 1 0 1 == 1
  firstCause [
    (0x01, eOp e == 0 || decide (8 < eOp e)),
    (0x02, !entryClean e || !blocksClean (eOp e) bs || s.flushOut e),
    (0x03, badSpace e bs),
    (0x04, s.badSession w.fn e bs),
    (0x05, first == w.chainOpen),
    (0x06, !first && decide (min 64 w.rdepth ≤ w.chainLen)),
    (0x08, badRange e bs || s.sourceWraps e || s.askWraps e bs),
    (0x0A, s.badSource e bs),
    (0x0B, s.badIndex e),
    (0x0C, s.badLadder e bs),
    (0x0D, blocks.isNone)]

/-- The renditions of a ladder entry, all still to be coded. -/
def freshRends (bs : List Entry) : List RendRes :=
  (rendsOf bs).map fun n => { session := n, done := false, code := 0, cause := 0, bytes := 0, pics := [], left := 0, units := 0, prog := (0, 0) }

/-- A fetched entry before it runs. -/
def freshEntry (ix : Nat) (seq : Word) (e : Entry) (bs : List Entry) (chain order : Nat) : QEntry :=
  { ix := ix, seq := seq, raw := e, blocks := bs, chain := chain, stage := .fetched, closing := false, started := false,
    code := 0, cause := 0, dflags := 0, released := 0, held := 0, bytes := 0, codedIx := 0, cycles := 0, doneTime := 0,
    rends := if eOp e == 3 || eOp e == 7 then freshRends bs else [], rels := [], au := none, pics := [], relPics := [],
    analysed := false, order := order, added := false, recs := 0, secs := [], prog := (0, 0), due := [], sourced := false, lines := [], roOut := false }

/-- SEQ of the entry at ring index `ix` (R296). -/
def WorkQ.seqOf (w : WorkQ) (ix : Nat) : Word := w.headSeq + BitVec.ofNat 32 ((ix + 2 * w.depth - w.head) % (2 * w.depth))

/-- An accepted entry joins its chain; LAST closes it (R303). -/
def WorkQ.accept (w : WorkQ) (e : Entry) (bs : List Entry) (order : Nat) : WorkQ :=
  let first := efld e 1 0 1 == 1
  let last := efld e 1 1 1 == 1
  let no := if first then w.chainNo + 1 else w.chainNo
  { w with
    entries := w.entries ++ [freshEntry w.fetch (w.seqOf w.fetch) e bs no order]
    chainNo := no
    chainFirst := if first then w.fetch else w.chainFirst
    chainLen := if last then 0 else if first then 1 else w.chainLen + 1
    chainOpen := !last
    fetch := ringNext w.fetch w.depth }

/-- What the fetch of an accepted entry brings: a TRANSCODE_AU entry names the ladder that a later flush of its source names
again (R191), and a FLUSH_SESSION makes pictures codeable without further lookahead (R175, R177, R224). -/
def State.noteFetch (s : State) (e : Entry) (bs : List Entry) : State :=
  if eOp e == 3 then s.modSess (eSess e) fun x => { x with ladder := some (rendsOf bs) }
  else if eOp e == 7 then s.flushFetched (eSess e) (s.nextSource (eSess e))
  else s

/-- One fetched entry: accepted, or malformed, which stops the fetch (R312, R313). -/
def State.fetchOne (s : State) (q : Nat) (x : FetchedEntry) : State :=
  let w := s.queue q
  let slot := w.wqAddr + w.fetch % w.depth * 64
  if w.wqSpace == 1 && !s.readable w.fn slot 64 then s.queueError q 0x0D w.fetch
  else
    let e := if w.wqSpace == 1 then BitVec.ofNat 512 (leNat (s.memRead slot 64)) else x.raw
    let blocks := s.blocksFor w.fn e x
    let cause := s.entryCause w e blocks
    if cause == 0 then
      ((s.modQueue q fun w => w.accept e (blocks.getD []) s.qe.fetched.toNat).modQe fun k => { k with fetched := sat64 k.fetched 1 }).noteFetch e
        (blocks.getD [])
    else s.queueError q cause w.fetch

/-- The entries of one read, in ring order, until the queue is no longer ENABLED. -/
def State.fetchAll (s : State) (q : Nat) : List FetchedEntry → State
  | [] => s
  | x :: xs =>
    let t := s.fetchOne q x
    if (t.queue q).state == .enabled then t.fetchAll q xs else t

/-- Entries the QE may read now: up to 16 of [FETCH, PROD) (R299). -/
def WorkQ.readable (w : WorkQ) : Nat := min 16 ((w.prod + 2 * w.depth - w.fetch) % (2 * w.depth))

/-- The chain timer starts when FETCH reaches PROD while a chain is open (R304). -/
def State.armChain (s : State) (q : Nat) : State :=
  s.modQueue q fun w => { w with
    chainTimer := if w.state == .enabled && w.chainOpen && w.fetch == w.prod then some (w.chainTimer.getD s.time) else none }

/-- A fetch read returns (R299). -/
def fetchOp (q : Nat) (ok : Bool) (es : List FetchedEntry) (s : State) : State :=
  if !ok then s.queueError q 0x0D (s.queue q).fetch
  else (s.fetchAll q (es.take (s.queue q).readable)).armChain q

def execEntryFetch (q : Nat) (ok : Bool) (entries : List FetchedEntry) (s : State) : Res :=
  .next (onlyIf (s.fnLive (s.queue q).fn && !(s.func (s.queue q).fn).d3 && (s.queue q).state == .enabled && (s.queue q).readable != 0)
    (fetchOp q ok entries) s)

end Sys2Proof.Machine
end

