-- ==== Sys2Proof/Machine/Framing.lean ====
section
/-! DEFINITION. The input bitstream forms: how a range of bytes splits into NAL units, OBUs and frames, what each unit is, and which
streams a decoder supports (05_codec_support.md R113 to R131). -/
namespace Sys2Proof.Machine

/-! ### Splitting a range (R128 to R130) -/

/-- The pieces of an input range: its units, whether its end truncates the last, and whether a superframe index does not add up. -/
structure Framed where
  units : List (List Byte)
  short : Bool
  badIx : Bool
  deriving DecidableEq, Repr

/-- Annex B form: start codes of three bytes after any zeros, `z` the zeros just read and `cur` the open unit backwards; zeros before a
start code and at the end belong to no unit (R128). -/
def annexB : Nat → Option (List Byte) → List Byte → List (List Byte)
  | _, cur, [] => (cur.map List.reverse).toList
  | z, cur, b :: bs =>
    if b == 0 then annexB (z + 1) cur bs
    else if b == 1 && decide (2 ≤ z) then (cur.map List.reverse).toList ++ annexB 0 (some []) bs
    else annexB 0 (cur.map fun c => b :: (List.replicate z 0 ++ c)) bs

/-- A NAL unit without its emulation-prevention bytes, `z` zeros before (R128). -/
def unescape : Nat → List Byte → List Byte
  | _, [] => []
  | z, b :: bs =>
    if decide (2 ≤ z) && b == 3 then unescape 0 bs
    else b :: unescape (if b == 0 then z + 1 else 0) bs

/-- The number in some bytes, of either order. -/
def lengthOf (big : Bool) (bs : List Byte) : Nat := leNat (if big then bs.reverse else bs)

/-- Length-prefixed form with prefixes of `n` bytes: a prefix of 0 is skipped, and the last unit is cut at the end of the range (R128). -/
def prefixed (n : Nat) (big : Bool) : Nat → List Byte → List (List Byte) × Bool
  | 0, _ => ([], false)
  | fuel + 1, bs =>
    if bs.isEmpty then ([], false)
    else if bs.length < n then ([], true)
    else
      let k := lengthOf big (bs.take n)
      let rest := bs.drop n
      if k == 0 then prefixed n big fuel rest
      else if rest.length < k then ([rest], true)
      else
        let r := prefixed n big fuel (rest.drop k)
        (rest.take k :: r.1, r.2)

/-- A leb128 number of at most `fuel` bytes, and the bytes after it. -/
def leb128 : Nat → List Byte → Option (Nat × List Byte)
  | 0, _ => none
  | _ + 1, [] => none
  | fuel + 1, b :: bs => if b.toNat < 128 then some (b.toNat, bs) else (leb128 fuel bs).map fun r => (b.toNat % 128 + 128 * r.1, r.2)

/-- AV1 low-overhead form: each OBU's header, with its extension byte, and its payload. One without a size field is the rest of the range;
a size that passes the end, or that eight bytes do not end, cuts the OBU there (R129). -/
def obus : Nat → List Byte → List (List Byte) × Bool
  | 0, _ => ([], false)
  | _ + 1, [] => ([], false)
  | fuel + 1, h :: bs =>
    let n := if h.getLsbD 2 then 1 else 0
    let lead := h :: bs.take n
    let body := bs.drop n
    if !h.getLsbD 1 then ([lead ++ body], false)
    else
      match leb128 8 body with
      | none => ([lead], true)
      | some (k, rest) =>
        if rest.length < k then ([lead ++ rest], true)
        else
          let r := obus fuel (rest.drop k)
          ((lead ++ rest.take k) :: r.1, r.2)

/-- The first `n` of a list, the next, and so on, as the sizes give. -/
def cut {α : Type} : List Nat → List α → List (List α)
  | [], _ => []
  | n :: ns, xs => xs.take n :: cut ns (xs.drop n)

/-- VP9 form: a superframe where the last byte has the marker and the index begins with it too, else one frame (R130; the index is the
VP9 standard's, log entry 27). -/
def vp9Frames (bs : List Byte) : Framed :=
  let m := (bs.getLastD 0).toNat
  let k := m % 8 + 1
  let w := m / 8 % 4 + 1
  let n := 2 + w * k
  if m / 32 != 6 || decide (bs.length < n) || (bs.getD (bs.length - n) 0).toNat != m then ⟨[bs], false, false⟩
  else
    let sizes := (List.range k).map fun i => leNat ((bs.drop (bs.length - n + 1 + w * i)).take w)
    ⟨cut sizes (bs.take (bs.length - n)), false, sizes.foldl (· + ·) 0 != bs.length - n⟩

/-- An input range in the session's form (R126). -/
def frame (p : Params) (bs : List Byte) : Framed :=
  match p.bsFormat with
  | 0 => ⟨(annexB 0 none bs).map (unescape 0), false, false⟩
  | 1 => let r := prefixed (p.prefixBytes + 1) p.prefixBig bs.length bs; ⟨r.1.map (unescape 0), r.2, false⟩
  | 2 => let r := obus bs.length bs; ⟨r.1, r.2, false⟩
  | _ => vp9Frames bs

/-! ### What a unit is

The numbers of unit types are the coding standards' (PRESUMED, log entry 76). -/

/-- Kinds of unit that the rules distinguish; a skipped one is reserved, unspecified or of no use to the decoder (R128, R129). -/
inductive UnitClass where
  | coded | pset | sei | delimiter | endOf | unsupported | skipped
  deriving DecidableEq, Repr

/-- A unit's type: nal_unit_type, or obu_type. -/
def unitType (codec : Nat) (u : List Byte) : Nat :=
  match codec with
  | 0 => (u.getD 0 0).toNat % 32
  | 1 => (u.getD 0 0).toNat / 2 % 64
  | 3 => (u.getD 0 0).toNat / 8 % 16
  | _ => (u.getD 1 0).toNat / 8

/-- The kind of a unit of a codec: AVC, HEVC, VP9, AV1, VVC. -/
def unitClass (codec : Nat) (u : List Byte) : UnitClass :=
  let t := unitType codec u
  match codec with
  | 0 =>
    if t == 1 || t == 5 then .coded else if decide (2 ≤ t) && decide (t ≤ 4) then .unsupported
    else if t == 6 then .sei else if t == 7 || t == 8 then .pset else if t == 9 then .delimiter
    else if t == 10 || t == 11 then .endOf else .skipped
  | 1 =>
    if decide (t ≤ 9) || (decide (16 ≤ t) && decide (t ≤ 21)) then .coded
    else if decide (32 ≤ t) && decide (t ≤ 34) then .pset else if t == 35 then .delimiter
    else if t == 36 || t == 37 then .endOf else if t == 39 || t == 40 then .sei else .skipped
  | 2 => .coded
  | 3 =>
    if t == 1 then .pset else if t == 2 then .delimiter else if t == 3 || t == 4 || t == 6 || t == 7 then .coded
    else if t == 5 then .sei else if t == 8 then .unsupported else .skipped
  | _ =>
    if decide (t ≤ 3) || (decide (7 ≤ t) && decide (t ≤ 10)) then .coded
    else if decide (14 ≤ t) && decide (t ≤ 18) then .pset else if t == 20 then .delimiter
    else if t == 21 || t == 22 then .endOf else if t == 23 || t == 24 then .sei else .skipped

/-- An OBU outside the selected operating point: its temporal or its spatial layer is not in it (R123). Sequence headers, temporal
delimiters and OBUs without an extension belong to every point. -/
def outOfPoint (p : Params) (sq : Option SeqInfo) (u : List Byte) : Bool :=
  let idc := ((sq.map SeqInfo.opIdc).getD []).getD (p.at 0x004 0 5) 0
  let ext := (u.getD 1 0).toNat
  p.codec == 3 && idc != 0 && (u.getD 0 0).getLsbD 2 && unitType 3 u != 1 && unitType 3 u != 2
    && !(bitAt idc (ext / 32) && bitAt idc (8 + ext / 8 % 4))

/-- A random access point, by the type of the first coded unit or the first frame (Table 6-4). -/
def isRap (codec : Nat) (us : List (List Byte)) (au : AuParse) : Bool :=
  match codec with
  | 2 => au.pics.head?.any fun i => i.ptype == 0 && i.showExisting.isNone
  | 3 => au.pics.any fun i => i.ptype == 0 && i.shown && i.showExisting.isNone
  | _ => (us.find? fun u => unitClass codec u == .coded).any fun u =>
    let t := unitType codec u
    if codec == 0 then t == 5 || au.recovery.isSome
    else if codec == 1 then decide (16 ≤ t)
    else decide (7 ≤ t)

/-! ### Support (R113, R114, R116, R118 to R125) -/

/-- The decode column of a codec's profiles, in the order of its table: chroma formats, and the range of bit depths (Tables 5-2 to 5-6). -/
def decProfiles (codec : Nat) : List (List Nat × Nat × Nat) :=
  let all := [0, 1, 2, 3]
  match codec with
  | 0 => List.replicate 11 (all, 8, 12)
  | 1 => [(all, 8, 8), (all, 8, 10), (all, 8, 8), (all, 8, 12), (all, 8, 10), (all, 8, 12), (all, 8, 8), (all, 8, 10), (all, 8, 12), (all, 8, 8), (all, 8, 12)]
  | 2 => [([1], 8, 8), ([2, 3], 8, 8), ([1], 10, 12), ([2, 3], 10, 12)]
  | 3 => [([0, 1], 8, 10), ([0, 1, 3], 8, 10), (all, 8, 12)]
  | _ => [([0, 1], 8, 10), (all, 8, 10), ([0, 1], 8, 12), (all, 8, 12), ([0, 1], 8, 10), (all, 8, 10)]

/-- Levels × 10 supported for decode; VP9 signals none (R113). -/
def decLevel (codec level : Nat) : Bool :=
  match codec with
  | 0 => decide (9 ≤ level) && decide (level ≤ 62)
  | 2 => true
  | 3 => decide (20 ≤ level) && decide (level ≤ 63)
  | _ => decide (10 ≤ level) && decide (level ≤ 62)

/-- Bit depths of a codec: VP9 and AV1 have 8, 10 and 12. -/
def depthNamed (codec d : Nat) : Bool := !(codec == 2 || codec == 3) || d % 2 == 0

/-- Picture dimensions that a decode stream may have (Table 5-1). -/
def decSize (w h : Nat) : Bool :=
  decide (8 ≤ w) && decide (8 ≤ h) && decide (w ≤ 16384) && decide (h ≤ 16384) && decide (w * h ≤ 35651584)

/-- A sequence-level header that the device supports, and whose pictures OUT_FORMAT holds (R113, R116, R144). -/
def seqSupported (p : Params) (sq : SeqInfo) : Bool :=
  (match (decProfiles p.codec)[sq.profile]? with
    | some r => r.1.contains sq.chroma && decide (r.2.1 ≤ sq.depthY) && decide (sq.depthY ≤ r.2.2) && decide (r.2.1 ≤ sq.depthC)
        && decide (sq.depthC ≤ r.2.2) && depthNamed p.codec sq.depthY && depthNamed p.codec sq.depthC
    | none => false)
    && decLevel p.codec sq.level && decSize sq.width sq.height && formatHolds sq.chroma (max sq.depthY sq.depthC) p.outFormat

/-- Tools that a codec's table lists as not supported for decode (R114). -/
def toolBarred (codec : Nat) (t : Tool) : Bool :=
  match codec with
  | 0 => [Tool.fmo, .aso, .redundantPictures, .dataPartitioning, .switchingSlices, .layered].contains t
  | 1 => [Tool.extendedPrecision, .bypassAlignment, .screenContent, .layered].contains t
  | 2 => false
  | 3 => t == .largeScaleTile
  | _ => [Tool.extendedPrecision, .layered].contains t

/-- A number of slices or tiles above the level's limit; every level admits one. -/
def aboveLevel (n limit : Nat) : Bool := decide (1 < n) && decide (limit < n)

/-- A picture exceeds a structural limit of Table 5-7. -/
def picOver (codec level : Nat) (i : PicInfo) : Bool :=
  let t := i.tileCols * i.tileRows
  (!(codec == 2 || codec == 3) && (decide (1024 < i.slices.length) || (level != 0 && aboveLevel i.slices.length (Config.levelSlices codec level))))
    || (match codec with
      | 0 => false
      | 2 => decide (64 < i.tileCols) || decide (4 < i.tileRows)
      | 3 => decide (128 < t) || (level != 0 && aboveLevel t (Config.levelTiles codec level))
      | _ => decide (440 < t) || (level != 0 && aboveLevel t (Config.levelTiles codec level)))

/-! ### The access unit (R127 to R131) -/

/-- Where the range's end cuts a unit, or its index does not add up, the picture loses its data from a CTU on (R128, R130, R153). -/
def lostDamage (i : PicInfo) : Damage := { header := false, ctu := i.dataEnd, cause := 0x04, count := 0 }

/-- The first coded unit of a second picture: the excess is ignored, and met after the picture's CTUs (R127). -/
def extraDamage (i : PicInfo) : Damage := { header := false, ctu := (i.segs.map SegInfo.ctus).foldl (· + ·) 0, cause := 0x05, count := 0 }

/-- The coded pictures of a range: those whose units are kept; one alone for AVC, HEVC and VVC (R123, R127). -/
def framedPics (p : Params) (f : Framed) (au : AuParse) : List PicInfo :=
  let own := au.pics.filter fun i => (f.units[i.unit_]?).any fun u => unitClass p.codec u == .coded && !outOfPoint p au.seq u
  let ps := if p.isVp then own else match own with
    | i :: _ :: _ => [{ i with damages := i.damages ++ [extraDamage i] }]
    | is => is
  if f.short || f.badIx then
    match ps.reverse with
    | i :: is => (is.reverse) ++ [{ i with damages := i.damages ++ [lostDamage i] }]
    | [] => []
  else ps

/-- What the device makes of an input range and of a parser's findings in it (R113, R114, R125, R127 to R131). -/
def framed (p : Params) (bs : List Byte) (size : Nat) (au : AuParse) : AuInfo :=
  let f := frame p bs
  let ps := framedPics p f au
  let level := (au.seq.map SeqInfo.level).getD 0
  { poisoned := au.poisoned
    unsupported :=
      if au.seq.any fun sq => !seqSupported p sq then some 0x10
      else if au.tools.any (toolBarred p.codec) || f.units.any (fun u => unitClass p.codec u == .unsupported) then some 0x11
      else none
    seq := au.seq
    overLimit := decide (8192 < f.units.length) || (p.codec == 3 && decide (8 < ps.length)) || ps.any (picOver p.codec level)
    rap := isRap p.codec f.units au
    missingTd := p.codec == 3 && !f.units.head?.any fun u => unitClass 3 u == .delimiter
    ends := f.units.any fun u => unitClass p.codec u == .endOf
    recovery := au.recovery
    damage := au.damage ++ (if ps.isEmpty && (f.short || f.badIx) then [{ header := true, ctu := 0, cause := 0x04, count := 0 }] else [])
    units := f.units
    psets := au.psets.filterMap fun k => match f.units[k.1]? with
      | some u => if unitClass p.codec u == .pset then some (k.2, u) else none
      | none => none
    pics := ps
    bytes := size }

/-- The signalled level × 10; 0 where none is. -/
def auLevel (au : AuInfo) : Nat := (au.seq.map SeqInfo.level).getD 0

/-- What ends a stream whatever the session's policy: the cause, the lowest where several hold (R158). -/
def streamStop (p : Params) (au : AuInfo) : Option Nat :=
  match au.unsupported with
  | some c => some c
  | none =>
    if au.seq.any fun sq => decide (p.maxW < sq.width) || decide (p.maxH < sq.height) then some 0x12
    else if au.seq.any fun sq => decide (p.dpbSlots < sq.dpbSize + 1) then some 0x13
    else if au.overLimit then some 0x14
    else none

end Sys2Proof.Machine
end

