-- ==== Sys2Proof/Machine/Flow.lean ====
section
/-! DEFINITION. What Babbitt does with an entry when its turn comes: the checks before any unit runs and the units of a
decode (02_sessions.md, 03_coding_core.md, 06_decoding.md). -/
namespace Sys2Proof.Machine

/-! ### Turns (R294, R303, R305, R309) -/

/-- The entry may be received: it holds its reservation; every earlier entry of its chain, and with FENCE of its queue, has
completed; and every entry fetched before it that names one of its sessions has been received (R294, R309). -/
def State.turn (s : State) (q : Nat) (e : QEntry) : Bool :=
  e.stage == .reserved
    && (s.queue q).entries.all (fun f => decide (e.order ≤ f.order) || f.stage == .done || (f.chain != e.chain && !e.fenced))
    && s.allEntries.all fun p => decide (e.order ≤ p.2.order) || p.2.received || !p.2.sessions.any fun n => e.sessions.contains n

/-- An entry of an opcode whose turn has come. -/
def State.due (s : State) (q : Nat) (seq : Word) (op : Nat) : Bool :=
  match (s.queue q).entry? seq with
  | some e => e.op == op && s.turn q e && (s.queue q).state != .free
  | none => false

/-- `f` on the entry, where it is due. -/
def State.onDue (s : State) (q : Nat) (seq : Word) (op : Nat) (f : QEntry → State → State) : State :=
  match (s.queue q).entry? seq with
  | some e => if s.live && e.op == op && s.turn q e then f e (s.modEntry q seq fun e => { e with stage := .running }) else s
  | none => s

/-! ### Units of a decode -/

/-- CTU columns and rows of a picture. -/
def ctuColsOf (i : PicInfo) : Nat := ceilDiv i.codedW (max 1 i.ctuSize)
def ctuRowsOf (i : PicInfo) : Nat := ceilDiv i.codedH (max 1 i.ctuSize)

/-- One core unit of a decode: fixed cycles, samples, luma, bytes, budget bytes (R78, R279). -/
def decUnit (u : WUnit) (x : Session) (info : PicInfo) (fixed level : Nat) (g : SegInfo) : WUnit :=
  let bpb := binsPerByte10 x.par.codec info.cavlc
  { u.costed (estCycles fixed 4 g.samples g.bytes bpb x.estCorr) (estCycles fixed 4 g.samples g.bytes bpb 256)
      (budgetOf 2 g.samples g.luma g.bytes (levelCeiling level)) with
    samples := g.samples, luma := g.luma, bytes := g.bytes, ctus := g.ctus, cols := g.cols, row0 := g.row0, rows := ctuRowsOf info }

/-- No segment. -/
def noSeg : SegInfo := { ctus := 0, samples := 0, luma := 0, bytes := 0, cols := 0, row0 := 0 }

/-- Some segments as one, of the columns and the first row of the first. -/
def sumSegs (gs : List SegInfo) : SegInfo :=
  gs.foldl (fun a g => { a with ctus := a.ctus + g.ctus, samples := a.samples + g.samples, luma := a.luma + g.luma, bytes := a.bytes + g.bytes })
    { noSeg with cols := (gs.headD noSeg).cols, row0 := (gs.headD noSeg).row0 }

/-- Wavefront rows in groups of 1 to 4 (R50). -/
def groupRows (x : Session) (info : PicInfo) : List SegInfo :=
  let cost := fun ix : List Nat => (fun g : SegInfo => estCycles 400 4 g.samples g.bytes (binsPerByte10 x.par.codec info.cavlc) x.estCorr)
    (sumSegs (ix.map fun i => info.segs.getD i noSeg))
  (cut (rowGroups cost 300000 info.segs.length (List.range info.segs.length)) info.segs).map sumSegs

/-- The tiles of one tile column, as one segment. -/
def tileColumn (info : PicInfo) (c : Nat) : SegInfo :=
  sumSegs ((List.range info.tileRows).map fun r => info.segs.getD (r * info.tileCols + c) noSeg)

/-- The segments of a picture by codec and stream structure (R28, R50, Table 2-7): tiles, VP9 tile columns, wavefront rows in groups,
or the whole picture. -/
def picSegs (x : Session) (info : PicInfo) : List SegInfo :=
  let tiled := decide (1 < info.tileCols * info.tileRows)
  let whole := [{ sumSegs info.segs with cols := ctuColsOf info, row0 := 0 }]
  match x.par.codec with
  | 0 => whole
  | 2 => if 1 < info.tileCols then (List.range info.tileCols).map (tileColumn info) else whole
  | 3 => if tiled then info.segs else whole
  | _ => if tiled then info.segs else if info.wavefront && decide (1 < info.segs.length) then groupRows x info else whole

/-- Segment units of a picture in coding order, numbered from `i`, the first CTU of the first being `c`. -/
def segUnits (u : WUnit) (x : Session) (info : PicInfo) (level : Nat) : Nat → Nat → List SegInfo → List WUnit
  | _, _, [] => []
  | i, c, g :: gs =>
    { decUnit { u with kind := .segment } x info 400 level g with seg := i, first := c } :: segUnits u x info level (i + 1) (c + g.ctus) gs

/-- A unit that decodes no picture: estimate and budget of R515, `b` its input bytes and `rel` the samples it releases. -/
def skipUnit (u : WUnit) (p : Params) (level b rel : Nat) : WUnit :=
  let est := 2400 + 4 * b + (if rel == 0 then 0 else 1000 + per15 rel)
  { u.costed est est (16384 + 2 * per15 rel + 3 * min b (ceilDiv (p.maxW * p.maxH) 4096 * levelCeiling level)) with
    skips := true, bytes := b, samples := rel }

/-- Cycles of the hash check in the unit that ends a picture, by which its budget is raised (R164). -/
def endRaise (p : Params) (info : PicInfo) : Nat :=
  if p.dphCheck && info.hash.isSome then ceilDiv (samplesOf p.chroma (info.codedW * info.codedH)) 6 else 0

/-- A unit with its budget raised. -/
def WUnit.raised (u : WUnit) (n : Nat) : WUnit := { u with budget := u.budget + n }

/-- Samples of some pictures. -/
def pictSamples (p : Params) (ps : List Pict) : Nat := (ps.map fun k => samplesOf p.chroma (k.width * k.height)).foldl (· + ·) 0

/-- Cycles that film grain adds to a unit that releases some pictures, and to its budget (R162). -/
def grainRaise (p : Params) (ps : List Pict) : Nat :=
  if p.filmGrain then ((ps.filter Pict.grain).map fun k => ceilDiv (samplesOf p.chroma (k.width * k.height)) 2).foldl (· + ·) 0 else 0

/-- The units of one coded picture (R48, Table 2-6): fused where it has a single segment. -/
def picUnits (u : WUnit) (x : Session) (info : PicInfo) (level inBytes : Nat) : List WUnit :=
  let gs := picSegs x info
  let hdr := 4 * x.prevHdr
  if info.showExisting.isSome then [skipUnit { u with kind := .start } x.par level info.codedBytes 0]
  else if gs.length ≤ 1 then
    let g := sumSegs gs
    [(decUnit { u with kind := .fused } x info (2400 + hdr + 400 + 1000 - 400) level
      { g with bytes := if inBytes == 0 then g.bytes else inBytes }).raised (endRaise x.par info)]
  else
    { u.costed (2400 + hdr) (2400 + hdr) 16384 with kind := .start, seg := 0 } ::
      (segUnits u x info level 0 0 gs ++
        [{ u.costed (1000 + ceilDiv info.edge 8) (1000 + ceilDiv info.edge 8) (budgetOf 2 info.edge 0 0 0) with
            kind := .finish, seg := gs.length, samples := info.edge }.raised (endRaise x.par info)])

/-- An entry of the session before this one, not yet complete, whose access unit is a random access point. -/
def State.rapPending (s : State) (n order : Nat) : Bool :=
  s.allEntries.any fun p => decide (p.2.order < order) && p.2.stage == .running && p.2.sess == n && (p.2.op == 1 || p.2.op == 3)
    && p.2.au.any fun a => a.rap && !a.pics.isEmpty

/-- The entry decodes nothing: before the first random access point, or in the skip condition (R152, R157). -/
def State.skipsNow (s : State) (n order : Nat) (au : AuInfo) : Bool :=
  ((s.sess n).beforeRap || (s.sess n).skip) && !au.rap && !s.rapPending n order

/-- The session's open picture: its picture start has committed, its picture finish has not, and no unit of it is left (R516). -/
def State.openPic (s : State) (n : Nat) : Option Nat :=
  ((s.sess n).results.find? fun r => r.started && !s.dsc.units.any fun u => u.session == n && u.pic == r.pic && u.kind.onCore).map PicResult.pic

/-- The number of an entry's first picture: that of the open picture it continues, or the next (R516). -/
def State.firstPic (s : State) (n : Nat) : Nat := (s.openPic n).getD (s.sess n).picNext

/-- The units of a decode entry. -/
def State.decodeUnits (s : State) (q : Nat) (e : QEntry) (au : AuInfo) : List WUnit :=
  let n := e.sess
  let x := s.sess n
  let ws := setWindow (refWindows x 0 (askWindows false (entryAsks x.par e.raw e.blocks))) 15 (s.ctxWindow n)
  let u := { blankUnit q e.seq n x.fn x.par.cls .start with windows := ws, pic := x.picNext }
  let b := s.firstPic n
  let size := e32 e.raw 24
  if au.pics.isEmpty || s.skipsNow n e.order au then [skipUnit u x.par (auLevel au) size 0]
  else ((List.range au.pics.length).zip au.pics).flatMap fun (p : Nat × PicInfo) =>
    dropDone x (b + p.1) (picUnits { u with pic := b + p.1 } x p.2 (auLevel au) (if au.pics.length == 1 then size else 0))

/-- Every unit of a list is queued, in order. -/
def State.addUnits (s : State) (us : List WUnit) : State := forEach us (fun u t => t.addUnit u) s

/-- The recover transition (R34, R36). -/
def State.recover (s : State) (n : Nat) : State :=
  if (s.sess n).state == .sessionReset then s.modSess n fun x => { x with state := .ready } else s

/-- An entry's output buffers are too small for a picture of the largest size (R146). -/
def outShort (p : Params) (e : QEntry) : Bool :=
  outAddr e.raw != 0 && outCount e.raw != 0 && decide (outSize e.raw < hostSize p.outFormat p.maxW p.maxH)

/-- Decode sessions: what ends an entry before it decodes anything; code and cause (R36, R37, R38, R146, R165, R231). -/
def State.decodeStop (s : State) (e : QEntry) (au : AuInfo) : Option (Nat × Nat) :=
  let x := s.sess e.sess
  let p := x.pendPar.getD x.par
  let b := e.blocks.headD 0
  let rpt := if e.op == 3 then (e64 b 0, e32 b 8) else (e64 e.raw 48, e32 e.raw 44)
  if x.state == .error || x.state == .draining || x.state == .free then some (0x40, 0)
  else if x.state == .sessionReset && !(au.rap && !au.pics.isEmpty) then some (0x30, 0)
  else if outShort p e then some (0x11, 0x22)
  else if rpt.1 != 0 && decide (rpt.2 < p.reportSize) then some (0x11, 0x22)
  else if e.op == 3 && e64 e.raw 56 != 0 && decide (e32 e.raw 44 < statNeed p) then some (0x11, 0x22)
  else none

/-- The bytes of an entry's input range: from device memory, or as they came from the host's, zeros beyond what came (R161). -/
def State.inputBytes (s : State) (e : QEntry) (au : AuParse) : List Byte :=
  let n := e32 e.raw 24
  if e8 e.raw 28 == 1 then s.memRead (e64 e.raw 16) n else (au.data ++ List.replicate (n - au.data.length) 0).take n

/-- An entry's access unit as the device decodes it; poison in a range of device memory is met there (R127, R168). -/
def State.auOf (s : State) (e : QEntry) (au : AuParse) : AuInfo :=
  let n := e32 e.raw 24
  let a := framed (s.sess e.sess).par (s.inputBytes e au) n au
  if e8 e.raw 28 == 1 then { a with poisoned := s.poisoned (e64 e.raw 16) n } else a

/-- A DECODE_AU or TRANSCODE_AU entry is received (R75, R146, R127). -/
def decodeReceive (q : Nat) (p : AuParse) (e : QEntry) (s : State) : State :=
  let x := s.sess e.sess
  let au := s.auOf e p
  match s.decodeStop e au with
  | some (code, cause) => s.endEntry q e.seq code cause
  | none =>
    match s.badWindow x.fn (entryAsks x.par e.raw e.blocks) with
    | some w => (s.reportWindow x.fn e.sess w).endEntry q e.seq 0x11 0x23
    | none =>
      let us := s.decodeUnits q e au
      let t := ((s.recover e.sess).modEntry q e.seq fun f => { f with au := some au, pics := if au.pics.isEmpty || s.skipsNow e.sess e.order au then [] else (us.map WUnit.pic).eraseDups }).modSess e.sess
        fun y => { y with picNext := if us.all fun u => u.skips then y.picNext else max y.picNext (s.firstPic e.sess + au.pics.length) }
      (t.refuseRends q e).addUnits us

def execDecodeAu (q : Nat) (seq : Word) (au : AuParse) (s : State) : Res := .next (s.onDue q seq 1 (decodeReceive q au))

/-- A rendition session that cannot take part ends alone (R38). -/
def State.dropRends (s : State) (q : Nat) (e : QEntry) : State :=
  forEach (e.rends.map RendRes.session) (fun n t =>
    if (t.sess n).state == .draining || (t.sess n).state == .free then t.modEntry q e.seq (setRend n 0x40 0) else t) s

/-- A TRANSCODE_AU entry: its decode is queued; analysis, conversion and encode units follow each release (R15, R191). -/
def transcodeReceive (q : Nat) (au : AuParse) (e : QEntry) (s : State) : State :=
  let t := s.dropRends q e
  decodeReceive q au (((t.queue q).entry? e.seq).getD e) t

def execTranscodeAu (q : Nat) (seq : Word) (au : AuParse) (s : State) : Res := .next (s.onDue q seq 3 (transcodeReceive q au))

/-! ### COPY and FENCE (R350, R302) -/

/-- The protection tables refuse a range of a COPY (R350). -/
def State.copyRefused (s : State) (fn : Nat) (e : Entry) : Bool :=
  (e8 e 36 == 1 && !s.granted fn (e64 e 16) (e32 e 32)) || (e8 e 37 == 1 && !s.granted fn (e64 e 24) (e32 e 32))

/-- The least in-flight entry that is free, of those below a limit (R289). -/
def State.freeInflightIx (s : State) : Option Nat :=
  (List.range 4096).find? fun i => !s.dsc.inflight.any fun p => p.1 == i

/-- An in-flight entry is taken: its generation moves on (R289). -/
def State.takeInflight (s : State) (ix uid : Nat) : State :=
  s.modDsc fun d => { d with inflight := d.inflight ++ [(ix, uid)], gens := tblMod 0 d.gens ix fun g => g + 1 }

/-- The in-flight tag of an entry (R289). -/
def State.tagOf (s : State) (ix : Nat) : BitVec 16 := BitVec.ofNat 16 ((tblGet 0 s.dsc.gens ix).toNat * 4096 + ix)

/-- Entries held by units of lanes 2 to 7 (R289). -/
def State.lowLaneHeld (s : State) : Nat :=
  (s.dsc.inflight.filter fun p => match s.unit? p.2 with
    | some u => decide (2 ≤ s.laneOf u.cls)
    | none => true).length

/-- A unit of a lane may take an in-flight entry (R289). -/
def State.laneMayHold (s : State) (lane : Nat) : Bool :=
  (decide (lane < 2) || decide (s.lowLaneHeld < 3840)) && s.freeInflightIx.isSome

/-- A COPY entry is handed to the Data Mover: at most 16 at once, each holding an in-flight entry (R350). -/
def copyReceive (q : Nat) (e : QEntry) (s : State) : State :=
  if s.copyRefused (s.queue q).fn e.raw then s.endEntry q e.seq 0x11 0x23
  else
    match s.freeInflightIx with
    | none => s
    | some ix =>
      let uid := s.dsc.nextUid
      (((s.takeInflight ix uid).modDsc fun d => { d with nextUid := uid + 1 }).modEntry q e.seq fun f => { f with started := true }).modDmv
        fun d => { d with copies := d.copies ++
          [{ q := q, seq := e.seq, src := e64 e.raw 16, srcSpace := e8 e.raw 36, dst := e64 e.raw 24, dstSpace := e8 e.raw 37,
             len := e32 e.raw 32, rdDone := 0, wrDone := 0, failed := false, uid := uid }] }

def execCopy (q : Nat) (seq : Word) (s : State) : Res :=
  .next (onlyIf (decide (s.dmv.copies.length < 16) && !(s.func (s.queue q).fn).d3 && s.laneMayHold (s.laneOf (s.queue q).cls))
    (fun t => t.onDue q seq 6 (copyReceive q)) s)

/-- Every earlier entry's outputs and result are visible to the host (R302, R307). -/
def State.earlierVisible (s : State) (q : Nat) (e : QEntry) : Bool :=
  (s.queue q).entries.all fun f => decide (e.order ≤ f.order) || (s.linesAcked f.lines && !f.roOut)

/-- A FENCE entry writes VALUE and completes (R302, Table 13-10). -/
def fenceReceive (q : Nat) (e : QEntry) (s : State) : State :=
  let fn := (s.queue q).fn
  let a := e64 e.raw 16
  if a == 0 then s.endEntry q e.seq 0 0
  else if s.windowOk fn (e8 e.raw 32) a 8 then
    let t := s.putRecord fn (e8 e.raw 32) a (leBytes 8 (e64 e.raw 24))
    (t.modEntry q e.seq fun f => { f with lines := if e8 e.raw 32 == 1 then f.lines ++ linesOf a 8 else f.lines }).endEntry q e.seq 0 0
  else s.endEntry q e.seq 0x11 0x23

def execFence (q : Nat) (seq : Word) (s : State) : Res :=
  .next (onlyIf (((s.queue q).entry? seq).any fun e => s.earlierVisible q e) (fun t => t.onDue q seq 8 (fenceReceive q)) s)

end Sys2Proof.Machine
end

