-- ==== Sys2Proof/Machine/Intake.lean ====
section
/-! DEFINITION. Entries that bring source pictures, conversions and flushes, as Babbitt receives them (07_encoding.md,
09_motion_analysis.md, 11_pixel_conversion.md, 13_work_queues.md). -/
namespace Sys2Proof.Machine

/-! ### A chain as Babbitt receives it (R75, R288) -/

/-- The window sets of one entry are checked: one that fails is refused whole, failed renditions of a TRANSCODE_AU alone (R75). -/
def State.checkEntry (s : State) (q : Nat) (e : QEntry) : State :=
  if !s.checksWindows e then s
  else
    match s.badWindow (s.queue q).fn (s.asksOf e) with
    | some w => (s.reportWindow (s.queue q).fn e.sess w).endEntry q e.seq 0x11 0x23
    | none => s.refuseRends q e

/-- The chain that has taken its reservations: every entry's window sets are checked before any unit of it is hinted (R75, R288). -/
def reserveChainOp (q : Nat) (s : State) : State :=
  let t := reserveOp q s
  let new := (t.queue q).entries.filter fun e => e.stage == .reserved && ((s.queue q).entry? e.seq).any fun f => f.stage == .fetched
  forEach new (fun e v => v.checkEntry q e) t

def execCompletionReservation (q : Nat) (s : State) : Res :=
  .next (onlyIf (s.live && (s.queue q).state != .free) (reserveChainOp q) s)

/-! ### ENCODE_PICTURE and ANALYZE_PICTURE (R171, R172, R229) -/

/-- A source picture as its entry brings it. -/
def newSource (q : Nat) (e : QEntry) : SrcPic :=
  { index := e32 e.raw 12, entryQ := q, entrySeq := e.seq, slot := 0, width := srcW e.raw, height := srcH e.raw, taken := false,
    forceKey := e.op == 2 && bitAt (eArg e.raw) 4, sizeKey := false, firstKey := false, followKey := false, score := 0, decided := false,
    key := false, keyScene := false, bpic := false, layer := 0, hiddenWith := false, codedIx := none, refs := [], coded := false,
    kind := 0, feed := none, lead := none, ruled := none, hidden_ := false, direct := false, ready := true, showOrd := 0, failed := 0, band := none, store := ⟨0, 0⟩ }

/-- The picture that the entry names was taken in and failed: a resubmission (R172). -/
def State.resubmitted (s : State) (e : QEntry) : Bool :=
  ((s.sess e.sess).pic? (e32 e.raw 12)).any fun p => p.taken && p.failed != 0

/-- What ends a source entry before it takes anything in: code and cause (R37, R38, R193, R231). -/
def State.sourceStop (s : State) (e : QEntry) : Option (Nat × Nat) :=
  let x := s.sess e.sess
  if x.state == .error || x.state == .draining || x.state == .free then some (0x40, 0)
  else if (statBuf e.raw).1 != 0 && decide ((statBuf e.raw).2.1 < statNeed x.par) then some (0x11, 0x22)
  else none

/-- A new source picture: its place among the session's pictures, and the MAU unit that takes it in (R172, R221). -/
def State.takeSource (s : State) (q : Nat) (e : QEntry) : State :=
  let n := e.sess
  let x := s.sess n
  let p := newSource q e
  let u := mauUnit (blankUnit q e.seq n x.fn x.par.cls .mau) p.index p.width p.height (decide (1 ≤ x.par.lookahead) && p.index != 0)
  (s.modSess n fun y => { y with src := insertBy (fun r : SrcPic => (r.index : Int)) p y.src, intakeOp := e.op }).addUnit u

/-- A resubmission: the picture belongs to the new entry, and its units run again (R172, R176, R516). -/
def State.resubmit (s : State) (q : Nat) (e : QEntry) : State :=
  let n := e.sess
  let ix := e32 e.raw 12
  let t := s.modSess n fun x => x.modPic ix fun p => { p with entryQ := q, entrySeq := e.seq, failed := 0 }
  let u := t.modEntry q e.seq fun f => { f with analysed := f.op == 5 }
  match (u.sess n).pic? ix with
  | some p => if p.decided then u.queuePic n p else u.settleAnalysis n
  | none => u

/-- An entry with a source picture is received; a resubmission's source fields are ignored. -/
def sourceReceive (q : Nat) (e : QEntry) (s : State) : State :=
  let x := s.sess e.sess
  let again := s.resubmitted e
  match s.sourceStop e with
  | some (code, cause) => (s.endEntry q e.seq code cause).advanceAll e.sess
  | none =>
    match s.badWindow x.fn ((entryAsks x.par e.raw e.blocks).filter fun a => !(again && a.1 == 0)) with
    | some w => ((s.reportWindow x.fn e.sess w).endEntry q e.seq 0x11 0x23).advanceAll e.sess
    | none => if again then s.resubmit q e else (s.recover e.sess).takeSource q e

/-- An ENCODE_PICTURE entry is received. -/
def encodeReceive (q : Nat) (e : QEntry) (s : State) : State := sourceReceive q e s

/-- An ANALYZE_PICTURE entry is received. -/
def analyzeReceive (q : Nat) (e : QEntry) (s : State) : State := sourceReceive q e s

def execEncodePicture (q : Nat) (seq : Word) (s : State) : Res := .next (s.onDue q seq 2 (encodeReceive q))
def execAnalyzePicture (q : Nat) (seq : Word) (s : State) : Res := .next (s.onDue q seq 5 (analyzeReceive q))

/-! ### CONVERT_PICTURE (R256, R257) -/

/-- The source of a conversion; of a PF_NITINOL source the entry gives no chroma format (log entry 25). -/
def convertShape (e : Entry) : PicShape :=
  { w := srcW e, h := srcH e
    chroma := if srcFormat e == 15 then (Config.nitinolChroma (e64 e 16) (srcW e) (srcH e)).toNat else formatChroma (srcFormat e) }

/-- Depths that a format holds (Table 10-1). -/
def formatDepth (f d : Nat) : Bool := if f == 0 then d == 8 else if f == 2 then decide (d ≤ 10) else true

/-- R256's one pass and R257's conditions. -/
def State.convertFails (s : State) (e : QEntry) : Bool :=
  let p := convertShape e.raw
  (e.blocks.any fun d => !sameFront s p (e.blocks.headD 0) d) || e.blocks.any fun d =>
    match s.template? (odRoute d) with
    | some t => outputFails t d p 65535 65535 (if odFormat d == 15 then t.chroma else formatChroma (odFormat d)) (formatDepth (odFormat d) t.depth)
    | none => true

/-- An output buffer is smaller than its picture (R257). -/
def convertSmall (s : State) (e : QEntry) : Bool :=
  let p := convertShape e.raw
  e.blocks.any fun d => match s.template? (odRoute d) with
    | some t => decide (odSize d < pictureSize (odFormat d) t.chroma (dstOf d p).1 (dstOf d p).2)
    | none => false

/-- A source, output or LUT outside the regions granted to the function (R257, R75). -/
def State.convertRefused (s : State) (fn : Nat) (e : QEntry) : Bool :=
  let p := convertShape e.raw
  !s.windowOk fn (e8 e.raw 28) (e64 e.raw 16) (pictureSize (srcFormat e.raw) p.chroma p.w p.h)
    || e.blocks.any fun d => !s.windowOk fn (odSpace d) (odAddr d) (odSize d) || (s.usesLut d && !s.granted fn (odLut d) 39304)

/-- A CONVERT_PICTURE entry is received: it fails whole, or runs as one pass in its queue's class (R256). -/
def convertReceive (q : Nat) (e : QEntry) (s : State) : State :=
  let w := s.queue q
  let p := convertShape e.raw
  if s.convertFails e then s.endEntry q e.seq 0x41 0x24
  else if convertSmall s e then s.endEntry q e.seq 0x11 0x22
  else if s.convertRefused w.fn e then s.endEntry q e.seq 0x11 0x23
  else s.addUnit { blankUnit q e.seq (noSession q) w.fn w.cls .pcf with
    outputs := List.range e.blocks.length, lut := odLut (e.blocks.headD 0), samples := s.passSamples p e.blocks,
    cost := per15 (s.passCost p e.blocks) }

def execConvertPicture (q : Nat) (seq : Word) (s : State) : Res := .next (s.onDue q seq 4 (convertReceive q))

/-! ### FLUSH_SESSION (R36, R146, R177, R191) -/

/-- What ends a FLUSH_SESSION entry at once: code and cause. -/
def State.flushStop (s : State) (e : QEntry) : Option (Nat × Nat) :=
  let x := s.sess e.sess
  if x.state == .error || x.state == .draining || x.state == .free then some (0x40, 0)
  else if x.state == .sessionReset then some (0, 0)
  else if !x.par.encode && outAddr e.raw != 0 && outCount e.raw != 0
      && decide (outSize e.raw < hostSize x.par.outFormat x.par.maxW x.par.maxH) then some (0x11, 0x22)
  else if !x.par.encode && e64 e.raw 32 != 0 && decide (e32 e.raw 40 < x.par.reportSize) then some (0x11, 0x22)
  else none

/-- The pictures that a flush releases: those held for a buffer and those awaiting output. -/
def Session.toRelease (x : Session) : List Pict := x.pics.filter fun p => p.due || p.awaiting

/-- The release unit of a decode session's flush (R147, R162, R515). -/
def State.releaseUnit (s : State) (q : Nat) (e : QEntry) : WUnit :=
  let x := s.sess e.sess
  let u := { blankUnit q e.seq e.sess x.fn x.par.cls .release with
    windows := setWindow (refWindows x 0 (askWindows false (entryAsks x.par e.raw e.blocks))) 15 (s.ctxWindow e.sess), pic := x.picNext }
  skipUnit u x.par 0 0 (pictSamples x.par x.toRelease)

/-- An encode session's flush completes once every picture taken in before it has left (R177). -/
def State.settleFlush (s : State) (q : Nat) (e : QEntry) : State :=
  if (s.sess e.sess).src.any (fun p => !p.coded && p.failed == 0 && s.flushed e.sess p)
      || (s.sourceEntries e.sess).any (fun f => decide (f.order < e.order)) then s
  else s.closeEntry q e.seq 0 0

/-- Every encode flush of a session that may complete does. -/
def State.settleFlushes (s : State) (n : Nat) : State :=
  forEach s.allEntries (fun p t =>
    if p.2.op == 7 && p.2.sess == n && p.2.stage == .running && !p.2.closing && (t.sess n).par.encode then t.settleFlush p.1 p.2 else t) s

/-- A FLUSH_SESSION entry is received. -/
def flushReceive (q : Nat) (e : QEntry) (s : State) : State :=
  let x := s.sess e.sess
  match s.flushStop e with
  | some (code, cause) => s.endEntry q e.seq code cause
  | none =>
    match s.badWindow x.fn (entryAsks x.par e.raw e.blocks) with
    | some w => (s.reportWindow x.fn e.sess w).endEntry q e.seq 0x11 0x23
    | none => if x.par.encode then s.settleFlush q e else (s.refuseRends q e).addUnit (s.releaseUnit q e)

def execFlushSession (q : Nat) (seq : Word) (s : State) : Res := .next (s.onDue q seq 7 (flushReceive q))

end Sys2Proof.Machine
end

