-- ==== Sys2Proof/Machine/Context.lean ====
section
/-! DEFINITION. Electrum: its cache, preload hints, prefetch and bank drains; and the reservations of sessions
(02_sessions.md, R329). -/
namespace Sys2Proof.Machine

/-! ### Reservations (R63, R173, R219, R329) -/

/-- Bytes of a session's four reservations: reference slots, source slots, staging area, analysis slots. -/
def reserveBytes (p : Params) : List Nat :=
  [p.dpbSlots * refSlotSize p,
   if p.encode && p.srcMode == 0 then srcSlots p * srcSlotSize p else 0,
   if p.encode && (p.gangMax != 0 || (p.isVp && decide (1 < p.minigop))) then
     up4k ((if p.isVp && decide (1 < p.minigop) then 2 else 1) * stagePic p) else 0,
   anaSlots p * anaSlotSize p]

/-- Kind of region that holds a reservation (Table 20-9). -/
def reserveKind (i : Nat) : Nat := if i == 3 then 4 else 3

/-- Ranges that sessions hold. -/
def State.heldRanges (s : State) : List Range :=
  ((tblKeys s.sessions).flatMap fun n =>
    let x := s.sess n
    [x.refR, x.srcR, x.stageR, x.mauR] ++ x.oldR ++ x.nextR ++ x.src.map SrcPic.store).filter fun r => r.size != 0

/-- No page of the range is retired: every stripe it touches is in service on every channel (R426). -/
def State.inService (s : State) (a n : Nat) : Bool :=
  s.rankSize == 0 || n == 0 || !((List.range (s.stripeOf (a + n - 1) - s.stripeOf a + 1)).any fun i =>
    (List.range 16).any fun k => (s.chn k).retired.getLsbD (s.stripeOf a + i))

/-- The range is free. -/
def rangeFree (held : List Range) (a n : Nat) : Bool := held.all fun r => !(decide (a < r.base + r.size) && decide (r.base < a + n))

/-- Where a range of `n` bytes may lie in a region: the place that free value `k` proposes, then its start and the ends of the
held ranges (R329; log entry 5). -/
def placesIn (held : List Range) (k n : Nat) (r : Region) : List Nat :=
  [r.base + 4096 * (k % ((r.size - n) / 4096 + 1)), r.base] ++ held.map fun h => roundUp (h.base + h.size) 4096

/-- One contiguous range of a region kind, at a placement of the device's own choosing; none where no place holds it (R329). -/
def State.reserve (s : State) (held : List Range) (kind n k : Nat) : Option Range :=
  if n == 0 then some ⟨0, 0⟩
  else
    ((s.boot.regions.filter fun r => r.kind == kind).flatMap fun r =>
      (placesIn held k n r).filterMap fun a =>
        if r.base ≤ a ∧ a + n ≤ r.base + r.size ∧ rangeFree held a n ∧ s.inService a n then some (Range.mk a n) else none).head?

/-- The four reservations of some parameters, all of them, or the bytes of the first that does not fit; `old` holds those that
need not be taken afresh (R329). -/
def State.reserveAll (s : State) (sizes : List Nat) (old : List Range) : Nat ⊕ List Range :=
  (List.range 4).foldl (fun (acc : Nat ⊕ List Range) i =>
    match acc with
    | .inl n => .inl n
    | .inr rs =>
      let n := sizes.getD i 0
      let o := old.getD i ⟨0, 0⟩
      if n ≤ o.size then .inr (rs ++ [⟨o.base, n⟩])
      else
        match s.reserve (s.heldRanges ++ rs) (reserveKind i) n (Config.freeValue (s.free + i) 64).toNat with
        | some r => .inr (rs ++ [r])
        | none => .inl n) (.inr [])

/-- The state after the four placements are taken (log entry 5). -/
def State.tookPlaces (s : State) : State := { s with free := s.free + 4 }

/-- A session with its four ranges. -/
def Session.withRanges (x : Session) (rs : List Range) : Session :=
  { x with refR := rs.getD 0 ⟨0, 0⟩, srcR := rs.getD 1 ⟨0, 0⟩, stageR := rs.getD 2 ⟨0, 0⟩, mauR := rs.getD 3 ⟨0, 0⟩ }

/-- Before its next unit, a session's lost lines are zeroed, and reservations on retired pages are taken again (R426,
R442). -/
def State.restoreSession (s : State) (n : Nat) : State :=
  let x := s.sess n
  let t := forEach x.zero (fun l u => u.memWrite (lineOf l) (List.replicate 64 0)) s
  let u := t.modSess n fun y => { y with zero := [] }
  if x.rebuild then
    let v := u.modSess n fun y => y.withRanges []
    match v.reserveAll (reserveBytes x.par) [] with
    | .inr rs => (v.modSess n fun y => { y.withRanges rs with rebuild := false }).tookPlaces
    | .inl _ => u
  else u

/-! ### Context versions and the directory (Tables 2-3 to 2-5) -/

/-- The committed and the working slot of a session's context (R41). -/
def State.ctxSlot (s : State) (n : Nat) (working : Bool) : Nat :=
  s.ctxBase n + (if (s.sess n).vsel != working then 16384 else 0)

/-- REF_BASE: the old range until the unit that gives it up commits (R329). -/
def Session.refBase (x : Session) : Nat := (x.oldR.headD x.refR).base

/-- The session header (R42, Table 2-4). -/
def State.headerBytes (s : State) (n : Nat) : List Byte :=
  let x := s.sess n
  let p := x.par
  leBytes 64 (put 0 20 x.fn + put 0 0 n + put 4 26 (s.laneOf p.cls) + put 4 16 p.cls + put 4 12 p.depthC + put 4 8 p.depthY
    + put 4 5 p.chroma + put 4 4 (b2n p.encode) + put 4 0 p.codec + put 8 0 x.unitSeq.toNat + put 12 16 p.conceal
    + put 12 9 p.lookahead + put 12 5 p.gangMax + put 12 0 p.dpbSlots + put 16 16 p.maxH + put 16 0 p.maxW
    + put 24 0 x.pictures.toNat + put 32 0 x.commitTime.toNat + put 40 0 x.refBase)

/-- The 16 bytes of a member slot: the progress record, then as much of the synchronisation state as it holds (log entry 42). -/
def Member.bytes (m : Member) : List Byte := leBytes 4 m.done ++ ((m.sync ++ List.replicate 12 0).take 12)

/-- The head of a session's committed version (Table 2-3): header, parameters, the regions whose inner layout the spec leaves
open, and the member slots (log entry 42). -/
def State.headBytes (s : State) (n : Nat) : List Byte :=
  let x := s.sess n
  s.headerBytes n ++ leBytes 960 x.par.block.toNat
    ++ (List.range 2816).map (fun i => Config.headByte n x.unitSeq.toNat (1024 + i))
    ++ (List.range 16).flatMap fun i => (tblGet ⟨0, 0, []⟩ x.members i).bytes

/-- A session's head is written to a slot in device memory, its header line to the other slot too, and the directory entry that travels
with it (R43, R57, R58, R443). -/
def State.writeHead (s : State) (n : Nat) (working : Bool) : State :=
  ((s.memWrite (s.ctxSlot n working) (s.headBytes n)).memWrite (s.ctxSlot n (!working)) (s.headerBytes n)).writeDir n

/-- The session parameter block is written to both slots, as whenever it changes (R443). -/
def State.writeParams (s : State) (n : Nat) : State :=
  let bs := leBytes 960 (s.sess n).par.block.toNat
  (s.memWrite (s.ctxSlot n false + 64) bs).memWrite (s.ctxSlot n true + 64) bs

/-! ### The cache (R57 to R60) -/

/-- Lines of a set. -/
def State.cacheSet (s : State) (n : Nat) : List CLine := tblGet [] s.ctx.sets (n % 256)

/-- A session's line is pinned: a bank holds or awaits its head, or a commit of it is in progress (R57). -/
def State.pinned (s : State) (n : Nat) : Bool := s.dsc.units.any fun u => u.session == n && u.kind.onCore && (u.hinted || u.active)

/-- The head is in the cache. -/
def State.cached (s : State) (n : Nat) : Bool := (s.cacheSet n).any fun l => l.session == n

/-- Ways of a set that are in service (Table 19-5). -/
def State.ways (s : State) (n : Nat) : Nat := 16 - tblGet 0 s.ctx.lostWays (n % 256)

/-- A set's lines with another list. -/
def State.setLines (s : State) (n : Nat) (ls : List CLine) : State :=
  s.modCtx fun c => { c with sets := tblSet [] c.sets (n % 256) ls }

/-- A line is used: it becomes the most recently used. -/
def State.touch (s : State) (n : Nat) : State :=
  (s.setLines n ((s.cacheSet n).map fun l => if l.session == n then { l with used := s.ctx.stamp + 1 } else l)).modCtx
    fun c => { c with stamp := c.stamp + 1 }

/-- The line that gives way: the least recently used of the unpinned lines that may be replaced. -/
def State.victim (s : State) (n : Nat) (may : Nat → Bool) : Option Nat :=
  (leastBy (fun l : CLine => (l.used : Int)) ((s.cacheSet n).filter fun l => !s.pinned l.session && may l.session)).map CLine.session

/-- The line of a session that gives way is written back to its slot first if it is dirty (R57). -/
def State.evict (s : State) (v : Nat) : State :=
  let t := if (s.cacheSet v).any fun l => l.session == v && l.dirty then s.writeHead v false else s
  t.setLines v ((t.cacheSet v).filter fun l => l.session != v)

/-- A line is allocated for a session, another giving way where the set is full; none where every line is pinned. -/
def State.allocLine (s : State) (n : Nat) (may : Nat → Bool) : Option State :=
  let put := fun t : State => (t.setLines n (t.cacheSet n ++ [{ session := n, dirty := false, used := t.ctx.stamp + 1 }])).modCtx
    fun c => { c with stamp := c.stamp + 1 }
  if (s.cacheSet n).length < s.ways n then some (put s)
  else (s.victim n may).map fun v => put (s.evict v)

/-- The first head of a new session: in a line that no version in device memory agrees with yet, or written to its slot where every line
is pinned (R34, R57, R58). -/
def State.openHead (s : State) (n : Nat) : State :=
  let p := s.writeParams n
  match p.allocLine n fun _ => true with
  | some t => t.modCtx fun c => { c with sets := tblMod [] c.sets (n % 256) fun ls => ls.map fun l => if l.session == n then { l with dirty := true } else l }
  | none => p.writeHead n false

/-- A preload hint is served from the cache or from device memory; with every line pinned the bank bypasses the cache
(R58, R59). -/
def State.hint (s : State) (n : Nat) : State :=
  if s.cached n then (s.touch n).modCtx fun c => { c with hits := sat64 c.hits 1 }
  else
    let t := s.modCtx fun c => { c with misses := sat64 c.misses 1 }
    match t.allocLine n fun _ => true with
    | some u => u
    | none => t.modCtx fun c => { c with bypass := sat32 c.bypass 1 }

/-! ### Banks -/

/-- A bank of a half. -/
def Half.bank (x : Half) (k : Nat) : BankState := if k == 0 then x.bank0 else x.bank1

/-- A half with a bank in another state. -/
def Half.setBank (x : Half) (k : Nat) (b : BankState) : Half := if k == 0 then { x with bank0 := b } else { x with bank1 := b }

/-- The preload of a bank is done: the bank is ready; where its dispatch time has passed with the half free, the dispatch
was late (R59). -/
def preloadOp (h k : Nat) (s : State) : State :=
  match (s.half h).bank k with
  | .loading n t =>
    let u := s.modHalf h fun x => x.setBank k (.ready n t)
    if t + 2000 < s.time && (s.half h).unit.isNone then u.modCtx fun c => { c with late := sat32 c.late 1 } else u
  | _ => s

def execPreloadDone (half bank : Nat) (s : State) : Res :=
  .next (onlyIf (s.live && decide (bank < 2)) (preloadOp half bank) s)

/-- A released bank has drained and is free for the next hint; a fencing half may settle (R61, R82). -/
def drainOp (h k : Nat) (s : State) : State :=
  match (s.half h).bank k with
  | .draining _ => (s.modHalf h fun x => x.setBank k .empty).settleHalf h
  | _ => s

def execBankDrainDone (half bank : Nat) (s : State) : Res :=
  .next (onlyIf (s.live && decide (bank < 2)) (drainOp half bank) s)

end Sys2Proof.Machine
end

