-- ==== Sys2Proof/Machine/Flags.lean ====
section
/-! DEFINITION. Flags, causes and codes of decoded pictures and entries, and the decode report that carries them
(06_decoding.md, Tables 6-5 to 6-12). -/
namespace Sys2Proof.Machine

/-! ### DFLAGS (Table 6-11) -/

/-- A flag at its bit. -/
def dflag (n : Nat) (b : Bool) : BitVec 16 := if b then BitVec.twoPow 16 n else 0

/-- What was gathered for a picture beside the parser's findings; an unlisted one has nothing. -/
def Session.result (x : Session) (pic : Nat) : PicResult :=
  (x.results.find? fun r => r.pic == pic).getD
    { pic := pic, started := false, segs := [], cycles := 0, estSum := 0, bytes := 0, filler := 0, units := 0, stage1 := false, stage2 := false, window := false, budget := false, missing := false, blocks := [], pieces := [], damages := [] }

/-- Change what is gathered for a picture. -/
def Session.modResult (x : Session) (pic : Nat) (f : PicResult → PicResult) : Session :=
  { x with results := (x.results.filter fun r => r.pic != pic) ++ [f (x.result pic)] }

/-! ### Random access and recovery (R152) -/

/-- The unit's picture is the first of its entry. -/
def WUnit.leads (u : WUnit) (e : QEntry) : Bool := u.pic == e.pics.headD u.pic

/-- A session as the picture start of a random access point leaves it: decoding begins, the skip condition ends, and a recovery point is
awaited where decoding begins at it (R36, R152, R157). -/
def Session.atRap (x : Session) (au : AuInfo) (info : PicInfo) : Session :=
  let begins := x.beforeRap || x.skip
  let m := max 1 ((au.seq.map SeqInfo.maxFrameNum).getD 1)
  { x with
    recovering := begins, beforeRap := false, skip := false, recoverAt := none
    recoverTo := if !begins then none else au.recovery.map fun k =>
      if x.par.codec == 0 then (((info.frameNum + k) % m : Nat) : Int) else info.order.toInt + (k : Int) }

/-- A session as a unit's picture sees it: in the first picture of a random access point, as that leaves it. -/
def Session.seen (x : Session) (u : WUnit) (e : QEntry) (au : AuInfo) (info : PicInfo) : Session :=
  if u.kind.begins && au.rap && u.leads e then x.atRap au info else x

/-- A picture precedes the recovery point: until it is decoded, for AVC every picture of another frame_num, for VVC every picture of a
lower count; from then on, every picture that comes before it in output order (R152). -/
def Session.recovers (x : Session) (info : PicInfo) : Bool :=
  x.recovering && match x.recoverAt, x.recoverTo with
    | some o, _ => decide (info.order.toInt < o)
    | none, some t => if x.par.codec == 0 then ((info.frameNum : Int) != t) else decide (info.order.toInt < t)
    | none, none => false

/-- The recovery point is decoded (R152). -/
def Session.noteRecovery (x : Session) (info : PicInfo) : Session :=
  if x.recovering && x.recoverTo.isSome && x.recoverAt.isNone && !x.recovers info then { x with recoverAt := some info.order.toInt } else x

/-! ### Missing references and parameter sets (R153, R159) -/

/-- The picture has a number, or had it before its second field was decoded. -/
def Pict.isNum (p : Pict) (n : Nat) : Bool := p.num == n || p.mate == some n

/-- A picture is being decoded. -/
def Pict.open_ (p : Pict) : Bool := p.readers != 0 && p.relIndex.isNone

/-- The session holds a decoded picture that may be referred to. -/
def Session.refPict (x : Session) (n : Nat) : Option Pict := x.pics.find? fun p => p.isNum n && !p.virtual && (p.isRef || p.open_)

/-- A picture predicts from a reference that the session does not hold (R159). -/
def Session.lacksRef (x : Session) (info : PicInfo) : Bool :=
  info.refs.any (fun n => (x.refPict n).isNone) || info.showExisting.any fun n => (x.refPict n).isNone

/-- A header refers to a parameter set that is neither stored nor in the access unit (R153). -/
def Session.lacksSet (x : Session) (au : AuInfo) (info : PicInfo) : Bool :=
  info.needs.any fun k => !(au.psets.any fun p => p.1 == k) && (tblGet [] x.psets k).isEmpty

/-- A unit's picture uses a missing reference: decided as its first unit runs. -/
def Session.missingOf (x : Session) (u : WUnit) (info : PicInfo) : Bool :=
  if u.kind.begins then x.lacksRef info else (x.result u.pic).missing

/-- Every damage of a unit's picture: the entry's at its first picture, the parser's, a parameter set not stored, the units', and a
missing reference unless the picture precedes the recovery point (R153, R156, R160). -/
def Session.picDamage (x : Session) (u : WUnit) (e : QEntry) (au : AuInfo) (info : PicInfo) : List Damage :=
  (if u.leads e then au.damage else []) ++ info.damages
    ++ (if u.kind.begins && x.lacksSet au info then [{ header := true, ctu := 0, cause := 0x09, count := 0 }] else [])
    ++ (x.result u.pic).damages
    ++ (if x.missingOf u info && !(x.seen u e au info).recovers info then [{ header := true, ctu := 0, cause := 0x06, count := 0 }] else [])

/-- Order of damage: a header before every CTU, the earliest CTU, the lower code (R153). -/
def Damage.rank (d : Damage) : Int := if d.header then (d.cause : Int) else (((d.ctu + 1) * 256 + d.cause : Nat) : Int)

/-- DCAUSE of some damage; 0 for none (R153). -/
def causeOf (ds : List Damage) : Nat :=
  match leastBy Damage.rank ds with
  | some d => d.cause
  | none => 0

/-! ### Substreams and concealed regions (R153, R155) -/

/-- A CTU: its column and row in the picture, whether a tile or a wavefront row begins with it, and the CTU whose entropy state it
begins from. -/
structure CtuCell where
  col    : Nat
  row    : Nat
  begins : Bool
  sync   : Option Nat
  deriving DecidableEq, Repr

/-- The picture has more than one tile. -/
def picTiled (i : PicInfo) : Bool := decide (1 < i.tileCols * i.tileRows)

/-- The CTUs of one tile or row that begins at CTU `off` of the coding order and at column `col`. -/
def cellsOf (i : PicInfo) (off col : Nat) (g : SegInfo) : List CtuCell :=
  (List.range g.ctus).map fun j =>
    let w := max 1 g.cols
    let first := i.wavefront && j % w == 0
    { col := col + j % w, row := g.row0 + j / w, begins := first || (picTiled i && j == 0)
      sync := if first && (if picTiled i then decide (w ≤ j) else g.row0 + j / w != 0) then some (off + j + min 1 (w - 1) - w) else none }

/-- The CTUs of a picture in coding order, from tile or row `k` on. -/
def cellsFrom (i : PicInfo) : Nat → Nat → Nat → List SegInfo → List CtuCell
  | _, _, _, [] => []
  | k, off, col, g :: gs =>
    cellsOf i off col g ++ cellsFrom i (k + 1) (off + g.ctus) (if (k + 1) % max 1 i.tileCols == 0 then 0 else col + g.cols) gs

/-- The CTUs of a picture in coding order. -/
def ctuCells (i : PicInfo) : List CtuCell := cellsFrom i 0 0 0 i.segs

/-- Where the substreams of a picture begin: at a slice segment, a tile, a wavefront row. -/
def subStarts (i : PicInfo) (cs : List CtuCell) : List Nat :=
  (List.range cs.length).filter fun c => c == 0 || i.slices.contains c || (cs[c]?).any CtuCell.begins

/-- The CTU that a substream at `a` takes its entropy state from: none where a slice segment begins between them. -/
def syncOf (i : PicInfo) (cs : List CtuCell) (a : Nat) : Option Nat :=
  ((cs[a]?).bind CtuCell.sync).filter fun k => !i.slices.any fun c => decide (k < c) && decide (c ≤ a)

/-- CTUs that a damage conceals within the substream [a, b) (Table 6-5). -/
def damageCovers (a b c : Nat) (d : Damage) : Bool :=
  match d.cause with
  | 0x01 => decide (a ≤ d.ctu) && decide (d.ctu ≤ c) && decide (d.ctu < b)
  | 0x02 => decide (a ≤ d.ctu) && decide (d.ctu ≤ c) && decide (d.ctu < b)
  | 0x04 => decide (d.ctu ≤ c)
  | 0x05 => false
  | 0x06 => false
  | 0x09 => true
  | _ => decide (d.ctu ≤ c) && decide (c < d.ctu + d.count)

/-- Substreams in coding order, each with its end. -/
def subEnds (n : Nat) : List Nat → List (Nat × Nat)
  | [] => []
  | [a] => [(a, n)]
  | a :: b :: rest => (a, b) :: subEnds n (b :: rest)

/-- Concealed CTUs in coding order: what a damage names, and the whole of a substream whose synchronisation CTU is concealed (R153,
R155). -/
def concealedCtus (i : PicInfo) (ds : List Damage) : List Nat :=
  let cs := ctuCells i
  (subEnds cs.length (subStarts i cs)).foldl (fun acc (p : Nat × Nat) =>
    let all := (List.range (p.2 - p.1)).map (p.1 + ·)
    acc ++ (if (syncOf i cs p.1).any acc.contains then all else all.filter fun c => ds.any (damageCovers p.1 p.2 c))) []

/-- Some CTUs of a picture, by column and row. -/
def ctuPlaces (i : PicInfo) (cs : List Nat) : List (Nat × Nat) :=
  let cells := ctuCells i
  cs.filterMap fun c => (cells[c]?).map fun k => (k.col, k.row)

/-! ### The error map (R160, R166)

Its blocks are those of the coded picture (DEDUCED, log entry 77). -/

/-- Columns and rows of 16 × 16 blocks of a coded picture. -/
def blockCols (i : PicInfo) : Nat := ceilDiv i.codedW 16
def blockRows_ (i : PicInfo) : Nat := ceilDiv i.codedH 16

/-- Marks of the blocks with concealed CTUs marked 1, in raster order. -/
def concealMarks (i : PicInfo) (ds : List Damage) : List Nat :=
  let k := max 1 (i.ctuSize / 16)
  let ps := ctuPlaces i (concealedCtus i ds)
  (List.range (blockRows_ i)).flatMap fun y => (List.range (blockCols i)).map fun x => if ps.contains (x / k, y / k) then 1 else 0

/-- The mark of block `b` of picture `n`: of the picture itself as it stands, of a held one as stored, and 2 of the virtual picture, which
stands for one that is missing (R159, R160). -/
def Session.markAt (x : Session) (own : Nat) (ms : List Nat) (n b : Nat) : Nat :=
  if n == own then ms.getD b 0
  else match x.refPict n with
    | some p => p.marks.getD b 0
    | none => 2

/-- The marks of a picture: concealed, and from block to block in decoding order what predicts from a marked block or from the virtual
picture (R160, R166). -/
def Session.marksOf (x : Session) (own : Nat) (i : PicInfo) (ds : List Damage) : List Nat :=
  i.preds.foldl (fun ms p => if ms.getD p.1 0 == 0 && p.2.any (fun r => x.markAt own ms r.1 r.2 != 0) then ms.set p.1 2 else ms) (concealMarks i ds)

/-- The map value of block (x, y); blocks beyond the picture read 0. -/
def mapValue (i : PicInfo) (ms : List Nat) (x y : Nat) : Nat := if blockCols i ≤ x then 0 else ms.getD (y * blockCols i + x) 0

/-- MAP_STRIDE and MAP_ROWS of a session (R165). -/
def Params.mapStride (p : Params) : Nat := 8 * ceilDiv (ceilDiv p.maxW 16) 32
def Params.mapRows (p : Params) : Nat := ceilDiv p.maxH 16

/-- The error map's bytes. -/
def mapBytes (p : Params) (i : PicInfo) (ms : List Nat) : List Byte :=
  (List.range p.mapRows).flatMap fun y => (List.range p.mapStride).map fun j =>
    BitVec.ofNat 8 (mapValue i ms (4 * j) y + 4 * mapValue i ms (4 * j + 1) y + 16 * mapValue i ms (4 * j + 2) y
      + 64 * mapValue i ms (4 * j + 3) y)

/-- Blocks of a picture with a map value. -/
def mapCount (ms : List Nat) (v : Nat) : Nat := (ms.filter fun m => m == v).length

/-- Flags of a decoded picture, releases apart (Table 6-11): `hash` says whether its hash was checked and whether it differs, `replaced`
that the virtual picture stood for a reference. UNPAIRED_FIELD is known at a release alone. -/
def picFlags (info : PicInfo) (r : PicResult) (ms : List Nat) (recovering replaced : Bool) (hash : Bool × Bool) : BitVec 16 :=
  dflag 13 recovering ||| dflag 11 info.trailing ||| dflag 9 hash.1 ||| dflag 8 hash.2 ||| dflag 6 info.field ||| dflag 3 r.budget
    ||| dflag 2 r.window ||| dflag 1 replaced ||| dflag 0 (ms.contains 1)

/-! ### Records (Tables 6-8 to 6-10) -/

/-- A picture record; PIC_TYPE 4 for a picture that was skipped. -/
def picRecord (info : PicInfo) (ms : List Nat) (decIndex cycles cause ptype : Nat) (flags : BitVec 16) : List Byte :=
  leBytes 64 (put 0 0 (decIndex % 2 ^ 32) + put 4 16 (info.height % 65536) + put 4 0 (info.width % 65536) + put 8 16 flags.toNat
    + put 8 8 cause + put 8 0 (ptype % 256) + put 12 0 info.order.toNat + put 16 0 (info.codedBytes % 2 ^ 32) + put 20 0 (cycles % 2 ^ 32)
    + put 24 0 (mapCount ms 1) + put 28 0 (mapCount ms 2) + put 32 0 (info.blkIntra % 2 ^ 32) + put 36 0 (info.blkSkip % 2 ^ 32)
    + put 40 16 (info.qpMax % 256) + put 40 8 (info.qpMin % 256) + put 40 0 (info.qpAvg % 256) + put 44 16 (info.renderH % 65536)
    + put 44 0 (info.renderW % 65536) + put 48 16 (info.maxFall % 65536) + put 48 0 (info.maxCll % 65536))

/-- A release record (Table 6-9). -/
def relRecord (r : Word × BitVec 16 × Nat × Nat × Nat × Nat) : List Byte :=
  leBytes 16 (put 0 0 r.1.toNat + put 4 16 r.2.1.toNat + put 4 0 (r.2.2.1 % 4) + put 8 0 (r.2.2.2.1 % 2 ^ 32)
    + put 12 16 (r.2.2.2.2.1 % 65536) + put 12 0 (r.2.2.2.2.2 % 65536))

/-- Address, size and space of an entry's decode report; address 0 for none. -/
def QEntry.report (e : QEntry) : Nat × Nat × Nat :=
  let b := e.blocks.headD 0
  match e.op with
  | 1 => (e64 e.raw 48, e32 e.raw 44, e8 e.raw 30)
  | 3 => if e64 e.raw 32 == 0 then (0, 0, 0) else (e64 b 0, e32 b 8, e8 b 12)
  | 7 => (e64 e.raw 32, e32 e.raw 40, e8 e.raw 29)
  | _ => (0, 0, 0)

/-- The report header (Table 6-8). -/
def reportHeader (p : Params) (e : QEntry) (held outq : Nat) (stopped : Bool) : List Byte :=
  leBytes 64 (put 0 0 e.seq.toNat + put 4 16 e.dflags.toNat + put 4 8 (e.cause % 256) + put 4 0 (e.code % 256) + put 8 24 (held % 256)
    + put 8 16 (outq % 256) + put 8 8 (if stopped then 0 else e.rels.length % 256) + put 8 0 (if stopped then 0 else e.recs % 256)
    + put 12 0 (p.section % 2 ^ 32) + put 16 16 (p.mapRows % 65536) + put 16 0 (p.mapStride % 65536))
    ++ ((e.rels.take (if stopped then 0 else 12)).flatMap relRecord
      ++ List.replicate (192 - 16 * (if stopped then 0 else min 12 e.rels.length)) 0)

/-- The report is written as the entry ends, its header and the sections of its pictures; `stopped` after a stop or a lack of
resources, the header alone (R165). -/
def State.putReport (s : State) (q : Nat) (seq : Word) (stopped : Bool) : State :=
  match (s.queue q).entry? seq with
  | none => s
  | some e =>
    let x := s.sess e.sess
    if e.report.1 == 0 then s
    else
      let t := s.entryOut q seq x.fn e.report.2.2 e.report.1 (reportHeader x.par e (x.pics.filter fun p => p.due).length x.outq.length stopped)
      if stopped then t
      else forEach ((List.range e.secs.length).zip e.secs) (fun p v =>
        v.entryOut q seq x.fn e.report.2.2 (e.report.1 + 256 + p.1 * x.par.section) p.2) t

/-- One picture's section is gathered: its record, and its map unless it was skipped (R165, R166). -/
def State.putSection (s : State) (q : Nat) (seq : Word) (info : PicInfo) (ms : List Nat) (decIndex cycles cause ptype : Nat)
    (flags : BitVec 16) : State :=
  match (s.queue q).entry? seq with
  | none => s
  | some e =>
    let p := (s.sess e.sess).par
    let sec := picRecord info ms decIndex cycles cause ptype flags ++ (if ptype == 4 then [] else mapBytes p info ms)
    s.modEntry q seq fun f => if p.pMax ≤ f.recs then f else { f with recs := f.recs + 1, secs := f.secs ++ [sec] }

/-- HELD, RELEASED and BYTES of a decode entry's result (Table 13-11). -/
def State.noteHeld (s : State) (q : Nat) (seq : Word) (n : Nat) : State :=
  s.modEntry q seq fun e => { e with held := ((s.sess n).pics.filter fun p => p.due).length, released := e.rels.length }

/-- A decode entry fails for want of resources or by a stop: its units stop, the report header alone is written, except for a buffer too
small, and the entry ends with the code (R148, R146, R158, R165). -/
def State.failDecode (s : State) (u : WUnit) (code cause : Nat) : State :=
  let t := s.modEntry u.q u.seq fun e => e.note code cause
  let v := (t.noteHeld u.q u.seq u.session)
  (if code == 0x11 then v else v.putReport u.q u.seq true).failEntry u code cause

/-- A decode entry that stops its session: rollback, its pictures and its queue lost, the report header, ERROR (R156, R158, R165). -/
def State.stopDecode (s : State) (u : WUnit) (code cause : Nat) : State :=
  let t := (s.modUnit u.uid fun w => { w with wantDrop := true }).rollback u.uid
  let x := t.sess u.session
  let v := if x.state == .free || x.state == .draining || x.state == .sessionReset then t
    else t.modSess u.session fun y => { y.stopped with state := y.state }
  (v.failDecode { u with wantDrop := true } code cause).stopSession u.session

end Sys2Proof.Machine
end

