-- ==== Sys2Proof/Machine/Gates.lean ====
section
/-! DEFINITION. Gate lists and windows of Babbitt's lanes, claims and preemption (12_dispatch.md R283 to R287). -/
namespace Sys2Proof.Machine

/-! ### Gate lists (R283, R284) -/

/-- Cycle time of a list. -/
def GateList.cycle (g : GateList) : Nat := (g.list.map GateEntry.interval).foldl (· + ·) 0

/-- The entry that covers an offset of the cycle: its number and where it starts. -/
def entryAt : List GateEntry → Nat → Nat → Nat → Nat × Nat
  | [], _, i, st => (i, st)
  | [_], _, i, st => (i, st)
  | e :: es, off, i, st => if off < st + e.interval then (i, st) else entryAt es off (i + 1) (st + e.interval)

/-- The entry in force at `t`, and the instant at which it began. -/
def GateList.entry (g : GateList) (t : Nat) : Nat × Nat :=
  let off := (t - g.base) % max 1 g.cycle
  let p := entryAt g.list off 0 0
  (p.1, t - off + p.2)

/-- Entry `i` of a list. -/
def GateList.nth (g : GateList) (i : Nat) : GateEntry := g.list.getD (i % max 1 g.list.length) ⟨1, false, 0, 0⟩

/-- The list holds the lane open at `t`; an empty list always does. -/
def GateList.openAt (g : GateList) (t : Nat) : Bool := g.list.isEmpty || (decide (g.base ≤ t) && (g.nth (g.entry t).1).isOpen)

/-- Open entries on from entry `i`, which begins at `at_`: the instant at which a closed one begins. -/
def GateList.closeFrom (g : GateList) : Nat → Nat → Nat → Option Nat
  | 0, _, _ => none
  | fuel + 1, i, at_ => if (g.nth i).isOpen then g.closeFrom fuel (i + 1) (at_ + (g.nth i).interval) else some at_

/-- The first instant at or after `t` at which the list closes the lane; none where it never does. -/
def GateList.closes (g : GateList) (t : Nat) : Option Nat :=
  if g.list.isEmpty then none
  else if t < g.base then some t
  else (g.closeFrom (g.list.length + 1) (g.entry t).1 (g.entry t).2).map fun c => max t c

/-- Open entries back from the one before entry `i`, which begins at `at_`: where the window began. -/
def GateList.startBack (g : GateList) : Nat → Nat → Nat → Nat
  | 0, _, at_ => at_
  | fuel + 1, i, at_ =>
    let p := g.nth (i + g.list.length - 1)
    if p.isOpen && decide (g.base + p.interval ≤ at_) then g.startBack fuel (i + g.list.length - 1) (at_ - p.interval) else at_

/-- The start of the window that holds `t`. -/
def GateList.windowStart (g : GateList) (t : Nat) : Nat :=
  if g.list.isEmpty then 0 else g.startBack (g.list.length + 1) (g.entry t).1 (g.entry t).2

/-- Closed entries on from entry `i`: the instant at which an open one begins. -/
def GateList.openFrom (g : GateList) : Nat → Nat → Nat → Option Nat
  | 0, _, _ => none
  | fuel + 1, i, at_ => if (g.nth i).isOpen then some at_ else g.openFrom fuel (i + 1) (at_ + (g.nth i).interval)

/-- The start of the next window that begins after `t`. -/
def GateList.nextWindow (g : GateList) (t : Nat) : Option Nat :=
  if g.list.isEmpty then none
  else if t < g.base then g.openFrom (g.list.length + 1) 0 g.base
  else
    match g.closes t with
    | some c => g.openFrom (g.list.length + 1) (g.entry c).1 (g.entry c).2
    | none => none

/-- The longest run of open entries. -/
def GateList.longest (g : GateList) : Nat :=
  ((List.range g.list.length).map fun i =>
    match g.closeFrom (g.list.length + 1) i 0 with
    | some c => c
    | none => g.cycle).foldl max 0

/-- The list of a lane in force at `t`: a pending list from its switchover time on (R287). -/
def Lane.listAt (l : Lane) (t : Nat) : GateList :=
  match l.next with
  | some (g, at_) => if at_ ≤ t then g else l.cur
  | none => l.cur

/-- The lane is open at `t` (R283, R287). -/
def Lane.openAt (l : Lane) (t : Nat) : Bool := (l.listAt t).openAt t

/-- The end of the window that holds `t`: no window outlasts its list (R284, R287). -/
def Lane.closes (l : Lane) (t : Nat) : Option Nat :=
  let c := (l.listAt t).closes t
  match l.next with
  | some (_, at_) => if at_ ≤ t then c else some (match c with
    | some k => min k at_
    | none => at_)
  | none => c

/-- Wall-time estimate of a unit on a clock (R281). -/
def wallTime (cost mhz : Nat) : Nat := ceilDiv (cost * 1500) (max 1 mhz)

/-- The conditions of R284 on a lane, for a start at `p` and a wall time `t`. -/
def Lane.fits (l : Lane) (p t : Nat) : Bool :=
  (l.listAt p).openAt p && match l.closes p with
    | some c => decide (256 * p + t * (l.listAt p).guardF ≤ 256 * c)
    | none => true

/-- The unit is longer than any window of its lane, and would start at the start of one (R284). -/
def Lane.oversize (l : Lane) (p t : Nat) : Bool :=
  let g := l.listAt p
  !g.list.isEmpty && decide (256 * g.longest < t * g.guardF) && g.openAt p && decide (p ≤ g.windowStart p + 2000)

/-! ### Claims (R285) -/

/-- Halves claimed by a lane. -/
def Lane.claims (l : Lane) : List Nat := l.decHalves ++ l.encHalves

/-- A unit of lane `lane` on half `h` keeps clear of the other lane's claims (R284). -/
def State.clearOf (s : State) (lane h p t : Nat) : Bool :=
  [0, 1].all fun l =>
    let k := s.lane l
    l == lane || !k.claims.contains h || decide (256 * p + t * ((s.lane lane).listAt p).guardF ≤ 256 * k.claimFrom)

/-- The half's clock is not about to change (R21, R292). -/
def State.clockSteady (s : State) (h : Nat) : Bool := (s.core (h / 2)).want.isNone && !(s.core (h / 2)).changing

/-- The units that a half runs or is hinted. -/
def State.unitsOn (s : State) (h : Nat) : List WUnit :=
  s.dsc.units.filter fun u => u.kind.onCore && match u.stage with
    | .running k => k == h
    | .hinted k _ _ _ => k == h
    | _ => false

/-- When the half's running and hinted units are estimated to end (R284). -/
def State.estEnd (s : State) (h : Nat) : Nat :=
  ((s.unitsOn h).map fun u =>
    let t := wallTime u.cost (s.core (h / 2)).mhz
    match u.stage with
    | .hinted _ _ _ p => p + t
    | _ => max s.time (u.runT + t)).foldl max 0

/-- ACTIVE halves of a direction, the earliest to end first, then the lower core (R285). -/
def State.claimable (s : State) (enc : Bool) (taken : List Nat) : List Nat :=
  sortBy (fun h : Nat => (s.estEnd h : Int)) (((List.range 64).map fun c => 2 * c + b2n enc).filter fun h =>
    (s.half h).fstate == .active && !taken.contains h)

/-- Lane `l` claims for a window that opens at `w`; a lane never takes what the other holds for an overlapping time (R285). What a window
of several entries claims is what its first entry says (DESIGN CHOICE, log entry 89). -/
def State.claim (s : State) (l w : Nat) : State :=
  let k := s.lane l
  let g := k.listAt w
  let e := g.nth (g.entry w).1
  let end_ := (k.closes w).getD (w + g.cycle)
  let o := s.lane (1 - l)
  let other := if o.claimFrom < end_ && w < o.claimTo then o.claims else []
  s.modLane l fun k => { k with
    decHalves := (s.claimable false other).take e.resDec, encHalves := (s.claimable true other).take e.resEnc,
    claimFrom := w, claimTo := end_ }

/-- The claim on a half that has left service moves to another ACTIVE half that no lane has claimed, where there is one (R292, Table 12-6). -/
def State.moveClaim (s : State) (h : Nat) : State :=
  forEach [0, 1] (fun l t =>
    let free := (t.claimable (h % 2 == 1) ((t.lane 0).claims ++ (t.lane 1).claims)).take 1
    let move := fun hs : List Nat => if hs.contains h then without hs h ++ free else hs
    t.modLane l fun k => { k with decHalves := move k.decHalves, encHalves := move k.encHalves }) s

/-- The next window of a lane: of the pending list where that is in force when it opens (R287). -/
def Lane.nextWindow (l : Lane) (t : Nat) : Option Nat :=
  match l.next with
  | none => l.cur.nextWindow t
  | some (g, at_) =>
    match l.cur.nextWindow t with
    | some w => if w < at_ then some w else if g.openAt at_ then some at_ else g.nextWindow at_
    | none => if g.openAt at_ then some at_ else g.nextWindow at_

/-- When claims for a window are taken: CLAIM_LEAD before it, and for a window of a pending list no later than CLAIM_LEAD
before SWITCH_TIME where it opens within that lead (R285, R287). -/
def Lane.claimAt (l : Lane) (w : Nat) : Nat :=
  let lead := (l.listAt w).lead * 1000
  match l.next with
  | some (_, at_) => if at_ ≤ w ∧ w ≤ at_ + lead then at_ - lead else w - lead
  | none => w - lead

/-- The claim time of a lane's next window (R285). -/
def gateClaimOp (l : Nat) (s : State) : State :=
  match (s.lane l).nextWindow s.time with
  | some w => if (s.lane l).claims.isEmpty || (s.lane l).claimFrom != w then (s.reach ((s.lane l).claimAt w)).claim l w else s
  | none => s

def execGateClaim (lane : Nat) (s : State) : Res := .next (onlyIf (s.live && decide (lane < 2)) (gateClaimOp lane) s)

/-! ### Windows open and close (R286) -/

/-- A half that lane `l` has claimed still runs a unit of another lane: with PREEMPT it is preempted (R286). -/
def State.preemptHalf (s : State) (l h : Nat) : State :=
  match (s.half h).unit with
  | none => s
  | some n =>
    match s.unit? n with
    | none => s
    | some u =>
      if s.laneOf u.cls == l || !((s.lane l).listAt s.time).preempt then s
      else (s.sendReq u .preempt).modDsc fun d => { d with preempts := sat32 d.preempts 1 }

/-- A lane's window opens: claimed halves of other lanes are preempted or awaited (R286). -/
def gateOpenOp (l : Nat) (s : State) : State :=
  match (if ((s.lane l).listAt s.time).openAt s.time then some s.time else (s.lane l).nextWindow s.time) with
  | some w =>
    if (s.lane l).wasOpen then s
    else
      let t := (s.reach w).modLane l fun k => { k with wasOpen := true }
      if l < 2 then forEach (t.lane l).claims (fun h u => u.preemptHalf l h) t else t
  | none => s

def execGateWindowOpen (lane : Nat) (s : State) : Res := .next (onlyIf (s.live && decide (lane < 8)) (gateOpenOp lane) s)

/-- A hinted unit of a lane that was to start in the window that closes at `c` returns to its session (R290). -/
def State.unhintLane (s : State) (l c : Nat) : State :=
  forEach (s.dsc.units.filter fun u => u.kind.onCore && s.laneOf u.cls == l && match u.stage with
    | .hinted _ _ _ p => decide (p < c)
    | _ => false) (fun u t =>
    (t.unhint u.uid).modDsc fun d => { d with replans := sat32 d.replans 1 }) s

/-- A lane's window ends: its claims lapse, its hinted units return, and each of its units still running is late (R285, R286,
R290). -/
def gateCloseOp (l : Nat) (s : State) : State :=
  match (s.lane l).closes s.time with
  | none => s
  | some c =>
    if !(s.lane l).wasOpen then s
    else
      let t := s.reach c
      let late := (t.dsc.units.filter fun u => u.active && t.laneOf u.cls == l && match u.stage with
        | .running _ => true
        | _ => false).length
      (t.modLane l fun k => { k with wasOpen := false, decHalves := [], encHalves := [], late := sat32 k.late late }).unhintLane l c

def execGateWindowClose (lane : Nat) (s : State) : Res := .next (onlyIf (s.live && decide (lane < 8)) (gateCloseOp lane) s)

/-- A pending list becomes operational at its switchover time, and the lane's state is that of the new list (R287). -/
def gateSwitchOp (l : Nat) (s : State) : State :=
  match (s.lane l).next with
  | none => s
  | some (g, at_) =>
    let t := s.reach at_
    let now := g.openAt t.time
    t.modLane l fun k => { k with
      cur := g, next := none, wasOpen := now,
      decHalves := if k.claimFrom < at_ then [] else k.decHalves, encHalves := if k.claimFrom < at_ then [] else k.encHalves }

def execGateListSwitch (lane : Nat) (s : State) : Res := .next (onlyIf (s.live && decide (lane < 8)) (gateSwitchOp lane) s)

end Sys2Proof.Machine
end

