-- ==== Sys2Proof/Machine/Sched.lean ====
section
/-! DEFINITION. Babbitt's decisions: dependencies of units, virtual finish times, buckets, the choice of a half, and the
hint (12_dispatch.md, 02_sessions.md R48 to R56). -/
namespace Sys2Proof.Machine

/-! ### Dependencies (R15, R48, R49, R51, R175, R176, R201, R221, R516) -/

/-- Units of a session in the order in which they were queued. -/
def State.sessUnits (s : State) (n : Nat) : List WUnit := s.dsc.units.filter fun u => u.session == n

/-- Units of a list that stand before the one with number `uid`. -/
def before (us : List WUnit) (uid : Nat) : List WUnit := us.takeWhile fun u => u.uid != uid

/-- The parser's findings for the picture of a decode unit; none where its entry decodes no picture. -/
def State.picInfo (s : State) (u : WUnit) : Option PicInfo :=
  match (s.queue u.q).entry? u.seq with
  | some e => if e.pics.isEmpty then none else e.au.bind fun a => a.pics[u.pic - e.pics.headD u.pic]?
  | none => none

/-- The references of a decode unit have committed their finishes (R49). -/
def State.refsDone (s : State) (u : WUnit) : Bool :=
  match s.picInfo u with
  | some i => ((s.sessUnits u.session).all fun v => v.pic == u.pic || !i.refs.contains v.pic)
      && !(s.sess u.session).results.any fun r => r.started && r.pic != u.pic && i.refs.contains r.pic
  | none => true

/-- The gang of a session may take one more half (R51). -/
def State.gangRoom (s : State) (u : WUnit) : Bool :=
  decide (((s.sessUnits u.session).filter fun v => v.kind == .segment && !v.queued && match v.stage with
    | .committing _ _ => false
    | _ => true).length < min 16 ((s.sess u.session).par.gangMax + 1))

/-- A decode unit's dependencies (R48, R49). -/
def State.decodeReady (s : State) (u : WUnit) : Bool :=
  let us := s.sessUnits u.session
  let old := before us u.uid
  match u.kind with
  | .start => (if u.skips then old.isEmpty else old.all fun v => !v.kind.begins)
  | .fused => (old.all fun v => !v.kind.begins) && s.refsDone u && us.all fun v => decide (u.pic ≤ v.pic) || v.kind != .finish
  | .segment => (us.all fun v => v.pic != u.pic || v.kind != .start) && s.refsDone u && s.gangRoom u
  | .finish => (us.all fun v => v.pic != u.pic || v.uid == u.uid)
      && us.all fun v => decide (u.pic ≤ v.pic) || (v.kind != .finish && v.kind != .fused)
  | .release => old.isEmpty
  | _ => true

/-- A rendition's picture failed: its part of the entry ended with a code, or the entry is gone (R17, R176). -/
def State.picFailed (s : State) (n : Nat) (p : SrcPic) : Bool :=
  p.failed != 0 || (p.feed.isSome && match (s.queue p.entryQ).entry? p.entrySeq with
    | some e => e.rends.any fun r => r.session == n && r.done && r.code != 0
    | none => true)

/-- A picture before place `ord` holds every later one: it waits for a resubmission, or it is open (R176, R516). -/
def State.held (s : State) (n ord : Nat) : Bool :=
  let x := s.sess n
  x.src.any fun p => !p.coded && s.picFailed n p && p.codedIx.any (fun c => decide (2 * c < ord))
    && (p.feed.isSome || p.failed == 0x10 || p.failed == 0xF0 || p.failed == 0x40 || (x.results.any fun r => r.pic == p.index && r.started))

/-- The references of a source picture have committed their finishes (R175). -/
def refsCoded (x : Session) (p : SrcPic) : Bool :=
  p.refs.all fun r => match x.pic? r with
    | some k => k.coded || k.hidden_
    | none => true

/-- The MAU units of a unit's session before it have written their planes (R221). -/
def State.planesBefore (s : State) (u : WUnit) : Bool :=
  (before (s.sessUnits u.session) u.uid).all fun v => v.kind != .mau || v.planesDone s.time

/-- An encode unit's dependencies (R15, R48, R175, R176, R201). -/
def State.encodeReady (s : State) (u : WUnit) : Bool :=
  let x := s.sess u.session
  let us := s.sessUnits u.session
  match u.kind with
  | .segment => (us.all fun v => v.ord != u.ord || v.kind != .start) && s.gangRoom u
  | .finish => us.all fun v => v.ord != u.ord || v.uid == u.uid || !v.kind.onCore
  | .mau => s.planesBefore u && (List.range (u.pic - x.nextIndex)).all (fun i =>
        (s.sessUnits u.session).any fun v => v.kind == .mau && v.pic == x.nextIndex + i && v.planesDone s.time)
      && (lowestFree (s.sourceSlots u.session) (srcSlots x.par)).isSome
      && (lowestFree (x.ana.map AnaPic.slot) (anaSlots x.par)).isSome
  | .pcf => true
  | _ =>
    !s.held u.session u.ord
      && (us.all fun v => decide (u.ord ≤ v.ord) || !v.kind.onCore || (x.par.rcMode == 0 && !v.kind.begins))
      && (u.show_ || match x.pic? u.pic with
          | some p => refsCoded x p && p.taken && s.lookOk u.session p && p.ready
              && (p.feed.isNone || (x.plan? p.index).isSome)
          | none => false)

/-- A MAU unit of a decode session: once its previous picture's planes are written, with an analysis slot free (R221). -/
def State.analysisReady (s : State) (u : WUnit) : Bool :=
  let x := s.sess u.session
  s.planesBefore u && (lowestFree (x.ana.map AnaPic.slot) (anaSlots x.par)).isSome

/-- The unit would apply parameters that move its session's slots, and units of the session still work in them: it waits until Electrum
can copy them (R329). -/
def State.movesSlots (s : State) (u : WUnit) : Bool :=
  let x := s.sess u.session
  u.kind.onCore && u.kind.begins && x.pendPar.isSome && !x.nextR.isEmpty && (s.sessUnits u.session).any WUnit.active

/-- A unit meets the dependency rules; those of a function in D3hot wait (R375). -/
def State.ready (s : State) (u : WUnit) : Bool :=
  if (s.func u.fn).d3 then false
  else if 2 ^ 20 ≤ u.session then true
  else if (s.sess u.session).state.fixed || s.movesSlots u then false
  else if u.kind == .pcf then true
  else if (s.sess u.session).par.encode then s.encodeReady u
  else if u.kind == .mau then s.analysisReady u
  else s.decodeReady u

/-! ### Places (R284, R289, R291) -/

/-- A place for a unit: half, engine or pipe; bank; projected start; whether it is oversize. -/
structure Place where
  at_   : Nat
  bank  : Nat
  start : Nat
  isOver : Bool
  deriving DecidableEq, Repr

/-- The free bank of a half. -/
def Half.freeBank (x : Half) : Option Nat :=
  if x.bank0 == .empty then some 0 else if x.bank1 == .empty then some 1 else none

/-- A half that may take the unit, with its place: none from which a machine check or an abort-mode fence took it (R83, R84, R284,
R290, R292). -/
def State.placeOn (s : State) (u : WUnit) (h : Nat) : Option Place :=
  let x := s.half h
  match x.freeBank with
  | none => none
  | some k =>
    let p := max (s.time + 2000) (s.estEnd h)
    let t := wallTime u.cost (s.core (h / 2)).mhz
    let l := s.lane (s.laneOf u.cls)
    if x.fstate == .active && !u.mchk.contains h && !u.avoid.contains h && s.clockSteady h && s.clearOf (s.laneOf u.cls) h p t && (l.fits p t || l.oversize p t)
    then some ⟨h, k, p, !l.fits p t⟩ else none

/-- Clusters in which members of the unit's gang are placed. -/
def State.gangClusters (s : State) (u : WUnit) : List Nat :=
  (s.sessUnits u.session).filterMap fun v => if v.kind == .segment then (match v.stage with
    | .running h => some (h / 16)
    | .hinted h _ _ _ => some (h / 16)
    | _ => none) else none

/-- Halves that the gang of a unit's picture needs: one a segment, within the session's limit (R51). -/
def State.gangNeed (s : State) (u : WUnit) : Nat :=
  min (((s.sessUnits u.session).filter fun v => v.pic == u.pic && v.kind == .segment).length + ((s.sess u.session).result u.pic).segs.length)
    (min 16 ((s.sess u.session).par.gangMax + 1))

/-- ACTIVE halves of a unit's direction in a cluster. -/
def State.clusterRoom (s : State) (u : WUnit) (c : Nat) : Nat :=
  ((List.range 8).filter fun i => (s.half (16 * c + 2 * i + b2n (s.sess u.session).par.encode)).fstate == .active).length

/-- Places in the clusters with the most ACTIVE halves. -/
def State.widest (s : State) (u : WUnit) (ps : List Place) : List Place :=
  let m := (ps.map fun p => s.clusterRoom u (p.at_ / 16)).foldl max 0
  ps.filter fun p => s.clusterRoom u (p.at_ / 16) == m

/-- Places narrowed for a gang: to one cluster where the halves it needs fit in one, otherwise to the fewest (R51). -/
def State.gangPlaces (s : State) (u : WUnit) (ps : List Place) : List Place :=
  let cs := (s.gangClusters u).eraseDups
  let need := s.gangNeed u
  let near := ps.filter fun p => cs.contains (p.at_ / 16)
  let fits := ps.filter fun p => decide (min need 8 ≤ s.clusterRoom u (p.at_ / 16))
  if u.kind != .segment then ps
  else if cs.isEmpty then (if fits.isEmpty then s.widest u ps else fits)
  else if !near.isEmpty then near
  else if need ≤ (cs.map (s.clusterRoom u)).foldl (· + ·) 0 then []
  else s.widest u ps

/-- The earliest projected start of some places. -/
def earliest (ps : List Place) : Nat := ((leastBy (fun p : Place => (p.start : Int)) ps).map Place.start).getD 0

/-- The choice of R291: affinity, earliest start, ageing. -/
def State.choose (s : State) (u : WUnit) (ps : List Place) : Option Place :=
  let c := s.dsc.ctrl.toNat
  let near := ps.filter fun p => (s.sess u.session).lastCluster == some (p.at_ / 16)
  let a := if bitAt c 0 && near.any fun p => decide (p.start ≤ earliest ps + fld c 16 8 * 1000) then near else ps
  let b := a.filter fun p => decide (p.start ≤ earliest a + fld c 24 8 * 1000)
  if bitAt c 1 then leastBy (fun p => ((s.core (p.at_ / 2)).stress.toNat : Int)) b else leastBy (fun p => (p.start : Int)) b

/-- The lowest free and enabled engine or pipe below `n`. -/
def State.freeEngine (s : State) (kind : UKind) (enable n : Nat) (busy : Tbl Nat) : Option Nat :=
  (List.range n).find? fun e => bitAt enable e && tblGet 0 busy e == 0 && !s.dsc.units.any fun u => u.kind == kind && match u.stage with
    | .hinted k _ _ _ => k == e
    | _ => false

/-- A place on an engine or pipe, where the lane's gate allows it: the unit starts 2 µs after its hint, as Table 23-5 shows
(R13, R284). -/
def State.placeEngine (s : State) (u : WUnit) (e : Option Nat) : Option Place :=
  let l := s.lane (s.laneOf u.cls)
  let p := s.time + 2000
  e.bind fun k => if l.fits p u.cost || l.oversize p u.cost then some ⟨k, 0, p, !l.fits p u.cost⟩ else none

/-- Halves of a direction. -/
def halvesOf (enc : Bool) : List Nat := (List.range 64).map fun c => 2 * c + b2n enc

/-- The place of a unit for a kind of resource; none where it may not be selected now. -/
def State.placeFor (s : State) (kind : ResKind) (u : WUnit) : Option Place :=
  if !u.queued || !s.laneMayHold (s.laneOf u.cls) || !s.ready u then none
  else
    match kind with
    | .mau => if u.kind == .mau then s.placeEngine u (s.freeEngine .mau s.mau.enable.toNat 8 s.mau.units) else none
    | .pcf => if u.kind == .pcf then s.placeEngine u (s.freeEngine .pcf s.pcf.enable.toNat 16 s.pcf.units) else none
    | .dec => if u.kind.onCore && !(s.sess u.session).par.encode then
        s.choose u (s.gangPlaces u ((halvesOf false).filterMap (s.placeOn u))) else none
    | .enc => if u.kind.onCore && (s.sess u.session).par.encode then
        s.choose u (s.gangPlaces u ((halvesOf true).filterMap (s.placeOn u))) else none

/-! ### Virtual finish times (R276, R277) -/

/-- Classes whose parent is `c`, in rising order. -/
def State.children (s : State) (c : Nat) : List Nat :=
  match s.boot.image with
  | some i => sortBy (fun k : Nat => (k : Int)) ((i.classes.filter fun r => r.parent == c && r.cls != 0 && r.cls != c).map ClassRec.cls)
  | none => []

/-- A class's bucket allows it (R282). -/
def Cls.solvent (c : Cls) : Bool := c.rate == 0 || decide (0 ≤ c.bucket)

/-- The tag a class would receive for a unit; one selected before advances none (R276, R277, R290). -/
def Cls.candidate (c : Cls) (u : WUnit) : Nat := if u.charged then c.fTag else c.sTag + ceilDiv (u.cost * 256) (max 1 c.weight)

/-- The tag a session would receive for a unit: its weight is 256. -/
def Session.candidate (x : Session) (u : WUnit) : Nat := if u.charged then x.fTag else x.sTag + u.cost

/-- The next unit of each session of a leaf that passes a test: its tag, its session, the unit. -/
def State.leafChoices (s : State) (ok : WUnit → Bool) (c : Nat) : List (Nat × Nat × WUnit) :=
  let us := s.dsc.units.filter fun u => u.queued && u.cls == c
  (us.map WUnit.session).eraseDups.filterMap fun n =>
    ((us.filter fun u => u.session == n).find? ok).map fun u => ((s.sess n).candidate u, n, u)

/-- The lowest tag, then the lowest ID. -/
def lowest (cs : List (Nat × Nat × WUnit)) : Option WUnit :=
  let m := ((leastBy (fun c : Nat × Nat × WUnit => (c.1 : Int)) cs).map fun c => c.1).getD 0
  (leastBy (fun c : Nat × Nat × WUnit => (c.2.1 : Int)) (cs.filter fun c => c.1 == m)).map fun c => c.2.2

/-- The unit selected under a node: at each node the eligible child whose tag is lowest (R277). `solvent` says whether buckets
bind. -/
def State.pickUnit (s : State) (ok : WUnit → Bool) (solvent : Bool) : Nat → Nat → Option WUnit
  | 0, _ => none
  | fuel + 1, c =>
    if solvent && !(s.cls c).solvent then none
    else
      let cs := s.children c
      if cs.isEmpty then lowest (s.leafChoices ok c)
      else lowest (cs.filterMap fun k => (s.pickUnit ok solvent fuel k).map fun u => ((s.cls k).candidate u, k, u))

/-- One node's tags move on by a unit, and its parent's virtual time with them (R276). -/
def chargeNode (c parent : Nat) (u : WUnit) (s : State) : State :=
  let f := (s.cls c).candidate u
  let t := s.modCls c fun k => { k with fTag := f, sTag := f }
  if c == 0 then t else t.modCls parent fun k => { k with vTime := max k.vTime f }

/-- The tags of a unit's path move on, session first (R276); a unit selected again after a rollback moves none (R290). -/
def State.chargeTags (s : State) (u : WUnit) : State :=
  if u.charged then s
  else
    let f := (s.sess u.session).candidate u
    let t := (s.modSess u.session fun x => { x with fTag := f, sTag := f }).modCls u.cls fun k => { k with vTime := max k.vTime f }
    forEach (s.classPath u.cls) (fun c v => chargeNode c (s.parentOf c) u v) t

/-- A unit's cost leaves the bucket of every class on its path (R282). -/
def State.chargeBuckets (s : State) (u : WUnit) : State :=
  forEach (s.classPath u.cls) (fun c t =>
    t.modCls c fun k => if k.rate == 0 then k else { k with bucket := k.bucket - ((u.cost : Nat) : Int) }) s

/-! ### The dispatch plan and prefetch (R60) -/

/-- The order in which queued core units of READY sessions would be selected, eligibility left out of account. -/
def planFrom : Nat → State → List Nat
  | 0, _ => []
  | fuel + 1, s =>
    match s.pickUnit (fun u => u.queued && u.kind.onCore && (s.sess u.session).state == .ready) false 6 0 with
    | some u => u.session :: planFrom fuel ((s.chargeTags u).dropUnit u.uid)
    | none => []

/-- The sessions of the dispatch plan, nearest first. -/
def State.dispatchPlan (s : State) : List Nat := (planFrom s.dsc.units.length s).eraseDups

/-- The prefetch engine reads the head of the first session of the plan, within PREFETCH_DEPTH, that is not in the cache; it
evicts no line whose session is nearer the front (R60). -/
def prefetchOp (s : State) : State :=
  let plan := s.dispatchPlan.take (fld s.ctx.ctrl.toNat 0 8)
  match plan.find? fun n => !s.cached n with
  | none => s
  | some n =>
    let ahead := plan.takeWhile fun m => m != n
    (s.allocLine n fun m => !ahead.contains m).getD s

def execContextPrefetch (s : State) : Res := .next (onlyIf (s.live && bitAt s.ctx.ctrl.toNat 8) prefetchOp s)

/-! ### Decisions -/

/-- Hinted units that can no longer start within their gates return to their sessions (R290). -/
def State.replan (s : State) : State :=
  forEach (s.dsc.units.filter fun u => u.kind.onCore && match u.stage with
    | .hinted h _ _ p =>
      let running := ((s.unitsOn h).filter fun v => v.active).map fun v => max s.time (v.runT + wallTime v.cost (s.core (h / 2)).mhz)
      let p' := running.foldl max p
      let t := wallTime u.cost (s.core (h / 2)).mhz
      let l := s.lane (s.laneOf u.cls)
      decide (p < p') && !((l.fits p' t || l.oversize p' t) && s.clearOf (s.laneOf u.cls) h p' t)
    | _ => false) (fun u t => (t.unhint u.uid).modDsc fun d => { d with replans := sat32 d.replans 1 }) s

/-- The selected unit takes its in-flight entry, its charges and its place; a core unit's bank is hinted (R13, R276, R282,
R289, R290). -/
def State.select (s : State) (u : WUnit) (p : Place) : State :=
  match s.freeInflightIx with
  | none => s
  | some ix =>
    let t := (s.restoreSession u.session).takeInflight ix u.uid
    let v := ((t.chargeTags u).chargeBuckets u).modUnit u.uid fun w =>
      { w with stage := .hinted p.at_ p.bank t.time p.start, tag := t.tagOf ix, charged := true, front := false }
    let w := (v.modEntry u.q u.seq fun e => { e with started := true }).modDsc fun d =>
      { d with oversize := if p.isOver then sat32 d.oversize 1 else d.oversize }
    if u.kind.onCore then
      ((w.modHalf p.at_ fun x => x.setBank p.bank (.loading u.session w.time)).hint u.session).settleState u.session
    else w

/-- A decision for a kind of resource (R277). -/
def scheduleOp (kind : ResKind) (s : State) : State :=
  let t := s.replan
  match t.pickUnit (fun u => (t.placeFor kind u).isSome) true 6 0 with
  | none => t
  | some u =>
    match t.placeFor kind u with
    | some p => t.select u p
    | none => t

def execScheduleDecision (kind : ResKind) (s : State) : Res := .next (onlyIf s.live (scheduleOp kind) s)

/-- Every microsecond each bucket gains RATE, up to BURST (R282). -/
def bucketRefillOp (s : State) : State :=
  let t := s.reach (s.dsc.lastRefill + 1000)
  let cs := (t.boot.image.map Image.classes).getD []
  (forEach (cs.map ClassRec.cls) (fun c u => u.modCls c fun k =>
    if k.rate == 0 then k else { k with bucket := clampBucket k (k.bucket + ((k.rate : Nat) : Int)) }) t).modDsc fun d => { d with lastRefill := t.time }

def execBucketRefill (s : State) : Res := .next (onlyIf s.live bucketRefillOp s)

end Sys2Proof.Machine
end

