-- ==== Sys2Proof/Machine/Start.lean ====
section
/-! DEFINITION. The start of a unit on its half, engine or pipe (R13, R40, R146, R148, R152, R262). -/
namespace Sys2Proof.Machine

/-! ### Pending parameters (R40, R198, R329, R513) -/

/-- The parameter block with a field of `w` bits at byte `off` taken from another. -/
def Params.keep (p old : Params) (off w : Nat) : Params :=
  { p with block := BitVec.ofNat 7680 (p.block.toNat - fld p.block.toNat (8 * off) w * 2 ^ (8 * off) + fld old.block.toNat (8 * off) w * 2 ^ (8 * off)) }

/-- New parameters as an inter picture may take them: the level fields, with ENC_LEVEL 0 whatever the level is selected from, and with
HRD_SIGNAL the rates, wait for the next key picture (R198, R513). -/
def heldParams (new old : Params) : Params :=
  let a := new.keep old 0x044 16
  let auto := new.encLevel == 0 || old.encLevel == 0
  let b := if auto then { ((a.keep old 0x020 3).keep old 0x030 32).keep old 0x034 32 with maxW := old.maxW, maxH := old.maxH } else a
  let c := if new.hrdSignal then b.keep old 0x024 32 else b
  if new.hrdSignal || auto then (c.keep old 0x028 32).keep old 0x02C 32 else c

/-- A picture start applies the session's pending parameters and moves to the ranges they bring (R40, R329). -/
def Session.applyPending (x : Session) (key : Bool) : Session :=
  match x.pendPar with
  | none => x
  | some new =>
    let p := if x.par.encode && !key then heldParams new x.par else new
    let y := { x with par := p, pendPar := if p == new then none else some new }
    if x.nextR.isEmpty || reserveBytes p != reserveBytes new then y
    else { y.withRanges x.nextR with nextR := [], oldR := [x.refR, x.srcR, x.stageR, x.mauR] }

/-! ### Decode units -/

/-- An entry's output buffers join the queue; none where it would pass 16 (R146). -/
def Session.addBuffers (x : Session) (e : QEntry) : Option Session :=
  let n := if outAddr e.raw == 0 then 0 else outCount e.raw
  if 16 < x.outq.length + n then none
  else some { x with outq := x.outq ++ (List.range n).map fun i =>
      { seq := e.seq, index := i, space := outSpace e.raw, addr := outAddr e.raw + i * outSize e.raw, size := outSize e.raw } }

/-- Why a unit's picture and those after it in its entry are not decoded: completion code and flag bit; none where they are (R152, R157).
In the skip condition an entry without coded data completes with OK and no flag, as R131 and Table 6-12 have it (DESIGN CHOICE, log entry
79: R157 speaks of every entry). -/
def skipReason (x : Session) (au : AuInfo) (leads : Bool) : Option (Nat × Nat) :=
  if au.pics.isEmpty then none
  else if x.skip && !(au.rap && leads) then some (0x01, 4)
  else if x.beforeRap && !au.rap then some (0x00, 4)
  else if x.recovering && (au.pics.any fun p => p.leading) then some (0x00, 12)
  else none

/-- The entry's units that are left become one that decodes no picture (R152, R157, R515). -/
def State.skipEntry (s : State) (u : WUnit) (au : AuInfo) (r : Nat × Nat) : State :=
  let x := s.sess u.session
  let due := x.pics.filter Pict.due
  let v := skipUnit { u with kind := .start } x.par (auLevel au) (match (s.queue u.q).entry? u.seq with
    | some e => e32 e.raw 24
    | none => 0) (pictSamples x.par due)
  let t := s.modDsc fun d => { d with units := (d.units.filter fun w => !(w.q == u.q && w.seq == u.seq && w.uid != u.uid)).map fun w =>
      if w.uid == u.uid then { v with cost := u.cost } else w }
  t.modEntry u.q u.seq fun e => { e.note r.1 0 with dflags := e.dflags ||| dflag r.2 true, pics := if u.leads e then [] else e.pics }

/-- A MAU unit, a pass or a picture that a rendition reads directly still needs release `r` of session `n` (R16). -/
def State.releaseRead (s : State) (n r : Nat) : Bool :=
  (s.dsc.units.any fun u => !u.kind.onCore && u.session == n && u.pic == r)
    || (tblKeys s.sessions).any fun m => (s.sess m).src.any fun p => p.feed == some (n, r) && p.direct && !p.coded

/-- The session still holds a picture: it is a reference, awaits output or a buffer, is being decoded, or is read (R16). -/
def State.holds (s : State) (n : Nat) (p : Pict) : Bool :=
  p.isRef || p.awaiting || p.due || p.readers != 0 || p.relIndex.any (s.releaseRead n)

/-- It holds a reference slot; the virtual picture has none (R159). -/
def State.holdsSlot (s : State) (n : Nat) (p : Pict) : Bool := !p.virtual && s.holds n p

/-- Reference slots in use: every picture the session holds, and those its running starts have taken (R148). -/
def State.usedSlots (s : State) (n : Nat) : List Nat :=
  let x := s.sess n
  (x.pics.filter (s.holdsSlot n)).map Pict.slot ++ ((s.sessUnits n).filter fun u => u.active && u.kind.begins && !u.skips && !x.pics.any fun p => p.num == u.pic).map WUnit.slot

/-- A slot for a picture: every unit of it works there, with the parameters as they stand (R40). -/
def State.giveSlot (s : State) (u : WUnit) (k : Nat) : State :=
  let x := s.sess u.session
  s.modDsc fun d => { d with units := d.units.map fun w =>
    if w.session == u.session && w.pic == u.pic && w.kind.onCore && !w.skips then { w with slot := k, windows := refWindows x k w.windows, par := some x.par } else w }

/-- Window 1 of a decode unit: the buffers at the front of the output queue, as many as one unit may fill (Table 3-5, R147). -/
def outWindow (x : Session) (ws : List Window) : List Window :=
  match x.outq.take 12 with
  | b :: bs => setWindow ws 1 { noWindow with base := b.addr, size := b.size, space := b.space, write := true, also := bs.map fun k => (k.space, k.addr, k.size) }
  | [] => setWindow ws 1 noWindow

/-- The first field that a picture completes to a pair: the last field held whose parity is the other one (R119). -/
def Session.firstField (x : Session) (info : PicInfo) : Option Pict :=
  if info.second then (x.pics.filter fun p => p.parity != 0 && p.parity != info.parity && !p.open_).getLast? else none

/-- The slot a picture decodes into: its first field's, or the lowest free one (R119, R148). -/
def State.slotFor (s : State) (u : WUnit) : Option Nat :=
  let x := s.sess u.session
  match (s.picInfo u).bind x.firstField with
  | some p => some p.slot
  | none => lowestFree (s.usedSlots u.session) x.par.dpbSlots

/-! ### New parameters (R329, R443) -/

/-- Occupied slots of the reference, source and analysis reservations (R329). -/
def State.slotsHeld (s : State) (n : Nat) : List (List Nat) :=
  let x := s.sess n
  [if x.par.encode then x.liveRecons.map Prod.snd else s.usedSlots n,
   if x.par.srcMode == 0 then (x.src.filter SrcPic.taken).map SrcPic.slot else [], x.ana.map AnaPic.slot]

/-- Where occupied slots go among `count`: each keeps its number where the new count has it, the others take the lowest free (R329). -/
def regather (used : List Nat) (count : Nat) : List (Nat × Nat) :=
  used.eraseDups.foldl (fun acc k => acc ++ [(k,
    if k < count then k else (lowestFree (used.filter (fun i => decide (i < count)) ++ acc.map Prod.snd) count).getD k)]) []

/-- The new number of a slot. -/
def slotIn (m : List (Nat × Nat)) (k : Nat) : Nat := ((m.find? fun p => p.1 == k).map Prod.snd).getD k

/-- `n` bytes at `a` of the state `old`, with their poison, stand at `b`. -/
def State.copyRange (old : State) (a b n : Nat) (s : State) : State :=
  if n == 0 || a == b then s
  else forEach ((linesOf a n).filter fun l => old.poisoned l 64) (fun l t => t.poisonLine (l - a + b)) (s.memWrite b (old.memRead a n))

/-- Slots of one reservation, copied from their old places (R329). -/
def State.copySlots (old : State) (m : List (Nat × Nat)) (from_ to_ : Range) (size size' : Nat) (s : State) : State :=
  forEach m (fun p t => old.copyRange (from_.base + p.1 * size) (to_.base + p.2 * size') (min size size') t) s

/-- Electrum copies every occupied slot of a session into the ranges that its new parameters bring, before the unit that applies them
starts (R329). -/
def State.moveSlots (old : State) (n : Nat) (s : State) : State :=
  let x := old.sess n
  let y := s.sess n
  let held := old.slotsHeld n
  let r := regather (held.getD 0 []) y.par.dpbSlots
  let p := regather (held.getD 1 []) (srcSlots y.par)
  let a := regather (held.getD 2 []) (anaSlots y.par)
  let t := old.copySlots a x.mauR y.mauR (anaSlotSize x.par) (anaSlotSize y.par)
    (old.copySlots p x.srcR y.srcR (srcSlotSize x.par) (srcSlotSize y.par)
      (old.copySlots r x.refR y.refR (refSlotSize x.par) (refSlotSize y.par) s))
  let parts := min (x.stageR.size / max 1 (stagePic x.par)) (y.stageR.size / max 1 (stagePic y.par))
  let u := old.copySlots ((List.range parts).map fun i => (i, i)) x.stageR y.stageR (stagePic x.par) (stagePic y.par) t
  (u.modSess n fun z => { z with
    pics := z.pics.map (fun k => { k with slot := slotIn r k.slot }), recons := z.recons.map (fun k => (k.1, slotIn r k.2))
    src := z.src.map (fun k => { k with slot := slotIn p k.slot }), ana := z.ana.map fun k => { k with slot := slotIn a k.slot } }).modDsc
    fun d => { d with units := d.units.map fun w =>
      if w.session == n && w.kind.onCore && (y.pics.any (fun k => k.num == w.pic) || y.recons.any fun k => k.1 == w.pic) then
        { w with slot := slotIn r w.slot, windows := refWindows y (slotIn r w.slot) w.windows }
      else w }

/-- Parameters that a picture start has applied go to both slots of the context, and the occupied slots move with their ranges (R329,
R443). -/
def State.writeApplied (s old : State) (n : Nat) : State :=
  let x := old.sess n
  if x.pendPar.isNone || (s.sess n).par == x.par then s
  else if x.nextR.isEmpty || !(s.sess n).nextR.isEmpty then s.writeParams n
  else old.moveSlots n (s.writeParams n)

/-- What the first unit of a decode entry does as it is dispatched; or the code and cause with which the entry ends before it decodes
anything: a buffer too small for the parameters that now apply, a full output queue, no reference slot (R146, R148). An entry that ends
so leaves the session as it was, and the buffers it brings do not join the queue (DESIGN CHOICE, log entry 79: R148 does not say). -/
def State.beginDecode (s : State) (u : WUnit) (e : QEntry) : (Nat × Nat) ⊕ State :=
  let x := s.sess u.session
  match (if e.added then some x else x.addBuffers e) with
  | none => .inl (0x41, 0x21)
  | some y =>
    if outShort (y.applyPending false).par e then .inl (0x11, 0x22)
    else
      let t := (((s.modSess u.session fun _ => y.applyPending false).writeApplied s u.session).modEntry u.q u.seq fun f => { f with added := true }).modUnit u.uid
        fun w => { w with windows := outWindow y w.windows }
      match e.au.bind fun au => (skipReason (t.sess u.session) au (u.leads e)).map fun r => (au, r) with
      | some (au, r) => .inr (t.skipEntry ((t.unit? u.uid).getD u) au r)
      | none =>
        if u.skips || u.kind == .release then .inr t
        else
          match t.slotFor u with
          | some k => .inr (t.giveSlot u k)
          | none => .inl (0x41, 0x20)

/-- A later unit of a decoded picture works in the picture's slot. -/
def State.keepSlot (s : State) (u : WUnit) : State :=
  match (s.sess u.session).pics.find? fun p => p.num == u.pic with
  | some p => s.modUnit u.uid fun w => { w with slot := p.slot, windows := refWindows (s.sess u.session) p.slot w.windows }
  | none => s

/-! ### Encode units -/

/-- The reconstruction slot of a coded picture: the one it has, the lowest that no picture still needed holds, or, where the session
reserves too few, the one longest held that the picture does not refer to (R16, R63; log entry 26). -/
def encSlot (x : Session) (pic : Nat) : Nat :=
  let refs := ((x.pic? pic).map SrcPic.refs).getD []
  match x.recons.find? fun r => r.1 == pic with
  | some r => r.2
  | none =>
    match lowestFree (x.liveRecons.map Prod.snd) x.par.dpbSlots with
    | some k => k
    | none => ((x.recons.find? fun r => !refs.contains r.1).map Prod.snd).getD 0

/-- A picture takes its reconstruction slot (R16). -/
def Session.takeRecon (x : Session) (pic k : Nat) : Session :=
  { x with recons := x.liveRecons.filter (fun r => r.1 != pic && r.2 != k) ++ [(pic, k)] }

/-- What an encode unit that begins a picture does: pending parameters and the reconstruction slot (R40, R48). -/
def State.beginEncode (s : State) (u : WUnit) : State :=
  let key := ((s.sess u.session).pic? u.pic).any SrcPic.key
  let t := (s.modSess u.session fun x => x.applyPending key).writeApplied s u.session
  let k := encSlot (t.sess u.session) u.pic
  let v := (t.modSess u.session fun x => x.takeRecon u.pic k).giveSlot u k
  match (t.sess u.session).pic? u.pic with
  | some p => v.modDsc fun d => { d with units := d.units.map fun w =>
      if w.session == u.session && w.pic == u.pic && w.kind.onCore then { w with windows := v.sourceWindows u.session p w.windows } else w }
  | none => v

/-! ### Starts -/

/-- An entry of OPTABLE, from ROM or the writable store (R94, R110). -/
def Half.opTable (x : Half) (i : Nat) : BitVec 13 := if x.store then tblGet 0 x.wcsTable i else Config.opTable i

/-- CCA_HALF_STATUS.KIND of a unit (Table 3-17); a release unit runs as a picture start (R515). -/
def UKind.code (k : UKind) : Nat :=
  match k with
  | .segment => 1
  | .finish => 2
  | .fused => 3
  | _ => 0

/-- Where the switch's dispatch word takes a unit: OPTABLE at CODEC × 4 + KIND, in TABLE 0 (R94; log entry 30). -/
def State.entryAddr (s : State) (u : WUnit) (h : Nat) : BitVec 13 :=
  (s.half h).opTable ((s.sess u.session).par.codec * 4 + u.kind.code)

/-- The parameters of a unit that starts: its picture's, or as the session has them (R40). -/
def Session.parFor (x : Session) (u : WUnit) : Params := u.par.getD x.par

/-- A core unit starts on its half: the bank becomes active, the half's counters begin (R13, R61). -/
def State.startCore (s : State) (u : WUnit) (h k : Nat) : State :=
  let t := (s.modHalf h fun x => { (x.setBank k (.active u.session)) with
    activeBank := k, unit := some u.uid, nextA := s.entryAddr u h, waiting := false, waitCycles := 0, waitProg := false, gap := 0, dp := Datapath.init, reqs := [], fifo := Fifo.init, stage1 := false,
    stage2 := false, rowQp := none, qps := [], forced := none, rowWait := false }).modUnit u.uid fun w =>
      { w with stage := .running h, runT := s.time, cycles := 0, written := 0, aborted := false, done := 0, lines := [], steps := 0,
                par := some ((s.sess u.session).parFor w) }
  ((t.modDsc fun d => { d with dispatched := sat64 d.dispatched 1 }).modSess u.session fun x => { x with lastCluster := some (h / 16) }).settleState
    u.session

/-- A half loads a unit's window set as it starts it. A set that fails the check of R74 again does not start: the bank is discarded,
nothing is accessed, and the entry is refused (R75). -/
def State.loadUnit (s : State) (u : WUnit) (h k : Nat) : State :=
  let ws := ((s.unit? u.uid).getD u).windows
  match s.loadFails u.fn (s.sess u.session).par.encode ws with
  | none => (s.modHalf h fun x => { x with winSet := ws }).startCore u h k
  | some i =>
    ((s.modHalf h fun x => { x with winSet := markFail i ws }).reportWindow u.fn u.session i).failUnit u 0x11 0x23

/-- An entry that ends before it decodes anything: poison in its input and a stop of R158 come before the code given (R169). -/
def State.refuseDecode (s : State) (u : WUnit) (e : QEntry) (c : Nat × Nat) : State :=
  let x := s.sess u.session
  match e.au with
  | some au =>
    if au.poisoned then s.failUnit u 0xF0 0x30
    else match streamStop (x.pendPar.getD x.par) au with
      | some k => s.stopDecode u 0x20 k
      | none => s.failDecode u c.1 c.2
  | none => s.failDecode u c.1 c.2

/-- A core unit is dispatched: what its kind does first, then its start; an entry without resources ends instead. -/
def State.dispatchCore (s : State) (u : WUnit) (h k : Nat) : State :=
  if (s.sess u.session).par.encode then
    let t := if u.kind.begins then s.beginEncode u else s
    t.loadUnit u h k
  else if u.kind.begins then
    match (s.queue u.q).entry? u.seq with
    | none => s.loadUnit u h k
    | some e =>
      match s.beginDecode u e with
      | .inl c => s.refuseDecode u e c
      | .inr t => t.loadUnit u h k
  else (s.keepSlot u).loadUnit u h k

/-- Size of the picture that a MAU unit analyses. -/
def State.mauSize (s : State) (u : WUnit) : Nat × Nat :=
  let x := s.sess u.session
  if x.par.encode then ((x.pic? u.pic).map fun p => (p.width, p.height)).getD (0, 0)
  else ((x.pics.find? fun p => p.relIndex == some u.pic).map fun p => (p.width, p.height)).getD (0, 0)

/-- A MAU unit starts: it takes a source slot for an intake, and an analysis slot (R172, R219). -/
def State.dispatchMau (s : State) (u : WUnit) (e : Nat) : State :=
  let x := s.sess u.session
  let slot := (lowestFree (s.sourceSlots u.session) (srcSlots x.par)).getD 0
  let size := s.mauSize u
  let a : AnaPic := {
    index := u.pic, slot := (lowestFree ((x.ana.filter fun b => b.index != u.pic).map AnaPic.slot) (anaSlots x.par)).getD 0,
    width := size.1, height := size.2, complete := false, final := false, first := false, fwd := false, flushed := false,
    field := [], score := 0, meanY := 0, seq := u.seq }
  ((s.modSess u.session fun y => { y with ana := (y.ana.filter fun b => b.index != u.pic) ++ [a] }).modUnit u.uid fun w =>
      { w with stage := .running e, runT := s.time, slot := if x.par.encode then slot else w.slot }).modMau (fun m =>
    { m with units := tblSet 0 m.units e (u.uid + 1) })
    |>.modDsc fun d => { d with dispatched := sat64 d.dispatched 1 }

/-- The pictures that a rendition's pass converts, and the bytes that each takes in PF_NITINOL form (R14, R240). -/
def State.passStores (s : State) (u : WUnit) : List (Nat × Nat × Nat) :=
  u.outputs.filterMap fun m => ((s.sess m).src.find? fun p => p.feed == some (u.session, u.pic) && !p.direct && p.store.size == 0).map fun p =>
    (m, p.index, nitinolSize (s.sess m).par.chroma p.width p.height)

/-- Each output of a pass has its place in the reference region, taken as the pass starts; none where one does not fit (R14; log entry
75). -/
def State.takeStores (s : State) (u : WUnit) : Option State :=
  if 2 ^ 20 ≤ u.session then some s
  else
    (s.passStores u).foldl (fun (acc : Option State) k => acc.bind fun t =>
      (t.reserve t.heldRanges 3 k.2.2 (freeNow t 64).toNat).map fun r =>
        (t.tookFree.modSess k.1 fun x => x.modPic k.2.1 fun p => { p with store := r })) (some s)

/-- The first descriptor of a pass. -/
def State.passDesc (s : State) (u : WUnit) : Entry :=
  if 2 ^ 20 ≤ u.session then (((s.queue u.q).entry? u.seq).map fun e => e.blocks.headD 0).getD 0
  else (u.outputs.map fun m => (s.sess m).par.outDesc).headD 0

/-- A pass starts: the pipe loads a LUT that it does not hold into its SRAM (R262, R272); one that holds poison is not valid there. -/
def State.startPass (s : State) (u : WUnit) (p : Nat) : State :=
  let load := s.usesLut (s.passDesc u) && !(tblGet false s.pcf.lutValid p && tblGet 0 s.pcf.lutAddr p == u.lut)
  ((s.modUnit u.uid fun w => { w with stage := .running p, runT := s.time }).modPcf fun m => { m with
    units := tblSet 0 m.units p (u.uid + 1)
    lutValid := if load then tblSet false m.lutValid p (!s.poisoned u.lut 39304) else m.lutValid
    lut := if load then tblSet [] m.lut p ((List.range 4913).map fun i => BitVec.ofNat 64 (leNat (s.memRead (u.lut + 8 * i) 8))) else m.lut
    lutAddr := if load then tblSet 0 m.lutAddr p u.lut else m.lutAddr
    lutLoads := if load then sat32 m.lutLoads 1 else m.lutLoads }).modDsc fun d => { d with dispatched := sat64 d.dispatched 1 }

/-- A pass starts once its outputs have their places. -/
def State.dispatchPcf (s : State) (u : WUnit) (p : Nat) : State :=
  match s.takeStores u with
  | some t => t.startPass u p
  | none => s

/-- The bank of a half is ready, and the half may start a unit (R13, R21, R59, R83). -/
def State.mayStart (s : State) (h k : Nat) : Bool :=
  (s.half h).fstate == .active && (s.half h).unit.isNone && s.clockSteady h && match (s.half h).bank k with
    | .ready _ _ => true
    | _ => false

/-- A unit's lane is open at `t`: units start inside its windows only (R283, R284). -/
def State.gateOpen (s : State) (u : WUnit) (t : Nat) : Bool := (s.lane (s.laneOf u.cls)).openAt t

/-- The unit of an in-flight entry starts where its lane is open, no earlier than 2 µs after its hint (R13, R283). -/
def unitDispatchOp (ix : Nat) (s : State) : State :=
  match s.dsc.inflight.find? fun p => p.1 == ix with
  | none => s
  | some (_, uid) =>
    match s.unit? uid with
    | none => s
    | some u =>
      match u.stage with
      | .hinted h k at_ _ =>
        if (s.func u.fn).d3 || !s.gateOpen u (max s.time (at_ + 2000)) then s
        else if u.kind == .mau then (s.reach (at_ + 2000)).dispatchMau u h
        else if u.kind == .pcf then (s.reach (at_ + 2000)).dispatchPcf u h
        else if s.mayStart h k then (s.reach (at_ + 2000)).dispatchCore u h k
        else s
      | _ => s

def execUnitDispatch (entry : Nat) (s : State) : Res := .next (onlyIf s.live (unitDispatchOp entry) s)

end Sys2Proof.Machine
end

