-- ==== Sys2Proof/Machine/Params.lean ====
section
/-! DEFINITION. Session parameters of CREATE_SESSION and SET_SESSION_PARAMS: the header fields, the defaults and the checks
(14_admin_commands.md R328; R115, R126, R144, R170, R187, R198, R199, R513). -/
namespace Sys2Proof.Machine

/-! ### Building parameters (R328, Tables 14-5 and 14-6) -/

/-- The default quantisers of a codec, 8 bits each: QP_I, QP_P, QP_B, CQ_LEVEL (Table 8-1). -/
def defaultQps (codec : Nat) : Nat × Nat × Nat × Nat :=
  if codec == 2 || codec == 3 then (100, 120, 128, 110) else (27, 30, 32, 28)

/-- The quantiser range of a codec at a luma depth (R198). -/
def qpRange (codec depthY : Nat) : Int × Int :=
  if codec == 2 || codec == 3 then (0, 255)
  else (-(6 * ((depthY : Int) - 8)), if codec == 4 then 63 else 51)

/-- The default output descriptor (Table 11-1). -/
def defaultDesc : Nat := put 0 16 1 + put 24 16 2048 + put 24 0 256 + put 28 0 2048

/-- The defaults of Tables 5-8, 6-1, 7-1, 8-1 and 11-1 and of MAU_EN, which a PB_ADDR of 0 applies (R328). -/
def defaultBlock (codec depthY : Nat) : Nat :=
  let q := defaultQps codec
  let r := qpRange codec depthY
  put 0x000 0 (if codec == 3 then 2 else if codec == 2 then 3 else 0) + put 0x000 3 3 + put 0x000 6 1 + put 0x002 0 20
    + put 0x008 0 1
    + put 0x010 1 3 + put 0x010 6 8 + put 0x010 13 1 + put 0x010 20 4 + put 0x014 16 160 + put 0x014 24 60
    + put 0x018 0 1 + put 0x018 8 1 + put 0x018 16 1
    + put 0x020 0 2 + put 0x020 3 1 + put 0x020 4 1 + put 0x020 8 192 + put 0x020 16 (if codec == 2 || codec == 3 then 4 else 1)
    + put 0x024 0 5000 + put 0x028 0 10000 + put 0x02C 0 10000 + put 0x030 0 60 + put 0x034 0 1
    + put 0x038 0 q.1 + put 0x038 8 q.2.1 + put 0x038 16 q.2.2.1 + put 0x038 24 q.2.2.2
    + put 0x03C 0 (twosOf 8 r.1) + put 0x03C 8 (twosOf 8 r.2)
    + put 0x080 0 defaultDesc

/-- Parameters from HDR_A, HDR_B and HDR_C of an entry and a block (Tables 2-4 and 14-5). -/
def hdrParams (e : Entry) (block : Nat) : Params :=
  { cls := efld e 12 16 10, depthC := efld e 12 12 4, depthY := efld e 12 8 4, chroma := efld e 12 5 2, encode := efld e 12 4 1 == 1
    codec := efld e 12 0 4, conceal := efld e 16 16 3, lookahead := efld e 16 9 7, gangMax := efld e 16 5 4, dpbSlots := efld e 16 0 5
    maxH := e16 e 22, maxW := e16 e 20, block := BitVec.ofNat 7680 block }

/-! ### Checks of the header fields -/

/-- The encode column holds the chroma format and the depths (R115, R513). -/
def formatsEncoded (p : Params) : Bool := p.depthC == p.depthY && (encProfiles p.codec).any (profileHolds p)

/-- MAX_WIDTH and MAX_HEIGHT lie within Table 5-1; a decode session's area is not bounded (R116). -/
def sizeHolds (p : Params) : Bool :=
  if p.encode then
    decide (64 ≤ p.maxW) && decide (64 ≤ p.maxH) && decide (max p.maxW p.maxH ≤ (encodeLimit p.codec).1)
      && decide (p.maxW * p.maxH ≤ (encodeLimit p.codec).2)
  else decide (8 ≤ p.maxW) && decide (8 ≤ p.maxH) && decide (p.maxW ≤ 16384) && decide (p.maxH ≤ 16384)

/-- The checks of bytes 12 to 23, in the order of their offsets (Table 2-4, R115, R116, R125). -/
def headChecks (p : Params) : List Check :=
  [(12, decide (p.codec ≤ 4) && decide (8 ≤ p.depthY) && decide (p.depthY ≤ 12) && decide (8 ≤ p.depthC) && decide (p.depthC ≤ 12)
      && (!p.encode || formatsEncoded p)),
   (16, decide (p.conceal ≤ 2) && decide (p.lookahead ≤ 64) && decide (1 ≤ p.dpbSlots) && decide (p.dpbSlots ≤ 24)),
   (20, sizeHolds p)]

/-! ### Checks of the parameter block -/

/-- The bytes and bits that Table 14-6 assigns: byte offset, lowest bit, width. -/
def blockFields : List (Nat × Nat × Nat) :=
  [(0x000, 0, 7), (0x002, 0, 16), (0x004, 0, 5), (0x008, 0, 7), (0x010, 0, 23), (0x014, 0, 32), (0x018, 0, 7), (0x018, 8, 5),
   (0x018, 16, 10), (0x020, 0, 5), (0x020, 8, 12), (0x024, 0, 160), (0x038, 0, 32), (0x03C, 0, 16), (0x040, 0, 32), (0x044, 0, 5),
   (0x044, 8, 8), (0x080, 0, 512), (0x0C0, 0, 16), (0x0C8, 0, 6080)]

/-- The value with only the assigned fields of it. -/
def onlyFields (fs : List (Nat × Nat × Nat)) (v : Nat) : Nat := total (fs.map fun f => put f.1 f.2.1 (fld v (8 * f.1 + f.2.1) f.2.2))

/-- The lowest byte below `n` that holds a reserved bit which is not 0. -/
def reservedByte (fs : List (Nat × Nat × Nat)) (n v : Nat) : Option Nat :=
  if onlyFields fs v == v then none
  else (List.range n).find? fun i => fld v (8 * i) 8 != fld (onlyFields fs v) (8 * i) 8

/-- BS_FORMAT suits the codec (R126). -/
def bsSuits (p : Params) : Bool :=
  match p.codec with
  | 2 => p.bsFormat == 3
  | 3 => p.bsFormat == 2
  | _ => decide (p.bsFormat ≤ 1)

/-- PARALLEL is not refused for the codec (Table 7-5). -/
def parallelHolds (p : Params) : Bool :=
  match p.codec with
  | 0 => p.parallel == 0 || p.parallel == 4
  | 1 => decide (p.parallel ≤ 4)
  | 4 => p.parallel == 4 || decide (p.parallel ≤ 2)
  | _ => p.parallel == 4 || decide (p.parallel ≤ 1)

/-- The per-picture figure of R199 is at least `bits`. -/
def perPicture (p : Params) (bits : Nat) : Bool := decide (bits * p.fpsNum ≤ p.bitrate * 1000 * p.fpsDen)

/-- A QP byte lies in the codec's range (R198). -/
def qpHolds (p : Params) (q : Int) : Bool := decide ((qpRange p.codec p.depthY).1 ≤ q) && decide (q ≤ (qpRange p.codec p.depthY).2)

/-- A rate or a buffer size does not pass its level's maximum (R199, R513); with no level the check is ENC_LEVEL's. -/
def underLevel (p : Params) (v : Nat) (limit : Nat → Nat → Nat → Nat → Nat) : Bool :=
  p.level == 0 || decide (v * 1000 ≤ limit p.codec p.level p.encTier p.profile)

/-- The level is named within the encode column and holds what the session needs, or one is selected (R513). -/
def levelNamed (p : Params) : Bool :=
  if p.encLevel == 0 then p.level != 0 else (encLevels p.codec).contains p.encLevel && levelHolds p p.encLevel

/-- The checks of an encode session's fields, in the order of their offsets (Tables 5-8, 7-1, 7-1a, 8-1; R170, R187, R199,
R513). -/
def encodeChecks (p : Params) : List Check :=
  let m := 8 * minPic p
  [(0x000, bsSuits p && (p.bsFormat != 1 || p.prefixBytes != 0)),
   (0x010, decide (p.preset ≤ 6) && [1, 2, 4, 8, 16].contains p.minigop && (!p.refresh || p.gopMode == 1 || p.gopMode == 2)
      && parallelHolds p && (!p.grainEst || (p.codec == 3 && p.tpf != 0))),
   (0x014, p.scThresh != 0 && decide (2 ≤ p.refreshPeriod)),
   (0x018, p.tileCols != 0 && decide (p.tileCols ≤ 64) && p.tileRows != 0 && decide (p.tileRows ≤ 22) && p.slices != 0),
   (0x020, decide (p.rcMode ≤ 4) && p.initFullness != 0 && decide (m * 256 ≤ p.initFullness * p.bufSize * 1000)),
   (0x024, p.bitrate != 0 && decide (p.bitrate ≤ 4000000) && (!p.rated || perPicture p m)),
   (0x028, decide (p.bitrate ≤ p.maxBitrate) && decide (p.maxBitrate ≤ 4000000) && underLevel p p.maxBitrate Config.levelBitrate),
   (0x02C, p.bufSize != 0 && decide (p.bufSize ≤ 4000000)
      && (!p.rated || (decide (2 * (p.bitrate * 1000 * p.fpsDen) ≤ p.bufSize * 1000 * p.fpsNum) && decide (m ≤ p.bufSize * 1000)))
      && underLevel p p.bufSize Config.levelCpb),
   (0x030, p.fpsNum != 0),
   (0x034, p.fpsDen != 0 && decide (p.fpsNum ≤ 1000 * p.fpsDen)),
   (0x038, qpHolds p p.qpI && qpHolds p p.qpP && qpHolds p p.qpB && qpHolds p p.cqLevel),
   (0x03C, qpHolds p p.qpMin && qpHolds p p.qpMax && decide (p.qpMin ≤ p.qpMax)),
   (0x040, if p.picCap == 0 then p.rcMode != 4 else p.rcMode != 1 && decide (minPic p ≤ p.picCap)),
   (0x044, (p.encProfile == 0 || p.profile != 0) && levelNamed p),
   (0x080, descClean p.outDesc && decide (odSpace p.outDesc ≤ 1) && decide (odLutSpace p.outDesc ≤ 1)
      && (odLut p.outDesc == 0 || odLutSpace p.outDesc == 1)),
   (0x0C0, decide (p.seiLen ≤ 760) && (p.codec != 2 || p.seiLen == 0)),
   (0x0C8, p.sei.isSome)]

/-- The checks of a decode session's fields (R126, R144). -/
def decodeChecks (p : Params) : List Check :=
  [(0x000, bsSuits p), (0x008, formatHolds p.chroma (max p.depthY p.depthC) p.outFormat)]

/-- The lowest field of the block that is refused: a reserved byte or a value. -/
def blockBad (p : Params) : Option Nat :=
  let v := firstBad (if p.encode then encodeChecks p else decodeChecks p)
  match reservedByte blockFields 960 p.block.toNat, v with
  | some a, some b => some (min a b)
  | some a, none => some a
  | none, b => b

/-! ### What a change of parameters may not touch (R150, R173, R329) -/

/-- A decode session's output queue holds a buffer, or a picture is held (R150). -/
def Session.holdsOutput (x : Session) : Bool := !x.outq.isEmpty || x.pics.any Pict.due

/-- Fields of bytes 12 to 23 that change although a rule fixes them: CODEC, DIR, CHROMA and the depths always (R329); the others
where the change would enlarge the source slots or the staging area while a source picture is held (R173), or change the
largest picture of a decode session that holds output (R150). -/
def changeChecks (x : Session) (old new : Params) : List Check :=
  let grows := new.encode && !x.src.isEmpty && (decide ((reserveBytes old).getD 1 0 < (reserveBytes new).getD 1 0)
    || decide ((reserveBytes old).getD 2 0 < (reserveBytes new).getD 2 0))
  let size := new.maxW != old.maxW || new.maxH != old.maxH
  [(12, new.codec == old.codec && new.encode == old.encode && new.chroma == old.chroma && new.depthY == old.depthY && new.depthC == old.depthC),
   (16, !(grows && (new.lookahead != old.lookahead || new.gangMax != old.gangMax))),
   (20, !(size && (grows || (!new.encode && x.holdsOutput))))]

/-- The same of the block's fields: OUT_FORMAT, SRC_MODE, MINIGOP and TPF. -/
def blockChange (x : Session) (old new : Params) : List Check :=
  let grows := new.encode && !x.src.isEmpty && (decide ((reserveBytes old).getD 1 0 < (reserveBytes new).getD 1 0)
    || decide ((reserveBytes old).getD 2 0 < (reserveBytes new).getD 2 0))
  [(0x008, new.encode || !x.holdsOutput || new.outFormat == old.outFormat),
   (0x010, !new.encode || (new.srcMode == old.srcMode && !(grows && (new.minigop != old.minigop || new.tpf != old.tpf))))]

/-- Slot counts and slot sizes of the four reservations (R63, R173, R219). -/
def slotShape (p : Params) : List (Nat × Nat) :=
  [(p.dpbSlots, refSlotSize p),
   (if p.encode && p.srcMode == 0 then srcSlots p else 0, srcSlotSize p),
   (if (reserveBytes p).getD 2 0 == 0 then 0 else if p.isVp && decide (1 < p.minigop) then 2 else 1, stagePic p),
   (anaSlots p, anaSlotSize p)]

/-- Slots of the four reservations that are occupied. -/
def State.occupied (s : State) (n : Nat) : List Nat :=
  let k := (s.slotsHeld n).map fun l => l.eraseDups.length
  [k.getD 0 0, k.getD 1 0, if (s.sess n).hiddenHeld.isSome then 1 else 0, k.getD 2 0]

/-- More slots of a reservation are occupied than it will have, or its slots shrink while one is occupied (R329). -/
def State.shrinksHeld (s : State) (n : Nat) (new : Params) : Bool :=
  (List.range 4).any fun i =>
    let o := (slotShape (s.sess n).par).getD i (0, 0)
    let w := (slotShape new).getD i (0, 0)
    let k := (s.occupied n).getD i 0
    decide (w.1 < k) || (k != 0 && decide (w.2 < o.2))

end Sys2Proof.Machine
end

