-- ==== Sys2Proof/Machine/Fabric.lean ====
section
/-! DEFINITION. The memory fabric and the DRAM channels (18_memory.md). -/
namespace Sys2Proof.Machine

/-! ### Rates and weights (R406, R407, R431) -/

/-- Trained data rate in MT/s (Table 18-9). -/
def State.dataRate (s : State) : Nat :=
  match s.mem.trained with
  | some (_, _, _, r) => 4800 + 800 * r
  | none => 4800

/-- Reset weight of a foreground port (Table 18-8). -/
def resetWeight (p : Nat) : Nat := if p < 8 then 96 else if p == 10 then 48 else 64

/-- WEIGHT of a port as written. -/
def Chn.weightOf (c : Chn) (p : Nat) : Nat := if tblGet 0 c.weights p == 0 then resetWeight p else tblGet 0 c.weights p - 1

/-- Background weights: patrol scrub (0) and migration (1) (R407). -/
def State.bgWeight (s : State) (b : Nat) : Nat := if b == 0 then s.dataRate * 64 / 100000 else s.dataRate * 96 / 10000

/-- A weight in force: halved above 95 °C (R417). -/
def Chn.inForce (c : Chn) (w : Nat) : Nat := if c.throttled then w / 2 else w

/-- A counter limited to ±4 × w (R406, R410). -/
def clampCredit (w : Nat) (x : Int) : Int := clampInt (-(4 * w : Nat)) (4 * w : Nat) x

/-- Every foreground counter within its limits. -/
def Chn.clampAll (c : Chn) : Chn :=
  { c with credits := forUpTo 12 (fun p t => tblMod 0 t p (clampCredit (c.inForce (c.weightOf p)))) c.credits }

/-- The background counters within theirs: 0 to 4 × w (R407). -/
def State.clampBg (s : State) (c : Chn) : Chn :=
  { c with bgCredit := forUpTo 2 (fun b t => tblMod 0 t b fun x => min x (4 * c.inForce (s.bgWeight b) : Nat)) c.bgCredit }

/-! ### Cluster memory ports (R404, R405) -/

/-- Requesters in grant order: most credit first, the lower number among equals. -/
def Cluster.order (c : Cluster) (reqs : List (Nat × Txn)) : List (Nat × Txn) :=
  sortBy (fun r => -(tblGet 0 c.credits r.1) * 32 + (r.1 : Int)) reqs

/-- Fabric cycles left of a port's backoff at a channel (R408). -/
def State.backoffLeft (s : State) (ch port : Nat) : Nat := tblGet 0 (s.chn ch).waitTill port - 1 - 2 * s.time

/-- Hints to the losers, each after the granules ahead of it (R405). -/
def State.hintLosers (s : State) (cl : Nat) : Nat → List (Nat × Txn) → Tbl Nat → Tbl Nat
  | _, [], t => t
  | ahead, r :: rs, t =>
    s.hintLosers cl (ahead + r.2.granules) rs
      (tblSet 0 t r.1 (min 4095 (ceilDiv ahead 4 + s.backoffLeft (channelOf r.2.addr) cl)))

/-- One grant of a cluster port (R404, R405). -/
def portGrantOp (cl : Nat) (reqs : List (Nat × Txn)) (s : State) : State :=
  match (s.cluster cl).order (reqs.filter fun r => decide (r.1 < 17)) with
  | [] => s
  | w :: rest =>
    s.modCluster cl fun c =>
      { c with credits := tblMod 0 c.credits w.1 fun x => clampCredit 16 (x - (w.2.granules : Int))
               hints := s.hintLosers cl w.2.granules rest (tblSet 0 c.hints w.1 0) }

def execPortGrant (cluster : Nat) (reqs : List (Nat × Txn)) (s : State) : Res :=
  match reqs.find? fun r => decide (s.memSize ≤ r.2.addr) with
  | some r => .fault (.noSuchAddress r.2.addr)
  | none => .next (onlyIf (s.live && decide (cluster < 8)) (portGrantOp cluster reqs) s)

/-! ### Channel ingress (R406 to R408, R420) -/

/-- Entries of the queue that a port may hold (R408). -/
def portLimit (p : Nat) : Nat := if p == 12 then 4 else if p == 13 then 16 else 64

/-- The port may not enter the queue now (R408). -/
def Chn.refuses (c : Chn) (p : Nat) : Bool :=
  decide (256 ≤ c.queue.length) || decide (portLimit p ≤ (c.queue.filter fun q => q.port == p).length)

/-- A refused port backs off: 8 fabric cycles, doubling to 1,024 (R408). -/
def Chn.refuse (now p : Nat) (c : Chn) : Chn :=
  let len := if tblGet 0 c.backoff p == 0 then 8 else min 1024 (2 * tblGet 0 c.backoff p)
  { c with backoff := tblSet 0 c.backoff p len, waitTill := tblSet 0 c.waitTill p (2 * now + len + 1) }

/-- A background requester is eligible while its counter covers its transaction (R407). -/
def Chn.bgEligible (c : Chn) (t : Txn) : Bool :=
  decide (12 ≤ t.port) && decide ((t.granules : Int) ≤ tblGet 0 c.bgCredit (t.port - 12))

/-- A port stands at its floor (R406). -/
def Chn.floored (c : Chn) (p : Nat) : Bool := decide (tblGet 0 c.credits p ≤ -((4 * c.inForce (c.weightOf p) : Nat) : Int))

/-- The foreground winner: most credit, the lower port among equals; one at its floor only where no other presents
(R406). -/
def Chn.fgWinner (c : Chn) (ts : List Txn) : Option Txn :=
  let fg := ts.filter fun t => decide (t.port < 12)
  let best := leastBy (fun t : Txn => -(tblGet 0 c.credits t.port) * 16 + (t.port : Int))
  match best (fg.filter fun t => !c.floored t.port) with
  | some t => some t
  | none => best fg

/-- The transaction granted: patrol scrub, then migration, then the foreground (R407). -/
def Chn.winner (c : Chn) (ts : List Txn) : Option Txn :=
  match (ts.filter fun t => t.port == 12 && c.bgEligible t) ++ (ts.filter fun t => t.port == 13 && c.bgEligible t) with
  | t :: _ => some t
  | [] => c.fgWinner ts

/-- A grant: the charge, the queue entry, and the backoff back at its start (R406 to R408). -/
def Chn.take (now : Nat) (t : Txn) (c : Chn) : Chn :=
  { c with
    credits := if t.port < 12 then tblMod 0 c.credits t.port fun x => clampCredit (c.inForce (c.weightOf t.port)) (x - (t.granules : Int))
      else c.credits
    bgCredit := if 12 ≤ t.port then tblMod 0 c.bgCredit (t.port - 12) fun x => max 0 (x - (t.granules : Int)) else c.bgCredit
    served := if 12 ≤ t.port then tblMod 0 c.served (t.port - 12) (· + t.granules) else c.served
    queue := c.queue ++ [{ port := t.port, id := t.id, write := t.write, addr := t.addr, gran := t.granules, arrived := c.arrivals, since := now }]
    arrivals := c.arrivals + 1
    backoff := tblSet 0 c.backoff t.port 0
    lastAt := now }

/-! #### Banks and rows (log entry 21) -/

/-- Physical rank that holds a stripe now: the spare where a migration has moved it there (R399, R425). -/
def State.rankOfStripe (s : State) (ch st : Nat) : Nat := if (s.chn ch).onSpare == some st then s.physRanks - 1 else st

/-- Bank of an address: rank, bank within its group, and one of 8 bank groups that consecutive pages go round. -/
def State.bankOf (s : State) (a : Nat) : Nat :=
  let pg := offsetOf a / 4096
  pg % 8 + 8 * (Config.dramBank (pg / 8) % 4) + 32 * s.rankOfStripe (channelOf a) (s.stripeOf a)

/-- Row of an address. -/
def rowOf (a : Nat) : Nat := Config.dramRow (offsetOf a / 4096 / 8)

/-- Rank part of a bank number. -/
def bankRank (b : Nat) : Nat := b / 32

/-- Its bank has its row open. -/
def State.rowOpen (s : State) (c : Chn) (t : QTxn) : Bool := tblGet 0 c.openRow (s.bankOf t.addr) == rowOf t.addr + 1

/-- The lines of two transactions meet. -/
def QTxn.meets (a b : QTxn) : Bool :=
  decide (a.addr / 64 < b.addr / 64 + b.gran) && decide (b.addr / 64 < a.addr / 64 + a.gran)

/-- A queued read and a queued write of the bank meet in its open row (R412). -/
def State.orderHazard (s : State) (c : Chn) (b : Nat) : Bool :=
  c.queue.any fun r => !r.write && s.bankOf r.addr == b && s.rowOpen c r &&
    c.queue.any fun w => w.write && s.bankOf w.addr == b && s.rowOpen c w && r.meets w

/-- A bank enters in-order mode, counted, and leaves it once the writes that were pending then have been issued (R412). -/
def State.settleBank (s : State) (b : Nat) (c : Chn) : Chn :=
  let mark := tblGet 0 c.inOrder b
  if mark == 0 then
    if s.orderHazard c b then { c with inOrder := tblSet 0 c.inOrder b (c.arrivals + 1), inorderN := sat32 c.inorderN 1 } else c
  else if c.queue.any fun w => w.write && s.bankOf w.addr == b && decide (w.arrived < mark - 1) then c
  else { c with inOrder := tblSet 0 c.inOrder b 0 }

/-- Banks with queued transactions or in in-order mode. -/
def State.busyBanks (s : State) (c : Chn) : List Nat := c.queue.map (fun t => s.bankOf t.addr) ++ tblKeys c.inOrder

/-- In-order modes, write drain and the wait for calibration follow the queue (R411, R412, R415). -/
def State.settleChn (s : State) (k : Nat) : State :=
  s.modChn k fun c =>
    let d := forEach (s.busyBanks c) (fun b x => s.settleBank b x) c
    let n := (d.queue.filter fun t => t.write).length
    { d with drain := if 48 ≤ n then true else if n ≤ 16 then false else d.drain
             state := if d.calPend && d.state == 1 && d.queue.isEmpty then 2 else d.state }

/-- One decision of a channel's ingress point (R406 to R408). A request that meets self-refresh entry abandons it (R420);
a channel that calibrates or drains for it grants nothing (R415). -/
def ingressOp (k : Nat) (reqs : List Txn) (s : State) : State :=
  let ts := reqs.filter fun t => decide (t.port < 14) && channelOf t.addr == k && tblGet 0 (s.chn k).waitTill t.port == 0
  if ts.isEmpty then s
  else
    let s1 := if (s.chn k).state == 3 then s.modChn k fun c => { c with state := 1, sreAborts := sat32 c.sreAborts 1 } else s
    let c := s1.chn k
    if c.state != 1 || c.calPend then s1
    else
      let refused := ts.filter fun t => c.refuses t.port
      let s2 := forEach refused (fun t u => (u.modChn k (Chn.refuse s.time t.port)).modMem fun m => { m with backoffs := sat32 m.backoffs 1 }) s1
      match c.winner (ts.filter fun t => !c.refuses t.port) with
      | none => s2
      | some t => (s2.modChn k (Chn.take s.time t)).settleChn k

def execIngressGrant (ch : Nat) (reqs : List Txn) (s : State) : Res :=
  match reqs.find? fun t => decide (s.memSize ≤ t.addr) with
  | some t => .fault (.noSuchAddress t.addr)
  | none => .next (onlyIf (s.live && decide (ch < 16)) (ingressOp ch reqs) s)

/-- A refill of a channel's counters (R406, R407). -/
def State.refillChn (s : State) (k : Nat) : State :=
  s.modChn k fun c =>
    { c with
      credits := forUpTo 12 (fun p t => tblMod 0 t p fun x => clampCredit (c.inForce (c.weightOf p)) (x + (c.inForce (c.weightOf p) : Int))) c.credits
      bgCredit := forUpTo 2 (fun b t => tblMod 0 t b fun x =>
        min (4 * c.inForce (s.bgWeight b) : Nat) (x + (c.inForce (s.bgWeight b) : Int))) c.bgCredit }

/-- A refill of a cluster port's 17 counters of weight 16 (R404). -/
def refillCluster (c : Cluster) : Cluster :=
  { c with credits := forUpTo 17 (fun p t => tblMod 0 t p fun x => clampCredit 16 (x + 16)) c.credits }

/-- Channels 0 to 15; 16 to 23 name the ports of clusters 0 to 7, whose counters follow the same rule (R404, R406). -/
def refillOp (ch : Nat) (s : State) : State :=
  if ch < 16 then s.refillChn ch else if ch < 24 then s.modCluster (ch - 16) refillCluster else s

def execCreditRefill (ch : Nat) (s : State) : Res := .next (onlyIf s.live (refillOp ch) s)

/-- The backoff of a port ends (R408). -/
def backoffOp (k port : Nat) (s : State) : State :=
  let e := tblGet 0 (s.chn k).waitTill port
  if e == 0 then s
  else (s.reach (ceilDiv (e - 1) 2)).modChn k fun c => { c with waitTill := tblSet 0 c.waitTill port 0 }

def execBackoffExpiry (ch port : Nat) (s : State) : Res :=
  .next (onlyIf (s.live && decide (ch < 16)) (backoffOp ch port) s)

/-! ### Acknowledgement (R402, R364, R365) -/

/-- Lines of a write that need a back-invalidate first (R364). -/
def State.snoopNeeded (s : State) (ls : List Nat) : List Nat := if s.hdmDb then ls.filter fun l => s.tracked l else []

/-- Lines of a write that need the host's bias answer first (R365). -/
def State.biasNeeded (s : State) (ls : List Nat) : List Nat :=
  if s.hdmD then ls.filter fun l => s.exposed l 64 && !s.hlu.biasOk.contains l else []

/-- A host-bias request for a line, once: ownership for a write, the current copy for a read (R365). -/
def State.askBias (s : State) (l : Nat) (write : Bool) : State :=
  if s.hlu.bias.any fun b => b.write == write && b.bytes.isEmpty && b.line == l then s
  else (s.modHlu fun h => { h with bias := h.bias ++ [⟨l, write, l, []⟩] }).send (.hostBias l write)

/-- Lines of a read whose data may be modified in a host cache (R364). -/
def State.modifiedLines (s : State) (ls : List Nat) : List Nat :=
  if s.hdmDb then ls.filter fun l => (tblGet [] s.hlu.track (trackSet l)).any fun e => e.1 == l && e.2 else []

/-- A device-side read of these bytes need not wait for the host (R364, R365). -/
def State.readReady (s : State) (a n : Nat) : Bool :=
  (s.modifiedLines (linesOf a n)).isEmpty && (s.biasNeeded (linesOf a n)).isEmpty

/-- What such a read asks of the host first: the modified data, or the current copy (R364, R365). -/
def State.askRead (s : State) (a n : Nat) : State :=
  let t := forEach (s.modifiedLines (linesOf a n)) (fun l t => t.sendSnoop l true) s
  forEach (t.biasNeeded (linesOf a n)) (fun l t => t.askBias l false) t

/-- A bias answer serves one access (R365). -/
def State.usedBias (s : State) (a n : Nat) : State :=
  s.modHlu fun h => { h with biasOk := h.biasOk.filter fun l => !(linesOf a n).contains l }

/-- A read has used the bias of the lines it covers; one of host memory has none. -/
def State.readUsed (s : State) (space a n : Nat) : State := if space == 1 then s.usedBias a n else s

/-- A range has a retired page (R426). -/
def State.touchesRetired (s : State) (a n : Nat) : Bool :=
  n != 0 && (List.range ((a + n - 1) / 4096 - a / 4096 + 1)).any fun i => s.retiredAt ((a / 4096 + i) * 4096)

/-- Physical rank that serves a read: the spare below P of a migration, the stripe's own rank elsewhere (R423). -/
def State.servingRank (s : State) (a : Nat) : Nat :=
  let ch := channelOf a
  let st := s.stripeOf a
  match (s.chn ch).mig with
  | some m => if m.stripe == st && decide (offsetOf a % s.rankSize < m.p) then s.physRanks - 1 else s.rankOfStripe ch st
  | none => s.rankOfStripe ch st

/-- A queued write is acknowledged: its bytes are what every later read returns, and no reference cache keeps a copy. Where
a back-invalidate or a bias answer is still needed, it is asked for and the write waits (R402). One to a retired page is discarded and
recorded (R426). -/
def writeAckOp (k id a : Nat) (data : List Byte) (s : State) : State :=
  let ls := linesOf a data.length
  if !(s.chn k).queue.any fun t => t.write && t.id == id && decide (t.addr / 64 ≤ a / 64) &&
      decide ((a + data.length) ≤ (t.addr / 64 + t.gran) * 64) then s
  else if !(s.snoopNeeded ls).isEmpty then forEach (s.snoopNeeded ls) (fun l t => t.sendSnoop l false) s
  else if !(s.biasNeeded ls).isEmpty then forEach (s.biasNeeded ls) (fun l t => t.askBias l true) s
  else
    let t := (s.memWrite a data).usedBias a data.length
    if s.touchesRetired a data.length then t.report 0x07 (0xB0 + k) none none (s.servingRank a) 0 (lineOf a) else t

def execWriteAck (ch id : Nat) (addr : Nat) (data : List Byte) (s : State) : Res :=
  if s.memSize < addr + data.length then .fault (.noSuchAddress addr)
  else .next (onlyIf (s.live && decide (ch < 16)) (writeAckOp ch id addr data) s)

/-- A write of MFX_WEIGHT (R410, Table 18-8). -/
def weightOp (k p : Nat) (v : Word) (s : State) : State :=
  s.modChn k fun c =>
    let d := { c with weights := tblSet 0 c.weights p (max 1 (fld v.toNat 0 10) + 1) }
    { d with credits := tblMod 0 d.credits p (clampCredit (d.inForce (d.weightOf p))) }

def execMfxWeightWrite (ch port : Nat) (v : Word) (s : State) : Res :=
  .next (onlyIf (s.fnLive 0 && decide (ch < 16) && decide (port < 12)) (weightOp ch port v) s)

/-! ### The command scheduler (R411, R412, R418) -/

/-- It has waited 2,048 controller cycles, a controller cycle being 8 ÷ (MT/s) µs (R411, Table 1-1). -/
def State.aged (s : State) (t : QTxn) : Bool := decide (2048 * 8000 ≤ (s.time - t.since) * s.dataRate)

/-- The transaction may be the next of its bank: in in-order mode the oldest alone, and past an aged one none (R411,
R412). -/
def State.candidate (s : State) (c : Chn) (t : QTxn) : Bool :=
  let b := s.bankOf t.addr
  let peers := c.queue.filter fun u => s.bankOf u.addr == b && decide (u.arrived < t.arrived)
  if tblGet 0 c.inOrder b != 0 then peers.isEmpty
  else if s.aged t then peers.all fun u => !s.aged u
  else !c.queue.any fun u => s.bankOf u.addr == b && s.aged u

/-- Rank of a candidate: the direction in force first, then an open row, then age (R411; log entry 22). -/
def State.urgency (s : State) (c : Chn) (t : QTxn) : Int :=
  let wrong := t.write != c.drain && !s.aged t && tblGet 0 c.inOrder (s.bankOf t.addr) == 0
  (b2n wrong * 2 ^ 81 + b2n (!s.rowOpen c t) * 2 ^ 80 + t.arrived : Nat)

/-- The transaction that the scheduler serves next. -/
def State.pick (s : State) (c : Chn) : Option QTxn := leastBy (s.urgency c) (c.queue.filter (s.candidate c))

/-- One command: out of power-down, the activation that opens its row, or the column command with which it leaves the
queue (R409, R411, R418). -/
def commandOp (k : Nat) (s : State) : State :=
  let c := s.chn k
  match s.pick c with
  | none => s
  | some t =>
    let r := bankRank (s.bankOf t.addr)
    if c.pdown.contains r then s.modChn k fun c => { c with pdown := without c.pdown r }
    else if s.rowOpen c t then
      (s.modChn k fun c => { c with queue := c.queue.filter fun u => u.arrived != t.arrived, grant := none }).settleChn k
    else (s.modChn k fun c => { c with openRow := tblSet 0 c.openRow (s.bankOf t.addr) (rowOf t.addr + 1), grant := some t.arrived }).settleChn k

/-- The channel can issue commands: active, or draining for calibration or self-refresh. -/
def Chn.issues (c : Chn) : Bool := c.state == 1 || c.state == 3

def execDramCommand (ch : Nat) (s : State) : Res :=
  .next (onlyIf (s.live && decide (ch < 16) && (s.chn ch).issues) (commandOp ch) s)

/-! ### Ranks out of service (R422 to R429) -/

/-- Stripe that a physical rank holds. -/
def State.stripeOfRank (s : State) (ch r : Nat) : Option Nat :=
  let c := s.chn ch
  if s.spareConf && r == s.physRanks - 1 then c.onSpare
  else if c.onSpare == some r || c.outRanks.getLsbD r || !decide (r < s.stripes) then none
  else some r

/-- The spare can take a rank: configured, unused, in service, and no migration under way (R422, R425). -/
def State.spareFree (s : State) (ch : Nat) : Bool :=
  let c := s.chn ch
  s.spareConf && !c.spareUsed && c.mig.isNone && !c.outRanks.getLsbD (s.physRanks - 1)

/-- Stripe `st` of a channel holds part of the context store or the session directory (R427). -/
def State.holdsContext (s : State) (st : Nat) : Bool :=
  s.boot.regions.any fun r => (r.kind == 1 || r.kind == 2) &&
    decide (r.base < (st + 1) * 16 * s.rankSize) && decide (st * 16 * s.rankSize < r.base + r.size)

/-- ARG of a migration's CAPACITY event (Table 18-5). -/
def State.migArg (s : State) (ch r : Nat) : Nat := ch + r * 16 + (s.physRanks - 1) * 64

/-- A session with a reservation on a retired page is reset and takes the reservation again at its first entry (R426). -/
def State.retireSession (s : State) (n : Nat) : State :=
  let x := s.sess n
  if x.state != .free && ([x.refR, x.srcR, x.stageR, x.mauR].any fun r => s.touchesRetired r.base r.size) then
    (s.faultReset n []).modSess n fun y => { y with rebuild := true }
  else s

/-- A pool hands out no buffer on a retired page (R426). -/
def State.retirePool (s : State) (p : Nat) : State :=
  s.modPool p fun q => q.bar ((List.range q.count).filter fun i => s.touchesRetired (q.base + i * 2 ^ q.bufLog) (2 ^ q.bufLog))

/-- A stripe is retired, unless it holds context data: then the event is fatal (R426, R427, R429). -/
def State.retireStripe (s : State) (ch r st : Nat) : State :=
  if s.holdsContext st then s.report 0x32 (0xB0 + ch) none none (ch + r * 16) 0 0
  else
    let t := s.modChn ch fun c => { c with retired := c.retired ||| BitVec.twoPow 4 st, outRanks := c.outRanks ||| BitVec.twoPow 4 r }
    let u := t.modMem fun m => { m with pendRec := m.pendRec ++ [(ch, st, r, true)] }
    let v := u.capacity ch 4 (ch + r * 16 + s.rankSize / 4096 * 256)
    let w := forEach (tblKeys v.sessions) (fun n t => t.retireSession n) v
    forEach (tblKeys w.bpm.pools) (fun p t => t.retirePool p) w

/-- A migration begins (R423, R429). -/
def State.beginMigration (s : State) (ch r st : Nat) : State :=
  (s.modChn ch fun c => { c with mig := some { rank := r, stripe := st, p := 0, mask := 0 } }).capacity ch 1 (s.migArg ch r)

/-- A migration stops on an error of the spare, and the failing rank is retired (R425). -/
def State.stopMigration (s : State) (ch : Nat) (m : Mig) : State :=
  let t := s.modChn ch fun c => { c with mig := none, outRanks := c.outRanks ||| BitVec.twoPow 4 (s.physRanks - 1) }
  (t.capacity ch 3 (s.migArg ch m.rank)).retireStripe ch m.rank m.stripe

/-- A rank leaves service: migrated where a spare is free and migration permitted, else retired (R422). -/
def State.rankOut (s : State) (ch r : Nat) (migrate : Bool) : State :=
  match (s.chn ch).mig with
  | some m =>
    if r == m.rank then s
    else if r == s.physRanks - 1 then s.stopMigration ch m
    else match s.stripeOfRank ch r with
      | some st => s.retireStripe ch r st
      | none => s
  | none =>
    match s.stripeOfRank ch r with
    | some st => if migrate && s.spareFree ch then s.beginMigration ch r st else s.retireStripe ch r st
    | none => s.modChn ch fun c => { c with outRanks := c.outRanks ||| BitVec.twoPow 4 r }

/-! ### Read data (R413) -/

/-- A corrected error of a rank: class C record, count, and the threshold of R422 (R413). -/
def State.correctedOn (s : State) (ch r a : Nat) : State :=
  let t := (s.modChn ch fun c => { c with ce := tblMod 0 c.ce r fun n => min 65535 (n + 1) }).report 0x06 (0xB0 + ch) none none r 0 a
  if (t.chn ch).thresh ≤ tblGet 0 (t.chn ch).ce r then t.rankOut ch r t.policy.autoMigrate else t

/-- A line is lost: poisoned, recorded, and handled by its region (R413, R423, R441). -/
def State.lineLost (s : State) (ch r a : Nat) : State :=
  (((s.poisonLine a).modChn ch fun c => { c with uc := tblMod 0 c.uc r fun n => sat32 n 1 }).report 0x07 (0xB0 + ch) none none r 0 (lineOf a)).loseLine a

/-- What a read of a line met (R413); on a retired page it returns poison and is recorded (R426). -/
def readDataOp (ch a : Nat) (r : EccResult) (s : State) : State :=
  let k := s.servingRank a
  if s.retiredAt a then s.report 0x07 (0xB0 + ch) none none k 0 (lineOf a)
  else match r with
    | .clean => s
    | .corrected => s.correctedOn ch k (lineOf a)
    | .uncorrectable => (s.lineLost ch k a).rankOut ch k s.policy.autoMigrate

def execDramReadData (ch : Nat) (addr : Nat) (r : EccResult) (s : State) : Res :=
  if s.memSize ≤ addr then .fault (.noSuchAddress addr)
  else .next (onlyIf (s.live && channelOf addr == ch) (readDataOp ch addr r) s)

/-! ### Refresh, calibration, temperature, power (R415 to R420) -/

/-- Queued transactions of a rank. -/
def State.rankBusy (s : State) (c : Chn) (r : Nat) : Bool := c.queue.any fun t => bankRank (s.bankOf t.addr) == r

/-- Refreshes owed by a rank are issued; its rows close (R416). -/
def issueRefresh (r : Nat) (c : Chn) : Chn :=
  { c with owed := tblSet 0 c.owed r 0, openRow := c.openRow.filter fun p => bankRank p.1 != r }

/-- A grant in the way of an emergency refresh is taken away (R409). -/
def State.revoke (s : State) (k r : Nat) : State :=
  let c := s.chn k
  match c.grant with
  | none => s
  | some g =>
    if c.queue.any fun t => t.arrived == g && bankRank (s.bankOf t.addr) == r then
      (s.modChn k fun c => { c with grant := none }).modMem fun m => { m with revokes := sat32 m.revokes 1 }
    else s

/-- A refresh falls due: issued, or postponed while the rank is busy and fewer than 3 are owed; at the fourth it takes away
a grant in its way (R416). During calibration it is issued inside it (R415). -/
def refreshOp (k r : Nat) (s : State) : State :=
  let c := s.chn k
  if s.rankBusy c r && decide (tblGet 0 c.owed r < 3) then s.modChn k fun c => { c with owed := tblMod 0 c.owed r (· + 1) }
  else ((s.revoke k r).modChn k (issueRefresh r)).settleChn k

def execRefreshDue (ch rank : Nat) (s : State) : Res :=
  .next (onlyIf (s.live && decide (ch < 16) && decide (rank < s.physRanks) && ((s.chn ch).issues || (s.chn ch).state == 2))
    (refreshOp ch rank) s)

/-- The calibration period of a channel comes round: granting stops, the queue drains, then it calibrates; in self-refresh
it waits for the exit (R415). -/
def calibrationOp (k : Nat) (s : State) : State :=
  let t := s.reach (max (s.chn k).calNext (k * 16000000))
  (t.modChn k fun c => { c with calPend := true, calNext := max c.calNext (k * 16000000) + 256000000 }).settleChn k

def execCalibrationDue (ch : Nat) (s : State) : Res :=
  .next (onlyIf (s.live && decide (ch < 16) && (s.chn ch).state != 2) (calibrationOp ch) s)

def execCalibrationDone (ch : Nat) (s : State) : Res :=
  .next (onlyIf (s.live && (s.chn ch).state == 2) (fun t => t.modChn ch fun c => { c with state := 1, calPend := false }) s)

/-- A reading of the DIMM's sensors: doubled refresh above 85 °C; above 95 °C halved weights until 90 °C, with one class C
record for each excursion (R417). -/
def thermalOp (k : Nat) (temp : Int) (s : State) : State :=
  let was := (s.chn k).throttled
  let now := if temp > 95 then true else if temp ≤ 90 then false else was
  let t := s.modChn k fun c => s.clampBg ({ c with temp := temp, hot := decide (temp > 85), throttled := now } : Chn).clampAll
  if now && !was then t.report 0x0C (0xB0 + k) none none (twosOf 8 temp) 0 0 else t

def execDimmThermalRead (ch : Nat) (temp : Int) (s : State) : Res :=
  .next (onlyIf (s.live && decide (ch < 16)) (thermalOp ch temp) s)

/-- A rank idle for PD_IDLE cycles enters power-down (R418). -/
def powerDownOp (k r : Nat) (s : State) : State :=
  s.modChn k fun c =>
    if c.pdIdle == 0 || s.rankBusy c r || c.pdown.contains r then c
    else { c with pdown := c.pdown ++ [r], openRow := c.openRow.filter fun p => bankRank p.1 != r }

def execPowerDownEntry (ch rank : Nat) (s : State) : Res :=
  .next (onlyIf (s.live && decide (ch < 16) && decide (rank < s.physRanks) && (s.chn ch).state == 1) (powerDownOp ch rank) s)

/-- The condition of R375 under which the core islands are clock-gated: every existing function in D3hot and no unit in
flight. -/
def State.allAsleep (s : State) : Bool :=
  s.dsc.inflight.isEmpty && (List.range 64).all fun f => !(s.func f).isThere || (s.func f).d3

/-- Self-refresh entry of an idle channel: granting stops; with the queue drained, SRE issues (R419). The two instants are
two commands, so that a request can come between them (R420, Table 18-4). -/
def selfRefreshOp (k : Nat) (s : State) : State :=
  let c := s.chn k
  if c.state == 1 then
    if s.allAsleep && !c.calPend then (s.reach (c.lastAt + 10000)).modChn k fun c => { c with state := 3 } else s
  else if c.state == 3 && c.queue.isEmpty then
    s.modChn k fun c => { c with state := 4, openRow := [], pdown := [], srAt := s.time }
  else s

def execSelfRefreshEntry (ch : Nat) (s : State) : Res := .next (onlyIf (s.live && decide (ch < 16)) (selfRefreshOp ch) s)

/-- A request meets self-refresh: entry is abandoned before SRE, and after it the channel leaves once the residence time is
over, into a calibration that fell due meanwhile (R415, R420). -/
def selfRefreshExitOp (k : Nat) (s : State) : State :=
  let c := s.chn k
  if c.state == 3 then s.modChn k fun c => { c with state := 1, sreAborts := sat32 c.sreAborts 1 }
  else if c.state == 4 then
    (s.reach (c.srAt + Config.srResidence)).modChn k fun c => { c with state := if c.calPend then 2 else 1 }
  else s

def execSelfRefreshExit (ch : Nat) (s : State) : Res := .next (onlyIf (s.live && decide (ch < 16)) (selfRefreshExitOp ch) s)

/-! ### Patrol scrub (R421) -/

/-- The scrub reads this rank: one that holds a stripe, or the spare (R421). -/
def State.scrubbed (s : State) (ch r : Nat) : Bool :=
  (s.stripeOfRank ch r).isSome || (s.spareConf && r == s.physRanks - 1 && !(s.chn ch).outRanks.getLsbD r)

/-- First scrubbed position from `pos` on, ranks out of service left out; none at the end of the pass. -/
def State.scrubNext (s : State) (ch : Nat) : Nat → Nat → Option Nat
  | 0, _ => none
  | n + 1, pos =>
    if s.physRanks * s.rankSize ≤ pos then none
    else if s.scrubbed ch (pos / s.rankSize) then some pos
    else s.scrubNext ch n ((pos / s.rankSize + 1) * s.rankSize)

/-- What the scrub's read met, at physical offset `pos` (R413, R421, R425). -/
def State.scrubRead (s : State) (ch pos : Nat) (r : EccResult) : State :=
  let k := pos / s.rankSize
  match s.stripeOfRank ch k with
  | some st =>
    let a := addressOf ch (st * s.rankSize + pos % s.rankSize)
    match r with
    | .clean => s
    | .corrected => s.correctedOn ch k a
    | .uncorrectable => (s.lineLost ch k a).rankOut ch k s.policy.autoMigrate
  | none =>
    match r with
    | .clean => s
    | .corrected => s.correctedOn ch k 0
    | .uncorrectable =>
      ((s.modChn ch fun c => { c with uc := tblMod 0 c.uc k fun n => sat32 n 1 }).report 0x07 (0xB0 + ch) none none k 0 0).rankOut ch k s.policy.autoMigrate

/-- The scrub's position moves on; at the end of a pass SCRUB_BEHIND says whether it came in time (R421). -/
def State.scrubStep (s : State) (ch pos : Nat) : State :=
  match s.scrubNext ch 5 (pos + 64) with
  | some q => s.modChn ch fun c => { c with scrubPos := q }
  | none => s.modChn ch fun c =>
      { c with scrubPos := 0, passStart := s.time, behind := decide (c.scrubHours * 3600000000000 < s.time - c.passStart) }

/-- Granules that the ingress point granted to a background requester move (R24, R25). -/
def State.spend (s : State) (ch b n : Nat) : State := s.modChn ch fun c => { c with served := tblMod 0 c.served b (· - n) }

/-- The ingress point has granted a background requester `n` granules (R25, R407). -/
def Chn.hasServed (c : Chn) (b n : Nat) : Bool := decide (n ≤ tblGet 0 c.served b)

/-- One line of a scrub's pass, once its read has been granted (R25, R421). -/
def scrubOp (ch : Nat) (r : EccResult) (s : State) : State :=
  match s.scrubNext ch 5 (s.chn ch).scrubPos with
  | none => s
  | some pos => ((s.spend ch 0 1).scrubRead ch pos r).scrubStep ch pos

def execPatrolScrubRead (ch : Nat) (r : EccResult) (s : State) : Res :=
  .next (onlyIf (s.live && decide (ch < 16) && (s.chn ch).scrubEn && (s.chn ch).state == 1 && s.mem.trained.isSome && (s.chn ch).hasServed 0 1)
    (scrubOp ch r) s)

/-- Every correctable count is halved (R422). -/
def ceWindowOp (s : State) : State :=
  forUpTo 16 (fun k t => t.modChn k fun c => { c with ce := forUpTo 4 (fun r u => tblMod 0 u r (· / 2)) c.ce }) s

def execCeWindowEnd (s : State) : Res := .next (onlyIf s.up ceWindowOp s)

/-! ### Migration (R423 to R425, R428) -/

/-- Address of line `i` of the block at P. -/
def State.blockLine (s : State) (ch : Nat) (m : Mig) (i : Nat) : Nat := addressOf ch (m.stripe * s.rankSize + m.p + 64 * i)

/-- Lines that the copy found uncorrectable and no newer write replaced are lost (R423, R424). -/
def State.copyLost (s : State) (ch : Nat) (m : Mig) (bad : BitVec 64) : State :=
  forUpTo 64 (fun i t => if bad.getLsbD i && !m.mask.getLsbD i then t.lineLost ch m.rank (s.blockLine ch m i) else t) s

/-- P reaches RS: the spare holds the stripe, and the failing rank is out of service (R425, R428). -/
def State.endMigration (s : State) (ch : Nat) (m : Mig) : State :=
  ((s.modChn ch fun c => { c with mig := none, onSpare := some m.stripe, spareUsed := true,
                                  outRanks := c.outRanks ||| BitVec.twoPow 4 m.rank }).modMem fun x =>
    { x with pendRec := x.pendRec ++ [(ch, m.stripe, s.physRanks - 1, false)] }).capacity ch 2 (s.migArg ch m.rank)

/-- One block of 4 KiB: copied, and P advances; `r` is what the spare showed meanwhile (R423 to R425). -/
def copyBlockOp (ch : Nat) (bad : BitVec 64) (r : EccResult) (s : State) : State :=
  match (s.chn ch).mig with
  | none => s
  | some m =>
    match r with
    | .uncorrectable => s.stopMigration ch m
    | _ =>
      let t := s.copyLost ch m bad
      let u := t.modChn ch fun c => { c with mig := c.mig.map fun m => { m with p := m.p + 4096, mask := 0 } }
      let v := if r == .corrected then u.correctedOn ch (s.physRanks - 1) 0 else u
      if s.rankSize ≤ m.p + 4096 && (v.chn ch).mig.isSome then v.endMigration ch m else v

/-- A block copy, once its 64 reads and 64 writes have been granted (R25, R423). -/
def migrationOp (ch : Nat) (bad : BitVec 64) (r : EccResult) (s : State) : State := copyBlockOp ch bad r (s.spend ch 1 128)

def execMigrationCopy (ch : Nat) (bad : BitVec 64) (r : EccResult) (s : State) : Res :=
  .next (onlyIf (s.live && decide (ch < 16) && (s.chn ch).state == 1 && !(s.chn ch).calPend && (s.chn ch).hasServed 1 128) (migrationOp ch bad r) s)

/-- The firmware writes completed migrations and retirements to the boot flash (R428). -/
def rankRecordOp (s : State) : State :=
  match s.boot.flash with
  | none => s
  | some f =>
    (s.modBoot fun b => { b with flash := some { f with rankRecs := f.rankRecs ++ s.mem.pendRec } }).modMem fun m => { m with pendRec := [] }

def execRankRecordWrite (s : State) : Res := .next (onlyIf (s.up && s.fcl.mpFenced != 3) rankRecordOp s)

end Sys2Proof.Machine
end

