-- ==== Sys2Proof/Machine/Mover.lean ====
section
/-! DEFINITION. The Data Mover: channels, descriptors, bursts, demand requests (15_data_mover_buffers.md). -/
namespace Sys2Proof.Machine

/-! ### Descriptors (Table 15-4) -/

/-- A field of a descriptor: `w` bits from bit `lo` of byte `byte`. -/
def dfld (d : BitVec 256) (byte lo w : Nat) : Nat := fld d.toNat (8 * byte + lo) w

def Desc.len (d : Desc) : Nat := dfld d.raw 4 0 32
def Desc.src (d : Desc) : Nat := dfld d.raw 8 0 64
def Desc.srcSpace (d : Desc) : Nat := dfld d.raw 1 0 8
def Desc.dstSpace (d : Desc) : Nat := dfld d.raw 2 0 8
def Desc.allocDst (d : Desc) : Bool := dfld d.raw 0 3 1 == 1
def Desc.fence (d : Desc) : Bool := dfld d.raw 0 2 1 == 1
def Desc.intr (d : Desc) : Bool := dfld d.raw 0 1 1 == 1
def Desc.pool (d : Desc) : Nat := dfld d.raw 3 0 8
def Desc.owner (d : Desc) : Nat := dfld d.raw 28 0 10

/-- Two ranges of `n` bytes meet. -/
def rangesMeet (a b n : Nat) : Bool := decide (a < b + n) && decide (b < a + n)

/-- Buffer size of a pool of the function; none where it has no such pool. -/
def State.ownPool (s : State) (fn p : Nat) : Option Pool :=
  match s.pool? p with
  | some q => if q.fn == fn then some q else none
  | none => none

/-- LENGTH is out of range: 0, past 2^64, or above the pool's buffer size (Table 15-5). -/
def State.descLong (s : State) (fn : Nat) (d : BitVec 256) : Bool :=
  let len := dfld d 4 0 32
  let alloc := dfld d 0 3 1 == 1
  len == 0 || decide (2 ^ 64 < dfld d 8 0 64 + len) || (!alloc && decide (2 ^ 64 < dfld d 16 0 64 + len)) ||
    (alloc && match s.ownPool fn (dfld d 3 0 8) with
      | some p => decide (2 ^ p.bufLog < len)
      | none => false)

/-- The malformed cause of a descriptor, lowest first (Table 15-5; log entry 11). -/
def State.descCause (s : State) (fn : Nat) (d : BitVec 256) : Option Nat :=
  let alloc := dfld d 0 3 1 == 1
  if dfld d 0 5 3 != 0 || dfld d 28 10 6 != 0 then some 1
  else if 1 < dfld d 1 0 8 || 1 < dfld d 2 0 8 || (alloc && dfld d 2 0 8 != 1) then some 2
  else if s.descLong fn d then some 3
  else if !alloc && dfld d 1 0 8 == dfld d 2 0 8 && rangesMeet (dfld d 8 0 64) (dfld d 16 0 64) (dfld d 4 0 32) then some 4
  else if alloc && (s.ownPool fn (dfld d 3 0 8)).isNone then some 5
  else none

/-- A descriptor as the engine takes it from ring slot `slot`. -/
def newDesc (d : BitVec 256) (slot : Nat) : Desc :=
  { raw := d, slot := slot, dst := dfld d 16 0 64, rdDone := 0, wrDone := 0, alloc := dfld d 0 3 1 == 1, started := false,
    status := 0, cause := 0, failed := false }

/-! ### Channel states (R342) -/

/-- The function that owns a channel; 64 where none does. -/
def State.fnOfChan (s : State) (g : Nat) : Nat := ((s.chanOwner g).map Prod.fst).getD 64

/-- Number of descriptors in a ring. -/
def Chan.depth (c : Chan) : Nat := 2 ^ c.depthLog

/-- Descriptors not yet started are dropped, and NEXT names the first of them (R347, R348; log entry 23). -/
def Chan.dropWaiting (c : Chan) : Chan :=
  match c.inprog.find? fun d => !d.started with
  | none => c
  | some d => { c with inprog := c.inprog.filter (fun d => d.started), next := d.slot }

/-- STOPPING settles to DISABLED once every started descriptor has been written back (Table 15-3). -/
def Chan.settle (c : Chan) : Chan := if c.state == .stopping && c.inprog.isEmpty then { c with state := .disabled } else c

/-- The channel goes to ERROR at the malformed descriptor that NEXT names, which is recorded, and its interrupt source is asserted;
those before it go on (R346, Table 17-1). -/
def State.chanFail (s : State) (g cause : Nat) : State :=
  ((s.modChan g fun c => { c with state := .error, cause := cause }).assertSource (192 + g)).report 0x21 0xA4 (some (s.fnOfChan g)) none cause 0 0

/-- A pool request of the channel is withdrawn. -/
def State.unask (s : State) (g : Nat) : State :=
  forEach (tblKeys s.bpm.pools) (fun p t => t.modPool p fun q => { q with reqs := q.reqs.filter fun r => r.port != 64 + g }) s

/-- The channel presents an allocation to the pool of its first descriptor that waits for a buffer (R352). -/
def State.askPool (s : State) (g : Nat) : State :=
  match (s.chan g).inprog.find? fun d => d.started && d.alloc with
  | none => s
  | some d =>
    match s.ownPool (s.fnOfChan g) d.pool with
    | none =>
      let t := s.modChan g fun c => { c with inprog := c.inprog.map fun e => if e.slot == d.slot then { e with started := false } else e }
      (t.modChan g Chan.dropWaiting).chanFail g 5
    | some _ =>
      if (s.chan g).asking || (s.chan g).askAt != 0 then s
      else (s.modChan g fun c => { c with asking := true }).modPool d.pool fun q =>
        { q with reqs := q.reqs ++ [{ port := 64 + g, isFree := false, owner := d.owner, addr := 0 }] }

/-- The protection tables grant the function the device ranges of a descriptor (R347). -/
def State.descGranted (s : State) (fn : Nat) (d : Desc) : Bool :=
  (d.srcSpace == 0 || s.granted fn d.src d.len) && (d.alloc || d.dstSpace == 0 || s.granted fn d.dst d.len)

/-- The start of one descriptor: the protection check comes before the first burst (R347). -/
def State.startDesc (s : State) (fn : Nat) (d : Desc) : Desc :=
  if s.descGranted fn d then { d with started := true }
  else { d with started := true, alloc := false, failed := true, status := 0x11, cause := 0x23 }

/-- Descriptors start in ring order; one with FENCE waits for every earlier write-back (R345, Table 15-4). -/
def State.startRun (s : State) (fn : Nat) : Bool → List Desc → List Desc
  | _, [] => []
  | first, d :: ds =>
    if d.started then d :: s.startRun fn false ds
    else if d.fence && !first then d :: ds
    else s.startDesc fn d :: s.startRun fn false ds

/-- The engine starts what it may: nothing for a suspended function, whose started descriptors complete (R345, R348, R375). -/
def State.startDescs (s : State) (g : Nat) : State :=
  if (s.chan g).state == .disabled then s
  else (if (s.func (s.fnOfChan g)).d3 then s else s.modChan g fun c => { c with inprog := s.startRun (s.fnOfChan g) true c.inprog }).askPool g

/-! ### Channel registers (Tables 15-8 and 15-9) -/

/-- Offset of a channel register in the PF0 or VF BAR 0. -/
def chanOff (fn l off : Nat) : Nat := pageBase fn 0x2400000 0x22000 + 0x400 + l * 0x20 + off

/-- The fields of DMV_CH_CTRL stored: base, depth and space only while ENABLE is 0 (Table 15-9). -/
def Chan.setCtrl (v : Nat) (c : Chan) : Chan :=
  let d := clampNat 4 16 (fld v 25 5)
  let e := { c with stopOnFail := bitAt v 30, vector := fld v 0 11 }
  if c.enable then e
  else { e with depthLog := d, space := BitVec.ofNat 8 (fld v 16 8), next := if d == c.depthLog then c.next else 0 }

/-- ENABLE as written: the transitions enable and disable (Table 15-3). A STOPPING channel takes no enable. -/
def Chan.setEnable (on : Bool) (c : Chan) : Chan :=
  match c.state with
  | .disabled => if on then { c with state := .running, enable := true, cause := 0 } else { c with enable := false }
  | .stopping => c
  | _ => if on then c else ({ c.dropWaiting with state := .stopping, enable := false, cause := 0, bell := false } : Chan).settle

/-- A write of DMV_CH_CTRL: discarded whole where VECTOR is out of range (Table 15-9). -/
def ctrlOp (fn l : Nat) (v : Word) (s : State) : State :=
  let g := s.chanOf fn l
  if (s.fnRec fn).vectors ≤ fld v.toNat 0 11 then s.reportAccess fn (chanOff fn l 8)
  else
    s.modChan g fun c => (c.setCtrl v.toNat).setEnable (bitAt v.toNat 31)

/-- The channel's registers answer: its local index lies below the function's quota (R341). -/
def State.chanLive (s : State) (fn l : Nat) : Bool := s.fnLive fn && decide (l < (s.fnRec fn).channels)

def execChannelEnable (fn chan : Nat) (v : Word) (s : State) : Res := .next (onlyIf (s.chanLive fn chan) (ctrlOp fn chan v) s)

def execChannelDisable (fn chan : Nat) (v : Word) (s : State) : Res := .next (onlyIf (s.chanLive fn chan) (ctrlOp fn chan v) s)

/-- A doorbell: an IDLE channel runs, a RUNNING one reads once more before it stalls, any other discards it (R342, R345). -/
def chDbOp (fn l : Nat) (s : State) : State :=
  s.modChan (s.chanOf fn l) fun c =>
    match c.state with
    | .idle => { c with state := .running }
    | .running => { c with bell := true }
    | _ => c

def execDmvChDb (fn chan : Nat) (_v : Word) (s : State) : Res := .next (onlyIf (s.chanLive fn chan) (chDbOp fn chan) s)

/-- A write of DMV_CH_BASE sets NEXT to 0, and is discarded while ENABLE is 1 (R343, Table 15-9). -/
def chBaseOp (fn l : Nat) (v : DWord) (s : State) : State :=
  s.modChan (s.chanOf fn l) fun c => if c.enable then c else { c with base := v, next := 0 }

/-- An aligned 8-byte write of DMV_CH_BASE: its low word replaces one that the function holds, and takes effect with the high word
at once (R6). -/
def chBaseWide (fn chan : Nat) (v : DWord) (s : State) : State :=
  (chBaseOp fn chan v s).dropHeld fn (pageBase fn 0x2400000 0x22000 + 0x400 + 0x20 * chan)

def execDmvChBaseWrite (fn chan : Nat) (v : DWord) (s : State) : Res :=
  .next (onlyIf (s.chanLive fn chan) (chBaseWide fn chan v) s)

/-! ### Descriptor reads (R345, R346) -/

/-- The address of ring slot `i`. -/
def Chan.slotAddr (c : Chan) (i : Nat) : Nat := c.base.toNat + i % c.depth * 32

/-- The descriptors at NEXT: those the host returned, or those of a ring in device memory. -/
def State.readDescs (s : State) (c : Chan) (ok : Bool) (ds : List (BitVec 256)) : Bool × List (BitVec 256) :=
  if c.space.toNat == 0 then (ok, ds.take 8)
  else
    let at_ := fun i => c.slotAddr (c.next + i)
    (!(List.range 8).any (fun i => s.poisoned (at_ i) 32),
     (List.range 8).map fun i => BitVec.ofNat 256 (leNat (s.memRead (at_ i) 32)))

/-- The descriptors accepted, up to the first not owned, malformed, or past 8 in progress (R345). -/
def takeDescs (g fn : Nat) : List (BitVec 256) → State → State
  | [], s => s
  | d :: ds, s =>
    if 8 ≤ (s.chan g).inprog.length then s
    else if dfld d 0 0 1 == 0 then
      s.modChan g fun c => if c.bell then { c with bell := false } else { c with state := .idle }
    else
      match s.descCause fn d with
      | some k => s.chanFail g k
      | none => takeDescs g fn ds (s.modChan g fun c =>
          { c with inprog := c.inprog ++ [newDesc d c.next], next := ringNext c.next c.depth })

/-- A descriptor read returns (R345, R346). -/
def descReadOp (g : Nat) (ok : Bool) (ds : List (BitVec 256)) (s : State) : State :=
  let fn := s.fnOfChan g
  let r := s.readDescs (s.chan g) ok ds
  if !r.1 then s.chanFail g 6
  else (takeDescs g fn r.2 s).startDescs g

/-- The engine of a channel may read and write: it runs, and its function is not suspended (R375). -/
def State.chanActive (s : State) (g : Nat) : Bool := s.live && !(s.func (s.fnOfChan g)).d3

def execDescriptorRead (g : Nat) (ok : Bool) (descs : List (BitVec 256)) (s : State) : Res :=
  .next (onlyIf (s.chanActive g && (s.chan g).state == .running && decide ((s.chan g).inprog.length < 8)) (descReadOp g ok descs) s)

/-! ### Bursts (R337 to R340) -/

/-- Bytes of the burst at source address `a` with `left` bytes to move: within one 4 KiB block (R337). -/
def burstLen (a left : Nat) : Nat := min left (4096 - a % 4096)

/-- `n` bytes of what a read returned. -/
def fitBytes (n : Nat) (bs : List Byte) : List Byte := bs.take n ++ List.replicate (n - bs.length) 0

/-- The next burst of a user: slot of its descriptor, source space and address, bytes, destination space and address. -/
structure Burst where
  desc     : Nat
  srcSpace : Nat
  src      : Nat
  n        : Nat
  dstSpace : Nat
  dst      : Nat
  deriving DecidableEq, Repr

/-- The next burst of a channel: of its first started descriptor with source bytes left. -/
def State.chanBurst (s : State) (g : Nat) : Option Burst :=
  ((s.chan g).inprog.find? fun d => d.started && !d.failed && !d.alloc && decide (d.rdDone < d.len)).map fun d =>
    ⟨d.slot, d.srcSpace, d.src + d.rdDone, burstLen (d.src + d.rdDone) (d.len - d.rdDone), d.dstSpace, d.dst + d.rdDone⟩

/-- The next burst of a COPY unit. -/
def State.copyBurst (s : State) (q : Nat) (seq : Word) : Option Burst :=
  (s.dmv.copies.find? fun c => c.q == q && c.seq == seq && !c.failed && decide (c.rdDone < c.len)).map fun c =>
    ⟨0, c.srcSpace, c.src + c.rdDone, burstLen (c.src + c.rdDone) (c.len - c.rdDone), c.dstSpace, c.dst + c.rdDone⟩

def State.nextBurst (s : State) (u : DmvUser) : Option Burst :=
  match u with
  | .channel g => s.chanBurst g
  | .copy q seq => s.copyBurst q seq
  | .demand _ => none

/-- The slots of a user. -/
def State.slotsOf (s : State) (u : DmvUser) : List Slot := s.dmv.slots.filter fun x => x.user == u

/-- A demand request's slot. -/
def isDemand (u : DmvUser) : Bool :=
  match u with
  | .demand _ => true
  | _ => false

/-- A slot is free for the user: 32 for each, 384 for all channels and COPY units, and 512 less the slots withdrawn
(R340, Table 19-5). -/
def State.slotFree (s : State) (u : DmvUser) : Bool :=
  decide (s.dmv.slots.length + s.dmv.demandRd.length < 512 - s.dmv.lostSlots) &&
    (isDemand u || (decide ((s.dmv.slots.filter fun x => !isDemand x.user).length < 384) && decide ((s.slotsOf u).length < 32)))

/-- The function for which a user moves bytes. -/
def State.fnOfUser (s : State) (u : DmvUser) : Nat :=
  match u with
  | .channel g => s.fnOfChan g
  | .copy q _ => (s.queue q).fn
  | .demand h => match (s.half h).unit.bind s.unit? with
    | some w => w.fn
    | none => 64

/-- Source bytes of a user have been read, up to `n` more. -/
def State.addRead (s : State) (u : DmvUser) (desc n : Nat) : State :=
  match u with
  | .channel g => s.modChan g fun c => { c with inprog := c.inprog.map fun d => if d.slot == desc then { d with rdDone := d.rdDone + n } else d }
  | .copy q seq => s.modDmv fun d => { d with copies := d.copies.map fun c => if c.q == q && c.seq == seq then { c with rdDone := c.rdDone + n } else c }
  | .demand _ => s

/-- Destination bytes of a user have been written, `n` more. -/
def State.addWritten (s : State) (u : DmvUser) (desc n : Nat) : State :=
  match u with
  | .channel g => s.modChan g fun c => { c with inprog := c.inprog.map fun d => if d.slot == desc then { d with wrDone := d.wrDone + n } else d }
  | .copy q seq => s.modDmv fun d => { d with copies := d.copies.map fun c => if c.q == q && c.seq == seq then { c with wrDone := c.wrDone + n } else c }
  | .demand _ => s

/-- COPY units end: the entry completes, and its slots free (R350). -/
def State.endCopy (s : State) (q : Nat) (seq : Word) (code cause bytes : Nat) : State :=
  let us := (s.dmv.copies.filter fun c => c.q == q && c.seq == seq).map CopyU.uid
  let f := s.modDsc fun d => { d with inflight := d.inflight.filter fun p => !us.contains p.2 }
  let t := f.modDmv fun d => { d with copies := d.copies.filter fun c => !(c.q == q && c.seq == seq), slots := d.slots.filter fun x => x.user != .copy q seq }
  (t.modEntry q seq fun e => { e with bytes := bytes }).closeEntry q seq code cause

/-- A transfer fails with DEVICE_FAULT_RETRY, cause 0x30 (Table 15-6, R350, R168). -/
def State.failTransfer (s : State) (u : DmvUser) (desc : Nat) : State :=
  match u with
  | .channel g =>
    (s.modChan g fun c => { c with inprog := c.inprog.map fun d =>
      if d.slot == desc then { d with failed := true, status := 0xF0, cause := 0x30 } else d }).modDmv fun d =>
      { d with slots := d.slots.filter fun x => !(x.user == u && x.desc == desc) }
  | .copy q seq => s.endCopy q seq 0xF0 0x30 0
  | .demand h =>
    match (s.half h).unit with
    | some uid => s.poisonUnit uid
    | none => s

/-- A source line of device memory was poisoned: recorded, and handled by its region (R441). -/
def State.consumed (s : State) (u : DmvUser) (space a n : Nat) : State :=
  if space == 1 then
    forEach ((linesOf a n).filter fun l => s.poisoned l 64) (fun l t => (t.report 0x08 0xA4 (some (s.fnOfUser u)) none 0 0 l).loseLine l) s
  else s

/-- The bytes of a burst and whether they are poisoned: from device memory, or as the host returned them. -/
def State.burstData (s : State) (space a n : Nat) (poisoned : Bool) (data : List Byte) : Bool × List Byte :=
  if space == 1 then (s.poisoned a n, s.memRead a n) else (poisoned, fitBytes n data)

/-- The channels and COPY units with a burst ready and a slot for it, each with its place in the turn (R340). -/
def State.readersReady (s : State) : List (Nat × DmvUser) :=
  let all := (tblKeys s.dmv.chans).map (fun g => (g, DmvUser.channel g)) ++ s.dmv.copies.map fun c => (256 + c.uid, DmvUser.copy c.q c.seq)
  all.filter fun x => s.slotFree x.2 && (s.nextBurst x.2).isSome

/-- The user whose burst the read engine takes next: the first after the last served, in ascending order, and around (R340). -/
def State.nextReader (s : State) : Option (Nat × DmvUser) :=
  let rs := s.readersReady
  match leastBy (fun x : Nat × DmvUser => (x.1 : Int)) (rs.filter fun x => decide (s.dmv.turn < x.1)) with
  | some x => some x
  | none => leastBy (fun x : Nat × DmvUser => (x.1 : Int)) rs

/-- The read engine takes a burst of a user into a slot, which waits for its bytes (R337). -/
def State.takeBurst (s : State) (k : Nat) (u : DmvUser) (b : Burst) : State :=
  (s.addRead u b.desc b.n).modDmv fun d => { d with
    turn := k
    slots := d.slots ++ [{ user := u, desc := b.desc, srcSpace := b.srcSpace, src := b.src, space := b.dstSpace,
                           addr := b.dst, bytes := List.replicate b.n 0, reread := false, waiting := true }] }

/-- The read engine takes one burst from each user in turn, while slots allow it (R340). -/
def State.takeBursts (s : State) : Nat → State
  | 0 => s
  | fuel + 1 =>
    match s.nextReader with
    | none => s
    | some (k, u) =>
      match s.nextBurst u with
      | none => s
      | some b => (s.takeBurst k u b).takeBursts fuel

/-- The bytes of a burst fill the slot that waits for them, or their poison ends the transfer (R337, R347, R440). -/
def State.fillSlot (s : State) (u : DmvUser) (x : Slot) (poisoned : Bool) (data : List Byte) : State :=
  let n := x.bytes.length
  let r := s.burstData x.srcSpace x.src n poisoned data
  let t := (s.readUsed x.srcSpace x.src n).modDmv fun d => { d with bytesRd := sat64 d.bytesRd n }
  if r.1 then (t.consumed u x.srcSpace x.src n).failTransfer u x.desc
  else t.modDmv fun d => { d with slots := d.slots.map fun y => if y == x then { y with waiting := false, bytes := r.2 } else y }

/-- A demand read returns to its half (R349); poison rolls its unit back (R168). -/
def State.demandBack (s : State) (h : Nat) (poisoned : Bool) : State :=
  match s.dmv.demandRd.find? fun x => x.1 == h with
  | none => s
  | some (_, space, a, n) =>
    let bad := if space == 1 then s.poisoned a n else poisoned
    let t := (s.readUsed space a n).modDmv fun d =>
      { d with demandRd := d.demandRd.erase (h, space, a, n), bytesRd := sat64 d.bytesRd n, slots := d.slots.filter fun x => x.user != .demand h }
    if bad then (t.consumed (.demand h) space a n).failTransfer (.demand h) 0 else t

/-- A read burst of a user is done: the oldest that the read engine has taken for it (R337, R340, R349). -/
def burstOp (u : DmvUser) (poisoned : Bool) (data : List Byte) (s : State) : State :=
  match u with
  | .demand h => s.demandBack h poisoned
  | _ =>
    let t := s.takeBursts 384
    match (t.slotsOf u).find? fun x => x.waiting with
    | none => t
    | some x =>
      if x.srcSpace == 1 && !t.readReady x.src x.bytes.length then t.askRead x.src x.bytes.length
      else t.fillSlot u x poisoned data

def execReadBurstDone (u : DmvUser) (poisoned : Bool) (data : List Byte) (s : State) : Res :=
  .next (onlyIf s.live (burstOp u poisoned data) s)

/-! ### Write requests (R337, R339) -/

/-- The most bytes of a write request: 512, or for a host destination the link's Max_Payload_Size where that is smaller (R337). -/
def State.requestMax (s : State) (space : Nat) : Nat := if space == 0 then min 512 (max 128 s.hlu.mode.payload) else 512

/-- Bytes of the write request at destination `a` with `have` bytes buffered: within one aligned block of `m` bytes (R337). -/
def requestLen (m a have_ : Nat) : Nat := min have_ (m - a % m)

/-- What is left of a slot after a request of `n` bytes. -/
def Slot.drop (x : Slot) (n : Nat) : Slot := { x with src := x.src + n, addr := x.addr + n, bytes := x.bytes.drop n }

/-- One write request from a slot; the slot frees with its last (R337). -/
def State.issueFrom (s : State) (x : Slot) : State :=
  let n := requestLen (s.requestMax x.space) x.addr x.bytes.length
  let t := s.putData (s.fnOfUser x.user) x.space x.addr (x.bytes.take n)
  let v := t.modDmv fun d =>
    { d with bytesWr := sat64 d.bytesWr n,
             slots := if x.bytes.length ≤ n then d.slots.erase x else d.slots.map fun y => if y == x then x.drop n else y }
  v.addWritten x.user x.desc n

/-- A COPY whose last byte is written completes (R350). -/
def State.settleCopy (s : State) (u : DmvUser) : State :=
  match u with
  | .copy q seq =>
    match s.dmv.copies.find? fun c => c.q == q && c.seq == seq with
    | some c =>
      if c.len ≤ c.wrDone then
        (s.modEntry q seq fun e => { e with roOut := e.roOut || (c.dstSpace == 0 && s.relaxedFor (s.queue q).fn),
                                            lines := if c.dstSpace == 1 then e.lines ++ linesOf c.dst c.len else e.lines }).endCopy q seq 0 0 c.len
      else s
    | none => s
  | _ => s

/-- The held demand write of a half that issues first: window, address, bytes, arrival. -/
def State.issueDemand (s : State) (h : Nat) : State :=
  match s.dmv.demand.find? fun x => x.1 == h with
  | none => s
  | some (h', w, a, bs, at_) =>
    (s.putData (s.fnOfUser (.demand h)) 0 a bs).modDmv fun d =>
      { d with demand := d.demand.erase (h', w, a, bs, at_), bytesWr := sat64 d.bytesWr bs.length }

/-- The write engine issues a request for a user, in destination order (R337). -/
def writeReqOp (u : DmvUser) (s : State) : State :=
  match u with
  | .demand h => s.issueDemand h
  | _ =>
    match s.slotsOf u with
    | [] => s
    | x :: _ => if x.waiting then s else (s.issueFrom x).settleCopy u

def execWriteRequestIssue (u : DmvUser) (s : State) : Res := .next (onlyIf s.live (writeReqOp u) s)

/-! ### Write-back (R345, R347) -/

/-- A descriptor has finished: failed, or every byte written and acknowledged (R345). -/
def State.descReady (s : State) (d : Desc) : Bool :=
  d.started && (d.failed || (!d.alloc && decide (d.len ≤ d.wrDone) && (d.dstSpace == 0 || s.linesAcked (linesOf d.dst d.len))))

/-- The 32 bytes written back (Table 15-4). -/
def Desc.written (d : Desc) : List Byte :=
  let keep := fld d.raw.toNat 1 3 * 2 + 16
  leBytes 32 (keep + put 1 0 (dfld d.raw 1 0 24) + put 4 0 d.len + put 8 0 d.src + put 16 0 (if d.allocDst then d.dst else dfld d.raw 16 0 64)
    + put 24 0 (dfld d.raw 24 0 32) + put 28 24 d.status + put 28 16 d.cause + put 28 0 d.owner)

/-- Relaxed writes are flushed before the record that describes them (R307, R367). -/
def State.flushFor (s : State) (fn space a : Nat) : State :=
  if space == 0 && s.relaxedFor fn then s.emitFor fn (.hostRead fn a 0) else s

/-- The write-back of the oldest descriptor; a failed one stops the channel where STOP_ON_FAIL says so (R347). -/
def writebackOp (g : Nat) (s : State) : State :=
  match (s.chan g).inprog with
  | [] => s
  | d :: ds =>
    if !s.descReady d then s
    else
      let fn := s.fnOfChan g
      let c := s.chan g
      let t := (s.flushFor fn c.space.toNat (c.slotAddr d.slot)).putRecord fn c.space.toNat (c.slotAddr d.slot) d.written
      let u := t.modChan g fun c => { c with inprog := ds, done := c.done + 1 }
      let v := if d.intr then u.assertSource (192 + g) else u
      let w := if d.failed && c.stopOnFail && (c.state == .running || c.state == .idle) then
          (v.modChan g fun c => { c.dropWaiting with state := .error, cause := d.cause }).assertSource (192 + g)
        else v
      (w.modChan g Chan.settle).startDescs g

def execDescriptorWriteback (g : Nat) (s : State) : Res := .next (onlyIf (s.up && s.live) (writebackOp g) s)

/-! ### Demand requests (R349) -/

/-- A half's read of a host address: 64 bytes to 4 KiB, one slot (R349). -/
def demandReadOp (h space a n : Nat) (s : State) : State :=
  if s.slotFree (.demand h) then s.modDmv fun d => { d with demandRd := d.demandRd ++ [(h, space, a, n)] } else s

/-- A write granule merges with the one that ends where it begins, within one block of a write request; otherwise what is held of
that window issues first (R337, R349). -/
def demandWriteOp (h w a : Nat) (bs : List Byte) (s : State) : State :=
  match s.dmv.demand.find? fun x => x.1 == h && x.2.1 == w with
  | none => s.modDmv fun d => { d with demand := d.demand ++ [(h, w, a, bs, s.time)] }
  | some x =>
    let held := x.2.2.2.1
    if x.2.2.1 + held.length == a && decide (x.2.2.1 / s.requestMax 0 = (a + bs.length - 1) / s.requestMax 0) then
      s.modDmv fun d => { d with demand := d.demand.map fun y => if y == x then (h, w, x.2.2.1, held ++ bs, x.2.2.2.2) else y }
    else
      ((s.putData (s.fnOfUser (.demand h)) 0 x.2.2.1 held).modDmv fun d =>
        { d with demand := d.demand.erase x ++ [(h, w, a, bs, s.time)], bytesWr := sat64 d.bytesWr held.length })

/-- A granule held 64 island cycles issues (R349). -/
def execDemandWriteHold (half : Nat) (s : State) : Res := .next (onlyIf s.live (fun t => t.issueDemand half) s)

/-! ### Data-buffer parity (R440) -/

/-- The burst of a slot is read once more: at once from device memory, by the next burst from the host. -/
def State.reread (s : State) (x : Slot) : State :=
  s.modDmv fun d => { d with slots := d.slots.map fun y => if y == x then
    { y with reread := true, waiting := y.srcSpace == 0, bytes := if y.srcSpace == 1 then s.memRead y.src y.bytes.length else y.bytes } else y }

/-- A parity error in a user's oldest filled slot: read again once; a second failure fails the transfer and withdraws the slot. -/
def bufParityOp (u : DmvUser) (s : State) : State :=
  let t := s.report 0x03 0xA4 (some (s.fnOfUser u)) none 0 0 0
  match (s.slotsOf u).filter (fun x => !x.waiting || isDemand u), u with
  | [], .demand h =>
    if s.dmv.demandRd.any fun x => x.1 == h then
      t.modDmv fun d => { d with slots := d.slots ++ [{ user := u, desc := 0, srcSpace := 0, src := 0, space := 0, addr := 0, bytes := [], reread := true, waiting := true }] }
    else t
  | [], _ => t
  | x :: _, _ =>
    if x.reread then
      (t.modDmv fun d => { d with lostSlots := d.lostSlots + 1, slots := d.slots.erase x }).failTransfer u x.desc
    else t.reread x

def execDmvBufferParity (u : DmvUser) (s : State) : Res := .next (onlyIf s.live (bufParityOp u) s)

end Sys2Proof.Machine
end

