-- ==== Sys2Proof/Machine/Pools.lean ====
section
/-! DEFINITION. The Buffer Pool Manager (15_data_mover_buffers.md). -/
namespace Sys2Proof.Machine

/-- Address of buffer `i` (R351). -/
def Pool.bufAddr (p : Pool) (i : Nat) : Nat := p.base + i * 2 ^ p.bufLog

/-- The owner-table word of a buffer: ALLOCATED and OWNER (R351). -/
def Pool.ownerWord (p : Pool) (i : Nat) : Nat :=
  match tblGet 0 p.owners i with
  | 0 => 0
  | o + 1 => 2 ^ 15 + o

/-- The owner-table entry of a buffer changes, in the state and in device memory (R351). -/
def State.setOwner (s : State) (pool i v : Nat) : State :=
  let t := s.modPool pool fun p => { p with owners := tblSet 0 p.owners i v }
  match t.pool? pool with
  | some p => t.memWrite (p.ownerBase + 2 * i) (leBytes 2 (p.ownerWord i))
  | none => t

/-! ### Cache and ring (R353; log entry 24) -/

/-- Up to 16 indices move from the ring's front into the cache; buffers that left the pool are passed over. -/
def Pool.refill (p : Pool) : Pool :=
  let got := p.ring.take 16
  { p with ring := p.ring.drop 16, ringPos := (p.ringPos + got.length) % p.ringSize,
           cache := (got.reverse.filter fun i => !p.barred.contains i) ++ p.cache }

/-- 16 indices least recently placed go to the ring's end. -/
def Pool.spill (p : Pool) : Pool :=
  { p with ring := p.ring ++ (p.cache.drop (p.cache.length - 16)).reverse, cache := p.cache.take (p.cache.length - 16) }

/-- Ring words of the last `n` entries, as the spill writes them. -/
def State.writeRing (s : State) (pool n : Nat) : State :=
  match s.pool? pool with
  | none => s
  | some p =>
    forEach (p.slotted.drop (p.ring.length - n)) (fun x t => t.memWrite (p.ringBase + 4 * x.1) (leBytes 4 x.2)) s

/-- Free buffers that allocation can return. -/
def Pool.freeCount (p : Pool) : Nat := p.cache.length + (p.ring.filter fun i => !p.barred.contains i).length

/-- The cache is filled from the ring until it holds an index or the ring is empty: refills never delay a request. -/
def Pool.ready : Nat → Pool → Pool
  | 0, p => p
  | n + 1, p => if p.cache.isEmpty && !p.ring.isEmpty then Pool.ready n p.refill else p

def poolRefillOp (pool : Nat) (s : State) : State :=
  s.modPool pool fun p => if p.cache.length < 16 then p.refill else p

def execPoolCacheRefill (pool : Nat) (s : State) : Res := .next (onlyIf s.live (poolRefillOp pool) s)

def poolSpillOp (pool : Nat) (s : State) : State :=
  match s.pool? pool with
  | some p => if 48 < p.cache.length then (s.setPool pool (some p.spill)).writeRing pool 16 else s
  | none => s

def execPoolCacheSpill (pool : Nat) (s : State) : Res := .next (onlyIf s.live (poolSpillOp pool) s)

/-! ### Usage events (R354) -/

/-- A rejected free: POOL event, BPM_USAGE, and a class U record (R354). -/
def State.poolEvent (s : State) (fn code arg : Nat) : State :=
  ((s.event fn 0x08 none code 0 0 0 arg).modBpm fun b => { b with usage := sat32 b.usage 1 }).report 0x23 0xA5 (some fn) none code 0 0

/-- BPM_FREE_STATUS of a function: DONE with a result code. -/
def State.freeDone (s : State) (fn code : Nat) : State :=
  s.modPath fn fun p => { p with freeStatus := BitVec.ofNat 32 (2 ^ 31 + code) }

/-! ### Register paths (Tables 15-11 and 15-12) -/

/-- BPM_ALLOC_RES of a function. -/
def State.allocDone (s : State) (fn addr flags : Nat) : State :=
  s.modPath fn fun p => { p with
    allocLo := BitVec.ofNat 32 (addr % 2 ^ 32 / 4096 * 4096 + flags)
    allocHi := BitVec.ofNat 32 (addr / 2 ^ 32 % 65536) }

/-- A register path carries one allocation and one free at a time (R355): what stood of that kind is given up. -/
def State.dropPath (s : State) (fn : Nat) (isFree : Bool) : State :=
  forEach (tblKeys s.bpm.pools) (fun p t => t.modPool p fun q => { q with reqs := q.reqs.filter fun r => !(r.port == fn && r.isFree == isFree) }) s

/-- A write of BPM_ALLOC_REQ (R352): REJECTED at once where POOL is not the function's. -/
def allocReqOp (fn : Nat) (v : Word) (s : State) : State :=
  let t := (s.dropPath fn false).modPath fn fun p => { p with allocLo := 0, allocHi := 0 }
  let pool := fld v.toNat 0 8
  match s.ownPool fn pool with
  | none => t.allocDone fn 0 5
  | some _ => t.modPool pool fun q => { q with reqs := q.reqs ++ [{ port := fn, isFree := false, owner := fld v.toNat 8 10, addr := 0 }] }

def execBpmAllocReq (fn : Nat) (v : Word) (s : State) : Res := .next (onlyIf (s.fnLive fn) (allocReqOp fn v) s)

/-- The pool of a function whose buffers hold an address (R354 check 1). -/
def State.poolAt (s : State) (fn a : Nat) : Option Nat :=
  (tblKeys s.bpm.pools).find? fun p =>
    match s.pool? p with
    | some q => q.fn == fn && decide (q.base ≤ a) && decide (a < q.base + q.count * 2 ^ q.bufLog)
    | none => false

/-- Offset of BPM_FREE low in the PF0 or VF BAR 0. -/
def freeOff (fn : Nat) : Nat := pageBase fn 0x2400000 0x22000 + 0xCC

/-- A write of BPM_FREE high: a held low word joins it, and the free is presented with its owner (R6, R354). -/
def freeOp (fn : Nat) (v : Word) (s : State) : State :=
  let lo := (s.heldLow fn (freeOff fn)).getD (s.path fn).freeLo
  let t := ((s.dropPath fn true).dropHeld fn (freeOff fn)).modPath fn fun p => { p with freeLo := lo, freeStatus := 0 }
  let a := fld v.toNat 0 16 * 2 ^ 32 + lo.toNat
  match s.poolAt fn a with
  | none => (t.poolEvent fn 3 256).freeDone fn 3
  | some pool => t.modPool pool fun q => { q with reqs := q.reqs ++ [{ port := fn, isFree := true, owner := fld v.toNat 16 10, addr := a }] }

def execBpmFree (fn : Nat) (v : Word) (s : State) : Res := .next (onlyIf (s.fnLive fn) (freeOp fn v) s)

/-! ### Arbitration (R352) -/

/-- The first request in rotation from port `r` on, of 64 functions and 256 channels. -/
def inRotation (r : Nat) (reqs : List PoolReq) : Option PoolReq :=
  leastBy (fun x => ((x.port + 320 - r) % 320 : Nat)) reqs

/-- The check that a free fails first, if any (R354). -/
def Pool.freeCode (p : Pool) (r : PoolReq) : Nat :=
  let i := (r.addr - p.base) / 2 ^ p.bufLog
  if p.loose.contains i then 0
  else if (r.addr - p.base) % 2 ^ p.bufLog != 0 then 4
  else if tblGet 0 p.owners i == 0 then 1
  else if tblGet 0 p.owners i != r.owner + 1 then 2
  else 0

/-- A free that passes: ALLOCATED clears, and the index is placed in the cache unless its buffer has left the pool. -/
def State.takeFree (s : State) (pool : Nat) (p : Pool) (r : PoolReq) : State :=
  let i := (r.addr - p.base) / 2 ^ p.bufLog
  let t := if p.loose.contains i then s else s.setOwner pool i 0
  let u := if 64 ≤ p.cache.length then (t.modPool pool Pool.spill).writeRing pool 16 else t
  u.modPool pool fun q => if q.barred.contains i then q else { q with cache := i :: q.cache }

/-- A free is served (R354). -/
def State.serveFree (s : State) (pool : Nat) (p : Pool) (r : PoolReq) : State :=
  let code := p.freeCode r
  let t := s.modPool pool fun q => { q with reqs := q.reqs.erase r }
  let u := if code == 0 then t.takeFree pool p r else t.poolEvent r.port code pool
  u.freeDone r.port code

/-- An allocation of buffer `i` for a channel's waiting descriptor, or for a register path (R352). -/
def State.giveBuffer (s : State) (r : PoolReq) (a : Nat) : State :=
  if r.port < 64 then s.allocDone r.port a 1
  else
    (s.modChan (r.port - 64) fun c =>
      let slot := ((c.inprog.find? fun d => d.started && d.alloc).map Desc.slot).getD 0
      { c with asking := false, backoff := 8, waited := 0, askAt := 0,
               inprog := c.inprog.map fun d => if d.slot == slot then { d with alloc := false, dst := a } else d }).askPool (r.port - 64)

/-- EMPTY: told to the driver at once; a channel backs off, 8 fabric cycles doubling to 1,024 (R352). -/
def State.sayEmpty (s : State) (r : PoolReq) : State :=
  let t := s.modBpm fun b => { b with empty := sat32 b.empty 1 }
  if r.port < 64 then t.allocDone r.port 0 3
  else t.modChan (r.port - 64) fun c =>
    { c with asking := false, waited := if c.waited == 0 then s.time + 1 else c.waited, askAt := s.time + c.backoff / 2 + 1,
             backoff := min 1024 (2 * c.backoff) }

/-- An allocation is served: the index most recently placed in the cache (R352, R353). -/
def State.serveAlloc (s : State) (pool : Nat) (p : Pool) (r : PoolReq) : State :=
  let q := { p.ready (p.ring.length + 1) with reqs := p.reqs.erase r, rotate := (r.port + 1) % 320 }
  match q.cache with
  | [] => (s.setPool pool (some q)).sayEmpty r
  | i :: rest => ((s.setPool pool (some { q with cache := rest })).setOwner pool i (r.owner + 1)).giveBuffer r (p.bufAddr i)

/-- One fabric cycle of a pool's arbitration point: a free before any allocation (R352, Table 15-7). -/
def arbitrateOp (pool : Nat) (s : State) : State :=
  match s.pool? pool with
  | none => s
  | some p =>
    match inRotation p.rotate (p.reqs.filter fun r => r.isFree) with
    | some r => s.serveFree pool p r
    | none =>
      match inRotation p.rotate p.reqs with
      | some r => s.serveAlloc pool p r
      | none => s

def execPoolArbitration (pool : Nat) (s : State) : Res := .next (onlyIf (s.live && decide (pool < 256)) (arbitrateOp pool) s)

/-- A channel's backoff ends and it asks again (R352). -/
def allocBackoffOp (g : Nat) (s : State) : State :=
  let c := s.chan g
  if c.askAt == 0 then s
  else ((s.reach (c.askAt - 1)).modChan g fun c => { c with askAt := 0 }).askPool g

def execAllocBackoff (g : Nat) (s : State) : Res := .next (onlyIf s.live (allocBackoffOp g) s)

/-- The wait for a buffer has lasted DMV_CH_ALLOCW µs: the descriptor fails with RESOURCE (R352, Table 15-6). -/
def allocWaitOp (g : Nat) (s : State) : State :=
  let c := s.chan g
  if c.waited == 0 then s
  else
    match c.inprog.find? fun d => d.started && d.alloc with
    | none => s
    | some x =>
      (((s.reach (c.waited - 1 + c.allocw * 1000)).unask g).modChan g fun c =>
        { c with asking := false, askAt := 0, waited := 0, backoff := 8,
                 inprog := c.inprog.map fun d => if d.slot == x.slot then { d with alloc := false, failed := true, status := 0x41, cause := 0x60 } else d }).askPool g

def execAllocWaitExpiry (g : Nat) (s : State) : Res := .next (onlyIf s.live (allocWaitOp g) s)

/-- A pool is destroyed: its space returns to the region, and what was asked of it is rejected: no pool of
the function applies to a free any more (R351, R354, Table 15-7). -/
def State.dropPool (s : State) (pool : Nat) : State :=
  match s.pool? pool with
  | none => s
  | some p =>
    let t := s.setPool pool none
    forEach p.reqs (fun r u =>
      if r.port < 64 then (if r.isFree then (u.poolEvent r.port 3 256).freeDone r.port 3 else u.allocDone r.port 0 5)
      else (u.modChan (r.port - 64) fun c => { c with asking := false }).askPool (r.port - 64)) t

end Sys2Proof.Machine
end

