-- ==== Sys2Proof/Machine/Admin.lean ====
section
/-! DEFINITION. The admin queues and their commands (14_admin_commands.md; 13_work_queues.md R295, R312, R314 to R318). -/
namespace Sys2Proof.Machine

/-! ### Malformed entries (R324, R325) -/

/-- Opcodes of a queue class: Table 14-10 for the configuration queue, Table 14-3 for an admin queue. -/
def admOps (cfg : Bool) : List Nat :=
  if cfg then [0x80, 0x81, 0x82, 0x83]
  else [0x01, 0x02, 0x03, 0x04, 0x05, 0x06, 0x10, 0x11, 0x12, 0x13, 0x14, 0x20, 0x21, 0x28, 0x29, 0x2A, 0x30, 0x31, 0x38]

/-- The fields of a command's body: byte offset, lowest bit, width (Tables 14-4, 14-5, 14-7, 14-8, 14-10; R331, R333). -/
def admFields (op : Nat) : List (Nat × Nat × Nat) :=
  match op with
  | 0x01 => [(8, 0, 26), (12, 0, 5), (12, 8, 5), (12, 16, 11), (16, 0, 9), (16, 16, 10), (20, 0, 24), (24, 0, 192)]
  | 0x02 => [(8, 0, 16)]
  | 0x03 => [(8, 0, 16)]
  | 0x04 => [(8, 0, 16)]
  | 0x05 => [(8, 0, 16)]
  | 0x06 => [(8, 0, 16), (16, 0, 9), (16, 16, 10)]
  | 0x10 => [(12, 0, 7), (12, 8, 18), (16, 0, 19), (20, 0, 32), (24, 0, 64), (32, 0, 8)]
  | 0x11 => [(8, 0, 20)]
  | 0x12 => [(8, 0, 20), (12, 0, 7), (12, 8, 18), (16, 0, 19), (20, 0, 32), (24, 0, 64), (32, 0, 8)]
  | 0x13 => [(8, 0, 20)]
  | 0x14 => [(8, 0, 20)]
  | 0x20 => [(8, 0, 13), (12, 0, 25)]
  | 0x21 => [(8, 0, 8)]
  | 0x28 => [(8, 0, 10), (12, 0, 16), (16, 0, 18), (20, 0, 20)]
  | 0x29 => [(8, 0, 10)]
  | 0x2A => [(8, 0, 3), (8, 8, 19), (12, 0, 16), (16, 0, 192), (40, 0, 8)]
  | 0x30 => [(8, 0, 5), (12, 0, 16), (16, 0, 128)]
  | 0x38 => [(8, 0, 6)]
  | 0x80 => [(8, 0, 32), (12, 0, 8), (16, 0, 64)]
  | 0x81 => [(8, 0, 4), (8, 8, 2)]
  | 0x82 => [(8, 0, 4), (8, 8, 2)]
  | _ => []

/-- Offsets of the address-space bytes of a command. -/
def admSpaces (op : Nat) : List Nat :=
  match op with
  | 0x01 => [20, 21, 22]
  | 0x10 => [32]
  | 0x12 => [32]
  | 0x2A => [40]
  | 0x30 => [12, 13]
  | 0x80 => [12]
  | _ => []

/-- The malformed cause of an entry, 0 where it is well formed: opcode, reserved bits, address spaces (R325; log entry 11). -/
def admCause (cfg : Bool) (e : Entry) : Nat :=
  if !(admOps cfg).contains (eOp e) then 0x01
  else if onlyFields ([(0, 0, 8), (4, 0, 32)] ++ admFields (eOp e)) e.toNat != e.toNat then 0x02
  else if (admSpaces (eOp e)).any fun b => decide (1 < e8 e b) then 0x03
  else 0

/-- A malformed entry or an invalid doorbell: it stops a function's admin path (R314), or halts the device (R315). -/
def State.admStop (s : State) (cfg : Bool) (fn cause index : Nat) : State :=
  if cfg then (s.report 0x21 0xAC (some 0) none cause 0 0).enterSafe 2
  else
    let t := s.modAdmQ fn fun a => { a with stopped := true, errCause := cause, errIndex := index }
    let u := (t.modQe fun k => { k with malformed := sat32 k.malformed 1 }).report 0x21 0xA2 (some fn) none cause 0 0
    (u.putAdmStatus false fn).event fn 0x05 none cause 0 0 0 0

/-! ### Registers of the queues (Table 13-15, R298, R511) -/

/-- The queue as a write of its CTRL register leaves it: writes are ignored while it is stopped; a write that enables it stores SPACE
and DEPTH_LOG2 first and starts it with its indices at 0 (R511). -/
def AdmQ.write (v : Nat) (a : AdmQ) : AdmQ :=
  let b := if a.enable then a else { a with space := BitVec.ofNat 8 (fld v 8 8), depthLog := clampNat 4 12 (fld v 0 5) }
  if a.stopped then b
  else if bitAt v 31 then (if a.enable then b else { b with enable := true, prod := 0, head := 0, seq := 0 })
  else { b with enable := false }

def execAdmqEnable (fn : Nat) (v : Word) (s : State) : Res :=
  .next (onlyIf (s.fnLive fn && v.getLsbD 31) (fun t => t.modAdmQ fn (AdmQ.write v.toNat)) s)
def execAdmqDisable (fn : Nat) (v : Word) (s : State) : Res :=
  .next (onlyIf (s.fnLive fn && !v.getLsbD 31) (fun t => t.modAdmQ fn (AdmQ.write v.toNat)) s)
def execCfgqEnable (fn : Nat) (v : Word) (s : State) : Res :=
  .next (onlyIf (s.fnLive fn && fn == 0 && v.getLsbD 31) (fun t => t.modCfgQ (AdmQ.write v.toNat)) s)

/-- R298's test of a doorbell write, for an admin queue. -/
def AdmQ.bellValid (a : AdmQ) (new : Nat) : Bool :=
  let m := 2 * a.depth
  decide (new < m) && decide ((new + m - a.head) % m ≤ a.depth) && decide ((a.prod + m - a.head) % m ≤ (new + m - a.head) % m)

/-- A doorbell write: PROD moves, the write is dropped where the queue does not run, or it is invalid (R298, R314, R315). -/
def admBellOp (cfg : Bool) (fn : Nat) (v : Word) (s : State) : State :=
  let a := s.adm cfg fn
  let new := fld v.toNat 0 17
  if !a.enable || a.stopped then s.modQe fun k => { k with dropped := sat32 k.dropped 1 }
  else if a.bellValid new then s.modAdm cfg fn fun a => { a with prod := new }
  else s.admStop cfg fn 0x09 new

def execAdmqDb (fn : Nat) (v : Word) (s : State) : Res := .next (onlyIf (s.fnLive fn) (admBellOp false fn v) s)
def execCfgqDb (fn : Nat) (v : Word) (s : State) : Res := .next (onlyIf (s.fnLive fn && fn == 0) (admBellOp true fn v) s)

/-! ### Running a command (R325, R326, R514) -/

/-- How a command ends: with a state that it leaves, or none where it changes nothing, and CODE, CAUSE and RET, or none where its
result follows later. -/
abbrev AdmEnd := Option State × Option (Nat × Nat × Nat)

/-- A command of the function waits for a session's last unit (Table 14-3). -/
def State.destroying (s : State) (fn : Nat) : Bool :=
  (tblKeys s.sessions).any fun n => (s.sess n).destroyer.any fun d => d.1 == fn

/-- The queue may execute its next command: it runs, it is not empty, no earlier command of it executes, and no restructure holds it
(R326, R334). -/
def State.admReady (s : State) (cfg : Bool) (fn : Nat) : Bool :=
  let a := s.adm cfg fn
  s.fnLive fn && !(s.func fn).d3 && a.enable && !a.stopped && a.prod != a.head && s.boot.restruct.isNone && (cfg || !s.destroying fn)

/-- The entry at HEAD: the operand, or for a ring in device memory the bytes there; none where they cannot be read. -/
def State.admEntry (s : State) (cfg : Bool) (fn : Nat) (e : Entry) : Option Entry :=
  let a := s.adm cfg fn
  let slot := a.base.toNat + a.head % a.depth * 64
  if a.space == 1 then (if s.readable fn slot 64 then some (BitVec.ofNat 512 (leNat (s.memRead slot 64))) else none) else some e

/-- The next command of a queue runs where it is the command `op`; a malformed one stops the queue, and an entry that cannot be read
fails (R325, Table 14-2). -/
def State.runAdm (s : State) (cfg : Bool) (fn op : Nat) (e : Entry) (f : Entry → AdmEnd) : State :=
  let a := s.adm cfg fn
  if decide (1 < a.space.toNat) then s.admStop cfg fn 0x03 a.head
  else
    match s.admEntry cfg fn e with
    | none => s.finishAdm cfg fn 0 0 0xF0 0x30 0
    | some x =>
      let tag := BitVec.ofNat 32 (e32 x 4)
      if admCause cfg x != 0 then s.admStop cfg fn (admCause cfg x) a.head
      else if eOp x != op then s
      else
        match f x with
        | (t, some (code, cause, ret)) => (t.getD s).finishAdm cfg fn tag op code cause ret
        | (t, none) => t.getD s

/-- An admin command: its effect where the function's queue may execute it. -/
def admCmd (fn op : Nat) (e : Entry) (f : State → Entry → AdmEnd) (s : State) : Res :=
  .next (onlyIf (s.admReady false fn) (fun t => t.runAdm false fn op e (f t)) s)

/-! ### Failures (Table 14-2) -/

def failInvalid (off : Nat) : AdmEnd := (none, some (0x40, 0x50, put 12 0 off))
def failBlock (off : Nat) : AdmEnd := failInvalid (off + 65536)
def failState (code : Nat) : AdmEnd := (none, some (0x40, 0x51, put 12 0 code))
def failObject : AdmEnd := (none, some (0x40, 0x52, 0))
def failPrivilege : AdmEnd := (none, some (0x40, 0x53, 0))
def failTime (now : Nat) : AdmEnd := (none, some (0x40, 0x54, put 16 0 (now % 2 ^ 64)))
def failImage (reason : Nat) : AdmEnd := (none, some (0x40, 0x58, put 12 0 reason))
def failRow (row : Nat) : AdmEnd := (none, some (0x40, 0x59, put 12 0 row))
def failQuota : AdmEnd := (none, some (0x41, 0x55, 0))
def failMemory (n : Nat) : AdmEnd := (none, some (0x41, 0x56, put 16 0 n))
def failRead : AdmEnd := (none, some (0xF0, 0x30, 0))
/-- The command is done, with its return area. -/
def admDone (t : State) (ret : Nat) : AdmEnd := (some t, some (0, 0, ret))

/-- The bytes of a block a command reads; none where it cannot be read. -/
def State.blockBytes (s : State) (fn space a n : Nat) (b : Block) : Option (List Byte) :=
  if n == 0 then some []
  else if space == 1 then (if s.readable fn a n then some (s.memRead a n) else none)
  else if b.ok then some ((b.bytes ++ List.replicate n 0).take n) else none

/-- The first number from `c` on, around `n`, that is not held. -/
def nextFree (held : List Nat) (n : Nat) : Nat → Nat → Option Nat
  | 0, _ => none
  | fuel + 1, c => if held.contains c then nextFree held n fuel ((c + 1) % n) else some c

/-- A number below `n` that is not held, of the device's own choosing (log entry 5). -/
def State.pickFree (s : State) (held : List Nat) (n : Nat) : Option Nat :=
  if n == 0 then none else nextFree held n (held.length + 1) ((freeNow s 32).toNat % n)

/-- The function owns the class, and it is a leaf (R274). -/
def State.ownLeaf (s : State) (fn c : Nat) : Bool := s.isLeaf c && (s.clsRec c).any fun r => r.owner == fn

/-! ### Queues (R316 to R318, R327) -/

/-- The queue that a function's local index maps. -/
def State.localQueue (s : State) (fn l : Nat) : Option Nat := (s.queuesOf fn).find? fun q => (s.queue q).local_ == l

/-- The new queue of a CREATE_QUEUE entry (Table 14-4). -/
def newQueue (fn : Nat) (e : Entry) : WorkQ :=
  { WorkQ.init with
    state := .disabled, fn := fn, local_ := efld e 8 0 16, cls := efld e 8 16 10, vector := efld e 12 16 11,
    depth := 2 ^ efld e 12 0 5, rdepth := 2 ^ efld e 12 8 5, resvFree := 2 ^ efld e 12 8 5,
    modCount := efld e 16 0 9, modTimer := efld e 16 16 10, wqSpace := e8 e 20, resSpace := e8 e 21, sbSpace := e8 e 22,
    wqAddr := e64 e 24, resAddr := e64 e 32, sbAddr := e64 e 40 }

/-- A ring's base is a multiple of 4,096, and the ring does not pass 2^64 (R295, R327). -/
def ringFits (base bytes : Nat) : Bool := base % 4096 == 0 && decide (base + bytes ≤ 2 ^ 64)

/-- Moderation values lie in their ranges (Table 14-4). -/
def modHolds (e : Entry) : Bool :=
  efld e 16 0 9 != 0 && decide (efld e 16 0 9 ≤ 256) && efld e 16 16 10 != 0 && decide (efld e 16 16 10 ≤ 1000)

/-- The checks of a CREATE_QUEUE body, in the order of their offsets (R327). -/
def State.queueChecks (s : State) (fn : Nat) (e : Entry) : List Check :=
  let w := newQueue fn e
  [(8, decide (w.local_ ≤ 2047) && (s.localQueue fn w.local_).isNone),
   (12, decide (4 ≤ efld e 12 0 5) && decide (efld e 12 0 5 ≤ 16) && decide (4 ≤ efld e 12 8 5) && decide (efld e 12 8 5 ≤ efld e 12 0 5)
      && decide (w.vector < (s.fnRec fn).vectors)),
   (16, modHolds e), (24, ringFits w.wqAddr (64 * w.depth)), (32, ringFits w.resAddr (128 * w.rdepth)),
   (40, w.sbAddr % 64 == 0)]

def createQueueCmd (fn : Nat) (s : State) (e : Entry) : AdmEnd :=
  match firstBad (s.queueChecks fn e) with
  | some o => failInvalid o
  | none =>
    if !s.ownLeaf fn (efld e 8 16 10) then failObject
    else if (s.fnRec fn).queues ≤ (s.queuesOf fn).length then failQuota
    else
      match s.pickFree (tblKeys s.queues) 65536 with
      | none => failQuota
      | some q => admDone ((s.modQueue q fun _ => newQueue fn e).tookFree.putStatus q) (put 12 0 q)

def execCreateQueue (fn : Nat) (e : Entry) (s : State) : Res := admCmd fn 0x01 e (createQueueCmd fn) s

/-- A command on the function's queue LOCAL, accepted in some states (Table 14-3). -/
def onQueue (fn : Nat) (ok : QState → Bool) (f : Nat → AdmEnd) (s : State) (e : Entry) : AdmEnd :=
  match s.localQueue fn (efld e 8 0 16) with
  | none => failObject
  | some q => if ok (s.queue q).state then f q else failState (qCode (s.queue q).state)

def destroyQueueCmd (fn : Nat) (s : State) (e : Entry) : AdmEnd :=
  onQueue fn (· == .disabled) (fun q => admDone (s.modQueue q fun _ => WorkQ.init) 0) s e

def execDestroyQueue (fn : Nat) (e : Entry) (s : State) : Res := admCmd fn 0x02 e (destroyQueueCmd fn) s

/-- FETCH and PROD take HEAD, no chain is open, and SEQ goes on (R317). -/
def WorkQ.enabled (w : WorkQ) : WorkQ :=
  { w with state := .enabled, fetch := w.head, prod := w.head, chainOpen := false, chainLen := 0, chainTimer := none, resvWaiting := false }

def enableQueueCmd (fn : Nat) (s : State) (e : Entry) : AdmEnd :=
  onQueue fn (· == .disabled) (fun q => admDone (s.modQueue q WorkQ.enabled) 0) s e

def execEnableQueue (fn : Nat) (e : Entry) (s : State) : Res := admCmd fn 0x03 e (enableQueueCmd fn) s

/-- No entry of a chain has had a unit hinted or dispatched, or has ended (R316). -/
def WorkQ.untouched (w : WorkQ) (c : Nat) : Bool := w.entries.all fun e => e.chain != c || !(e.started || e.stage == .done)

/-- The final run of untouched chains (R316). -/
def WorkQ.finalRun (w : WorkQ) : List QEntry := (w.entries.reverse.takeWhile fun e => w.untouched e.chain).reverse

/-- What an entry that never ran has left in its session is taken back: the picture it named, its flush (R316). -/
def State.takeBack (s : State) (q : Nat) (e : QEntry) : State :=
  let us := s.entryUnits q e.seq
  let t := s.modDsc fun d => { d with units := d.units.filter fun u => !(u.q == q && u.seq == e.seq) }
  let mine := fun p : SrcPic => p.entryQ == q && p.entrySeq == e.seq
  let v := if e.op == 2 || e.op == 5 then
      t.modSess e.sess fun x => { x with
        src := (x.src.filter fun p => !(mine p && !p.taken)).map fun p => if mine p && !p.coded then { p with failed := 0x40 } else p }
    else if e.op == 7 then t.modSess e.sess fun x => { x with flushes := x.flushes.dropLast }
    else t
  forEach us (fun u w => w.settleState u.session) v

/-- DISABLE_QUEUE: the final run is discarded, its reservations return, and the rest runs to completion (R316). -/
def State.disableQueue (s : State) (q : Nat) : State :=
  let w := s.queue q
  let gone := w.finalRun
  let kept := w.entries.take (w.entries.length - gone.length)
  let at_ := match kept.getLast? with
    | some e => ringNext e.ix w.depth
    | none => w.head
  let t := s.modQueue q fun w => { w with
    state := .stopping, entries := kept, fetch := at_, chainOpen := false, chainLen := 0, chainTimer := none, resvWaiting := false,
    resvFree := w.resvFree + (gone.filter fun e => e.stage != .fetched).length }
  forEach gone (fun e u => u.takeBack q e) t

def disableQueueCmd (fn : Nat) (s : State) (e : Entry) : AdmEnd :=
  onQueue fn (fun x => x == .enabled || x == .error) (fun q =>
    let t := s.disableQueue q
    admDone (t.settleQueue q) (put 12 0 (t.queue q).fetch)) s e

def execDisableQueue (fn : Nat) (e : Entry) (s : State) : Res := admCmd fn 0x04 e (disableQueueCmd fn) s

/-- Indices and SEQ at 0, the error cleared, every reservation free (R318). -/
def WorkQ.cleared (w : WorkQ) : WorkQ :=
  { w with prod := 0, fetch := 0, head := 0, headSeq := 0, errCause := 0, errIndex := 0, resvFree := w.rdepth }

def resetQueueCmd (fn : Nat) (s : State) (e : Entry) : AdmEnd :=
  onQueue fn (· == .disabled) (fun q => admDone ((s.modQueue q WorkQ.cleared).putStatus q) 0) s e

def execResetQueue (fn : Nat) (e : Entry) (s : State) : Res := admCmd fn 0x05 e (resetQueueCmd fn) s

def setQueueModCmd (fn : Nat) (s : State) (e : Entry) : AdmEnd :=
  if !modHolds e then failInvalid 16
  else onQueue fn (fun _ => true) (fun q =>
    admDone (s.modQueue q fun w => { w with nextMod := some (efld e 16 0 9, efld e 16 16 10) }) 0) s e

def execSetQueueMod (fn : Nat) (e : Entry) (s : State) : Res := admCmd fn 0x06 e (setQueueModCmd fn) s

/-! ### Sessions (R328, R329, R333) -/

/-- The parameters that an entry and its block give; none where the block cannot be read. -/
def State.entryParams (s : State) (fn : Nat) (e : Entry) (b : Block) : Option Params :=
  if e64 e 24 == 0 then some (hdrParams e (defaultBlock (efld e 12 0 4) (efld e 12 8 4)))
  else (s.blockBytes fn (e8 e 32) (e64 e 24) 960 b).map fun bs => hdrParams e (leNat bs)

/-- An offset in the block, marked as such where a block was read (Table 14-2). -/
def blockOff (e : Entry) (o : Nat) : Nat := if e64 e 24 == 0 then o else o + 65536

/-- Sessions of a function. -/
def State.sessionsOfFn (s : State) (fn : Nat) : List Nat :=
  (tblKeys s.sessions).filter fun n => (s.sess n).state != .free && (s.sess n).fn == fn

/-- Sessions that the context store holds: 32 KiB each (Table 20-9). -/
def State.sessionLimit (s : State) : Nat := ((s.boot.regions.find? fun r => r.kind == 1).map fun r => r.size / 32768).getD 0

/-- RET of CREATE_SESSION and SET_SESSION_PARAMS (R329). -/
def sessionRet (n : Nat) (p : Params) : Nat :=
  let r := reserveBytes p
  put 12 0 n + put 16 0 (r.getD 0 0) + put 24 0 (r.getD 1 0) + put 32 0 (r.getD 2 0) + put 40 0 (r.getD 3 0)

/-- A session as CREATE_SESSION leaves it (R34, R211). -/
def newSession (fn : Nat) (p : Params) (rs : List Range) : Session :=
  { Session.init.withRanges rs with state := .parked, fn := fn, par := p, rc := ⟨0, initFull p, 262144, 262144, 262144⟩ }

def createSessionCmd (fn : Nat) (b : Block) (s : State) (e : Entry) : AdmEnd :=
  match s.entryParams fn e b with
  | none => failRead
  | some p =>
    match firstBad (headChecks p), blockBad p with
    | some o, _ => failInvalid o
    | none, some o => failInvalid (blockOff e o)
    | none, none =>
      if !s.ownLeaf fn p.cls then failObject
      else if (s.fnRec fn).sessions ≤ (s.sessionsOfFn fn).length then failQuota
      else
        match s.pickFree (tblKeys s.sessions) s.sessionLimit, s.tookFree.reserveAll (reserveBytes p) [] with
        | none, _ => failQuota
        | _, .inl n => failMemory n
        | some n, .inr rs => admDone (((s.modSess n fun _ => newSession fn p rs).tookFree.tookPlaces).openHead n) (sessionRet n p)

def execCreateSession (fn : Nat) (e : Entry) (b : Block) (s : State) : Res := admCmd fn 0x10 e (createSessionCmd fn b) s

/-- The function's session SESSION. -/
def State.ownSession (s : State) (fn : Nat) (e : Entry) : Option Session :=
  let x := s.sess (efld e 8 0 20)
  if x.state != .free && x.fn == fn then some x else none

/-- A command on the function's session SESSION that DRAINING does not accept (Table 14-3). -/
def onSession (fn : Nat) (f : Nat → AdmEnd) (s : State) (e : Entry) : AdmEnd :=
  match s.ownSession fn e with
  | none => failObject
  | some x => if x.state == .draining then failState (sessCode x.state) else f (efld e 8 0 20)

/-- DESTROY_SESSION: the drain begins, and the result follows when the session is FREE (Table 14-3). -/
def destroySessionCmd (fn : Nat) (s : State) (e : Entry) : AdmEnd :=
  onSession fn (fun n =>
    (some ((s.modSess n fun x => { x with destroyer := some (fn, BitVec.ofNat 32 (e32 e 4)) }).drainSession n true), none)) s e

def execDestroySession (fn : Nat) (e : Entry) (s : State) : Res := admCmd fn 0x11 e (destroySessionCmd fn) s

/-- The first refused field of a SET_SESSION_PARAMS command: of the entry, or of the block with its mark (R514). -/
def State.setBad (s : State) (fn : Nat) (e : Entry) (p : Params) : Option Nat :=
  let changes := match s.ownSession fn e with
    | some x => (changeChecks x (x.pendPar.getD x.par) p, blockChange x (x.pendPar.getD x.par) p)
    | none => ([], [])
  let least := fun (a b : Option Nat) => match a, b with
    | some x, some y => some (min x y)
    | some x, none => some x
    | none, y => y
  match least (firstBad (headChecks p)) (firstBad changes.1) with
  | some o => some o
  | none => (least (blockBad p) (firstBad changes.2)).map (blockOff e)

/-- New parameters are stored as pending with the ranges they need; CLASS is for units queued from now on (R40, R329). -/
def State.storeParams (s : State) (n : Nat) (p : Params) (rs : List Range) : State :=
  (s.modSess n fun x => { x with
    par := { x.par with cls := p.cls }, pendPar := some p,
    nextR := if rs == [x.refR, x.srcR, x.stageR, x.mauR] then [] else rs }).tookPlaces

def setParamsCmd (fn : Nat) (b : Block) (s : State) (e : Entry) : AdmEnd :=
  match s.entryParams fn e b with
  | none => failRead
  | some p =>
    match s.setBad fn e p with
    | some o => failInvalid o
    | none =>
      if !s.ownLeaf fn p.cls then failObject
      else onSession fn (fun n =>
        let x := s.sess n
        if s.shrinksHeld n p then failState (sessCode x.state)
        else
          match (s.modSess n fun y => { y with nextR := [] }).reserveAll (reserveBytes p) [x.refR, x.srcR, x.stageR, x.mauR] with
          | .inl k => failMemory k
          | .inr rs => admDone (s.storeParams n p rs) (sessionRet n p)) s e

def execSetSessionParams (fn : Nat) (e : Entry) (b : Block) (s : State) : Res := admCmd fn 0x12 e (setParamsCmd fn b) s

def resetSessionCmd (fn : Nat) (s : State) (e : Entry) : AdmEnd := onSession fn (fun n => admDone (s.resetSession n) 0) s e

def execResetSession (fn : Nat) (e : Entry) (s : State) : Res := admCmd fn 0x13 e (resetSessionCmd fn) s

/-- The session header of Table 2-4, 64 bytes. -/
def State.header (s : State) (n : Nat) : Nat :=
  let x := s.sess n
  let p := x.par
  put 0 0 n + put 0 20 x.fn
    + put 4 0 p.codec + put 4 4 (b2n p.encode) + put 4 5 p.chroma + put 4 8 p.depthY + put 4 12 p.depthC + put 4 16 p.cls + put 4 26 (s.laneOf p.cls)
    + put 8 0 x.unitSeq.toNat
    + put 12 0 p.dpbSlots + put 12 5 p.gangMax + put 12 9 p.lookahead + put 12 16 p.conceal
    + put 16 0 p.maxW + put 16 16 p.maxH + put 24 0 x.pictures.toNat + put 32 0 x.commitTime.toNat + put 40 0 x.refBase

/-- Bank of a half that holds or is loading a session's head (Table 2-14). -/
def BankState.of (n : Nat) (b : BankState) : Bool :=
  match b with
  | .loading m _ => m == n
  | .ready m _ => m == n
  | .active m => m == n
  | .draining m => m == n
  | .empty => false

/-- Core-half banks that hold or are loading a session's head. -/
def State.bankHalves (s : State) (n : Nat) : Nat :=
  ((List.range 128).filter fun h => ((s.half h).bank0.of n) || ((s.half h).bank1.of n)).length

/-- The word of Table 2-14, with VALID 1. -/
def State.sessionWord (s : State) (n : Nat) : Nat :=
  let x := s.sess n
  2 ^ 31 + b2n (s.cached n) * 2 ^ 30 + b2n x.vsel * 2 ^ 29 + min 16 (s.bankHalves n) * 2 ^ 23
    + (if x.state == .free then 0 else x.fn) * 2 ^ 14 + sessCode x.state

/-- RET of QUERY_SESSION (Table 14-9). -/
def State.sessionRet (s : State) (n : Nat) : Nat :=
  let x := s.sess n
  put 12 0 (s.sessionWord n) + put 16 0 (s.header n) + put 80 0 x.outq.length + put 80 8 (x.pics.filter Pict.due).length
    + put 88 0 (total ([x.refR, x.srcR, x.stageR, x.mauR] ++ x.oldR ++ x.nextR |>.map Range.size))

def querySessionCmd (fn : Nat) (s : State) (e : Entry) : AdmEnd :=
  match s.ownSession fn e with
  | none => failObject
  | some _ => admDone s (s.sessionRet (efld e 8 0 20))

def execQuerySession (fn : Nat) (e : Entry) (s : State) : Res := admCmd fn 0x14 e (querySessionCmd fn) s

/-! ### Pools and event rings (R330, R351, Table 14-7) -/

/-- Pools of a function. -/
def State.poolsOf (s : State) (fn : Nat) : List Nat := (tblKeys s.bpm.pools).filter fun p => (s.ownPool fn p).isSome

/-- Ranges that pools hold. -/
def State.poolRanges (s : State) : List Range :=
  (tblKeys s.bpm.pools).filterMap fun p => (s.pool? p).map fun q => ⟨q.base, q.limit - q.base⟩

/-- A pool as CREATE_POOL begins it, at a base. -/
def newPool (fn region bufLog count base : Nat) : Pool :=
  { fn := fn, region := region, base := base, bufLog := bufLog, count := count, cache := [], ring := List.range count, ringPos := 0,
    owners := [], barred := [], loose := [], rotate := 0, reqs := [] }

/-- The lowest address of a region that is free, aligned to the buffer size and holds the pool (R351). -/
def State.poolPlace (s : State) (r : Region) (bufLog size : Nat) : Option Nat :=
  let held := s.poolRanges
  (sortBy (fun a : Nat => (a : Int)) ((r.base :: held.map fun h => h.base + h.size).map fun a => roundUp a (2 ^ bufLog))).find? fun a =>
    decide (r.base ≤ a) && decide (a + size ≤ r.base + r.size) && rangeFree held a size

/-- A pool's free ring and owner table as they start (R351). -/
def State.writePool (s : State) (p : Pool) : State :=
  (s.memWrite p.ringBase (p.ring.flatMap (leBytes 4))).memWrite p.ownerBase (List.replicate (2 * p.count) 0)

def createPoolCmd (fn : Nat) (s : State) (e : Entry) : AdmEnd :=
  let log := efld e 8 8 5
  let count := efld e 12 0 25
  match s.boot.regions.find? fun r => r.kind == 5 && r.id == e8 e 8 && r.grant.getLsbD fn with
  | none => failInvalid 8
  | some r =>
    if log < 12 || 30 < log then failInvalid 8
    else if count == 0 || decide (16777216 < count) then failInvalid 12
    else if (s.fnRec fn).pools ≤ (s.poolsOf fn).length then failQuota
    else
      let size := (newPool fn r.id log count 0).limit
      match s.pickFree (tblKeys s.bpm.pools) 256, s.poolPlace r log size with
      | none, _ => failQuota
      | _, none => failMemory size
      | some n, some a =>
        let p := newPool fn r.id log count a
        admDone ((s.setPool n (some p)).tookFree.writePool p) (put 12 0 n + put 16 0 a)

def execCreatePool (fn : Nat) (e : Entry) (s : State) : Res := admCmd fn 0x20 e (createPoolCmd fn) s

def destroyPoolCmd (fn : Nat) (s : State) (e : Entry) : AdmEnd :=
  match s.ownPool fn (e8 e 8) with
  | none => failObject
  | some p => if p.owners.isEmpty then admDone (s.dropPool (e8 e 8)) 0 else failState 0

def execDestroyPool (fn : Nat) (e : Entry) (s : State) : Res := admCmd fn 0x21 e (destroyPoolCmd fn) s

/-- The event ring of a CREATE_EVENT_RING entry; EVQ_PEND and EVQ_LOST stand (R320). -/
def newRing (e : Entry) (r : EvRing) : EvRing :=
  { r with isThere := true, depth := 2 ^ efld e 8 0 5, ringSpace := e8 e 12, wordSpace := e8 e 13, ringAddr := e64 e 16, wordAddr := e64 e 24,
           prod := 0, cons := 0, overflow := false }

/-- The checks of a CREATE_EVENT_RING body (Table 14-7, R295). -/
def ringChecks (e : Entry) : List Check :=
  [(8, decide (4 ≤ efld e 8 0 5) && decide (efld e 8 0 5 ≤ 16)), (16, ringFits (e64 e 16) (32 * 2 ^ efld e 8 0 5)), (24, e64 e 24 % 4 == 0)]

def createEventRingCmd (fn : Nat) (s : State) (e : Entry) : AdmEnd :=
  match firstBad (ringChecks e) with
  | some o => failInvalid o
  | none => if (s.ring fn).isThere then failState 1 else admDone (s.modRing fn (newRing e)) 0

def execCreateEventRing (fn : Nat) (e : Entry) (s : State) : Res := admCmd fn 0x30 e (createEventRingCmd fn) s

/-- EXISTS falls, and what was not written is discarded (Table 14-3). -/
def destroyEventRingCmd (fn : Nat) (s : State) (_ : Entry) : AdmEnd :=
  if (s.ring fn).isThere then admDone (s.modRing fn fun r => { r with isThere := false, pend := 0, overflow := false }) 0 else failObject

def execDestroyEventRing (fn : Nat) (e : Entry) (s : State) : Res := admCmd fn 0x31 e (destroyEventRingCmd fn) s

/-! ### Classes and gate lists (R331, R332, Tables 12-1 and 12-4) -/

/-- The checks of a SET_CLASS body against a class's maxima (R331). -/
def classBounds (r : ClassRec) (e : Entry) : List Check :=
  [(12, e16 e 12 != 0 && decide (e16 e 12 ≤ r.maxWeight)), (16, decide (efld e 16 0 18 ≤ r.maxRate)),
   (20, efld e 20 0 20 != 0 && decide (efld e 20 0 20 ≤ 1000000))]

/-- New class parameters; a bucket above its new depth is clamped at once, and that of a class which had none starts full (R275, R282,
R292). -/
def setClassOf (e : Entry) (k : Cls) : Cls :=
  let full : Int := ((efld e 20 0 20 * 1000 : Nat) : Int)
  { k with weight := e16 e 12, rate := efld e 16 0 18, burst := efld e 20 0 20, bucket := if k.rate == 0 then full else min k.bucket full }

def setClassCmd (fn : Nat) (s : State) (e : Entry) : AdmEnd :=
  match s.clsRec (efld e 8 0 10) with
  | none => failInvalid 8
  | some r =>
    match firstBad (classBounds r e) with
    | some o => failInvalid o
    | none => if r.owner == fn then admDone (s.modCls r.cls (setClassOf e)) 0 else failObject

def execSetClass (fn : Nat) (e : Entry) (s : State) : Res := admCmd fn 0x28 e (setClassCmd fn) s

/-- The word of Table 12-11, with VALID 1. -/
def State.classWord (s : State) (c : Nat) : Nat :=
  let k := s.cls c
  let leaf := s.isLeaf c
  2 ^ 31 + match s.clsRec c with
    | none => 0
    | some r => 2 ^ 30 + b2n (s.backlogged c) * 2 ^ 29 + b2n (decide (k.bucket < 0)) * 2 ^ 28
        + b2n (!leaf || ((s.lane r.lane).listAt s.time).openAt s.time) * 2 ^ 27 + (if leaf then r.lane else 0) * 2 ^ 24
        + r.owner * 2 ^ 16 + k.weight

/-- RET of QUERY_CLASS (Table 14-9). -/
def State.classRet (s : State) (c : Nat) : Nat :=
  let k := s.cls c
  put 12 0 (s.classWord c) + put 16 0 (k.fTag % 2 ^ 64) + put 24 0 (if k.rate == 0 then 0 else twosOf 64 k.bucket)
    + put 32 0 k.rate + put 36 0 k.burst

def queryClassCmd (fn : Nat) (s : State) (e : Entry) : AdmEnd :=
  match s.clsRec (efld e 8 0 10) with
  | none => failInvalid 8
  | some r => if r.owner == fn then admDone s (s.classRet r.cls) else failObject

def execQueryClass (fn : Nat) (e : Entry) (s : State) : Res := admCmd fn 0x29 e (queryClassCmd fn) s

/-- The gate list of a SET_GATE_LIST entry and its block. -/
def entryGates (e : Entry) (bs : List Byte) : GateList :=
  { base := e64 e 16, guardF := efld e 8 16 11, lead := e16 e 12, preempt := efld e 8 15 1 == 1, list := gatesAt bs 0 (efld e 8 8 7) }

/-- The checks of a SET_GATE_LIST body; a pending list within 100 µs of its switchover stands (R292, R332). -/
def State.gateBody (s : State) (e : Entry) : List Check :=
  let l := efld e 8 0 3
  let claims := decide (l < 2)
  let near := match (s.lane l).next with
    | some (_, t) => claims && decide (t < s.time + 100000)
    | none => false
  [(8, decide (256 ≤ efld e 8 16 11) && decide (efld e 8 16 11 ≤ 1024) && decide (efld e 8 8 7 ≤ 64) && (claims || efld e 8 15 1 == 0)),
   (12, if claims then decide (10 ≤ e16 e 12) else e16 e 12 == 0), (24, (claims || e64 e 24 == 0) && !near)]

/-- The end of the current cycle of a list, at or after `t`. -/
def GateList.cycleEnd (g : GateList) (t : Nat) : Nat :=
  if t < g.base then g.base else g.base + ((t - g.base) / max 1 g.cycle + 1) * max 1 g.cycle

/-- A new list: pending until SWITCH_TIME, or for lanes 2 to 7 until the cycle ends, or at once where the old list is empty (R287). -/
def State.setGates (s : State) (l : Nat) (g : GateList) (at_ : Nat) : State :=
  if l < 2 then s.modLane l fun k => { k with next := some (g, at_) }
  else if (s.lane l).cur.list.isEmpty then
    let now := g.openAt s.time
    s.modLane l fun k => { k with cur := g, next := none, wasOpen := now }
  else
    let t := (s.lane l).cur.cycleEnd s.time
    s.modLane l fun k => { k with next := some (g, t) }

def setGateListCmd (fn : Nat) (b : Block) (s : State) (e : Entry) : AdmEnd :=
  let l := efld e 8 0 3
  let n := min 64 (efld e 8 8 7)
  match s.blockBytes fn (e8 e 40) (e64 e 32) (8 * n) b with
  | none => failRead
  | some bs =>
    if fn != 0 then failPrivilege
    else
      match firstBad (s.gateBody e), firstBad ((entryOffs 0 n 8).flatMap fun o => gateChecks bs o l) with
      | some o, _ => failInvalid o
      | none, some o => failBlock o
      | none, none =>
        if decide (l < 2) && decide (e64 e 24 < s.time + 100000) then failTime s.time
        else admDone (s.setGates l (entryGates e bs) (e64 e 24)) 0

def execSetGateList (fn : Nat) (e : Entry) (b : Block) (s : State) : Res := admCmd fn 0x2A e (setGateListCmd fn b) s

/-! ### QUERY_FUNCTION (R333, Table 14-9) -/

/-- Quota and use of a function's objects; how vectors and classes are counted as used the spec leaves open (log entry 5). -/
def State.functionRet (s : State) (f : Nat) : Nat :=
  let r := s.fnRec f
  let chans := (List.range r.channels).filter fun l => (s.chan (s.chanOf f l)).state != .disabled
  let pair := fun (i quota used : Nat) => put (16 + 8 * i) 0 quota + put (20 + 8 * i) 0 used
  pair 0 r.queues (s.queuesOf f).length + pair 1 r.sessions (s.sessionsOfFn f).length + pair 2 r.pools (s.poolsOf f).length
    + pair 3 r.channels chans.length + pair 4 r.vectors (freeNow s 32).toNat + pair 5 r.classes (freeNow s.tookFree 32).toNat

def queryFunctionCmd (fn : Nat) (s : State) (e : Entry) : AdmEnd :=
  let f := efld e 8 0 6
  if fn != 0 && f != fn then failPrivilege
  else if s.fnCount ≤ f then failInvalid 8
  else admDone s.tookFree.tookFree (s.functionRet f)

def execQueryFunction (fn : Nat) (e : Entry) (s : State) : Res := admCmd fn 0x38 e (queryFunctionCmd fn) s

end Sys2Proof.Machine
end

