-- ==== Sys2Proof/Machine/Invar.lean ====
section
/-! DEFINITION. Invar's arithmetic: complexities, windows, targets, caps, quantisers and the shares of segments
(08_rate_control.md). Fractions are fixed point with 16 fractional bits, each quotient rounded toward zero (R202). -/
namespace Sys2Proof.Machine

/-! ### Quantiser steps (R205) -/

/-- 2^(r ÷ 6) with 64 fractional bits, for r from 0 to 5. -/
def sixthRoot (r : Nat) : Nat :=
  [18446744073709551616, 20705770137614810475, 23241441160490167842, 26087635650665564424, 29282380947994691627,
   32868361298261480554].getD r 0

/-- 2^(n ÷ 6) with 16 fractional bits. -/
def pow2Sixth (n : Int) : Nat := sixthRoot (n % 6).toNat * 2 ^ (n / 6 + 40).toNat / 2 ^ 88

/-- qstep(q) with 16 fractional bits (R205). -/
def qstep (p : Params) (q : Int) : Nat :=
  if p.isVp then Config.acQ p.codec p.depthY q.toNat * 65536 / (if p.depthY == 8 then 4 else if p.depthY == 10 then 16 else 64)
  else pow2Sixth (q - 4)

/-- A quantiser within [QP_MIN, QP_MAX] (R200). -/
def clampQp (p : Params) (q : Int) : Int := clampInt p.qpMin p.qpMax q

/-! ### Complexity (R189, R202) -/

/-- Width, height and crop offset of the source a session's field is mapped from: its own for intake, the released picture's for a
rendition. -/
structure FieldMap where
  session : Nat
  ws : Nat
  hs : Nat
  cx : Nat
  cy : Nat
  wr : Nat
  hr : Nat
  deriving DecidableEq, Repr

/-- How picture `p` of session `n` maps to the MAU field (R189); the crop offset is the rendition descriptor's. -/
def State.fieldMap (s : State) (n : Nat) (p : SrcPic) : FieldMap :=
  let m := p.at_ n
  match s.ana? m.1 m.2 with
  | some a =>
    let d := (s.sess n).par.outDesc
    if p.feed.isSome then
      ⟨m.1, (if odCropW d a.width == 0 then a.width else odCropW d a.width), (if odCropH d a.height == 0 then a.height else odCropH d a.height),
        odCropX d, odCropY d, p.width, p.height⟩
    else ⟨m.1, p.width, p.height, 0, 0, p.width, p.height⟩
  | none => ⟨m.1, p.width, p.height, 0, 0, p.width, p.height⟩

/-- The MAU block of a session's block (R189). With a cropping route Ws × Hs is the crop's size, and the crop offset, in source samples, is added
once the position is mapped (DESIGN CHOICE, log entry 86: R189 says only that the offset shifts the position before mapping). -/
def FieldMap.block (f : FieldMap) (aw ah bx by_ : Nat) : Nat × Nat :=
  (min ((f.cx + (16 * bx + 8) * f.ws / max 1 f.wr) / 16) (ceilDiv aw 16 - 1),
   min ((f.cy + (16 * by_ + 8) * f.hs / max 1 f.hr) / 16) (ceilDiv ah 16 - 1))

/-- MAU cost of a block: INTRA for a key picture, otherwise the smaller of SATD_P and INTRA (R202, R228). -/
def MauBlock.cost (key : Bool) (b : MauBlock) : Nat := if key then b.intra else min b.satdP b.intra

/-- The factor 2^(−o ÷ 6) on a cost with 16 fractional bits, for a ROI offset (R184, R202). -/
def roiScale (o : Int) (c : Nat) : Nat := c * pow2Sixth (0 - clampInt (-51) 51 o) / 65536

/-- c_b of block (bx, by) of a picture, `roi` giving its offset (R202). -/
def State.blockCost (s : State) (n : Nat) (p : SrcPic) (key : Bool) (roi : Nat → Nat → Int) (bx by_ : Nat) : Nat :=
  let m := p.at_ n
  match s.ana? m.1 m.2 with
  | none => 0
  | some a =>
    let f := s.fieldMap n p
    let k := f.block a.width a.height bx by_
    let b := a.field.getD (k.2 * ceilDiv a.width 16 + k.1) { mvp := (0, 0), mvn := (0, 0), satdP := 0, satdN := 0, intra := 0, act := 0 }
    let c := b.cost key * 65536
    roiScale (roi bx by_) (if p.feed.isSome then c * (f.wr * f.hr) / max 1 (f.ws * f.hs) else c)

/-- The cost of a picture's blocks, row by row. -/
def State.blockCosts (s : State) (n : Nat) (p : SrcPic) (key : Bool) (roi : Nat → Nat → Int) : List (List Nat) :=
  (List.range (ceilDiv p.height 16)).map fun y => (List.range (ceilDiv p.width 16)).map fun x => s.blockCost n p key roi x y

/-- The sum of a list. -/
def sumNat (xs : List Nat) : Nat := xs.foldl (· + ·) 0

/-- Complexity of CTU columns from x0 below x1 of CTU row y, for CTUs of `k` blocks a side. -/
def rowCost (costs : List (List Nat)) (k x0 x1 y : Nat) : Nat :=
  sumNat (((costs.drop (y * k)).take k).map fun r => sumNat ((r.drop (x0 * k)).take ((x1 - x0) * k)))

/-- Complexity of every CTU row of a segment. -/
def segRows (costs : List (List Nat)) (k : Nat) (g : SegRect) : List Nat :=
  (List.range (g.2.2.2 - g.2.2.1)).map fun i => rowCost costs k g.1 g.2.1 (g.2.2.1 + i)

/-! ### ROI offsets (R184) -/

/-- Address and space of the ROI map of a picture's entry; address 0 for none. -/
def roiAt (p : Params) (e : QEntry) (n : Nat) : Nat × Nat :=
  if !p.roiEn then (0, 0)
  else if p.srcMode == 1 then (e64 (e.rendDesc n) 32, e8 (e.rendDesc n) 55)
  else (e64 (e.blocks.headD 0) 0, e8 (e.blocks.headD 0) 24)

/-- Address and space of the hint map of a picture's entry; address 0 for none. -/
def hintAt (p : Params) (e : QEntry) (n : Nat) : Nat × Nat :=
  if !p.hintEn then (0, 0)
  else if p.srcMode == 1 then (e64 (e.rendDesc n) 40, e8 (e.rendDesc n) 56)
  else (e64 (e.blocks.headD 0) 8, e8 (e.blocks.headD 0) 25)

/-- The bytes of a map of `size`: from device memory, or from host memory as its reads return them. -/
def State.mapBytesAt (s : State) (size : Nat) (host : List Byte) (a : Nat × Nat) : List Byte :=
  if a.1 == 0 then [] else if a.2 == 1 then s.memRead a.1 size else host.take size

/-- What a picture's reads of its maps in host memory return. -/
def mapsOf (ms : List MapRead) (n ix : Nat) : MapRead := (ms.find? fun m => m.session == n && m.index == ix).getD ⟨n, ix, [], []⟩

/-- The ROI map and the hint map of a picture (R184, R185). -/
def State.maps (s : State) (ms : List MapRead) (n : Nat) (p : SrcPic) : List Byte × List Byte :=
  let v := (s.sess n).par
  match (s.queue p.entryQ).entry? p.entrySeq with
  | some e => (s.mapBytesAt (roiSize v) (mapsOf ms n p.index).roi (roiAt v e n), s.mapBytesAt (hintSize v) (mapsOf ms n p.index).hints (hintAt v e n))
  | none => ([], [])

/-- The offset of a block; 0 without a map. -/
def roiOffset (p : Params) (bs : List Byte) (x y : Nat) : Int :=
  match bs[64 * ceilDiv (ceilDiv p.maxW 16) 64 * y + x]? with
  | some b => clampInt (-51) 51 (signedOf 8 b.toNat)
  | none => 0

/-- The ROI offsets of a picture, from its entry. -/
def State.roiOf (s : State) (ms : List MapRead) (n : Nat) (p : SrcPic) : Nat → Nat → Int := roiOffset (s.sess n).par (s.maps ms n p).1

/-! ### Window and target (R200, R203) -/

/-- Weight of a layer, in 1/256 (R203). -/
def layerWeight (layer : Nat) : Nat := [256, 160, 128, 96, 64].getD layer 64

/-- A picture of a window counts as a key picture: decided so, or undecided with a scene-cut score of SC_THRESH (R203). -/
def State.windowKey (s : State) (n : Nat) (p : SrcPic) : Bool :=
  if p.decided then p.key else decide ((s.sess n).par.scThresh ≤ s.scoreOf n p)

/-- Complexity of a picture. -/
def State.picCost (s : State) (ms : List MapRead) (n : Nat) (p : SrcPic) (key : Bool) : Nat :=
  sumNat ((s.blockCosts n p key (s.roiOf ms n p)).map sumNat)

/-- w_k of a picture of the window. -/
def State.windowWeight (s : State) (ms : List MapRead) (n : Nat) (p : SrcPic) : Nat :=
  let key := s.windowKey n p
  s.picCost ms n p key * (if key || !p.decided then 256 else layerWeight p.layer) / 256

/-- LOOKAHEAD of a session's pictures: of a rendition, its source's (R188). -/
def State.lookaheadOf (s : State) (n : Nat) (p : SrcPic) : Nat := (s.sess (p.at_ n).1).par.lookahead

/-- The window of picture `p`: it, and the pictures after it in coding order that are taken in and analysed and not yet coded, up
to LOOKAHEAD + MINIGOP in all (R203). -/
def State.window (s : State) (n : Nat) (p : SrcPic) : List SrcPic :=
  let x := s.sess n
  let rest := x.src.filter fun k => k.index != p.index && s.analysed n k && !k.coded && !k.hidden_
  let order := sortBy (fun k : SrcPic => match k.codedIx with
    | some c => (c : Int)
    | none => (x.codedNext + k.index : Nat)) rest
  (p :: order).take (max 1 (s.lookaheadOf n p + x.par.minigop))

/-- floor(x × a ÷ b) on integers, toward zero; 0 where b is 0 (R202). -/
def mulDiv (x : Int) (a b : Nat) : Int := if b == 0 then 0 else Int.tdiv (x * (a : Int)) (b : Int)

/-- T of a picture in whole bytes, before the cap (R203, Table 8-2); in CQP the cap stands for it. -/
def State.targetOf (s : State) (ms : List MapRead) (n : Nat) (p : SrcPic) (cap : Nat) : Nat :=
  let x := s.sess n
  let g := gBytes x.par
  if x.par.rcMode == 0 then cap
  else if x.par.rcMode == 4 then g / 65536
  else
    let w := s.window n p
    let q : Int := max ((w.length * g : Nat) + Int.tdiv x.rc.e 4) ((w.length * g / 4 : Nat) : Int)
    let sum := sumNat (w.map (s.windowWeight ms n))
    let t := if sum == 0 then Int.tdiv q (w.length : Int) else mulDiv q (s.windowWeight ms n p) sum
    (Int.tdiv t 65536).toNat

/-! ### Cap (R204) -/

/-- The smallest of some limits; `none` entries do not bind. -/
def leastOf (d : Nat) (xs : List (Option Nat)) : Nat := xs.foldl (fun a x => match x with
  | some v => min a v
  | none => a) d

/-- The cap of a picture in bytes. -/
def State.capOf (s : State) (n : Nat) (p : SrcPic) : Nat :=
  let x := s.sess n
  let v := x.par
  let base := leastOf (stagePic v)
    [if v.rcMode == 1 || v.rcMode == 2 || v.rcMode == 3 then some (x.rc.f.toNat / 524288) else none,
     if v.picCap != 0 then some v.picCap else none,
     some (Config.levelPicBytes v.codec v.level v.encTier)]
  if p.hiddenWith then base - minPic v
  else match x.hiddenHeld with
    | some h => base - h.2
    | none => base

/-! ### Quantiser (R200, R205) -/

/-- K of a picture's class. -/
def RcState.k (r : RcState) (p : SrcPic) : Nat := if p.key then r.kKey else if p.layer == 0 then r.kL0 else r.kHi

/-- K of a picture's class replaced. -/
def RcState.setK (r : RcState) (p : SrcPic) (v : Nat) : RcState :=
  if p.key then { r with kKey := v } else if p.layer == 0 then { r with kL0 := v } else { r with kHi := v }

/-- Modelled bytes at a quantiser, with 16 fractional bits. -/
def modelled (p : Params) (k c : Nat) (q : Int) : Nat := if qstep p q == 0 then 0 else k * c / qstep p q

/-- The smallest quantiser in [QP_MIN, QP_MAX] whose modelled bytes keep within `data`; QP_MAX where none does (R205). -/
def modelQp (p : Params) (k c : Nat) (data : Int) : Int :=
  match (List.range ((p.qpMax - p.qpMin).toNat + 1)).find? fun i : Nat => decide ((modelled p k c (p.qpMin + (i : Int)) : Int) ≤ data * 65536) with
  | some i => p.qpMin + (i : Int)
  | none => p.qpMax

/-- The base quantiser of a picture (Table 8-2). -/
def baseQp (p : Params) (x : SrcPic) (k c : Nat) (data : Int) : Int :=
  let m := modelQp p k c data
  clampQp p (match p.rcMode with
    | 0 => if x.key then p.qpI else if x.layer == 0 then p.qpP else p.qpB + (p.layerStep : Int) * ((x.layer : Int) - 1)
    | 3 => max (if x.key then p.cqLevel - (p.layerStep : Int) else p.cqLevel + (p.layerStep : Int) * (x.layer : Int)) m
    | _ => m)

/-! ### Shares of the segments (R206) -/

/-- Forced reserve of `n` CTUs. -/
def reserveOf (n : Nat) : Nat := 16 + ceilDiv (n * 4) 8

/-- One segment's plan: H_s, T_s and its row complexities. -/
def segPlan (rc cap hdr cPic ctus count rsv : Nat) (tData : Int) (rows : List Nat) (n : Nat) : Nat × Nat × List Nat :=
  let part := fun v : Int => if cPic == 0 then mulDiv v n ctus else mulDiv v (sumNat rows) cPic
  let h := reserveOf n + (part ((cap : Int) - (hdr : Int) - ((count : Int) - 1) - (rsv : Int))).toNat
  (h, if rc == 0 then h else (part tData).toNat, rows)

/-- The plan of a picture, `hdr` being the header bytes its start wrote (R203 to R206). -/
def State.planOf (s : State) (ms : List MapRead) (n : Nat) (p : SrcPic) (hdr : Nat) : Plan :=
  let x := s.sess n
  let v := x.par
  let cap := s.capOf n p
  let t := min (s.targetOf ms n p cap) cap
  let costs := s.blockCosts n p p.key (s.roiOf ms n p)
  let c := sumNat (costs.map sumNat)
  let k := encCtu v.codec / 16
  let gs := encSegs v x.estCorr p.width p.height
  let data : Int := (t : Int) - (hdr : Int)
  let rsv := sumNat (gs.map fun g => reserveOf (SegRect.ctus g))
  let all := sumNat (gs.map SegRect.ctus)
  { pic := p.index, target := t, cap := cap, qPic := baseQp v p (x.rc.k p) c data, hdr := hdr, cPic := c, roi := (s.maps ms n p).1, hints := (s.maps ms n p).2,
    segs := gs.map fun g => segPlan v.rcMode cap hdr c all gs.length rsv data (segRows costs k g) (SegRect.ctus g) }

/-! ### Row decisions (R207, R209) -/

/-- Δ of Table 8-3 for a spend against the planned spend. -/
def rowDelta (spent planned : Nat) : Int :=
  if planned == 0 then 0
  else if 100 * spent < 80 * planned then -2
  else if 100 * spent < 90 * planned then -1
  else if 100 * spent < 110 * planned then 0
  else if 100 * spent < 125 * planned then 1
  else 2

/-- P_r of a segment's plan (R207). -/
def plannedSpend (g : Nat × Nat × List Nat) (r : Nat) : Nat :=
  if sumNat g.2.2 == 0 then 0 else g.2.1 * sumNat (g.2.2.take r) / sumNat g.2.2

/-- The row quantiser of a segment's row (R207); in CQP the picture's. -/
def rowQp (v : Params) (p : Plan) (g : Nat × Nat × List Nat) (r spent : Nat) : Int :=
  let d := if r == 0 || !v.rowRc || v.rcMode == 0 then 0 else rowDelta spent (plannedSpend g r)
  clampQp v (p.qPic + (if v.isVp then 4 * d else d))

/-! ### What a picture's finish changes (R211, R214) -/

/-- Bytes of coded CTU data against the model: K updated for the picture's class (R214). -/
def Session.learn (x : Session) (p : SrcPic) (plan : Plan) (data : Nat) : RcState :=
  if plan.cPic == 0 then x.rc
  else x.rc.setK p ((3 * x.rc.k p + data * qstep x.par plan.qPic * 65536 / plan.cPic) / 4)

/-- Balance and fullness after a coded picture unit of `n` bytes, filler included (R203, R211, R214). -/
def Session.account (x : Session) (n : Nat) (r : RcState) : RcState :=
  let v := x.par
  if v.rcMode == 1 || v.rcMode == 2 || v.rcMode == 3 then
    let b : Int := ((v.bufSize * 125 * 65536 : Nat) : Int)
    let e := clampInt (-b) b (r.e + (gBytes v : Int) - ((n * 65536 : Nat) : Int))
    { r with e := if v.rcMode == 3 then min e 0 else e
             f := min (r.f - ((8 * n * 65536 : Nat) : Int) + (arrival v : Int)) (bufBits v : Int) }
  else r

end Sys2Proof.Machine
end

