-- ==== Sys2Proof/Machine/Fence.lean ====
section
/-! DEFINITION. Fencing of core halves, machine checks, self-tests, core clocks and the cluster reference cache
(03_coding_core.md, 04_control_store.md, 19_faults_recovery.md). -/
namespace Sys2Proof.Machine

/-- A core half exists: 64 cores of two halves. -/
def isHalf (h : Nat) : Bool := decide (h < 128)

/-- The unit that a half executes. -/
def State.running? (s : State) (h : Nat) : Option WUnit := (s.half h).unit.bind s.unit?

/-! ### Patch memory (R105 to R109) -/

/-- A word of a byte string. -/
def wordAt (bs : List Byte) (off : Nat) : Word := BitVec.ofNat 32 (bytesAt bs off 4)

/-- A match register holds no reserved bit: bits 29:21, and for a nano match bits 20 and 7:6 (Table 4-12). -/
def matchWord (w : Word) : Word := w &&& (if w.getLsbD 30 then 0xC00FFF3F else 0xC01FFFFF)

/-- Patch memory and match registers as a decrypted patch image gives them (Table 4-6). -/
def loadPatch (bs : List Byte) (level : Nat) (h : Half) : Half :=
  { h with
    patchStatus := 1, patchLevel := level
    matches_ := (List.range 32).map fun i => matchWord (wordAt bs (64 + 4 * i))
    patchMicro := forUpTo 256 (fun i t => tblSet 0 t i (wordAt bs (192 + 4 * i))) []
    patchNano := forUpTo 64 (fun i t => tblSet 0 t i (BitVec.ofNat 192 (bytesAt bs (1216 + 24 * i) 24))) [] }

/-- A self-test rewrites what differs from the copy that the CSC keeps (R109). -/
def State.repairPatch (s : State) (h : Nat) : State :=
  match s.boot.patch with
  | some bs => if (s.half h).store then s else s.modHalf h (loadPatch bs s.boot.patchLevel)
  | none => s

/-! ### Fences (R82, R83, R85 to R89) -/

/-- The hinted units of a half return to their sessions (R83, R290), and a lane's claim on it moves on (R292). -/
def State.reclaim (s : State) (h : Nat) : State :=
  (forEach ((s.unitsOn h).filter WUnit.hinted) (fun u t =>
    (t.unhint u.uid).modDsc fun d => { d with replans := sat32 d.replans 1 }) s).moveClaim h

/-- A clock change that is pending as a half is fenced waits until the half leaves FENCED or TESTING (R87). -/
def State.holdClock (s : State) (h : Nat) : State :=
  if (s.core (h / 2)).want.isSome then s.modCore (h / 2) fun c => { c with heldFor := c.heldFor ++ [h] } else s

/-- An ACTIVE half begins to fence; in abort mode the executing unit is asked to leave (R83). -/
def State.fence (s : State) (h : Nat) (abort : Bool) (cause : Nat) : State :=
  let t := ((s.holdClock h).modHalf h fun x => { x with fstate := .fencing, abortF := abort, cause := cause }).reclaim h
  let u := match t.running? h with
    | some w => if abort then t.sendReq w .fenceAbort else t
    | none => t
  u.settleHalf h

/-- A command to a half that may not take it (R88). -/
def State.ignoreCmd (s : State) (core : Nat) : State := s.modCore core fun c => { c with ignored := true }

/-- A fence bit written (R83, R88). -/
def fenceOp (core e : Nat) (abort : Bool) (s : State) : State :=
  let h := 2 * core + e
  let t := s.modCore core fun c => { c with mode := abort }
  if (s.half h).fstate == .active then t.fence h abort 1 else t.ignoreCmd core

/-- An unfence bit written (R88): the self-test begins. Halves that a rejected patch holds FENCED stay so (R108). -/
def unfenceOp (core e : Nat) (s : State) : State :=
  let h := 2 * core + e
  if (s.half h).fstate == .fenced && decide ((s.half h).patchStatus < 2) then s.modHalf h fun x => { x with fstate := .testing, passed := false } else s.ignoreCmd core

def execFenceDec (core : Nat) (abort : Bool) (s : State) : Res :=
  .next (onlyIf (s.live && decide (core < 64)) (fenceOp core 0 abort) s)
def execFenceEnc (core : Nat) (abort : Bool) (s : State) : Res :=
  .next (onlyIf (s.live && decide (core < 64)) (fenceOp core 1 abort) s)
def execUnfenceDec (core : Nat) (s : State) : Res := .next (onlyIf (s.live && decide (core < 64)) (unfenceOp core 0) s)
def execUnfenceEnc (core : Nat) (s : State) : Res := .next (onlyIf (s.live && decide (core < 64)) (unfenceOp core 1) s)

/-! ### Clocks (R21, R87, R498) -/

/-- A set point for VDD_CC: which of the 5 mV steps from 0.60 V to 0.90 V goes with which clocks is open (R498, Table 22-5;
log entry 28). -/
def State.nextVdd (s : State) : Nat := 600 + 5 * ((freeNow s 8).toNat % 61)

/-- A half whose self-test has passed, and that waited for its core's clock, returns to ACTIVE (R87). -/
def Half.returns (x : Half) : Half := if x.fstate == .testing && x.passed then { x with fstate := .active, passed := false } else x

/-- A core island runs on a new clock, the supply having been commanded; a half that waited for it returns to service (R21, R87,
R498). -/
def State.sendClock (s : State) (core mhz : Nat) : State :=
  let t := (((s.modCore core fun c => { c with mhz := mhz, want := none, changing := false, heldFor := [] }).modPins fun p =>
    { p with vddMv := s.nextVdd }).emit (.avs s.nextVdd)).tookFree
  (t.modHalf (2 * core) Half.returns).modHalf (2 * core + 1) Half.returns

/-- Both halves of a core are between units (R21). -/
def State.betweenUnits (s : State) (core : Nat) : Bool := [2 * core, 2 * core + 1].all fun h => (s.half h).unit.isNone

/-- A pending clock change may be made: both halves are between units, and it waits for no half that was fenced while it was pending,
but for one whose self-test has passed (R21, R87). -/
def State.clockFree (s : State) (core : Nat) : Bool :=
  s.betweenUnits core && (s.core core).heldFor.all fun h => (s.half h).passed

/-- A clock change becomes pending, and with both halves idle it begins (R21). -/
def State.wantClock (s : State) (core mhz : Nat) : State :=
  let t := s.modCore core fun c => { c with want := some mhz }
  t.modCore core fun c => { c with changing := t.clockFree core }

/-- CCA_CLK.CHANGING: a change has begun and has not settled; one that waited begins as soon as it may (R21, Table 3-16). -/
def State.clockChanging (s : State) (core : Nat) : Bool :=
  (s.core core).changing || ((s.core core).want.isSome && s.clockFree core)

def clockChangeOp (core mhz : Nat) (s : State) : State := s.wantClock core mhz

def execClockChange (core mhz : Nat) (s : State) : Res :=
  .next (onlyIf (s.live && decide (core < 64) && decide (400 ≤ mhz) && decide (mhz ≤ 1800)) (clockChangeOp core mhz) s)

/-- The pending clock of a core has settled (R21). -/
def clockSettledOp (core : Nat) (s : State) : State :=
  match (s.core core).want with
  | some m => if s.clockFree core then s.sendClock core m else s
  | none => s

def execClockSettled (core : Nat) (s : State) : Res := .next (onlyIf (s.live && decide (core < 64)) (clockSettledOp core) s)

/-! ### Machine checks (R84, R86, R98, R109, R111, Table 19-5) -/

/-- Fault code of a machine-check cause (Table 19-3). -/
def mchkCode (cause : Nat) : Nat := if cause == 3 then 0x02 else if cause == 4 then 0x03 else 0x04

/-- Fault code's INFO: the microword address for causes 3 and 5; for cause 4 the SRAM instance, which the spec does not
number (log entry 5). -/
def State.mchkInfo (s : State) (cause : Nat) (a : BitVec 13) : Nat := if cause == 4 then (freeNow s 16).toNat else a.toNat

/-- The record of a machine check (Table 19-9). -/
def State.reportCheck (s : State) (h cause : Nat) (a : BitVec 13) : State :=
  let u := s.running? h
  let t := if cause == 4 then s.tookFree else s
  t.report (mchkCode cause) h (u.map WUnit.fn) (u.map WUnit.session) (s.mchkInfo cause a) ((u.map WUnit.tag).getD 0) 0

/-- The unit of a half that failed: rolled back and queued again, or after three different halves ended (R84, R168). -/
def State.checkUnit (s : State) (h : Nat) : State :=
  match s.running? h with
  | none => s
  | some u =>
    let hs := if u.mchk.contains h then u.mchk else u.mchk ++ [h]
    if 3 ≤ hs.length then s.failUnit { u with mchk := hs } 0xF0 0x30
    else (s.modUnit u.uid fun w => { w with mchk := hs }).rollback u.uid

/-- A machine check of a half (R84): its working state goes, it is FENCED at once, its unit runs again elsewhere, and
the fence policy decides whether it is tested (R439, R440). -/
def State.machineCheck (s : State) (h cause : Nat) (a : BitVec 13) : State :=
  let t := ((((s.reportCheck h cause a).checkUnit h).modHalf h fun x => { x with fstate := .fenced }).reclaim h).holdClock h
  let n := (s.half h).mchkWindow + 1
  let again := s.policy.autoUnfence && decide (n < s.policy.mchkLimit)
  t.modHalf h fun x => { haltHalf x with
    fstate := if again then .testing else .fenced, passed := false, abortF := false, cause := cause, mchkAddr := a,
    mchkCount := min 255 (x.mchkCount + 1), mchkCause := cause, mchkWindow := n }

/-- A half in service: one that is FENCED, TESTING, FAILED or DISABLED takes no machine check (R109). -/
def State.halfServes (s : State) (h : Nat) : Bool := (s.half h).fstate == .active || (s.half h).fstate == .fencing

def machineCheckOp (h cause : Nat) (a : BitVec 13) (s : State) : State := s.machineCheck h cause a

def execMachineCheck (half cause : Nat) (uaddr : BitVec 13) (s : State) : Res :=
  .next (onlyIf (s.live && isHalf half && s.halfServes half && decide (3 ≤ cause) && decide (cause ≤ 5)) (machineCheckOp half cause uaddr) s)

/-- The segment above a unit's, whose progress it awaits (R53). -/
def State.above (s : State) (u : WUnit) : Option WUnit :=
  if u.seg == 0 then none
  else s.dsc.units.find? fun v => v.session == u.session && v.pic == u.pic && v.kind == .segment && v.seg + 1 == u.seg

/-- The watchdog's count is held: the awaited segment does not execute, or awaits a neighbour itself (R98). -/
def State.watchHeld (s : State) (u : WUnit) : Bool :=
  match s.above u with
  | some v => (match v.stage with
    | .running k => (s.half k).waitProg
    | _ => true)
  | none => false

/-- The count of a half's watchdog is held: its unit awaits a neighbour that does not execute or awaits one itself (R98). -/
def State.countHeld (s : State) (h : Nat) : Bool := (s.half h).waitProg && (s.running? h).any s.watchHeld

/-- The watchdog of a half that holds at a WAIT word reaches its limit, unless its count is held: cause 5 (R98). -/
def watchdogOp (h : Nat) (s : State) : State :=
  if (s.half h).waiting && !s.countHeld h then
    (s.modHalf h fun x => { x with waitCycles := 2 ^ x.wdogExp }).machineCheck h 5 (s.half h).uaddr
  else s

def execWaitWatchdog (half : Nat) (s : State) : Res :=
  .next (onlyIf (s.live && isHalf half && s.halfServes half) (watchdogOp half) s)

/-- A half's self-test ends; a clock change that waited for the half is made before it is ACTIVE, once the other half is between units
(R87, R109, Table 3-9). -/
def selfTestOp (h : Nat) (r : SelfTest) (s : State) : State :=
  if (s.half h).fstate != .testing then s
  else
    match r with
    | .pass =>
      let t := s.repairPatch h
      match (s.core (h / 2)).want with
      | some m =>
        if (s.core (h / 2)).heldFor.contains h then
          let v := (t.modHalf h fun x => { x with passed := true }).modCore (h / 2) fun c => { c with heldFor := [h] }
          if v.betweenUnits (h / 2) then v.sendClock (h / 2) m else v
        else t.modHalf h fun x => { x with fstate := .active }
      | none => t.modHalf h fun x => { x with fstate := .active }
    | r =>
      let code := if r == .failRom then 0x02 else 0x03
      let t := (s.modHalf h fun x => { x with fstate := .failed, cause := 6 }).modCore (h / 2) fun c => { c with heldFor := without c.heldFor h }
      t.tookFree.report code h none none (freeNow t 16).toNat 0 0

def execSelfTestDone (half : Nat) (r : SelfTest) (s : State) : Res := .next (onlyIf (s.up && isHalf half) (selfTestOp half r) s)

/-! ### Clusters (R70 to R72, Table 19-5) -/

/-- A parity error in the reference cache: the line is invalidated, its tile's six granules are fetched again, and a class C fault is
recorded (R72). -/
def rcacheParityOp (c a : Nat) (s : State) : State :=
  let t := (s.modCluster c fun k => { k with parity := sat32 k.parity 1 }).report 0x01 (0x80 + c) none none (freeNow s 16).toNat 0 0
  let held := (tblGet [] (s.cluster c).sets (lineOf a / 64 % 4096)).contains (lineOf a)
  t.tookFree.modCluster c fun k => if held then (s.tileGranules (lineOf a)).foldl (fun d l => fillGranule l d) k else k

def execRcacheParity (cluster : Nat) (addr : Nat) (s : State) : Res :=
  .next (onlyIf (s.live && decide (cluster < 8)) (rcacheParityOp cluster addr) s)

/-- An uncorrectable tag or port error of a cluster: all its halves fence in abort mode, and the cache is invalidated
(Table 19-5). -/
def clusterErrorOp (c : Nat) (s : State) : State :=
  let t := (s.tookFree.report 0x03 (0x80 + c) none none (freeNow s 16).toNat 0 0).modCluster c fun k => { k with sets := [] }
  forUpTo 16 (fun i v => if (v.half (16 * c + i)).fstate == .active then v.fence (16 * c + i) true 2 else v) t

def execClusterPortError (cluster : Nat) (s : State) : Res :=
  .next (onlyIf (s.live && decide (cluster < 8)) (clusterErrorOp cluster) s)

end Sys2Proof.Machine
end

