-- ==== Sys2Proof/Machine/Faults.lean ====
section
/-! DEFINITION. The Fault Collector: records, the safe state, ALIVE, the fault policy's windows, and the faults of units that
no other file has (19_faults_recovery.md). -/
namespace Sys2Proof.Machine

/-! ### Records (R435, R436, R438, R446, R451) -/

/-- REC_SEQ after one more record: 1 follows 2^32 − 1 (R435). -/
def nextRecSeq (w : Word) : Word := if w == 0xFFFFFFFF then 1 else w + 1

/-- The FCL stores a record, or drops the newest where 128 stand; it counts and latches it (R436). -/
def Fcl.accept (f : Fcl) (r : Rec) : Fcl :=
  let r' := { r with recSeq := f.nextSeq }
  { f with
    fifo := if f.fifo.length < 128 then f.fifo ++ [r'] else f.fifo
    ovf := if f.fifo.length < 128 then f.ovf else tblMod 0 f.ovf r.cls fun w => sat32 w 1
    count := tblMod 0 f.count r.source fun w => sat32 w 1
    first := match f.first with
      | none => some r'
      | some k => some k
    nextSeq := nextRecSeq f.nextSeq }

/-- AER of a record: none for class U, PF0 for a corrected or fatal one (Table 19-5a). -/
def State.tellAer (s : State) (r : Rec) : State :=
  if r.cls == 3 then s
  else if r.cls == 1 then s.tellHost (.aer (r.fn.getD 0) 1)
  else s.tellHost (.aer 0 r.cls)

/-- What the acceptance of a record tells: a source, an event, AER, ALIVE, and the safe state for class F (R438, R444, R446). -/
def State.tellRecord (s : State) (r : Rec) (seq : Word) (stored : Bool) : State :=
  let t := s.assertSource (if stored then 512 else 513)
  let u := (if r.untold then t else t.event (r.fn.getD 0) 0x06 none 0 (r.session.getD 0) 0 0 seq.toNat).tellAer r
  let v := if s.policy.aliveClasses.getLsbD r.cls then u.stopAlive else u
  if r.cls == 2 then v.enterSafe 1 else v

/-- The oldest report is accepted. -/
def faultRecordOp (s : State) : State :=
  match s.fcl.inbox with
  | [] => s
  | r :: rest =>
    let t := s.modFcl fun f => { f.accept r with inbox := rest }
    t.tellRecord r s.fcl.nextSeq (decide (s.fcl.fifo.length < 128))

def execFaultRecord (s : State) : Res := .next (onlyIf s.pins.pwrgood faultRecordOp s)

/-- A write of FCL_POP: POP removes the oldest record (Table 19-12). -/
def fclPopOp (v : Word) (s : State) : State := if v.getLsbD 0 then s.modFcl fun f => { f with fifo := f.fifo.drop 1 } else s

def execFclPop (v : Word) (s : State) : Res := .next (onlyIf s.pf0Answers (fclPopOp v) s)

/-- FIRST_VALID clears: the latch takes the next record accepted (R436). -/
def firstClearOp (s : State) : State := s.modFcl fun f => { f with first := none }

def execFirstValidClear (s : State) : Res := .next (onlyIf s.pf0Answers firstClearOp s)

/-- A write of FCL_CTRL.ALIVE_RESUME outside the safe state: ALIVE toggles again (R446). -/
def aliveResumeOp (s : State) : State :=
  if s.fcl.aliveStopped then
    ((s.modFcl fun f => { f with aliveStopped := false }).modPins fun p => { p with alive := true }).settleAlert
  else s

def execAliveResume (s : State) : Res := .next (onlyIf (s.up && s.pf0Answers) aliveResumeOp s)

/-- A parity error in the FCL: the safe state with CAUSE 3, and no record (R444). -/
def fclParityOp (s : State) : State := s.enterSafe 3

def execFclParityError (s : State) : Res := .next (onlyIf s.pins.pwrgood fclParityOp s)

/-! ### The fault policy's windows (R439, R422) -/

/-- Every entry of a table of counts is halved. -/
def halveTbl (t : Tbl Nat) : Tbl Nat := (t.map fun p => (p.1, p.2 / 2)).filter fun p => p.2 != 0

/-- The 24 h window ends, or the 1 h window: its counts are halved (R439). -/
def policyWindowOp (hour : Bool) (s : State) : State :=
  if hour then s.modFcl fun f => { f with restarts := halveTbl f.restarts }
  else
    let t := forUpTo 128 (fun h u => u.modHalf h fun x => { x with mchkWindow := x.mchkWindow / 2 }) s
    (t.modMau fun m => { m with parity := halveTbl m.parity }).modPcf fun m => { m with parity := halveTbl m.parity }

def execPolicyWindowEnd (hour : Bool) (s : State) : Res := .next (onlyIf s.up (policyWindowOp hour) s)

/-! ### Management processors (Table 19-5, R394, R396) -/

/-- A lockstep mismatch: the pair is fenced and its firmware restarts, until MP_LIMIT; both pairs fenced is fatal. -/
def lockstepOp (pair : Nat) (s : State) : State :=
  let n := tblGet 0 s.fcl.restarts pair
  let stay := decide (s.policy.mpLimit ≤ n)
  let t := s.modFcl fun f => { f with
    restarts := tblSet 0 f.restarts pair (n + 1)
    mpFenced := if stay then f.mpFenced ||| BitVec.twoPow 2 pair else f.mpFenced
    mpDown := f.mpDown ||| BitVec.twoPow 2 pair }
  let u := ((t.report 0x0B (0xA8 + pair) none none (n + 1) 0 0).resetMbx .fw)
  let v := (u.abandonSems (64 + 2 * pair)).abandonSems (65 + 2 * pair)
  if v.fcl.mpFenced == 3 then v.report 0x33 (0xA8 + pair) none none (0xA8 + pair) 0 0 else v

def execLockstepMismatch (pair : Nat) (s : State) : Res :=
  .next (onlyIf (s.up && decide (pair < 2) && !s.fcl.mpDown.getLsbD pair) (lockstepOp pair) s)

/-- A pair's firmware runs again from its protected copy. -/
def restartDoneOp (pair : Nat) (s : State) : State :=
  if s.fcl.mpFenced.getLsbD pair then s else s.modFcl fun f => { f with mpDown := f.mpDown &&& ~~~(BitVec.twoPow 2 pair) }

def execFirmwareRestartDone (pair : Nat) (s : State) : Res :=
  .next (onlyIf (s.up && decide (pair < 2)) (restartDoneOp pair) s)

/-! ### Electrum and the Nitinol engines (Table 19-5) -/

/-- A line of the Electrum cache is lost: its way leaves service; a clean line is refetched, a dirty one resets its session. -/
def electrumLineOp (n : Nat) (s : State) : State :=
  match (s.cacheSet n).find? fun l => l.session == n with
  | none => s
  | some l =>
    let t := (s.dropLine n).modCtx fun c => { c with lostWays := tblMod 0 c.lostWays (n % 256) fun k => min 16 (k + 1) }
    let v := t.tookFree.report (if l.dirty then 0x03 else 0x01) 0xA1 (some (s.sess n).fn) (some n) (freeNow s 16).toNat 0 0
    if l.dirty then v.faultReset n [] else (v.allocLine n fun _ => true).getD v

def execElectrumLineError (session : Nat) (s : State) : Res := .next (onlyIf s.live (electrumLineOp session) s)

/-- A Nitinol engine's memory fails: a clean header granule is refetched; a merge-buffer entry is stored poisoned, and its
region decides what follows. -/
def nitinolErrorOp (e : Nat) (merge : Bool) (a : Nat) (s : State) : State :=
  let t := s.tookFree.report (if merge then 0x03 else 0x01) (0xC0 + e) none none (freeNow s 16).toNat 0 (if merge then a else 0)
  if merge then
    forEach (linesOf a 384) (fun l u => (u.poisonLine l).loseLine l)
      (t.modNtl fun n => { n with merge := tblMod [] n.merge e fun ms => ms.filter fun m => refAddr m.tile != a })
  else t

def execNitinolEngineError (engine : Nat) (merge : Bool) (addr : Nat) (s : State) : Res :=
  if merge && decide (s.memSize < addr + 384) && s.live then .fault (.noSuchAddress addr)
  else .next (onlyIf (s.live && decide (engine < 32)) (nitinolErrorOp engine merge addr) s)

/-! ### Junction temperatures (R507, R508, Table 19-5) -/

/-- Highest reading of a sensor so far. -/
def peakOf (t : Tbl (Int × Int)) (i : Nat) (x : Int) : Int := max x (tblGet (0, -32768) t i).2

/-- Readings stored with their peaks. -/
def State.storeTemps (s : State) (temps : List Int) : State :=
  let put := fun (p : Nat × Int) (t : Tbl (Int × Int)) => tblInsert (tblErase t p.1) p.1 (p.2, peakOf t p.1 p.2)
  s.modBoot fun b => { b with therm := forEach ((List.range 16).zip temps) put b.therm }

/-- Cores that a sensor's heat slows: those of its cluster, or all of them (log entry 29). -/
def coresUnder (sensor : Nat) : List Nat :=
  if sensor < 8 then (List.range 8).map (8 * sensor + ·) else List.range 64

/-- A clock below a core's present one, which the spec leaves open (Table 19-5; log entry 29). -/
def State.lowerClock (s : State) (core : Nat) : State :=
  let c := s.core core
  if c.was.isSome then s
  else
    let m := 400 + (freeNow s 16).toNat % (max 1 (c.mhz - 400))
    (s.tookFree.modCore core fun c => { c with was := some c.mhz }).wantClock core m

/-- A core that heat slowed returns to its clock. -/
def State.restoreClock (s : State) (core : Nat) : State :=
  match (s.core core).was with
  | some m => (s.modCore core fun c => { c with was := none }).wantClock core m
  | none => s

/-- Sensor `i` has risen above 105 °C: recorded once, and its cores slow down. -/
def State.hotSensor (s : State) (i : Nat) (x : Int) : State :=
  forEach (coresUnder i) (fun c t => t.lowerClock c) (s.report 0x0C 0xAA none none (i * 256 + x.toNat % 256) 0 0)

/-- A sensor at 115 °C: THERMTRIP_N, a class F record and the safe state with CAUSE 4 (R444, R508). -/
def State.thermTrip (s : State) (i : Nat) : State :=
  ((s.report 0x31 0xAA none none i 0 0).modPins fun p => { p with thermtrip := true }).enterSafe 4

/-- Every core's accumulated stress grows, and saturates; the manual gives no weights for clock, voltage and temperature, so that by how much
is an open value (CCA_STRESS, 03_coding_core.md; DESIGN CHOICE, log entry 70). -/
def State.ageCores (s : State) : State :=
  let v := (freeNow s 2048).toNat
  { s.tookFree with
    cores := forUpTo 64 (fun k t => tblMod Core.init t k fun c => { c with stress := sat32 c.stress (v / 2 ^ (32 * k) % 2 ^ 32) }) s.cores }

/-- One reading of the sixteen sensors. -/
def thermalReadingOp (temps : List Int) (s : State) : State :=
  let old := s.boot.therm
  let now := ((List.range 16).zip temps)
  let t := s.storeTemps temps
  let hot := now.filter fun p => decide (105 < p.2) && decide ((tblGet (0, 0) old p.1).1 ≤ 105)
  let u := if s.live then forEach hot (fun p v => v.hotSensor p.1 p.2) t.ageCores else t
  let cool := forUpTo 64 (fun c v => if now.all fun p => decide (p.2 ≤ 100) || !(coresUnder p.1).contains c then v.restoreClock c else v)
  let w := if s.live then cool u else u
  let x := match now.find? fun p => decide (115 ≤ p.2) with
    | some p => if s.pins.thermtrip then w else w.thermTrip p.1
    | none => w
  let y := if !s.pins.pwrgood && now.all fun p => decide (p.2 < 95) then x.modPins fun p => { p with thermtrip := false } else x
  y.settleAlert

def execThermalReading (temps : List Int) (s : State) : Res :=
  .next (onlyIf (temps.length == 16) (thermalReadingOp temps) s)

end Sys2Proof.Machine
end

