-- ==== Sys2Proof/Machine/Recon.lean ====
section
/-! DEFINITION. The samples of decoded pictures: reconstruction and in-loop filters, concealment, what a slot then holds, and the picture as
it is released to the host (03_coding_core.md R66, R68; 05_codec_support.md R117, R119, R124; 06_decoding.md R144, R154, R159, R162,
R164). What a coding standard defines stands as functions of Config without a body (log entry 78). -/
namespace Sys2Proof.Machine

/-! ### In-loop filters (R68, Table 3-2) -/

/-- The in-loop filters of the codecs. -/
inductive LoopFilter where
  | deblocking | sao | lmcs | alf | ccAlf | cdef | superres | restoration
  deriving DecidableEq, Repr

/-- A filter's number. -/
def LoopFilter.code : LoopFilter → Nat
  | .deblocking => 0
  | .sao => 1
  | .lmcs => 2
  | .alf => 3
  | .ccAlf => 4
  | .cdef => 5
  | .superres => 6
  | .restoration => 7

/-- A codec's filters in order; super-resolution comes before loop restoration where it is enabled (Table 3-2). -/
def loopFilters (codec : Nat) (superres : Bool) : List LoopFilter :=
  match codec with
  | 0 => [.deblocking]
  | 1 => [.deblocking, .sao]
  | 2 => [.deblocking]
  | 3 => if superres then [.deblocking, .cdef, .superres, .restoration] else [.deblocking, .cdef, .restoration]
  | _ => [.lmcs, .deblocking, .sao, .alf, .ccAlf]

/-- The coded data that a picture is reconstructed from. -/
structure CodedData where
  codec : Nat
  psets : List (Nat × List Byte)
  units : List (List Byte)
  first : Nat
  superres : Bool
  deriving DecidableEq, Repr

/-- Every filter in order: with `across` false those parts that lie inside the CTUs given and whose samples depend on no other segment;
with `across` true what was left, the edges between segments and the samples whose filter window reaches across one, VVC's adaptive loop
filter and AV1's restoration among them. Concealed CTUs and the edges that touch them are left out (R48, R68, R154). -/
def filtered (k : CodedData) (across : Bool) (ctus off : List (Nat × Nat)) (ps : List Plane) : List Plane :=
  (loopFilters k.codec k.superres).foldl (fun p f => Config.loopFilter k.codec f.code k.psets k.units k.first across ctus off p) ps

/-! ### Planes -/

/-- A plane of one value. -/
def flatPlane (v w h : Nat) : Plane := List.replicate h (List.replicate w v)

/-- A picture whose every sample is 2^(d−1), in the 12-bit form: the virtual picture (R159, R239). -/
def greyPlanes (chroma w h : Nat) : List Plane :=
  let c := chromaSize chroma w h
  flatPlane 2048 w h :: (if chroma == 0 then [] else [flatPlane 2048 c.1 c.2, flatPlane 2048 c.1 c.2])

/-- Lines of one parity: 1 the even lines, 2 the odd. -/
def fieldLines (parity : Nat) (p : Plane) : Plane := (List.range (p.length / 2)).map fun y => p.getD (2 * y + (parity - 1)) []

/-- A field's lines put into a frame, the top field on even lines (R119). -/
def weaveField (parity : Nat) (frame field : Plane) : Plane :=
  (List.range frame.length).map fun y => if y % 2 == parity - 1 then field.getD (y / 2) [] else frame.getD y []

/-- A field alone as a frame: each missing line repeats the line above it; the first, where there is none above, the line below (R119;
DESIGN CHOICE, log entry 78). -/
def repeatLines (parity : Nat) (p : Plane) : Plane :=
  (List.range p.length).map fun y => p.getD (if y % 2 == parity - 1 then y else if y == 0 then 1 else y - 1) []

/-! ### Concealment (R154) -/

/-- A plane with the samples of some CTUs, `size` luma samples wide and subsampled by `sx` and `sy`, taken from another. -/
def fillPlane (size sx sy : Nat) (cs : List (Nat × Nat)) (src p : Plane) : Plane :=
  (List.range p.length).map fun y => (List.range (p.getD y []).length).map fun x =>
    if cs.contains (x * sx / max 1 size, y * sy / max 1 size) then (src.getD y []).getD x 2048 else (p.getD y []).getD x 0

/-- A picture whose concealed CTUs copy the co-located samples of another (R154). -/
def fillCtus (size chroma : Nat) (cs : List (Nat × Nat)) (src ps : List Plane) : List Plane :=
  (List.range ps.length).map fun k =>
    fillPlane size (if k == 0 then 1 else subX chroma) (if k == 0 then 1 else subY chroma) cs (src.getD k []) (ps.getD k [])

/-! ### Pictures in their slots -/

/-- Where a reference slot of a session begins. -/
def Session.slotBase (x : Session) (slot : Nat) : Nat := x.refR.base + slot * refSlotSize x.par

/-- The samples of a decoded picture, before cropping. -/
def State.slotPlanes (s : State) (n : Nat) (p : Pict) : List Plane :=
  if p.virtual then greyPlanes p.chroma p.codedW p.codedH else s.pictureAt ((s.sess n).slotBase p.slot) p.chroma p.codedW p.codedH

/-- The samples of the reference with a picture number, or of the virtual picture in its place (R159). -/
def State.refPlanes (s : State) (n chroma w h num : Nat) : List Plane :=
  match (s.sess n).refPict num with
  | some p => s.slotPlanes n p
  | none => greyPlanes chroma w h

/-- What storing a picture changes. -/
def State.withStored (s t : State) : State := { s with mem := t.mem, ntl := t.ntl, clusters := t.clusters, hlu := t.hlu, out := t.out }

/-- A picture is stored in PF_NITINOL form through the engines. -/
def State.keepPlanes (s : State) (base chroma w h : Nat) (ps : List Plane) : State := s.withStored (s.storePicture base chroma w h ps)

/-! ### What a decode unit writes (R66, R68, R117, R154) -/

/-- The sequence's chroma format, as its slots hold it; the session's where no header is in force. -/
def streamChroma (p : Params) (au : AuInfo) : Nat := (au.seq.map SeqInfo.chroma).getD p.chroma

/-- Height in its slot of a picture: of a field, its frame's. -/
def slotH (i : PicInfo) : Nat := if i.parity == 0 then i.codedH else 2 * i.codedH

/-- Width in its slot: after super-resolution, the upscaled one. -/
def slotW (i : PicInfo) : Nat := if i.superres then max i.codedW i.width else i.codedW

/-- A picture as its start commits; `p` are the parameters it runs with. -/
def newPict (u : WUnit) (p : Params) (au : AuInfo) (info : PicInfo) (rap : Bool) : Pict :=
  { num := u.pic, slot := u.slot, width := info.width, height := info.height, isRef := false, awaiting := false, due := false,
    grain := info.grain, grainP := info.grainP, codedW := (slotW info), codedH := (slotH info), cropX := info.cropX, cropY := info.cropY
    chroma := streamChroma p au, depthY := (au.seq.map SeqInfo.depthY).getD p.depthY, depthC := (au.seq.map SeqInfo.depthC).getD p.depthC
    parity := info.parity, mate := none, latency := 0, marks := [], dflags := 0, virtual := false, readers := 1, rap := rap,
    order := if p.isVp then (info.order.toNat : Int) else info.order.toInt, relIndex := none }

/-- The CTUs of a unit in coding order. -/
def WUnit.ctuList (u : WUnit) (i : PicInfo) : List Nat :=
  match u.kind with
  | .segment => (List.range u.ctus).map (u.first + ·)
  | .fused => List.range (ctuCells i).length
  | _ => []

/-- The coded data of a unit's picture, the stored parameter sets with those of the access unit. -/
def Session.coded (x : Session) (au : AuInfo) (i : PicInfo) : CodedData :=
  { codec := x.par.codec, psets := x.psets ++ au.psets, units := au.units, first := i.unit_, superres := i.superres }

/-- The samples of a unit's picture once the unit has run: concealed CTUs filled from the first reference, or grey in a picture without
one; the others as the standard reconstructs them; then the in-loop filters that fall to the unit (R68, R154). -/
def State.unitPlanes (s : State) (u : WUnit) (e : QEntry) (au : AuInfo) (i : PicInfo) : List Plane :=
  let x := s.sess u.session
  let chroma := streamChroma x.par au
  let frame := s.pictureAt (x.slotBase u.slot) chroma (slotW i) (slotH i)
  let own := if i.parity == 0 then frame else frame.map (fieldLines i.parity)
  let refs := i.refs.map (s.refPlanes u.session chroma (slotW i) (slotH i))
  let off := ctuPlaces i (concealedCtus i (x.picDamage u e au i))
  let mine := ctuPlaces i (u.ctuList i)
  let k := x.coded au i
  let src := match refs with
    | r :: _ => if i.parity == 0 then r else r.map (fieldLines i.parity)
    | [] => greyPlanes chroma (slotW i) i.codedH
  let filled := fillCtus i.ctuSize chroma (off.filter mine.contains) src own
  let done := if mine.isEmpty then filled else Config.reconstruct k.codec k.psets k.units k.first refs (mine.filter fun c => !off.contains c) off filled
  let inside := if mine.isEmpty then done else filtered k false mine off done
  let all := if u.kind == .segment then inside else filtered k true mine off inside
  if i.parity == 0 then all else (List.range frame.length).map fun c => weaveField i.parity (frame.getD c []) (all.getD c [])

/-- The motion side record of a block, 16 bytes: of a concealed one, inter prediction from the first reference with zero motion; its
error-map value in each (R63, R154, R166). -/
def sideBlock (k : CodedData) (first : Option Nat) (ms : List Nat) (b : Nat) : List Byte :=
  leBytes 16 (if ms.getD b 0 == 1 then Config.concealedRecord k.codec (first.getD 0) else Config.motionRecord k.codec k.psets k.units k.first b (ms.getD b 0)).toNat

/-- The motion side record of a picture follows its samples in the slot (R63). -/
def State.storeSide (s : State) (u : WUnit) (e : QEntry) (au : AuInfo) (i : PicInfo) : State :=
  let x := s.sess u.session
  let ms := x.marksOf u.pic i (x.picDamage u e au i)
  let a := x.slotBase u.slot + nitinolSize x.par.chroma x.par.maxW x.par.maxH
  s.withStored (s.devWrite a ((List.range ms.length).flatMap (sideBlock (x.coded au i) i.refs.head? ms)))

/-- What a decode unit has written of its picture by its final CHECKPOINT. -/
def State.storeUnit (s : State) (u : WUnit) (e : QEntry) (au : AuInfo) (i : PicInfo) : State :=
  let x := s.sess u.session
  let t := if u.kind == .segment || u.kind == .fused || u.kind == .finish then
      s.keepPlanes (x.slotBase u.slot) (streamChroma x.par au) (slotW i) (slotH i) (s.unitPlanes u e au i)
    else s
  if u.kind == .fused || u.kind == .finish then t.storeSide u e au i else t

/-! ### The decoded picture hash (R164) -/

/-- The hash was checked, and differs: over the decoded picture before cropping, at the stream's depths. -/
def State.hashOf (s : State) (p : Params) (u : WUnit) (au : AuInfo) (i : PicInfo) : Bool × Bool :=
  match i.hash with
  | some (m, v) =>
    let sq := au.seq.map fun q => (q.depthY, q.depthC)
    let ps := s.pictureAt ((s.sess u.session).slotBase u.slot) (streamChroma p au) (slotW i) (slotH i)
    (p.dphCheck, p.dphCheck && Config.pictureHash m (sq.getD (8, 8)).1 (sq.getD (8, 8)).2 ps != v)
  | none => (false, false)

/-! ### Release to the host (R119, R124, R144, R145, R162) -/

/-- A picture cropped, `chroma` its format. -/
def cropPlanes (chroma x y w h : Nat) (ps : List Plane) : List Plane :=
  (List.range ps.length).map fun k =>
    if k == 0 then cropPlane (ps.getD k []) x y w h
    else cropPlane (ps.getD k []) (x / subX chroma) (y / subY chroma) (ceilDiv w (subX chroma)) (ceilDiv h (subY chroma))

/-- The picture as readers see it: cropped to the conformance window or frame size, an unpaired field with its missing lines (R119,
R145). -/
def State.shownPlanes (s : State) (n : Nat) (p : Pict) : List Plane :=
  let a := cropPlanes p.chroma p.cropX p.cropY p.width p.height (s.slotPlanes n p)
  if p.parity == 0 then a else a.map (repeatLines p.parity)

/-- The picture as it is written to the host: film grain where it is asked for, and grey chroma for a 4:0:0 picture (R124, R162). -/
def State.hostPicture (s : State) (n : Nat) (p : Pict) : List Plane :=
  let b := s.shownPlanes n p
  let c := if (s.sess n).par.filmGrain && p.grain then Config.filmGrain p.grainP p.depthY p.depthC b else b
  if p.chroma == 0 then c.headD [] :: (greyPlanes 1 p.width p.height).drop 1 else c

/-- Depth that the containers of a host format hold (R144, R238). -/
def hostDepth (fmt : Nat) : Nat := if fmt == 0 then 8 else if fmt == 2 then 10 else 12

/-- Bytes of a picture in a host format, run by run from an address: each sample at the top of its container, zeros below (R144, R236). -/
def hostBytes (fmt a : Nat) (ps : List Plane) : List (Nat × List Byte) :=
  hostRuns a (hostRows fmt (hostDepth fmt) (ps.map fun p => p.map fun r => r.map fun v => v / 2 ^ (12 - hostDepth fmt)))

/-- A released picture is written into a host buffer (R147). -/
def State.writeOut (s : State) (q : Nat) (seq : Word) (n : Nat) (p : Pict) (b : OutBuf) : State :=
  let x := s.sess n
  forEach (hostBytes x.par.outFormat b.addr (s.hostPicture n p)) (fun r t => t.entryOut q seq x.fn b.space r.1 r.2) s

end Sys2Proof.Machine
end

