-- ==== Sys2Proof/Machine/Search.lean ====
section
/-! DEFINITION. What a MAU engine computes from source samples: planes, costs and searches (07_encoding.md R195, 09_motion_analysis.md
R221, R222, R225, R227). -/
namespace Sys2Proof.Machine

/-! ### Samples -/

/-- The sample at (x, y) of a plane, edges repeated. -/
def edgeAt (p : Plane) (x y : Int) : Nat :=
  let r := p.getD (clampInt 0 ((p.length : Int) - 1) y).toNat []
  r.getD (clampInt 0 ((r.length : Int) - 1) x).toNat 0

/-- The `w` × `h` samples from (x, y). -/
def patch (p : Plane) (x y : Int) (w h : Nat) : List (List Nat) :=
  (List.range h).map fun (j : Nat) => (List.range w).map fun (i : Nat) => edgeAt p (x + (i : Int)) (y + (j : Int))

/-- The sum of a block. -/
def blockSum (b : List (List Nat)) : Nat := (b.map fun r => r.foldl (· + ·) 0).foldl (· + ·) 0

/-- The quarter-resolution plane of a luma plane in 12-bit form (R221). -/
def quarterPlane (w h : Nat) (p : Plane) : Plane :=
  (List.range (ceilDiv h 4)).map fun y => (List.range (ceilDiv w 4)).map fun x =>
    min 255 ((blockSum (patch p (4 * x : Nat) (4 * y : Nat) 4 4) + 128) / 256)

/-- The sixteenth-resolution plane of a quarter plane (R221). -/
def sixteenthPlane (w h : Nat) (q : Plane) : Plane :=
  (List.range (ceilDiv h 16)).map fun y => (List.range (ceilDiv w 16)).map fun x =>
    (blockSum (patch q (4 * x : Nat) (4 * y : Nat) 4 4) + 8) / 16

/-! ### Costs (R195) -/

/-- Sum of absolute differences. -/
def sad (a b : List (List Nat)) : Nat :=
  ((a.zip b).map fun r => ((r.1.zip r.2).map fun v => max v.1 v.2 - min v.1 v.2).foldl (· + ·) 0).foldl (· + ·) 0

/-- One Hadamard butterfly stage of stride `n` over a row. -/
def butterfly (n : Nat) (r : List Int) : List Int :=
  (List.range r.length).map fun i =>
    if i / n % 2 == 0 then r.getD i 0 + r.getD (i + n) 0 else r.getD (i - n) 0 - r.getD i 0

/-- The 8-point Hadamard transform of a row. -/
def hadamardRow (r : List Int) : List Int := butterfly 4 (butterfly 2 (butterfly 1 r))

/-- Rows and columns exchanged. -/
def flipRows (p : List (List Int)) : List (List Int) :=
  (List.range (p.headD []).length).map fun x => p.map fun r => r.getD x 0

/-- Sum of absolute 8 × 8 Hadamard coefficients of a difference. -/
def hadamard8 (d : List (List Int)) : Nat :=
  (((flipRows ((flipRows (d.map hadamardRow)).map hadamardRow)).map fun r => (r.map Int.natAbs).foldl (· + ·) 0)).foldl (· + ·) 0

/-- The 8 × 8 part of a 16 × 16 block. -/
def sub8 {α : Type} (b : List (List α)) (i j : Nat) : List (List α) := ((b.drop (8 * j)).take 8).map fun r => (r.drop (8 * i)).take 8

/-- SATD of a 16 × 16 block against a prediction: four 8 × 8 sums, divided by 32, at most 65,535 (R195). -/
def satd (a b : List (List Nat)) : Nat :=
  let d := (a.zip b).map fun r => (r.1.zip r.2).map fun v => (v.1 : Int) - (v.2 : Int)
  min 65535 ((hadamard8 (sub8 d 0 0) + hadamard8 (sub8 d 1 0) + hadamard8 (sub8 d 0 1) + hadamard8 (sub8 d 1 1)) / 32)

/-- The sum of |sample − mean| of an 8 × 8 block, times 64. -/
def deviation (b : List (List Nat)) : Nat :=
  let m := blockSum b
  (b.map fun r => (r.map fun v => max (64 * v) m - min (64 * v) m).foldl (· + ·) 0).foldl (· + ·) 0

/-- ACTIVITY of a 16 × 16 block, its means exact (R195; log entry 35). -/
def activity (b : List (List Nat)) : Nat :=
  min 65535 ((deviation (sub8 b 0 0) + deviation (sub8 b 1 0) + deviation (sub8 b 0 1) + deviation (sub8 b 1 1)) / 1024)

/-- n ÷ d as a sample: exact where it is whole, otherwise rounded to one of its neighbours (log entry 17). -/
def roundSample (n d : Nat) : Nat := n / d + (if n % d == 0 then 0 else b2n (Config.roundsUp n d))

/-- The DC, planar, horizontal and vertical predictions of a 16 × 16 block from its left column and top row (R195; log entry 17). -/
def intraPredictions (left top : List Nat) : List (List (List Nat)) :=
  [List.replicate 16 (List.replicate 16 (roundSample ((left ++ top).foldl (· + ·) 0) 32)), Config.planarPredict left top,
   left.map fun v => List.replicate 16 v, List.replicate 16 top]

/-- The least of some costs, at most 65,535. -/
def leastCost (cs : List Nat) : Nat := cs.foldl min 65535

/-- INTRA of a 16 × 16 block from its neighbours: the best of the four predictions (R195). -/
def intraCost (blk : List (List Nat)) (left top : List Nat) : Nat := leastCost ((intraPredictions left top).map (satd blk))

/-- INTRA of block (bx, by), from the source's own samples (R195, R221). -/
def intraOf (p : Plane) (bx by_ : Nat) : Nat :=
  let x : Int := (16 * bx : Nat)
  let y : Int := (16 * by_ : Nat)
  intraCost (patch p x y 16 16) ((patch p (x - 1) y 1 16).map fun r => r.headD 0) ((patch p x (y - 1) 16 1).headD [])

/-! ### Searches (R222) -/

/-- A vector with its cost. -/
abbrev Cand := Nat × Int × Int

/-- The better of two candidates: lower cost, smaller |x| + |y|, earlier in raster order. -/
def better (a b : Cand) : Cand :=
  let l := fun c : Cand => c.2.1.natAbs + c.2.2.natAbs
  if a.1 < b.1 then a
  else if b.1 < a.1 then b
  else if l a < l b then a
  else if l b < l a then b
  else if a.2.2 < b.2.2 || (a.2.2 == b.2.2 && decide (a.2.1 ≤ b.2.1)) then a
  else b

/-- The best of some vectors under a measure. -/
def bestOf (cost : Int → Int → Nat) : List (Int × Int) → Option Cand
  | [] => none
  | v :: vs =>
    let c : Cand := (cost v.1 v.2, v.1, v.2)
    match bestOf cost vs with
    | some b => some (better c b)
    | none => some c

/-- Vectors within ±h, ±v of a centre, in raster order, `step` apart. -/
def around (c : Int × Int) (h v : Nat) (step : Int) : List (Int × Int) :=
  (List.range (2 * v + 1)).flatMap fun (j : Nat) => (List.range (2 * h + 1)).map fun (i : Nat) =>
    (c.1 + ((i : Int) - (h : Int)) * step, c.2 + ((j : Int) - (v : Int)) * step)

/-- The vector of a candidate; zero for none. -/
def vecOf (c : Option Cand) : Int × Int := (c.map fun k => (k.2.1, k.2.2)).getD (0, 0)

/-- The sixteenth-level vector of a 64 × 64 group, in sixteenth samples. -/
def groupVec (a b : Plane) (gx gy : Nat) : Int × Int :=
  let x : Int := (4 * gx : Nat)
  let y : Int := (4 * gy : Nat)
  let blk := patch a x y 4 4
  vecOf (bestOf (fun i j => sad blk (patch b (x + i) (y + j) 4 4)) (around (0, 0) 32 16 1))

/-- The quarter-level vector of a block, in quarter-resolution samples, from its group's and its left neighbour's. -/
def quarterVec (a b : Plane) (g left : Int × Int) (bx by_ : Nat) : Int × Int :=
  let x : Int := (4 * bx : Nat)
  let y : Int := (4 * by_ : Nat)
  let blk := patch a x y 4 4
  vecOf (bestOf (fun i j => sad blk (patch b (x + i) (y + j) 4 4))
    (around (g.1 * 4, g.2 * 4) 4 4 1 ++ around (0, 0) 4 4 1 ++ around left 4 4 1))

/-- The quarter-level vectors of a row of blocks, left to right. -/
def quarterRow (a b : Plane) (groups : List (Int × Int)) (by_ : Nat) : Int × Int → List Nat → List (Int × Int)
  | _, [] => []
  | left, bx :: xs =>
    let v := quarterVec a b (groups.getD (bx / 4) (0, 0)) left bx by_
    v :: quarterRow a b groups by_ v xs

/-- The 16 × 16 samples of a plane at a vector in quarter samples from (x, y), by bilinear interpolation (R222; log entry 17). -/
def bilinear (b : Plane) (x y : Int) (i j : Int) : List (List Nat) :=
  let u := (i % 4).toNat
  let v := (j % 4).toNat
  let r := patch b (x + i / 4) (y + j / 4) 17 17
  let s := fun (k m : Nat) => (r.getD k []).getD m 0
  (List.range 16).map fun k => (List.range 16).map fun m =>
    roundSample ((4 - u) * (4 - v) * s k m + u * (4 - v) * s k (m + 1) + (4 - u) * v * s (k + 1) m + u * v * s (k + 1) (m + 1)) 16

/-- Cost of a vector in quarter samples at full resolution: SATD, interpolated where it is fractional (R222). -/
def fullCost (blk : List (List Nat)) (b : Plane) (x y : Int) (i j : Int) : Nat :=
  satd blk (if i % 4 == 0 && j % 4 == 0 then patch b (x + i / 4) (y + j / 4) 16 16 else bilinear b x y i j)

/-- A vector within the search's reach, ±2,120 by ±1,096 quarter samples. -/
def inReach (v : Int × Int) : Bool := decide (v.1.natAbs ≤ 2120) && decide (v.2.natAbs ≤ 1096)

/-- The vector and cost of a block at full resolution: ±2 samples, then half- and quarter-sample steps (R222; log entry 36). -/
def fullVec (a b : Plane) (q : Int × Int) (bx by_ : Nat) : Cand :=
  let x : Int := (16 * bx : Nat)
  let y : Int := (16 * by_ : Nat)
  let blk := patch a x y 16 16
  let cost := fullCost blk b x y
  let one := fun (vs : List (Int × Int)) => (bestOf cost (vs.filter inReach)).getD (cost 0 0, 0, 0)
  let i := one (around (q.1 * 16, q.2 * 16) 2 2 4)
  let h := one (around (i.2.1, i.2.2) 1 1 2)
  one (around (h.2.1, h.2.2) 1 1 1)

/-- Every block of picture `a` searched in picture `b`, row by row: vectors in quarter samples with their costs. -/
def searchAll (w h : Nat) (a b : Plane) : List Cand :=
  let qa := quarterPlane w h a
  let qb := quarterPlane w h b
  let sa := sixteenthPlane w h qa
  let sb := sixteenthPlane w h qb
  (List.range (ceilDiv h 16)).flatMap fun by_ =>
    let groups := (List.range (ceilDiv w 64)).map fun gx => groupVec sa sb gx (by_ / 4)
    let xs := List.range (ceilDiv w 16)
    (xs.zip (quarterRow qa qb groups by_ (0, 0) xs)).map fun k => fullVec a b k.2 k.1 by_

/-! ### A picture's analysis (R221, R225, R227) -/

/-- The field of a picture: intra costs and activity, with the backward search where picture n − 1 is there. -/
def fieldOf (w h : Nat) (cur : Plane) (back : Option (List Cand)) : List MauBlock :=
  (List.range (ceilDiv h 16)).flatMap fun by_ => (List.range (ceilDiv w 16)).map fun bx =>
    let c := (back.bind fun cs => cs[by_ * ceilDiv w 16 + bx]?).getD (65535, 0, 0)
    { mvp := c.2, mvn := (0, 0), satdP := c.1, satdN := 65535, intra := intraOf cur bx by_
      act := activity (patch cur (16 * bx : Nat) (16 * by_ : Nat) 16 16) }

/-- The scene-cut score of a field (R227). -/
def sceneScore (first : Bool) (f : List MauBlock) : Nat :=
  let d := (f.map fun b => min b.satdP b.intra).foldl (· + ·) 0
  let i := (f.map MauBlock.intra).foldl (· + ·) 0
  if first then 255 else if i == 0 then 0 else (clampInt 0 255 ((512 * d / i : Nat) - 256)).toNat

/-- Mean luma, rounded down. -/
def meanLuma (w h : Nat) (p : Plane) : Nat := blockSum (patch p 0 0 w h) / max 1 (w * h)

/-- A field with the forward search of its blocks (R221 pass 3). -/
def withForward (f : List MauBlock) (cs : List Cand) : List MauBlock :=
  (f.zip cs).map fun k => { k.1 with mvn := k.2.2, satdN := k.2.1 }

end Sys2Proof.Machine
end

