-- ==== Sys2Proof/Machine/Prefilter.lean ====
section
/-! DEFINITION. What an encode unit works from: presets and search limits, seeds and hints, source pictures, the temporal pre-filter and film grain
(03_coding_core.md R69; 07_encoding.md R178, R185 to R187, R189; 09_motion_analysis.md R228). -/
namespace Sys2Proof.Machine

/-! ### Presets and limits (Tables 3-3 and 7-3) -/

/-- Tools of Table 7-3 beyond the base set. -/
inductive EncTool where
  | dmvr | bdof | affine | sbTmvp | obmc | gpm | mmvd | ciip | warped | wedge | transforms | alf | ccAlf | every
  deriving DecidableEq, Repr

/-- How a preset decides: by SATD, by SATD plus λ × rate, or by full rate-distortion over the best few. -/
inductive Decision where
  | satd | satdRate | full (best : Nat) | exhaustive
  deriving DecidableEq, Repr

/-- A row of Table 7-3: seeds per block, window per seed, references per list, half-sample vectors only, partition depths (0 for all), mode
decision, tools. -/
structure Preset where
  seeds    : Nat
  h        : Nat
  v        : Nat
  refs     : Nat
  coarse   : Bool
  depths   : Nat
  decision : Decision
  tools    : List EncTool
  deriving DecidableEq, Repr

/-- Tools that P4 has beyond the base set. -/
def toolsP4 : List EncTool := [.dmvr, .bdof, .affine, .sbTmvp, .obmc, .gpm, .mmvd, .ciip, .warped, .wedge]

/-- Table 7-3. -/
def presetOf (n : Nat) : Preset :=
  match n with
  | 0 => ⟨2, 16, 8, 1, true, 2, .satd, []⟩
  | 1 => ⟨4, 32, 16, 1, false, 3, .satd, []⟩
  | 2 => ⟨4, 32, 16, 2, false, 0, .satdRate, [.dmvr, .bdof]⟩
  | 3 => ⟨6, 48, 24, 2, false, 0, .full 2, [.dmvr, .bdof, .affine, .sbTmvp, .obmc]⟩
  | 4 => ⟨8, 64, 32, 3, false, 0, .full 4, toolsP4⟩
  | 5 => ⟨8, 64, 32, 4, false, 0, .full 8, toolsP4 ++ [.transforms, .alf, .ccAlf]⟩
  | _ => ⟨8, 64, 32, 4, false, 0, .exhaustive, toolsP4 ++ [.transforms, .alf, .ccAlf, .every]⟩

/-- Every preset stays inside Table 3-3. -/
def Preset.inLimits (p : Preset) : Bool :=
  decide (p.seeds ≤ 8) && decide (p.h ≤ 64) && decide (p.v ≤ 32) && decide (p.refs ≤ 4)

/-- Parts of a luma sample in which an encoder's vectors count: the codec's finest, or half samples at P0 (Tables 3-3, 7-3). -/
def fractionOf (p : Params) : Nat :=
  if (presetOf p.preset).coarse then 2
  else match p.codec with
    | 3 => 8
    | 4 => 16
    | _ => 4

/-- The vector range of a codec in luma samples: no more than ±2,048 from the block (Table 3-3). -/
def vectorRange (codec : Nat) : Nat := min 2048 (Config.mvRange codec)

/-- A vector in parts of `d` a sample, within its range. -/
def clampVec (codec d : Nat) (v : Int × Int) : Int × Int :=
  let r : Int := ((vectorRange codec * d : Nat) : Int)
  (clampInt (-r) r v.1, clampInt (-r) r v.2)

/-- n ÷ d rounded half away from zero (R184, R189, R195). -/
def roundAway (n : Int) (d : Nat) : Int := Int.tdiv (2 * n + (if n < 0 then -(d : Int) else (d : Int))) (2 * max 1 (d : Int))

/-! ### Seeds (R185, R189, R228) -/

/-- The MAU block of a field. -/
def AnaPic.at_ (a : AnaPic) (k : Nat × Nat) : Option MauBlock := a.field[k.2 * ceilDiv a.width 16 + k.1]?

/-- The seed vector of a MAU block for a reference at display distance Δ, exact, before scaling: MVP × |Δ| backwards, MVN × Δ forwards, the
other direction's negated where the one needed is absent, zero where both are (R228). -/
def MauBlock.towards (hasP hasN : Bool) (b : MauBlock) (d : Int) : Int × Int :=
  let by_ := fun (k : Int) (v : Int × Int) => (k * v.1, k * v.2)
  let n : Int := (d.natAbs : Int)
  if d < 0 then (if hasP then by_ n b.mvp else if hasN then by_ (-n) b.mvn else (0, 0))
  else (if hasN then by_ n b.mvn else if hasP then by_ (-n) b.mvp else (0, 0))

/-- A vector scaled from the source's resolution to the rendition's, in quarter samples, rounded once and clamped (R189). -/
def FieldMap.scale (f : FieldMap) (codec : Nat) (v : Int × Int) : Int × Int :=
  clampVec codec 4 (roundAway (v.1 * (f.wr : Int)) f.ws, roundAway (v.2 * (f.hr : Int)) f.hs)

/-- Seeds from the MAU field for a block: its mapped block's, and at presets with four or more seeds those of the blocks to the right and below,
clamped to the field (R189, R228). -/
def State.fieldSeeds (s : State) (n : Nat) (p : SrcPic) (bx by_ : Nat) (d : Int) : List (Int × Int) :=
  let m := p.at_ n
  match s.ana? m.1 m.2 with
  | none => []
  | some a =>
    let f := s.fieldMap n p
    let k := f.block a.width a.height bx by_
    let cw := ceilDiv a.width 16 - 1
    let ch := ceilDiv a.height 16 - 1
    let places := k :: if 4 ≤ (presetOf (s.sess n).par.preset).seeds then [(min (k.1 + 1) cw, k.2), (k.1, min (k.2 + 1) ch)] else []
    places.filterMap fun q => (a.at_ q).map fun b => f.scale (s.sess n).par.codec (b.towards (!a.first) a.fwd d)

/-- The record of a hint map for a block: vector and reference index of a valid one (R185). -/
def hintOf (p : Params) (bs : List Byte) (x y : Nat) : Option (Nat × Int × Int) :=
  let o := 64 * ceilDiv (ceilDiv p.maxW 16 * 8) 64 * y + 8 * x
  if bs.length < o + 8 || !(bs.getD (o + 4) 0).getLsbD 7 then none
  else some (bytesAt bs (o + 4) 1 % 16, signedOf 16 (bytesAt bs o 2), signedOf 16 (bytesAt bs (o + 2) 2))

/-- The seeds of a block in order of priority, as many as the preset takes: those of the field, neighbours' predictors, the zero vector; a valid
hint stands in place of the lowest neighbour, and one whose index names no reference is ignored (R69, R185; log entry 83). -/
def seedList (count refs : Nat) (field nbs : List (Int × Int)) (hint : Option (Nat × Int × Int)) : List (Int × Int) :=
  let k := max 1 (count - field.length - 1)
  let ns := nbs.take k
  let ns' := match hint with
    | some h => if h.1 < refs then ns.take (k - 1) ++ [h.2] else ns
    | none => ns
  (field ++ ns' ++ [(0, 0)]).take count

/-! ### Source pictures and the temporal pre-filter (R186) -/

/-- The samples of a source picture: what intake stored, the decoded picture itself, or what a pass stored. -/
def State.sourceSamples (s : State) (n : Nat) (p : SrcPic) : List Plane :=
  match p.feed with
  | some (m, r) =>
    if p.direct then
      match (s.sess m).pics.find? fun k => k.relIndex == some r with
      | some k => s.shownPlanes m k
      | none => []
    else s.pictureAt p.store.base (s.sess n).par.chroma p.width p.height
  | none => s.pictureAt (s.sourceRange n p).base (s.sess n).par.chroma p.width p.height

/-- The pictures that filter picture `p`: up to two either side that are still held and of its size, the later ones only as far as the lookahead
covers them (R186). -/
def State.filterPics (s : State) (n : Nat) (p : SrcPic) : List SrcPic :=
  (s.sess n).src.filter fun r => r.index != p.index && r.taken && r.width == p.width && r.height == p.height
    && decide (r.index ≤ p.index + 2) && decide (p.index ≤ r.index + 2) && decide (r.index ≤ p.index + s.lookaheadOf n p)

/-- The field vector from picture `ix` to the one before it, at the block that holds sample (x, y), in quarter samples of the rendition. -/
def State.backVec (s : State) (n : Nat) (p : SrcPic) (d : Int) (x y : Int) : Int × Int :=
  let m := p.at_ n
  match s.ana? m.1 ((m.2 : Int) + d).toNat with
  | some a =>
    let f := s.fieldMap n p
    let k := f.block a.width a.height (clampInt 0 (ceilDiv p.width 16 - 1 : Nat) (x / 16)).toNat (clampInt 0 (ceilDiv p.height 16 - 1 : Nat) (y / 16)).toNat
    ((a.at_ k).map fun b => f.scale (s.sess n).par.codec b.mvp).getD (0, 0)
  | none => (0, 0)

/-- The backward vectors chained picture by picture, from picture `p` to the one at distance Δ, in whole samples (R186, R228; log entry 85). -/
def State.chainVec (s : State) (n : Nat) (p : SrcPic) (d : Int) (x y : Int) : Int × Int :=
  let whole := fun (v : Int × Int) => (v.1 / 4, v.2 / 4)
  if d == -1 then whole (s.backVec n p 0 x y)
  else if d == -2 then
    let a := whole (s.backVec n p 0 x y)
    let b := whole (s.backVec n p (-1) (x + a.1) (y + a.2))
    (a.1 + b.1, a.2 + b.2)
  else if d == 1 then let a := whole (s.backVec n p 1 x y); (-a.1, -a.2)
  else
    let a := whole (s.backVec n p 1 x y)
    let b := whole (s.backVec n p 2 (x - a.1) (y - a.2))
    (-(a.1 + b.1), -(a.2 + b.2))

/-- Sum of squared differences of two blocks. -/
def ssd (a b : List (List Nat)) : Nat :=
  ((a.zip b).map fun r => ((r.1.zip r.2).map fun v => (max v.1 v.2 - min v.1 v.2) ^ 2).foldl (· + ·) 0).foldl (· + ·) 0

/-- Weight of a neighbour's block, with 16 fractional bits: (4 − |Δ|) × 2^s ÷ (16 + SSD ÷ 256), half of it in a key picture (R186). -/
def filterWeight (key : Bool) (d strength e : Nat) : Nat := (4 - d) * 2 ^ strength * 256 * 65536 / (4096 + e) / (if key then 2 else 1)

/-- A block's neighbours: planes, vector refined by ±2 samples, weight (R186). -/
def State.filterBlock (s : State) (n : Nat) (p : SrcPic) (cur : List Plane) (ns : List (Int × List Plane)) (bx by_ : Nat) :
    List (List Plane × (Int × Int) × Nat) :=
  let x : Int := (16 * bx : Nat)
  let y : Int := (16 * by_ : Nat)
  let blk := patch (cur.headD []) x y 16 16
  ns.map fun k =>
    let luma := k.2.headD []
    let v := vecOf (bestOf (fun i j => sad blk (patch luma (x + i) (y + j) 16 16)) (around (s.chainVec n p k.1 x y) 2 2 1))
    (k.2, v, filterWeight p.key k.1.natAbs (s.sess n).par.tpf (ssd blk (patch luma (x + v.1) (y + v.2) 16 16)))

/-- A sample weighed with its neighbours', the picture's own weight 16 (R186). -/
def filterSample (cur : Nat) (ns : List (Nat × Nat)) : Nat :=
  let w := 16 * 65536 + (ns.map Prod.snd).foldl (· + ·) 0
  (16 * 65536 * cur + (ns.map fun k => k.1 * k.2).foldl (· + ·) 0 + w / 2) / w

/-- The coding source of a picture: pre-filtered where TPF is not 0 (R186). -/
def State.codingSource (s : State) (n : Nat) (p : SrcPic) : List Plane :=
  let v := (s.sess n).par
  let cur := s.sourceSamples n p
  if v.tpf == 0 then cur
  else
    let ns := (s.filterPics n p).map fun r => ((r.index : Int) - (p.index : Int), s.sourceSamples n r)
    let cw := ceilDiv p.width 16
    let table := (List.range (ceilDiv p.height 16)).flatMap fun y => (List.range cw).map fun x => s.filterBlock n p cur ns x y
    (List.range cur.length).map fun c =>
      let sx := if c == 0 then 1 else subX v.chroma
      let sy := if c == 0 then 1 else subY v.chroma
      let pl := cur.getD c []
      (List.range pl.length).map fun y => (List.range (pl.getD y []).length).map fun x =>
        filterSample ((pl.getD y []).getD x 0) ((table.getD (y * sy / 16 * cw + x * sx / 16) []).map fun k =>
          (edgeAt (k.1.getD c []) ((x : Int) + k.2.1.1 / (sx : Int)) ((y : Int) + k.2.1.2 / (sy : Int)), k.2.2))

/-! ### Film grain (R187) -/

/-- The 32 × 32 blocks whose activity is below the picture's 25th percentile. -/
def quietBlocks (a : AnaPic) : List (Nat × Nat) :=
  let cw := ceilDiv a.width 16
  let act := fun (k : Nat × Nat) => ([(0, 0), (1, 0), (0, 1), (1, 1)].map fun d => ((a.at_ (2 * k.1 + d.1, 2 * k.2 + d.2)).map MauBlock.act).getD 0).foldl (· + ·) 0
  let bs := (List.range (ceilDiv a.height 32)).flatMap fun y => (List.range (ceilDiv cw 2)).map fun x => (x, y)
  let sorted := sortBy (fun v : Nat => (v : Int)) (bs.map act)
  bs.filter fun k => decide (act k < sorted.getD (sorted.length / 4) 0)

/-- The scaling values that a shown frame's film grain is fitted to: 14 points for each of three components (R187; log entry 80). -/
def State.fitGrain (s : State) (n : Nat) (p : SrcPic) : List Nat :=
  let m := p.at_ n
  match s.ana? m.1 m.2 with
  | some a => (List.range 42).map fun k => (Config.grainPoint k (quietBlocks a) (s.sourceSamples n p) (s.codingSource n p)).toNat
  | none => List.replicate 42 0

/-- New values are sent on key frames, where a value moves by more than 8, and where no earlier frame carried any: update_grain (R187). -/
def grainUpdates (key : Bool) (old new : List Nat) : Bool :=
  key || old.isEmpty || (old.zip new).any fun k => decide (8 < max k.1 k.2 - min k.1 k.2)

/-- What a shown frame carries: apply_grain, update_grain, grain_seed, ar_coeff_lag and the scaling values (R187). -/
def State.grainFacts (s : State) (n : Nat) (p : SrcPic) : List Nat :=
  let x := s.sess n
  if !x.par.grainEst then []
  else
    let new := s.fitGrain n p
    let up := grainUpdates p.key x.grain new
    1 :: b2n up :: p.index % 65536 :: 3 :: (if up then new else x.grain)

end Sys2Proof.Machine
end

