-- ==== Sys2Proof/Machine/Fifo.lean ====
section
/-! DEFINITION. The output stream FIFO of an encode half: packing, slots, emulation prevention, granule writes, flushes, overruns
and progress records (05_codec_support.md R134 to R142). -/
namespace Sys2Proof.Machine

/-! ### Stream bytes (R134 to R136) -/

/-- Some unit is open: its end has not entered. -/
def Fifo.inUnit (f : Fifo) : Bool :=
  match f.units.getLast? with
  | some u => (match u.endAt with
    | none => true
    | some e => decide (f.bytes.length < e))
  | none => false

/-- One byte enters; inside a NAL unit an emulation-prevention byte goes before it where two zeros precede a byte up to 3 (R135). -/
def Fifo.pushByte (p : Params) (f : Fifo) (b : Byte) : Fifo :=
  let esc := decide (p.bsFormat ≤ 1) && f.inUnit && decide (2 ≤ f.zeros) && decide (b.toNat ≤ 3)
  { f with
    bytes := f.bytes ++ (if esc then [0x03, b] else [b])
    zeros := if b != 0 then 0 else if esc then 1 else f.zeros + 1 }

/-- Bytes enter in order. -/
def Fifo.push (p : Params) : Fifo → List Byte → Fifo
  | f, [] => f
  | f, b :: bs => Fifo.push p (f.pushByte p b) bs

/-- Bytes of a slot (R136). -/
def slotBytes (p : Params) : Nat := if p.bsFormat == 1 then p.prefixBytes + 1 else if p.bsFormat == 2 then 4 else 0

/-- Bytes of a unit before its slot: an OBU's header with its extension byte. -/
def slotLead (p : Params) (b : Byte) : Nat := if p.bsFormat == 2 then (if b.getLsbD 2 then 2 else 1) else 0

/-- Position of a unit's slot. -/
def FifoUnit.slotAt (u : FifoUnit) (p : Params) (f : Fifo) : Nat := u.start + slotLead p (f.bytes.getD u.start 0)

/-- A length as a slot holds it: a prefix of either byte order, or a 4-byte leb128 (R136). -/
def slotValue (p : Params) (n : Nat) : List Byte :=
  if p.bsFormat == 2 then (List.range 4).map fun i => BitVec.ofNat 8 (n / 2 ^ (7 * i) % 128 + if i < 3 then 128 else 0)
  else if p.prefixBig then (leBytes (slotBytes p) n).reverse
  else leBytes (slotBytes p) n

/-- Bytes replaced in place. -/
def overwrite (bs : List Byte) (at_ : Nat) (v : List Byte) : List Byte := bs.take at_ ++ v ++ bs.drop (at_ + v.length)

/-- The last unit ends at `e`; its slot is filled where unit and slot lie within the buffer's `room` (R136, R141). -/
def Fifo.endUnit (p : Params) (room e : Nat) (f : Fifo) : Fifo :=
  match f.units.getLast? with
  | none => f
  | some u =>
    let at_ := u.slotAt p f
    let ok := decide (e ≤ room) && !f.overrun
    { f with
      units := f.units.dropLast ++ [{ u with endAt := some e, filled := ok }]
      bytes := if ok && u.slot != 0 then overwrite f.bytes at_ (slotValue p (e - at_ - u.slot)) else f.bytes }

/-- The start code of Annex B form (R132). -/
def startCode (p : Params) : List Byte := if p.bsFormat == 0 then [0, 0, 0, 1] else []

/-- A unit begins after its start code: its slot is reserved, and filled at once where the unit's size is fixed (R132, R136). -/
def Fifo.beginUnit (p : Params) (room : Nat) (size : Option Nat) (bs : List Byte) (f : Fifo) : Fifo :=
  let lead := slotLead p (bs.headD 0)
  let n := slotBytes p
  let at_ := f.bytes.length + (startCode p).length
  let u : FifoUnit := { start := at_, slot := n, endAt := none, filled := false }
  let g := Fifo.push p { f with bytes := f.bytes ++ startCode p, zeros := 0, units := f.units ++ [u] } (bs.take lead)
  let k := { g with bytes := g.bytes ++ List.replicate n 0, zeros := 0 }
  let m := match size with
    | some z => k.endUnit p room (k.bytes.length + z)
    | none => k
  Fifo.push p m (bs.drop lead)

/-- The open unit ends with the bytes that have entered. -/
def Fifo.closeUnit (p : Params) (room : Nat) (f : Fifo) : Fifo :=
  if f.units.getLast?.any fun u => u.endAt.isNone then f.endUnit p room f.bytes.length else f

/-- Bytes enter with their mark; a unit that begins ends the one before it (R134, R136). -/
def Fifo.feed (p : Params) (room : Nat) (m : FifoMark) (bs : List Byte) (f : Fifo) : Fifo :=
  match m with
  | .none => Fifo.push p f bs
  | .unitStart size => (f.closeUnit p room).beginUnit p room size bs
  | .unitEnd => (Fifo.push p f bs).closeUnit p room

/-- A unit whose bytes enter as they are, without emulation prevention. -/
def Fifo.rawUnit (p : Params) (room : Nat) (bs : List Byte) (f : Fifo) : Fifo :=
  let g := (f.closeUnit p room).beginUnit p room none []
  { g with bytes := g.bytes ++ bs }.closeUnit p room

/-- A frame that stands complete in the staging area, its slot filled: it enters as it is (R181). -/
def Fifo.copyUnit (bs : List Byte) (f : Fifo) : Fifo :=
  { f with
    bytes := f.bytes ++ bs
    units := f.units ++ [{ start := f.bytes.length, slot := 0, endAt := some (f.bytes.length + bs.length), filled := true }] }

/-- Stream bytes in the FIFO: those whose writes the Memory Fabric has not acknowledged (R134; log entry 81). -/
def Fifo.level (f : Fifo) : Nat := f.bytes.length - f.acked

/-- The FIFO's 2 KiB are full; after an overrun it takes every word (R134, R141). -/
def Fifo.full (f : Fifo) : Bool := !f.overrun && decide (2048 ≤ f.level)

/-- The superframe index of BS_FORMAT 3 follows two or more frames, its size fields 4 bytes wide (R136, Table 5-9; log entry
27). -/
def Fifo.superframe (p : Params) (f : Fifo) : Fifo :=
  if p.bsFormat == 3 && decide (2 ≤ f.units.length) then
    let mark : Byte := BitVec.ofNat 8 (0xD8 + (f.units.length - 1) % 8)
    { f with bytes := f.bytes ++ mark :: (f.units.flatMap fun u => leBytes 4 (u.endAt.getD f.bytes.length - u.start)) ++ [mark] }
  else f

/-! ### Filler (R212) -/

/-- Filler bytes after a coded picture unit of `n` bytes: mode 1 of the codecs that have filler data. -/
def fillerBytes (x : Session) (n : Nat) : Nat :=
  if x.par.rcMode == 1 && !x.par.isVp then
    ceilDiv (x.rc.f - ((8 * n * 65536 : Nat) : Int) + (arrival x.par : Int) - (bufBits x.par : Int)).toNat 524288
  else 0

/-- Sizes of the filler data NAL units of `n` bytes in all, each of at most 65,536 bytes. -/
def fillSizes : Nat → Nat → List Nat
  | 0, _ => []
  | fuel + 1, n => if n == 0 then [] else min n 65536 :: fillSizes fuel (n - 65536)

/-- The FIFO with filler data NAL units after its last unit, each with its start code or slot (R132, R136). -/
def Fifo.fill (p : Params) (room : Nat) : List Nat → List Byte → Fifo → Fifo
  | [], _, f => f
  | n :: ns, bs, f => Fifo.fill p room ns (bs.drop n) (f.rawUnit p room (bs.take n))

/-- Bytes that a destination has for a unit of a session (R141); the staging area does not fill (R137). -/
def roomOf (staged : Bool) (w : Window) (off : Nat) : Nat := if staged then 2 ^ 64 else w.size - off

/-! ### The destination (R137, R141, R191) -/

/-- The unit's frame is held in the staging area rather than written to the destination (R181). -/
def State.staged (s : State) (u : WUnit) : Bool :=
  !u.show_ && ((s.sess u.session).pic? u.pic).any fun p => p.hiddenWith

/-- The rendition of a unit in its entry. -/
def State.rendOf (s : State) (u : WUnit) : Option RendRes :=
  match (s.queue u.q).entry? u.seq with
  | some e => if u.rend.isSome then e.rends.find? fun r => r.session == u.session else none
  | none => none

/-- Bytes of earlier pictures of the entry that stand in the buffer. -/
def State.streamOff (s : State) (u : WUnit) : Nat := ((s.rendOf u).map RendRes.bytes).getD 0

/-- Bytes that the buffer still has for the unit (R141). -/
def State.room (s : State) (u : WUnit) : Nat := roomOf (s.staged u) (u.windows.getD 1 noWindow) (s.streamOff u)

/-- Where a unit's stream begins: space and address. A hidden frame goes to the second part of the staging area (R181; log entry 34). -/
def State.streamAt (s : State) (u : WUnit) : Nat × Nat :=
  let w := u.windows.getD 1 noWindow
  if s.staged u then (1, (s.sess u.session).stageR.base + stagePic (s.sess u.session).par) else (w.space, w.base + s.streamOff u)

/-- Stream bytes from `a` below `b` are written through window 1, or to the staging area; an ack is awaited for device lines (R45). -/
def State.writeStream (s : State) (u : WUnit) (f : Fifo) (a b : Nat) : State :=
  let w := s.streamAt u
  let bs := (f.bytes.drop a).take (b - a)
  let t := if s.staged u then s.devWrite (w.2 + a) bs else s.entryOut u.q u.seq u.fn w.1 (w.2 + a) bs
  if bs.isEmpty then s
  else t.modUnit u.uid fun v => { v with lines := if w.1 == 1 then v.lines ++ linesOf (w.2 + a) bs.length else v.lines }

/-- The writes of a unit so far are acknowledged: what was written has left the FIFO (R134, R139). -/
def State.ackFifo (s : State) (u : WUnit) (h : Nat) : State :=
  let v := (s.unit? u.uid).getD u
  if s.linesAcked v.lines && (s.func u.fn).held.isEmpty then s.modHalf h fun x => { x with fifo := { x.fifo with acked := x.fifo.written } } else s

/-! ### Progress records (R139, R140) -/

/-- Units written whole, with their slots; their acknowledgement is awaited before the record that covers them is written (R139, R140). -/
def Fifo.complete (f : Fifo) : List FifoUnit :=
  f.units.takeWhile fun u => u.filled && u.endAt.any fun e => decide (e ≤ f.written)

/-- Address and space of the progress record a unit's entry or rendition asks for; address 0 for none. -/
def State.progAt (s : State) (u : WUnit) : Nat × Nat :=
  match (s.queue u.q).entry? u.seq with
  | some e => if u.rend.isSome then let r := e.rendDesc u.session; (e64 r 24, e8 r 54) else let b := e.blocks.headD 0; (e64 b 16, e8 b 26)
  | none => (0, 0)

/-- The progress record of a unit as its FIFO stands; `done` in the drain (R139, Table 5-10). -/
def State.progRec (s : State) (u : WUnit) (f : Fifo) (done : Bool) : ProgRec :=
  let c := f.complete
  let bytes := s.streamOff u + ((c.getLast?.bind FifoUnit.endAt).getD 0)
  let flags := b2n done * 2 + b2n f.overrun
  let a := s.progAt u
  { rend := if u.rend.isSome then some u.session else none, bytes := bytes, flags := flags, space := a.2, addr := a.1
    data := leBytes 16 (put 0 0 (bytes % 2 ^ 32) + put 4 0 (((s.rendOf u).map RendRes.units).getD 0 + c.length) + put 8 0 flags + put 12 0 u.seq.toNat) }

/-- A progress record falls due: it replaces an earlier one of the same output, and is written once the writes are acknowledged (R140). -/
def State.progress (s : State) (u : WUnit) (f : Fifo) (done : Bool) : State :=
  if s.staged u then s
  else
    let r := s.progRec u f done
    (s.modEntry u.q u.seq fun e => { e with due := e.due.filter (fun k => k.rend != r.rend) ++ [r] }).putDue u.q u.seq

/-! ### Writes (R134, R138, R141) -/

/-- Stream bytes that filled granules hold: up to the last 64-byte boundary of the destination. -/
def filledTo (base n : Nat) : Nat := let e := (base + n) / 64 * 64; if e ≤ base then 0 else e - base

/-- Where the granule of the next byte begins in the stream. -/
def granuleOf (base n : Nat) : Nat := (base + n) / 64 * 64 - base

/-- The FIFO writes its granules up to stream byte `n`, each from its start: one that left in part is written again whole
(R134, R138). -/
def State.fifoWrite (s : State) (u : WUnit) (h n : Nat) : State :=
  let f := (s.half h).fifo
  if n ≤ f.written then s
  else ((s.writeStream u f (granuleOf (s.streamAt u).2 f.written) n).modHalf h fun x => { x with fifo := { x.fifo with written := n, timer := s.time } }).ackFifo
    u h

/-- The buffer overruns: what lies inside it is written, and one record tells (R141). -/
def State.overrunFifo (s : State) (u : WUnit) (h : Nat) : State :=
  let t := (s.fifoWrite u h (s.room u)).modHalf h fun x => { x with fifo := { x.fifo with overrun := true } }
  t.progress u (t.half h).fifo false

/-- Slots filled after their granules had left are written by themselves (R136). -/
def State.writeSlots (s : State) (u : WUnit) (h : Nat) (old : Fifo) : State :=
  let f := (s.half h).fifo
  let p := (s.parOf u)
  forEach (f.units.filter fun k => k.filled && k.slot != 0 && old.units.any fun o => o.start == k.start && !o.filled) (fun k t =>
    let at_ := k.slotAt p f
    if at_ < old.written then t.writeStream u f at_ (min (at_ + k.slot) old.written) else t) s

/-- The FIFO of a half after bytes have entered it: slots, granules, an overrun (R134, R136, R141). -/
def State.fifoTakes (s : State) (u : WUnit) (h : Nat) (change : Params → Nat → Fifo → Fifo) : State :=
  let old := (s.half h).fifo
  let f := change (s.parOf u) (s.room u) old
  let g := { f with timer := if old.written == old.bytes.length then s.time else f.timer }
  let t := (s.modHalf h fun x => { x with fifo := g }).writeSlots u h old
  if g.overrun then t
  else if s.room u < g.bytes.length then t.overrunFifo u h
  else t.fifoWrite u h (filledTo (s.streamAt u).2 g.bytes.length)

/-- Bytes enter the FIFO of a half with their mark (R134 to R136, R141). -/
def State.feedFifo (s : State) (u : WUnit) (h : Nat) (m : FifoMark) (bs : List Byte) : State :=
  s.fifoTakes u h fun p room f => f.feed p room m bs

/-- The FIFO of a half holds bytes not yet written. -/
def Half.holdsBytes (x : Half) : Bool := !x.fifo.overrun && decide (x.fifo.written < x.fifo.bytes.length)

/-- The timer of R138 expires: every held byte is written, and a progress record. -/
def tailFlushOp (h : Nat) (s : State) : State :=
  match s.running? h with
  | none => s
  | some u =>
    let tmo := (s.sess u.session).par.fifoTmo
    if tmo == 0 || !(s.half h).holdsBytes then s
    else
      let t := (s.reach ((s.half h).fifo.timer + 100 * tmo)).fifoWrite u h (s.half h).fifo.bytes.length
      t.progress u (t.half h).fifo false

def execFifoTailFlush (half : Nat) (s : State) : Res :=
  .next (onlyIf (s.live && isHalf half && s.halfServes half && half % 2 == 1) (tailFlushOp half) s)

end Sys2Proof.Machine
end

