-- ==== Sys2Proof/Machine/Stream.lean ====
section
/-! DEFINITION. The bytes of a coded picture unit: the units before its first slice or frame, slices, pieces in the staging area, hidden
frames, filler and the drain (05_codec_support.md R132, R133, R137; 07_encoding.md R181 to R183; 08_rate_control.md R212, R213). What a
coding standard's syntax holds stands as functions of Config without a body (log entry 80). -/
namespace Sys2Proof.Machine

/-! ### Units before the first slice or frame (R132, R182, R213, Table 5-9) -/

/-- What a session's header and level give to its parameter sets (R513). -/
def Params.header (p : Params) : List Nat := [p.profile, p.encTier, p.level, p.maxW, p.maxH, p.chroma, p.depthY, p.depthC, p.dpbSlots]

/-- The model of R211 as the stream signals it: constant rate, arrival rate in bit/s, buffer in bits, initial fullness and picture rate;
nothing without HRD_SIGNAL, without a model, or for VP9, which has no syntax (R213). -/
def hrdFigures (p : Params) : List Nat :=
  if p.hrdSignal && p.rated && p.codec != 2 then
    [b2n (p.rcMode == 1), (if p.rcMode == 1 then p.bitrate else p.maxBitrate) * 1000, p.bufSize * 1000, p.initFullness, p.fpsNum, p.fpsDen]
  else []

/-- Kinds of parameter set of a codec in order: 0 VPS, 1 SPS, 2 PPS, 3 APS, 4 sequence header (Table 5-9). -/
def setKinds (codec : Nat) : List Nat :=
  match codec with
  | 0 => [1, 2]
  | 1 => [0, 1, 2]
  | 2 => []
  | 3 => [4]
  | _ => [1, 2, 3]

/-- The parameter sets or sequence header of a session's parameters; the OBU's header byte is that of type 1 with a size field. -/
def setUnits (p : Params) : List (List Byte) :=
  (setKinds p.codec).map fun k =>
    let b := Config.paramSet p.codec k p.header p.block (hrdFigures p)
    if p.codec == 3 then 0x0A :: b else b

/-- The items of SEI_DATA (Table 14-6). -/
def itemsOf : Nat → List Byte → List (List Byte)
  | 0, _ => []
  | fuel + 1, bs => if bs.isEmpty then [] else let n := bytesAt bs 0 2; (bs.drop 2).take n :: itemsOf fuel (bs.drop (2 + n))

/-- The SEI messages or metadata OBUs set in session parameters; an OBU goes out with obu_has_size_field 1 (R132; Table 14-6). -/
def Params.seiUnits (p : Params) : List (List Byte) :=
  let items := itemsOf p.seiLen (leBytes p.seiLen (p.at 0x0C8 0 6080))
  if p.codec == 3 then items.map fun b => (b.headD 0 ||| 2) :: b.drop 1 else items

/-- The first picture of a refresh sweep (R182). -/
def SrcPic.sweeps (p : SrcPic) : Bool := p.band == some 0

/-- The picture is a random access point: a key picture, or the first of a refresh sweep where the codec has a sign for it (R132, R182,
Table 6-4). -/
def SrcPic.isRap (v : Params) (p : SrcPic) : Bool := p.key || (p.sweeps && !v.isVp)

/-- Parameter sets are due: at a random access point, at the first picture after create or reset, and after a change that alters them (R132). -/
def Session.setsDue (x : Session) (v : Params) (p : SrcPic) (show_ : Bool) : Bool := (p.isRap v && !show_) || x.headSets != some (setUnits v)

/-- What a picture's own units say of it: type, layer, order, size, refresh sweep, references, and the buffer's fullness in the model of
R211. -/
def picFacts (x : Session) (v : Params) (p : SrcPic) (show_ : Bool) : List Int :=
  [(p.kind : Int), p.layer, p.index, p.codedIx.getD 0, p.width, p.height, b2n show_, b2n (p.sweeps && v.codec == 4), v.keyType, x.rc.f]
    ++ p.refs.map fun r : Nat => (r : Int)

/-- SEI messages that the encoder generates: 1 buffering period at a key picture, 2 picture timing, 3 recovery point with
recovery_frame_cnt REFRESH_PERIOD − 1 at the first picture of a sweep (R182, R213, Table 5-9). -/
def ownSei (x : Session) (v : Params) (p : SrcPic) : List (List Byte) :=
  let hrd := !(hrdFigures v).isEmpty
  (if hrd && p.key then [Config.pictureUnit v.codec 1 (picFacts x v p false)] else [])
    ++ (if hrd then [Config.pictureUnit v.codec 2 (picFacts x v p false)] else [])
    ++ (if p.sweeps && !p.key && (v.codec == 0 || v.codec == 1) then [Config.pictureUnit v.codec 3 [(v.refreshPeriod : Int) - 1]] else [])

/-- The units of a coded picture unit before its first slice or frame, in the order of Table 5-9; a temporal delimiter's size is fixed. -/
def headUnits (x : Session) (v : Params) (p : SrcPic) (show_ : Bool) : List (FifoMark × List Byte) :=
  let sets := if x.setsDue v p show_ then setUnits v else []
  match v.codec with
  | 2 => []
  | 3 => (.unitStart (some 0), [0x12]) :: (sets ++ v.seiUnits).map fun b => (.unitStart none, b)
  | _ => ((if v.audEn then [Config.pictureUnit v.codec 0 (picFacts x v p show_)] else []) ++ sets ++ ownSei x v p ++ v.seiUnits).map
      fun b => (.unitStart none, b)

/-- The head units of a unit's picture; a hidden frame held in the staging area has none. -/
def State.heads (s : State) (u : WUnit) : List (FifoMark × List Byte) :=
  match (s.sess u.session).pic? u.pic with
  | some p => if s.staged u then [] else headUnits (s.sess u.session) (s.parOf u) p u.show_
  | none => []

/-- The header of the slice or frame that begins at a CTU: of OBU_FRAME, or of OBU_FRAME_HEADER where a hidden frame is shown (R132, R181). -/
def State.sliceHead (s : State) (u : WUnit) (first : Nat) : List Byte :=
  let v := s.parOf u
  match (s.sess u.session).pic? u.pic with
  | some p =>
    let grain := if u.show_ || s.staged u then [] else (s.grainFacts u.session p).map fun k : Nat => (k : Int)
    let b := Config.sliceHead v.codec v.header v.block (hrdFigures v) (picFacts (s.sess u.session) v p u.show_ ++ grain) first
    if v.codec == 3 then (if u.show_ then 0x1A else 0x32) :: b else b
  | none => []

/-! ### Slices (R133, R183) -/

/-- The CTUs at which the slices of a picture begin: SLICES of them on CTU-row boundaries, of equal CTU count; one in a picture of tiles
and in VP9 and AV1 (R183; log entry 82). -/
def sliceStarts (p : Params) (w h : Nat) : List Nat :=
  let cw := ceilDiv w (encCtu p.codec)
  let ch := ceilDiv h (encCtu p.codec)
  if p.isVp || segForm p w == .tiles then [0]
  else ((List.range p.slices).map fun i => i * ch / p.slices * cw).eraseDups

/-- The bytes that a slice NAL unit may hold before it is closed early: cap − w (R133). -/
def sliceBound (p : Params) : Nat :=
  let c := encCtu p.codec
  let raw := ceilDiv (c * c * spp2 p.chroma * p.depthY) 16
  2 ^ (8 * (p.prefixBytes + 1)) - 1 - (ceilDiv (5 * raw) 3 + 256)

/-- The standard permits a slice to end after `done` CTUs of rows of `cols`: after any macroblock of AVC and any CTU of HEVC without
wavefronts, otherwise at the end of a row (PRESUMED, log entry 82). -/
def sliceMayEnd (p : Params) (w done cols : Nat) : Bool :=
  p.codec == 0 || (p.codec == 1 && segForm p w != .wavefront && p.parallel != 3) || done % max 1 cols == 0

/-! ### Pieces in the staging area (R137) -/

/-- Bytes of a run of chunks. -/
def chunkBytes (cs : List (FifoMark × Nat)) : Nat := (cs.map Prod.snd).foldl (· + ·) 0

/-- The part of its picture that a unit writes: 0 the head units, k + 1 segment k. -/
def WUnit.part (u : WUnit) : Nat := if u.kind == .segment then u.seg + 1 else 0

/-- Where a part of a picture lies in the staging area: the head units first, then each segment after the hard shares of those before it
(R137, R206; DESIGN CHOICE, log entry 81). -/
def Session.pieceAt (x : Session) (pic part : Nat) : Nat :=
  let heads := ((x.results.find? fun r => r.pic == pic).bind fun r => r.pieces.find? fun k => k.part == 0).map fun k => chunkBytes k.chunks
  let shares := ((x.plan? pic).map Plan.segs).getD []
  x.stageR.base + if part == 0 then 0 else heads.getD 0 + ((shares.take (part - 1)).map fun g => g.1).foldl (· + ·) 0

/-- A run of bytes with its mark joins a piece. -/
def addChunk (m : FifoMark) (n : Nat) (cs : List (FifoMark × Nat)) : List (FifoMark × Nat) :=
  match m, cs.getLast? with
  | .none, some (k, j) => if k == .unitEnd then cs ++ [(m, n)] else cs.dropLast ++ [(k, j + n)]
  | _, _ => cs ++ [(m, n)]

/-- Bytes of a unit's piece are written to the staging area through window 4 (R137). -/
def State.stageBytes (s : State) (u : WUnit) (h : Nat) (m : FifoMark) (bs : List Byte) : State :=
  let a := (s.sess u.session).pieceAt u.pic u.part + (s.half h).fifo.bytes.length
  ((s.devWrite a bs).modUnit u.uid fun v => { v with lines := v.lines ++ linesOf a bs.length }).modHalf h fun x =>
    { x with fifo := { x.fifo with bytes := x.fifo.bytes ++ bs, chunks := addChunk m bs.length x.fifo.chunks } }

/-- A piece stands complete as its unit sends its commit. -/
def State.keepPiece (s : State) (u : WUnit) (h : Nat) : State :=
  s.modSess u.session fun x => x.modResult u.pic fun r =>
    { r with pieces := r.pieces.filter (fun k => k.part != u.part) ++ [⟨u.part, (s.half h).fifo.chunks⟩] }

/-- The head units of a picture cut into a gang are staged by its picture start. -/
def State.stageHeads (s : State) (u : WUnit) (h : Nat) : State :=
  (forEach (s.heads u) (fun k t => t.stageBytes u h k.1 k.2) s).keepPiece u h

/-- Bytes of the unit that is open in a piece; none where none is. A piece that does not begin a slice goes on with the unit before it. -/
def stagedOpen (begins : Bool) (cs : List (FifoMark × Nat)) : Option Nat :=
  cs.foldl (fun o c => match c.1 with
    | .none => o.map (· + c.2)
    | .unitStart _ => some c.2
    | .unitEnd => none) (if begins then none else some 0)

/-- Bytes that the slice or frame now being coded holds; none where none is open. -/
def State.openBytes (s : State) (u : WUnit) (h : Nat) : Option Nat :=
  let f := (s.half h).fifo
  if u.kind == .segment then
    stagedOpen (((s.sess u.session).pic? u.pic).any fun p => (sliceStarts (s.parOf u) p.width p.height).contains u.first) f.chunks
  else match f.units.getLast? with
    | some k => if k.endAt.isNone then some (f.bytes.length - (k.slotAt (s.parOf u) f + k.slot)) else none
    | none => none

/-! ### Entering the FIFO (R137, R181) -/

/-- A piece is copied from the staging area through the FIFO. -/
def State.copyPiece (s : State) (u : WUnit) (h part : Nat) : State :=
  let x := s.sess u.session
  match (x.result u.pic).pieces.find? fun k => k.part == part with
  | none => s
  | some k =>
    (k.chunks.foldl (fun (a : State × Nat) c =>
      (a.1.feedFifo u h c.1 (a.1.memRead (x.pieceAt u.pic part + a.2) c.2), a.2 + c.2)) (s, 0)).1

/-- A hidden frame that the session holds is copied from the staging area ahead of the shown frame (R174, R181). -/
def State.copyHidden (s : State) (u : WUnit) (h : Nat) : State :=
  let x := s.sess u.session
  match x.hiddenHeld with
  | some f =>
    if s.staged u then s
    else
      let bs := s.memRead (x.stageR.base + stagePic x.par) f.2
      s.fifoTakes u h fun p room k => (k.closeUnit p room).copyUnit bs
  | none => s

/-- The first bytes of a picture enter the FIFO: head units, staged or as they come, a hidden frame, and all of a unit that shows one. -/
def State.openFifo (s : State) (u : WUnit) (h : Nat) : State :=
  if (s.half h).fifo.opened then s
  else
    let t := s.modHalf h fun x => { x with fifo := { x.fifo with opened := true } }
    let v := if u.kind == .finish then t.copyPiece u h 0
      else forEach (s.heads u) (fun k z => z.fifoTakes u h fun p room f => (f.feed p room k.1 k.2).closeUnit p room) t
    let w := ((v.fifoTakes u h fun p room f => f.closeUnit p room).copyHidden u h).modHalf h fun x =>
      { x with fifo := { x.fifo with head := x.fifo.bytes.length } }
    if u.show_ then w.feedFifo u h (.unitStart none) (s.sliceHead u 0) else w

/-- Bytes of coded data go to the FIFO, or of a segment to the staging area (R137). -/
def State.emitBytes (s : State) (u : WUnit) (h : Nat) (m : FifoMark) (bs : List Byte) : State :=
  if u.kind == .segment then s.stageBytes u h m bs else s.feedFifo u h m bs

/-- A word of coded data, of 1 to 4 valid bytes: a slice or frame that begins with it has its header first (R132, R134). -/
def State.codeWord (s : State) (u : WUnit) (h : Nat) (w : Word) (n : Nat) (m : FifoMark) : State :=
  let bs := leBytes (min n 4) w.toNat
  let t := if u.kind == .fused then s.openFifo u h else s
  let size := match m with
    | .unitStart z => z
    | _ => none
  let begins := match m with
    | .unitStart _ => true
    | _ => (t.openBytes u h).isNone
  if begins then
    let v := t.emitBytes u h (.unitStart size) (t.sliceHead u (u.first + u.done) ++ bs)
    if m == .unitEnd then v.emitBytes u h .unitEnd [] else v
  else t.emitBytes u h m bs

/-- A slice ends after the CTUs that are complete, where one of SLICES does, or early where its NAL unit holds more than its prefix may
bound (R133, R183). -/
def State.cutSlice (s : State) (u : WUnit) (h ctus : Nat) : State :=
  let v := s.parOf u
  match (s.sess u.session).pic? u.pic, s.openBytes u h with
  | some p, some n =>
    if decide (u.done < ctus) && decide (ctus < u.ctus)
        && ((sliceStarts v p.width p.height).contains (u.first + ctus)
          || (v.bsFormat == 1 && decide (sliceBound v < n) && sliceMayEnd v p.width ctus u.cols)) then
      s.emitBytes u h .unitEnd []
    else s
  | _, _ => s

/-- A piece as it will enter the stream, begun in a unit as if after bytes that are not zero (R208). -/
def Fifo.asPiece (p : Params) (f : Fifo) : Fifo :=
  let open_ : Fifo := { Fifo.init with units := [{ start := 0, slot := 0, endAt := none, filled := false }] }
  (f.chunks.foldl (fun (a : Fifo × Nat) c => (a.1.feed p (2 ^ 64) c.1 ((f.bytes.drop a.2).take c.2), a.2 + c.2)) (open_, 0)).1

/-- The bytes that a segment has spent: those it occupies in the stream, slice headers, start codes or slots and emulation-prevention
bytes among them (R208). -/
def State.spentOf (s : State) (u : WUnit) (h : Nat) : Nat :=
  let f := (s.half h).fifo
  if u.kind == .segment then (f.asPiece (s.parOf u)).bytes.length else f.bytes.length - f.head

/-- The FIFO is full at this moment (R134). -/
def State.fifoFull (s : State) (u : WUnit) (h : Nat) : Bool := ((s.ackFifo u h).half h).fifo.full

/-! ### The drain (R137, R142, R212) -/

/-- A picture's filler enters the FIFO; what the filler NAL units hold is the coding standard's, and an open value here (log
entry 5). -/
def State.fillPicture (s : State) (u : WUnit) (h : Nat) : State :=
  let was := (s.half h).fifo.bytes.length
  let n := fillerBytes (s.sess u.session) was
  if n == 0 then s
  else
    let bs := leBytes n (u.open_ (8 * n)).toNat
    let t := (s.modUnit u.uid fun w => { w with steps := w.steps + 1 }).fifoTakes u h fun p room f => f.fill p room (fillSizes (ceilDiv n 65536) n) bs
    t.modSess u.session fun y => y.modResult u.pic fun r => { r with filler := (t.half h).fifo.bytes.length - was }

/-- The drain at the final CHECKPOINT of a unit that writes its picture's bytes: staged pieces, the index, filler, and every held byte
(R137, R142). -/
def State.drainFifo (s : State) (u : WUnit) (h : Nat) : State :=
  let a := s.openFifo u h
  let b := if u.kind == .finish then forEach ((List.range u.seg).map (· + 1)) (fun k z => z.copyPiece u h k) a else a
  let t := (b.fifoTakes u h fun p room f => (f.closeUnit p room).superframe p).fillPicture u h
  if (t.half h).fifo.overrun then t
  else
    let v := t.fifoWrite u h (t.half h).fifo.bytes.length
    v.progress u (v.half h).fifo true

end Sys2Proof.Machine
end

