-- ==== Sys2Proof/Machine/Coding.lean ====
section
/-! DEFINITION. What an encode unit decides for its blocks and what it reconstructs: ROI offsets, refresh bands, block decisions and records,
statistics, reconstruction (03_coding_core.md R69; 07_encoding.md R178, R182, R184, R193, R195). What a mode decision chooses within its limits,
and what a standard's prediction yields, stand as functions of Config without a body (log entries 80, 83). -/
namespace Sys2Proof.Machine

/-! ### Quantisers (R184, R207, R209) -/

/-- The offset of a coding block of several 16 × 16 blocks: their mean, rounded half away from zero (R184). -/
def meanOffset (os : List Int) : Int := roundAway (os.foldl (· + ·) 0) os.length

/-- The distinct offsets of a picture, the most frequent first, of equal ones the lower (R184; log entry 84). -/
def rankedOffsets (os : List Int) : List Int :=
  sortBy (fun o : Int => ((os.length - os.count o : Nat) : Int)) (sortBy id os.eraseDups)

/-- The offsets that become the segments of VP9 and AV1 (R184). -/
def segmentOffsets (os : List Int) : List Int := (rankedOffsets os).take 8

/-- The segment that an offset maps to: the nearest, the lower on a tie (R184). -/
def nearestOffset (ss : List Int) (o : Int) : Int := (leastBy (fun c : Int => ((c - o).natAbs : Int)) (sortBy id ss)).getD 0

/-- The offsets of a picture's blocks. -/
def offsetsOf (p : Params) (bs : List Byte) (w h : Nat) : List Int :=
  (List.range (ceilDiv h 16)).flatMap fun y => (List.range (ceilDiv w 16)).map fun x => roiOffset p bs x y

/-- A block's quantiser with its offset: of a coding block of 2^k by 2^k blocks the mean, signalled as a QP delta; in VP9 and AV1 four times the
segment's (R184, R207). -/
def offsetQp (p : Params) (bs : List Byte) (segs : List Int) (base : Int) (k x y : Nat) : Int :=
  if p.isVp then clampQp p (clampInt 0 255 (base + 4 * nearestOffset segs (roiOffset p bs x y)))
  else
    let x0 := x / 2 ^ k * 2 ^ k
    let y0 := y / 2 ^ k * 2 ^ k
    let os := (List.range (2 ^ k)).flatMap fun j => (List.range (2 ^ k)).map fun i => roiOffset p bs (x0 + i) (y0 + j)
    clampQp p (base + meanOffset os)

/-- The row quantiser of a segment's row, and whether ROI offsets apply: the plan's in its first row (R207, R209). -/
def Half.rowOf (x : Half) (plan : Plan) (stage : Bool) (qpMax : Int) (row : Nat) : Int × Bool :=
  if row == 0 then (if stage then (qpMax, false) else (plan.qPic, true)) else (tblGet none x.qps row).getD (plan.qPic, true)

/-- A segment that was in stage 1 from its first row: a soft share of no bytes, outside CQP (R206, R209). -/
def State.noShare (s : State) (u : WUnit) : Bool :=
  let x := s.sess u.session
  x.par.encode && x.par.rcMode != 0 && !u.show_ && (u.kind == .segment || u.kind == .fused)
    && match x.plan? u.pic with
      | some p => (p.segs.getD u.seg (0, 1, [])).2.1 == 0
      | none => false

/-! ### The refresh band (R182) -/

/-- Luma columns of the band of a picture at a place in the sweep: from, to. -/
def bandOf (p : Params) (w pos : Nat) : Nat × Nat :=
  let b := ceilDiv w (p.refreshPeriod * 16) * 16
  (pos * b, (pos + 1) * b)

/-- A block is coded intra for the sweep. -/
def inBand (p : Params) (x : SrcPic) (bx : Nat) : Bool :=
  match x.band with
  | some k => let b := bandOf p x.width k; decide (b.1 ≤ 16 * bx) && decide (16 * bx < b.2)
  | none => false

/-- How far right a block may predict from its references: left of the band, only their refreshed area (R182). -/
def refreshLimit (p : Params) (x : SrcPic) (bx : Nat) : Option Nat :=
  match x.band with
  | some k => let b := bandOf p x.width k; if 16 * bx < b.1 then some b.1 else none
  | none => none

/-! ### Block decisions (R69, R178, R182, R193, R195) -/

/-- Blocks of a unit's segment: columns and rows of 16 × 16 blocks that lie in the picture. -/
def unitBlocks (p : Params) (x : SrcPic) (g : SegRect) : List (Nat × Nat) :=
  let k := encCtu p.codec / 16
  (List.range (min (g.2.2.2 * k) (ceilDiv x.height 16) - g.2.2.1 * k)).flatMap fun j =>
    (List.range (min (g.2.1 * k) (ceilDiv x.width 16) - g.1 * k)).map fun i => (g.1 * k + i, g.2.2.1 * k + j)

/-- A vector as a block record holds it: quarter samples, finer ones rounded half away from zero, within the vector range (R195). -/
def quarterOf (codec d : Nat) (v : Int × Int) : Int × Int :=
  let c := clampVec codec d v
  (roundAway (4 * c.1) d, roundAway (4 * c.2) d)

/-- What a block's decision is made from, as numbers: codec, preset row, fraction, vector range, references, layer, quantiser, whether it is
intra, forced or in stage 1, and the refresh limit. -/
def blockFacts (p : Params) (x : SrcPic) (qp : Int) (intra forced stage : Bool) (bx by_ : Nat) : List Int :=
  let k := presetOf p.preset
  [(k.seeds : Int), k.h, k.v, k.refs, fractionOf p, vectorRange p.codec, k.depths, x.layer, qp, b2n intra, b2n forced, b2n stage,
    ((refreshLimit p x bx).map fun r : Nat => (r : Int)).getD (-1), bx, by_]

/-- The decision for a block: what the search chooses is open within its limits; an intra picture, the refresh band and a picture without
references have intra blocks alone, a list without references is not used, vectors keep their range (R69, R182, R195, R209). -/
def State.decide_ (s : State) (u : WUnit) (h : Nat) (p : SrcPic) (src orig : List Plane) (refs : List (Int × List Plane)) (segs : List Int)
    (g : SegRect) (k : Nat × Nat) : BlockRec :=
  let x := s.sess u.session
  let v := s.parOf u
  let plan := (x.plan? p.index).getD { pic := p.index, target := 0, cap := 0, qPic := 0, hdr := 0, cPic := 0, segs := [], roi := [], hints := [] }
  let n := encCtu v.codec / 16
  let hf := s.half h
  let row := hf.rowOf plan (s.noShare u) v.qpMax (k.2 / n - g.2.2.1)
  let ctu := (k.2 / n - g.2.2.1) * (g.2.1 - g.1) + (k.1 / n - g.1)
  let forced := hf.forced.any fun c => decide (c ≤ ctu)
  let intraPic := refs.isEmpty
  let base := if forced then v.qpMax else row.1
  let seeds := refs.map fun r => seedList (presetOf v.preset).seeds refs.length (s.fieldSeeds u.session p k.1 k.2 r.1)
    ((List.range 8).map fun i => Config.neighbourSeed v.codec i k.1 k.2 r.1 (src.map (·.length))) (hintOf v plan.hints k.1 k.2)
  let c := Config.blockChoice v.codec v.block (blockFacts v p base (intraPic || inBand v p k.1) forced (!row.2) k.1 k.2) seeds src (refs.map Prod.snd)
  let f := c.toNat
  let mode := if intraPic || inBand v p k.1 then 0 else if forced then 1 + fld f 64 1 else if p.bpic then fld f 64 2 else fld f 64 1
  let vec := fun (lo : Nat) => quarterOf v.codec (fractionOf v) (signedOf 16 (fld f lo 16), signedOf 16 (fld f (lo + 16) 16))
  let ref := fun (lo : Nat) => if forced then 0 else fld f lo 2 % max 1 (min 4 (min (presetOf v.preset).refs refs.length))
  let b0 := mode == 1 || mode == 3
  let b1 := mode == 2 || mode == 3
  let blk := patch (src.headD []) ((16 * k.1 : Nat) : Int) ((16 * k.2 : Nat) : Int) 16 16
  let own := patch (orig.headD []) ((16 * k.1 : Nat) : Int) ((16 * k.2 : Nat) : Int) 16 16
  let pred := Config.predictInter v.codec f k.1 k.2 (refs.map fun r => r.2.headD [])
  { x := k.1, y := k.2, mode := mode, ref0 := if b0 then ref 66 else 0, ref1 := if b1 then ref 68 else 0
    skip := mode != 0 && (forced || fld f 70 1 == 1)
    qp := if forced || !row.2 then base else offsetQp v plan.roi segs base (fld f 71 2) k.1 k.2
    mv0 := if b0 then vec 0 else (0, 0), mv1 := if b1 then vec 32 else (0, 0)
    satd := if intraPic then 65535 else satd blk pred
    intra := intraOf (src.headD []) k.1 k.2
    act := activity own }

/-- The references that a coded picture predicts from: display distance and samples. -/
def State.codedRefs (s : State) (n : Nat) (p : SrcPic) : List (Int × List Plane) :=
  let x := s.sess n
  p.refs.filterMap fun r : Nat => (x.recons.find? fun k => k.1 == r).map fun k =>
    ((r : Int) - (p.index : Int), s.pictureAt (x.slotBase k.2) x.par.chroma p.width p.height)

/-- The segment of a unit; none of a picture finish. -/
def State.unitRect (s : State) (u : WUnit) (p : SrcPic) : Option SegRect :=
  if u.kind == .segment || u.kind == .fused then (encSegs (s.parOf u) (s.sess u.session).estCorr p.width p.height)[u.seg]? else none

/-- The decisions of a unit's blocks. -/
def State.unitRecords (s : State) (u : WUnit) (h : Nat) (p : SrcPic) : List BlockRec :=
  match s.unitRect u p with
  | none => []
  | some g =>
    let v := s.parOf u
    let src := s.codingSource u.session p
    let segs := segmentOffsets (offsetsOf v (((s.sess u.session).plan? p.index).map Plan.roi |>.getD []) p.width p.height)
    (unitBlocks v p g).map (s.decide_ u h p src (s.sourceSamples u.session p) (s.codedRefs u.session p) segs g)

/-- The 16 bytes of a block record (Table 7-8). -/
def BlockRec.bytes (b : BlockRec) : List Byte :=
  leBytes 16 (put 0 16 (twosOf 16 b.mv0.2) + put 0 0 (twosOf 16 b.mv0.1) + put 4 16 (twosOf 16 b.mv1.2) + put 4 0 (twosOf 16 b.mv1.1)
    + put 8 16 b.intra + put 8 0 b.satd + put 12 30 b.mode + put 12 28 b.ref1 + put 12 26 b.ref0 + put 12 25 (b2n b.skip)
    + put 12 16 (twosOf 8 b.qp) + put 12 0 b.act)

/-! ### Statistics (R191, R193, R194) -/

/-- Address and space of a picture's statistics; none where its entry names no buffer, or the picture's would end beyond it
(R191, R193). -/
def statPlace (p : Params) (e : QEntry) (n ix : Nat) : Option (Nat × Nat) :=
  if p.srcMode == 0 then (if (statBuf e.raw).1 == 0 then none else some ((statBuf e.raw).1, (statBuf e.raw).2.2))
  else
    let d := e.rendDesc n
    let stride := roundUp (statNeed p) 64
    let k := ((e.rends.find? fun r => r.session == n).map fun r => r.pics.idxOf ix).getD 0
    if e64 d 16 == 0 || e32 d 48 < k * stride + statNeed p then none else some (e64 d 16 + k * stride, e8 d 53)

/-- A rendition's statistics would end beyond its buffer: cause 0x26 (R191). -/
def statShort (p : Params) (e : QEntry) (n ix : Nat) : Bool :=
  p.srcMode == 1 && e64 (e.rendDesc n) 16 != 0 && (statPlace p e n ix).isNone

/-- The block records of a unit are written where its entry asks for them (R193). -/
def State.putRecords (s : State) (u : WUnit) (e : QEntry) (p : SrcPic) (bs : List BlockRec) : State :=
  let v := s.parOf u
  match statPlace v e u.session p.index with
  | some a => forEach bs (fun b t => t.entryOut u.q e.seq u.fn a.2 (a.1 + 64 + (b.y * ceilDiv v.maxW 16 + b.x) * 16) b.bytes) s
  | none => s

/-! ### Reconstruction (R48, R66, R68, R117) -/

/-- The CTUs of a segment. -/
def rectCtus (g : SegRect) : List (Nat × Nat) :=
  (List.range (g.2.2.2 - g.2.2.1)).flatMap fun j => (List.range (g.2.1 - g.1)).map fun i => (g.1 + i, g.2.2.1 + j)

/-- The coded data of an encode unit: its own stream bytes with the parameter sets of the session (R117). -/
def State.ownData (s : State) (u : WUnit) (h : Nat) : CodedData :=
  let v := s.parOf u
  { codec := v.codec, psets := (setKinds v.codec).zip (setUnits v), units := [(s.half h).fifo.bytes], first := 0, superres := false }

/-- The samples of a coded picture once the unit has run: what a decoder reconstructs from the bytes written, filtered as R68 has it. -/
def State.codedPlanes (s : State) (u : WUnit) (h : Nat) (p : SrcPic) : List Plane :=
  let x := s.sess u.session
  let frame := s.pictureAt (x.slotBase u.slot) x.par.chroma p.width p.height
  let k := s.ownData u h
  let mine := ((s.unitRect u p).map rectCtus).getD []
  let done := if mine.isEmpty then frame else Config.reconstruct k.codec k.psets k.units 0 ((s.codedRefs u.session p).map Prod.snd) mine [] frame
  let inside := if mine.isEmpty then done else filtered k false mine [] done
  if u.kind == .segment then inside else filtered k true mine [] inside

/-- The motion side record of a coded picture follows its samples in the slot (R63). -/
def State.codedSide (s : State) (u : WUnit) (h : Nat) (p : SrcPic) : State :=
  let x := s.sess u.session
  let k := s.ownData u h
  let a := x.slotBase u.slot + nitinolSize x.par.chroma x.par.maxW x.par.maxH
  s.withStored (s.devWrite a ((List.range (ceilDiv p.width 16 * ceilDiv p.height 16)).flatMap fun b =>
    leBytes 16 (Config.motionRecord k.codec k.psets k.units 0 b 0).toNat))

/-- What an encode unit has written of its picture by its final CHECKPOINT: its reconstruction, and its block records. -/
def State.storeCoded (s : State) (u : WUnit) (h : Nat) (e : QEntry) (p : SrcPic) : State :=
  let x := s.sess u.session
  let bs := s.unitRecords u h p
  let t := s.keepPlanes (x.slotBase u.slot) x.par.chroma p.width p.height (s.codedPlanes u h p)
  let v := if u.kind == .segment then t else t.codedSide u h p
  (v.putRecords u e p bs).modSess u.session fun y => y.modResult u.pic fun r =>
    { r with blocks := (r.blocks.filter fun b => !bs.any fun k => k.x == b.x && k.y == b.y) ++ bs }

/-- The final CHECKPOINT of an encode unit that codes: a picture start and a unit that shows a frame reconstruct nothing. -/
def State.finishCoding (s : State) (u : WUnit) (h : Nat) : State :=
  match (s.queue u.q).entry? u.seq, (s.sess u.session).pic? u.pic with
  | some e, some p => if u.show_ || u.kind == .start then s else s.storeCoded u h e p
  | _, _ => s

/-! ### Tiles that a unit reads (R246, R441) -/

/-- The tiles of a decoded picture; the virtual picture has none. -/
def Pict.tiles (x : Session) (p : Pict) : List TileRef := if p.virtual then [] else pictureTiles (x.slotBase p.slot) p.chroma p.codedW p.codedH

/-- The tiles of the source picture and of the references of a coded picture. -/
def State.encodeTiles (s : State) (n : Nat) (p : SrcPic) : List TileRef :=
  let x := s.sess n
  let src := match (if p.direct then p.feed else none) with
    | some (m, r) => (((s.sess m).pics.find? fun k => k.relIndex == some r).map (Pict.tiles (s.sess m))).getD []
    | none => pictureTiles (s.sourceRange n p).base x.par.chroma p.width p.height
  src ++ p.refs.flatMap fun r => ((x.recons.find? fun k => k.1 == r).map fun k => pictureTiles (x.slotBase k.2) x.par.chroma p.width p.height).getD []

/-- The tiles of the pictures that a unit reads: a released or a named picture for analysis and conversion, references for decode, source
and references for encode. -/
def State.unitTiles (s : State) (u : WUnit) : List TileRef :=
  let x := s.sess u.session
  let released := ((x.pics.find? fun p => p.relIndex == some u.pic).map (Pict.tiles x)).getD []
  match u.kind with
  | .start => []
  | .release => []
  | .mau => if x.par.encode then [] else released
  | .pcf => (match (s.queue u.q).entry? u.seq with
    | some e =>
      if e.op == 4 then
        (let p := convertShape e.raw
         if srcFormat e.raw == 15 then pictureTiles (e64 e.raw 16) p.chroma p.w p.h else [])
      else released
    | none => [])
  | _ =>
    if u.skips || u.show_ then []
    else if x.par.encode then ((x.pic? u.pic).map (s.encodeTiles u.session)).getD []
    else ((s.picInfo u).map fun i => i.refs.flatMap fun r => ((x.refPict r).map (Pict.tiles x)).getD []).getD []

/-- The invalid tiles among those that a unit reads. -/
def State.badTiles (s : State) (u : WUnit) : List TileRef := (s.unitTiles u).filter fun t => (s.readTile t).isNone

/-- A unit has consumed poisoned lines of device memory: each is recorded, its region has lost it, and the unit is rolled back (R168, R441). -/
def State.readPoison (s : State) (u : WUnit) (source : Nat) (rs : List (Nat × Nat)) : State :=
  let session := if u.session < 2 ^ 20 then some u.session else none
  (forEach ((rs.flatMap fun r => linesOf r.1 r.2).filter fun l => s.poisoned l 64) (fun l v =>
    (v.report 0x08 source (some u.fn) session 0 u.tag l).loseLine l) s).poisonUnit u.uid

/-- A unit has read invalid tiles, which count as poisoned: each is recorded and lost, and the unit is rolled back (R246, R441). -/
def State.loseTiles (s : State) (u : WUnit) (source : Nat) (ts : List TileRef) : State :=
  let session := if u.session < 2 ^ 20 then some u.session else none
  (forEach ts (fun t v => (v.report 0x08 source (some u.fn) session 0 u.tag (refAddr t)).loseTile t) s).poisonUnit u.uid

end Sys2Proof.Machine
end

