-- ==== Sys2Proof/Machine/Output.lean ====
section
/-! DEFINITION. Which decoded pictures become due for output, and when (06_decoding.md R145, R147, R152, R162). -/
namespace Sys2Proof.Machine

/-! ### Pictures that become due (R145) -/

/-- `f` on the first element that passes a test. -/
def modFirst {α : Type} (ok : α → Bool) (f : α → α) : List α → List α
  | [] => []
  | x :: xs => if ok x then f x :: xs else x :: modFirst ok f xs

/-- A picture that awaits output becomes due, after those already due. -/
def Session.makeDue (x : Session) (num : Nat) : Session :=
  match x.pics.find? fun p => p.num == num && p.awaiting with
  | some p => { x with pics := (x.pics.filter fun k => !(k.num == num && k.awaiting)) ++ [{ p with awaiting := false, due := true }] }
  | none => x

/-- Pictures become due in order. -/
def Session.makeAllDue (x : Session) (ns : List Nat) : Session := forEach ns (fun k y => y.makeDue k) x

/-- Pictures awaiting output, in output order. -/
def Session.waiting (x : Session) : List Pict := sortBy Pict.order (x.pics.filter Pict.awaiting)

/-- Every picture awaiting output becomes due, in output order: a flush, the end of a sequence, or an IDR or IRAP picture with
no_output_of_prior_pics_flag = 0 (R145). -/
def Session.flushDue (x : Session) : Session := x.makeAllDue (x.waiting.map Pict.num)

/-- The first picture awaiting output becomes due. -/
def Session.bump (x : Session) : Session :=
  match x.waiting with
  | p :: _ => x.makeDue p.num
  | [] => x

/-- Bumping as long as a condition holds. -/
def Session.bumpWhile (ok : Session → Bool) : Nat → Session → Session
  | 0, x => x
  | n + 1, x => if ok x && !x.waiting.isEmpty then Session.bumpWhile ok n x.bump else x

/-- Frame buffers in use as the standard counts them: decoded pictures that are references or await output. -/
def Session.fullness (x : Session) : Nat := (x.pics.filter fun p => !p.virtual && !p.open_ && (p.isRef || p.awaiting)).length

/-- More pictures await output than the reorder count allows, or one has waited as long as the latency allows (R145). -/
def Session.overdue (sq : SeqInfo) (x : Session) : Bool :=
  sq.reorder.any (fun r => decide (r < x.waiting.length)) || sq.latency.any fun l => x.waiting.any fun p => decide (l ≤ p.latency)

/-- An IDR or IRAP picture that begins a sequence empties the pictures before it: output, or discarded without output (R145). -/
def Session.priorOut (x : Session) (prior : Option Bool) : Session :=
  match prior with
  | some false => x.flushDue
  | some true => { x with pics := x.pics.map fun p => { p with awaiting := false } }
  | none => x

/-- Room for a picture before it is stored: AVC bumps while no frame buffer is free, HEVC and VVC besides while the limits are passed
(R145). -/
def Session.makeRoom (x : Session) (codec : Nat) (sq : SeqInfo) : Session :=
  let full := fun y : Session => decide (sq.dpbSize ≤ y.fullness)
  match codec with
  | 0 => Session.bumpWhile full x.pics.length x
  | 2 => x
  | 3 => x
  | _ => Session.bumpWhile (fun y => full y || y.overdue sq) x.pics.length x

/-- AVC outputs a picture that is no reference at once where no frame buffer is free and it comes before every picture that waits. -/
def Session.straightOut (x : Session) (codec : Nat) (sq : SeqInfo) (info : PicInfo) : Bool :=
  codec == 0 && !info.isRef && info.parity == 0 && decide (sq.dpbSize ≤ x.fullness) && x.waiting.all fun p => decide (info.order.toInt < p.order)

/-- What a stored picture makes due: itself at once for VP9 and AV1 or where AVC outputs it straight, and what passes the limits (R145). -/
def Session.bumpAfter (x : Session) (codec : Nat) (sq : SeqInfo) (pic : Nat) (straight : Bool) : Session :=
  if codec == 2 || codec == 3 || straight then x.makeDue pic else Session.bumpWhile (Session.overdue sq) x.pics.length x

/-- The sequence whose limits bind; where no header is in force, the DPB that the session reserves. -/
def seqOf (p : Params) (au : AuInfo) : SeqInfo :=
  au.seq.getD { profile := 0, level := 0, chroma := p.chroma, depthY := p.depthY, depthC := p.depthC, width := p.maxW, height := p.maxH,
                dpbSize := p.dpbSlots - 1, reorder := none, latency := none, maxFrameNum := 1, opIdc := [] }

/-- A decoded picture as it is kept. -/
def keptPict (info : PicInfo) (shown : Bool) (flags : BitVec 16) (marks : List Nat) (p : Pict) : Pict :=
  { p with isRef := info.isRef || (p.mate.isSome && p.isRef), awaiting := shown || (p.mate.isSome && p.awaiting), dflags := p.dflags ||| flags, readers := 0,
           marks := marks, latency := 0 }

/-- A decoded picture is kept as the standard says, and what it makes due becomes due (R145, R152). A second field joins its frame, which
already has its place. -/
def Session.keepPict (x : Session) (p : Params) (au : AuInfo) (info : PicInfo) (pic : Nat) (shown : Bool) (flags : BitVec 16) (marks : List Nat) :
    Session :=
  let sq := seqOf p au
  let keep := fun y : Session => { y with pics := y.pics.map fun k : Pict => if k.num == pic && k.open_ then keptPict info shown flags marks k else k }
  let a := ({ x with pics := x.pics.map fun k : Pict => if !k.open_ && info.dropRefs.any k.isNum then { k with isRef := false } else k }).priorOut info.prior
  let b := if info.second then keep a
    else
      let straight := shown && a.straightOut p.codec sq info
      let r := if straight then a else a.makeRoom p.codec sq
      let late := { r with pics := r.pics.map fun k =>
        if shown && k.awaiting && decide (info.order.toInt < k.order) then { k with latency := k.latency + 1 } else k }
      (keep late).bumpAfter p.codec sq pic straight
  if au.ends then b.flushDue else b

/-! ### What a unit releases (R147, R162) -/

/-- The entry's pictures go to host buffers: unless it is a ladder's and names none (R151). -/
def QEntry.toHost (e : QEntry) : Bool := e.rends.isEmpty || (outAddr e.raw != 0 && outCount e.raw != 0)

/-- Pictures that an entry has released. -/
def QEntry.releases (e : QEntry) : Nat := max e.rels.length e.relPics.length

/-- The session as a unit's end leaves its pictures, where it commits without damage that discards its picture. -/
def State.afterUnit (s : State) (u : WUnit) (e : QEntry) : Session :=
  let x := s.sess u.session
  match e.au, s.picInfo u with
  | some au, some info =>
    if u.kind == .finish then x.keepPict (s.parOf u) au info u.pic (info.shown && !x.recovers info) 0 []
    else if u.kind == .fused then
      let y := { x with pics := x.pics ++ [newPict u (s.parOf u) au info false] }
      y.keepPict (s.parOf u) au info u.pic (info.shown && !(x.seen u e au info).recovers info) 0 []
    else match (if u.skips then info.showExisting.bind x.refPict else none) with
      | some p => { x with pics := x.pics ++ [{ p with due := true }] }
      | none => x
  | _, _ => if u.kind == .release then x.flushDue else x

/-- Film-grain cycles of the pictures that a unit releases to the host: those due, as far as buffers and the limit of 12 reach (R147,
R162). -/
def State.grainOf (s : State) (u : WUnit) (e : QEntry) : Nat :=
  if e.toHost then
    let y := s.afterUnit u e
    grainRaise (s.parOf u) ((y.pics.filter Pict.due).take (min (12 - e.releases) y.outq.length))
  else 0

/-- The end of a unit adds the cycles of the hash check and of film grain, and its budget has them too (R162, R164). -/
def State.endCycles (s : State) (u : WUnit) (e : QEntry) : State :=
  let ends := u.kind == .finish || u.kind == .fused || u.kind == .release || u.skips
  let h := if u.kind == .finish || u.kind == .fused then ((s.picInfo u).map (endRaise (s.parOf u))).getD 0 else 0
  let g := if ends then s.grainOf u e else 0
  s.modUnit u.uid fun w => { w with cycles := w.cycles + h + g, budget := w.budget + g }

end Sys2Proof.Machine
end

