-- ==== Sys2Proof/Machine/Sequencer.lean ====
section
/-! DEFINITION. The sequencer of a core half: fetching and issuing microwords, WAIT words, requests at CHECKPOINT words, accesses
through windows, and a unit's final CHECKPOINT (03_coding_core.md, 04_control_store.md). -/
namespace Sys2Proof.Machine

/-! ### Fetching (R91 to R96, R105, R106, R110, R111) -/

/-- Fields of a microword (Table 4-1). -/
def mNano (w : Word) : Nat := fld w.toNat 20 12
def mNext (w : Word) : Nat := fld w.toNat 7 13
def mCond (w : Word) : Nat := fld w.toNat 2 5
def mWait (w : Word) : Bool := bitAt w.toNat 1
def mCkpt (w : Word) : Bool := bitAt w.toNat 0

/-- `w` bits from bit `lo` of a nanoword's 32-bit word `k` (Table 4-3). -/
def nfld (n : BitVec 192) (k lo w : Nat) : Nat := fld n.toNat (32 * k + lo) w

/-- What one fetch gives: the address the word came from, the word, its nanoword, whether a match redirected it, whether it met a
trap word. -/
structure Fetch where
  addr : BitVec 13
  word : Word
  nano : BitVec 192
  hit  : Bool
  trap : Bool
  deriving DecidableEq, Repr

/-- The valid match of a kind for an address: its TARGET, where a patch is loaded (R106, Table 4-12). -/
def Half.match? (x : Half) (nano : Bool) (a : Nat) : Option Nat :=
  (x.matches_.find? fun m => x.patchStatus == 1 && bitAt m.toNat 31 && bitAt m.toNat 30 == nano && fld m.toNat 8 13 == a).map fun m => fld m.toNat 0 8

/-- A fetch at `a`, matches and overlay applied (R105, R106); the writable store has neither (R110). -/
def Half.fetch (x : Half) (a : BitVec 13) : Fetch :=
  if x.store then
    let w := tblGet 0 x.wcsMicro a.toNat
    { addr := a, word := w, nano := tblGet 0 x.wcsNano (mNano w), hit := false, trap := false }
  else
    let m := x.match? false a.toNat
    let b : BitVec 13 := match m with
      | some t => BitVec.ofNat 13 (0x1F00 + t)
      | none => a
    let mOver := decide (0x1F00 ≤ b.toNat)
    let w := if mOver then tblGet 0 x.patchMicro (b.toNat - 0x1F00) else Config.microRom b.toNat
    let n := match x.match? true (mNano w) with
      | some t => 0xFC0 + t % 64
      | none => mNano w
    let nover := decide (0xFC0 ≤ n)
    { addr := b, word := w, nano := if nover then tblGet 0 x.patchNano (n - 0xFC0) else Config.nanoRom n, hit := m.isSome,
      trap := (mOver || nover) && x.patchStatus != 1 }

/-- A word holds a reserved encoding (Tables 4-1 and 4-3), or is a WAIT word on COND 0, 30 or 31 (R97). A decode-half nanoword whose
ME_OP is not 0 counts as reserved (DESIGN CHOICE, log entry 73: the spec says only that there is none). -/
def Fetch.invalid (f : Fetch) (encode : Bool) : Bool :=
  let c := mCond f.word
  (mWait f.word && (c == 0 || c == 30 || c == 31))
    || (c == 30 && (decide (6 ≤ fld (mNext f.word) 10 3) || fld (mNext f.word) 0 8 != 0))
    || nfld f.nano 0 16 2 != 0 || decide (6 ≤ nfld f.nano 1 29 3) || nfld f.nano 1 8 4 != 0 || decide (12 ≤ nfld f.nano 5 0 4)
    || (nfld f.nano 5 26 2 != 0 && nfld f.nano 5 20 6 == 0) || (!encode && nfld f.nano 4 12 4 != 0)

/-! ### Conditions (R92, R93, R53) -/

/-- The segment above a unit's has committed in the unit's picture (R53). -/
def State.aboveDone (s : State) (u : WUnit) : Bool := ((s.sess u.session).result u.pic).segs.contains (u.seg - 1)

/-- The member slot of a segment: its gang position (Table 2-3; log entry 72). -/
def memberSlot (seg : Nat) : Nat := seg % 16

/-- The member record of the segment above a unit's. -/
def State.memberAbove (s : State) (u : WUnit) : Member :=
  let m := tblGet ⟨0, 0, []⟩ (s.sess u.session).members (memberSlot (u.seg - 1))
  if m.seg == u.seg then m else ⟨u.seg, 0, []⟩

/-- The unit awaits nothing of a row above at the CTU it is about to process: it has no segment above it, that one has committed, its
segment is a tile, or the CTU lies below its own first row (R52, R53). -/
def State.aboveFree (s : State) (u : WUnit) : Bool :=
  u.kind != .segment || u.seg == 0 || u.row0 == 0 || decide (u.cols ≤ u.done) || s.aboveDone u || !(s.above u).any (fun v => v.row0 != u.row0)

/-- CTU (r, c) may be processed: CTU (r − 1, c + 1), or the last of that row, has been published as completed (R53). -/
def State.progLeft (s : State) (u : WUnit) : Bool :=
  s.aboveFree u || (s.above u).any fun v => decide (v.ctus + min (u.done + 2) u.cols ≤ (s.memberAbove u).done + u.cols)

/-- The row above has published its entropy synchronisation state (R53). -/
def State.progSync (s : State) (u : WUnit) : Bool := s.aboveFree u || !(s.memberAbove u).sync.isEmpty

/-- The MAU field of the unit's picture is readable. -/
def State.fieldReadable (s : State) (u : WUnit) : Bool :=
  ((s.sess u.session).pic? u.pic).any fun p => s.complete (p.at_ u.session).1 (p.at_ u.session).2

/-- Truth of a condition code, after the word's actions (Table 4-2; log entry 31). -/
def State.cond (s : State) (h : Nat) (u : WUnit) (x : IssueIn) (c : Nat) : Bool :=
  let k := s.half h
  match c with
  | 0 => false
  | 1 => true
  | 6 => k.alu == 0
  | 7 => k.alu.getLsbD 31
  | 8 => k.entBin
  | 14 => h % 2 == 1 && x.conds.getLsbD 14
  | 17 => h % 2 == 1 && !s.fifoFull u h
  | 18 => s.progLeft { u with done := x.ctus }
  | 19 => s.progSync { u with done := x.ctus }
  | 20 => x.ctus % max 1 u.cols + 1 == u.cols
  | 21 => u.row0 + x.ctus / max 1 u.cols + 1 == u.rows
  | 22 => x.ctus + 1 == u.ctus
  | 23 => h % 2 == 1 && s.fieldReadable u
  | 24 => k.rowQp.isSome
  | 25 => decide (u.budget ≤ u.cycles)
  | 31 => false
  | _ =>
    if c < 6 then k.cnt.getD (c - 2) 0 == 0
    else if 26 ≤ c && c < 30 then k.flags.getLsbD (c - 26)
    else x.conds.getLsbD c

/-- The next address of a word that goes on (R92, R94, R95). -/
def State.nextAddr (s : State) (h : Nat) (u : WUnit) (x : IssueIn) (f : Fetch) : BitVec 13 :=
  let k := s.half h
  let c := mCond f.word
  let nx := mNext f.word
  if c == 31 then k.link
  else if c == 30 then
    let i := match fld nx 10 3 with
      | 0 => (s.sess u.session).par.codec * 4 + u.kind.code
      | 1 => (tblGet 0 k.regs (nfld f.nano 5 12 8)).toNat % 256
      | 2 => k.dp.ent.toNat % 256
      | 3 => k.dp.mode.toNat
      | 4 => k.dp.tx.toNat
      | _ => k.dp.lf.toNat
    k.opTable (fld nx 8 2 * 256 + i)
  else BitVec.ofNat 13 (if s.cond h u x c then nx ||| 1 else nx)

/-! ### Actions of a nanoword (Table 4-3) -/

/-- The ALU's result; where the spec leaves it open (a shift by 32 or more, an order of words that depends on their sign) it is the
free value (log entry 5). Operation 11 moves REG_A (DESIGN CHOICE, log entry 73: the spec names no operand). -/
def aluResult (op : Nat) (a b free : Word) : Word :=
  match op with
  | 1 => a + b
  | 2 => a - b
  | 3 => a &&& b
  | 4 => a ||| b
  | 5 => a ^^^ b
  | 6 => if b.toNat < 32 then a <<< b.toNat else free
  | 7 => if b.toNat < 32 then a >>> b.toNat else free
  | 8 => if b.toNat < 32 then a.sshiftRight b.toNat else free
  | 9 => if a.slt b == a.ult b then (if a.ult b then a else b) else free
  | 10 => if a.slt b == a.ult b then (if a.ult b then b else a) else free
  | 11 => a
  | _ => free

/-- The entropy engine takes an operation: an engine is named and ENT_OP is not 0, which leaves it idle (R96). -/
def entActs (n : BitVec 192) : Bool := nfld n 1 29 3 != 0 && nfld n 1 23 6 != 0

/-- The datapaths after a nanoword: each takes its operation where that is not 0; an entropy result, and the mode, descriptor or
stage that a datapath comes to, are the datapath's (R94, R96; log entry 8). -/
def datapathAfter (n : BitVec 192) (encode : Bool) (index : Nat) (fe : Word) (d : Datapath) : Datapath :=
  let v := BitVec.ofNat 8 index
  { d with
    ent := if entActs n && !encode then fe else d.ent
    entOp := if entActs n then BitVec.ofNat 32 (nfld n 1 0 32) else d.entOp
    tqOp := if nfld n 2 28 4 != 0 then BitVec.ofNat 32 (nfld n 2 0 32) else d.tqOp
    tx := if nfld n 2 28 4 != 0 then v else d.tx
    predOp := if nfld n 3 28 4 != 0 then BitVec.ofNat 32 (nfld n 3 0 32) else d.predOp
    mode := if nfld n 3 28 4 != 0 then v else d.mode
    lfOp := if nfld n 4 28 4 != 0 then BitVec.ofNat 32 (nfld n 4 16 16) else d.lfOp
    lf := if nfld n 4 28 4 != 0 then v else d.lf
    meOp := if nfld n 4 12 4 != 0 then BitVec.ofNat 32 (nfld n 4 0 16) else d.meOp }

/-- Flags, counters, ALU, datapaths and entropy result of one nanoword; a decoded value enters its register as the engine gives it,
which is open (log entries 5 and 8). The loop counters are 16 bits wide, registers and ALU 32 (DESIGN CHOICE, log entry 73). -/
def nanoActions (n : BitVec 192) (encode : Bool) (index : Nat) (fa fe : Word) (x : Half) : Half :=
  let a := tblGet 0 x.regs (nfld n 5 12 8)
  let b := tblGet 0 x.regs (nfld n 5 4 8)
  let set := BitVec.ofNat 4 (nfld n 0 26 4)
  let clr := BitVec.ofNat 4 (nfld n 0 22 4)
  let sel := nfld n 0 20 2
  let c := x.cnt.getD sel 0
  let c' : BitVec 16 := match nfld n 0 18 2 with
    | 1 => BitVec.ofNat 16 (nfld n 0 0 16)
    | 2 => if c == 0 then 0 else c - 1
    | 3 => BitVec.ofNat 16 a.toNat
    | _ => c
  { x with
    flags := (x.flags &&& ~~~clr) ||| set
    cnt := x.cnt.set sel c'
    alu := if nfld n 5 0 4 == 0 then x.alu else aluResult (nfld n 5 0 4) a b fa
    entBin := if entActs n && !encode then fe.getLsbD 0 else x.entBin
    dp := datapathAfter n encode index fe x.dp
    regs := if entActs n && !encode then tblSet 0 x.regs (nfld n 1 0 8) fe else x.regs }

/-! ### Accesses through windows (R44, R70, R71, R76) -/

/-- A unit that has met what its session's stream may not hold makes no further writes (R114). -/
def State.barred (s : State) (u : WUnit) : Bool :=
  !(s.parOf u).encode && u.kind.begins && (((s.queue u.q).entry? u.seq).bind QEntry.au).any fun au => (streamStop (s.parOf u) au).isSome

/-- A refused access is counted; a decode unit conceals the CTU it works on, an encode unit asks to leave (R76, R102). -/
def State.violate (s : State) (u : WUnit) (h ctu : Nat) : State :=
  let t := s.modHalf h fun x => { x with winViol := sat32 x.winViol 1 }
  if h % 2 == 1 then t.modHalf h fun x => { x with reqs := x.reqs ++ [(.abortWindow, u.tag)] }
  else
    let d : Damage := { header := false, ctu := u.first + ctu, cause := 0x08, count := 1 }
    t.modSess u.session fun y => y.modResult u.pic fun r =>
      { r with window := true, damages := if r.damages.contains d then r.damages else r.damages ++ [d] }

/-- One granule looked up in a half's cluster: a hit, or a miss that fills its whole tile (R70). -/
def State.lookup (s : State) (u : WUnit) (h l : Nat) : State :=
  if (s.cluster (h / 16)).holds l then s.modCluster (h / 16) fun c => fillGranule l { c with hits := c.hits + 1 }
  else s.modCluster (h / 16) fun c =>
    forUpTo 6 (fun i k => fillGranule (lineOf (slotTile (s.sess u.session) l) + 64 * i) k) { c with misses := c.misses + 1 }

/-- A write to device memory by a half: its lines await acknowledgement, and its own cluster's copies are updated (R45, R71). -/
def State.unitWrite (s : State) (u : WUnit) (h : Nat) (w : Window) (a : Nat) (bs : List Byte) : State :=
  let held := (linesOf a bs.length).filter (s.cluster (h / 16)).holds
  let t := (s.devWrite a bs).modUnit u.uid fun v => { v with lines := v.lines ++ linesOf a bs.length }
  let ls := if w.cached then linesOf a bs.length else held
  t.modCluster (h / 16) fun c => ls.foldl (fun k l => fillGranule l k) c

/-- Address of a tail granule in a slot. -/
def tailAt (slot g : Nat) : Nat := slot + 4096 + 256 * g

/-- Where a read of a tail granule goes: the committed slot while the granule is STALE, the working slot otherwise (R44). -/
def State.tailFrom (s : State) (n g : Nat) : Nat := tailAt (s.ctxSlot n (!(s.sess n).stale.getLsbD g)) g

/-- A write to a tail granule of the working slot: one that is STALE is first copied forward whole and its bit cleared (R44). -/
def State.tailWrite (s : State) (u : WUnit) (g : Nat) (bs : List (Nat × Byte)) : State :=
  let w := tailAt (s.ctxSlot u.session true) g
  let t := if (s.sess u.session).stale.getLsbD g then
      (s.memWrite w (s.memRead (tailAt (s.ctxSlot u.session false) g) 256)).modSess u.session fun x =>
        { x with stale := x.stale &&& ~~~(BitVec.twoPow 48 g) }
    else s
  (forEach bs (fun b v => if b.1 < 256 then v.memWrite (w + b.1) [b.2] else v) t).modUnit u.uid fun v =>
    { v with written := v.written ||| BitVec.twoPow 48 g }

/-- The tail granule of the context window that an address lies in; none in a head, which the half holds in its bank (R41). -/
def State.tailOf (s : State) (n a : Nat) : Option Nat :=
  let o := (a - s.ctxBase n) % 16384
  if 4096 ≤ o then some ((o - 4096) / 256) else none

/-- A write through the context window, one line at a time (R44). -/
def State.tailBytes (s : State) (u : WUnit) (a : Nat) (bs : List Byte) : State :=
  forEach (linesOf a bs.length) (fun l t =>
    let part := linePart l a bs
    match t.tailOf u.session l with
    | some g => t.tailWrite u g ((List.range part.2.length).map fun i => ((part.1 - t.ctxBase u.session) % 256 + i, part.2.getD i 0))
    | none => t) s

/-- Where a unit's read of a line goes: through the context window to the slot that R44 names. -/
def State.readsAt (s : State) (u : WUnit) (win l : Nat) : Nat :=
  match (if win == 15 then s.tailOf u.session l else none) with
  | some g => s.tailFrom u.session g + (l - s.ctxBase u.session) % 256
  | none => l

/-- A half's write to a picture through a cached window enters its cluster's cache by whole tiles: write-through with allocate; the
tile's bytes reach device memory as the Nitinol engine stores it (R70, R247, Table 3-4). -/
def State.allocTiles (s : State) (u : WUnit) (h a n : Nat) : State :=
  s.modCluster (h / 16) fun c => (linesOf a n).foldl (fun k l =>
    forUpTo 6 (fun i k => fillGranule (lineOf (slotTile (s.sess u.session) l) + 64 * i) k) k) c

/-- An admitted access of a nanoword (R44, R70, R71, R73). Accesses in the host's space run as demand requests, and writes of pictures
through Nitinol engines as tile writes. -/
def State.access (s : State) (u : WUnit) (h win : Nat) (w : Window) (op a n : Nat) (data : List Byte) : State :=
  if w.space == 0 then s
  else if op == 2 then
    (if s.barred u then s
      else if win == 15 then s.tailBytes u a (data.take n)
      else if w.nitinol then (if w.cached then s.allocTiles u h a n else s)
      else s.unitWrite u h w a (data.take n))
  else
    let t := if w.cached then forEach (linesOf a n) (fun l v => v.lookup u h l) s else s
    let ls := (linesOf a n).map (s.readsAt u win)
    if op == 1 && ls.any (fun l => s.poisoned l 64) then
      forEach (ls.filter fun l => s.poisoned l 64) (fun l v =>
        (v.report 0x08 h (some u.fn) (some u.session) 0 u.tag l).loseLine l) t |>.poisonUnit u.uid
    else t

/-- MEM_OP of a nanoword (R76, R100). -/
def State.memOp (s : State) (u : WUnit) (h : Nat) (n : BitVec 192) (x : IssueIn) : State :=
  let op := nfld n 5 26 2
  if op == 0 then s
  else
    let w := (u.windows.getD (nfld n 5 28 4) noWindow).over x.addr.toNat
    let len := 64 * nfld n 5 20 6
    if w.admits (op == 2) x.addr.toNat len then s.access u h (nfld n 5 28 4) w op x.addr.toNat len x.data else s.violate u h x.ctus

/-! ### Demand requests (R76, R147, R150, R161, R349) -/

/-- A window as a demand request at host address `a` meets it; window 1 of a decode unit is a buffer still in the output queue (R150). -/
def State.demandWindow (s : State) (u : WUnit) (win a : Nat) : Window :=
  let w := (u.windows.getD win noWindow).over a
  if win == 1 && !(s.parOf u).encode && !(s.sess u.session).outq.any (fun b => b.space == w.space && b.addr == w.base) then noWindow else w

/-- A read past the end of a decode unit's input meets the end of its data, not a violation (R161, Table 6-7). -/
def readsEnd (encode : Bool) (u : WUnit) (space a : Nat) : Bool :=
  let w := u.windows.getD 0 noWindow
  !encode && w.size != 0 && w.space == space && decide (w.base ≤ a)

/-- A half's read, where one of the unit's windows admits it; any other returns zeros and counts as a violation, save past the end of a
decode unit's input (R76, R161, R349). -/
def unitReadOp (h space a n : Nat) (s : State) : State :=
  match s.running? h with
  | none => s
  | some u =>
    if (List.range 16).any fun i => let w := s.demandWindow u i a; w.space == space && w.admits false a n then demandReadOp h space a n s
    else if readsEnd (s.parOf u).encode u space a then s
    else s.violate u h u.done

/-- A half's write granule, where its window admits it; any other is suppressed (R76, R114, R349). -/
def unitWriteOp (h win a : Nat) (bs : List Byte) (s : State) : State :=
  match s.running? h with
  | none => s
  | some u =>
    let w := s.demandWindow u win a
    if w.space != 0 || !w.admits true a bs.length then s.violate u h u.done
    else if s.barred u then s
    else demandWriteOp h win a bs s

def execDemandRead (half : Nat) (space addr len : Nat) (s : State) : Res :=
  .next (onlyIf (s.live && isHalf half && decide (64 ≤ len) && decide (len ≤ 4096) && decide (space ≤ 1)) (unitReadOp half space addr len) s)

def execDemandWrite (half : Nat) (window : Nat) (addr : Nat) (data : List Byte) (s : State) : Res :=
  .next (onlyIf (s.live && isHalf half && decide (window < 16) && decide (0 < data.length) && decide (data.length ≤ 64))
    (unitWriteOp half window addr data) s)

/-! ### Budgets (R77 to R80) -/

/-- A budget request for the unit of a tag is on its way or has arrived. -/
def Half.budgetAsked (x : Half) (tag : BitVec 16) : Bool := (x.sent ++ x.reqs).any fun r => r.1 == .abortBudget && r.2 == tag

/-- Cycles charged to a unit; those of the concealment routine are not, and reaching the budget sends the abort (R77, R79). -/
def State.charge (s : State) (u : WUnit) (h n : Nat) : State :=
  if u.aborted then s
  else
    let t := s.modUnit u.uid fun w => { w with cycles := w.cycles + n }
    if u.budget ≤ u.cycles + n && !(s.half h).budgetAsked u.tag then t.sendReq u .abortBudget else t

/-! ### Requests (R99, R102, R104, Table 4-4) -/

/-- Rank of a request. -/
def reqRank (r : SeqReq) : Int :=
  match r with
  | .abortSession => 1
  | .fenceAbort => 2
  | .abortBudget => 3
  | .abortWindow => 4
  | .preempt => 5

/-- The budget abort of a decode unit: the rest is concealed, and the unit goes on to commit (R79, Table 6-5). -/
def State.conceal (s : State) (u : WUnit) (h : Nat) : State :=
  let d : Damage := { header := u.ctus == 0, ctu := u.first + u.done, cause := 0x07, count := u.ctus - u.done }
  (((s.modUnit u.uid fun w => { w with aborted := true }).modHalf h fun x =>
    { x with budgetAborts := sat32 x.budgetAborts 1, reqs := [] }).modSess u.session fun y =>
      y.modResult u.pic fun r => { r with budget := true, damages := r.damages ++ [d] })

/-- The budget abort of an encode unit: rollback, ABORTED, a class UC record (R80). -/
def State.abortEncode (s : State) (u : WUnit) (h : Nat) : State :=
  ((s.modHalf h fun x => { x with budgetAborts := sat32 x.budgetAborts 1 }).report 0x05 h (some u.fn) (some u.session) 0 u.tag 0).failUnit u
    0x40 0x07

/-- A request is taken (Table 4-4). -/
def State.takeReq (s : State) (u : WUnit) (h : Nat) (r : SeqReq) : State :=
  match r with
  | .abortSession => s.rollback u.uid
  | .fenceAbort => (s.modUnit u.uid fun w => { w with avoid := w.avoid ++ [h] }).rollback u.uid
  | .abortBudget => if h % 2 == 1 then s.abortEncode u h else s.conceal u h
  | .abortWindow => s.failUnit u 0x11 0x08
  | .preempt => (s.modHalf h fun x => { x with preempts := sat32 x.preempts 1 }).rollback u.uid

/-- A CHECKPOINT: of the pending requests the highest-ranked is taken and the others are discarded; the concealment routine takes
ranks 1 and 2 alone (R102). -/
def State.checkpoint (s : State) (h : Nat) : State :=
  match s.running? h with
  | none => s
  | some u =>
    let rs := (s.half h).reqs.filter fun r => !u.aborted || r.1 == .abortSession || r.1 == .fenceAbort
    match leastBy (fun r => reqRank r.1) rs with
    | some r => s.takeReq u h r.1
    | none => s.modHalf h fun x => { x with reqs := [] }

/-- A request arrives: one whose tag is not the executing unit's is dropped, and its sender told so (R99, R104). -/
def requestOp (h : Nat) (r : SeqReq) (tag : BitVec 16) (s : State) : State :=
  if !(s.half h).sent.contains (r, tag) then s
  else
    let ok := (s.running? h).any fun u => u.tag == tag
    s.modHalf h fun x => { x with
      sent := x.sent.erase (r, tag), reqs := if ok then x.reqs ++ [(r, tag)] else x.reqs
      dropped := if ok then x.dropped else x.dropped ++ [(r, tag)] }

def execRequestArrival (half : Nat) (r : SeqReq) (tag : BitVec 16) (s : State) : Res :=
  .next (onlyIf (s.live && isHalf half) (requestOp half r tag) s)

/-- A unit's charged cycles have reached its budget: the abort is sent (R79, R80). -/
def budgetOp (h : Nat) (s : State) : State :=
  match s.running? h with
  | none => s
  | some u =>
    if u.aborted || (s.half h).budgetAsked u.tag then s
    else (s.modUnit u.uid fun w => { w with cycles := max w.cycles w.budget }).sendReq u .abortBudget

def execDecodeBudgetAbort (half : Nat) (s : State) : Res :=
  .next (onlyIf (s.live && isHalf half && s.halfServes half && half % 2 == 0) (budgetOp half) s)
def execEncodeBudgetAbort (half : Nat) (s : State) : Res :=
  .next (onlyIf (s.live && isHalf half && s.halfServes half && half % 2 == 1) (budgetOp half) s)

/-! ### The final CHECKPOINT (R45, R53, R61, R100, R103, R141, R156, R158) -/

/-- Damage that a unit has met by its end: headers in the unit that begins, CTUs in their own (R153, R155). -/
def WUnit.met (u : WUnit) (d : Damage) : Bool :=
  if u.kind == .finish || u.kind == .fused || u.skips then true
  else if u.kind == .start then d.header
  else !d.header && decide (u.first ≤ d.ctu) && decide (d.ctu < u.first + u.ctus)

/-- Damage known as a decode unit ends (R153, R156). -/
def State.unitDamage (s : State) (u : WUnit) (e : QEntry) (au : AuInfo) : List Damage :=
  match s.picInfo u with
  | some i => if u.skips && i.showExisting.isNone then au.damage else ((s.sess u.session).picDamage u e au i).filter u.met
  | none => au.damage

/-- The unit's commit is sent: its half is free for its other bank, and its own bank drains (R61, R103). -/
def State.sendCommit (s : State) (u : WUnit) (h : Nat) : State :=
  let x := s.half h
  let k := x.activeBank
  let t := forEach (s.dmv.demand.filter fun d => d.1 == h) (fun _ v => v.issueDemand h) s
  let v := t.modSess u.session fun y => y.modResult u.pic fun r =>
    { r with stage1 := r.stage1 || x.stage1 || s.noShare u, stage2 := r.stage2 || x.stage2,
             bytes := if u.kind == .finish || u.kind == .fused then x.fifo.bytes.length else r.bytes
             units := if u.kind == .finish || u.kind == .fused then x.fifo.units.length else r.units }
  ((v.modUnit u.uid fun w => { w with stage := .committing h k }).modHalf h (leaveHalf (.draining u.session) u)).settleHalf h

/-- A decode unit's final CHECKPOINT. -/
def State.finalDecode (s : State) (u : WUnit) (h : Nat) : State :=
  match (s.queue u.q).entry? u.seq with
  | none => s.sendCommit u h
  | some e =>
    match e.au with
    | none => s.sendCommit u h
    | some au =>
      if au.poisoned then s.failUnit u 0xF0 0x30
      else
        match (if u.kind.begins then streamStop (s.parOf u) au else none) with
        | some c => s.stopDecode u 0x20 c
        | none =>
          let ds := s.unitDamage u e au
          if (s.parOf u).conceal == 2 && !ds.isEmpty then s.stopDecode u (if causeOf ds == 0x06 then 0x21 else 0x20) (causeOf ds)
          else
            let t := match s.picInfo u with
              | some i => if u.skips then s else s.storeUnit u e au i
              | none => s
            let v := t.endCycles u e
            v.sendCommit ((v.unit? u.uid).getD u) h

/-- Bytes that the complete stream of a rolled-back unit takes, noted for its entry (R141). -/
def State.noteBytes (s : State) (u : WUnit) (n : Nat) : State :=
  s.modEntry u.q u.seq fun e =>
    if u.rend.isSome then { e with rends := e.rends.map fun r => if r.session == u.session && !r.done then { r with bytes := n } else r }
    else { e with bytes := n }

/-- An encode unit's final CHECKPOINT: the FIFO drains before the commit, and an overrun rolls back (R137, R141). -/
def State.finalEncode (s : State) (u : WUnit) (h : Nat) : State :=
  let t := if u.kind == .finish || u.kind == .fused then s.drainFifo u h
    else if u.kind == .segment then s.keepPiece u h else s.stageHeads u h
  if (t.half h).fifo.overrun then
    (t.noteBytes u (t.streamOff u + (t.half h).fifo.bytes.length)).failUnit u 0x10 0
  else
    let v := t.finishCoding u h
    v.sendCommit ((v.unit? u.uid).getD u) h

/-- A COMMIT word (R100, R103); a unit that has read an invalid tile is rolled back instead (R246). -/
def State.final (s : State) (h : Nat) : State :=
  match s.running? h with
  | none => s
  | some u =>
    let bad := s.badTiles u
    if !bad.isEmpty then s.loseTiles u h bad else if h % 2 == 1 then s.finalEncode u h else s.finalDecode u h

/-- A PUBLISH word: progress, and after the second CTU of its last row the entropy state; the row below restarts its watchdog (R53,
R98). -/
def State.publish (s : State) (u : WUnit) (x : IssueIn) : State :=
  if u.kind != .segment then s
  else
    let due := decide (u.ctus + min 2 u.cols ≤ x.ctus + u.cols)
    let put := fun m : Member => (⟨u.seg + 1, x.ctus,
      if due && !x.sync.isEmpty then x.sync else if m.seg == u.seg + 1 then m.sync else []⟩ : Member)
    let t := s.modSess u.session fun y => { y with members := tblMod ⟨0, 0, []⟩ y.members (memberSlot u.seg) put }
    match s.dsc.units.find? fun v => v.session == u.session && v.pic == u.pic && v.kind == .segment && v.seg == u.seg + 1 with
    | some v => (match v.stage with
      | .running k => t.modHalf k fun y => if y.waitProg then { y with waitCycles := 0 } else y
      | _ => t)
    | none => t

/-! ### Issue -/

/-- The gap between checkpoints after a word; the CHECKPOINT word that closes a gap counts in it (DESIGN CHOICE, log entry 73). -/
def countGap (ckpt : Bool) (x : Half) : Half :=
  let g := x.gap + 1
  { x with gap := if ckpt then 0 else g, gapMax := min 0xFFFF (max x.gapMax g) }

/-- One cycle of a half that holds at a WAIT word (R97, R98, R99). -/
def State.holdCycle (s : State) (h : Nat) (u : WUnit) (x : IssueIn) (f : Fetch) : State :=
  let prog := (s.half h).waitProg
  let t := if prog then s else s.charge u h 1
  if s.cond h u x (mCond f.word) then
    let v := t.modHalf h fun y => { y with waiting := false, waitProg := false, waitCycles := 0, nextA := BitVec.ofNat 13 (mNext f.word ||| 1) }
    if mCkpt f.word then v.checkpoint h else v
  else
    let n := if prog && s.watchHeld u then (s.half h).waitCycles else (s.half h).waitCycles + 1
    let v := t.modHalf h fun y => { y with waitCycles := n }
    if 2 ^ (s.half h).wdogExp ≤ n then v.machineCheck h 5 (s.half h).uaddr
    else if mCkpt f.word then v.checkpoint h else v

/-- The half's datapath is clock-gated: it waits on MEM_READY with a hint of at least HINT_GATE fabric cycles (R405). -/
def State.datapathGated (s : State) (h : Nat) : Bool :=
  (s.half h).waiting && mCond ((s.half h).fetch (s.half h).uaddr).word == 15
    && decide (max 17 s.mem.hintGate ≤ tblGet 0 (s.cluster (h / 16)).hints (h % 16))

/-- The CTU guard of R209 before a CTU of `bins` bins. -/
def State.guard (s : State) (u : WUnit) (h : Nat) (x : IssueIn) : State :=
  match (s.sess u.session).plan? u.pic with
  | none => s
  | some p =>
    let seg := p.segs.getD u.seg (0, 0, [])
    let m := u.ctus - x.ctus - 1
    if h % 2 == 1 && x.bins != 0 && decide (seg.1 < s.spentOf u h + 2 * x.bins + 2 + 16 + ceilDiv (4 * m) 8) then
      s.modHalf h fun y => { y with stage2 := true, forced := some (y.forced.getD x.ctus) }
    else s

/-- The unit codes CTUs on an encode half: a segment or a fused unit that does not only show a frame. -/
def WUnit.codes (u : WUnit) (h : Nat) : Bool := h % 2 == 1 && !u.show_ && (u.kind == .segment || u.kind == .fused)

/-- A word's actions: its nanoword, its access, its bytes for the FIFO, what it publishes (R96, R100). -/
def State.act (s : State) (u : WUnit) (h : Nat) (x : IssueIn) (f : Fetch) : State :=
  let n := f.nano
  let fa := u.open_ 32
  let fe := { u with steps := u.steps + 1 }.open_ 32
  let t := (s.modHalf h (nanoActions n (h % 2 == 1) x.index fa fe)).modUnit u.uid fun w => { w with done := x.ctus, steps := u.steps + 2 }
  let a := (t.memOp u h n x).guard u h x
  let b := match x.tail with
    | some g => if g.1 < 48 then a.tailWrite u g.1 g.2 else a
    | none => a
  let c := match x.fifoWord with
    | some w => if u.codes h then b.codeWord u h w.1 w.2 x.mark else b
    | none => b
  let d := if u.codes h then c.cutSlice u h x.ctus else c
  if nfld n 0 30 2 == 3 && mCkpt f.word then d.publish u x else d

/-- A word after its actions: LINK, the next address or a hold, then the commit or the requests (R92, R95, R97, R99, R100). A word with
COND 31 that also links continues at the link register's earlier value (DESIGN CHOICE, log entry 73). -/
def State.goOn (s : State) (h : Nat) (x : IssueIn) (f : Fetch) : State :=
  match s.running? h with
  | none => s
  | some u =>
    let op := nfld f.nano 0 30 2
    let c := mCond f.word
    let hold := mWait f.word && !s.cond h u x c
    let t := s.modHalf h fun y => { y with
      link := if op == 1 then f.addr + 1 else y.link
      nextA := if mWait f.word then BitVec.ofNat 13 (mNext f.word ||| 1) else s.nextAddr h u x f
      waiting := hold, waitProg := hold && (c == 18 || c == 19), waitCycles := 0 }
    if op == 2 && mCkpt f.word then t.final h
    else if mCkpt f.word then t.checkpoint h
    else t

/-- Cycles of a word: its own, its stalls, a redirection, a dispatch (R91, R94, R106). -/
def issueCycles (x : IssueIn) (f : Fetch) : Nat := 1 + x.stall + b2n f.hit + (if mCond f.word == 30 then 2 else 0)

/-- A half issues its next microword, or spends one more cycle at a WAIT word, or with its entropy engine held by a full FIFO (R91, R97,
R134). The cycle in which a WAIT word on a
progress record issues is charged; the cycles it then holds are not (DESIGN CHOICE, log entry 73: R77 does not say which). -/
def issueOp (h : Nat) (x : IssueIn) (s : State) : State :=
  match s.running? h with
  | none => s
  | some u =>
    let k := s.half h
    if k.waiting then s.holdCycle h u x (k.fetch k.uaddr)
    else if x.fifoWord.isSome && u.codes h && u.kind == .fused && s.fifoFull u h then s.charge u h 1
    else
      let f := k.fetch k.nextA
      let t := s.modHalf h fun y => { y with matchHits := if f.hit then sat32 y.matchHits 1 else y.matchHits }
      if x.parity || f.trap || f.invalid (h % 2 == 1) then t.machineCheck h 3 f.addr
      else
        let v := t.modHalf h fun y => { countGap (mCkpt f.word) y with uaddr := f.addr }
        ((v.charge u h (issueCycles x f)).act u h x f).goOn h x f

def execMicrowordIssue (half : Nat) (x : IssueIn) (s : State) : Res :=
  .next (onlyIf (s.live && isHalf half && s.halfServes half) (issueOp half x) s)

end Sys2Proof.Machine
end

