-- ==== Sys2Proof/Machine/Release.lean ====
section
/-! DEFINITION. Release of decoded pictures: into host buffers, to the MAU, and to the renditions of a ladder (06_decoding.md R147 to
R151, 07_encoding.md R188 to R191, 09_motion_analysis.md R218). -/
namespace Sys2Proof.Machine

/-- Pictures that nothing holds any longer leave their slots (R16). -/
def State.prunePics (s : State) (n : Nat) : State := s.modSess n fun x => { x with pics := x.pics.filter (s.holds n) }

/-! ### Release (R147, R151, R162) -/

/-- A released picture waits for its readers where the session analyses or the entry names a ladder. -/
def QEntry.feeds (e : QEntry) (p : Params) : Bool := p.mauEn || !e.rends.isEmpty

/-- The first due picture is released: written into buffer `b` where it goes to the host, an unpaired field marked as one (R119, R147). -/
def State.releaseInto (s : State) (q : Nat) (e : QEntry) (n : Nat) (p : Pict) (b : OutBuf) : State :=
  let x := s.sess n
  let flags := p.dflags ||| dflag 5 (p.parity != 0) ||| dflag 10 (e.toHost && x.par.filmGrain && p.grain)
  let w := if e.toHost then s.writeOut q e.seq n p b else s
  let t := w.modSess n fun y => { y with
    outq := if e.toHost then y.outq.drop 1 else y.outq
    outIndex := if e.toHost then y.outIndex + 1 else y.outIndex
    relCount := y.relCount + 1
    pics := modFirst Pict.due (fun k => { k with
      due := false, readers := if e.feeds x.par then k.readers + 1 else k.readers
      relIndex := if e.feeds x.par then some x.relCount else k.relIndex }) y.pics }
  t.modEntry q e.seq fun f => { f with
    dflags := f.dflags ||| flags
    rels := if e.toHost then f.rels ++ [(b.seq, flags, b.index, x.outIndex, p.height, p.width)] else f.rels
    relPics := if e.feeds x.par then f.relPics ++ [x.relCount] else f.relPics }

/-- One release, where a picture is due, a buffer is there, and the entry has released fewer than 12. -/
def State.releaseOne (s : State) (q : Nat) (seq : Word) (n : Nat) : State :=
  match (s.queue q).entry? seq, (s.sess n).pics.find? Pict.due with
  | some e, some p =>
    if 12 ≤ e.releases then s
    else if e.toHost then
      match (s.sess n).outq with
      | b :: _ => s.releaseInto q e n p b
      | [] => s
    else s.releaseInto q e n p { seq := 0, index := 0, space := 0, addr := 0, size := 0 }
  | _, _ => s

/-- Every release a unit may run, in output order. -/
def State.releaseDue (s : State) (q : Nat) (seq : Word) (n : Nat) : State := forUpTo 12 (fun _ t => t.releaseOne q seq n) s

/-! ### Ladders (R151, R188, R190, R191, R254, R255) -/

/-- What keeps a rendition from an entry's picture: code and cause (R38, R190, R191). -/
def State.rendStop (s : State) (n m : Nat) (e : QEntry) (p : PicShape) : Option (Nat × Nat) :=
  let x := s.sess m
  let r := e.rendDesc m
  if x.state == .draining || x.state == .free then some (0x40, 0)
  else if s.rendFails m p (s.sess n).par.depthY then some (0x41, 0x24)
  else if e64 r 16 != 0 && decide (e32 r 48 < roundUp (statNeed x.par) 64) then some (0x11, 0x22)
  else none

/-- Rendition 0's session and its display index for the picture just handed to it; none for rendition 0 itself, and where it takes
no part (R188). -/
def State.leadOf (s : State) (e : QEntry) (m : Nat) : Option (Nat × Nat) :=
  match e.rends with
  | r :: _ => if r.session == m || r.done || (s.sess r.session).nextIndex == 0 then none else some (r.session, (s.sess r.session).nextIndex - 1)
  | [] => none

/-- The picture that a rendition codes for a released picture (R180, R188). -/
def State.rendPic (s : State) (q : Nat) (e : QEntry) (n rel : Nat) (p : Pict) (shape : PicShape) (m : Nat) : SrcPic :=
  let x := s.sess m
  let dst := dstOf x.par.outDesc shape
  let lead := s.leadOf e m
  let zero := (e.rends.map RendRes.session).headD m == m
  let direct := s.direct m shape (s.sess n).par.depthY
  { index := x.nextIndex, entryQ := q, entrySeq := e.seq, slot := p.slot, width := dst.1, height := dst.2, taken := true,
    forceKey := zero && e.op == 3 && bitAt (eArg e.raw) 4, sizeKey := x.nextIndex != 0 && x.size != dst, firstKey := x.nextIndex == 0,
    followKey := zero && x.par.keyFollow && p.rap, score := 0, decided := false, key := false, keyScene := false, bpic := false, layer := 0,
    hiddenWith := false, codedIx := none, refs := [], coded := false, kind := 0, feed := some (n, rel), lead := lead, ruled := none,
    hidden_ := false, direct := direct, ready := direct, showOrd := 0, failed := 0, band := none, store := ⟨0, 0⟩ }

/-- A rendition takes a released picture; a session in SESSION_RESET recovers (R36, R191). -/
def State.feedRend (s : State) (q : Nat) (e : QEntry) (n rel : Nat) (p : Pict) (shape : PicShape) (m : Nat) : State :=
  match s.rendStop n m e shape with
  | some c => s.modEntry q e.seq (setRend m c.1 c.2)
  | none =>
    let k := s.rendPic q e n rel p shape m
    (((s.recover m).modSess m fun x => { x with src := x.src ++ [k], nextIndex := x.nextIndex + 1, size := (k.width, k.height) })).modEntry q e.seq
      fun f => { f with rends := f.rends.map fun r =>
        if r.session == m && !r.done then { r with pics := r.pics ++ [k.index], left := r.left + 1 } else r }

/-- Renditions of an entry that have not ended. -/
def State.openRends (s : State) (q : Nat) (seq : Word) : List Nat :=
  match (s.queue q).entry? seq with
  | some e => (e.rends.filter fun r => !r.done).map RendRes.session
  | none => []

/-- The MAU unit of a release of a session with MAU_EN = 1 (R218, R221). -/
def State.releaseMau (s : State) (q : Nat) (seq : Word) (n rel : Nat) (p : Pict) : State :=
  let x := s.sess n
  if x.par.mauEn then
    s.addUnit { mauUnit (blankUnit q seq n x.fn x.par.cls .mau) rel p.width p.height (decide (1 ≤ x.par.lookahead) && rel != 0) with slot := p.slot }
  else s

/-- A pass over the renditions of one group (R254). -/
def State.passUnit (s : State) (q : Nat) (seq : Word) (n rel : Nat) (shape : PicShape) (g : List Nat) : WUnit :=
  let x := s.sess n
  let ds := g.map fun m => (s.sess m).par.outDesc
  { blankUnit q seq n x.fn x.par.cls .pcf with
    pic := rel, outputs := g, lut := odLut (ds.headD 0), samples := s.passSamples shape ds, cost := per15 (s.passCost shape ds) }

/-- A released picture goes to the MAU, to every rendition, and through the passes that convert it (R151, R188, R254, R255). -/
def State.feedPicture (s : State) (q : Nat) (e : QEntry) (n rel : Nat) : State :=
  match (s.sess n).pics.find? fun p => p.relIndex == some rel with
  | none => s
  | some p =>
    let shape : PicShape := { w := p.width, h := p.height, chroma := p.chroma }
    let t := s.releaseMau q e.seq n rel p
    let v := forEach (t.openRends q e.seq) (fun m z => match (z.queue q).entry? e.seq with
      | some f => z.feedRend q f n rel p shape m
      | none => z) t
    let ms := (v.openRends q e.seq).filter fun m => !v.direct m shape (v.sess n).par.depthY
    let w := forEach (v.passes shape ms) (fun g z => z.addUnit (z.passUnit q e.seq n rel shape g)) v
    w.modSess n fun x => { x with pics := modFirst (fun k => k.relIndex == some rel) (fun k => { k with readers := k.readers - 1 }) x.pics }

/-- A rendition of an entry that released no picture ends with OK and no byte (R191). -/
def endEmptyRends (e : QEntry) : QEntry :=
  if e.relPics.isEmpty then { e with rends := e.rends.map fun r => if r.done then r else { r with done := true } } else e

/-- The decode of an entry has ended: its report is written; an entry without a ladder completes, and a ladder takes its pictures
(R15, R165, R191). -/
def State.endDecode (s : State) (q : Nat) (seq : Word) (n : Nat) : State :=
  let a := ((s.modEntry q seq fun f => { f with
    bytes := (f.au.map AuInfo.bytes).getD 0, dflags := f.dflags ||| dflag 7 (f.au.any AuInfo.missingTd) }).noteHeld q seq n).putReport q seq false
  match (a.queue q).entry? seq with
  | none => a
  | some e =>
    let t := forEach e.relPics (fun r z => z.feedPicture q e n r) a
    let v := t.modEntry q seq fun f => { endEmptyRends f with sourced := true, closing := f.closing || f.rends.isEmpty }
    ((v.settleEntry q seq).settleLadders).advanceAll n

/-- No core unit of the entry is left to a decode session: its decode ends, unless its outcome is already fixed. -/
def State.settleDecode (s : State) (q : Nat) (seq : Word) (n : Nat) : State :=
  match (s.queue q).entry? seq with
  | some e =>
    if e.stage == .running && !e.closing && !e.sourced && (s.entryUnits q seq).all fun u => !(u.kind.onCore && u.session == n)
    then s.endDecode q seq n else s
  | none => s

end Sys2Proof.Machine
end

