-- ==== Sys2Proof/Machine/Commit.lean ====
section
/-! DEFINITION. The flip that commits a core unit, and what the commit does for its picture, its session and its entry
(02_sessions.md R39, R45; 06_decoding.md; 07_encoding.md; 08_rate_control.md R210 to R214). -/
namespace Sys2Proof.Machine

/-! ### The flip (R45, R282, R289) -/

/-- A unit retires: its in-flight entry frees, and its actual cost in ns at nominal clock replaces the estimate (R282, R289). -/
def State.retire (s : State) (u : WUnit) (actual : Nat) : State :=
  ((s.freeInflight u.uid).refund u ((u.cost : Int) - (actual : Int))).dropUnit u.uid

/-- Every granule that is STALE and that the unit did not write is copied into the working slot (R45 step 3). -/
def State.copyForward (s : State) (u : WUnit) : State :=
  forUpTo 48 (fun g t =>
    if (s.sess u.session).stale.getLsbD g && !u.written.getLsbD g then
      t.memWrite (tailAt (t.ctxSlot u.session true) g) (t.memRead (tailAt (t.ctxSlot u.session false) g) 256)
    else t) s

/-- The cycles of a committed unit count for its entry and its picture (R280, Table 13-11). -/
def State.countCycles (s : State) (u : WUnit) : State :=
  (s.modEntry u.q u.seq fun e => { e with cycles := e.cycles + u.cycles }).modSess u.session fun x =>
    if u.skips || u.kind == .release then x
    else x.modResult u.pic fun r => { r with cycles := r.cycles + u.cycles, estSum := r.estSum + u.estRaw }

/-- A session's line no longer agrees with its slot. -/
def State.soil (s : State) (n : Nat) : State :=
  s.modCtx fun c => { c with sets := tblMod [] c.sets (n % 256) fun ls => ls.map fun l => if l.session == n then { l with dirty := true } else l }

/-- The flip of a unit that ran on half `h`: UNIT_SEQ, VSEL and STALE, a dirty line, and the unit retired; where the session has no
line its head goes through to the slot in device memory (R45, R58). -/
def State.flip (s : State) (u : WUnit) (h : Nat) : State :=
  let t := (s.copyForward u).modSess u.session fun x => { x with vsel := !x.vsel, stale := u.written, unitSeq := x.unitSeq + 1 }
  let v := if t.cached u.session then t.soil u.session else t.writeHead u.session false
  ((v.modHalf h fun x => { x with done := x.done + 1 }).countCycles u).retire u (per15 u.cycles)

/-! ### Decoded pictures (R145, R147, R152, R156, R160, R280) -/

/-- EST_CORR after a picture of `actual` cycles, estimated at `est` (R280). -/
def corrected (old actual est : Nat) : Nat :=
  if est == 0 then old else clampNat 64 1024 ((7 * old + min (256 * actual / est) 4096) / 8)

/-- The picture's result leaves, and EST_CORR moves with it. -/
def Session.closePicture (x : Session) (pic : Nat) : Session :=
  let r := x.result pic
  { x with estCorr := corrected x.estCorr r.cycles r.estSum, results := x.results.filter fun k => k.pic != pic, members := [] }

/-- The parameter sets of an access unit join the session's store (R131, Table 2-3). -/
def Session.storeSets (x : Session) (au : AuInfo) : Session := { x with psets := au.psets.foldl (fun t k => tblSet [] t k.1 k.2) x.psets }

/-- A picture among those of its session: a second field joins its frame (R119). -/
def Session.openPict (x : Session) (p : Pict) (info : PicInfo) : Session :=
  match x.firstField info with
  | some f => { x with pics := x.pics.map fun k => if k.num == f.num && k.parity == f.parity then
      { k with num := p.num, mate := some f.num, parity := 0, readers := 1, order := min k.order p.order } else k }
  | none => { x with pics := x.pics ++ [p] }

/-- A picture start commits: the picture holds its slot, and what it found missing is noted; at the first picture of a random access point
decoding begins, and the skip condition ends (R148, R152, R157, R159, R329). -/
def State.startPicture (s : State) (u : WUnit) (e : QEntry) (au : AuInfo) (info : PicInfo) : State :=
  s.modSess u.session fun x =>
    let y := (if u.leads e then (x.seen u e au info).storeSets au else x).noteRecovery info
    { ((y.modResult u.pic fun r => { r with started := true, missing := x.lacksRef info }).openPict (newPict u (s.parOf u) au info au.rap) info) with
      prevHdr := info.headerBytes, oldR := [] }

/-- A damaged picture is discarded under policy 1: a second field leaves its first field as it was (R156). -/
def Session.discardPict (x : Session) (pic : Nat) (info : PicInfo) : Session :=
  { x with skip := true, pics := (x.pics.filter fun p => !(p.num == pic && p.open_ && p.mate.isNone)).map fun p =>
      if p.num == pic && p.open_ then { p with num := p.mate.getD pic, mate := none, parity := 3 - info.parity, readers := 0 } else p }

/-- The last picture that a DECODE_AU entry decodes is copied to its pool buffer, as its readers see it (Table 13-6, R251; log entry 94). -/
def State.putInternal (s : State) (u : WUnit) (e : QEntry) : State :=
  match (s.sess u.session).pics.find? fun k => k.num == u.pic with
  | some k =>
    if e.op == 1 && e64 e.raw 56 != 0 && e.pics.getLast? == some u.pic then
      s.keepPlanes (e64 e.raw 56) k.chroma k.width k.height (s.shownPlanes u.session k)
    else s
  | none => s

/-- The end of a decoded picture, `x` being the session before the unit: kept, or under policy 1 discarded where it is damaged (R145,
R156, R160, R165, R167). -/
def State.endPicture (s : State) (u : WUnit) (e : QEntry) (au : AuInfo) (info : PicInfo) (x : Session) : State :=
  let p := s.parOf u
  let r := x.result u.pic
  let ds := x.picDamage u e au info
  let rec_ := (x.seen u e au info).recovers info
  let ms := x.marksOf u.pic info ds
  let flags := picFlags info r ms rec_ (x.missingOf u info) (s.hashOf p u au info)
  let note := fun (extra : BitVec 16) (t : State) => t.modEntry u.q u.seq fun f =>
    { (if ds.isEmpty then f else f.note 0x01 (causeOf ds)) with dflags := f.dflags ||| flags ||| extra }
  if p.conceal == 1 && !ds.isEmpty then
    let t := s.modSess u.session fun y => (y.closePicture u.pic).discardPict u.pic info
    (note (dflag 4 true) t).putSection u.q u.seq info ms x.pictures.toNat r.cycles (causeOf ds) 4 (flags ||| dflag 4 true)
  else
    let t := s.modSess u.session fun y =>
      { (y.closePicture u.pic).keepPict p au info u.pic (info.shown && !rec_) flags ms with pictures := y.pictures + 1, commitTime := BitVec.ofNat 64 s.time }
    (note 0 (t.putInternal u e)).putSection u.q u.seq info ms (x.pictures + 1).toNat r.cycles (causeOf ds) info.ptype flags

/-- A picture shown again is due at once, with the film-grain parameters of the reference (R145, R162). -/
def shownAgain (p : Pict) : Pict := { p with isRef := false, awaiting := false, due := true, readers := 0, relIndex := none }

/-- A frame that shows an existing one: the named picture is due once more, the virtual picture where it is missing, or, damaged under
policy 1, nothing (R145, R156, R159, R160). -/
def State.showExisting (s : State) (u : WUnit) (e : QEntry) (au : AuInfo) (info : PicInfo) (num : Nat) : State :=
  let x := s.sess u.session
  let p := s.parOf u
  let ds := x.picDamage u e au info
  let stop := p.conceal == 1 && !ds.isEmpty
  let grey : Pict := { newPict u p au info false with virtual := true, due := true, readers := 0, dflags := dflag 1 true }
  let t := s.modEntry u.q u.seq fun f => { (if ds.isEmpty then f else f.note 0x01 (causeOf ds)) with
    dflags := f.dflags ||| dflag 4 stop ||| dflag 1 (!stop && (x.refPict num).isNone) }
  t.modSess u.session fun y =>
    if stop then { y with skip := true }
    else
      let z := { y with pics := y.pics ++ [((x.refPict num).map shownAgain).getD grey] }
      { z with pics := z.pics.map fun k => if info.dropRefs.any k.isNum then { k with isRef := false } else k }

/-- An entry, or what is left of one, that decodes no picture: its parameter sets are stored, its skipped pictures recorded, and damage or
a budget reached has its policy's outcome (R131, R145, R156, R157, R515). -/
def State.endSkip (s : State) (u : WUnit) (e : QEntry) (au : AuInfo) : State :=
  let x := s.sess u.session
  let p := s.parOf u
  let r := x.result u.pic
  let ds := au.damage ++ r.damages
  let t := (s.modSess u.session fun y =>
      let z := { y.storeSets au with
        skip := y.skip || (p.conceal == 1 && !ds.isEmpty), results := y.results.filter fun k => k.pic != u.pic || k.started }
      if au.ends then z.flushDue else z).modEntry u.q u.seq
    fun f => { (if ds.isEmpty then f else f.note 0x01 (causeOf ds)) with
      dflags := f.dflags ||| dflag 3 r.budget ||| dflag 4 (p.conceal == 1 && !ds.isEmpty) }
  let from_ := if e.pics.isEmpty then 0 else u.pic - e.pics.headD u.pic
  forEach ((au.pics.drop from_).filter fun i => i.showExisting.isNone) (fun i z =>
    z.putSection u.q u.seq i [] x.pictures.toNat 0 0 4 (e.dflags &&& 0x1010)) t

/-- What a decode unit's commit does for its picture. -/
def State.commitDecode (s : State) (u : WUnit) (e : QEntry) : State :=
  match e.au, s.picInfo u with
  | some au, some info =>
    match info.showExisting with
    | some num => if u.skips then s.showExisting u e au info num else s
    | none =>
      if u.skips then s.endSkip u e au
      else match u.kind with
      | .start => s.startPicture u e au info
      | .segment => s.modSess u.session fun x => x.modResult u.pic fun r => { r with segs := r.segs ++ [u.seg] }
      | .finish => s.endPicture u e au info (s.sess u.session)
      | .fused => (s.startPicture u e au info).endPicture u e au info (s.sess u.session)
      | _ => s
  | some au, none => if u.skips then s.endSkip u e au else s
  | none, _ => s

/-- A flush of a decode session makes every picture due; a flush of a ladder's source notes how far it reaches (R145, R177). -/
def State.commitFlush (s : State) (u : WUnit) : State := s.modSess u.session Session.flushDue

/-- A decode unit commits: its picture, its releases, its entry. -/
def State.retireDecode (s : State) (u : WUnit) (h : Nat) : State :=
  let t := s.flip u h
  match (s.queue u.q).entry? u.seq with
  | none => t
  | some e =>
    let runs := u.kind == .finish || u.kind == .fused || u.kind == .release || u.skips
    let v := if u.kind == .release then t.commitFlush u else t.commitDecode u e
    let w := if runs then v.releaseDue u.q u.seq u.session else v
    let z := if u.kind == .release && (!e.rends.isEmpty || (s.sess u.session).par.mauEn) then w.modSess u.session fun x => { x with flushes := x.flushes ++ [x.relCount] } else w
    (((z.prunePics u.session).settleDecode u.q u.seq u.session).prunePics u.session).settleEntry u.q u.seq

/-! ### Encoded pictures (R181, R191, R193, R194, R196, R210 to R214, R280) -/

/-- Sum of squared error of luma at the stream's bit depth, reconstruction against coding source (R194). -/
def sseLuma (depth : Nat) (rec_ src : Plane) : Nat :=
  let k := 2 ^ (12 - depth)
  ssd (rec_.map fun r => r.map (· / k)) (src.map fun r => r.map (· / k))

/-- The summary record (Table 7-7). -/
def summary (x : Session) (e : QEntry) (p : SrcPic) (r : PicResult) (bytes score sse : Nat) : List Byte :=
  let bs := r.blocks
  let sat := fun (f : BlockRec → Nat) => min ((bs.map f).foldl (· + ·) 0) 0xFFFFFFFF
  let qps := bs.map BlockRec.qp
  let t := ((x.plan? p.index).map fun k => if x.par.rcMode == 0 then k.cap else k.target).getD 0
  leBytes 64 (put 0 0 e.seq.toNat + put 4 0 (p.index % 2 ^ 32) + put 8 0 (p.codedIx.getD 0 % 2 ^ 32)
    + put 12 27 (b2n (x.par.grainEst && !p.hiddenWith)) + put 12 26 (b2n (x.par.refresh && !p.key)) + put 12 25 (b2n p.forceKey) + put 12 24 (b2n p.keyScene)
    + put 12 16 (twosOf 8 (if bs.isEmpty then 0 else (qps.foldl (· + ·) 0) / (bs.length : Int))) + put 12 8 (p.layer % 256) + put 12 0 p.kind
    + put 16 0 (bytes % 2 ^ 32) + put 20 0 (t % 2 ^ 32)
    + put 24 0 (sat BlockRec.satd) + put 28 0 (sat BlockRec.intra) + put 32 0 (sat BlockRec.act)
    + put 36 16 ((bs.filter BlockRec.skip).length % 65536) + put 36 0 (min 65535 (bs.filter fun b => b.mode == 0).length)
    + put 40 0 (sse % 2 ^ 64) + put 48 0 (r.cycles % 2 ^ 32) + put 52 16 (score % 65536)
    + put 52 8 (twosOf 8 (qps.foldl max (qps.headD 0))) + put 52 0 (twosOf 8 (qps.foldl min (qps.headD 0))))

/-- The summary record is written to the picture's statistics (R193, R194). -/
def State.putSummary (s : State) (u : WUnit) (e : QEntry) (p : SrcPic) (r : PicResult) (bytes : Nat) : State :=
  let x := s.sess u.session
  match statPlace x.par e u.session p.index with
  | some a =>
    let sse := sseLuma x.par.depthY ((s.pictureAt (x.slotBase u.slot) x.par.chroma p.width p.height).headD []) ((s.codingSource u.session p).headD [])
    s.entryOut u.q e.seq x.fn a.2 a.1 (summary x e p r bytes (s.scoreOf u.session p) sse)
  | none => s

/-- Invar's counters for a picture: each stage it entered, and its filler (R210, R217). -/
def State.countStages (s : State) (r : PicResult) : State :=
  s.modRcu fun c => { c with
    stage1 := if r.stage1 then sat32 c.stage1 1 else c.stage1, stage2 := if r.stage2 then sat32 c.stage2 1 else c.stage2
    filler := sat32 c.filler r.filler }

/-- The rate-control state after a coded frame: K from its own data bytes, and, of a frame that is shown, balance and fullness from
its whole unit (R211, R214). -/
def Session.rateAfter (x : Session) (p : SrcPic) (r : PicResult) (shown : Bool) : RcState :=
  let carried := if shown then (x.hiddenHeld.map Prod.snd).getD 0 else 0
  let a := match x.plan? p.index with
    | some k => x.learn p k (r.bytes - r.filler - carried - k.hdr)
    | none => x.rc
  if shown then x.account r.bytes a else a

/-- A coded frame commits in its session: a hidden frame is held for the next shown one (R181). -/
def Session.codedFrame (x : Session) (p : SrcPic) (r : PicResult) (shown : Bool) (now : DWord) : Session :=
  let y := { x.closePicture p.index with
    rc := x.rateAfter p r shown, plans := x.plans.filter (fun k => k.pic != p.index), pictures := x.pictures + 1, commitTime := now
    hiddenHeld := if shown then none else some (p.index, r.bytes), headSets := if shown then some (setUnits x.par) else x.headSets }
  y.modPic p.index fun k => if shown then { k with coded := true } else { k with hidden_ := true }

/-- The unit that shows a hidden frame commits (R181). -/
def Session.shownFrame (x : Session) (ix : Nat) (r : PicResult) : Session :=
  { (x.modPic ix fun k => { k with coded := true }) with rc := x.account r.bytes x.rc, results := x.results.filter fun k => k.pic != ix }

/-- A rendition's picture is coded: its bytes and units count, and its last picture ends its part (R191). -/
def codedRend (n bytes units code : Nat) (short : Bool) (r : RendRes) : RendRes :=
  if r.session == n && !r.done then
    { r with
      bytes := r.bytes + bytes, units := r.units + units, left := r.left - 1, done := r.left ≤ 1
      code := if codeRank code 0 < codeRank r.code r.cause then code else r.code, cause := if short then 0x26 else r.cause }
  else r

/-- A picture's unit stands in its entry's buffer: the entry or the rendition ends (R174, R191, R196). -/
def State.unitWritten (s : State) (u : WUnit) (p : SrcPic) (r : PicResult) (e : QEntry) : State :=
  let x := s.sess u.session
  let code := if r.stage1 || r.stage2 then 0x02 else 0
  if u.rend.isSome then
    s.modEntry u.q u.seq fun f => { f with rends := f.rends.map (codedRend u.session r.bytes r.units code (statShort x.par e u.session p.index)) }
  else
    s.modEntry u.q u.seq fun f => { f.note code 0 with bytes := r.bytes, codedIx := p.codedIx.getD 0, closing := true }

/-- The end of a coded picture. -/
def State.endCoded (s : State) (u : WUnit) (p : SrcPic) (e : QEntry) : State :=
  let r := (s.sess u.session).result u.pic
  if u.show_ then (s.modSess u.session fun x => x.shownFrame u.pic r).unitWritten u p r e
  else
    let shown := !p.hiddenWith
    let g := (s.grainFacts u.session p).drop 4
    let t := ((s.putSummary u e p r r.bytes).countStages r).modSess u.session fun x =>
      { x.codedFrame p r shown (BitVec.ofNat 64 s.time) with grain := if shown then g else x.grain }
    if shown then t.unitWritten u p r e else t

/-- What an encode unit's commit does for its picture. -/
def State.commitEncode (s : State) (u : WUnit) (e : QEntry) (p : SrcPic) : State :=
  let start := fun t : State => t.modSess u.session fun x => { (x.modResult u.pic fun r => { r with started := true }) with
    oldR := [], prevHdr := ((x.plan? u.pic).map Plan.hdr).getD x.prevHdr }
  match u.kind with
  | .start => start s
  | .segment => s.modSess u.session fun x => x.modResult u.pic fun r => { r with segs := r.segs ++ [u.seg] }
  | .finish => s.endCoded u p e
  | .fused => (if u.show_ then s else start s).endCoded u p e
  | _ => s

/-- What follows the commit of a coded picture: flushes, ladders, decisions, slots (R173, R177, R180, R191, R220). -/
def State.afterCoded (s : State) (n : Nat) (p : SrcPic) : State :=
  let m := (p.at_ n).1
  let t := ((s.settleLadders).advanceAll m).pruneAna m
  ((t.modSess n Session.pruneSrc).settleFlushes n).prunePics m

/-- An encode unit commits: its picture, its entry, its session. -/
def State.retireEncode (s : State) (u : WUnit) (h : Nat) : State :=
  let t := s.flip u h
  match (s.queue u.q).entry? u.seq, (s.sess u.session).pic? u.pic with
  | some e, some p =>
    let v := (t.commitEncode u e p).settleEntry u.q u.seq
    if u.kind == .finish || u.kind == .fused then v.afterCoded u.session p else v
  | _, _ => t

/-! ### The command -/

/-- The commit is ordered before every reset of its session, so that it applies (R38, R39, R103). -/
def State.commitApplies (s : State) (u : WUnit) : Bool :=
  (s.sess u.session).state != .sessionReset && (s.sess u.session).state != .free
    && !(u.wantDrop && match (s.queue u.q).entry? u.seq with
      | some e => e.code == 0x30
      | none => false)

/-- The Memory Fabric has acknowledged every write of a unit, in device memory and in the host's, its progress record among them (R45 step
2, R137, R140). -/
def State.writesAcked (s : State) (u : WUnit) : Bool :=
  s.linesAcked u.lines && (s.func u.fn).held.isEmpty
    && match (s.queue u.q).entry? u.seq with
      | some e => s.entryAcked u.q e && e.due.isEmpty
      | none => true

/-- The progress record of a unit that is to commit is written once it may be; that of one which a reset or drain discards is not (R140,
R142). -/
def State.dueBefore (s : State) (u : WUnit) : State :=
  if s.commitApplies u then s.putDue u.q u.seq
  else s.modEntry u.q u.seq fun e => { e with due := e.due.filter fun r => r.rend != (if u.rend.isSome then some u.session else none) }

/-- The flip of a unit once the fabric has acknowledged its writes (R45); a commit ordered after a reset is a rollback (R39). -/
def flipOp (u : WUnit) (h : Nat) (s : State) : State :=
  if !s.writesAcked u then s
  else if !s.commitApplies u then (s.modUnit u.uid fun w => { w with wantDrop := true }).rollback u.uid
  else
    let t := if (s.sess u.session).par.encode then s.retireEncode u h else s.retireDecode u h
    ((t.settleState u.session).settleDrain u.session)

/-- The flip of the unit of an in-flight entry. -/
def commitOp (ix : Nat) (s : State) : State :=
  match s.dsc.inflight.find? fun p => p.1 == ix with
  | none => s
  | some (_, uid) =>
    match s.unit? uid with
    | none => s
    | some u =>
      match u.stage with
      | .committing h _ => flipOp u h ((s.ackTiles (u.windows.getD 3 noWindow).base).dueBefore u)
      | _ => s

def execCommitFlip (entry : Nat) (s : State) : Res := .next (onlyIf s.live (commitOp entry) s)

end Sys2Proof.Machine
end

