-- ==== Sys2Proof/Machine/Analysis.lean ====
section
/-! DEFINITION. The end of MAU units and PCF passes, and their parity errors (09_motion_analysis.md, 11_pixel_conversion.md,
19_faults_recovery.md Table 19-5). -/
namespace Sys2Proof.Machine

/-! ### Units on engines and pipes -/

/-- The unit that runs on PCF pipe `p`. -/
def State.pcfUnit? (s : State) (p : Nat) : Option WUnit :=
  let k := tblGet 0 s.pcf.units p
  if k == 0 then none else (s.unit? (k - 1)).filter fun u => u.kind == .pcf && u.stage == .running p

/-! ### Analysis slots in device memory (R219, R221, R226, Table 9-1) -/

/-- Bytes of a plane at a pitch. -/
def planeBytes (pitch : Nat) (p : Plane) : List (Nat × List Byte) :=
  (List.range p.length).map fun y => (y * pitch, (p.getD y []).map fun v => BitVec.ofNat 8 v)

/-- A picture's quarter and sixteenth planes are written to its slot (R221). -/
def State.storePlanes (s : State) (n : Nat) (a : AnaPic) (cur : Plane) : State :=
  let x := s.sess n
  let q := quarterPlane a.width a.height cur
  let qp := roundUp (ceilDiv x.par.maxW 4) 256
  let b := x.mauR.base + a.slot * anaSlotSize x.par
  (s.writeRuns b (planeBytes qp q)).writeRuns (b + up4k (qp * ceilDiv x.par.maxH 4))
    (planeBytes (roundUp (ceilDiv x.par.maxW 16) 256) (sixteenthPlane a.width a.height q))

/-! ### The end of a MAU unit (R172, R221, R224, R226 to R231) -/

/-- A picture's analysis as its unit commits; `closed` says that a flush has closed its forward direction. -/
def analysisOf (p : Params) (a : AnaPic) (back closed : Bool) (cur prev : Plane) : AnaPic :=
  let f := fieldOf a.width a.height cur (if back then some (searchAll a.width a.height cur prev) else none)
  { a with
    complete := true, final := p.lookahead == 0 || closed, flushed := closed, first := !back, field := f, score := sceneScore (!back) f
    meanY := meanLuma a.width a.height cur }

/-- The picture before takes its forward search, and its field is final (R221 pass 3, R224). -/
def closeForward (cur prev : Plane) (a : AnaPic) : AnaPic :=
  { a with field := withForward a.field (searchAll a.width a.height prev cur), fwd := true, final := true }

/-- A field of a decode session that is final goes to the statistics buffer of the ladder entry that released the picture, at its
stride (R230, R231). -/
def State.sourceStats (s : State) (n : Nat) (a : AnaPic) : State :=
  if (s.sess n).par.encode || !a.final then s
  else
    match s.allEntries.find? fun p => p.2.op == 3 && p.2.sess == n && p.2.relPics.contains a.index && p.2.stage == .running with
    | none => s
    | some (q, e) =>
      let k := e.relPics.idxOf a.index
      if e64 e.raw 56 == 0 || 8 ≤ k then s
      else s.putField q e.seq (s.sess n).fn (e8 e.raw 31) (e64 e.raw 56 + k * e32 e.raw 44) (s.sess n).par.maxW a

/-- A source picture has been taken in: its display index is consumed (R172, R180). -/
def Session.takeIn (x : Session) (u : WUnit) : Session :=
  let w := ((x.pic? u.pic).map fun p => (p.width, p.height)).getD (0, 0)
  { x.modPic u.pic (fun p => { p with
      taken := true, slot := u.slot, firstKey := p.index == 0, sizeKey := p.index != 0 && x.size != w }) with
    nextIndex := x.nextIndex + 1, size := w }

/-- Counters of a committed MAU unit (R234). -/
def Mau.count (m : Mau) (blocks : Nat) (hit : Bool) : Mau :=
  { m with pictures := sat64 m.pictures 1, blocks := sat64 m.blocks blocks, scHits := if hit then sat32 m.scHits 1 else m.scHits }

/-- The engine of a unit is free. -/
def State.freeEngineOf (s : State) (e : Nat) : State :=
  s.modMau fun m => { m with units := tblSet 0 m.units e 0 }

/-- What follows an analysis in its session: decisions, slots, entries that waited for the field. -/
def State.afterAnalysis (s : State) (n : Nat) (u : WUnit) : State :=
  let t := (s.settleAnalysis n).advanceAll n
  ((((t.pruneAna n).prunePics n).settleEntry u.q u.seq).settleLadders).settleFlushes n

/-- The analysis of a unit's picture, written where it is kept and where it is asked for. -/
def State.storeAnalysis (s : State) (u : WUnit) (a : AnaPic) (cur prev : Plane) : State :=
  let n := u.session
  let x := s.sess n
  let b := analysisOf x.par a (x.hasBack u.pic a.width a.height) (s.flushCloses n u.pic) cur prev
  let fwd := x.forwardOf u.pic a.width a.height
  let move := fun k : AnaPic =>
    if k.index == u.pic then b
    else if !(k.complete && k.index + 1 == u.pic) then k
    else if fwd.isSome then closeForward cur prev k
    else { k with final := true }
  let t := s.modSess n fun y => { y with ana := y.ana.map move, anaNext := max y.anaNext (u.pic + 1), anaSize := (a.width, a.height) }
  let v := ((t.storePlanes n b cur).storeField n b).sourceStats n b
  let w := forEach ((v.sess n).ana.filter fun k => k.index + 1 == u.pic && k.final) (fun k z => (z.storeField n k).sourceStats n k) v
  ((w.modMau fun m => m.count (blocksOf a.width a.height) (x.par.encode && decide (x.par.scThresh ≤ b.score))).modSess n fun y =>
    if y.par.encode then y.takeIn u else y).retire u (per12 (blocksOf a.width a.height * (16 + 8 * b2n fwd.isSome)))

/-- The picture that a MAU unit reads: none where the read met poison. Of an encode session it is the entry's source, in host memory as
`src` gives it or in device memory; of a decode session the picture in its reference slot (R172, R196, R221). -/
def State.mauSource (s : State) (u : WUnit) (src : Block) : Option (List Plane) :=
  let x := s.sess u.session
  if x.par.encode then
    match (s.queue u.q).entry? u.seq with
    | none => none
    | some e =>
      let n := hostSize (srcFormat e.raw) (srcW e.raw) (srcH e.raw)
      let of_ := fun bs => some (hostPlanes (srcFormat e.raw) x.par.depthY (srcW e.raw) (srcH e.raw) bs)
      if e8 e.raw 28 == 1 then (if s.poisoned (e64 e.raw 16) n then none else of_ (s.memRead (e64 e.raw 16) n))
      else if src.ok then of_ src.bytes else none
  else
    match x.pics.find? fun p => p.relIndex == some u.pic with
    | none => none
    | some p => some (s.shownPlanes u.session p)

/-- Where in device memory an entry's source picture in a host format lies; nowhere where it is in the host's. -/
def State.sourceLines (s : State) (u : WUnit) : List (Nat × Nat) :=
  match (s.queue u.q).entry? u.seq with
  | some e => if e.op != 3 && e.op != 7 && e8 e.raw 28 == 1 then [(e64 e.raw 16, hostSize (srcFormat e.raw) (srcW e.raw) (srcH e.raw))] else []
  | none => []

/-- Luma of the picture before: from the slot that still holds it, or as the engine read it before that slot was released. -/
def State.prevLuma (s : State) (u : WUnit) (prev : Plane) : Plane :=
  let x := s.sess u.session
  let read := fun base w h => (s.pictureAt base x.par.chroma w h).headD []
  if x.par.encode then
    match x.src.find? fun p => p.index + 1 == u.pic && p.taken with
    | some p => read (x.srcR.base + p.slot * srcSlotSize x.par) p.width p.height
    | none => prev
  else
    match x.pics.find? fun p => p.relIndex.any fun r => r + 1 == u.pic with
    | some p => (s.shownPlanes u.session p).headD []
    | none => prev

/-- An intake writes the picture into its source slot in PF_NITINOL form (R172). -/
def State.storeSource (s : State) (u : WUnit) (a : AnaPic) (ps : List Plane) : State :=
  let x := s.sess u.session
  if x.par.encode then s.storePicture (x.srcR.base + u.slot * srcSlotSize x.par) x.par.chroma a.width a.height ps else s

/-- The MAU unit of the picture before has committed: the units of a session commit in its order (R221; log entry 88). -/
def State.mauInOrder (s : State) (u : WUnit) : Bool :=
  if (s.sess u.session).par.encode then u.pic == (s.sess u.session).nextIndex
  else (before (s.dsc.units.filter fun v => v.session == u.session) u.uid).all fun v => v.kind != .mau

/-- A MAU unit commits (R224); one that read poison leaves with its entry, having taken nothing in (R172, R196). -/
def mauDoneOp (e : Nat) (src : Block) (prev : Plane) (s : State) : State :=
  match (s.mauUnit? e).filter s.mauInOrder with
  | none => s
  | some u =>
    match s.ana? u.session u.pic with
    | none => s
    | some a =>
      let bad := s.badTiles u
      if !bad.isEmpty then (s.loseTiles u (0x88 + e) bad).advanceAll u.session
      else match s.mauSource u src with
      | none => (s.readPoison u (0x88 + e) (s.sourceLines u)).advanceAll u.session
      | some ps =>
      let t := ((s.storeSource u a ps).storeAnalysis u a (ps.headD []) (s.prevLuma u prev)).freeEngineOf e
      let v := t.modEntry u.q u.seq fun f => { f with analysed := f.op == 5 }
      ((v.afterAnalysis u.session u).settleState u.session).settleDrain u.session

def execMauUnitDone (engine : Nat) (src : Block) (prev : Plane) (s : State) : Res :=
  .next (onlyIf (s.live && decide (engine < 8)) (mauDoneOp engine src prev) s)

/-! ### Parity of an engine (R223, R440) -/

/-- An engine's bit is cleared, unless it is the last: then the fault is class F (R440). -/
def State.disableEngine (s : State) (e : Nat) : State :=
  if s.mau.enable &&& ~~~ BitVec.twoPow 8 e == 0 then s.report 0x33 (0x88 + e) none none (0x88 + e) 0 0
  else s.modMau fun m => { m with enable := m.enable &&& ~~~ BitVec.twoPow 8 e }

/-- A parity error of an engine: its unit rolls back, and at UNIT_LIMIT events the engine is disabled (R440, Table 19-5). -/
def mauParityOp (e : Nat) (s : State) : State :=
  let u? := s.mauUnit? e
  let n := tblGet 0 s.mau.parity e + 1
  let t := (s.tookFree.modMau fun m => { m with parity := tblSet 0 m.parity e n }).report 0x03 (0x88 + e) (u?.map WUnit.fn)
    (u?.map WUnit.session) (freeNow s 16).toNat ((u?.map WUnit.tag).getD 0) 0
  let v := match u? with
    | some u => t.rollback u.uid
    | none => t
  if s.policy.unitLimit ≤ n then v.disableEngine e else v

def execMauParity (engine : Nat) (s : State) : Res := .next (onlyIf (s.live && decide (engine < 8)) (mauParityOp engine) s)

/-! ### The end of a PCF pass (R253 to R269) -/

/-- The source of a pass: an entry's, or a released picture's. -/
def State.passShape (s : State) (u : WUnit) : PicShape :=
  match (s.queue u.q).entry? u.seq with
  | some e =>
    if e.op == 4 then convertShape e.raw
    else match (s.sess u.session).pics.find? fun p => p.relIndex == some u.pic with
      | some p => { w := p.width, h := p.height, chroma := p.chroma }
      | none => { w := 0, h := 0, chroma := 1 }
  | none => { w := 0, h := 0, chroma := 1 }

/-- The filter banks of the image (R259). -/
def State.banks (s : State) : List FilterBank := (s.img.map Image.banks).getD []

/-- One output of a conversion is written: tiles of PF_NITINOL, or rows of a host format (R236, R240, R268). -/
def State.putOutput (s : State) (q : Nat) (seq : Word) (fn : Nat) (t : Template) (d : Entry) (shape : PicShape) (ps : List Plane) : State :=
  let dst := dstOf d shape
  if odFormat d == 15 then
    (s.storePicture (odAddr d) t.chroma dst.1 dst.2 (to12 t.depth ps)).modEntry q seq fun e =>
      { e with lines := e.lines ++ linesOf (odAddr d) (nitinolSize t.chroma dst.1 dst.2) }
  else forEach (hostRuns (odAddr d) (hostRows (odFormat d) t.depth ps)) (fun r v => v.entryOut q seq fn (odSpace d) r.1 r.2) s

/-- Every output of a CONVERT_PICTURE pass. -/
def State.putOutputs (s : State) (u : WUnit) (e : QEntry) (shape : PicShape) (planes : List Plane) (lut : List DWord) : State :=
  let d0 := e.blocks.headD 0
  match s.template? (odRoute d0) with
  | none => s
  | some t0 =>
    let f := frontPlanes s.banks t0 lut d0 shape (chromaPlanes (u.open_ (24 * shape.w * shape.h)).toNat shape planes)
    forEach e.blocks (fun d v => match v.template? (odRoute d) with
      | some t => v.putOutput u.q u.seq u.fn t d shape (outputPlanes v.banks t d shape u.pic f)
      | none => v) s

/-- The source planes of a pass: a released picture's or a PF_NITINOL source's tiles, or a source in a host format from device memory or as
the host's memory gives it; none where the read met poison (R253, R257). -/
def State.passPlanes (s : State) (u : WUnit) (e : QEntry) (shape : PicShape) (src : Block) : Option (List Plane) :=
  if e.op == 4 then
    let f := srcFormat e.raw
    let of_ := fun bs => some (hostPlanes f (if f == 0 then 8 else if f == 2 then 10 else 12) shape.w shape.h bs)
    if f == 15 then some (s.pictureAt (e64 e.raw 16) shape.chroma shape.w shape.h)
    else if e8 e.raw 28 == 1 then
      (let n := hostSize f shape.w shape.h
       if s.poisoned (e64 e.raw 16) n then none else of_ (s.memRead (e64 e.raw 16) n))
    else if src.ok then of_ src.bytes else none
  else ((s.sess u.session).pics.find? fun p => p.relIndex == some u.pic).map (s.shownPlanes u.session)

/-- A pass may run: the LUT that it reads is whole in its pipe's SRAM (R262). -/
def State.lutOk (s : State) (u : WUnit) (p : Nat) : Bool := !s.usesLut (s.passDesc u) || tblGet false s.pcf.lutValid p

/-- The outputs of a ladder's pass are stored for its renditions in PF_NITINOL form (R14, R240, R254). -/
def State.storeRends (s : State) (u : WUnit) (shape : PicShape) (planes : List Plane) (lut : List DWord) : State :=
  let d0 := (u.outputs.map fun m => (s.sess m).par.outDesc).headD 0
  match s.template? (odRoute d0) with
  | none => s
  | some t0 =>
    let f := frontPlanes s.banks t0 lut d0 shape (chromaPlanes (u.open_ (24 * shape.w * shape.h)).toNat shape planes)
    forEach u.outputs (fun m v =>
      let d := (v.sess m).par.outDesc
      match v.template? (odRoute d), (v.sess m).src.find? fun p => p.feed == some (u.session, u.pic) && p.store.size != 0 with
      | some t, some p => v.storePicture p.store.base t.chroma p.width p.height (to12 t.depth (outputPlanes v.banks t d shape u.pic f))
      | _, _ => v) s

/-- A pass's renditions have their picture (R15). -/
def State.readyRends (s : State) (u : WUnit) : State :=
  let mark := fun p : SrcPic =>
    if p.feed == some (u.session, u.pic) && p.entryQ == u.q && p.entrySeq == u.seq then { p with ready := true } else p
  forEach u.outputs (fun m t => t.modSess m fun x => { x with src := x.src.map mark }) s

/-- Counters of a committed pass (R272). -/
def Pcf.count (m : Pcf) (p samples : Nat) : Pcf :=
  { m with passes := sat64 m.passes 1, outSamples := sat64 m.outSamples samples, units := tblSet 0 m.units p 0 }

/-- A pass commits its outputs, or, having read poison, leaves with its entry (R168, R269). -/
def passDoneOp (p : Nat) (src : Block) (s : State) : State :=
  match s.pcfUnit? p with
  | none => s
  | some u =>
    let bad := s.badTiles u
    if !bad.isEmpty then s.loseTiles u (0x90 + p) bad
    else
      match (s.queue u.q).entry? u.seq with
      | none => s.discardUnit u
      | some e =>
      match (s.passPlanes u e (s.passShape u) src).filter fun _ => s.lutOk u p with
      | none => s.readPoison u (0x90 + p) (s.sourceLines u ++ if s.usesLut (s.passDesc u) then [(u.lut, 39304)] else [])
      | some ps =>
        let lut := tblGet [] s.pcf.lut p
        let conv := e.op == 4
        let t := if conv then s.putOutputs u e (s.passShape u) ps lut else (s.storeRends u (s.passShape u) ps lut).readyRends u
        let v := (t.modPcf fun m => m.count p u.samples).retire u u.cost
        if conv then v.closeEntry u.q u.seq 0 0
        else (((((v.prunePics u.session).settleEntry u.q u.seq).settleState u.session).settleDrain u.session))

/-- What the reads of a source in host memory return comes with the pass: the bytes of its luma plane, then those of its chroma. -/
def execPcfPassDone (pipe : Nat) (luma chroma : List Byte) (poisoned : Bool) (s : State) : Res :=
  .next (onlyIf (s.live && decide (pipe < 16)) (passDoneOp pipe ⟨!poisoned, luma ++ chroma⟩) s)

/-! ### Parity of a pipe (R270, R440) -/

/-- A pipe's bit is cleared, unless it is the last: then the fault is class F (R440). -/
def State.disablePipe (s : State) (p : Nat) : State :=
  if s.pcf.enable &&& ~~~ BitVec.twoPow 16 p == 0 then s.report 0x33 (0x90 + p) none none (0x90 + p) 0 0
  else s.modPcf fun m => { m with enable := m.enable &&& ~~~ BitVec.twoPow 16 p }

/-- A parity error of a pipe: the pass rolls back, the LUT is invalid, a class C fault is recorded, and at UNIT_LIMIT events the pipe
is disabled (R270, R440). -/
def pcfParityOp (p : Nat) (s : State) : State :=
  let u? := s.pcfUnit? p
  let n := tblGet 0 s.pcf.parity p + 1
  let t := (s.tookFree.modPcf fun m => { m with
    parity := tblSet 0 m.parity p n, parityN := sat32 m.parityN 1, lutValid := tblSet false m.lutValid p false }).report 0x01 (0x90 + p)
    (u?.map WUnit.fn) ((u?.map WUnit.session).filter fun k => decide (k < 2 ^ 20)) (freeNow s 16).toNat ((u?.map WUnit.tag).getD 0) 0
  let v := match u? with
    | some u => t.rollback u.uid
    | none => t
  if s.policy.unitLimit ≤ n then v.disablePipe p else v

def execPcfParity (pipe : Nat) (s : State) : Res := .next (onlyIf (s.live && decide (pipe < 16)) (pcfParityOp pipe) s)

end Sys2Proof.Machine
end

