-- ==== Sys2Proof/Machine/Patch.lean ====
section
/-! DEFINITION. The microcode patch: the checks of R108 and how it is loaded into every half (04_control_store.md R105 to R110). -/
namespace Sys2Proof.Machine

/-- Fields of Table 4-6. -/
def patchLevelOf (b : List Byte) : Nat := u16 b 8
def patchMicros (b : List Byte) : Nat := u16 b 12
def patchNanos (b : List Byte) : Nat := u8 b 14
def patchMatches (b : List Byte) : Nat := u8 b 15

/-- MAGIC, FORMAT, STEPPING, the ranges of the counts and the reserved fields (R108, Table 4-6). A failure of any of them is a
content rejection, STATUS 5; LEVEL 0, a count out of its range and a nonzero reserved field fail too (DESIGN CHOICE, log entry 69: Table
4-11 has no code of its own for them, and R108 does not list the last three). -/
def patchHeaderOk (b : List Byte) : Bool :=
  b.length == 2848 && u32 b 0 == 0x5A504348 && u16 b 4 == 1 && u16 b 6 == 0x00A1 && patchLevelOf b != 0 && zeros b 10 2
    && decide (patchMicros b ≤ 256) && decide (patchNanos b ≤ 64) && decide (patchMatches b ≤ 32) && zeros b 28 4 && zeros b 48 16

/-- The signature over bytes 0 to 2,751 verifies under the Proush root key. -/
def patchSigned (b : List Byte) : Bool := Config.rootOk (Config.sha384 (b.take 2752)) (b.drop 2752)

/-- The image with its payload decrypted, where the tag is right. -/
def patchPlain (b : List Byte) : Option (List Byte) :=
  (Config.gcmOpen ((b.drop 16).take 12) (b.take 32) ((b.drop 32).take 16) ((b.drop 64).take 2688)).map fun p => b.take 64 ++ fitBytes 2688 p

/-- Fields of match entry `i` (Table 4-12). -/
def matchAt (b : List Byte) (i : Nat) : Word := wordAt b (64 + 4 * i)
def matchValid (w : Word) : Bool := bitAt w.toNat 31
def matchNano (w : Word) : Bool := bitAt w.toNat 30
def matchSource (w : Word) : Nat := fld w.toNat 8 13
def matchTarget (w : Word) : Nat := fld w.toNat 0 8

/-- The rules for match entry `i` (R108). -/
def matchOk (b : List Byte) (i : Nat) : Bool :=
  let w := matchAt b i
  !matchValid w ||
    (decide (i < patchMatches b) && decide (matchSource w < if matchNano w then 0xFC0 else 0x1F00)
      && decide (matchTarget w < if matchNano w then patchNanos b else patchMicros b)
      && (List.range i).all fun j =>
          let v := matchAt b j
          !(matchValid v && matchNano v == matchNano w && matchSource v == matchSource w))

/-- A half as it would stand with the patch loaded. -/
def patched (b : List Byte) : Half := loadPatch b (patchLevelOf b) Half.init

/-- The rules for patch microword `p`, with the nanoword it names (R108). -/
def patchMicroOk (b : List Byte) (p : Nat) : Bool :=
  let f := (patched b).fetch (BitVec.ofNat 13 (0x1F00 + p))
  let op := nfld f.nano 0 30 2
  !f.invalid true && !((op == 2 || op == 3) && !mCkpt f.word)
    && !(decide (0x1F00 ≤ mNext f.word) && decide (0x1F00 + patchMicros b ≤ mNext f.word)) && !(p == 255 && op == 1)

/-- Patch nanoword `q` holds no reserved encoding (Table 4-3). -/
def patchNanoOk (b : List Byte) (q : Nat) : Bool :=
  !(Fetch.mk 0 0 (tblGet 0 (patched b).patchNano q) false false).invalid true

/-- The content of a decrypted patch obeys R108. -/
def patchContentOk (b : List Byte) : Bool :=
  ((List.range 32).all (matchOk b)) && ((List.range (patchMicros b)).all (patchMicroOk b)) && (List.range (patchNanos b)).all (patchNanoOk b)

/-- The checks of R108 on the patch image that the bytes begin with: SEQ_PATCH.STATUS of a rejection, or the patch decrypted. -/
def checkPatch (arb : Nat) (raw : List Byte) : Sum Nat (List Byte) :=
  let b := raw.take 2848
  if !patchHeaderOk b then .inl 5
  else if !patchSigned b then .inl 2
  else
    match patchPlain b with
    | none => .inl 3
    | some p => if patchLevelOf p / 1024 < arb then .inl 4 else if patchContentOk p then .inr p else .inl 5

/-- What step 2 finds in the flash: the patch to load, none with ROM alone, or the STATUS of a rejection (R107, R108). -/
def bootPatch (arb : Nat) (raw : Option (List Byte)) : Sum Nat (Option (List Byte)) :=
  match raw with
  | none => if arb == 0 then .inr none else .inl 4
  | some b =>
    match checkPatch arb b with
    | .inl r => .inl r
    | .inr p => .inr (some p)

/-- A half at boot: with the patch, from ROM alone, or FENCED with cause 2 after a rejection (R107, R108). -/
def patchHalf (r : Sum Nat (Option (List Byte))) (h : Half) : Half :=
  match r with
  | .inl st => { h with fstate := .fenced, cause := 2, patchStatus := st, patchLevel := 0 }
  | .inr none => h
  | .inr (some b) => loadPatch b (patchLevelOf b) h

end Sys2Proof.Machine
end

