-- ==== Sys2Proof/Machine/Boot.lean ====
section
/-! DEFINITION. Reset inputs, the boot steps, fuses and the firmware's requests (20_boot_configuration.md,
22_package_electrical.md). -/
namespace Sys2Proof.Machine

/-! ### Reset inputs (R453, R501, R502) -/

/-- A channel after PERST#: in self-refresh where it was trained; a migration begins again from P = 0 (R419, R428). CE_THRESH
holds until cold reset (R414, Table 18-10). -/
def perstChn (c : Chn) : Chn :=
  { Chn.init with state := if c.state == 0 || c.state == 5 then 0 else 4, thresh := c.thresh, mig := c.mig.map fun m => { m with p := 0, mask := 0 } }

/-- Patch memory and match registers keep their contents while VDD_CC is applied (R109). -/
def keepPatches (hs : Tbl Half) : Tbl Half :=
  forEach (tblKeys hs) (fun h t => tblMod Half.init t h fun x =>
    let y := tblGet Half.init hs h
    { x with matches_ := y.matches_, patchMicro := y.patchMicro, patchNano := y.patchNano }) []

/-- The state while PERST# is asserted: what R436, R453 and R501 keep, and every other register at its reset value. The counts of
CCA_STRESS lie in the always-on island (R90). -/
def State.atPerst (s : State) : State :=
  { State.reset with
    pending := s.pending, free := s.free, aon := s.aon, out := s.out, pins := { s.pins with perst := true, alive := false }
    boot := { Boot.init with
      fuses := s.boot.fuses, flash := s.boot.flash, protLock := s.boot.protLock, regions := s.boot.regions,
      functions := s.boot.functions, therm := s.boot.therm }
    cores := forUpTo 64 (fun k t => tblMod Core.init t k fun c => { c with stress := (s.core k).stress }) []
    halves := keepPatches s.halves
    mem := { Mem.init with
      cells := s.mem.cells, poison := s.mem.poison,
      chans := forUpTo 16 (fun k t => tblMod Chn.init t k fun _ => perstChn (s.chn k)) [] }
    fcl := { s.fcl with inSafe := false, aliveStopped := false, restarts := [], mpFenced := 0, mpDown := 0 } }

/-- The state while PWRGOOD is 0: nothing survives but fuses, flash, the stress counts and THERMTRIP_N (R453, R501, R508). -/
def State.atCold (s : State) : State :=
  { State.reset with
    pending := s.pending, free := s.free, out := s.out
    pins := { Pins.init with perst := s.pins.perst, thermtrip := s.pins.thermtrip }
    boot := { Boot.init with fuses := s.boot.fuses, flash := s.boot.flash }
    cores := forUpTo 64 (fun k t => tblMod Core.init t k fun c => { c with stress := (s.core k).stress }) [] }

/-- PERST# asserts: every unit stops and the DRAM refreshes itself (R501). -/
def perstOp (s : State) : State := s.atPerst.settleAlert

def execPerstAssert (s : State) : Res :=
  .next (if s.pins.perst then s else if s.pins.pwrgood then perstOp s else s.modPins fun p => { p with perst := true })

/-- PWRGOOD falls: a cold reset (R453). -/
def coldOp (s : State) : State := s.atCold

def execPwrgoodFall (s : State) : Res := .next (onlyIf s.pins.pwrgood coldOp s)

/-- PWRGOOD rises: the always-on time starts, and for 2 ms the device is held as with PERST# asserted (R501). -/
def pwrgoodRiseOp (s : State) : State :=
  { s with aon := 0, pins := { s.pins with pwrgood := true, settled := false } }

def execPwrgoodRise (s : State) : Res := .next (onlyIf (!s.pins.pwrgood) pwrgoodRiseOp s)

/-! ### Population and image at boot (R400, R414, R471, R467) -/

/-- Population rules of R400: sixteen DIMMs, all of one supported organisation. -/
def populationOk (ds : List Dimm) : Bool :=
  match ds with
  | [] => false
  | d :: _ => ds.length == 16 && decide (d.width < 2) && decide (d.density < 3) && [1, 2, 4].contains d.ranks
      && ds.all fun e => e.present && e.width == d.width && e.density == d.density && e.ranks == d.ranks && decide (e.rate < 6)

/-- The lowest rate that all DIMMs support (R400). -/
def commonRate (ds : List Dimm) : Nat := (ds.map Dimm.rate).foldl min 5

/-- The first TOPOLOGY field that does not equal the trained population (R471). -/
def populationBad (i : Image) (b : List Byte) (d : Dimm) : Option Nat :=
  let o := match imageSects b with
    | .inr ss => (sectOf ss 1).at_
    | .inl _ => 0
  firstBad [(o + 1, i.ranks == d.ranks), (o + 2, i.width == d.width), (o + 3, i.density == d.density)]

/-- The image would build exactly the locked tables (R467). -/
def State.rebuilds (s : State) (i : Image) : Bool :=
  !s.boot.protLock || (decide (i.regions = s.boot.regions) && i.fns.length == s.boot.functions)

/-- Step 4's check of one IMAGE copy: REASON and OFFSET, or the image (R460, R467, R471, R479). -/
def State.checkCopy (s : State) (d : Dimm) (b : List Byte) : Sum (Nat × Nat) Image :=
  match checkImage s.boot.fuses b with
  | .inl r => .inl r
  | .inr i =>
    match populationBad i b d with
    | some o => .inl (0x10, o)
    | none => if s.rebuilds i then .inr i else .inl (0x12, 0)

/-- A copy holds MAGIC. -/
def hasMagic (c : Option (List Byte)) : Bool :=
  match c with
  | some b => u32 b 0 == 0x5A524B31
  | none => false

/-- The other copy of a pair where `cur` names B. -/
def copyOf {α : Type} (a b : α) (second : Bool) : α := if second then b else a

/-- Step 4: the CURRENT image copy, or the other; the copy taken, or the last check's result (R460). -/
def State.chooseImage (s : State) (d : Dimm) (f : Flash) : Sum (Nat × Nat) (Image × Bool) :=
  if !(hasMagic f.imageA || hasMagic f.imageB) then .inl (0x01, 0)
  else
    let one := fun (second : Bool) => (copyOf f.imageA f.imageB second).map fun b => s.checkCopy d b
    match one f.imageCur with
    | some (.inr i) => .inr (i, f.imageCur)
    | first =>
      match one (!f.imageCur) with
      | some (.inr i) => .inr (i, !f.imageCur)
      | some (.inl r) => .inl r
      | none => match first with
        | some (.inl r) => .inl r
        | _ => .inl (0x01, 0)

/-! ### Boot steps 1 to 4 (Table 20-3) -/

/-- Boot ends without an image: its reason (R462). -/
def State.bootFails (s : State) (reason offset : Nat) : State :=
  s.modBoot fun b => { b with reason := reason, image := none,
                              chkReason := if reason == 0x11 || 0x13 ≤ reason then b.chkReason else reason, chkOffset := offset }

/-- A firmware copy that the ROM accepts: signature and level (R458, R460). -/
def fwValid (fu : Fuses) (c : FwCopy) : Bool := c.sigOk && decide (fu.fwArb ≤ c.arb) && decide (c.arb ≤ 64)

/-- Step 1: the CURRENT boot firmware copy, or the other (R460). -/
def chooseFw (fu : Fuses) (f : Flash) : Option (FwCopy × Bool) :=
  let one := fun (second : Bool) => (copyOf f.fwA f.fwB second).filter (fwValid fu)
  match one f.fwCur with
  | some c => some (c, f.fwCur)
  | none => (one (!f.fwCur)).map fun c => (c, !f.fwCur)

/-- Firmware runs: its version, level, digest and copy. -/
def State.runsFw (s : State) (c : FwCopy) (copy : Bool) : State :=
  s.modBoot fun b => { b with step := 1, fwCopy := copy, fwVersion := c.version, fwLevel := c.arb, fwDigest := c.digest }

/-- Every half changes. -/
def State.allHalves (s : State) (f : Half → Half) : State := forUpTo 128 (fun h t => t.modHalf h f) s

/-- Step 2 in normal mode: the patch (R107, R108). -/
def State.loadsPatch (s : State) (raw : Option (List Byte)) : State :=
  let r := bootPatch s.boot.fuses.patchArb raw
  let t := s.allHalves (patchHalf r)
  t.modBoot fun b =>
    match r with
    | .inr (some p) => { b with step := 2, patch := some p, patchLevel := patchLevelOf p, patchDigest := Config.sha384 ((raw.getD []).take 2848) }
    | _ => { b with step := 2 }

/-- The recovery microcode as bytes: its microwords, nanowords and table (R455, R468; log entry 10). -/
def recoveryBytes (f : Flash) : List Byte :=
  (f.recMicro.flatMap fun w => leBytes 4 w.toNat) ++ (f.recNano.flatMap fun w => leBytes 24 w.toNat)
    ++ f.recTable.flatMap fun w => leBytes 2 w.toNat

/-- Every half takes the contents of its writable store (R110). -/
def State.fillsStore (s : State) (micro : List Word) (nano : List (BitVec 192)) (table : List (BitVec 13)) : State :=
  let put := fun {α : Type} [DecidableEq α] (d : α) (xs : List α) (n : Nat) =>
    forUpTo n (fun i t => tblSet d t i (xs.getD i d)) ([] : Tbl α)
  let m := put (0 : Word) micro 8192
  let n := put (0 : BitVec 192) nano 4096
  let o := put (0 : BitVec 13) table 1024
  s.allHalves fun h => { h with store := true, wcsMicro := m, wcsNano := n, wcsTable := o }

/-- Step 2 in recovery mode: the writable stores from the signed recovery image (R110, R455). -/
def State.loadsStore (s : State) (f : Flash) : State :=
  (s.fillsStore f.recMicro f.recNano f.recTable).modBoot fun b =>
    { b with step := 2, patchDigest := Config.sha384 (recoveryBytes f) }

/-- Step 3: population and training of the sixteen channels (R400, R414); a channel that fails shows it. -/
def State.trains (s : State) (ds : List Dimm) : State :=
  let put := fun (k : Nat) (t : State) => t.modChn k fun c =>
    { c with state := if (ds.map Dimm.trains).getD k false then 1 else 5, passStart := 0 }
  forUpTo 16 put s

/-- Steps 3 and 4 (R460, R462). -/
def State.bootMemory (s : State) (b : Board) (f : Flash) : State :=
  match b.dimms with
  | [] => s.bootFails 0x10 0
  | d :: _ =>
    if !populationOk b.dimms then s.bootFails 0x10 0
    else
      let t := s.trains b.dimms
      if !(b.dimms.all fun e => e.trains) then t.bootFails 0x11 0
      else
        let u := (t.modBoot fun o => { o with step := 3 }).modMem fun m =>
          { m with trained := some (d.width, d.density, d.ranks, commonRate b.dimms) }
        match u.chooseImage d f with
        | .inl r => u.bootFails r.1 r.2
        | .inr (i, copy) =>
          (u.modBoot fun o => { o with step := 4, image := some i, imgCopy := copy, imgFromFlash := true, chkReason := 0, chkOffset := 0 }).modMem
            fun m => { m with trained := some (d.width, d.density, d.ranks, min i.rateMax (commonRate b.dimms)) }

/-- Manufacturing-test mode skips every firmware step: the halves stay FENCED with the stores that JTAG loads, the DRAM untrained and
no image in force (R110, R456). -/
def State.testMode (s : State) (j : TestStore) : State := s.fillsStore j.micro j.nano j.table

/-- The whole of steps 1 to 4, by the straps (R454 to R456, R460). -/
def State.bootSteps (s : State) (b : Board) : State :=
  let fu := s.boot.fuses
  if s.boot.mode == 7 && !fu.testLock then s.testMode b.jtag
  else match s.boot.flash with
  | none => s.bootFails (if s.boot.mode == 0 || s.boot.mode == 1 then 0x15 else 0x14) 0
  | some f =>
    if s.boot.mode == 0 then
      match chooseFw fu f with
      | none => s.bootFails 0x15 0
      | some (c, copy) => ((s.runsFw c copy).loadsPatch (copyOf f.patchA f.patchB f.patchCur)).bootMemory b f
    else if s.boot.mode == 1 then
      match f.recovery.filter (fwValid fu) with
      | none => s.bootFails 0x15 0
      | some c => ((s.runsFw c false).loadsStore f).bootMemory b f
    else s.bootFails 0x14 0

/-- PERST# is taken as deasserted: DEV_TIME starts, the straps are sampled, ALIVE toggles, and boot runs (R377, R446, R454, R460).
The board's flash is the one it shows on the first boot (log entry 9). -/
def bootOp (b : Board) (s : State) : State :=
  let t := s.atPerst
  let u := { t with
    pins := { t.pins with perst := false, alive := true }
    boot := { t.boot with mode := b.straps, flash := s.boot.flash.or b.flash, nonce := freeNow s 64 }
    funcs := tblSet Func.init [] 0 { Func.init with isThere := true, roEn := true, acs := some false } }
  (u.tookFree.bootSteps b).settleAlert

/-- PERST# deasserts (R460): before PWRGOOD has been high for 2 ms it is taken later (R502). -/
def perstDeassertOp (b : Board) (s : State) : State :=
  if s.pins.pwrgood && s.pins.settled then bootOp b s else s.modPins fun p => { p with perst := false }

def execPerstDeassert (b : Board) (s : State) : Res := .next (onlyIf s.pins.perst (perstDeassertOp b) s)

/-- PWRGOOD has been high for 2 ms: a PERST# already deasserted is taken now (R502). -/
def settleTimeOp (b : Board) (s : State) : State :=
  let t := { s with aon := max s.aon 2000000, pins := { s.pins with settled := true } }
  if s.pins.perst then t else bootOp b t

def execPwrgoodSettleTime (b : Board) (s : State) : Res :=
  .next (onlyIf (s.pins.pwrgood && !s.pins.settled) (settleTimeOp b) s)

/-! ### Boot's end (R460 steps 5 and 6, R461, R462, R370) -/

/-- One rank record applied to its channel (R428). -/
def applyRecord (r : Nat × Nat × Nat × Bool) (c : Chn) : Chn :=
  if r.2.2.2 then { c with retired := c.retired ||| BitVec.twoPow 4 r.2.1, outRanks := c.outRanks ||| BitVec.twoPow 4 r.2.2.1 }
  else { c with onSpare := some r.2.1, spareUsed := true, outRanks := c.outRanks ||| BitVec.twoPow 4 r.2.1, mig := none }

/-- The boot flash's rank records applied (R428). -/
def State.applyRecords (s : State) : State :=
  match s.boot.flash with
  | some f => forEach f.rankRecs (fun r t => t.modChn r.1 (applyRecord r)) s
  | none => s

/-- Scheduler parameters of an image: every class at its start, tags at 0 and buckets full, and the lanes' lists (R334, R474). -/
def State.loadScheduler (s : State) (i : Image) : State :=
  s.modDsc fun d => { d with
    classes := forEach i.classes (fun r t => tblSet Cls.init t r.cls { Cls.init with weight := min 256 r.maxWeight }) []
    lanes := forEach i.lanes (fun l t => tblMod Lane.init t l.1 fun n => { n with cur := l.2, wasOpen := l.2.openAt s.time })
      (forEach d.lanes (fun p t => tblSet Lane.init t p.1 { Lane.init with late := p.2.late }) []) }

/-- Step 5: the rank record, the protection tables and CE_THRESH unless they stand locked, a session directory of zeros, and
PROT_LOCK (R460, R466, R467, Table 19-6). -/
def State.lockTables (s : State) (i : Image) : State :=
  let t := s.applyRecords.modBoot fun b =>
    if b.protLock then { b with step := 5 }
    else { b with step := 5, regions := i.regions, functions := i.fns.length, protLock := true }
  let dir := i.regions.filter fun r => r.kind == 2
  t.modMem fun m => { m with
    cells := m.cells.filter fun p => !dir.any fun r => decide (r.base ≤ p.1) && decide (p.1 < r.base + r.size)
    poison := m.poison.filter fun p => !dir.any fun r => decide (r.base ≤ p.1) && decide (p.1 < r.base + r.size)
    chans := if s.boot.protLock then m.chans
      else forUpTo 16 (fun k u => tblMod Chn.init u k fun c => { c with thresh := i.policy.ceThresh }) m.chans }

/-- A half as boot leaves it: in service in an enabled cluster, unless its patch was rejected (R82, R107, R108). -/
def bootHalf (enabled : Bool) (h : Half) : Half :=
  if !enabled then { h with fstate := .disabled } else if h.patchStatus < 2 then { h with fstate := .active } else h

/-- Step 6: PF0 is ready, and Device Readiness Status is sent (R370, R460). -/
def State.becomesReady (s : State) : State :=
  ((s.modFunc 0 fun f => { f with isThere := true, ready := true }).modBoot fun b =>
    { b with burnAllowed := true, bootTime := BitVec.ofNat 32 (s.time / 1000) }).tellHost .drs

/-- Boot finishes: steps 5 and 6. With no image, or in the safe state, only PF0 becomes ready (R370, R462, R481). -/
def bootCompleteOp (s : State) : State :=
  if s.fcl.inSafe then (s.modBoot fun b => { b with image := none }).becomesReady
  else
    match s.boot.image with
    | none => (s.modBoot fun b => { b with step := 6 }).becomesReady
    | some i =>
      let t := (s.lockTables i).loadScheduler i
      let u := forUpTo 128 (fun h v => v.modHalf h (bootHalf (i.clusterEn.getLsbD (h / 16)))) t
      (u.modBoot fun b => { b with step := 6 }).becomesReady

def execBootComplete (s : State) : Res :=
  .next (onlyIf (s.running && !(s.func 0).ready && s.boot.step != 6) bootCompleteOp s)

/-- PROT_LOCK is not set 1,400 ms into boot: steps 3 to 5 are abandoned (R461). Where boot has found no image there is no step left
to abandon, and its reason stands (R462). -/
def bootTimeoutOp (s : State) : State := (s.reach (1400000000)).bootFails 0x13 0

def execBootTimeout (s : State) : Res :=
  .next (onlyIf (s.up && !s.boot.protLock && decide (s.boot.step < 5) && !(s.func 0).ready && s.boot.image.isSome) bootTimeoutOp s)

/-! ### Fuses (R458) -/

/-- The level that each count may be raised to, and the count (R458). -/
def State.arbLevel (s : State) (k : ArbKind) : Nat :=
  match k with
  | .fw => s.boot.fwLevel
  | .patch => s.boot.patchLevel / 1024
  | .image => match s.boot.image with
    | some i => if s.boot.imgFromFlash then i.arb else 0
    | none => 0

def arbCount (f : Fuses) (k : ArbKind) : Nat :=
  match k with
  | .fw => f.fwArb
  | .patch => f.patchArb
  | .image => f.imageArb

/-- One more bit of a count is burnt. -/
def burnOne (k : ArbKind) (f : Fuses) : Fuses :=
  match k with
  | .fw => { f with fwArb := f.fwArb + 1 }
  | .patch => { f with patchArb := f.patchArb + 1 }
  | .image => { f with imageArb := f.imageArb + 1 }

def arbBurnOp (k : ArbKind) (s : State) : State := s.modBoot fun b => { b with fuses := burnOne k b.fuses }

def execArbBurn (kind : ArbKind) (s : State) : Res :=
  .next (onlyIf (s.up && s.boot.burnAllowed && decide (arbCount s.boot.fuses kind < s.arbLevel kind)) (arbBurnOp kind) s)

/-! ### Boot registers (Tables 20-15 to 20-17) -/

/-- CSC_BOOT_STATUS. -/
def Boot.statusWord (b : Boot) : Nat :=
  b.mode.toNat * 2 ^ 29 + b.step * 2 ^ 26 + b2n b.protLock * 2 ^ 25 + b2n b.image.isSome * 2 ^ 24 + b2n b.fuses.ownerLock * 2 ^ 23
    + b2n b.fuses.testLock * 2 ^ 22 + b2n b.debug * 2 ^ 21 + b2n b.fwCopy * 2 ^ 20 + b2n b.imgCopy * 2 ^ 19 + b.reason % 256

/-- CSC_IMG_CHECK. -/
def Boot.checkWord (b : Boot) : Nat := b.chkOffset % 2 ^ 24 * 256 + b.chkReason % 256

/-- CSC_ARB. -/
def Boot.arbWord (b : Boot) : Nat := b.fuses.fwArb % 128 * 2 ^ 24 + b.fuses.patchArb % 128 * 2 ^ 16 + b.fuses.imageArb % 256

/-- CSC_IMAGE_VERSION. -/
def Boot.imageVersion (b : Boot) : Nat :=
  match b.image with
  | some i => i.version.toNat
  | none => 0

/-! ### Firmware requests (R464, R465, Tables 20-5 and 20-6) -/

/-- A word of PF0's outbound slot `k`. -/
def State.reqWord (s : State) (k w : Nat) : Nat := (tblGet 0 (s.mbx 0).slots (4 * k + w)).toNat

/-- ADDR and LENGTH of the request in slot `k`. -/
def State.reqAddr (s : State) (k : Nat) : Nat := s.reqWord k 0 + s.reqWord k 1 * 2 ^ 32
def State.reqLen (s : State) (k : Nat) : Nat := s.reqWord k 3

/-- The firmware begins a request of this TYPE: its bit is the lowest one set, and the reply's slot is free (R464). -/
def State.fwTakes (s : State) (b : FwBlock) (type : Nat) : Bool :=
  s.up && s.fcl.mpFenced != 3 && (s.func 0).ready && decide (b.slot < 8) && (s.mbx 0).out.getLsbD b.slot
    && (List.range b.slot).all (fun k => !(s.mbx 0).out.getLsbD k) && !(s.mbx 128).out.getLsbD b.slot
    && fld (s.reqWord b.slot 2) 0 16 == type

/-- The request block: LENGTH bytes (R464). -/
def State.reqBlock (s : State) (b : FwBlock) : List Byte := fitBytes (s.reqLen b.slot) b.bytes

/-- The block is long enough, and lies in host memory (R464, Table 20-5). -/
def State.reqOk (s : State) (b : FwBlock) (n : Nat) : Bool := decide (n ≤ s.reqLen b.slot) && fld (s.reqWord b.slot 2) 16 8 == 0

/-- The firmware consumes the request, writes its response over the block and sets inbound bit `k` (R464). -/
def State.fwReply (s : State) (b : FwBlock) (resp : List Byte) : State :=
  let k := b.slot
  let t := ((s.modMbx 0 (consume (BitVec.twoPow 32 k))).settleMbx .fw).emitFor 0 (.hostWrite 0 (s.reqAddr k) resp false)
  let slots := fun (old : Tbl Word) =>
    tblSet 0 (tblSet 0 (tblSet 0 (tblSet 0 old (4 * k) (BitVec.ofNat 32 (s.reqWord k 0))) (4 * k + 1) (BitVec.ofNat 32 (s.reqWord k 1)))
      (4 * k + 2) (BitVec.ofNat 32 (fld (s.reqWord k 2) 0 24 ||| 0x8000))) (4 * k + 3) (BitVec.ofNat 32 (s.reqWord k 3))
  (t.modMbx 128 fun m => setBit t.time m.gen k { m with slots := slots m.slots }).settleMbx .pf0

/-- A response that is STATUS alone. -/
def State.fwStatus (s : State) (b : FwBlock) (status : Nat) : State := s.fwReply b (leBytes 4 status)

/-- FW_INFO (Table 20-5). -/
def fwInfoOp (b : FwBlock) (s : State) : State :=
  if !s.reqOk b 64 then s.fwStatus b 1
  else
    let o := s.boot
    s.fwReply b (leBytes 40 (put 4 0 o.statusWord + put 8 0 o.fwVersion.toNat + put 12 0 o.imageVersion + put 16 0 o.arbWord
      + put 20 0 o.patchLevel + put 24 0 Config.uniqueId.toNat + put 32 0 o.nonce.toNat))

def execFwInfo (b : FwBlock) (s : State) : Res := .next (onlyIf (s.fwTakes b 1) (fwInfoOp b) s)

/-- FW_ENROLL_OWNER: the hash keeps every bit already burnt (R459). -/
def fwEnrollOp (b : FwBlock) (s : State) : State :=
  let bs := s.reqBlock b
  let h := Config.sha384 (bs.take 96)
  if !s.reqOk b 100 || u32 bs 96 != 0x454E524C then s.fwStatus b 1
  else if s.boot.fuses.ownerLock || s.boot.fuses.ownerHash &&& ~~~h != 0 then s.fwStatus b 4
  else (s.modBoot fun o => { o with fuses := { o.fuses with ownerHash := h, ownerLock := true } }).fwStatus b 0

def execFwEnrollOwner (b : FwBlock) (s : State) : Res := .next (onlyIf (s.fwTakes b 2) (fwEnrollOp b) s)

/-- A boot firmware copy as its header says (log entry 9). -/
def readFw (b : List Byte) : FwCopy := { sigOk := Config.fwSigOk b, arb := Config.fwArb b, version := Config.fwVersion b, digest := Config.sha384 b }

/-- A flash with the copy that CURRENT does not name written, and CURRENT flipped (R463). -/
def putFlashFw (f : Flash) (c : FwCopy) : Flash :=
  if f.fwCur then { f with fwA := some c, fwCur := false } else { f with fwB := some c, fwCur := true }
def putFlashPatch (f : Flash) (c : List Byte) : Flash :=
  if f.patchCur then { f with patchA := some c, patchCur := false } else { f with patchB := some c, patchCur := true }
def putFlashImage (f : Flash) (c : List Byte) : Flash :=
  if f.imageCur then { f with imageA := some c, imageCur := false } else { f with imageB := some c, imageCur := true }

/-- STATUS of a patch that fails R108. -/
def patchStatusCode (r : Nat) : Nat := if r == 4 then 3 else if r == 5 then 1 else 2

/-- FW_FLASH_WRITE: the checks that boot would apply, population, locked tables and rank record left out (Table 20-5, R463). -/
def fwFlashOp (b : FwBlock) (s : State) : State :=
  let bs := s.reqBlock b
  let c := bs.drop 8
  let type := u16 bs 0
  match s.boot.flash with
  | none => s.fwStatus b 5
  | some f =>
    let store := fun (g : Flash) => (s.modBoot fun o => { o with flash := some g }).fwStatus b 0
    if !s.reqOk b 8 then s.fwStatus b 1
    else if type == 1 then
      let w := readFw c
      if 4194304 < c.length then s.fwStatus b 1
      else if !w.sigOk then s.fwStatus b 2
      else if w.arb < s.boot.fuses.fwArb || 64 < w.arb then s.fwStatus b 3
      else store (putFlashFw f w)
    else if type == 2 then
      match checkPatch s.boot.fuses.patchArb c with
      | .inl r => s.fwStatus b (patchStatusCode r)
      | .inr _ => if 4096 < c.length then s.fwStatus b 1 else store (putFlashPatch f c)
    else if type == 3 then
      if 16777216 < c.length then s.fwStatus b 1
      else match checkImage s.boot.fuses c with
      | .inl r => (s.modBoot fun o => { o with chkReason := r.1, chkOffset := r.2 }).fwReply b (leBytes 5 (6 + put 4 0 r.1))
      | .inr _ => (s.modBoot fun o => { o with chkReason := 0, chkOffset := 0, flash := some (putFlashImage f c) }).fwStatus b 0
    else s.fwStatus b 1

def execFwFlashWrite (b : FwBlock) (s : State) : Res := .next (onlyIf (s.fwTakes b 3) (fwFlashOp b) s)

/-- The image in force permits debug unlock (R465). -/
def State.debugPermitted (s : State) : Bool :=
  match s.boot.image with
  | some i => i.permit.getLsbD 0
  | none => false

/-- STATUS of a debug token; a stale NONCE is told before the signature is looked at (R465, Table 20-14). -/
def State.tokenStatus (s : State) (bs : List Byte) : Nat :=
  if u64 bs 8 != s.boot.nonce.toNat || u64 bs 0 != Config.uniqueId.toNat || !s.debugPermitted then 4
  else if !zeros bs 16 16 then 1
  else if Config.rootOk (Config.sha384 (bs.take 32)) ((bs.drop 32).take 96) then 0
  else 2

/-- FW_DEBUG_UNLOCK: NONCE changes, whether the token is accepted or not (R465). -/
def fwDebugOp (b : FwBlock) (s : State) : State :=
  let st := if s.reqOk b 128 then s.tokenStatus (s.reqBlock b) else 1
  ((s.tookFree.modBoot fun o => { o with nonce := freeNow s 64, debug := o.debug || st == 0 })).fwStatus b st

def execFwDebugUnlock (b : FwBlock) (s : State) : Res := .next (onlyIf (s.fwTakes b 4) (fwDebugOp b) s)

end Sys2Proof.Machine
end

