-- ==== Sys2Proof/Machine/Link.lean ====
section
/-! DEFINITION. The host link: function-level reset, power states, device time, host-managed memory, IDE (16_host_link.md). -/
namespace Sys2Proof.Machine

/-! ### Configuration space (R358, R359, R362) -/

/-- What a function's configuration space presents. Nothing else that R358 names is there: no ATS, PRI, PASID, TDISP, INTx or MSI. -/
structure Ident where
  vendor   : Nat
  device   : Nat
  revision : Nat
  classCode : Nat
  subVendor : BitVec 16
  subDevice : BitVec 16
  maxPayload : Nat
  maxRead  : Nat
  tagBits  : Nat
  vectors  : Nat
  aer      : Bool
  acs      : Option Bool
  deriving DecidableEq, Repr

/-- Identity and limits of a function (R358, R359). -/
def State.ident (s : State) (fn : Nat) : Ident :=
  { vendor := 0x1F3A, device := if fn == 0 then 0x6416 else 0x6417, revision := 0xA1, classCode := 0x040000
    subVendor := (s.boot.flash.map Flash.subVendor).getD 0, subDevice := (s.boot.flash.map Flash.subDevice).getD 0
    maxPayload := 512, maxRead := 4096, tagBits := 14, vectors := if fn == 0 then 2048 else 64, aer := true, acs := (s.func fn).acs }

/-- The sizes that BAR 4 may take: powers of two from 256 MiB up to the least above every exposed address (R362). -/
def State.bar4Sizes (s : State) : List Nat :=
  let top := ((s.boot.regions.filter fun r => r.hdm).map fun r => r.base + r.size).foldl max 0
  ((List.range 15).filter fun i => i == 0 || decide (2 ^ (27 + i) < top)).map fun i => 2 ^ (28 + i)

/-! ### The per-function reset (R372) -/

/-- Step 2: its queues fetch no more, and their entries are discarded. -/
def State.resetQueues (s : State) (qs : List Nat) : State := forEach qs (fun q t => t.modQueue q fun _ => WorkQ.init) s

/-- Step 3 for units of no session: those queued leave Babbitt, and PCF passes are abandoned. -/
def State.resetUnits (s : State) (fn : Nat) : State :=
  s.stopUnits (s.dsc.units.filter fun u => u.fn == fn && decide (2 ^ 20 ≤ u.session))

/-- Steps 3 and 5: a session drains and is destroyed; one that drains already is destroyed at its end, unanswered. -/
def State.resetSess (s : State) (n : Nat) : State :=
  if (s.sess n).state == .draining then
    (s.modSess n fun x => { x with destroyAfter := true, destroyer := none, outq := [] }).settleDrain n
  else s.drainSession n true

/-- Step 4: channels, COPY units and demand requests stop (R342, R349, R350). -/
def State.resetMover (s : State) (fn : Nat) (qs : List Nat) : State :=
  let copies := s.dmv.copies.filter fun c => qs.contains c.q
  let t := forEach copies (fun c t => t.endCopy c.q c.seq 0 0 0) s
  let halves := (List.range 128).filter fun h =>
    match (t.half h).unit.bind t.unit? with
    | some u => u.fn == fn
    | none => false
  let v := forEach halves (fun h t => t.withdraw h) t
  forUpTo (s.fnRec fn).channels (fun l t =>
    let g := t.chanOf fn l
    ((t.unask g).modChan g fun _ => Chan.init).modDmv fun d => { d with slots := d.slots.filter fun x => x.user != .channel g }) v

/-- Step 6: pools are destroyed, and the event ring, the admin queue and the register path are as at reset (R354);
a restructure under way ends with PF0's queues (R336). -/
def State.resetObjects (s : State) (fn : Nat) : State :=
  let pools := (tblKeys s.bpm.pools).filter fun p => (s.ownPool fn p).isSome
  let t := (forEach pools (fun p t => t.dropPool p) ((s.dropPath fn false).dropPath fn true)).modPath fn fun _ => RegPath.init
  let u := (t.modRing fn fun _ => EvRing.init).modAdmQ fn fun _ => AdmQ.init
  if fn == 0 then (u.modCfgQ fun _ => AdmQ.init).modBoot fun b => { b with restruct := none, stopped := [] } else u

/-- A mailbox side reset with its function: R394, and its own registers. -/
def State.resetSide (s : State) (d : MbxSide) : State :=
  (s.modMbx (mbxKey d) fun m => { m with mask := 0xFFFFFFFF, tmo := 50000, tmoFlags := 0, slotBusy := false, rcvReset := false }).resetMbx d

/-- Step 7: interrupt state, mailboxes and semaphores. -/
def State.resetImb (s : State) (fn : Nat) : State :=
  let t := if fn == 0 then forUpTo 63 (fun n u => u.resetSide (.pf0Vf (n + 1))) (s.resetSide .pf0) else s.resetSide (.vf fn)
  let u := forEach (s.slots fn) (fun n u => u.modSrc n fun _ => Src.init) t
  ((u.modTarget fn fun _ => Target.init).modImb fun b =>
    { b with mask := tblSet [] b.mask fn [], pba := tblSet [] b.pba fn [] }).abandonSems fn

/-- A table without the register pairs of a function (R6). -/
def dropPairs {α : Type} (fn : Nat) (t : Tbl α) : Tbl α := t.filter fun p => p.1 / 2 ^ 28 != fn

/-- The function's held and latched halves of register pairs are discarded (R6). -/
def State.resetPairs (s : State) (fn : Nat) : State :=
  { s with latches := dropPairs fn s.latches, latched := dropPairs fn s.latched,
           heldW := dropPairs fn s.heldW, heldV := dropPairs fn s.heldV }

/-- FAULT events of the function that are not yet written are discarded (R447). -/
def State.hushFaults (s : State) (fn : Nat) : State :=
  s.modFcl fun f => { f with inbox := f.inbox.map fun r => if r.fn.getD 0 == fn then { r with untold := true } else r }

/-- The per-function reset, in the order of R372; nothing is written or sent for the function after its first
step. -/
def State.resetFn (s : State) (fn : Nat) : State :=
  let qs := s.queuesOf fn
  let t := (s.modFunc fn fun f => { f with flr := true, d3 := false, held := [], roEn := true }).hushFaults fn
  let ses := (tblKeys s.sessions).filter fun n => (s.sess n).state != .free && (s.sess n).fn == fn
  let u := forEach ses (fun n t => t.resetSess n) (((t.resetQueues qs).resetUnits fn).resetMover fn qs)
  ((u.resetObjects fn).resetImb fn).resetPairs fn

/-- Every VF undergoes the reset, all at once, and ceases to exist (R360). -/
def State.clearVfs (s : State) : State :=
  if s.hlu.vfEn then
    (forUpTo s.hlu.numVfs (fun n t => (t.resetFn (n + 1)).modFunc (n + 1) fun _ => Func.init) s).modHlu fun h => { h with vfEn := false }
  else s

/-! ### Function-level reset (R360, R372 to R374) -/

/-- Initiate FLR; one of PF0 clears VF Enable too (R373). -/
def flrOp (fn : Nat) (s : State) : State :=
  (if fn == 0 then s.clearVfs.modHlu fun h => { h with numVfs := 0 } else s).resetFn fn

def execFlr (fn : Nat) (s : State) : Res :=
  .next (onlyIf (s.running && (s.func fn).isThere && (s.func fn).ready && !(s.func fn).flr) (flrOp fn) s)

/-- No session of the function is left. -/
def State.noSessions (s : State) (fn : Nat) : Bool :=
  (tblKeys s.sessions).all fun n => (s.sess n).state == .free || (s.sess n).fn != fn

/-- The FLR is complete: Function Readiness Status, and HLU_FLR_COUNT (R373). -/
def flrCompleteOp (fn : Nat) (s : State) : State :=
  ((s.modFunc fn fun f => { f with flr := false }).modHlu fun h => { h with flrCount := sat32 h.flrCount 1 }).tellHost (.frs fn)

def execFlrComplete (fn : Nat) (s : State) : Res :=
  .next (onlyIf (s.running && (s.func fn).flr && s.noSessions fn) (flrCompleteOp fn) s)

/-- TotalVFs: the image's function count less 1; 0 without an image (R360, R370). -/
def State.totalVfs (s : State) : Nat := if s.boot.image.isSome then s.fnCount - 1 else 0

/-- VF Enable goes to 1: VFs 1 to NumVFs exist and are ready (R360, R370). -/
def vfEnableSetOp (n : Nat) (s : State) : State :=
  (forUpTo n (fun k t => t.modFunc (k + 1) fun _ => { Func.init with isThere := true, ready := true, roEn := true }) s).modHlu
    fun h => { h with vfEn := true, numVfs := n }

def execVfEnableSet (numVfs : Nat) (s : State) : Res :=
  .next (onlyIf (s.running && (s.func 0).ready && !(s.func 0).flr && !s.hlu.vfEn && decide (numVfs ≤ s.totalVfs)) (vfEnableSetOp numVfs) s)

def vfEnableClearOp (s : State) : State := s.clearVfs

def execVfEnableClear (s : State) : Res := .next (onlyIf (s.running && s.hlu.vfEn) vfEnableClearOp s)

/-! ### Hot reset and the link (R356, R370, R371) -/

/-- The link's own state while it is down: what a conventional reset returns to its reset value goes with it. -/
def Hlu.down (h : Hlu) : Hlu :=
  { h with up := false, mode := ⟨0, 0, 0, false, 0⟩, activeWidth := 0, lstate := 6, hdm := [], track := [], snoops := [], bias := [],
           biasOk := [], numVfs := 0, vfEn := false, ide := 0 }

/-- Every function is reset at once, the configuration queue of PF0 with them, and the link is down (R371). -/
def State.linkReset (s : State) : State :=
  ((s.clearVfs.resetFn 0).modFunc 0 fun f => { f with flr := false, ready := false }).modHlu Hlu.down

def hotResetOp (s : State) : State := s.linkReset

def execHotReset (s : State) : Res := .next (onlyIf s.running hotResetOp s)

def linkDownOp (s : State) : State := s.linkReset

def execLinkDown (s : State) : Res := .next (onlyIf s.running linkDownOp s)

/-- A mode of Table 16-1: PCIe at 2.5 to 64 GT/s, CXL 2.0 and 1.1 at 32, CXL 3.1 at 64; 64 GT/s is framed in flits. The largest
Max_Payload_Size supported is 512 bytes (R359). -/
def LinkMode.legal (m : LinkMode) : Bool :=
  [1, 2, 4, 8, 16].contains m.width && [128, 256, 512].contains m.payload &&
    (if m.protocol == 0 then decide (1 ≤ m.speed) && decide (m.speed ≤ 6) && (m.speed != 6 || m.flit)
     else if m.protocol == 3 then m.speed == 6 && m.flit
     else decide (m.protocol < 3) && m.speed == 5)

/-- The link reaches L0; after a hot reset or a link down PF0 is ready again (R371). -/
def linkTrainedOp (m : LinkMode) (s : State) : State :=
  (s.modHlu fun h => { h with up := true, mode := m, activeWidth := m.width, lstate := 0 }).modFunc 0 fun f =>
    { f with ready := f.ready || s.boot.burnAllowed }

def execLinkTrained (m : LinkMode) (s : State) : Res := .next (onlyIf (s.running && LinkMode.legal m) (linkTrainedOp m) s)

/-! ### Power states (R375, R376) -/

/-- One unit of a suspended function: an executing core unit is preempted, a MAU or PCF unit rolls back, and a hinted unit
returns to its session (R375). -/
def State.suspendUnit (s : State) (u : WUnit) : State :=
  match u.stage with
  | .running _ => if u.kind.onCore then s.sendReq u .preempt else s.rollback u.uid
  | .hinted _ _ _ _ => s.unhint u.uid
  | _ => s

/-- Function `fn` enters D3hot (R375). -/
def d3Op (fn : Nat) (s : State) : State :=
  forEach (s.dsc.units.filter fun u => u.fn == fn) (fun u t => t.suspendUnit u) (s.modFunc fn fun f => { f with d3 := true })

def execD3hotEntry (fn : Nat) (s : State) : Res :=
  .next (onlyIf (s.running && (s.func fn).isThere && (s.func fn).ready && !(s.func fn).flr && !(s.func fn).d3) (d3Op fn) s)

/-- One held write is sent; a message counts when it is (R375, R398). -/
def State.sendHeld (s : State) (o : Out) : State :=
  match o with
  | .msix fn v => (s.modImb fun b => { b with messages := sat64 b.messages 1 }).send (.msix fn v)
  | o => s.send o

/-- The return to D0: held writes are sent in their original order, and work resumes (R375). -/
def d0Op (fn : Nat) (s : State) : State :=
  let t := forEach (s.func fn).held (fun o t => t.sendHeld o) (s.modFunc fn fun f => { f with d3 := false, held := [] })
  forEach ((tblKeys t.dmv.chans).filter fun g => t.fnOfChan g == fn) (fun g u => u.startDescs g) t

def execD0Return (fn : Nat) (s : State) : Res := .next (onlyIf (s.running && (s.func fn).d3) (d0Op fn) s)

/-- A message waits in some function for its return to D0: its PME is pending (R388). -/
def State.pmePending (s : State) : Bool :=
  s.funcs.any fun p => p.2.held.any fun o => match o with
    | .msix _ _ => true
    | _ => false

/-- L2: everything but what VDD_AON keeps is lost, and WAKE# is low for a pending PME (R375). -/
def pmeOffOp (s : State) : State :=
  (({ s.atPerst with pins := { s.atPerst.pins with perst := s.pins.perst } }).modHlu fun h =>
    { h with l2 := true, wake := s.pmePending }).settleAlert

def execPmeTurnOff (s : State) : Res := .next (onlyIf s.running pmeOffOp s)

/-- HLU_CTRL fields (Table 16-9). -/
def Hlu.l1Idle (h : Hlu) : Nat := fld h.ctrl.toNat 24 8
def Hlu.l0pHold (h : Hlu) : Nat := fld h.ctrl.toNat 16 8
def Hlu.l0pLow (h : Hlu) : Nat := fld h.ctrl.toNat 8 8

/-- L1 or the substate L1.1 or L1.2 that the link takes; the spec does not say which (R376; log entry 92). -/
def State.l1State (s : State) : Nat := 2 + (freeNow s 8).toNat % 3

/-- ASPM L1, after L1_IDLE µs without traffic (R376). -/
def l1EntryOp (us : Nat) (s : State) : State :=
  if s.hlu.l1Idle ≤ us ∧ s.hlu.lstate ≤ 1 then s.tookFree.modHlu fun h => { h with lstate := s.l1State } else s

def execAspmL1Entry (idleUs : Nat) (s : State) : Res := .next (onlyIf (s.running && s.hlu.up) (l1EntryOp idleUs) s)

def l1ExitOp (s : State) : State := s.modHlu Hlu.awake

def execL1Exit (s : State) : Res := .next (onlyIf (s.running && s.hlu.up) l1ExitOp s)

/-- Traffic has stayed below L0P_LOW percent for L0P_HOLD ms: half the width, down to x4 (R376). -/
def l0pReduceOp (percent ms : Nat) (h : Hlu) : Hlu :=
  if h.ctrl.getLsbD 1 && h.mode.flit && decide (percent < h.l0pLow) && decide (h.l0pHold ≤ ms) && decide (h.lstate ≤ 1)
      && decide (4 < h.activeWidth) then
    { h with activeWidth := h.activeWidth / 2, lstate := 1 }
  else h

def execL0pReduce (percent ms : Nat) (s : State) : Res :=
  .next (onlyIf (s.running && s.hlu.up) (fun t => t.modHlu (l0pReduceOp percent ms)) s)

/-- The transmit queue exceeds 25 % of its capacity: full width again (R376). -/
def l0pRestoreOp (percent : Nat) (h : Hlu) : Hlu :=
  if h.lstate == 1 && decide (25 < percent) then { h with activeWidth := h.mode.width, lstate := 0 } else h

def execL0pRestore (percent : Nat) (s : State) : Res :=
  .next (onlyIf (s.running && s.hlu.up) (fun t => t.modHlu (l0pRestoreOp percent)) s)

/-! ### Device time (R377) -/

/-- DISCIPLINE_EN and INTERVAL. -/
def Hlu.disciplined (h : Hlu) : Bool := h.ptmCtrl.getLsbD 31
def Hlu.interval (h : Hlu) : Nat := fld h.ptmCtrl.toNat 0 10

/-- A PTM request, INTERVAL ms after the last. -/
def ptmRequestOp (s : State) : State :=
  let t := s.reach (s.hlu.ptmAsked + s.hlu.interval * 1000000)
  (t.modHlu fun h => { h with ptmAsked := t.time }).tellHost .ptmReq

def execPtmRequest (s : State) : Res := .next (onlyIf (s.running && s.hlu.up && s.hlu.disciplined) ptmRequestOp s)

/-- Claims for a window that the step skips whole lapse (R377). -/
def Lane.skipTo (now : Nat) (l : Lane) : Lane := if l.claimTo ≤ now then { l with decHalves := [], encHalves := [] } else l

/-- A forward step to `now`: claims lapse, and a switchover that it passes takes effect (R377). -/
def State.stepTo (s : State) (now : Nat) : State :=
  let t := { s with time := now }
  forUpTo 8 (fun l u =>
    let v := u.modLane l (Lane.skipTo now)
    match (v.lane l).next with
    | some (_, at_) => if at_ ≤ now then gateSwitchOp l v else v
    | none => v) t

/-- The slew toward the root's time: of a magnitude that R377 bounds and does not fix (log entry 37). -/
def slewFor (offset : Int) (r : Nat) : Int :=
  if offset == 0 then 0 else if 0 < offset then Int.ofNat (1 + r % 200) else -Int.ofNat (1 + r % 200)

/-- A PTM response: the offset is kept, and DEV_TIME is stepped forward by more than 1 ms, or slewed (R377). -/
def ptmResponseOp (root : DWord) (s : State) : State :=
  let now : Nat := s.time % 2 ^ 64
  let off : Int := (root.toNat : Int) - now
  let t := s.modHlu fun h => { h with ptmOffset := BitVec.ofInt 64 off, synced := true }
  let u :=
    if 1000000 < off then (t.stepTo (s.time + off.toNat)).modHlu fun h => { h with stepped := true, slew := 0 }
    else t.tookFree.modHlu fun h => { h with slew := slewFor off (freeNow s 8).toNat }
  u.modHlu fun h => { h with ptmGot := u.time }

def execPtmResponse (root : DWord) (s : State) : Res :=
  .next (onlyIf (s.running && s.hlu.up && s.hlu.disciplined && s.linkPasses) (ptmResponseOp root) s)

/-! ### Host-managed device memory (R362 to R366, Table 16-3) -/

/-- HDM decoder granularity: 256 MiB. -/
def hdmUnit : Nat := 2 ^ 28

/-- The end of the stretch of HDM exposure that begins at `p`, over at most `k` regions. -/
def exposedTo (rs : List Region) : Nat → Nat → Nat
  | 0, p => p
  | k + 1, p =>
    match rs.find? fun r => r.hdm && decide (r.base ≤ p) && decide (p < r.base + r.size) with
    | some r => exposedTo rs k (r.base + r.size)
    | none => p

/-- The device range lies wholly in the HDM exposure (R363). -/
def State.inExposure (s : State) (a n : Nat) : Bool := decide (a + n ≤ exposedTo s.boot.regions s.boot.regions.length a)

/-- R363's check of a decoder at its commit. -/
def State.hdmFits (s : State) (d host dev size : Nat) : Bool :=
  host % hdmUnit == 0 && dev % hdmUnit == 0 && size % hdmUnit == 0 && s.inExposure dev size &&
    (List.range 4).all fun k => k == d || (fun (o : Hdm) => !o.committed || decide (o.dev + o.size ≤ dev) || decide (dev + size ≤ o.dev))
      (tblGet Hdm.init s.hlu.hdm k)

/-- A decoder is committed, or reports Error Not Committed and decodes nothing (R363). -/
def hdmCommitOp (d host dev size : Nat) (s : State) : State :=
  let ok := s.hdmFits d host dev size
  s.modHlu fun h => { h with hdm := tblSet Hdm.init h.hdm d { committed := ok, bad := !ok, host := host, dev := dev, size := size } }

def execHdmDecoderCommit (d host dev size : Nat) (s : State) : Res :=
  .next (onlyIf (s.up && s.pf0Answers && decide (d < 4)) (hdmCommitOp d host dev size) s)

/-- The device address that a committed decoder gives a host physical address, where the memory there is exposed (R363, R426). -/
def State.hdmAddr (s : State) (a : Nat) : Option Nat :=
  match s.hlu.hdm.find? fun p => p.2.committed && decide (p.2.host ≤ a) && decide (a < p.2.host + p.2.size) with
  | some (_, d) => if s.exposed (lineOf (a - d.host + d.dev)) 64 then some (a - d.host + d.dev) else none
  | none => none

/-- A read or write that no exposed memory answers is recorded as a class U fault (R362, R363). -/
def State.strayAccess (s : State) (a : Nat) : State := s.report 0x20 0xAB (some 0) none (a % 65536) 0 0

/-- A host read met poison: HLU_POISON_RD, and a class UC fault (R366). -/
def State.poisonedRead (s : State) (a : Nat) : State :=
  (s.modHlu fun h => { h with poisonRd := sat32 h.poisonRd 1 }).report 0x0E 0xA7 (some 0) none 0 0 a

/-- A line enters the tracker as possibly modified; a full set's oldest entry is evicted by BISnpInv (R364). -/
def State.trackLine (s : State) (l : Nat) : State :=
  if s.tracked l then
    s.modHlu fun h => { h with track := tblMod [] h.track (trackSet l) fun es => es.map fun e => if e.1 == l then (l, true) else e }
  else
    let t := s.modHlu fun h => { h with track := tblMod [] h.track (trackSet l) fun es => es ++ [(l, true)] }
    match (tblGet [] s.hlu.track (trackSet l)).filter fun e => !s.snooping e.1 with
    | e :: es => if 15 ≤ es.length then t.sendSnoop e.1 false else t
    | [] => t

/-- A CXL.mem read of a line: its bytes, with poison where it is stored so (R363, R364, R366). A read of a line whose
back-invalidate is outstanding waits: it is sent again (Table 16-3). -/
def cxlReadOp (a : Nat) (caches : Bool) (s : State) : State :=
  match s.hdmAddr a with
  | none => (s.strayAccess a).tellHost (.cxlData (lineOf a) (List.replicate 64 0) true)
  | some d =>
    let l := lineOf d
    if s.snooping l then s
    else
      let bad := s.poisoned l 64
      let t := if bad then s.poisonedRead l else s
      let u := if caches && s.hdmDb then t.trackLine l else t
      u.tellHost (.cxlData (lineOf a) (s.memRead l 64) bad)

/-- CXL.mem requests are answered: a CXL link, and Memory_Active (R357, R370). -/
def State.cxlMemOpen (s : State) : Bool := s.up && s.hlu.up && s.hlu.mode.protocol != 0 && s.boot.burnAllowed && s.linkPasses

def execCxlMemRead (addr : Nat) (caches : Bool) (s : State) : Res := .next (onlyIf s.cxlMemOpen (cxlReadOp addr caches) s)

/-- A CXL.mem write within one line; one that carries poison is stored as poisoned (R363, R366). -/
def cxlWriteOp (a : Nat) (bs : List Byte) (poison : Bool) (s : State) : State :=
  match s.hdmAddr a with
  | none => s.strayAccess a
  | some d =>
    let t := s.memWrite d (bs.take (64 - d % 64))
    if poison then t.poisonLine d else t

def execCxlMemWrite (addr : Nat) (data : List Byte) (poison : Bool) (s : State) : Res :=
  .next (onlyIf s.cxlMemOpen (cxlWriteOp addr data poison) s)

/-- A read or write through BAR 4, whose offset is the device physical address; a write that carries poison is stored as poisoned
(R362, R366). -/
def bar4Op (off : Nat) (write : Bool) (len : Nat) (bs : List Byte) (poison : Bool) (s : State) : State :=
  if (linesOf off len).all fun l => s.exposed l 64 then
    if write then forEach (if poison then linesOf off len else []) (fun l t => t.poisonLine l) (s.memWrite off (fitBytes len bs))
    else if s.poisoned off len then (s.poisonedRead off).tellHost (.cxlData off (s.memRead off len) true)
    else s.tellHost (.readData (s.memRead off len))
  else if write then s.strayAccess off
  else (s.strayAccess off).tellHost (.readData (List.replicate len 0))

/-- In the safe state a read returns 0 and a write is discarded (R445). -/
def bar4Safe (write : Bool) (len : Nat) (s : State) : State := if write then s else s.tellHost (.readData (List.replicate len 0))

/-- `data` is what a write carries, not `ok` where it is poisoned. -/
def execBar4Access (off : Nat) (write : Bool) (len : Nat) (data : Block) (s : State) : Res :=
  .next (onlyIf s.pf0Answers (if s.fcl.inSafe then bar4Safe write len else bar4Op off write len data.bytes (!data.ok)) s)

/-- The writes held for a line, stored in order, and no longer waiting (R364, R365). -/
def State.storeHeld (s : State) (l : Nat) : State :=
  forEach (s.hlu.bias.filter fun b => b.write && b.line == l) (fun b t => t.memWrite b.addr b.bytes)
    (s.modHlu fun h => { h with bias := h.bias.filter fun b => !(b.write && b.line == l) })

/-- The line leaves the tracker. -/
def State.untrack (s : State) (l : Nat) : State :=
  s.modHlu fun h => { h with track := tblMod [] h.track (trackSet l) fun es => es.filter fun e => e.1 != l }

/-- The line stays tracked, no longer as possibly modified. -/
def State.markClean (s : State) (l : Nat) : State :=
  s.modHlu fun h => { h with track := tblMod [] h.track (trackSet l) fun es => es.map fun e => if e.1 == l then (l, false) else e }

/-- A BIRsp: the data the host held is stored; after BISnpInv the line leaves the tracker and the writes that waited are stored
in order; after BISnpData it stays, and a write that waits asks for BISnpInv. The next back-invalidate past 256 goes out (R364). -/
def bisnpOp (l : Nat) (dirty : Option (List Byte)) (s : State) : State :=
  match s.hlu.snoops.find? fun e => e.1 == l with
  | none => s
  | some e =>
    let t := s.modHlu fun h => { h with snoops := h.snoops.erase e }
    let u := match s.hlu.snoops[256]? with
      | some n => t.issueSnoop n
      | none => t
    let v := match dirty with
      | some bs => u.memWrite l (fitBytes 64 bs)
      | none => u
    if e.2 then
      if (v.hlu.bias.any fun b => b.write && b.line == l) then (v.markClean l).sendSnoop l false else v.markClean l
    else (v.untrack l).storeHeld l

def execBisnpResponse (line : Nat) (dirty : Option (List Byte)) (s : State) : Res :=
  .next (onlyIf (s.up && (s.hlu.snoops.take 256).any fun e => e.1 == line) (bisnpOp line dirty) s)

/-- The host's answer to the oldest host-bias request of a line: ownership lets a held write be stored, and the current copy is
stored for a read; an access that the requester holds may then proceed (R365). -/
def biasOp (l : Nat) (data : Option (List Byte)) (s : State) : State :=
  match s.hlu.bias.find? fun b => b.line == l with
  | none => s
  | some b =>
    let t := s.modHlu fun h => { h with bias := h.bias.erase b }
    if b.write && !b.bytes.isEmpty then t.memWrite b.addr b.bytes
    else
      let u := match data with
        | some bs => if b.write then t else t.memWrite l (fitBytes 64 bs)
        | none => t
      u.modHlu fun h => { h with biasOk := if h.biasOk.contains l then h.biasOk else h.biasOk ++ [l] }

def execHostBiasResponse (line : Nat) (data : Option (List Byte)) (s : State) : Res :=
  .next (onlyIf (s.up && s.hdmD) (biasOp line data) s)

/-- A snoop is answered as a miss: the device holds no cache of host memory (R357). -/
def snoopOp (a : Nat) (s : State) : State := s.send (.snoopMiss a)

def execSnoopReceived (addr : Nat) (s : State) : Res :=
  .next (onlyIf (s.running && s.hlu.up && s.hlu.mode.protocol != 0 && s.linkPasses) (snoopOp addr) s)

/-! ### Link security (R378, R379) -/

/-- An integrity failure: the stream is Insecure, and a class UC fault names it (R378). -/
def ideFailOp (stream : Nat) (s : State) : State :=
  (s.modHlu fun h => { h with ide := h.ide ||| BitVec.twoPow 5 stream }).report 0x0D 0xA7 none none stream 0 0

def execIdeIntegrityFail (stream : Nat) (s : State) : Res :=
  .next (onlyIf (s.running && s.hlu.up && decide (stream < 5) && !s.hlu.ide.getLsbD stream) (ideFailOp stream) s)

/-- The stream is keyed again (R378). -/
def ideKeyOp (stream : Nat) (s : State) : State := s.modHlu fun h => { h with ide := h.ide &&& ~~~ BitVec.twoPow 5 stream }

def execIdeKeyProgram (stream : Nat) (s : State) : Res :=
  .next (onlyIf (s.running && s.hlu.up && decide (stream < 5)) (ideKeyOp stream) s)

/-- The bits that are burnt of a count (R458). -/
def burntBits (n : Nat) : Nat := 2 ^ n - 1

/-- What measurement block 5 measures: the fuses of Table 20-7 in its order, each in whole bytes (log entry 10). -/
def Fuses.measured (f : Fuses) : List Byte :=
  leBytes 48 Config.rootHash.toNat ++ leBytes 48 f.ownerHash.toNat ++ leBytes 1 (b2n f.ownerLock) ++ leBytes 8 (burntBits f.fwArb)
    ++ leBytes 8 (burntBits f.patchArb) ++ leBytes 16 (burntBits f.imageArb) ++ leBytes 1 (b2n f.testLock)

/-- Measurement block `i` (R468, Table 20-7). -/
def State.measurement (s : State) (i : Nat) : Option (List Byte) :=
  let b := s.boot
  match i with
  | 1 => some (leBytes 48 Config.romDigest.toNat)
  | 2 => some (leBytes 48 b.fwDigest.toNat)
  | 3 => some (leBytes 48 b.patchDigest.toNat)
  | 4 => some (leBytes 48 ((b.image.map fun m => m.digest.toNat).getD 0))
  | 5 => some (leBytes 48 (Config.sha384 b.fuses.measured).toNat)
  | 6 => some (leBytes 8 (b.mode.toNat + put 1 0 (b2n b.debug) + put 2 0 (b2n b.fwCopy) + put 3 0 b.reason))
  | _ => none

/-- The blocks that an SPDM request asks for: GET_MEASUREMENTS names one block, or all of them (R379, R468; log entry 10). -/
def measuresAsked (code param : Nat) : List Nat :=
  if code == 0xE0 then (if param == 0xFF then [1, 2, 3, 4, 5, 6] else [param]) else []

/-- The management processors answer, with the measurement blocks that the request asks for (R379, R468). -/
def spdmOp (code param : Nat) (s : State) : State :=
  s.tellHost (.spdm (Config.spdmResponse code param) ((measuresAsked code param).filterMap fun i => (s.measurement i).map fun v => (i, v)))

def execSpdmRequest (code param : Nat) (_secured : Bool) (s : State) : Res :=
  .next (onlyIf (s.running && (s.func 0).ready && !(s.func 0).flr && s.fcl.mpFenced != 3) (spdmOp code param) s)

end Sys2Proof.Machine
end

