-- ==== Sys2Proof/Machine/Restructure.lean ====
section
/-! DEFINITION. The configuration commands: a new Rirak image, DRAM ranks and the image query (14_admin_commands.md R334, R335). -/
namespace Sys2Proof.Machine

/-- A configuration command: its effect where the configuration queue may execute it. -/
def cfgCmd (op : Nat) (e : Entry) (f : State → Entry → AdmEnd) (s : State) : Res :=
  .next (onlyIf (s.admReady true 0) (fun t => t.runAdm true 0 op e (f t)) s)

/-! ### Compatibility (Table 14-13) -/

/-- Objects that a function holds, in the order of its quotas: queues, pools, channels, sessions. -/
def State.heldBy (s : State) (f : Nat) : List Nat :=
  [(s.queuesOf f).length, (s.poolsOf f).length,
   ((List.range (s.fnRec f).channels).filter fun l => (s.chan (s.chanOf f l)).state != .disabled).length, (s.sessionsOfFn f).length]

/-- Row 1: TOPOLOGY and MEMORY_MAP are those in force. -/
def sameMemory (a b : Image) : Bool :=
  a.clusterEn == b.clusterEn && a.ranks == b.ranks && a.width == b.width && a.density == b.density && a.rateMax == b.rateMax
    && a.spareEn == b.spareEn && a.regions == b.regions

/-- Row 3: every quota is at least what the function holds. -/
def State.quotasHold (s : State) (i : Image) : Bool :=
  (List.range i.fns.length).all fun f =>
    let r := i.fns.getD f ⟨0, 0, 0, 0, 0, 0⟩
    let h := s.heldBy f
    decide (h.getD 0 0 ≤ r.queues) && decide (h.getD 1 0 ≤ r.pools) && decide (h.getD 2 0 ≤ r.channels) && decide (h.getD 3 0 ≤ r.sessions)

/-- The class is a leaf of an image, owned by the function. -/
def leafOf (i : Image) (c f : Nat) : Bool :=
  (i.classes.any fun r => r.cls == c && r.owner == f) && !i.classes.any fun r => r.parent == c && r.cls != 0

/-- Row 4: every class to which a queue or a session is attached. -/
def State.attachedHold (s : State) (i : Image) : Bool :=
  ((tblKeys s.queues).all fun q => (s.queue q).state == .free || leafOf i (s.queue q).cls (s.queue q).fn)
    && (tblKeys s.sessions).all fun n => (s.sess n).state == .free || leafOf i (s.sess n).par.cls (s.sess n).fn

/-- The first row of Table 14-13 that a new image does not meet, 0 where it meets all. -/
def State.badRow (s : State) (i : Image) : Nat :=
  match s.boot.image with
  | none => 1
  | some old =>
    if !sameMemory old i then 1
    else if old.fns.length != i.fns.length then 2
    else if !s.quotasHold i then 3
    else if !s.attachedHold i then 4
    else 0

/-! ### RESTRUCTURE (R334) -/

/-- Work queues that a restructure disables. -/
def State.runningQueues (s : State) : List Nat :=
  (tblKeys s.queues).filter fun q => (s.queue q).state == .enabled || (s.queue q).state == .error

/-- Steps 2 to 4: the admin queues are held, the work queues are disabled as DISABLE_QUEUE does, and every session drains and parks. -/
def State.beginRestructure (s : State) (i : Image) (tag : Word) : State :=
  let qs := s.runningQueues
  let t := s.modBoot fun b => { b with restruct := some i, restrTag := tag, stopped := qs }
  let u := forEach qs (fun q v => (v.disableQueue q).settleQueue q) t
  forEach ((tblKeys u.sessions).filter fun n => (u.sess n).state != .free && (u.sess n).state != .draining) (fun n v => v.drainSession n false) u

def restructureCmd (b : Block) (s : State) (e : Entry) : AdmEnd :=
  let n := e32 e 8
  match s.blockBytes 0 (e8 e 12) (e64 e 16) n b with
  | none => failRead
  | some bs =>
    if n == 0 || decide (16777216 < n) then failInvalid 8
    else
      match checkImage s.boot.fuses bs with
      | .inl r => (some (s.modBoot fun o => { o with chkReason := r.1, chkOffset := r.2 }), some (0x40, 0x58, put 12 0 r.1))
      | .inr i =>
        let t := s.modBoot fun o => { o with chkReason := 0, chkOffset := 0 }
        if s.badRow i != 0 then (some t, some (0x40, 0x59, put 12 0 (s.badRow i)))
        else (some (t.beginRestructure i (BitVec.ofNat 32 (e32 e 4))), none)

/-- Commands that execute on other functions' queues finish first (R334 step 2). -/
def execRestructure (e : Entry) (b : Block) (s : State) : Res :=
  if (tblKeys s.sessions).any fun n => (s.sess n).destroyer.isSome then .next s else cfgCmd 0x80 e (restructureCmd b) s

/-- Steps 3 and 4 are complete: the queues have settled, no session drains, and the in-flight table is empty. -/
def State.drained (s : State) : Bool :=
  s.boot.stopped.all (fun q => (s.queue q).state == .disabled || (s.queue q).state == .free)
    && s.dsc.inflight.isEmpty && !(tblKeys s.sessions).any fun n => (s.sess n).state == .draining

/-- Step 5: the image is in force; tags, virtual times and buckets restart, and lane lists come from the image. -/
def State.putInForce (s : State) (i : Image) : State :=
  let t := s.modBoot fun b => { b with
    image := some i, restruct := none, imgFromFlash := false, debug := b.debug && i.permit.getLsbD 0 }
  forEach (tblKeys s.sessions) (fun n u => u.modSess n fun x => { x with sTag := 0, fTag := 0 }) (t.loadScheduler i)

/-- Steps 5 and 6, and the answer: a status block, a QUEUE_STOPPED event and a message for each queue it disabled. -/
def inForceOp (s : State) : State :=
  match s.boot.restruct with
  | none => s
  | some i =>
    let t := (s.putInForce i).modBoot fun b => { b with stopped := [] }
    let u := forEach (s.boot.stopped.filter fun q => (s.queue q).state != .free) (fun q v =>
      let w := v.putStatus q
      (w.queueEvent q 0x03 0 (w.queue q).head).queueMessage q) t
    u.finishAdm true 0 s.boot.restrTag 0x80 0 0 0

def execRestructureInForce (s : State) : Res := .next (onlyIf (s.live && s.drained) inForceOp s)

/-! ### DRAM ranks (R335, R422 to R427) -/

def spareRankCmd (s : State) (e : Entry) : AdmEnd :=
  let ch := efld e 8 0 4
  let r := efld e 8 8 2
  match s.stripeOfRank ch r with
  | some st =>
    if s.spareFree ch && r != s.physRanks - 1 then admDone (s.beginMigration ch r st) 0 else failState (s.chn ch).state
  | none => failState (s.chn ch).state

def execSpareRank (e : Entry) (s : State) : Res := cfgCmd 0x81 e spareRankCmd s

/-- The rank leaves service: a migration of it stops with it, and an unused spare only leaves (R422, R425, R426). -/
def State.retireRank (s : State) (ch r : Nat) : State :=
  match (s.chn ch).mig, s.stripeOfRank ch r with
  | some m, some st =>
    if r == m.rank then ((s.modChn ch fun c => { c with mig := none }).capacity ch 3 (s.migArg ch r)).retireStripe ch r st
    else s.retireStripe ch r st
  | some m, none => s.stopMigration ch m
  | none, some st => s.retireStripe ch r st
  | none, none => s.modChn ch fun c => { c with outRanks := c.outRanks ||| BitVec.twoPow 4 r }

/-- The rank is in service: it holds a stripe, or it is the spare that is not used. -/
def State.rankServes (s : State) (ch r : Nat) : Bool :=
  (s.stripeOfRank ch r).isSome
    || (s.spareConf && r == s.physRanks - 1 && !(s.chn ch).outRanks.getLsbD r && !(s.chn ch).spareUsed)

def retireRankCmd (s : State) (e : Entry) : AdmEnd :=
  let ch := efld e 8 0 4
  let r := efld e 8 8 2
  if !s.rankServes ch r || (s.stripeOfRank ch r).any s.holdsContext then failState (s.chn ch).state
  else admDone (s.retireRank ch r) 0

def execRetireRank (e : Entry) (s : State) : Res := cfgCmd 0x82 e retireRankCmd s

/-! ### QUERY_IMAGE (Table 14-10) -/

def queryImageCmd (s : State) (_ : Entry) : AdmEnd :=
  match s.boot.image with
  | none => admDone s 0
  | some i => admDone s (put 12 0 i.version.toNat + put 16 0 i.permit.toNat + put 32 0 i.digest.toNat)

def execQueryImage (e : Entry) (s : State) : Res := cfgCmd 0x83 e queryImageCmd s

end Sys2Proof.Machine
end

