-- ==== Sys2Proof/Machine/Readout.lean ====
section
/-! DEFINITION. Where every register lies and what a read of it gives (21_register_map.md and the field maps it names). A block has
its low/high pairs, by the offset of the low word, and its single words; an offset that names neither is unassigned. -/
namespace Sys2Proof.Machine

/-- The blocks of Tables 21-1, 21-2 and 21-4. -/
inductive Blk where
  | none_ | csc | hlu | qe | dmv | imb | dsc | ctx | mau | pcf | rcu | mfx | ntl | bpm | fcl | page | irq
  | drs (k : Nat)
  | core (n : Nat)
  | seqr (h : Nat)
  | bell (q : Nat)
  | mbx (d : MbxSide)
  deriving DecidableEq, Repr

/-- Block and offset within it of an offset in PF0 BAR 0 (Table 21-1). -/
def blkPf (off : Nat) : Blk × Nat :=
  let o := off % 0x100000
  if off < 0x1000000 then
    match off / 0x100000 with
    | 0 => (.csc, o)
    | 1 => (.hlu, o)
    | 2 => (.qe, o)
    | 3 => (.dmv, o)
    | 4 => if o < 0x10000 then (.imb, o) else if 0x11000 ≤ o ∧ o < 0x50000 then (.mbx (.pf0Vf (o / 0x1000 - 16)), o % 0x1000) else (.none_, o)
    | 5 => (.dsc, o)
    | 6 => (.ctx, o)
    | 7 => (.mau, o)
    | 8 => (.pcf, o)
    | 9 => (.rcu, o)
    | 10 => if o < 0x80000 then (.mfx, o) else (.ntl, o - 0x80000)
    | 11 => (.drs (o / 0x10000), o % 0x10000)
    | 12 => (.bpm, o)
    | 13 => (.fcl, o)
    | _ => (.none_, o)
  else if off < 0x2000000 then
    let n := (off - 0x1000000) / 0x40000
    let r := off % 0x40000
    if r < 0x10000 then (.core n, r) else if r < 0x30000 then (.seqr (2 * n + r / 0x10000 - 1), r % 0x10000) else (.none_, r)
  else if off < 0x2400000 then (.bell ((off - 0x2000000) / 64), off % 64)
  else if off < 0x2401000 then (.page, off - 0x2400000)
  else if off < 0x2402000 then (.mbx .pf0, off - 0x2401000)
  else if off < 0x2403000 then (.irq, off - 0x2402000)
  else (.none_, off)

/-- Block and offset within it of an offset in the BAR 0 of VF `fn` (Table 21-4). -/
def blkVf (fn off : Nat) : Blk × Nat :=
  if off < 0x20000 then (.bell (off / 64), off % 64)
  else if off < 0x21000 then (.mbx (.vf fn), off - 0x20000)
  else if off < 0x22000 then (.irq, off - 0x21000)
  else if off < 0x23000 then (.page, off - 0x22000)
  else (.none_, off)

/-- Block and offset within it of a function's access to its BAR 0. -/
def blkOf (fn off : Nat) : Blk × Nat := if fn == 0 then blkPf off else blkVf fn off

/-- An index where the offset is one of `n` words from `base`, `step` bytes apart. -/
def wordIx (base step n o : Nat) : Option Nat :=
  if base ≤ o ∧ (o - base) % step = 0 ∧ (o - base) / step < n then some ((o - base) / step) else none

/-! ### Pairs -/

/-- The pairs of the CSC (Tables 20-15, 21-3): device memory in service, less RS for every retired stripe (R487). -/
def State.cscPair (s : State) (o : Nat) : Option Nat :=
  match o with
  | 0x10 => some (s.memSize - s.rankSize * total ((List.range 16).map fun k =>
      ((List.range 4).filter fun r => (s.chn k).retired.getLsbD r).length))
  | 0x118 => some Config.uniqueId.toNat
  | _ => none

/-- The pairs of the blocks that have few. -/
def State.blockPair (s : State) (b : Blk) (o : Nat) : Option Nat :=
  match b, o with
  | .hlu, 0x10 => some s.hlu.ptmOffset.toNat
  | .qe, 0x10 => some s.qe.fetched.toNat
  | .dmv, 0x10 => some s.dmv.bytesRd.toNat
  | .dmv, 0x18 => some s.dmv.bytesWr.toNat
  | .imb, 0x00 => some s.imb.messages.toNat
  | .dsc, 0x10 => some s.dsc.dispatched.toNat
  | .dsc, 0x48 => some s.dsc.queryTag.toNat
  | .ctx, 0x10 => some s.ctx.hits.toNat
  | .ctx, 0x18 => some s.ctx.misses.toNat
  | .mau, 0x10 => some s.mau.pictures.toNat
  | .mau, 0x18 => some s.mau.blocks.toNat
  | .pcf, 0x10 => some s.pcf.passes.toNat
  | .pcf, 0x18 => some s.pcf.outSamples.toNat
  | .rcu, 0x10 => some s.rcu.plansN.toNat
  | .rcu, 0x18 => some s.rcu.rowsN.toNat
  | .ntl, 0x48 => some s.ntl.merges.toNat
  | .ntl, o => (wordIx 0x10 8 7 o).map fun k => (s.ntl.tiles.getD k 0).toNat
  | .dsc, o => (wordIx 0x108 0x20 8 o).map fun l =>
      match (s.lane l).next with
      | some (_, t) => if l < 2 then t else 0
      | none => 0
  | .drs k, 0x10 => some (s.chn k).scrubPos
  | .drs k, 0x48 => some (((s.chn k).mig.map Mig.p).getD 0)
  | _, _ => none

/-- Window `w` of the unit whose bank is active on a half; unassigned where the half runs none (Tables 3-11, 3-18, 3-19). -/
def State.shownWindow (s : State) (h w : Nat) : Option Window :=
  (s.half h).winSet[w]?

/-- The pairs of a core page. -/
def State.corePair (s : State) (n o : Nat) : Option Nat :=
  if o = 0x1010 ∨ o = 0x2010 then some (s.half (2 * n + o / 0x1000 - 1)).done.toNat
  else if o = 0x3000 ∧ n % 8 = 0 then some (s.cluster (n / 8)).hits.toNat
  else if o = 0x3008 ∧ n % 8 = 0 then some (s.cluster (n / 8)).misses.toNat
  else if o < 0x3000 then
    (wordIx 0x100 0x10 16 (o % 0x1000)).bind fun w =>
      if o < 0x1000 then none else some (((s.shownWindow (2 * n + o / 0x1000 - 1) w).map Window.base).getD 0)
  else none

/-- The function has local channel `l`, at offset `o` of its registers. -/
def State.chanAt (s : State) (fn o : Nat) : Option (Nat × Nat) :=
  if 0x400 ≤ o ∧ (o - 0x400) / 0x20 < (s.fnRec fn).channels then some (s.chanOf fn ((o - 0x400) / 0x20), (o - 0x400) % 0x20) else none

/-- The pairs of a function page (Table 21-2). -/
def State.pagePair (s : State) (fn o : Nat) : Option Nat :=
  match o with
  | 0x008 => some (s.time % 2 ^ 64)
  | 0x010 => some (s.admQ fn).base.toNat
  | 0x018 => some (s.admQ fn).res.toNat
  | 0x020 => some (s.admQ fn).sb.toNat
  | 0x080 => if fn == 0 then some s.cfgq.base.toNat else none
  | 0x088 => if fn == 0 then some s.cfgq.res.toNat else none
  | 0x090 => if fn == 0 then some s.cfgq.sb.toNat else none
  | 0x0C4 => some ((s.path fn).allocHi.toNat * 2 ^ 32 + (s.path fn).allocLo.toNat)
  | 0x0CC => some 0
  | o =>
    match s.chanAt fn o with
    | some (g, 0) => some (s.chan g).base.toNat
    | _ => none

/-- The value of the pair whose low word is at an offset. -/
def State.pairVal (s : State) (fn : Nat) (b : Blk) (o : Nat) : Option Nat :=
  match b with
  | .csc => s.cscPair o
  | .core n => s.corePair n o
  | .page => s.pagePair fn o
  | _ => s.blockPair b o

/-! ### Words -/

/-- CSC identity and boot registers (Tables 20-15, 21-3). -/
def State.cscWord (s : State) (o : Nat) : Option Nat :=
  match o with
  | 0x00 => some 0x64161F3A
  | 0x04 => some 0x00A1
  | 0x08 => some (match s.boot.image with
      | some i => i.fns.length * 2 ^ 24 + 0x104000 + i.clusterEn.toNat
      | none => 0x104000)
  | 0x100 => some s.boot.statusWord
  | 0x104 => some s.boot.checkWord
  | 0x108 => some s.boot.fwVersion.toNat
  | 0x10C => some s.boot.imageVersion
  | 0x110 => some s.boot.arbWord
  | 0x114 => some s.boot.bootTime.toNat
  | o => (wordIx 0x40 4 16 o).map fun i =>
      match s.boot.therm.find? fun e => e.1 == i with
      | some e => 2 ^ 31 + twosOf 8 e.2.2 * 256 + twosOf 8 e.2.1
      | none => 0

/-- A PTM exchange has succeeded within the last four intervals (Table 16-10). -/
def State.ptmSynced (s : State) : Bool :=
  s.hlu.synced && decide (s.time ≤ s.hlu.ptmGot + 4 * fld s.hlu.ptmCtrl.toNat 0 10 * 1000000)

/-- HLU registers (Tables 16-8 to 16-10). -/
def State.hluWord (s : State) (o : Nat) : Option Nat :=
  let h := s.hlu
  match o with
  | 0x00 => some (b2n h.up * 2 ^ 31 + b2n h.mode.flit * 2 ^ 30 + h.mode.protocol * 2 ^ 28 + h.mode.speed * 2 ^ 24 + h.mode.width * 2 ^ 19
      + h.activeWidth * 2 ^ 14 + h.lstate)
  | 0x04 => some h.ctrl.toNat
  | 0x08 => some h.ptmCtrl.toNat
  | 0x0C => some (b2n s.ptmSynced * 2 ^ 31 + b2n h.stepped * 2 ^ 30 + twosOf 16 h.slew)
  | 0x18 => some h.biCount.toNat
  | 0x1C => some h.poisonRd.toNat
  | 0x20 => some h.flrCount.toNat
  | 0x24 => some h.ide.toNat
  | _ => none

/-- QE registers (Table 13-17). -/
def State.qeWord (s : State) (o : Nat) : Option Nat :=
  match o with
  | 0x00 => some s.qe.chainTmo
  | 0x18 => some s.qe.dropped.toNat
  | 0x1C => some s.qe.malformed.toNat
  | 0x40 => some s.qe.queryId
  | 0x44 => some s.qe.queryRes.toNat
  | 0x48 => some s.qe.queryProd.toNat
  | _ => none

/-- DMV registers: slots in use and those that demand requests hold (Table 15-8). -/
def State.dmvWord (s : State) (o : Nat) : Option Nat :=
  match o with
  | 0x00 => some (s.dmv.slots.length % 1024 + (s.dmv.slots.filter fun x => isDemand x.user).length % 1024 * 2 ^ 16)
  | 0x20 => some s.dmv.withdrawn.toNat
  | _ => none

/-- Messages held for D3hot (Table 17-12). -/
def State.heldMessages (s : State) : Nat :=
  total ((List.range 64).map fun f => ((s.func f).held.filter fun m => match m with
    | .msix _ _ => true
    | _ => false).length)

/-- IMB registers (Table 17-12). -/
def State.imbWord (s : State) (o : Nat) : Option Nat :=
  match o with
  | 0x08 => some (min s.heldMessages 65535)
  | 0x0C => some s.imb.claimErr.toNat
  | 0x10 => some s.imb.mbxTimeouts.toNat
  | o => (wordIx 0x100 4 64 o).map fun n => semWord ((s.sem n).holder == some 0) (s.sem n)

/-- The mailbox registers of a side; its semaphores are read through SEM (Tables 17-7 to 17-9). -/
def State.mbxWord (s : State) (d : MbxSide) (o : Nat) : Option Nat :=
  let m := s.mbx (mbxKey d)
  match o with
  | 0x00 => some (s.mbxIn d).toNat
  | 0x04 => some m.mask.toNat
  | 0x08 => some m.out.toNat
  | 0x0C => some m.tmoFlags.toNat
  | 0x10 => some (b2n m.rcvReset * 2 ^ 31 + b2n m.slotBusy * 2 ^ 30 + (s.mbx (mbxKey (mbxPeer d))).gen * 256 + m.gen)
  | 0x14 => some m.tmo
  | o =>
    match wordIx 0x100 4 32 o, wordIx 0x200 4 32 o with
    | some i, _ => some (tblGet 0 m.slots i).toNat
    | none, some i => some (tblGet 0 (s.mbx (mbxKey (mbxPeer d))).slots i).toNat
    | none, none => none

/-- Pending bits of slots 32w to 32w + 31 of a target (Table 17-2). -/
def State.pendWord (s : State) (t w : Nat) : Nat :=
  let xs := ((s.slots t).drop (32 * w)).take 32
  total ((List.range 32).map fun j => match xs[j]? with
    | some n => b2n (s.src n).pending * 2 ^ j
    | none => 0)

/-- IMB_LSRC_A and IMB_LSRC_B of a slot (Table 17-5). -/
def State.lsrcWord (s : State) (t i : Nat) (b : Bool) : Nat :=
  match (s.slots t)[i]? with
  | none => 0
  | some n =>
    if b then s.prioOf n * 2 ^ 16 + s.vectorOf n
    else 2 ^ 31 + b2n (isLevelSource n) * 2 ^ 30 + n * 2 ^ 16 + (s.src n).count * 256 + b2n (s.src n).pending

/-- The interrupt page of a function (Table 17-2). -/
def State.irqWord (s : State) (fn o : Nat) : Option Nat :=
  match o with
  | 0x40 => some (s.target fn).threshold
  | 0x44 => some ((s.target fn).stack.length * 256 + (s.target fn).active)
  | o =>
    match wordIx 0 4 8 o, wordIx 0x800 4 512 o with
    | some w, _ => some (s.pendWord fn w)
    | none, some i => some (s.lsrcWord fn (i / 2) (i % 2 == 1))
    | none, none => none

/-- DSC_LANE_STATUS of a lane (Table 12-12). -/
def State.laneWord (s : State) (l : Nat) : Nat :=
  let k := s.lane l
  let g := k.listAt s.time
  b2n (g.openAt s.time) * 2 ^ 31 + b2n (decide (l < 2) && k.next.isSome) * 2 ^ 30 + b2n (!k.claims.isEmpty) * 2 ^ 29
    + (if g.list.isEmpty then 0 else (g.entry s.time).1) * 2 ^ 16 + k.encHalves.length * 256 + k.decHalves.length

/-- DSC registers (Tables 12-7 to 12-12). -/
def State.dscWord (s : State) (o : Nat) : Option Nat :=
  let d := s.dsc
  match o with
  | 0x00 => some d.ctrl.toNat
  | 0x04 => some (d.inflight.length * 2 ^ 16 + (d.units.filter fun u => u.hinted && u.kind.onCore).length)
  | 0x18 => some d.preempts.toNat
  | 0x1C => some d.replans.toNat
  | 0x20 => some d.oversize.toNat
  | 0x24 => some d.resvWaits.toNat
  | 0x40 => some d.queryId
  | 0x44 => some d.queryRes.toNat
  | o =>
    match wordIx 0x100 0x20 8 o, wordIx 0x104 0x20 8 o, wordIx 0x110 0x20 8 o with
    | some l, _, _ => some (s.laneWord l)
    | none, some l, _ => some (((s.lane l).listAt s.time).cycle / 1024 % 2 ^ 32)
    | none, none, some l => some (s.lane l).late.toNat
    | none, none, none => none

/-- Lines of the Electrum cache. -/
def State.lines (s : State) : List CLine := s.ctx.sets.flatMap Prod.snd

/-- CTX registers (Tables 2-10 to 2-14). -/
def State.ctxWord (s : State) (o : Nat) : Option Nat :=
  match o with
  | 0x00 => some s.ctx.ctrl.toNat
  | 0x04 => some ((s.lines.filter fun l => s.pinned l.session).length * 2 ^ 16 + (s.lines.filter CLine.dirty).length)
  | 0x20 => some s.ctx.late.toNat
  | 0x24 => some s.ctx.bypass.toNat
  | 0x30 => some s.ctx.queryId
  | 0x34 => some s.ctx.queryRes.toNat
  | _ => none

/-- A bit for each of `n` places that holds a unit. -/
def busyBits (t : Tbl Nat) (n : Nat) : Nat := total ((List.range n).map fun i => b2n (tblGet 0 t i != 0) * 2 ^ i)

/-- Session of the unit at a place of an engine table; 0 where there is none, or where it names no session. -/
def State.placeSession (s : State) (t : Tbl Nat) (i : Nat) : Nat :=
  match tblGet 0 t i with
  | 0 => 0
  | u + 1 => match s.unit? u with
    | some w => if w.session < 2 ^ 20 then w.session else 0
    | none => 0

/-- Units of a kind that wait, up to 4,095. -/
def State.waiting (s : State) (k : UKind) : Nat := min 4095 (s.dsc.units.filter fun u => u.queued && u.kind == k).length

/-- PASS and ROW of an engine: both 0 when it is idle; otherwise where 8 cycles a block and pass at 1.2 GHz have brought its unit (R233,
Table 9-8). -/
def State.mauPlace (s : State) (e : Nat) : Nat :=
  match s.mauUnit? e with
  | none => 0
  | some u =>
    let x := s.sess u.session
    match x.ana.find? fun a => a.index == u.pic with
    | none => 2 ^ 10
    | some a =>
      let n := 8 * blocksOf a.width a.height
      let k := min ((s.time - u.runT) * 6 / 5) (n * (if (x.forwardOf u.pic a.width a.height).isSome then 3 else 2) - 1)
      (1 + k / max 1 n) * 2 ^ 10 + k % max 1 n / max 1 (8 * ceilDiv a.width 16) % 2 ^ 10

/-- MAU registers (Tables 9-5 to 9-8). -/
def State.mauWord (s : State) (o : Nat) : Option Nat :=
  match o with
  | 0x00 => some s.mau.enable.toNat
  | 0x04 => some (s.waiting .mau * 2 ^ 12 + busyBits s.mau.units 8)
  | 0x20 => some s.mau.scHits.toNat
  | o => (wordIx 0x100 4 8 o).map fun e =>
      s.mauPlace e * 2 ^ 20 + s.placeSession s.mau.units e

/-- Outputs of the pass at a pipe. -/
def State.pipeOutputs (s : State) (p : Nat) : Nat :=
  match tblGet 0 s.pcf.units p with
  | 0 => 0
  | u + 1 => ((s.unit? u).map fun w => w.outputs.length).getD 0

/-- PCF registers (Tables 11-3 to 11-6). -/
def State.pcfWord (s : State) (o : Nat) : Option Nat :=
  match o with
  | 0x00 => some s.pcf.enable.toNat
  | 0x04 => some (busyBits s.pcf.units 16 * 2 ^ 16 + s.waiting .pcf)
  | 0x20 => some s.pcf.lutLoads.toNat
  | 0x24 => some s.pcf.parityN.toNat
  | o => (wordIx 0x100 4 16 o).map fun p =>
      b2n (tblGet false s.pcf.lutValid p) * 2 ^ 23 + s.pipeOutputs p * 2 ^ 20 + s.placeSession s.pcf.units p

/-- RCU registers (Tables 8-5 and 8-6). -/
def State.rcuWord (s : State) (o : Nat) : Option Nat :=
  let r := s.rcu
  match o with
  | 0x00 => some (min 1023 r.plans.length * 2 ^ 16 + min 128 r.rows.length * 256 + b2n r.busy)
  | 0x20 => some r.stage1.toNat
  | 0x24 => some r.stage2.toNat
  | 0x28 => some r.filler.toNat
  | 0x2C => some r.waitMax.toNat
  | _ => none

/-- MFX registers (Tables 18-7 and 18-8). -/
def State.mfxWord (s : State) (o : Nat) : Option Nat :=
  match o with
  | 0x00 => some s.mem.hintGate
  | 0x04 => some s.mem.backoffs.toNat
  | 0x08 => some s.mem.revokes.toNat
  | o =>
    if 0x100 ≤ o ∧ o < 0x500 then
      let k := (o - 0x100) / 0x40
      let p := (o - 0x100) % 0x40 / 4
      if p < 12 then some (twosOf 16 (tblGet 0 (s.chn k).credits p) * 2 ^ 16 + (s.chn k).weightOf p)
      else if p = 12 then some (s.bgWeight 0 + s.bgWeight 1 * 2 ^ 16)
      else none
    else none

/-- Nitinol registers (Tables 10-5 and 10-6). -/
def State.ntlWord (s : State) (o : Nat) : Option Nat :=
  match o with
  | 0x00 => some (total ((List.range 32).map fun e => b2n (!(tblGet [] s.ntl.merge e).isEmpty) * 2 ^ e))
  | 0x50 => some s.ntl.invalid.toNat
  | _ => none

/-- DRS_CH_CFG (Table 18-9). -/
def State.chCfg (s : State) (k : Nat) : Nat :=
  match s.mem.trained with
  | none => 0
  | some (w, d, r, rate) =>
    rate * 2 ^ 24 + (if s.spareConf then r - 1 else 0) * 2 ^ 20 + b2n (s.spareConf && !(s.chn k).spareUsed) * 2 ^ 19 + w * 2 ^ 18
      + d * 2 ^ 16 + w * 2 ^ 15 + r * 2 ^ 12 + rankGib w d

/-- Physical ranks of a channel that hold a stripe, as bits. -/
def State.rankBits (s : State) (k : Nat) : Nat :=
  total ((List.range 4).map fun r => match s.stripeOfRank k r with
    | some st => b2n (!(s.chn k).retired.getLsbD st) * 2 ^ r
    | none => 0)

/-- DRS_CH_STATUS (Table 18-10). -/
def State.chStatus (s : State) (k : Nat) : Nat :=
  let c := s.chn k
  c.state * 2 ^ 29 + b2n c.mig.isSome * 2 ^ 28 + b2n c.behind * 2 ^ 27 + b2n c.throttled * 2 ^ 26 + s.rankBits k * 2 ^ 16
    + c.retired.toNat * 2 ^ 12

/-- The registers of a DRAM channel (Table 18-7). -/
def State.drsWord (s : State) (k o : Nat) : Option Nat :=
  let c := s.chn k
  match o with
  | 0x00 => some (s.chCfg k)
  | 0x04 => some (s.chStatus k)
  | 0x08 => some (b2n c.scrubEn * 2 ^ 16 + b2n c.refMode * 256 + c.pdIdle)
  | 0x0C => some c.scrubHours
  | 0x40 => some c.thresh
  | 0x50 => some c.inorderN.toNat
  | 0x54 => some c.sreAborts.toNat
  | 0x58 => some (twosOf 8 c.temp)
  | o =>
    match wordIx 0x20 4 4 o, wordIx 0x30 4 4 o with
    | some r, _ => some (tblGet 0 c.ce r % 65536)
    | none, some r => some (tblGet 0 c.uc r).toNat
    | none, none => none

/-- BPM registers (Table 15-8). -/
def State.bpmWord (s : State) (o : Nat) : Option Nat :=
  match o with
  | 0x00 => some s.bpm.queryId
  | 0x04 => some s.bpm.queryRes.toNat
  | 0x08 => some s.bpm.queryFree.toNat
  | 0x10 => some s.bpm.usage.toNat
  | 0x14 => some s.bpm.empty.toNat
  | _ => none

/-- The 32 bytes of a fault record (Table 19-4). -/
def Rec.value (r : Rec) : Nat :=
  put 0 0 r.time.toNat + put 8 0 r.recSeq.toNat + put 12 0 (r.session.getD 0 % 2 ^ 20) + put 12 22 (r.fn.getD 0 % 64)
    + put 12 28 (b2n r.session.isSome) + put 12 29 (b2n r.fn.isSome) + put 12 30 (r.cls % 4)
    + put 16 0 (r.source % 256) + put 16 8 (r.code % 256) + put 16 16 r.info.toNat + put 20 0 r.tag.toNat + put 24 0 r.addr.toNat

/-- Word `i` of a record; 0 where there is none. -/
def recWord (r : Option Rec) (i : Nat) : Nat := fld ((r.map Rec.value).getD 0) (32 * i) 32

/-- FCL_POLICY (Table 19-15). -/
def Policy.word (p : Policy) : Nat :=
  b2n p.autoMigrate * 2 ^ 24 + b2n p.escalateUc * 2 ^ 23 + b2n p.autoUnfence * 2 ^ 22 + p.aliveClasses.toNat * 2 ^ 16 + p.mpLimit * 2 ^ 12
    + p.unitLimit * 256 + p.mchkLimit

/-- FCL_STATUS (Table 19-13). -/
def Fcl.statusWord (f : Fcl) : Nat :=
  b2n f.first.isSome * 2 ^ 31 + b2n f.aliveStopped * 2 ^ 30 + b2n f.inSafe * 2 ^ 29 + f.fifo.length

/-- FCL registers (Table 19-11). -/
def State.fclWord (s : State) (o : Nat) : Option Nat :=
  let f := s.fcl
  match o with
  | 0x04 => some f.statusWord
  | 0x08 => some f.safe
  | 0x0C => some s.policy.word
  | o =>
    match wordIx 0x20 4 8 o, wordIx 0x40 4 8 o, wordIx 0x60 4 4 o, wordIx 0x400 4 256 o with
    | some i, _, _, _ => some (recWord f.fifo.head? i)
    | none, some i, _, _ => some (recWord f.first i)
    | none, none, some c, _ => some (tblGet 0 f.ovf c).toNat
    | none, none, none, some n => some (tblGet 0 f.count n).toNat
    | none, none, none, none => none

/-- Code of a fence state (Table 3-8). -/
def FState.code (f : FState) : Nat :=
  match f with
  | .active => 0
  | .fencing => 1
  | .fenced => 2
  | .testing => 3
  | .failed => 4
  | .disabled => 5

/-- CCA_HALF_STATUS (Table 3-17). -/
def State.halfWord (s : State) (h : Nat) : Nat :=
  let x := s.half h
  (match x.unit.bind s.unit? with
    | some u => (s.sess u.session).par.codec * 256 + u.kind.code * 64 + x.activeBank * 8
    | none => 0) + b2n (x.bank1 != .empty) * 32 + b2n (x.bank0 != .empty) * 16 + x.fstate.code

/-- CCA_WIN_ATTR of a window (Table 3-19). -/
def Window.attr (w : Window) : Nat :=
  b2n w.fail * 32 + b2n w.cached * 16 + b2n w.nitinol * 8 + w.space % 2 * 4 + b2n w.write * 2 + b2n w.read

/-- The registers of a half in its core's page (Tables 3-11, 3-17 to 3-19). -/
def State.halfReg (s : State) (h o : Nat) : Option Nat :=
  let x := s.half h
  let u := x.unit.bind s.unit?
  match o with
  | 0x00 => some (s.halfWord h)
  | 0x04 => some (match u with
      | some u => if u.session < 2 ^ 20 then u.session else 0
      | none => 0)
  | 0x08 => some ((u.map WUnit.budget).getD x.lastBudget % 2 ^ 32)
  | 0x0C => some ((u.map WUnit.cycles).getD x.lastCycles % 2 ^ 32)
  | 0x18 => some x.budgetAborts.toNat
  | 0x1C => some x.winViol.toNat
  | o =>
    match wordIx 0x108 0x10 16 o, wordIx 0x10C 0x10 16 o with
    | some w, _ => some (((s.shownWindow h w).map fun w => ceilDiv w.size 4096).getD 0 % 2 ^ 32)
    | none, some w => some (((s.shownWindow h w).map Window.attr).getD 0)
    | none, none => none

/-- The registers of a core page (Tables 3-11 to 3-16). -/
def State.coreWord (s : State) (n o : Nat) : Option Nat :=
  let c := s.core n
  let dec := s.half (2 * n)
  let enc := s.half (2 * n + 1)
  if 0x1000 ≤ o ∧ o < 0x3000 then s.halfReg (2 * n + o / 0x1000 - 1) (o % 0x1000)
  else match o with
    | 0x00 => some (b2n (s.boot.image.any fun i => i.clusterEn.getLsbD (n / 8)) * 1024 + n / 8 * 64 + n)
    | 0x04 => some (b2n c.mode * 16)
    | 0x08 => some (b2n c.ignored * 256 + b2n enc.unit.isSome * 8 + b2n dec.unit.isSome * 4 + b2n (enc.fstate == .active) * 2
        + b2n (dec.fstate == .active))
    | 0x0C => some (enc.cause % 256 * 256 + dec.cause % 256)
    | 0x10 => some (b2n (s.clockChanging n) * 2 ^ 31 + c.mhz % 2048)
    | 0x14 => some c.stress.toNat
    | 0x3010 => if n % 8 = 0 then some (s.cluster (n / 8)).parity.toNat else none
    | _ => none

/-- A request of a kind is pending at the sequencer. -/
def Half.requested (x : Half) (f : SeqReq → Bool) : Bool := x.reqs.any fun r => f r.1

/-- SEQ_STATUS (Table 4-8). -/
def Half.seqWord (x : Half) : Nat :=
  b2n x.store * 2 ^ 30 + b2n x.waiting * 2 ^ 29
    + b2n (x.requested fun r => r == .abortSession || r == .abortBudget || r == .abortWindow) * 2 ^ 28
    + b2n (x.requested fun r => r == .fenceAbort) * 2 ^ 27 + b2n (x.requested fun r => r == .preempt) * 2 ^ 26 + x.uaddr.toNat

/-- The registers of a sequencer (Tables 4-7 to 4-12). -/
def State.seqReg (s : State) (h o : Nat) : Option Nat :=
  let x := s.half h
  match o with
  | 0x00 => some x.seqWord
  | 0x04 => some x.wdogExp
  | 0x08 => some (x.mchkAddr.toNat * 2 ^ 16 + min 255 x.mchkCount * 256 + x.mchkCause % 256)
  | 0x0C => some (x.patchStatus * 2 ^ 24 + (x.matches_.filter fun m => m.getLsbD 31).length * 2 ^ 16 + x.patchLevel % 65536)
  | 0x10 => some (min 0xFFFF x.gapMax)
  | 0x14 => some x.preempts.toNat
  | 0x18 => some x.matchHits.toNat
  | o => (wordIx 0x100 4 32 o).map fun m => (x.matches_.getD m 0).toNat

/-- ADMQ_CTRL or CFGQ_CTRL (Table 13-15). -/
def AdmQ.ctrlWord (a : AdmQ) : Nat :=
  b2n a.enable * 2 ^ 31 + b2n a.stopped * 2 ^ 30 + a.errCause % 256 * 2 ^ 16 + a.space.toNat * 256 + a.depthLog

/-- Code of a channel state (Table 15-2). -/
def ChState.code (c : ChState) : Nat :=
  match c with
  | .disabled => 0
  | .running => 1
  | .idle => 2
  | .stopping => 3
  | .error => 4

/-- The registers of a channel (Tables 15-9 and 15-10). -/
def Chan.word (c : Chan) (o : Nat) : Option Nat :=
  match o with
  | 0x08 => some (b2n c.enable * 2 ^ 31 + b2n c.stopOnFail * 2 ^ 30 + c.depthLog * 2 ^ 25 + c.space.toNat * 2 ^ 16 + c.vector)
  | 0x0C => some 0
  | 0x10 => some (c.state.code * 2 ^ 29 + (if c.state == .error then c.cause % 256 else 0) * 2 ^ 21 + min 8 c.inprog.length * 2 ^ 17 + c.next)
  | 0x14 => some c.done.toNat
  | 0x18 => some c.allocw
  | _ => none

/-- The function page (Tables 13-14 to 13-16, 15-8, 16-7). -/
def State.pageWord (s : State) (fn o : Nat) : Option Nat :=
  let f := s.func fn
  let r := s.ring fn
  match o with
  | 0x000 => some ((if fn == 0 then 0x6416 else 0x6417) * 2 ^ 16 + fn)
  | 0x004 => some (b2n f.ready * 2 ^ 31 + b2n s.fcl.inSafe * 2 ^ 30 + b2n s.boot.image.isSome * 2 ^ 29 + b2n f.d3 * 2 ^ 28 + (if f.d3 then 3 else 0))
  | 0x028 => some (s.admQ fn).ctrlWord
  | 0x040 => some r.cons
  | 0x044 => some (b2n r.overflow * 2 ^ 31 + b2n r.isThere * 2 ^ 30)
  | 0x048 => some r.pend.toNat
  | 0x04C => some r.lost.toNat
  | 0x098 => if fn == 0 then some s.cfgq.ctrlWord else none
  | 0x0D4 => some (s.path fn).freeStatus.toNat
  | o => (s.chanAt fn o).bind fun p => (s.chan p.1).word p.2

/-- The value of the word at an offset of a block. -/
def State.wordVal (s : State) (fn : Nat) (b : Blk) (o : Nat) : Option Nat :=
  match b with
  | .none_ => none
  | .csc => s.cscWord o
  | .hlu => s.hluWord o
  | .qe => s.qeWord o
  | .dmv => s.dmvWord o
  | .imb => s.imbWord o
  | .dsc => s.dscWord o
  | .ctx => s.ctxWord o
  | .mau => s.mauWord o
  | .pcf => s.pcfWord o
  | .rcu => s.rcuWord o
  | .mfx => s.mfxWord o
  | .ntl => s.ntlWord o
  | .bpm => s.bpmWord o
  | .fcl => s.fclWord o
  | .page => s.pageWord fn o
  | .irq => s.irqWord fn o
  | .drs k => s.drsWord k o
  | .core n => s.coreWord n o
  | .seqr h => s.seqReg h o
  | .bell _ => none
  | .mbx d => s.mbxWord d o

end Sys2Proof.Machine
end

