-- ==== Sys2Proof/Machine/Registers.lean ====
section
/-! DEFINITION. Register accesses (R5 to R8, R486): reads, pairs and their latches, writes by access code, and the query registers. -/
namespace Sys2Proof.Machine

/-! ### Which accesses act (R370, R372, R445, R462) -/

/-- Memory requests to the function's BAR 0 are answered: the function exists, is ready, and no FLR of it runs. -/
def State.fnAnswers (s : State) (fn : Nat) : Bool :=
  s.running && (s.func fn).isThere && (s.func fn).ready && !(s.func fn).flr && s.linkPasses

/-- What reads show in the safe state: the CSC's identity and boot registers, PF0's page, the FCL (R445, R482, R487). -/
def Blk.readSafe (fn : Nat) (b : Blk) : Bool :=
  match b with
  | .csc => true
  | .page => fn == 0
  | .fcl => true
  | _ => false

/-- What reads show while no image is in force: CSC, FCL, PF0's mailbox, and identity and status of PF0 (R462). -/
def Blk.readBare (fn : Nat) (b : Blk) (o : Nat) : Bool :=
  match b with
  | .csc => true
  | .fcl => true
  | .mbx .pf0 => decide (o < 0x800)
  | .page => fn == 0 && decide (o < 0x10)
  | _ => false

/-- A read of the block's offset by the function shows its value. -/
def State.shows (s : State) (fn : Nat) (b : Blk) (o : Nat) : Bool :=
  s.fnAnswers fn && (if s.fcl.inSafe then b.readSafe fn else s.live || b.readBare fn o)

/-- A write of the block's offset by the function acts: in the safe state FCL_POP and FCL_STATUS alone; without an image the FCL and
PF0's mailbox (R445, R462). -/
def State.takes (s : State) (fn : Nat) (b : Blk) (o : Nat) : Bool :=
  s.fnAnswers fn &&
    (if s.fcl.inSafe then b == .fcl && (o == 0x4 || o == 0x10)
     else s.live || b == .fcl || (b == .mbx .pf0 && decide (o < 0x800)))

/-! ### Reads (R6, R8) -/

/-- RC registers read 0 after a read: blocks that have few. -/
def State.clearBlock (s : State) (b : Blk) (o : Nat) : State :=
  match b, o with
  | .hlu, 0x18 => s.modHlu fun h => { h with biCount := 0 }
  | .hlu, 0x1C => s.modHlu fun h => { h with poisonRd := 0 }
  | .hlu, 0x20 => s.modHlu fun h => { h with flrCount := 0 }
  | .qe, 0x18 => s.modQe fun k => { k with dropped := 0 }
  | .qe, 0x1C => s.modQe fun k => { k with malformed := 0 }
  | .dmv, 0x20 => s.modDmv fun d => { d with withdrawn := 0 }
  | .imb, 0x0C => s.modImb fun d => { d with claimErr := 0 }
  | .imb, 0x10 => s.modImb fun d => { d with mbxTimeouts := 0 }
  | .ctx, 0x20 => s.modCtx fun c => { c with late := 0 }
  | .ctx, 0x24 => s.modCtx fun c => { c with bypass := 0 }
  | .mau, 0x20 => s.modMau fun m => { m with scHits := 0 }
  | .pcf, 0x20 => s.modPcf fun p => { p with lutLoads := 0 }
  | .pcf, 0x24 => s.modPcf fun p => { p with parityN := 0 }
  | .rcu, 0x20 => s.modRcu fun r => { r with stage1 := 0 }
  | .rcu, 0x24 => s.modRcu fun r => { r with stage2 := 0 }
  | .rcu, 0x28 => s.modRcu fun r => { r with filler := 0 }
  | .rcu, 0x2C => s.modRcu fun r => { r with waitMax := 0 }
  | .mfx, 0x04 => s.modMem fun m => { m with backoffs := 0 }
  | .mfx, 0x08 => s.modMem fun m => { m with revokes := 0 }
  | .ntl, 0x50 => s.modNtl fun n => { n with invalid := 0 }
  | .bpm, 0x10 => s.modBpm fun d => { d with usage := 0 }
  | .bpm, 0x14 => s.modBpm fun d => { d with empty := 0 }
  | _, _ => s

/-- RC registers of Babbitt (Table 12-7). -/
def State.clearDsc (s : State) (o : Nat) : State :=
  match o with
  | 0x18 => s.modDsc fun d => { d with preempts := 0 }
  | 0x1C => s.modDsc fun d => { d with replans := 0 }
  | 0x20 => s.modDsc fun d => { d with oversize := 0 }
  | 0x24 => s.modDsc fun d => { d with resvWaits := 0 }
  | o =>
    match wordIx 0x110 0x20 8 o with
    | some l => s.modLane l fun k => { k with late := 0 }
    | none => s

/-- RC registers of a DRAM channel (Table 18-7). -/
def State.clearDrs (s : State) (k o : Nat) : State :=
  match o with
  | 0x50 => s.modChn k fun c => { c with inorderN := 0 }
  | 0x54 => s.modChn k fun c => { c with sreAborts := 0 }
  | o =>
    match wordIx 0x30 4 4 o with
    | some r => s.modChn k fun c => { c with uc := tblSet 0 c.uc r 0 }
    | none => s

/-- RC registers of the FCL (Table 19-11). -/
def State.clearFcl (s : State) (o : Nat) : State :=
  match wordIx 0x60 4 4 o, wordIx 0x400 4 256 o with
  | some c, _ => s.modFcl fun f => { f with ovf := tblSet 0 f.ovf c 0 }
  | none, some n => s.modFcl fun f => { f with count := tblSet 0 f.count n 0 }
  | none, none => s

/-- RC registers of a core page (Table 3-11). -/
def State.clearCore (s : State) (n o : Nat) : State :=
  if o = 0x1018 ∨ o = 0x2018 then s.modHalf (2 * n + o / 0x1000 - 1) fun x => { x with budgetAborts := 0 }
  else if o = 0x101C ∨ o = 0x201C then s.modHalf (2 * n + o / 0x1000 - 1) fun x => { x with winViol := 0 }
  else if o = 0x3010 ∧ n % 8 = 0 then s.modCluster (n / 8) fun c => { c with parity := 0 }
  else s

/-- RC registers of a sequencer (Table 4-7). -/
def State.clearSeq (s : State) (h o : Nat) : State :=
  match o with
  | 0x10 => s.modHalf h fun x => { x with gapMax := 0 }
  | 0x14 => s.modHalf h fun x => { x with preempts := 0 }
  | 0x18 => s.modHalf h fun x => { x with matchHits := 0 }
  | _ => s

/-- The RC register at an offset clears; any other keeps its value (Table 0-5). -/
def State.clearRc (s : State) (fn : Nat) (b : Blk) (o : Nat) : State :=
  match b with
  | .dsc => s.clearDsc o
  | .drs k => s.clearDrs k o
  | .fcl => s.clearFcl o
  | .core n => s.clearCore n o
  | .seqr h => s.clearSeq h o
  | .page => if o = 0x4C then s.modRing fn fun r => { r with lost := 0 } else s
  | b => s.clearBlock b o

/-- A read of a pair's low word: the high word is latched for the function (R6). -/
def pairLowOp (fn off v : Nat) (s : State) : State :=
  { s with rdata := BitVec.ofNat 64 (v % 2 ^ 32)
           latches := tblSet 0 s.latches (pairKey fn off) (BitVec.ofNat 32 (v / 2 ^ 32))
           latched := tblSet false s.latched (pairKey fn off) true }

/-- A read of a pair's high word: the latch, which clears, or the current word (R6). `off` is the offset of the low word. -/
def pairHighOp (fn off v : Nat) (s : State) : State :=
  if tblGet false s.latched (pairKey fn off) then
    { s with rdata := BitVec.ofNat 64 (tblGet 0 s.latches (pairKey fn off)).toNat
             latches := tblSet 0 s.latches (pairKey fn off) 0
             latched := tblSet false s.latched (pairKey fn off) false }
  else s.withRdata (BitVec.ofNat 64 (v / 2 ^ 32 % 2 ^ 32))

/-- The value of the pair whose high word is at an offset. -/
def State.pairAbove (s : State) (fn : Nat) (b : Blk) (o : Nat) : Option Nat := if 4 ≤ o then s.pairVal fn b (o - 4) else none

/-- A read of one register, or of half a pair; an unassigned offset reads 0 (R6 to R8). -/
def plainRead (fn off : Nat) (b : Blk) (o : Nat) (s : State) : State :=
  match s.pairVal fn b o, s.pairAbove fn b o with
  | some v, _ => pairLowOp fn off v s
  | none, some v => pairHighOp fn (off - 4) v s
  | none, none => (s.withRdata (BitVec.ofNat 64 (((s.wordVal fn b o).getD 0) % 2 ^ 32))).clearRc fn b o

/-- A read of SEM[n] through a mailbox page: an acquire, for the function whose own page it is (R395, Table 21-1). -/
def semRead (fn : Nat) (d : MbxSide) (n : Nat) (s : State) : State :=
  match d with
  | .pf0 => acquireOp fn n s
  | .vf _ => acquireOp fn n s
  | _ => s.withRdata 0

/-- A read of the register at an offset of a block, with what it does. -/
def readWord (fn off : Nat) (b : Blk) (o : Nat) (s : State) : State :=
  match b with
  | .irq => if o = 0x48 then claimOp fn s else plainRead fn off b o s
  | .mbx d =>
    match wordIx 0x800 4 64 o with
    | some n => semRead fn d n s
    | none => plainRead fn off b o s
  | b => plainRead fn off b o s

/-- A read of the register that holds an offset of the function's BAR 0 (R486). -/
def readOp (fn off : Nat) (s : State) : State :=
  let a := off / 4 * 4
  if s.shows fn (blkOf fn a).1 (blkOf fn a).2 then readWord fn a (blkOf fn a).1 (blkOf fn a).2 s else s.withRdata 0

def execRcRead (fn off : Nat) (s : State) : Res := .next (readOp fn off s)

/-- The offset is the low word of a pair, or the high word of the pair below it. -/
def State.isPair (s : State) (fn off : Nat) (high : Bool) : Bool :=
  let p := blkOf fn (off / 4 * 4)
  if high then (s.pairVal fn p.1 p.2).isNone && (s.pairAbove fn p.1 p.2).isSome else (s.pairVal fn p.1 p.2).isSome

def execPairLowRead (fn off : Nat) (s : State) : Res := .next (onlyIf (s.isPair fn off false) (readOp fn off) s)
def execPairHighRead (fn off : Nat) (s : State) : Res := .next (onlyIf (s.isPair fn off true) (readOp fn off) s)

/-- Bytes of the function's BAR 0 (R361). -/
def barSize (fn : Nat) : Nat := if fn == 0 then 0x4000000 else 0x40000

/-- A read is naturally aligned: 1, 2, 4 or 8 bytes at a multiple of their number; a longer one, of whole words, on a word (R486;
log entry 67). -/
def naturally (off len : Nat) : Bool :=
  len == 0 || (if len ≤ 8 then [1, 2, 4, 8].contains len && off % len == 0 else off % 4 == 0 && len % 4 == 0)

/-- A read that is not naturally aligned (R486). -/
def unalignedOp (fn off : Nat) (s : State) : State :=
  let t := s.withRdata 0
  if s.fnAnswers fn then t.reportAccess fn off else t

/-- Successive 4-byte reads in ascending order; the last two words read remain, the later one above (R6, R486). -/
def readWords (fn off : Nat) : Nat → State → State
  | 0, s => s
  | n + 1, s =>
    let t := readOp fn off s
    readWords fn (off + 4) n (t.withRdata (BitVec.ofNat 64 (s.rdata.toNat / 2 ^ 32 + t.rdata.toNat % 2 ^ 32 * 2 ^ 32)))

/-- A naturally aligned read of 1 or 2 bytes reads the register that holds them and returns the bytes requested (R486). -/
def narrowRead (fn off len : Nat) (s : State) : State :=
  let t := readOp fn off s
  t.withRdata (BitVec.ofNat 64 (fld t.rdata.toNat (8 * (off % 4)) (8 * len)))

/-- A naturally aligned read of `len` bytes: of 8 bytes at a pair, low then high in one operation (R6, R486). -/
def wideRead (fn off len : Nat) (s : State) : State :=
  if len < 4 then narrowRead fn off len s
  else if len == 4 then readOp fn off s
  else readWords fn off (len / 4) s

def execUnalignedRead (fn off len : Nat) (s : State) : Res :=
  .next (onlyIf (decide (off < barSize fn) && len != 0) (if naturally off len then wideRead fn off len else unalignedOp fn off) s)

/-! ### Pairs that take writes (R6) -/

/-- A pair of the function page that takes writes lies at the offset: queue addresses, BPM_FREE, a channel's base. -/
def State.pairTakes (s : State) (fn o : Nat) : Bool :=
  match o with
  | 0x10 | 0x18 | 0x20 | 0xCC => true
  | 0x80 | 0x88 | 0x90 => fn == 0
  | o =>
    match s.chanAt fn o with
    | some (_, 0) => true
    | _ => false

/-- It is not discarded: queue addresses and a channel's base stand while ENABLE is 1 (Tables 13-15 and 15-9). -/
def State.pairFree (s : State) (fn o : Nat) : Bool :=
  match o with
  | 0x10 | 0x18 | 0x20 => !(s.admQ fn).enable
  | 0x80 | 0x88 | 0x90 => !s.cfgq.enable
  | 0xCC => true
  | o =>
    match s.chanAt fn o with
    | some (g, _) => !(s.chan g).enable
    | none => false

/-- Place of a function's page in its BAR 0. -/
def pageOff (fn o : Nat) : Nat := pageBase fn 0x2400000 0x22000 + o

/-- A write of a pair's low word is held (R6). -/
def pairHoldOp (fn o : Nat) (v : Word) (s : State) : State :=
  if s.pairFree fn o then s.holdLow fn (pageOff fn o) v else s

/-- A 64-bit value as a queue address register. -/
def setQueueAddr (o : Nat) (v : DWord) (a : AdmQ) : AdmQ :=
  match o with
  | 0x10 | 0x80 => { a with base := v }
  | 0x18 | 0x88 => { a with res := v }
  | _ => { a with sb := v }

/-- A 64-bit write of a pair of the page. -/
def State.putPair (s : State) (fn o : Nat) (v : DWord) : State :=
  match o with
  | 0x10 | 0x18 | 0x20 => s.modAdmQ fn (setQueueAddr o v)
  | 0x80 | 0x88 | 0x90 => s.modCfgQ (setQueueAddr o v)
  | o => chBaseOp fn ((o - 0x400) / 0x20) v s

/-- A write of a pair's high word takes effect, with the held low word or the current one; `o` is the offset of the low word (R6). -/
def pairWriteOp (fn o : Nat) (v : Word) (s : State) : State :=
  if o = 0xCC then freeOp fn v s
  else
    let cur := ((s.pagePair fn o).getD 0) % 2 ^ 32
    let lo := ((s.heldLow fn (pageOff fn o)).map BitVec.toNat).getD cur
    let t := s.dropHeld fn (pageOff fn o)
    if s.pairFree fn o then t.putPair fn o (BitVec.ofNat 64 (v.toNat * 2 ^ 32 + lo)) else t

/-- The offset, of the low word, is that of a pair of the function's page that takes writes. -/
def State.pairWritable (s : State) (fn off : Nat) : Bool :=
  let p := blkOf fn off
  p.1 == .page && s.pairTakes fn p.2 && s.takes fn p.1 p.2

def execPairLowWrite (fn off : Nat) (v : Word) (s : State) : Res :=
  .next (onlyIf (s.pairWritable fn off) (pairHoldOp fn (blkOf fn off).2 v) s)

def execPairHighWrite (fn off : Nat) (v : Word) (s : State) : Res :=
  .next (onlyIf (decide (4 ≤ off) && s.pairWritable fn (off - 4)) (pairWriteOp fn (blkOf fn (off - 4)).2 v) s)

/-! ### Query registers (R33, R293, R323, R355) -/

/-- VALID clears. -/
def unvalid (r : Word) : Word := r &&& 0x7FFFFFFF

def ctxQueryOp (v : Word) (s : State) : State := s.modCtx fun c => { c with queryId := fld v.toNat 0 20, queryRes := unvalid c.queryRes }
def dscQueryOp (v : Word) (s : State) : State := s.modDsc fun d => { d with queryId := fld v.toNat 0 10, queryRes := unvalid d.queryRes }
def qeQueryOp (v : Word) (s : State) : State := s.modQe fun k => { k with queryId := fld v.toNat 0 16, queryRes := unvalid k.queryRes }
def bpmQueryOp (v : Word) (s : State) : State := s.modBpm fun b => { b with queryId := fld v.toNat 0 8, queryRes := unvalid b.queryRes }

def execCtxQueryIdWrite (v : Word) (s : State) : Res := .next (onlyIf (s.fnLive 0) (ctxQueryOp v) s)
def execDscClassQueryWrite (v : Word) (s : State) : Res := .next (onlyIf (s.fnLive 0) (dscQueryOp v) s)
def execQeQueryIdWrite (v : Word) (s : State) : Res := .next (onlyIf (s.fnLive 0) (qeQueryOp v) s)
def execBpmQueryIdWrite (v : Word) (s : State) : Res := .next (onlyIf (s.fnLive 0) (bpmQueryOp v) s)

/-- QE_QUERY_RESULT of a queue, with VALID 1 (Table 13-17). -/
def State.queueWord (s : State) (q : Nat) : Nat :=
  let w := s.queue q
  2 ^ 31 + (if w.state == .free then 0 else qCode w.state * 2 ^ 28 + w.fn * 2 ^ 22 + w.head)

/-- BPM_QUERY_RESULT of a pool, with VALID 1 (R355). -/
def State.poolWord (s : State) (p : Nat) : Nat :=
  2 ^ 31 + match s.pool? p with
    | some q => 2 ^ 30 + q.fn * 2 ^ 24 + q.bufLog
    | none => 0

/-- A started query completes (R33, R293, R323, R355). -/
def queryOp (k : QueryKind) (s : State) : State :=
  match k with
  | .ctx => s.modCtx fun c => { c with queryRes := BitVec.ofNat 32 (s.sessionWord c.queryId) }
  | .dsc => s.modDsc fun d => { d with
      queryRes := BitVec.ofNat 32 (s.classWord d.queryId), queryTag := BitVec.ofNat 64 (s.cls d.queryId).fTag }
  | .qe => s.modQe fun e => { e with
      queryRes := BitVec.ofNat 32 (s.queueWord e.queryId), queryProd := BitVec.ofNat 32 (s.queue e.queryId).prod }
  | .bpm => s.modBpm fun b => { b with
      queryRes := BitVec.ofNat 32 (s.poolWord b.queryId),
      queryFree := BitVec.ofNat 32 (((s.pool? b.queryId).map Pool.freeCount).getD 0) }

/-- The result does not reflect the query yet. -/
def State.queryOpen (s : State) (k : QueryKind) : Bool :=
  match k with
  | .ctx => !s.ctx.queryRes.getLsbD 31
  | .dsc => !s.dsc.queryRes.getLsbD 31
  | .qe => !s.qe.queryRes.getLsbD 31
  | .bpm => !s.bpm.queryRes.getLsbD 31

def execQueryResultValid (k : QueryKind) (s : State) : Res := .next (onlyIf (s.live && s.queryOpen k) (queryOp k) s)

/-! ### Writes by access code (R8) -/

/-- HLU_CTRL as written (Table 16-9). -/
def hluCtrl (v : Nat) : Nat :=
  max 1 (fld v 24 8) * 2 ^ 24 + max 1 (fld v 16 8) * 2 ^ 16 + clampNat 1 50 (fld v 8 8) * 256 + fld v 0 2

/-- HLU registers (Tables 16-9 and 16-10). -/
def hluWrite (o v : Nat) (s : State) : State :=
  match o with
  | 0x04 => s.modHlu fun h => { h with ctrl := BitVec.ofNat 32 (hluCtrl v) }
  | 0x08 => s.modHlu fun h => { h with ptmCtrl := BitVec.ofNat 32 (fld v 31 1 * 2 ^ 31 + max 1 (fld v 0 10)) }
  | 0x0C => if bitAt v 30 then s.modHlu fun h => { h with stepped := false } else s
  | _ => s

/-- QE_CTRL and QE_QUERY_ID (Table 13-17). -/
def qeWrite (o : Nat) (v : Word) (s : State) : State :=
  match o with
  | 0x00 => s.modQe fun k => { k with chainTmo := max 1 (fld v.toNat 0 10) }
  | 0x40 => qeQueryOp v s
  | _ => s

/-- DSC_CTRL and DSC_CLASS_QUERY_ID (Tables 12-8 and 12-10). -/
def dscWrite (o : Nat) (v : Word) (s : State) : State :=
  match o with
  | 0x00 => s.modDsc fun d => { d with ctrl := v &&& 0xFFFF0003 }
  | 0x40 => dscQueryOp v s
  | _ => s

/-- CTX_CTRL and CTX_QUERY_ID (Tables 2-11 and 2-13). -/
def ctxWrite (o : Nat) (v : Word) (s : State) : State :=
  match o with
  | 0x00 => s.modCtx fun c => { c with ctrl := v &&& 0x1FF }
  | 0x30 => ctxQueryOp v s
  | _ => s

/-- MFX_CTRL and MFX_WEIGHT (Table 18-8). -/
def mfxWrite (o : Nat) (v : Word) (s : State) : State :=
  if o = 0 then s.modMem fun m => { m with hintGate := max 1 (fld v.toNat 0 12) }
  else if 0x100 ≤ o ∧ o < 0x500 ∧ (o - 0x100) % 0x40 / 4 < 12 then weightOp ((o - 0x100) / 0x40) ((o - 0x100) % 0x40 / 4) v s
  else s

/-- DRS_CH_CTRL, DRS_SCRUB_PERIOD and DRS_CE_THRESH, locked by PROT_LOCK (Table 18-11). -/
def drsWrite (k o off : Nat) (v : Nat) (s : State) : State :=
  match o with
  | 0x08 => s.modChn k fun c => { c with scrubEn := bitAt v 16, refMode := bitAt v 8, pdIdle := fld v 0 8 }
  | 0x0C => s.modChn k fun c => { c with scrubHours := clampNat 1 168 (fld v 0 8) }
  | 0x40 => if s.boot.protLock then s.reportAccess 0 off else s.modChn k fun c => { c with thresh := max 1 (fld v 0 16) }
  | _ => s

/-- FCL_CTRL, FCL_STATUS and FCL_POP (Tables 19-12 and 19-13). -/
def fclWrite (o : Nat) (v : Word) (s : State) : State :=
  match o with
  | 0x00 => if v.getLsbD 0 then aliveResumeOp s else s
  | 0x04 => if v.getLsbD 31 then firstClearOp s else s
  | 0x10 => fclPopOp v s
  | _ => s

/-- One command bit of CCA_CTRL. -/
def cmdBit (v : Word) (n : Nat) (f : State → State) (s : State) : State := if v.getLsbD n then f s else s

/-- The unfence bit of half `e`: beside its fence bit it does not act (R89). -/
def unfenceBit (n e : Nat) (v : Word) (s : State) : State := if v.getLsbD e then s else cmdBit v (2 + e) (unfenceOp n e) s

/-- A write of CCA_CTRL: FENCE_MODE is stored, and each command bit acts, from bit 0 up (R83, R88, R89, Table 3-13). -/
def ccaCtrlOp (n : Nat) (v : Word) (s : State) : State :=
  let m := v.getLsbD 4
  unfenceBit n 1 v (unfenceBit n 0 v (cmdBit v 1 (fenceOp n 1 m) (cmdBit v 0 (fenceOp n 0 m)
    (s.modCore n fun c => { c with mode := m }))))

/-- CCA_CTRL and CCA_STATUS (Tables 3-13 and 3-14). -/
def coreWrite (n o : Nat) (v : Word) (s : State) : State :=
  match o with
  | 0x04 => ccaCtrlOp n v s
  | 0x08 => if v.getLsbD 8 then s.modCore n fun c => { c with ignored := false } else s
  | _ => s

/-- SEQ_WDOG (Table 4-9). -/
def seqWrite (h o v : Nat) (s : State) : State :=
  if o = 0x04 then s.modHalf h fun x => { x with wdogExp := clampNat 20 30 (fld v 0 5) } else s

/-- The channel registers of the page: DMV_CH_CTRL, DMV_CH_DB and DMV_CH_ALLOCW (Tables 15-8 to 15-10). -/
def chanWrite (fn l o : Nat) (v : Word) (s : State) : State :=
  match o with
  | 0x08 => ctrlOp fn l v s
  | 0x0C => chDbOp fn l s
  | 0x18 => s.modChan (s.chanOf fn l) fun c => { c with allocw := max 1 (fld v.toNat 0 16) }
  | _ => s

/-- The function page (Tables 13-14, 15-8). -/
def pageWrite (fn o : Nat) (v : Word) (s : State) : State :=
  match o with
  | 0x28 => s.modAdmQ fn (AdmQ.write v.toNat)
  | 0x2C => admBellOp false fn v s
  | 0x40 => s.modRing fn fun r => { r with cons := fld v.toNat 0 17 }
  | 0x44 => if v.getLsbD 31 then s.modRing fn fun r => { r with overflow := false } else s
  | 0x48 => s.modRing fn fun r => { r with pend := r.pend &&& ~~~ (v.truncate 16) }
  | 0x98 => if fn = 0 then s.modCfgQ (AdmQ.write v.toNat) else s
  | 0x9C => if fn = 0 then admBellOp true fn v s else s
  | 0xC0 => allocReqOp fn v s
  | o =>
    match s.chanAt fn o with
    | some (_, r) => chanWrite fn ((o - 0x400) / 0x20) r v s
    | none => s

/-- The interrupt page (Table 17-2). -/
def irqWrite (fn o : Nat) (v : Word) (s : State) : State :=
  match o with
  | 0x40 => thresholdOp fn v s
  | 0x4C => completeOp fn v s
  | o =>
    match wordIx 0x804 8 256 o with
    | some k => lsrcOp fn k v s
    | none => s

/-- A write of SEM[n] through a mailbox page. -/
def semWrite (fn : Nat) (d : MbxSide) (n : Nat) (v : Word) (s : State) : State :=
  match d with
  | .pf0 => releaseOp fn n v s
  | .vf _ => releaseOp fn n v s
  | _ => s

/-- The mailbox page (Tables 17-7 and 17-9). -/
def mbxWrite (fn : Nat) (d : MbxSide) (o : Nat) (v : Word) (s : State) : State :=
  match o with
  | 0x00 => inDbOp d v s
  | 0x04 => (s.modMbx (mbxKey d) fun m => { m with mask := v }).settleMbx d
  | 0x08 => outDbOp d v s
  | 0x0C => s.modMbx (mbxKey d) fun m => { m with tmoFlags := m.tmoFlags &&& ~~~ v }
  | 0x10 => s.modMbx (mbxKey d) fun m =>
      { m with rcvReset := m.rcvReset && !v.getLsbD 31, slotBusy := m.slotBusy && !v.getLsbD 30 }
  | 0x14 => s.modMbx (mbxKey d) fun m => { m with tmo := clampNat 1 4000000 (fld v.toNat 0 22) }
  | o =>
    match wordIx 0x100 4 32 o, wordIx 0x800 4 64 o with
    | some i, _ => slotOp d (i / 4) (i % 4) v s
    | none, some n => semWrite fn d n v s
    | none, none => s

/-- A write of the register at an offset of a block, by its access code; read-only and unassigned offsets ignore it (R7, R8). -/
def writeWord (fn off : Nat) (b : Blk) (o : Nat) (v : Word) (s : State) : State :=
  match b with
  | .hlu => hluWrite o v.toNat s
  | .qe => qeWrite o v s
  | .dsc => dscWrite o v s
  | .ctx => ctxWrite o v s
  | .mau => if o = 0 then s.modMau fun m => { m with enable := if v.truncate 8 == 0#8 then 1 else v.truncate 8 } else s
  | .pcf => if o = 0 then s.modPcf fun p => { p with enable := if v.truncate 16 == 0#16 then 1 else v.truncate 16 } else s
  | .mfx => mfxWrite o v s
  | .drs k => drsWrite k o off v.toNat s
  | .bpm => if o = 0 then bpmQueryOp v s else s
  | .fcl => fclWrite o v s
  | .core n => coreWrite n o v s
  | .seqr h => seqWrite h o v.toNat s
  | .bell q => doorbellOp fn q o v s
  | .irq => irqWrite fn o v s
  | .mbx d => mbxWrite fn d o v s
  | .page =>
    if s.pairTakes fn o then pairHoldOp fn o v s
    else if 4 ≤ o ∧ s.pairTakes fn (o - 4) then pairWriteOp fn (o - 4) v s
    else pageWrite fn o v s
  | .none_ | .csc | .dmv | .imb | .rcu | .ntl => s

/-- A write of one register, where the block takes it. -/
def oneWrite (fn off : Nat) (v : Word) (s : State) : State :=
  if s.takes fn (blkOf fn off).1 (blkOf fn off).2 then writeWord fn off (blkOf fn off).1 (blkOf fn off).2 v s else s

/-- A write of one word, or of two words as one aligned 8-byte write: at a pair low then high in one operation, elsewhere
two 4-byte writes. It must be naturally aligned, at most 8 bytes long and cover every byte, and is discarded and recorded otherwise
(R6, R7, R486). -/
def writeOp (fn off : Nat) (be : BitVec 4) (v : List Word) (s : State) : State :=
  if be != 15 || off % (4 * max 1 v.length) != 0 || decide (2 < v.length) then
    (if s.fnAnswers fn then s.reportAccess fn off else s)
  else
    match v with
    | [] => s
    | [a] => oneWrite fn off a s
    | a :: b :: _ => oneWrite fn (off + 4) b (oneWrite fn off a s)

def execRegWrite (fn off : Nat) (be : BitVec 4) (v : List Word) (s : State) : Res :=
  .next (onlyIf (decide (off < barSize fn)) (writeOp fn off be v) s)

/-! ### Telemetry (R24, Table 1-4) -/

/-- Interval of the telemetry snapshots in ns: doubled while one management pair has all duties (Table 19-5). -/
def State.telemetryNs (s : State) : Nat := if s.fcl.mpFenced == 0 then 10000000 else 20000000

/-- The snapshot: one 4 KiB host page, whose contents and place the spec leaves open (log entry 5). -/
def telemetryOp (s : State) : State :=
  let n := s.telemetryNs
  let t := s.reach (s.time / n * n + n)
  (t.emitFor 0 (.hostWrite 0 (freeNow s 64).toNat (leBytes 4096 (freeNow s.tookFree 32768).toNat) false)).tookFree.tookFree

def execTelemetrySnapshot (s : State) : Res :=
  .next (onlyIf (s.up && (s.func 0).ready && s.fcl.mpDown &&& ~~~ s.fcl.mpFenced == 0) telemetryOp s)

end Sys2Proof.Machine
end

