-- ==== Sys2Proof/Machine/Pins.lean ====
section
/-! DEFINITION. Supplies, references and the board management port (22_package_electrical.md). -/
namespace Sys2Proof.Machine

/-- A monitored rail below its range: a cold reset, as a deassertion of PWRGOOD is (R499, R453). -/
def railOp (s : State) : State := s.atCold

/-- VDD_CC, VDD_SOC, VDDQ_MC and VDD_AON are monitored; a dip of 5 µs or less does nothing (R499). -/
def execRailUndervoltage (_r : Rail) (ns : Nat) (s : State) : Res := .next (onlyIf (decide (5000 < ns) && s.pins.pwrgood) railOp s)

/-- Loss of HL_REFCLK takes the link down (R503). -/
def refclkOp (s : State) : State := s.linkReset

def execRefclkLoss (s : State) : Res := .next (onlyIf s.running refclkOp s)

/-- The 25 MHz reference missing for 2 µs acts as a monitored rail does (R504). -/
def xtalOp (s : State) : State := s.atCold

def execXtalLoss (ns : Nat) (s : State) : Res := .next (onlyIf (decide (2000 ≤ ns) && s.pins.pwrgood) xtalOp s)

/-- The value at a management-port index; none where Table 22-11 names none. FN_STATUS lies in the host link's island, which is
held in reset unless the device runs; every other value lies in the always-on island (R507). -/
def State.tgtValue (s : State) (ix : Nat) : Option Nat :=
  match ix with
  | 0x00 => s.cscWord 0x00
  | 0x01 => s.cscWord 0x04
  | 0x02 => s.cscWord 0x100
  | 0x03 => s.fclWord 0x04
  | 0x04 => s.fclWord 0x08
  | 0x05 => if s.running then s.pageWord 0 0x004 else some 0
  | ix => if 0x10 ≤ ix ∧ ix < 0x20 then s.cscWord (0x40 + 4 * (ix - 0x10)) else none

/-- A read of the management port: the 32-bit value; an index without a name is not acknowledged (R507). -/
def tgtReadOp (ix : Nat) (s : State) : State :=
  match s.tgtValue ix with
  | some v => s.withRdata (BitVec.ofNat 64 (v % 2 ^ 32))
  | none => s

def execTgtRead (index : Nat) (s : State) : Res := .next (tgtReadOp index s)

end Sys2Proof.Machine
end

