-- ==== Sys2Proof/Machine/Rate.lean ====
section
/-! DEFINITION. Invar's requests: row decisions, picture plans and its restart (08_rate_control.md). -/
namespace Sys2Proof.Machine

/-! ### Row decisions (R207, R209, R216) -/

/-- At the start of a CTU row a half sends its spend and waits; a spend that has reached T_s puts the segment in stage 1, but not in CQP,
where only the CTU guard acts (R206, R207, R209). A later request of a half replaces one it no longer waits for. The request carries the
bytes that the half counts as spent (R208); no half sends another number, so that one with another has no effect (log entry 2). -/
def rowRequestOp (h row spent : Nat) (s : State) : State :=
  match (s.running? h).filter fun u => s.spentOf u h == spent with
  | none => s
  | some u =>
    match (s.sess u.session).plan? u.pic with
    | none => s
    | some p =>
      let g := p.segs.getD u.seg (0, 0, [])
      let t := s.modHalf h fun x => { x with rowQp := none, rowWait := true, stage1 := x.stage1 || ((s.sess u.session).par.rcMode != 0 && decide (g.2.1 ≤ spent)) }
      t.modRcu fun r => { r with rows := (r.rows.filter fun k => k.2.1 != h) ++ [(s.time, h, row, spent)] }

def execRcuRowRequest (half row spent : Nat) (s : State) : Res :=
  .next (onlyIf (s.live && isHalf half && half % 2 == 1 && row != 0) (rowRequestOp half row spent) s)

/-- The next row request: the earliest, of those of one instant that of the lowest half (R216). -/
def Rcu.nextRow (r : Rcu) : Option (Nat × Nat × Nat × Nat) :=
  let m := ((leastBy (fun k : Nat × Nat × Nat × Nat => (k.1 : Int)) r.rows).map fun k => k.1).getD 0
  leastBy (fun k : Nat × Nat × Nat × Nat => (k.2.1 : Int)) (r.rows.filter fun k => k.1 == m)

/-- A plan starts once no row decision waits (R216). -/
def Rcu.settle (r : Rcu) : Rcu := { r with busy := r.busy || (r.rows.isEmpty && !r.plans.isEmpty) }

/-- The row quantiser that a half's request earns: QP_MAX in stage 1, otherwise the plan's (R207, R209). -/
def State.rowAnswer (s : State) (u : WUnit) (h row spent : Nat) : Option Int :=
  let x := s.sess u.session
  (x.plan? u.pic).map fun p => if (s.half h).stage1 then x.par.qpMax else rowQp x.par p (p.segs.getD u.seg (0, 0, [])) row spent

/-- Invar finishes a row decision; a plan in progress is not interrupted (R207, R216, R217). -/
def rowDecisionOp (s : State) : State :=
  match s.rcu.nextRow with
  | none => s
  | some (at_, h, row, spent) =>
    let t := s.reach (at_ + 60)
    let v := t.modRcu fun r => { { r with
        rows := r.rows.filter (fun k => k.2.1 != h), rowsN := sat64 r.rowsN 1
        waitMax := BitVec.ofNat 32 (max r.waitMax.toNat (min (t.time - at_) 0xFFFFFFFF)) }.settle with }
    match v.running? h with
    | some u => if (v.half h).rowWait then v.modHalf h fun x => { x with
        rowQp := v.rowAnswer u h row spent, rowWait := false
        qps := tblSet none x.qps row ((v.rowAnswer u h row spent).map fun q => (q, !x.stage1)) } else v
    | none => v

def execRcuRowDecision (s : State) : Res := .next (onlyIf (s.live && !s.rcu.busy) rowDecisionOp s)

/-! ### Picture plans (R201, R203 to R206, R215, R216) -/

/-- The pictures that a plan covers: an encode session's own picture, or what each rendition codes for a source session's release, in
rendition order. -/
def State.planPics (s : State) (n pic : Nat) : List (Nat × SrcPic) :=
  if (s.sess n).par.encode then ((s.sess n).pic? pic).toList.map fun p => (n, p)
  else
    let rs := (s.allEntries.flatMap fun e => e.2.rends.map RendRes.session).eraseDups
    rs.filterMap fun m => ((s.sess m).src.find? fun p => p.feed == some (n, pic) && !p.coded && !p.hidden_ && p.failed == 0).map fun p => (m, p)

/-- A picture may be planned: its place is decided, its lookahead analysed, and in modes 1 to 4 every earlier picture of its session has
committed its finish (R15, R175, R201, R215). -/
def State.mayPlan (s : State) (n : Nat) (p : SrcPic) : Bool :=
  let x := s.sess n
  p.decided && s.analysed n p && s.lookOk n p && (x.plan? p.index).isNone
    && (x.par.rcMode == 0 || !x.src.any fun k => !k.coded && !k.hidden_ && match k.codedIx, p.codedIx with
      | some a, some b => decide (a < b)
      | _, _ => false)

/-- A request for a plan: of a running picture start, or of a ladder's renditions once each of them may be planned (R201, R215). -/
def planRequestOp (n pic : Nat) (s : State) : State :=
  let ps := s.planPics n pic
  let started := !(s.sess n).par.encode || s.dsc.units.any fun u =>
    u.session == n && u.pic == pic && u.kind.begins && !u.show_ && u.active
  if ps.isEmpty || !started || !ps.all (fun p => s.mayPlan p.1 p.2) || s.rcu.plans.any (fun k => k.2.1 == n && k.2.2 == pic) then s
  else s.modRcu fun r => { r with plans := r.plans ++ [(s.time, n, pic)] }.settle

def execRcuPlanRequest (session pic : Nat) (s : State) : Res :=
  .next (onlyIf s.live (planRequestOp session pic) s)

/-- The next plan: the earliest request, of those of one instant that of the lowest session (R216). -/
def Rcu.nextPlan (r : Rcu) : Option (Nat × Nat × Nat) :=
  let m := ((leastBy (fun k : Nat × Nat × Nat => (k.1 : Int)) r.plans).map fun k => k.1).getD 0
  leastBy (fun k : Nat × Nat × Nat => (k.2.1 : Int)) (r.plans.filter fun k => k.1 == m)

/-- Invar cycles of a plan: 1,200, 40 for each window picture, 300 for each rendition after the first (R216). -/
def State.planCycles (s : State) (ps : List (Nat × SrcPic)) : Nat :=
  1200 + 40 * ((ps.head?.map fun p => (s.window p.1 p.2).length).getD 0) + 300 * (ps.length - 1)

/-- A core unit of a planned picture with its estimate by the plan's bytes: T_s for a segment, T_data for a fused unit, the sum of T_s
staged for a picture finish; a cost already charged stands (R81, R279). -/
def WUnit.planned (u : WUnit) (x : Session) (k : Plan) : WUnit :=
  let hdr := 4 * x.prevHdr
  let seg := fun fixed bytes corr => encSegEst x.par fixed u.luma bytes corr
  let staged := (k.segs.map fun g => g.2.1).foldl (· + ·) 0
  let est := match u.kind with
    | .segment => (seg 600 (k.segs.getD u.seg (0, 0, [])).2.1 x.estCorr, seg 600 (k.segs.getD u.seg (0, 0, [])).2.1 256)
    | .fused => (seg (4800 + hdr) (k.target - k.hdr) x.estCorr, seg (4800 + hdr) (k.target - k.hdr) 256)
    | .finish => let c := 1000 + ceilDiv u.samples 8 + ceilDiv staged 4; (c, c)
    | _ => (u.estRaw, u.estRaw)
  if u.show_ || u.kind == .start then u
  else { u with cost := if u.queued && !u.charged then per15 est.1 else u.cost, estRaw := est.2 }

/-- A plan reaches the units of its picture: their estimates, and the byte caps of their budgets (R78, R81, R206, R279). -/
def State.rebudget (s : State) (n pic : Nat) : State :=
  let x := s.sess n
  match x.plan? pic with
  | none => s
  | some k => s.modDsc fun d => { d with units := d.units.map fun u =>
      if u.session == n && u.pic == pic && u.kind.onCore then
        let v := u.planned x k
        if !u.show_ && (u.kind == .segment || u.kind == .fused) then
          { v with budget := budgetOf 4 u.samples u.luma (x.byteCap pic u.seg (u.kind == .fused)) (levelCeiling x.par.level) }
        else v
      else u }

/-- Header bytes that a picture start writes: those of its head units with their start codes or slots (R205). -/
def startBytes (x : Session) (p : SrcPic) : Nat :=
  if p.hiddenWith then 0
  else ((headUnits x x.par p false).foldl (fun f k => (f.feed x.par (2 ^ 64) k.1 k.2).closeUnit x.par (2 ^ 64)) Fifo.init).bytes.length

/-- One picture's plan is made and kept with its session (R206). -/
def State.makePlan (s : State) (ms : List MapRead) (n : Nat) (p : SrcPic) : State :=
  let k := s.planOf ms n p (startBytes (s.sess n) p)
  (s.modSess n fun x => { x with plans := x.plans ++ [k] }).rebudget n p.index

/-- Invar finishes the plan in progress: of every picture it covers, in rendition order; `ms` holds what reads of maps in host memory return
(R184, R203, R205, R215). A picture that left in the meantime takes none. -/
def planDoneOp (ms : List MapRead) (s : State) : State :=
  match s.rcu.nextPlan with
  | none => s
  | some (at_, n, pic) =>
    let ps := (s.planPics n pic).filter fun p => s.mayPlan p.1 p.2
    let t := (s.reach (at_ + s.planCycles ps)).modRcu fun r => { { r with
        busy := false, plans := r.plans.filter fun k => !(k.2.1 == n && k.2.2 == pic), plansN := sat64 r.plansN 1 }.settle with }
    forEach ps (fun k v => v.makePlan ms k.1 k.2) t

def execRcuPlanDone (maps : List MapRead) (s : State) : Res := .next (onlyIf (s.live && s.rcu.busy) (planDoneOp maps) s)

/-! ### Restart (R440, Table 19-5) -/

/-- Invar's microcode restarts; requests stay and are served again. A fourth restart within 1 s is class F (Table 19-5). -/
def invarRestartOp (s : State) : State :=
  let recent := s.rcu.restarts.filter fun t => decide (s.time < t + 1000000000)
  let t := (s.modRcu fun r => { r with restarts := recent ++ [s.time] }).report 0x03 0xA0 none none (freeNow s 16).toNat 0 0
  let v := t.tookFree
  if 3 ≤ recent.length then v.report 0x33 0xA0 none none 0xA0 0 0 else v

def execInvarRestart (s : State) : Res := .next (onlyIf s.live invarRestartOp s)

end Sys2Proof.Machine
end

