-- ==== Sys2Proof/Machine/Dispatch.lean ====
section
/-! DEFINITION. One arm per command: its meaning, by name. -/
namespace Sys2Proof.Machine

/-- The effect of a command on everything but the queue (log entry 1). -/
def exec (i : Instr) (s : State) : Host.Outcome State Fault Refusal :=
  match i with
  | .wqDoorbell fn index off v => Sys2Proof.Machine.execWqDoorbell fn index off v s
  | .entryFetch q ok entries => Sys2Proof.Machine.execEntryFetch q ok entries s
  | .chainTmo q => Sys2Proof.Machine.execChainTmo q s
  | .completionReservation q => Sys2Proof.Machine.execCompletionReservation q s
  | .decodeAu q seq au => Sys2Proof.Machine.execDecodeAu q seq au s
  | .encodePicture q seq => Sys2Proof.Machine.execEncodePicture q seq s
  | .transcodeAu q seq au => Sys2Proof.Machine.execTranscodeAu q seq au s
  | .convertPicture q seq => Sys2Proof.Machine.execConvertPicture q seq s
  | .analyzePicture q seq => Sys2Proof.Machine.execAnalyzePicture q seq s
  | .copy q seq => Sys2Proof.Machine.execCopy q seq s
  | .flushSession q seq => Sys2Proof.Machine.execFlushSession q seq s
  | .fence q seq => Sys2Proof.Machine.execFence q seq s
  | .publishHead q => Sys2Proof.Machine.execPublishHead q s
  | .modTimer q => Sys2Proof.Machine.execModTimer q s
  | .evqConsWrite fn v => Sys2Proof.Machine.execEvqConsWrite fn v s
  | .evqOverflowClear fn => Sys2Proof.Machine.execEvqOverflowClear fn s
  | .admqDb fn v => Sys2Proof.Machine.execAdmqDb fn v s
  | .cfgqDb fn v => Sys2Proof.Machine.execCfgqDb fn v s
  | .admqEnable fn v => Sys2Proof.Machine.execAdmqEnable fn v s
  | .admqDisable fn v => Sys2Proof.Machine.execAdmqDisable fn v s
  | .cfgqEnable fn v => Sys2Proof.Machine.execCfgqEnable fn v s
  | .createQueue fn e => Sys2Proof.Machine.execCreateQueue fn e s
  | .destroyQueue fn e => Sys2Proof.Machine.execDestroyQueue fn e s
  | .enableQueue fn e => Sys2Proof.Machine.execEnableQueue fn e s
  | .disableQueue fn e => Sys2Proof.Machine.execDisableQueue fn e s
  | .resetQueue fn e => Sys2Proof.Machine.execResetQueue fn e s
  | .setQueueMod fn e => Sys2Proof.Machine.execSetQueueMod fn e s
  | .createSession fn e b => Sys2Proof.Machine.execCreateSession fn e b s
  | .destroySession fn e => Sys2Proof.Machine.execDestroySession fn e s
  | .setSessionParams fn e b => Sys2Proof.Machine.execSetSessionParams fn e b s
  | .resetSession fn e => Sys2Proof.Machine.execResetSession fn e s
  | .querySession fn e => Sys2Proof.Machine.execQuerySession fn e s
  | .createPool fn e => Sys2Proof.Machine.execCreatePool fn e s
  | .destroyPool fn e => Sys2Proof.Machine.execDestroyPool fn e s
  | .setClass fn e => Sys2Proof.Machine.execSetClass fn e s
  | .queryClass fn e => Sys2Proof.Machine.execQueryClass fn e s
  | .setGateList fn e b => Sys2Proof.Machine.execSetGateList fn e b s
  | .createEventRing fn e => Sys2Proof.Machine.execCreateEventRing fn e s
  | .destroyEventRing fn e => Sys2Proof.Machine.execDestroyEventRing fn e s
  | .queryFunction fn e => Sys2Proof.Machine.execQueryFunction fn e s
  | .restructure e b => Sys2Proof.Machine.execRestructure e b s
  | .restructureInForce => Sys2Proof.Machine.execRestructureInForce s
  | .spareRank e => Sys2Proof.Machine.execSpareRank e s
  | .retireRank e => Sys2Proof.Machine.execRetireRank e s
  | .queryImage e => Sys2Proof.Machine.execQueryImage e s
  | .scheduleDecision kind => Sys2Proof.Machine.execScheduleDecision kind s
  | .unitDispatch entry => Sys2Proof.Machine.execUnitDispatch entry s
  | .bucketRefill => Sys2Proof.Machine.execBucketRefill s
  | .gateClaim lane => Sys2Proof.Machine.execGateClaim lane s
  | .gateWindowOpen lane => Sys2Proof.Machine.execGateWindowOpen lane s
  | .gateWindowClose lane => Sys2Proof.Machine.execGateWindowClose lane s
  | .gateListSwitch lane => Sys2Proof.Machine.execGateListSwitch lane s
  | .preloadDone half bank => Sys2Proof.Machine.execPreloadDone half bank s
  | .contextPrefetch => Sys2Proof.Machine.execContextPrefetch s
  | .bankDrainDone half bank => Sys2Proof.Machine.execBankDrainDone half bank s
  | .microwordIssue half x => Sys2Proof.Machine.execMicrowordIssue half x s
  | .fifoTailFlush half => Sys2Proof.Machine.execFifoTailFlush half s
  | .commitFlip entry => Sys2Proof.Machine.execCommitFlip entry s
  | .requestArrival half r tag => Sys2Proof.Machine.execRequestArrival half r tag s
  | .waitWatchdog half => Sys2Proof.Machine.execWaitWatchdog half s
  | .decodeBudgetAbort half => Sys2Proof.Machine.execDecodeBudgetAbort half s
  | .encodeBudgetAbort half => Sys2Proof.Machine.execEncodeBudgetAbort half s
  | .machineCheck half cause uaddr => Sys2Proof.Machine.execMachineCheck half cause uaddr s
  | .fenceDec core abort => Sys2Proof.Machine.execFenceDec core abort s
  | .fenceEnc core abort => Sys2Proof.Machine.execFenceEnc core abort s
  | .unfenceDec core => Sys2Proof.Machine.execUnfenceDec core s
  | .unfenceEnc core => Sys2Proof.Machine.execUnfenceEnc core s
  | .selfTestDone half r => Sys2Proof.Machine.execSelfTestDone half r s
  | .clockChange core mhz => Sys2Proof.Machine.execClockChange core mhz s
  | .clockSettled core => Sys2Proof.Machine.execClockSettled core s
  | .rcacheParity cluster addr => Sys2Proof.Machine.execRcacheParity cluster addr s
  | .rcuRowRequest half row spent => Sys2Proof.Machine.execRcuRowRequest half row spent s
  | .rcuRowDecision => Sys2Proof.Machine.execRcuRowDecision s
  | .rcuPlanRequest session pic => Sys2Proof.Machine.execRcuPlanRequest session pic s
  | .rcuPlanDone maps => Sys2Proof.Machine.execRcuPlanDone maps s
  | .invarRestart => Sys2Proof.Machine.execInvarRestart s
  | .mauUnitDone engine src prev => Sys2Proof.Machine.execMauUnitDone engine src prev s
  | .mauParity engine => Sys2Proof.Machine.execMauParity engine s
  | .pcfPassDone pipe luma chroma poisoned => Sys2Proof.Machine.execPcfPassDone pipe luma chroma poisoned s
  | .pcfParity pipe => Sys2Proof.Machine.execPcfParity pipe s
  | .tileWrite t samples => Sys2Proof.Machine.execTileWrite t samples s
  | .tileRead t => Sys2Proof.Machine.execTileRead t s
  | .tileMerge t => Sys2Proof.Machine.execTileMerge t s
  | .portGrant cluster reqs => Sys2Proof.Machine.execPortGrant cluster reqs s
  | .ingressGrant ch reqs => Sys2Proof.Machine.execIngressGrant ch reqs s
  | .creditRefill ch => Sys2Proof.Machine.execCreditRefill ch s
  | .backoffExpiry ch port => Sys2Proof.Machine.execBackoffExpiry ch port s
  | .writeAck ch id addr data => Sys2Proof.Machine.execWriteAck ch id addr data s
  | .mfxWeightWrite ch port v => Sys2Proof.Machine.execMfxWeightWrite ch port v s
  | .dramCommand ch => Sys2Proof.Machine.execDramCommand ch s
  | .dramReadData ch addr r => Sys2Proof.Machine.execDramReadData ch addr r s
  | .refreshDue ch rank => Sys2Proof.Machine.execRefreshDue ch rank s
  | .calibrationDue ch => Sys2Proof.Machine.execCalibrationDue ch s
  | .calibrationDone ch => Sys2Proof.Machine.execCalibrationDone ch s
  | .dimmThermalRead ch temp => Sys2Proof.Machine.execDimmThermalRead ch temp s
  | .powerDownEntry ch rank => Sys2Proof.Machine.execPowerDownEntry ch rank s
  | .selfRefreshEntry ch => Sys2Proof.Machine.execSelfRefreshEntry ch s
  | .selfRefreshExit ch => Sys2Proof.Machine.execSelfRefreshExit ch s
  | .patrolScrubRead ch r => Sys2Proof.Machine.execPatrolScrubRead ch r s
  | .ceWindowEnd => Sys2Proof.Machine.execCeWindowEnd s
  | .migrationCopy ch bad r => Sys2Proof.Machine.execMigrationCopy ch bad r s
  | .rankRecordWrite => Sys2Proof.Machine.execRankRecordWrite s
  | .dmvChDb fn chan v => Sys2Proof.Machine.execDmvChDb fn chan v s
  | .channelEnable fn chan v => Sys2Proof.Machine.execChannelEnable fn chan v s
  | .channelDisable fn chan v => Sys2Proof.Machine.execChannelDisable fn chan v s
  | .dmvChBaseWrite fn chan v => Sys2Proof.Machine.execDmvChBaseWrite fn chan v s
  | .descriptorRead g ok descs => Sys2Proof.Machine.execDescriptorRead g ok descs s
  | .readBurstDone u poisoned data => Sys2Proof.Machine.execReadBurstDone u poisoned data s
  | .writeRequestIssue u => Sys2Proof.Machine.execWriteRequestIssue u s
  | .descriptorWriteback g => Sys2Proof.Machine.execDescriptorWriteback g s
  | .demandRead half space addr len => Sys2Proof.Machine.execDemandRead half space addr len s
  | .demandWrite half window addr data => Sys2Proof.Machine.execDemandWrite half window addr data s
  | .demandWriteHold half => Sys2Proof.Machine.execDemandWriteHold half s
  | .dmvBufferParity u => Sys2Proof.Machine.execDmvBufferParity u s
  | .bpmAllocReq fn v => Sys2Proof.Machine.execBpmAllocReq fn v s
  | .bpmFree fn v => Sys2Proof.Machine.execBpmFree fn v s
  | .poolArbitration pool => Sys2Proof.Machine.execPoolArbitration pool s
  | .allocBackoff g => Sys2Proof.Machine.execAllocBackoff g s
  | .allocWaitExpiry g => Sys2Proof.Machine.execAllocWaitExpiry g s
  | .poolCacheRefill pool => Sys2Proof.Machine.execPoolCacheRefill pool s
  | .poolCacheSpill pool => Sys2Proof.Machine.execPoolCacheSpill pool s
  | .sourceAssert source level => Sys2Proof.Machine.execSourceAssert source level s
  | .imbClaim fn => Sys2Proof.Machine.execImbClaim fn s
  | .imbComplete fn v => Sys2Proof.Machine.execImbComplete fn v s
  | .imbThreshold fn v => Sys2Proof.Machine.execImbThreshold fn v s
  | .imbLsrcB fn slot v => Sys2Proof.Machine.execImbLsrcB fn slot v s
  | .msixUnmask fn vector => Sys2Proof.Machine.execMsixUnmask fn vector s
  | .mbxOutSlot side k w v => Sys2Proof.Machine.execMbxOutSlot side k w v s
  | .mbxOutDb side v => Sys2Proof.Machine.execMbxOutDb side v s
  | .mbxInDb side v => Sys2Proof.Machine.execMbxInDb side v s
  | .mbxTimeout side k => Sys2Proof.Machine.execMbxTimeout side k s
  | .semAcquire target n => Sys2Proof.Machine.execSemAcquire target n s
  | .semRelease target n v => Sys2Proof.Machine.execSemRelease target n v s
  | .perstAssert => Sys2Proof.Machine.execPerstAssert s
  | .perstDeassert b => Sys2Proof.Machine.execPerstDeassert b s
  | .pwrgoodFall => Sys2Proof.Machine.execPwrgoodFall s
  | .pwrgoodRise => Sys2Proof.Machine.execPwrgoodRise s
  | .railUndervoltage r ns => Sys2Proof.Machine.execRailUndervoltage r ns s
  | .refclkLoss => Sys2Proof.Machine.execRefclkLoss s
  | .xtalLoss ns => Sys2Proof.Machine.execXtalLoss ns s
  | .hotReset => Sys2Proof.Machine.execHotReset s
  | .linkDown => Sys2Proof.Machine.execLinkDown s
  | .linkTrained m => Sys2Proof.Machine.execLinkTrained m s
  | .flr fn => Sys2Proof.Machine.execFlr fn s
  | .flrComplete fn => Sys2Proof.Machine.execFlrComplete fn s
  | .vfEnableClear => Sys2Proof.Machine.execVfEnableClear s
  | .d3hotEntry fn => Sys2Proof.Machine.execD3hotEntry fn s
  | .d0Return fn => Sys2Proof.Machine.execD0Return fn s
  | .pmeTurnOff => Sys2Proof.Machine.execPmeTurnOff s
  | .aspmL1Entry idleUs => Sys2Proof.Machine.execAspmL1Entry idleUs s
  | .l1Exit => Sys2Proof.Machine.execL1Exit s
  | .l0pReduce percent ms => Sys2Proof.Machine.execL0pReduce percent ms s
  | .l0pRestore percent => Sys2Proof.Machine.execL0pRestore percent s
  | .ptmRequest => Sys2Proof.Machine.execPtmRequest s
  | .ptmResponse root => Sys2Proof.Machine.execPtmResponse root s
  | .hdmDecoderCommit d host dev size => Sys2Proof.Machine.execHdmDecoderCommit d host dev size s
  | .cxlMemRead addr caches => Sys2Proof.Machine.execCxlMemRead addr caches s
  | .cxlMemWrite addr data poison => Sys2Proof.Machine.execCxlMemWrite addr data poison s
  | .bar4Access off write len data => Sys2Proof.Machine.execBar4Access off write len data s
  | .bisnpResponse line dirty => Sys2Proof.Machine.execBisnpResponse line dirty s
  | .snoopReceived addr => Sys2Proof.Machine.execSnoopReceived addr s
  | .ideIntegrityFail stream => Sys2Proof.Machine.execIdeIntegrityFail stream s
  | .ideKeyProgram stream => Sys2Proof.Machine.execIdeKeyProgram stream s
  | .spdmRequest code param secured => Sys2Proof.Machine.execSpdmRequest code param secured s
  | .faultRecord => Sys2Proof.Machine.execFaultRecord s
  | .fclPop v => Sys2Proof.Machine.execFclPop v s
  | .firstValidClear => Sys2Proof.Machine.execFirstValidClear s
  | .aliveResume => Sys2Proof.Machine.execAliveResume s
  | .policyWindowEnd hour => Sys2Proof.Machine.execPolicyWindowEnd hour s
  | .lockstepMismatch pair => Sys2Proof.Machine.execLockstepMismatch pair s
  | .firmwareRestartDone pair => Sys2Proof.Machine.execFirmwareRestartDone pair s
  | .electrumLineError session => Sys2Proof.Machine.execElectrumLineError session s
  | .thermalReading temps => Sys2Proof.Machine.execThermalReading temps s
  | .bootComplete => Sys2Proof.Machine.execBootComplete s
  | .bootTimeout => Sys2Proof.Machine.execBootTimeout s
  | .arbBurn kind => Sys2Proof.Machine.execArbBurn kind s
  | .fwInfo b => Sys2Proof.Machine.execFwInfo b s
  | .fwEnrollOwner b => Sys2Proof.Machine.execFwEnrollOwner b s
  | .fwFlashWrite b => Sys2Proof.Machine.execFwFlashWrite b s
  | .fwDebugUnlock b => Sys2Proof.Machine.execFwDebugUnlock b s
  | .tgtRead index => Sys2Proof.Machine.execTgtRead index s
  | .telemetrySnapshot => Sys2Proof.Machine.execTelemetrySnapshot s
  | .ctxQueryIdWrite v => Sys2Proof.Machine.execCtxQueryIdWrite v s
  | .dscClassQueryWrite v => Sys2Proof.Machine.execDscClassQueryWrite v s
  | .qeQueryIdWrite v => Sys2Proof.Machine.execQeQueryIdWrite v s
  | .bpmQueryIdWrite v => Sys2Proof.Machine.execBpmQueryIdWrite v s
  | .queryResultValid k => Sys2Proof.Machine.execQueryResultValid k s
  | .regWrite fn off be v => Sys2Proof.Machine.execRegWrite fn off be v s
  | .rcRead fn off => Sys2Proof.Machine.execRcRead fn off s
  | .pairLowRead fn off => Sys2Proof.Machine.execPairLowRead fn off s
  | .pairHighRead fn off => Sys2Proof.Machine.execPairHighRead fn off s
  | .pairLowWrite fn off v => Sys2Proof.Machine.execPairLowWrite fn off v s
  | .pairHighWrite fn off v => Sys2Proof.Machine.execPairHighWrite fn off v s
  | .unalignedRead fn off len => Sys2Proof.Machine.execUnalignedRead fn off len s
  | .vfEnableSet numVfs => Sys2Proof.Machine.execVfEnableSet numVfs s
  | .pwrgoodSettleTime b => Sys2Proof.Machine.execPwrgoodSettleTime b s
  | .flushReadCompletion q => Sys2Proof.Machine.execFlushReadCompletion q s
  | .hostBiasResponse line data => Sys2Proof.Machine.execHostBiasResponse line data s
  | .fclParityError => Sys2Proof.Machine.execFclParityError s
  | .clusterPortError cluster => Sys2Proof.Machine.execClusterPortError cluster s
  | .nitinolEngineError engine merge addr => Sys2Proof.Machine.execNitinolEngineError engine merge addr s

end Sys2Proof.Machine
end

