-- ==== Sys2Proof/Machine/Step.lean ====
section
/-! DEFINITION. One step of the block: the command at the front of the queue, or one nanosecond on an empty queue. -/
namespace Sys2Proof.Machine

/-- One step: the command at the front runs with the queue's rest; an empty queue lets a nanosecond pass (log entry 1). -/
def step (s : State) : Host.Outcome State Fault Refusal :=
  match s.pending with
  | [] => .next (Sys2Proof.Machine.idle s)
  | c :: rest => Sys2Proof.Machine.exec c (s.withPending rest)

/-- `s` with the command that a table word spells put at the front of its queue; no word spells one (log entry 1). -/
def State.withFetchWord (s : State) (nbits w : Nat) : State :=
  match Sys2Proof.decodeTableWord nbits w with
  | some c => s.withPending (c :: s.pending)
  | none => s

end Sys2Proof.Machine
end

