-- ==== Sys2Proof/WellFormed.lean ====
section
/-! DEFINITION. Which commands are well formed: every number a command names lies in the range the spec gives it, and what comes
with it has the form the spec gives it. -/
namespace Sys2Proof

/-- Functions 0 to 63 (R9). -/
def fnOk (f : Nat) : Bool := decide (f < 64)
/-- An offset within the function's BAR 0 (R361). -/
def offOk (f off : Nat) : Bool := fnOk f && decide (off < if f = 0 then 0x4000000 else 0x40000)
/-- Global queue IDs (R9). -/
def queueOk (q : Nat) : Bool := decide (q < 65536)
/-- Session IDs (R9). -/
def sessionOk (n : Nat) : Bool := decide (n < 2 ^ 20)
/-- The 64 cores and their 128 halves (R9, Table 19-2). -/
def coreOk (c : Nat) : Bool := decide (c < 64)
def halfOk (h : Nat) : Bool := decide (h < 128)
def clusterOk (c : Nat) : Bool := decide (c < 8)
/-- DRAM channels, ports and ranks (R399, R403). -/
def chnOk (k : Nat) : Bool := decide (k < 16)
def portOk (p : Nat) : Bool := decide (p < 12)
def rankOk (r : Nat) : Bool := decide (r < 4)
/-- Lanes and in-flight entries of Babbitt (R257, R262). -/
def laneOk (l : Nat) : Bool := decide (l < 8)
def entryOk (e : Nat) : Bool := decide (e < 4096)
/-- Data-mover channels: global, and local to a function (R341). -/
def chanOk (g : Nat) : Bool := decide (g < 256)
def localOk (l : Nat) : Bool := decide (l < 32)
/-- Buffer pools (R351). -/
def poolOk (p : Nat) : Bool := decide (p < 256)
/-- Semaphores and interrupt targets (R383, R395). -/
def semOk (n : Nat) : Bool := decide (n < 64)
def targetOk (t : Nat) : Bool := decide (t < 68)
/-- The two management processor pairs (R391). -/
def pairOk (p : Nat) : Bool := decide (p < 2)
/-- A mailbox side names an existing function (R390). -/
def sideOk (d : MbxSide) : Bool :=
  match d with
  | .vf n => decide (1 ≤ n) && decide (n < 64)
  | .pf0Vf n => decide (1 ≤ n) && decide (n < 64)
  | .pf0 => true
  | .fw => true
/-- A line address (R4). -/
def lineOk (a : Nat) : Bool := a % 64 == 0
/-- The bytes of one line (R4). -/
def lineBytesOk (bs : List Byte) : Bool := bs.length == 64
/-- A user of the data mover (R340). -/
def userOk (u : DmvUser) : Bool :=
  match u with
  | .channel g => chanOk g
  | .copy q _ => queueOk q
  | .demand h => halfOk h
/-- A DIMM organisation as an SPD can give it (R400). -/
def dimmOk (d : Dimm) : Bool := decide (d.width < 2) && decide (d.density < 8) && decide (d.ranks ≤ 4) && decide (d.rate < 16)
/-- A board: sixteen DIMM sites (R400). -/
def boardOk (b : Board) : Bool := b.dimms.length == 16 && b.dimms.all dimmOk
/-- A tile of a PF_NITINOL picture (R240). -/
def tileOk (t : TileRef) : Bool := decide (t.base < 2 ^ 48) && decide (t.chroma < 4) && decide (0 < t.width) && decide (0 < t.height)
/-- Samples of a tile: places below 256 and 12-bit values (R239). -/
def samplesOk (l : List (Nat × Nat)) : Bool := l.all fun p => decide (p.1 < 256) && decide (p.2 < 4096)
/-- A plane of 12-bit samples (R239). -/
def planeOk (p : Plane) : Bool := p.all fun r => r.all fun x => decide (x < 4096)
/-- A transaction of a requester, of patrol scrub (12) or of migration (13): 1 to 64 granules of 64 bytes in one 4 KiB page (R25, R401). -/
def txnOk (t : Txn) : Bool := decide (t.port < 14) && decide (0 < t.granules) && decide (t.addr % 64 = 0)
  && decide (t.addr % 4096 + 64 * t.granules ≤ 4096)
/-- A coded picture as a parser gives it: a CTU of 16 to 128 samples, a luma picture that is not empty. -/
def picOk (p : PicInfo) : Bool := [16, 32, 64, 128].contains p.ctuSize && decide (0 < p.width) && decide (0 < p.height)
/-- An access unit (R127). -/
def auOk (a : AuParse) : Bool := a.pics.all picOk
/-- What the datapaths of a half give in a cycle: at most 4 valid bytes of a FIFO word, one granule of tail bytes (R44, R134). -/
def issueOk (x : IssueIn) : Bool :=
  (match x.fifoWord with
    | some w => decide (w.2 ≤ 4)
    | none => true) &&
  (match x.tail with
    | some t => t.2.all fun p => decide (p.1 < 64)
    | none => true)
/-- A link mode in the fields of Table 16-8. -/
def linkOk (m : LinkMode) : Bool := decide (m.protocol < 4) && decide (1 ≤ m.speed) && decide (m.speed ≤ 6) && decide (1 ≤ m.width) && decide (m.width ≤ 16)
/-- A firmware request comes by one of the eight outbound slots (R464). -/
def fwOk (b : FwBlock) : Bool := decide (b.slot < 8)

/-- The command is well formed. -/
def Instr.wf (c : Instr) : Bool :=
  match c with
  | .wqDoorbell fn index off _ => fnOk fn && decide (index < if fn = 0 then 65536 else 2048) && decide (off < 64)
  | .entryFetch q _ es => queueOk q && decide (es.length ≤ 16)
  | .chainTmo q | .completionReservation q | .publishHead q | .modTimer q | .flushReadCompletion q => queueOk q
  | .decodeAu q _ au | .transcodeAu q _ au => queueOk q && auOk au
  | .encodePicture q _ | .convertPicture q _ | .analyzePicture q _ | .copy q _ | .flushSession q _ | .fence q _ => queueOk q
  | .evqConsWrite fn _ | .admqDb fn _ | .cfgqDb fn _ | .admqEnable fn _ | .admqDisable fn _ | .cfgqEnable fn _ => fnOk fn
  | .evqOverflowClear fn => fnOk fn
  | .createQueue fn _ | .destroyQueue fn _ | .enableQueue fn _ | .disableQueue fn _ | .resetQueue fn _ | .setQueueMod fn _
  | .createSession fn _ _ | .destroySession fn _ | .setSessionParams fn _ _ | .resetSession fn _ | .querySession fn _
  | .createPool fn _ | .destroyPool fn _ | .setClass fn _ | .queryClass fn _ | .setGateList fn _ _ | .createEventRing fn _
  | .destroyEventRing fn _ | .queryFunction fn _ => fnOk fn
  | .restructure _ _ | .restructureInForce | .spareRank _ | .retireRank _ | .queryImage _ => true
  | .scheduleDecision _ | .bucketRefill | .contextPrefetch => true
  | .unitDispatch e | .commitFlip e => entryOk e
  | .gateClaim l | .gateWindowOpen l | .gateWindowClose l | .gateListSwitch l => laneOk l
  | .preloadDone h b | .bankDrainDone h b => halfOk h && decide (b < 2)
  | .microwordIssue h x => halfOk h && issueOk x
  | .fifoTailFlush h | .waitWatchdog h | .decodeBudgetAbort h | .encodeBudgetAbort h | .demandWriteHold h => halfOk h
  | .requestArrival h _ _ | .selfTestDone h _ => halfOk h
  | .machineCheck h cause _ => halfOk h && decide (cause < 256)
  | .fenceDec c _ | .fenceEnc c _ => coreOk c
  | .unfenceDec c | .unfenceEnc c | .clockSettled c => coreOk c
  | .clockChange c mhz => coreOk c && decide (mhz < 2048)
  | .rcacheParity c _ => clusterOk c
  | .clusterPortError c => clusterOk c
  | .rcuRowRequest h _ _ => halfOk h
  | .rcuPlanRequest n _ => sessionOk n
  | .rcuRowDecision | .rcuPlanDone _ | .invarRestart => true
  | .mauUnitDone e _ prev => decide (e < 8) && planeOk prev
  | .mauParity e => decide (e < 8)
  | .pcfPassDone p _ _ _ => decide (p < 16)
  | .pcfParity p => decide (p < 16)
  | .tileWrite t l => tileOk t && samplesOk l
  | .tileRead t | .tileMerge t => tileOk t
  | .portGrant c reqs => clusterOk c && reqs.all fun r => decide (r.1 < 17) && txnOk r.2
  | .ingressGrant k reqs => chnOk k && reqs.all txnOk
  | .creditRefill k | .dramCommand k | .calibrationDue k | .calibrationDone k | .selfRefreshEntry k | .selfRefreshExit k => chnOk k
  | .backoffExpiry k p => chnOk k && decide (p < 14)
  | .writeAck k _ _ _ => chnOk k
  | .mfxWeightWrite k p _ => chnOk k && portOk p
  | .dramReadData k _ _ | .dimmThermalRead k _ | .patrolScrubRead k _ | .migrationCopy k _ _ => chnOk k
  | .refreshDue k r | .powerDownEntry k r => chnOk k && rankOk r
  | .ceWindowEnd | .rankRecordWrite => true
  | .dmvChDb fn l _ | .channelEnable fn l _ | .channelDisable fn l _ => fnOk fn && localOk l
  | .dmvChBaseWrite fn l _ => fnOk fn && localOk l
  | .descriptorRead g _ _ => chanOk g
  | .readBurstDone u _ _ => userOk u
  | .writeRequestIssue u | .dmvBufferParity u => userOk u
  | .descriptorWriteback g | .allocBackoff g | .allocWaitExpiry g => chanOk g
  | .demandRead h sp _ len => halfOk h && decide (sp < 2) && decide (64 ≤ len) && decide (len ≤ 4096)
  | .demandWrite h w _ data => halfOk h && decide (w < 16) && decide (0 < data.length) && decide (data.length ≤ 64)
  | .bpmAllocReq fn _ | .bpmFree fn _ => fnOk fn
  | .poolArbitration p | .poolCacheRefill p | .poolCacheSpill p => poolOk p
  | .sourceAssert n _ => decide (n < 448) || (decide (512 ≤ n) && decide (n < 768))
  | .imbClaim fn => fnOk fn
  | .imbComplete fn _ | .imbThreshold fn _ => fnOk fn
  | .imbLsrcB fn slot _ => fnOk fn && decide (slot < 256)
  | .msixUnmask fn v => fnOk fn && decide (v < if fn = 0 then 2048 else 64)
  | .mbxOutSlot d k w _ => sideOk d && decide (k < 8) && decide (w < 4)
  | .mbxOutDb d _ | .mbxInDb d _ => sideOk d
  | .mbxTimeout d k => sideOk d && decide (k < 32)
  | .semAcquire t n | .semRelease t n _ => targetOk t && semOk n
  | .perstAssert | .pwrgoodFall | .pwrgoodRise | .refclkLoss => true
  | .perstDeassert b | .pwrgoodSettleTime b => boardOk b
  | .railUndervoltage _ _ | .xtalLoss _ => true
  | .hotReset | .linkDown | .vfEnableClear | .pmeTurnOff | .l1Exit | .ptmRequest => true
  | .linkTrained m => linkOk m
  | .flr fn | .flrComplete fn | .d3hotEntry fn | .d0Return fn => fnOk fn
  | .vfEnableSet n => decide (n < 64)
  | .aspmL1Entry _ => true
  | .l0pReduce percent _ | .l0pRestore percent => decide (percent ≤ 100)
  | .ptmResponse _ => true
  | .hdmDecoderCommit d _ _ _ => decide (d < 4)
  | .cxlMemRead a _ => lineOk a
  | .cxlMemWrite a data _ => lineOk a && lineBytesOk data
  | .bar4Access _ _ _ _ => true
  | .bisnpResponse l d => lineOk l && (d.all lineBytesOk)
  | .hostBiasResponse l d => lineOk l && (d.all lineBytesOk)
  | .snoopReceived _ => true
  | .ideIntegrityFail k | .ideKeyProgram k => decide (k < 5)
  | .spdmRequest code _ _ => decide (code < 256)
  | .faultRecord | .firstValidClear | .aliveResume | .policyWindowEnd _ | .fclParityError => true
  | .fclPop _ => true
  | .lockstepMismatch p | .firmwareRestartDone p => pairOk p
  | .electrumLineError n => sessionOk n
  | .thermalReading temps => temps.length == 16
  | .bootComplete | .bootTimeout | .arbBurn _ => true
  | .fwInfo b | .fwEnrollOwner b | .fwFlashWrite b | .fwDebugUnlock b => fwOk b
  | .tgtRead ix => decide (ix < 256)
  | .telemetrySnapshot | .queryResultValid _ => true
  | .ctxQueryIdWrite _ | .dscClassQueryWrite _ | .qeQueryIdWrite _ | .bpmQueryIdWrite _ => true
  | .regWrite fn off _ v => offOk fn off && (v.length == 1 || v.length == 2)
  | .rcRead fn off | .pairLowRead fn off | .pairHighRead fn off => offOk fn off
  | .pairLowWrite fn off _ | .pairHighWrite fn off _ => offOk fn off
  | .unalignedRead fn off _ => offOk fn off
  | .nitinolEngineError e _ _ => decide (e < 32)

end Sys2Proof
end

