-- ==== Sys2Proof/Safety.lean ====
section
/-! DEFINITION. What counts as a safe run, in the terms the statements use. -/
namespace Sys2Proof.Machine

/-- Device memory is canonical, and the fault FIFO holds no more than its 128 records (R436; log entry 4). -/
def State.inv (s : State) : Bool := Memory.wf s.mem && decide (s.fcl.fifo.length ≤ 128)

/-- A command ends with a next state: no fault and no refusal. -/
def Answers (o : Res) : Prop := ∃ t, o = .next t

/-- Every waiting command is well formed. -/
def State.queueWf (s : State) : Bool := s.pending.all Instr.wf

/-- Exactly one fault has reached the collector: of `code`, with `cls` its class (0 = C, 1 = UC, 2 = F, 3 = U), at this DEV_TIME. -/
def Records (s t : State) (code cls : Nat) : Prop :=
  ∃ r, t.fcl.inbox = s.fcl.inbox ++ [r] ∧ r.code = code ∧ r.cls = cls ∧ r.time = BitVec.ofNat 64 s.time

/-- The test of R298 on a doorbell value. -/
def bellRule (depth head prod new : Nat) : Prop :=
  new < 2 * depth ∧ (new + 2 * depth - head) % (2 * depth) ≤ depth
    ∧ (prod + 2 * depth - head) % (2 * depth) ≤ (new + 2 * depth - head) % (2 * depth)

/-- The QE may read entries of queue `q`: its function is reachable, the queue is enabled and PROD is ahead of FETCH (R299). -/
def State.fetching (s : State) (q : Nat) : Bool :=
  s.fnLive (s.queue q).fn && !(s.func (s.queue q).fn).d3 && (s.queue q).state == .enabled && (s.queue q).readable != 0

/-- Entry `e` of opcode `op`, the one entry of its queue with sequence number `seq`, may be received now, and nothing of it has run. -/
def State.entryTakes (s : State) (q : Nat) (seq : Word) (op : Nat) (e : QEntry) : Prop :=
  s.live = true ∧ (s.queue q).entry? seq = some e ∧ (∀ f ∈ (s.queue q).entries, f.seq = seq → f = e) ∧ e.op = op
    ∧ s.turn q e = true ∧ e.code = 0 ∧ e.cause = 0 ∧ e.relPics = [] ∧ s.entryUnits q seq = []

/-- The entry is complete with this code and cause. -/
def State.entryEnds (t : State) (q : Nat) (seq : Word) (code cause : Nat) : Prop :=
  ∃ f, (t.queue q).entry? seq = some f ∧ f.stage = .done ∧ f.code = code ∧ f.cause = cause

/-- The function's admin queue, or with `cfg` the configuration queue, executes entry `x`, a well-formed command of opcode `op`. -/
def State.admTakes (s : State) (cfg : Bool) (fn op : Nat) (e x : Entry) : Prop :=
  s.admReady cfg fn = true ∧ (s.adm cfg fn).space.toNat ≤ 1 ∧ s.admEntry cfg fn e = some x ∧ admCause cfg x = 0 ∧ eOp x = op

/-- The result record of a command (R324): SEQ, TAG, CODE, CAUSE, OPCODE and RET. -/
def admRecord (a : AdmQ) (x : Entry) (code cause ret : Nat) : List Byte :=
  leBytes 128 (put 0 0 a.seq.toNat + put 4 0 (e32 x 4) + put 8 0 code + put 8 8 cause + put 8 16 (eOp x) + ret)

/-- The command is complete: its queue's head and SEQ have moved on by one, and where the queue's rings lie in host memory and the link
passes, the last two writes are its result record and the status block. -/
def admEnds (s t : State) (cfg : Bool) (fn : Nat) (x : Entry) (code cause ret : Nat) : Prop :=
  let a := s.adm cfg fn
  (t.adm cfg fn).head = (a.head + 1) % (2 * a.depth) ∧ (t.adm cfg fn).seq = a.seq + 1 ∧ (t.adm cfg fn).enable = a.enable
    ∧ (t.adm cfg fn).stopped = a.stopped
    ∧ (a.space = 0 → s.linkPasses = true → (s.func fn).flr = false →
        ∃ os bs, t.out = s.out ++ os ++ [.hostWrite fn (a.res.toNat + a.seq.toNat % a.depth * 128) (admRecord a x code cause ret) false,
          .hostWrite fn a.sb.toNat bs false])

/-- The admin commands of a function. -/
def adminCommands (fn : Nat) (e : Entry) (b : Block) : List Instr :=
  [.createQueue fn e, .destroyQueue fn e, .enableQueue fn e, .disableQueue fn e, .resetQueue fn e, .setQueueMod fn e, .createSession fn e b,
   .destroySession fn e, .setSessionParams fn e b, .resetSession fn e, .querySession fn e, .createPool fn e, .destroyPool fn e, .setClass fn e,
   .queryClass fn e, .setGateList fn e b, .createEventRing fn e, .destroyEventRing fn e, .queryFunction fn e]

/-- The configuration commands. -/
def cfgCommands (e : Entry) (b : Block) : List Instr := [.restructure e b, .spareRank e, .retireRank e, .queryImage e]

/-- Half `h` has taken a machine check of `cause` at address `a`: it holds nothing, has latched and counted the check, and is FENCED or goes
to its self-test as the policy says (R84, R439). -/
def State.checked (t s : State) (h cause : Nat) (a : BitVec 13) : Prop :=
  (t.half h).unit = none ∧ (t.half h).bank0 = .empty ∧ (t.half h).bank1 = .empty ∧ (t.half h).waiting = false
    ∧ (t.half h).cause = cause ∧ (t.half h).mchkCause = cause ∧ (t.half h).mchkAddr = a
    ∧ (t.half h).mchkCount = min 255 ((s.half h).mchkCount + 1) ∧ (t.half h).mchkWindow = (s.half h).mchkWindow + 1
    ∧ (t.half h).fstate = (if s.policy.autoUnfence && decide ((s.half h).mchkWindow + 1 < s.policy.mchkLimit) then .testing else .fenced)

/-- Firmware has taken the request in PF0's outbound slot `b.slot` and answered it with `resp` (R464): the bit is consumed, the inbound bit
is set with TYPE | 0x8000 in the slot, and the response goes to the block where PF0 may write. -/
def fwAnswers (s t : State) (b : FwBlock) (resp : List Byte) : Prop :=
  (t.mbx 0).out = (s.mbx 0).out &&& ~~~ BitVec.twoPow 32 b.slot ∧ (t.mbx 128).out = (s.mbx 128).out ||| BitVec.twoPow 32 b.slot
    ∧ fld (tblGet 0 (t.mbx 128).slots (4 * b.slot + 2)).toNat 0 16 = (fld (s.reqWord b.slot 2) 0 16 ||| 0x8000)
    ∧ ((s.func 0).d3 = false → (s.func 0).flr = false → s.linkPasses = true →
        ∃ os, t.out = s.out ++ [.hostWrite 0 (s.reqAddr b.slot) resp false] ++ os)

/-- The device has begun to boot with this board: its straps sampled, DEV_TIME at 0, ALIVE toggling, PF0 there and not ready; what R436 and
R453 keep is kept, and an image is in force only if the population, every channel and the locked tables permit it (Table 20-3, R462). -/
def booted (s t : State) (b : Board) : Prop :=
  t.pins.perst = false ∧ t.pins.alive = true ∧ t.boot.mode = b.straps ∧ t.time = 0 ∧ (t.func 0).isThere = true ∧ (t.func 0).ready = false
    ∧ t.fcl.inSafe = false ∧ t.fcl.fifo = s.fcl.fifo ∧ t.fcl.first = s.fcl.first ∧ t.fcl.safe = s.fcl.safe
    ∧ t.boot.protLock = s.boot.protLock ∧ t.boot.regions = s.boot.regions ∧ t.boot.fuses = s.boot.fuses
    ∧ t.mem.cells = s.mem.cells ∧ t.queues = [] ∧ t.sessions = [] ∧ t.pending = s.pending
    ∧ (∀ i, t.boot.image = some i → populationOk b.dimms = true ∧ (∀ d ∈ b.dimms, d.trains = true) ∧ s.rebuilds i = true ∧ t.boot.reason = 0)
    ∧ (b.straps.toNat ∈ [2, 3, 4, 5, 6] → t.boot.image = none ∧ t.boot.reason = 0x14)

end Sys2Proof.Machine
end

