-- ==== Sys2Proof/Certificates/Slice0/Obligations.lean ====
section
/-! DEFINITION. The statements for the provers. Each names the rules it formalises; where a statement says which parts of the state may
differ, it does so by an equation: every other part is as before. -/

open Sys2Proof Sys2Proof.Machine

/-- The command at the front of the queue runs, on the state with the queue's rest (the model's interface; log entry 1). -/
def Obligations.StepRunsFrontCommand : Prop :=
  ∀ (c : Instr) (rest : List Instr) (s : State), s.pending = c :: rest → step s = exec c (s.withPending rest)

/-- On an empty queue one nanosecond passes: DEV_TIME moves by 1 ns and the slew step while the device runs, and nothing else does (the
model's choice, log entries 1 and 37). -/
def Obligations.EmptyQueueLetsTimePass : Prop :=
  ∀ (s : State), s.pending = [] → ∃ t, step s = .next t ∧ t = { s with time := t.time, aon := t.aon }
    ∧ (s.running = false → t.time = s.time) ∧ (s.running = true → t.time = s.time + s.slewStep)
    ∧ t.aon = (if s.pins.pwrgood then s.aon + 1 else s.aon)

/-- The state after reset: no image in force, PROT_LOCK 0, an empty fault FIFO, FCL_SAFE 0, PF0 not ready, DEV_TIME 0, ALIVE low, PWRGOOD
low, the link down, and the reset values of CTX_CTRL, the core clocks, DSC_CTRL, QE_CTRL's CHAIN_TMO, HLU_CTRL and HINT_GATE. That
device memory reads 0 is the model's choice (log entry 4). -/
def Obligations.ResetState : Prop :=
  State.reset.pending = [] ∧ State.reset.boot.image = none ∧ State.reset.boot.protLock = false ∧ State.reset.fcl.fifo = []
  ∧ State.reset.fcl.safe = 0 ∧ (State.reset.func 0).ready = false ∧ State.reset.time = 0 ∧ State.reset.pins.alive = false
  ∧ State.reset.pins.pwrgood = false ∧ State.reset.hlu.lstate = 6 ∧ State.reset.hlu.up = false
  ∧ State.reset.ctx.ctrl = 0x140#32 ∧ (∀ n, (State.reset.core n).mhz = 1500) ∧ State.reset.dsc.ctrl = 0x14320003#32
  ∧ State.reset.qe.chainTmo = 10 ∧ State.reset.hlu.ctrl = 0x200A1903#32 ∧ State.reset.mem.hintGate = 256
  ∧ (∀ a, State.reset.byteAt a = 0)

/-- The invariant holds after reset. -/
def Obligations.ResetKeepsInvariant : Prop :=
  State.reset.inv = true

/-- Whatever the command, a step keeps device memory canonical and the fault FIFO within 128 records (R436). -/
def Obligations.EveryStepKeepsInvariant : Prop :=
  ∀ (s t : State), s.inv = true → step s = .next t → t.inv = true

/-- No command touches the queue of waiting commands. -/
def Obligations.CommandsLeaveQueue : Prop :=
  ∀ (c : Instr) (s t : State), exec c s = .next t → t.pending = s.pending

/-- R382, Table 17-1: an assertion of an edge source, and a rising edge of a level source, set the pending bit and add 1 to the count, which
stops at 255; a source that exists for no function is never pending. -/
def Obligations.SourceAssertion : Prop :=
  (∀ (n k : Nat) (s : State), s.up = true → sourceOk n = true → isLevelSource n = false → s.sourceTarget n = some k →
    ∃ t, exec (.sourceAssert n true) s = .next t ∧ (t.src n).pending = true ∧ (t.src n).count = min 255 ((s.src n).count + 1)
      ∧ (∀ m, m ≠ n → t.src m = s.src m)
      ∧ t = { s with funcs := t.funcs, hlu := t.hlu, imb := t.imb, out := t.out }) ∧
  (∀ (n k : Nat) (l : Bool) (s : State), s.up = true → isLevelSource n = true → s.sourceTarget n = some k →
    ∃ t, exec (.sourceAssert n l) s = .next t ∧ (t.src n).level = s.mbxInLevel (n % 64)
      ∧ (t.src n).pending = ((s.src n).pending || (s.mbxInLevel (n % 64) && !(s.src n).level))
      ∧ (t.src n).count = (if s.mbxInLevel (n % 64) && !(s.src n).level then min 255 ((s.src n).count + 1) else (s.src n).count)
      ∧ (∀ m, m ≠ n → t.src m = s.src m)
      ∧ t = { s with funcs := t.funcs, hlu := t.hlu, imb := t.imb, out := t.out }) ∧
  (∀ (n : Nat) (s : State), s.up = true → sourceOk n = true → isLevelSource n = false → s.sourceTarget n = none →
    exec (.sourceAssert n true) s = .next s)

/-- A read of IMB_CLAIM takes the deliverable source of highest PRIO, the lower slot among equals; with none it changes nothing. THRESHOLD,
PRIO and VECTOR take the value written, a VECTOR out of range is discarded whole and recorded, and a mask bit that clears sends one
message where messages were masked. -/
def Obligations.ClaimTakesHighest : Prop :=
  (∀ (fn slot n : Nat) (s : State), s.claimed fn = some (slot, n) →
    (s.slots fn)[slot]? = some n ∧ s.deliverable n = true ∧
    ∀ k m, (s.slots fn)[k]? = some m → s.deliverable m = true → s.prioOf m ≤ s.prioOf n ∧ (s.prioOf m = s.prioOf n → slot ≤ k)) ∧
  (∀ (fn slot n : Nat) (s : State), s.fnLive fn = true → s.claimed fn = some (slot, n) →
    ∃ t, exec (.imbClaim fn) s = .next t ∧ t.rdata = BitVec.ofNat 64 (s.claimWord slot n)
      ∧ (t.target fn).active = s.prioOf n ∧ (t.target fn).stack = ((s.target fn).active, slot) :: (s.target fn).stack
      ∧ (t.target fn).threshold = (s.target fn).threshold
      ∧ (isLevelSource n = false → (t.src n).pending = false ∧ (t.src n).count = 0)
      ∧ (isLevelSource n = true → (t.src n).pending = (s.src n).pending ∧ (t.src n).count = (s.src n).count)
      ∧ (∀ m, m ≠ n → (t.src m).pending = (s.src m).pending ∧ (t.src m).count = (s.src m).count)
      ∧ t = { s with funcs := t.funcs, hlu := t.hlu, imb := t.imb, out := t.out, rdata := t.rdata }) ∧
  (∀ (fn : Nat) (s : State), s.fnLive fn = true → s.claimed fn = none → exec (.imbClaim fn) s = .next (s.withRdata 0)) ∧
  (∀ (fn : Nat) (v : Word) (s : State), s.fnLive fn = true →
    ∃ t, exec (.imbThreshold fn v) s = .next t ∧ (t.target fn).threshold = fld v.toNat 0 4
      ∧ (t.target fn).active = (s.target fn).active ∧ (t.target fn).stack = (s.target fn).stack
      ∧ t = { s with funcs := t.funcs, hlu := t.hlu, imb := t.imb, out := t.out }) ∧
  (∀ (fn slot n : Nat) (v : Word) (s : State), s.fnLive fn = true → (s.slots fn)[slot]? = some n →
    fld v.toNat 0 11 < (s.fnRec fn).vectors →
    ∃ t, exec (.imbLsrcB fn slot v) s = .next t ∧ t.prioOf n = fld v.toNat 16 4 ∧ t.vectorOf n = fld v.toNat 0 11
      ∧ t = { s with funcs := t.funcs, hlu := t.hlu, imb := t.imb, out := t.out, dmv := t.dmv }) ∧
  (∀ (fn slot n : Nat) (v : Word) (s : State), s.fnLive fn = true → (s.slots fn)[slot]? = some n →
    (s.fnRec fn).vectors ≤ fld v.toNat 0 11 →
    ∃ t, exec (.imbLsrcB fn slot v) s = .next t ∧ (∃ r, t.fcl.inbox = s.fcl.inbox ++ [r] ∧ r.cls = 3 ∧ r.code = 0x20)
      ∧ t = { s with fcl := t.fcl }) ∧
  (∀ (fn v : Nat) (s : State), s.up = true → (s.func fn).isThere = true → (s.func fn).flr = false → (s.func fn).d3 = false →
    s.linkPasses = true → v < (if fn = 0 then 2048 else 64) →
    ∃ t, exec (.msixUnmask fn v) s = .next t ∧ t.unmasked fn v = true
      ∧ ((tblGet [] s.imb.pba fn).contains v = true → t.out = s.out ++ [.msix fn v] ∧ t.imb.messages = sat64 s.imb.messages 1)
      ∧ ((tblGet [] s.imb.pba fn).contains v = false → t.out = s.out)
      ∧ (tblGet [] t.imb.pba fn).contains v = false
      ∧ t = { s with hlu := t.hlu, imb := t.imb, out := t.out })

/-- R385: a completion of the latest claim pops ACTIVE_LEVEL and settles a level source; any other is discarded, counted and recorded. -/
def Obligations.CompletePopsLevel : Prop :=
  (∀ (fn lvl slot : Nat) (rest : List (Nat × Nat)) (v : Word) (s : State), s.fnLive fn = true →
    (s.target fn).stack = (lvl, slot) :: rest → fld v.toNat 0 8 = slot →
    ∃ t, exec (.imbComplete fn v) s = .next t ∧ (t.target fn).active = lvl ∧ (t.target fn).stack = rest
      ∧ (∀ n, (s.slots fn)[slot]? = some n → isLevelSource n = true →
          (t.src n).pending = (s.src n).level ∧ (t.src n).count = if (s.src n).level then 1 else 0)
      ∧ t = { s with funcs := t.funcs, hlu := t.hlu, imb := t.imb, out := t.out }) ∧
  (∀ (fn : Nat) (v : Word) (s : State), s.fnLive fn = true →
    (∀ p, (s.target fn).stack.head? = some p → p.2 ≠ fld v.toNat 0 8) →
    ∃ t, exec (.imbComplete fn v) s = .next t ∧ t.imb = { s.imb with claimErr := sat32 s.imb.claimErr 1 }
      ∧ (∃ r, t.fcl.inbox = s.fcl.inbox ++ [r] ∧ r.cls = 3)
      ∧ t = { s with imb := t.imb, fcl := t.fcl })

/-- A slot takes a word while its bit is clear, and SLOT_BUSY is set otherwise; a doorbell write sets bits and stamps the sender's
generation in byte 11 of the slot; consumption clears the bits; a timeout sets the bit's flag and keeps the message. -/
def Obligations.MailboxMessages : Prop :=
  (∀ (d : MbxSide) (k w : Nat) (v : Word) (s : State), s.mbxOpen d = true → k < 8 → w < 4 → (s.mbx (mbxKey d)).out.getLsbD k = false →
    ∃ t, exec (.mbxOutSlot d k w v) s = .next t ∧ tblGet 0 (t.mbx (mbxKey d)).slots (4 * k + w) = v
      ∧ (∀ j, j ≠ 4 * k + w → tblGet 0 (t.mbx (mbxKey d)).slots j = tblGet 0 (s.mbx (mbxKey d)).slots j)
      ∧ (t.mbx (mbxKey d)).out = (s.mbx (mbxKey d)).out ∧ t = { s with imb := t.imb }) ∧
  (∀ (d : MbxSide) (k w : Nat) (v : Word) (s : State), s.mbxOpen d = true → k < 8 → w < 4 → (s.mbx (mbxKey d)).out.getLsbD k = true →
    ∃ t, exec (.mbxOutSlot d k w v) s = .next t ∧ (t.mbx (mbxKey d)).slotBusy = true
      ∧ (t.mbx (mbxKey d)).slots = (s.mbx (mbxKey d)).slots ∧ t = { s with imb := t.imb }) ∧
  (∀ (d : MbxSide) (v : Word) (s : State), s.mbxOpen d = true → s.peerThere d = true →
    ∃ t, exec (.mbxOutDb d v) s = .next t ∧ (t.mbx (mbxKey d)).out = (s.mbx (mbxKey d)).out ||| v
      ∧ (∀ k, k < 8 → v.getLsbD k = true → (s.mbx (mbxKey d)).out.getLsbD k = false →
          fld (tblGet 0 (t.mbx (mbxKey d)).slots (4 * k + 2)).toNat 24 8 = (s.mbx (mbxKey d)).gen % 256)
      ∧ t = { s with funcs := t.funcs, hlu := t.hlu, imb := t.imb, out := t.out }) ∧
  (∀ (d : MbxSide) (v : Word) (s : State), s.mbxOpen d = true → s.peerThere d = false → exec (.mbxOutDb d v) s = .next s) ∧
  (∀ (d : MbxSide) (v : Word) (s : State), s.mbxOpen d = true →
    ∃ t, exec (.mbxInDb d v) s = .next t ∧ t.mbxIn d = s.mbxIn d &&& ~~~ v
      ∧ t = { s with funcs := t.funcs, hlu := t.hlu, imb := t.imb, out := t.out }) ∧
  (∀ (d : MbxSide) (k : Nat) (s : State), s.up = true → mbxValid d = true → s.mbxTimed d k = true →
    ∃ t, exec (.mbxTimeout d k) s = .next t ∧ (t.mbx (mbxKey d)).tmoFlags = (s.mbx (mbxKey d)).tmoFlags ||| BitVec.twoPow 32 k
      ∧ (t.mbx (mbxKey d)).out = (s.mbx (mbxKey d)).out ∧ (t.mbx (mbxKey d)).slots = (s.mbx (mbxKey d)).slots
      ∧ t.imb.mbxTimeouts = sat32 s.imb.mbxTimeouts 1
      ∧ t = { s with time := t.time, aon := t.aon, funcs := t.funcs, hlu := t.hlu, imb := t.imb, out := t.out })

/-- A read acquires a free semaphore that the image permits and shows who holds a taken one; the holder's write of 1 frees it; a requester
without the permission reads 0, and it, or a write of 1 by one that does not hold it, is recorded as a class U fault. -/
def Obligations.SemaphoreOwnership : Prop :=
  (∀ (r n : Nat) (s : State), s.semOpen r = true → n < 64 → s.semPermitted r n = true → (s.sem n).holder = none →
    ∃ t, exec (.semAcquire r n) s = .next t ∧ (t.sem n).holder = some r ∧ (t.sem n).abandoned = false
      ∧ t.rdata = BitVec.ofNat 64 (2 ^ 31 + b2n (s.sem n).abandoned * 2 ^ 30 + r)
      ∧ (∀ m, m ≠ n → t.sem m = s.sem m) ∧ t = { s with imb := t.imb, rdata := t.rdata }) ∧
  (∀ (r n h : Nat) (s : State), s.semOpen r = true → n < 64 → s.semPermitted r n = true → (s.sem n).holder = some h →
    exec (.semAcquire r n) s = .next (s.withRdata (BitVec.ofNat 64 (b2n (h == r) * 2 ^ 31 + b2n (s.sem n).abandoned * 2 ^ 30 + h)))) ∧
  (∀ (r n : Nat) (s : State), s.semOpen r = true → n < 64 → s.semPermitted r n = false →
    ∃ t, exec (.semAcquire r n) s = .next t ∧ t.rdata = 0 ∧ (∃ x, t.fcl.inbox = s.fcl.inbox ++ [x] ∧ x.cls = 3)
      ∧ t = { s with fcl := t.fcl, rdata := t.rdata }) ∧
  (∀ (r n : Nat) (v : Word) (s : State), s.semOpen r = true → n < 64 → s.semPermitted r n = true → (s.sem n).holder = some r →
    v.getLsbD 0 = true →
    ∃ t, exec (.semRelease r n v) s = .next t ∧ (t.sem n).holder = none ∧ (t.sem n).abandoned = (s.sem n).abandoned
      ∧ (∀ m, m ≠ n → t.sem m = s.sem m) ∧ t = { s with imb := t.imb }) ∧
  (∀ (r n : Nat) (v : Word) (s : State), s.semOpen r = true → n < 64 → (s.sem n).holder ≠ some r → v.getLsbD 0 = true →
    ∃ t, exec (.semRelease r n v) s = .next t ∧ (∃ x, t.fcl.inbox = s.fcl.inbox ++ [x] ∧ x.cls = 3) ∧ t = { s with fcl := t.fcl })

/-- R297, R298: a doorbell write at offset 0 of a stride that maps a queue of the function is tested against HEAD and PROD. A valid one sets
PROD; an invalid one puts the enabled queue in ERROR with cause DOORBELL; on another queue it is discarded and counted; at another
offset it is discarded, and at a stride that maps no queue of the function it is also recorded as a class U fault. -/
def Obligations.WorkQueueDoorbell : Prop :=
  (∀ (fn index q : Nat) (v : Word) (s : State), s.fnLive fn = true → s.bellQueue fn index = some q → (s.queue q).fn = fn →
    (s.queue q).state = .enabled → bellRule (s.queue q).depth (s.queue q).head (s.queue q).prod (v.toNat % 2 ^ 17) →
    ∃ t, exec (.wqDoorbell fn index 0 v) s = .next t ∧ (t.queue q).prod = v.toNat % 2 ^ 17 ∧ (t.queue q).head = (s.queue q).head
      ∧ (t.queue q).fetch = (s.queue q).fetch ∧ (t.queue q).state = .enabled
      ∧ (∀ p, p ≠ q → t.queue p = s.queue p) ∧ t = { s with queues := t.queues }) ∧
  (∀ (fn index q : Nat) (v : Word) (s : State), s.fnLive fn = true → s.bellQueue fn index = some q → (s.queue q).fn = fn →
    (s.queue q).state = .enabled → ¬ bellRule (s.queue q).depth (s.queue q).head (s.queue q).prod (v.toNat % 2 ^ 17) →
    ∃ t, exec (.wqDoorbell fn index 0 v) s = .next t ∧ (t.queue q).state = .error ∧ (t.queue q).errCause = 0x09
      ∧ (t.queue q).errIndex = v.toNat % 2 ^ 17 ∧ (t.queue q).prod = (s.queue q).prod ∧ (∀ p, p ≠ q → t.queue p = s.queue p)
      ∧ Records s t 0x21 3
      ∧ t = { s with clusters := t.clusters, evq := t.evq, fcl := t.fcl, funcs := t.funcs, hlu := t.hlu, imb := t.imb, mem := t.mem,
                     out := t.out, qe := t.qe, queues := t.queues }) ∧
  (∀ (fn index q : Nat) (v : Word) (s : State), s.fnLive fn = true → s.bellQueue fn index = some q → (s.queue q).fn = fn →
    (s.queue q).state ≠ .enabled → (s.queue q).state ≠ .free →
    exec (.wqDoorbell fn index 0 v) s = .next { s with qe := { s.qe with dropped := sat32 s.qe.dropped 1 } }) ∧
  (∀ (fn index : Nat) (v : Word) (s : State), s.fnLive fn = true →
    (∀ q, s.bellQueue fn index = some q → (s.queue q).state = .free ∨ (s.queue q).fn ≠ fn) →
    ∃ t, exec (.wqDoorbell fn index 0 v) s = .next t ∧ Records s t 0x20 3 ∧ t = { s with fcl := t.fcl }) ∧
  (∀ (fn index off : Nat) (v : Word) (s : State), off ≠ 0 → exec (.wqDoorbell fn index off v) s = .next s)

/-- The same test of an admin or configuration doorbell. An invalid one stops the function's admin path, or puts the device into the safe
state with cause CONFIG_HALT (2); while the queue is not enabled or is stopped the write is counted as dropped. ADMQ_CTRL and CFGQ_CTRL.
Enabling a queue takes SPACE and DEPTH (4 to 12) and starts its indices and sequence numbers at 0; clearing ENABLE disables it; a
stopped queue keeps ENABLE; SPACE and DEPTH stand while the queue is enabled. -/
def Obligations.AdminDoorbells : Prop :=
  (∀ (fn : Nat) (v : Word) (s : State), s.fnLive fn = true → (s.admQ fn).enable = true → (s.admQ fn).stopped = false →
    bellRule (s.admQ fn).depth (s.admQ fn).head (s.admQ fn).prod (v.toNat % 2 ^ 17) →
    ∃ t, exec (.admqDb fn v) s = .next t ∧ t.admQ fn = { s.admQ fn with prod := v.toNat % 2 ^ 17 }
      ∧ (∀ f, f ≠ fn → t.admQ f = s.admQ f) ∧ t = { s with admq := t.admq }) ∧
  (∀ (fn : Nat) (v : Word) (s : State), s.fnLive fn = true → (s.admQ fn).enable = true → (s.admQ fn).stopped = false →
    ¬ bellRule (s.admQ fn).depth (s.admQ fn).head (s.admQ fn).prod (v.toNat % 2 ^ 17) →
    ∃ t, exec (.admqDb fn v) s = .next t
      ∧ t.admQ fn = { s.admQ fn with stopped := true, errCause := 0x09, errIndex := v.toNat % 2 ^ 17 }
      ∧ (∀ f, f ≠ fn → t.admQ f = s.admQ f) ∧ t.queues = s.queues ∧ t.sessions = s.sessions ∧ Records s t 0x21 3
      ∧ t.qe.malformed = sat32 s.qe.malformed 1) ∧
  (∀ (fn : Nat) (v : Word) (s : State), s.fnLive fn = true → (s.admQ fn).enable = false ∨ (s.admQ fn).stopped = true →
    exec (.admqDb fn v) s = .next { s with qe := { s.qe with dropped := sat32 s.qe.dropped 1 } }) ∧
  (∀ (v : Word) (s : State), s.fnLive 0 = true → s.cfgq.enable = true → s.cfgq.stopped = false →
    bellRule s.cfgq.depth s.cfgq.head s.cfgq.prod (v.toNat % 2 ^ 17) →
    exec (.cfgqDb 0 v) s = .next { s with cfgq := { s.cfgq with prod := v.toNat % 2 ^ 17 } }) ∧
  (∀ (v : Word) (s : State), s.fnLive 0 = true → s.cfgq.enable = true → s.cfgq.stopped = false →
    ¬ bellRule s.cfgq.depth s.cfgq.head s.cfgq.prod (v.toNat % 2 ^ 17) →
    ∃ t, exec (.cfgqDb 0 v) s = .next t ∧ t.fcl.inSafe = true ∧ t.fcl.safe = 2 ∧ t.queues = s.queues ∧ t.sessions = s.sessions) ∧
  (∀ (v : Word) (s : State), s.fnLive 0 = true → s.cfgq.enable = false ∨ s.cfgq.stopped = true →
    exec (.cfgqDb 0 v) s = .next { s with qe := { s.qe with dropped := sat32 s.qe.dropped 1 } }) ∧
  (∀ (fn : Nat) (v : Word) (s : State), s.fnLive fn = true → v.getLsbD 31 = true → (s.admQ fn).enable = false → (s.admQ fn).stopped = false →
    ∃ t, exec (.admqEnable fn v) s = .next t ∧ t.admQ fn = { s.admQ fn with
        enable := true, prod := 0, head := 0, seq := 0, space := BitVec.ofNat 8 (v.toNat / 256), depthLog := clampNat 4 12 (v.toNat % 32) }
      ∧ (∀ f, f ≠ fn → t.admQ f = s.admQ f) ∧ t = { s with admq := t.admq }) ∧
  (∀ (fn : Nat) (v : Word) (s : State), s.fnLive fn = true → v.getLsbD 31 = true → (s.admQ fn).enable = true →
    ∃ t, exec (.admqEnable fn v) s = .next t ∧ t.admQ fn = s.admQ fn ∧ t = { s with admq := t.admq }) ∧
  (∀ (fn : Nat) (v : Word) (s : State), s.fnLive fn = true → v.getLsbD 31 = false → (s.admQ fn).enable = true → (s.admQ fn).stopped = false →
    ∃ t, exec (.admqDisable fn v) s = .next t ∧ t.admQ fn = { s.admQ fn with enable := false }
      ∧ (∀ f, f ≠ fn → t.admQ f = s.admQ f) ∧ t = { s with admq := t.admq }) ∧
  (∀ (fn : Nat) (v : Word) (s : State), s.fnLive fn = true → (s.admQ fn).enable = true → (s.admQ fn).stopped = true →
    ∃ t, exec (.admqDisable fn v) s = .next t ∧ t.admQ fn = s.admQ fn ∧ t = { s with admq := t.admq }) ∧
  (∀ (v : Word) (s : State), s.fnLive 0 = true → v.getLsbD 31 = true → s.cfgq.enable = false → s.cfgq.stopped = false →
    exec (.cfgqEnable 0 v) s = .next { s with cfgq := { s.cfgq with
        enable := true, prod := 0, head := 0, seq := 0, space := BitVec.ofNat 8 (v.toNat / 256), depthLog := clampNat 4 12 (v.toNat % 32) } })

/-- A fetch reads no more than 16 entries and none at or past PROD; a well-formed entry joins the queue's entries with its position's
sequence number and FETCH moves on; a malformed one, or a read that failed, puts the queue in ERROR at the entry's index. -/
def Obligations.EntryFetching : Prop :=
  (∀ (q : Nat) (es : List FetchedEntry) (s : State), s.fetching q = true →
    exec (.entryFetch q true es) s = exec (.entryFetch q true (es.take (s.queue q).readable)) s ∧ (s.queue q).readable ≤ 16) ∧
  (∀ (q : Nat) (x : FetchedEntry) (s : State), s.fetching q = true → (s.queue q).wqSpace = 0 →
    s.entryCause (s.queue q) x.raw (s.blocksFor (s.queue q).fn x.raw x) = 0 → eOp x.raw ≠ 3 → eOp x.raw ≠ 7 →
    ∃ t, exec (.entryFetch q true [x]) s = .next t ∧ (t.queue q).fetch = ((s.queue q).fetch + 1) % (2 * (s.queue q).depth)
      ∧ (∃ e, (t.queue q).entries = (s.queue q).entries ++ [e] ∧ e.ix = (s.queue q).fetch
          ∧ e.seq = (s.queue q).seqOf (s.queue q).fetch ∧ e.raw = x.raw)
      ∧ (t.queue q).chainOpen = !x.raw.getLsbD 9 ∧ (t.queue q).state = .enabled ∧ (∀ p, p ≠ q → t.queue p = s.queue p)
      ∧ t.qe = { s.qe with fetched := sat64 s.qe.fetched 1 } ∧ t = { s with qe := t.qe, queues := t.queues }) ∧
  (∀ (q : Nat) (x : FetchedEntry) (s : State), s.fetching q = true → (s.queue q).wqSpace = 0 →
    s.entryCause (s.queue q) x.raw (s.blocksFor (s.queue q).fn x.raw x) = 0 → eOp x.raw = 3 →
    ∃ t, exec (.entryFetch q true [x]) s = .next t ∧ (t.queue q).fetch = ((s.queue q).fetch + 1) % (2 * (s.queue q).depth)
      ∧ (t.sess (eSess x.raw)).ladder = some (rendsOf ((s.blocksFor (s.queue q).fn x.raw x).getD []))
      ∧ t = { s with qe := t.qe, queues := t.queues, sessions := t.sessions }) ∧
  (∀ (q : Nat) (x : FetchedEntry) (s : State), s.fetching q = true → (s.queue q).wqSpace = 0 →
    s.entryCause (s.queue q) x.raw (s.blocksFor (s.queue q).fn x.raw x) = 0 →
    ∃ t, exec (.entryFetch q true [x]) s = .next t ∧ t.qe.fetched = sat64 s.qe.fetched 1) ∧
  (∀ (q : Nat) (x : FetchedEntry) (xs : List FetchedEntry) (s : State), s.fetching q = true → (s.queue q).wqSpace = 0 →
    s.entryCause (s.queue q) x.raw (s.blocksFor (s.queue q).fn x.raw x) ≠ 0 →
    ∃ t, exec (.entryFetch q true (x :: xs)) s = .next t ∧ (t.queue q).state = .error
      ∧ (t.queue q).errCause = s.entryCause (s.queue q) x.raw (s.blocksFor (s.queue q).fn x.raw x)
      ∧ (t.queue q).errIndex = (s.queue q).fetch ∧ (t.queue q).fetch = (s.queue q).fetch
      ∧ (∀ p, p ≠ q → t.queue p = s.queue p) ∧ Records s t 0x21 3) ∧
  (∀ (q : Nat) (es : List FetchedEntry) (s : State), s.fetching q = true →
    ∃ t, exec (.entryFetch q false es) s = .next t ∧ (t.queue q).state = .error ∧ (t.queue q).errCause = 0x0D
      ∧ (t.queue q).errIndex = (s.queue q).fetch ∧ (∀ p, p ≠ q → t.queue p = s.queue p) ∧ Records s t 0x21 3)

/-- A chain's end of patience puts the queue in ERROR with cause CHAIN_TMO at the chain's first entry, and discards what was fetched of it;
a chain whose windows are granted is reserved whole once the queue has enough free slots; an entry of it whose windows are not granted
has then ended with PROTECTION, cause 0x23; a chain waits, counted once, while the queue has not enough. Once a DECODE_AU,
CONVERT_PICTURE, COPY, FLUSH_SESSION or FENCE ends at its turn with a code of 0x10 or above, every later entry of its chain is completed
with ABORTED, cause 0x40. -/
def Obligations.ChainRules : Prop :=
  (∀ (q t0 : Nat) (s : State), s.live = true → s.chainEnd q = some t0 →
    ∃ t, exec (.chainTmo q) s = .next t ∧ (t.queue q).state = .error ∧ (t.queue q).errCause = 0x07
      ∧ (t.queue q).errIndex = (s.queue q).chainFirst ∧ (t.queue q).chainOpen = false
      ∧ (t.queue q).entries = (s.queue q).entries.filter (fun e => e.chain != (s.queue q).chainNo)
      ∧ t.time = max s.time t0 ∧ (∀ p, p ≠ q → t.queue p = s.queue p)
      ∧ t = { s with aon := t.aon, clusters := t.clusters, evq := t.evq, fcl := t.fcl, funcs := t.funcs, hlu := t.hlu, imb := t.imb,
                     mem := t.mem, out := t.out, qe := t.qe, queues := t.queues, time := t.time }) ∧
  (∀ (q c : Nat) (s : State), s.live = true → (s.queue q).state ≠ .free → (s.queue q).waitingChain = some c →
    ((s.queue q).entries.filter fun e => e.chain == c).length ≤ (s.queue q).resvFree →
    (∀ e ∈ (s.queue q).entries, e.chain = c → e.rends = [] ∧ s.badWindow (s.queue q).fn (s.asksOf e) = none) →
    ∃ t, exec (.completionReservation q) s = .next t
      ∧ (t.queue q).resvFree + ((s.queue q).entries.filter fun e => e.chain == c).length = (s.queue q).resvFree
      ∧ (t.queue q).entries = (s.queue q).entries.map (fun e => if e.chain = c then { e with stage := .reserved } else e)
      ∧ (∀ p, p ≠ q → t.queue p = s.queue p) ∧ t = { s with queues := t.queues }) ∧
  (∀ (q w : Nat) (e : QEntry) (s : State), s.live = true → (s.queue q).state ≠ .free → (s.queue q).entries = [e] → e.stage = .fetched →
    (s.queue q).chainOpen = false → 1 ≤ (s.queue q).resvFree → s.checksWindows e = true →
    s.badWindow (s.queue q).fn (s.asksOf e) = some w → e.code = 0 → e.cause = 0 → e.relPics = [] → s.entryUnits q e.seq = [] →
    ∃ t, exec (.completionReservation q) s = .next t ∧ t.entryEnds q e.seq 0x11 0x23
      ∧ (t.queue q).resvFree + 1 = (s.queue q).resvFree) ∧
  (∀ (q c : Nat) (s : State), s.live = true → (s.queue q).state ≠ .free → (s.queue q).waitingChain = some c →
    (s.queue q).resvFree < ((s.queue q).entries.filter fun e => e.chain == c).length →
    ∃ t, exec (.completionReservation q) s = .next t ∧ t.queue q = { s.queue q with resvWaiting := true }
      ∧ t.dsc.resvWaits = (if (s.queue q).resvWaiting then s.dsc.resvWaits else sat32 s.dsc.resvWaits 1)
      ∧ (∀ p, p ≠ q → t.queue p = s.queue p) ∧ t = { s with queues := t.queues, dsc := t.dsc }) ∧
  (∀ (q op code cause : Nat) (seq : Word) (e f : QEntry) (au : AuParse) (c : Instr) (s : State), s.entryTakes q seq op e → 0x10 ≤ code →
    (op = 1 ∧ c = .decodeAu q seq au ∧ s.decodeStop e (s.auOf e au) = some (code, cause)) ∨
    (op = 4 ∧ c = .convertPicture q seq ∧ s.convertFails e = true ∧ code = 0x41 ∧ cause = 0x24) ∨
    (op = 6 ∧ c = .copy q seq ∧ s.copyRefused (s.queue q).fn e.raw = true ∧ s.dmv.copies.length < 16
      ∧ (s.func (s.queue q).fn).d3 = false ∧ s.laneMayHold (s.laneOf (s.queue q).cls) = true ∧ code = 0x11 ∧ cause = 0x23) ∨
    (op = 7 ∧ c = .flushSession q seq ∧ s.flushStop e = some (code, cause)) ∨
    (op = 8 ∧ c = .fence q seq ∧ s.earlierVisible q e = true ∧ e64 e.raw 16 ≠ 0
      ∧ s.windowOk (s.queue q).fn (e8 e.raw 32) (e64 e.raw 16) 8 = false ∧ code = 0x11 ∧ cause = 0x23) →
    f ∈ ((s.queue q).entries.dropWhile fun g => g.seq != seq) → f.chain = e.chain → f.seq ≠ seq → f.stage ≠ .done →
    ∃ t, exec c s = .next t ∧ t.entryEnds q seq code cause ∧ t.entryEnds q f.seq 0x40 0x40)

/-- HEAD moves over the completed entries at the front of the queue, in queue order, with HEAD_SEQ and the free reservations; entries that
wrote with Relaxed Ordering wait for a zero-length read to complete; a moderated message is sent when the timer ends. A write of the
event ring's consumer index, and the clearing of its OVERFLOW bit. -/
def Obligations.Publication : Prop :=
  (∀ (q : Nat) (s : State), s.live = true → (s.queue q).state ≠ .free → (s.queue q).state ≠ .disabled →
    (∀ e ∈ (s.queue q).entries, e.stage = .done → e.due = []) → (s.readyEntries q).takeWhile (fun e => !e.roOut) ≠ [] →
    ∃ t, exec (.publishHead q) s = .next t
      ∧ (t.queue q).head = ((s.queue q).head + ((s.readyEntries q).takeWhile fun e => !e.roOut).length) % (2 * (s.queue q).depth)
      ∧ (t.queue q).headSeq = (s.queue q).headSeq + BitVec.ofNat 32 ((s.readyEntries q).takeWhile fun e => !e.roOut).length
      ∧ (t.queue q).resvFree = (s.queue q).resvFree + ((s.readyEntries q).takeWhile fun e => !e.roOut).length
      ∧ (t.queue q).entries = (s.queue q).entries.drop ((s.readyEntries q).takeWhile fun e => !e.roOut).length
      ∧ (t.queue q).state = (if (s.queue q).state = .stopping ∧ (t.queue q).entries = [] then .disabled else (s.queue q).state)
      ∧ (∀ p, p ≠ q → t.queue p = s.queue p)
      ∧ t = { s with clusters := t.clusters, evq := t.evq, funcs := t.funcs, hlu := t.hlu, imb := t.imb, mem := t.mem, out := t.out,
                     queues := t.queues }) ∧
  (∀ (q : Nat) (e : QEntry) (es : List QEntry) (s : State), s.live = true → (s.queue q).state = .enabled → (s.queue q).flushRead = 0 →
    (∀ f ∈ (s.queue q).entries, f.stage = .done → f.due = []) → s.readyEntries q = e :: es → e.roOut = true → (s.func (s.queue q).fn).flr = false → (s.func (s.queue q).fn).d3 = false →
    s.linkPasses = true →
    ∃ t, exec (.publishHead q) s = .next t ∧ t.queue q = { s.queue q with flushRead := es.length + 1 }
      ∧ t.out = s.out ++ [.hostRead (s.queue q).fn (s.queue q).sbAddr 0] ∧ t = { s with hlu := t.hlu, out := t.out, queues := t.queues }) ∧
  (∀ (q : Nat) (s : State), s.up = true → (s.queue q).state ≠ .free →
    ∃ t, exec (.flushReadCompletion q) s = .next t ∧ (t.queue q).flushRead = 0
      ∧ (∀ k e, (s.queue q).entries[k]? = some e →
          (t.queue q).entries[k]? = some (if k < (s.queue q).flushRead then { e with roOut := false } else e))
      ∧ (t.queue q).entries.length = (s.queue q).entries.length
      ∧ (∀ p, p ≠ q → t.queue p = s.queue p) ∧ t = { s with queues := t.queues }) ∧
  (∀ (q t0 : Nat) (s : State), s.live = true → (s.queue q).pendTimer = some t0 → (s.queue q).pend ≠ 0 →
    ∃ t, exec (.modTimer q) s = .next t ∧ t.queue q = { s.queue q with pend := 0, pendTimer := none }
      ∧ t.time = max s.time (t0 + (s.queue q).modTimer * 1000) ∧ (∀ p, p ≠ q → t.queue p = s.queue p)
      ∧ ((s.func (s.queue q).fn).flr = false → (s.func (s.queue q).fn).d3 = false → s.linkPasses = true →
          s.unmasked (s.queue q).fn (s.queue q).vector = true →
          t.out = s.out ++ [.msix (s.queue q).fn (s.queue q).vector] ∧ t.imb.messages = sat64 s.imb.messages 1)
      ∧ t = { s with aon := t.aon, funcs := t.funcs, hlu := t.hlu, imb := t.imb, out := t.out, queues := t.queues, time := t.time }) ∧
  (∀ (fn : Nat) (v : Word) (s : State), s.fnLive fn = true →
    ∃ t, exec (.evqConsWrite fn v) s = .next t ∧ t.ring fn = { s.ring fn with cons := v.toNat % 2 ^ 17 }
      ∧ (∀ f, f ≠ fn → t.ring f = s.ring f) ∧ t = { s with evq := t.evq }) ∧
  (∀ (fn : Nat) (s : State), s.fnLive fn = true →
    ∃ t, exec (.evqOverflowClear fn) s = .next t ∧ t.ring fn = { s.ring fn with overflow := false }
      ∧ (∀ f, f ≠ fn → t.ring f = s.ring f) ∧ t = { s with evq := t.evq })

/-- A DECODE_AU whose turn has come completes at once with the code and cause of the condition that stops it: the state of its session, or a
buffer that is too small; with PROTECTION, cause 0x23, where a window of it is not granted; otherwise it runs, keeps the access unit as
it was read, and its units are queued behind those that are. Before its turn it does nothing. A TRANSCODE_AU whose turn has come
completes at once with the code and cause of the condition that stops its decode; otherwise it runs, keeps the access unit as it was
read, its decode's units are queued, and a rendition that names a FREE or DRAINING session has ended. -/
def Obligations.DecodeAndTranscodeEntries : Prop :=
  (∀ (q : Nat) (seq : Word) (e : QEntry) (au : AuParse) (c k : Nat) (s : State), s.entryTakes q seq 1 e →
    s.decodeStop e (s.auOf e au) = some (c, k) →
    ∃ t, exec (.decodeAu q seq au) s = .next t ∧ t.entryEnds q seq c k ∧ (∀ p, p ≠ q → t.queue p = s.queue p)
      ∧ t = { s with clusters := t.clusters, dsc := t.dsc, funcs := t.funcs, hlu := t.hlu, mem := t.mem, out := t.out, queues := t.queues,
                     sessions := t.sessions }) ∧
  (∀ (q : Nat) (seq : Word) (e : QEntry) (au : AuParse) (w : Nat) (s : State), s.entryTakes q seq 1 e →
    s.decodeStop e (s.auOf e au) = none → s.badWindow (s.sess e.sess).fn (entryAsks (s.sess e.sess).par e.raw e.blocks) = some w →
    ∃ t, exec (.decodeAu q seq au) s = .next t ∧ t.entryEnds q seq 0x11 0x23 ∧ (∀ p, p ≠ q → t.queue p = s.queue p)
      ∧ t = { s with clusters := t.clusters, dsc := t.dsc, fcl := t.fcl, funcs := t.funcs, hlu := t.hlu, mem := t.mem, out := t.out,
                     queues := t.queues, sessions := t.sessions }) ∧
  (∀ (q : Nat) (seq : Word) (e : QEntry) (au : AuParse) (s : State), s.entryTakes q seq 1 e → s.decodeStop e (s.auOf e au) = none →
    s.badWindow (s.sess e.sess).fn (entryAsks (s.sess e.sess).par e.raw e.blocks) = none →
    ∃ t, exec (.decodeAu q seq au) s = .next t
      ∧ (∃ f, (t.queue q).entry? seq = some f ∧ f.stage = .running ∧ f.au = some (s.auOf e au))
      ∧ (∃ us, t.dsc.units = s.dsc.units ++ us ∧ us ≠ [] ∧ ∀ u ∈ us, u.q = q ∧ u.seq = seq ∧ u.session = e.sess ∧ u.stage = .queued)
      ∧ (∀ p, p ≠ q → t.queue p = s.queue p)
      ∧ t = { s with dsc := t.dsc, fcl := t.fcl, queues := t.queues, sessions := t.sessions }) ∧
  (∀ (q : Nat) (seq : Word) (e : QEntry) (au : AuParse) (s : State), s.live = false ∨ s.turn q e = false →
    (s.queue q).entry? seq = some e → exec (.decodeAu q seq au) s = .next s) ∧
  (∀ (q : Nat) (seq : Word) (e : QEntry) (au : AuParse) (c k : Nat) (s : State), s.entryTakes q seq 3 e →
    s.decodeStop e (s.auOf e au) = some (c, k) →
    ∃ t, exec (.transcodeAu q seq au) s = .next t ∧ t.entryEnds q seq c k ∧ (∀ p, p ≠ q → t.queue p = s.queue p)
      ∧ t = { s with clusters := t.clusters, dsc := t.dsc, funcs := t.funcs, hlu := t.hlu, mem := t.mem, out := t.out, queues := t.queues,
                     sessions := t.sessions }) ∧
  (∀ (q : Nat) (seq : Word) (e : QEntry) (au : AuParse) (s : State), s.entryTakes q seq 3 e → s.decodeStop e (s.auOf e au) = none →
    s.badWindow (s.sess e.sess).fn (entryAsks (s.sess e.sess).par e.raw e.blocks) = none →
    ∃ t, exec (.transcodeAu q seq au) s = .next t
      ∧ (∃ f, (t.queue q).entry? seq = some f ∧ f.stage = .running ∧ f.au = some (s.auOf e au)
          ∧ ∀ r ∈ f.rends, (s.sess r.session).state = .free ∨ (s.sess r.session).state = .draining → r.done = true)
      ∧ (∃ us, t.dsc.units = s.dsc.units ++ us ∧ us ≠ [] ∧ ∀ u ∈ us, u.q = q ∧ u.seq = seq ∧ u.session = e.sess ∧ u.stage = .queued)
      ∧ (∀ p, p ≠ q → t.queue p = s.queue p)
      ∧ t = { s with dsc := t.dsc, fcl := t.fcl, queues := t.queues, sessions := t.sessions })

/-- An ENCODE_PICTURE or ANALYZE_PICTURE whose turn has come puts its source picture among those of the session, with one MAU unit for it; a
resubmission takes the failed picture over; a session that takes no work, or a statistics buffer that is too small, ends it with the
code of that condition, and a window that is not granted with PROTECTION, cause 0x23. A CONVERT_PICTURE whose outputs differ in their
shared stages, whose buffers are too small or whose windows are not granted ends at once with 0x41, cause 0x24, with 0x11, cause 0x22,
or with 0x11, cause 0x23; any other queues one PCF unit. -/
def Obligations.PictureEntries : Prop :=
  (∀ (q : Nat) (seq : Word) (e : QEntry) (op : Nat) (c : Instr) (s : State), s.entryTakes q seq op e →
    (op = 2 ∧ c = .encodePicture q seq) ∨ (op = 5 ∧ c = .analyzePicture q seq) →
    (∀ code cause, s.sourceStop e = some (code, cause) → ∃ t, exec c s = .next t ∧ t.entryEnds q seq code cause
      ∧ t = { s with clusters := t.clusters, dsc := t.dsc, funcs := t.funcs, hlu := t.hlu, mem := t.mem, out := t.out, queues := t.queues,
                     sessions := t.sessions }) ∧
    (∀ w, s.sourceStop e = none → s.resubmitted e = false →
      s.badWindow (s.sess e.sess).fn (entryAsks (s.sess e.sess).par e.raw e.blocks) = some w →
      ∃ t, exec c s = .next t ∧ t.entryEnds q seq 0x11 0x23) ∧
    (s.sourceStop e = none → s.resubmitted e = false →
      s.badWindow (s.sess e.sess).fn (entryAsks (s.sess e.sess).par e.raw e.blocks) = none →
      ∃ t, exec c s = .next t ∧ (∃ f, (t.queue q).entry? seq = some f ∧ f.stage = .running)
        ∧ (∃ p ∈ (t.sess e.sess).src, p.entryQ = q ∧ p.entrySeq = e.seq ∧ p.index = e32 e.raw 12 ∧ p.coded = false)
        ∧ (t.sess e.sess).src.length = (s.sess e.sess).src.length + 1
        ∧ (∃ u, t.dsc.units = s.dsc.units ++ [u] ∧ u.kind = .mau ∧ u.q = q ∧ u.seq = e.seq ∧ u.pic = e32 e.raw 12)
        ∧ (∀ p, p ≠ q → t.queue p = s.queue p) ∧ (∀ m, m ≠ e.sess → (t.sess m).src = (s.sess m).src)
        ∧ t = { s with dsc := t.dsc, queues := t.queues, sessions := t.sessions }) ∧
    (s.sourceStop e = none → s.resubmitted e = true →
      s.badWindow (s.sess e.sess).fn ((entryAsks (s.sess e.sess).par e.raw e.blocks).filter fun a => a.1 != 0) = none →
      ∃ t, exec c s = .next t
        ∧ (∃ p ∈ (t.sess e.sess).src, p.entryQ = q ∧ p.entrySeq = e.seq ∧ p.index = e32 e.raw 12 ∧ p.failed = 0))) ∧
  (∀ (q : Nat) (seq : Word) (e : QEntry) (s : State), s.entryTakes q seq 4 e →
    (s.convertFails e = true → ∃ t, exec (.convertPicture q seq) s = .next t ∧ t.entryEnds q seq 0x41 0x24) ∧
    (s.convertFails e = false → convertSmall s e = true →
      ∃ t, exec (.convertPicture q seq) s = .next t ∧ t.entryEnds q seq 0x11 0x22) ∧
    (s.convertFails e = false → convertSmall s e = false → s.convertRefused (s.queue q).fn e = true →
      ∃ t, exec (.convertPicture q seq) s = .next t ∧ t.entryEnds q seq 0x11 0x23) ∧
    (s.convertFails e = false → convertSmall s e = false → s.convertRefused (s.queue q).fn e = false →
      ∃ t, exec (.convertPicture q seq) s = .next t ∧ (∃ f, (t.queue q).entry? seq = some f ∧ f.stage = .running)
        ∧ (∃ u, t.dsc.units = s.dsc.units ++ [u] ∧ u.kind = .pcf ∧ u.q = q ∧ u.seq = e.seq ∧ u.outputs = List.range e.blocks.length)
        ∧ (∀ p, p ≠ q → t.queue p = s.queue p) ∧ t = { s with dsc := t.dsc, queues := t.queues, sessions := t.sessions }))

/-- A COPY within what its function is granted is held by the Data Mover with the addresses, spaces and length of its entry; one outside
ends with PROTECTION, cause 0x23; with 16 copies held it waits. A FENCE, once what the earlier entries wrote is visible, writes VALUE to
VAL_ADDR as eight bytes before its own result and completes with code 0; VAL_ADDR 0 writes nothing. A FLUSH_SESSION ends at once where
its session or its buffers stop it; that of an encode session completes where no source picture of the session waits and no earlier
source entry is left, and runs on where a picture that it flushes waits; that of a decode session queues the unit that releases its
pictures. -/
def Obligations.CopyFenceFlushEntries : Prop :=
  (∀ (q : Nat) (seq : Word) (e : QEntry) (s : State), s.entryTakes q seq 6 e → (s.func (s.queue q).fn).d3 = false →
    s.laneMayHold (s.laneOf (s.queue q).cls) = true →
    (s.dmv.copies.length < 16 → s.copyRefused (s.queue q).fn e.raw = false →
      ∃ t, exec (.copy q seq) s = .next t ∧ (∃ f, (t.queue q).entry? seq = some f ∧ f.stage = .running ∧ f.started = true)
        ∧ (∃ c, t.dmv.copies = s.dmv.copies ++ [c] ∧ c.q = q ∧ c.src = e64 e.raw 16 ∧ c.dst = e64 e.raw 24 ∧ c.len = e32 e.raw 32
            ∧ c.srcSpace = e8 e.raw 36 ∧ c.dstSpace = e8 e.raw 37 ∧ c.rdDone = 0 ∧ c.wrDone = 0)
        ∧ t.dsc.inflight.length = s.dsc.inflight.length + 1
        ∧ (∀ p, p ≠ q → t.queue p = s.queue p) ∧ t = { s with dmv := t.dmv, dsc := t.dsc, queues := t.queues }) ∧
    (s.dmv.copies.length < 16 → s.copyRefused (s.queue q).fn e.raw = true →
      ∃ t, exec (.copy q seq) s = .next t ∧ t.entryEnds q seq 0x11 0x23 ∧ t.dmv = s.dmv) ∧
    (16 ≤ s.dmv.copies.length → exec (.copy q seq) s = .next s)) ∧
  (∀ (q : Nat) (seq : Word) (e : QEntry) (s : State), s.entryTakes q seq 8 e → s.earlierVisible q e = true →
    (e64 e.raw 16 = 0 → ∃ t, exec (.fence q seq) s = .next t ∧ t.entryEnds q seq 0 0) ∧
    (e64 e.raw 16 ≠ 0 → s.windowOk (s.queue q).fn (e8 e.raw 32) (e64 e.raw 16) 8 = true →
      ∃ t, exec (.fence q seq) s = .next t ∧ t.entryEnds q seq 0 0
        ∧ (e8 e.raw 32 = 0 → (s.func (s.queue q).fn).flr = false → (s.func (s.queue q).fn).d3 = false → s.linkPasses = true →
            ∃ os, t.out = s.out ++ .hostWrite (s.queue q).fn (e64 e.raw 16) (leBytes 8 (e64 e.raw 24)) false :: os)
        ∧ (∀ p, p ≠ q → t.queue p = s.queue p)
        ∧ t = { s with clusters := t.clusters, dsc := t.dsc, funcs := t.funcs, hlu := t.hlu, mem := t.mem, out := t.out, queues := t.queues,
                       sessions := t.sessions }) ∧
    (e64 e.raw 16 ≠ 0 → s.windowOk (s.queue q).fn (e8 e.raw 32) (e64 e.raw 16) 8 = false →
      ∃ t, exec (.fence q seq) s = .next t ∧ t.entryEnds q seq 0x11 0x23)) ∧
  (∀ (q : Nat) (seq : Word) (e : QEntry) (s : State), s.entryTakes q seq 7 e →
    (∀ code cause, s.flushStop e = some (code, cause) →
      ∃ t, exec (.flushSession q seq) s = .next t ∧ t.entryEnds q seq code cause) ∧
    (s.flushStop e = none → s.badWindow (s.sess e.sess).fn (entryAsks (s.sess e.sess).par e.raw e.blocks) = none →
      (s.sess e.sess).par.encode = true →
      (∀ p ∈ (s.sess e.sess).src, p.coded = true ∨ p.failed ≠ 0) → (∀ f ∈ s.sourceEntries e.sess, e.order ≤ f.order) →
      ∃ t, exec (.flushSession q seq) s = .next t ∧ t.entryEnds q seq 0 0
        ∧ t = { s with clusters := t.clusters, dsc := t.dsc, funcs := t.funcs, hlu := t.hlu, mem := t.mem, out := t.out, queues := t.queues,
                       sessions := t.sessions }) ∧
    (s.flushStop e = none → s.badWindow (s.sess e.sess).fn (entryAsks (s.sess e.sess).par e.raw e.blocks) = none →
      (s.sess e.sess).par.encode = true → (∃ p ∈ (s.sess e.sess).src, p.coded = false ∧ p.failed = 0 ∧ s.flushed e.sess p = true) →
      ∃ t, exec (.flushSession q seq) s = .next t ∧ (∃ f, (t.queue q).entry? seq = some f ∧ f.stage = .running)
        ∧ t = { s with queues := t.queues }) ∧
    (s.flushStop e = none → s.badWindow (s.sess e.sess).fn (entryAsks (s.sess e.sess).par e.raw e.blocks) = none →
      (s.sess e.sess).par.encode = false →
      ∃ t, exec (.flushSession q seq) s = .next t ∧ (∃ f, (t.queue q).entry? seq = some f ∧ f.stage = .running)
        ∧ (∃ u, t.dsc.units = s.dsc.units ++ [u] ∧ u.kind = .release ∧ u.q = q ∧ u.seq = e.seq ∧ u.session = e.sess)
        ∧ (∀ p, p ≠ q → t.queue p = s.queue p)
        ∧ t = { s with dsc := t.dsc, fcl := t.fcl, queues := t.queues, sessions := t.sessions }))

/-- A malformed entry stops the function's admin queue with its cause, or puts the device into the safe state; what came before stands. -/
def Obligations.MalformedAdminEntry : Prop :=
  (∀ (fn : Nat) (e x : Entry) (b : Block) (c : Instr) (s : State), s.admReady false fn = true → (s.admQ fn).space.toNat ≤ 1 →
    s.admEntry false fn e = some x → admCause false x ≠ 0 → c ∈ adminCommands fn e b →
    ∃ t, exec c s = .next t ∧ t.admQ fn = { s.admQ fn with stopped := true, errCause := admCause false x, errIndex := (s.admQ fn).head }
      ∧ (∀ f, f ≠ fn → t.admQ f = s.admQ f) ∧ t.queues = s.queues ∧ t.sessions = s.sessions ∧ Records s t 0x21 3) ∧
  (∀ (e x : Entry) (b : Block) (c : Instr) (s : State), s.admReady true 0 = true → s.cfgq.space.toNat ≤ 1 →
    s.admEntry true 0 e = some x → admCause true x ≠ 0 → c ∈ cfgCommands e b → (∀ n, (s.sess n).destroyer = none) →
    ∃ t, exec c s = .next t ∧ t.fcl.inSafe = true ∧ t.fcl.safe = 2 ∧ t.queues = s.queues ∧ t.sessions = s.sessions) ∧
  (∀ (fn : Nat) (e : Entry) (b : Block) (c : Instr) (s : State), s.admReady false fn = false → c ∈ adminCommands fn e b →
    exec c s = .next s)

/-- CREATE_QUEUE makes a DISABLED queue with the fields of its entry and returns its ID; ENABLE_QUEUE sets FETCH and PROD to HEAD;
RESET_QUEUE sets the indices and SEQ to 0; DESTROY_QUEUE frees the queue; SET_QUEUE_MOD holds the new moderation values for the next
status block. No other queue changes. DISABLE_QUEUE of an ENABLED queue or one in ERROR discards the final run of untouched chains,
stops fetching where that run began, and leaves the queue STOPPING, or DISABLED where no entry is left. A queue command that names no
queue of the function fails under NO_OBJECT, and one whose queue is not in a state that takes it fails under STATE with that state's
code; neither changes a queue. -/
def Obligations.QueueCommands : Prop :=
  (∀ (fn q : Nat) (e x : Entry) (s : State), s.admTakes false fn 0x01 e x → firstBad (s.queueChecks fn x) = none →
    s.ownLeaf fn (efld x 8 16 10) = true → (s.queuesOf fn).length < (s.fnRec fn).queues → s.pickFree (tblKeys s.queues) 65536 = some q →
    ∃ t, exec (.createQueue fn e) s = .next t ∧ admEnds s t false fn x 0 0 (put 12 0 q) ∧ t.queue q = newQueue fn x
      ∧ (t.queue q).state = .disabled ∧ (t.queue q).resvFree = (t.queue q).rdepth ∧ (t.queue q).prod = 0 ∧ (t.queue q).headSeq = 0
      ∧ (∀ p, p ≠ q → t.queue p = s.queue p)
      ∧ t = { s with admq := t.admq, clusters := t.clusters, free := s.free + 1, funcs := t.funcs, hlu := t.hlu, mem := t.mem, out := t.out,
                     queues := t.queues }) ∧
  (∀ (fn q : Nat) (e x : Entry) (s : State), s.admTakes false fn 0x03 e x → s.localQueue fn (efld x 8 0 16) = some q →
    (s.queue q).state = .disabled →
    ∃ t, exec (.enableQueue fn e) s = .next t ∧ admEnds s t false fn x 0 0 0 ∧ (t.queue q).state = .enabled
      ∧ (t.queue q).fetch = (s.queue q).head ∧ (t.queue q).prod = (s.queue q).head ∧ (t.queue q).head = (s.queue q).head
      ∧ (t.queue q).headSeq = (s.queue q).headSeq ∧ (∀ p, p ≠ q → t.queue p = s.queue p)
      ∧ t = { s with admq := t.admq, clusters := t.clusters, funcs := t.funcs, hlu := t.hlu, mem := t.mem, out := t.out, queues := t.queues }) ∧
  (∀ (fn q : Nat) (e x : Entry) (s : State), s.admTakes false fn 0x05 e x → s.localQueue fn (efld x 8 0 16) = some q →
    (s.queue q).state = .disabled →
    ∃ t, exec (.resetQueue fn e) s = .next t ∧ admEnds s t false fn x 0 0 0 ∧ (t.queue q).state = .disabled ∧ (t.queue q).prod = 0
      ∧ (t.queue q).fetch = 0 ∧ (t.queue q).head = 0 ∧ (t.queue q).headSeq = 0 ∧ (t.queue q).errCause = 0 ∧ (t.queue q).errIndex = 0
      ∧ (t.queue q).resvFree = (s.queue q).rdepth ∧ (∀ p, p ≠ q → t.queue p = s.queue p)
      ∧ t = { s with admq := t.admq, clusters := t.clusters, funcs := t.funcs, hlu := t.hlu, mem := t.mem, out := t.out, queues := t.queues }) ∧
  (∀ (fn q : Nat) (e x : Entry) (s : State), s.admTakes false fn 0x02 e x → s.localQueue fn (efld x 8 0 16) = some q →
    (s.queue q).state = .disabled →
    ∃ t, exec (.destroyQueue fn e) s = .next t ∧ admEnds s t false fn x 0 0 0 ∧ (t.queue q).state = .free
      ∧ (∀ p, p ≠ q → t.queue p = s.queue p)
      ∧ t = { s with admq := t.admq, clusters := t.clusters, funcs := t.funcs, hlu := t.hlu, mem := t.mem, out := t.out, queues := t.queues }) ∧
  (∀ (fn q : Nat) (e x : Entry) (s : State), s.admTakes false fn 0x06 e x → modHolds x = true → s.localQueue fn (efld x 8 0 16) = some q →
    ∃ t, exec (.setQueueMod fn e) s = .next t ∧ admEnds s t false fn x 0 0 0
      ∧ t.queue q = { s.queue q with nextMod := some (efld x 16 0 9, efld x 16 16 10) } ∧ (∀ p, p ≠ q → t.queue p = s.queue p)
      ∧ t = { s with admq := t.admq, clusters := t.clusters, funcs := t.funcs, hlu := t.hlu, mem := t.mem, out := t.out, queues := t.queues }) ∧
  (∀ (fn q : Nat) (e x : Entry) (s : State), s.admTakes false fn 0x04 e x → s.localQueue fn (efld x 8 0 16) = some q →
    (s.queue q).state = .enabled ∨ (s.queue q).state = .error →
    ∃ t, exec (.disableQueue fn e) s = .next t ∧ admEnds s t false fn x 0 0 (put 12 0 (t.queue q).fetch)
      ∧ (t.queue q).entries = (s.queue q).entries.take ((s.queue q).entries.length - (s.queue q).finalRun.length)
      ∧ (t.queue q).state = (if (t.queue q).entries = [] then .disabled else .stopping)
      ∧ ((t.queue q).entries = [] → (t.queue q).fetch = (s.queue q).head) ∧ (t.queue q).chainOpen = false
      ∧ (t.queue q).resvFree = (s.queue q).resvFree + ((s.queue q).finalRun.filter fun g => g.stage != .fetched).length
      ∧ (∀ p, p ≠ q → t.queue p = s.queue p)
      ∧ t = { s with admq := t.admq, clusters := t.clusters, dsc := t.dsc, evq := t.evq, funcs := t.funcs, hlu := t.hlu, imb := t.imb,
                     mem := t.mem, out := t.out, queues := t.queues, sessions := t.sessions }) ∧
  (∀ (fn op : Nat) (e x : Entry) (c : Instr) (s : State), s.admTakes false fn op e x →
    (op = 0x02 ∧ c = .destroyQueue fn e) ∨ (op = 0x03 ∧ c = .enableQueue fn e) ∨ (op = 0x04 ∧ c = .disableQueue fn e)
      ∨ (op = 0x05 ∧ c = .resetQueue fn e) →
    (s.localQueue fn (efld x 8 0 16) = none → ∃ t, exec c s = .next t ∧ admEnds s t false fn x 0x40 0x52 0 ∧ t.queues = s.queues) ∧
    (∀ q, s.localQueue fn (efld x 8 0 16) = some q → (s.queue q).state = .stopping →
      ∃ t, exec c s = .next t ∧ admEnds s t false fn x 0x40 0x51 (put 12 0 3) ∧ t.queues = s.queues))

/-- CREATE_SESSION makes a PARKED session with the parameters of its block and the ranges taken for it, and fails under INVALID at the first
refused field of its entry; SET_SESSION_PARAMS holds the new parameters as pending and takes their class at once; RESET_SESSION leaves
SESSION_RESET; DESTROY_SESSION leaves the session FREE, or DRAINING with the command that waits for it; QUERY_SESSION returns what it
reads of the session and changes nothing but its admin queue; the commands on a session that is FREE or another function's fail under
NO_OBJECT and change no session. -/
def Obligations.SessionCommands : Prop :=
  (∀ (fn n : Nat) (e x : Entry) (b : Block) (p : Params) (rs : List Range) (s : State), s.admTakes false fn 0x10 e x →
    s.entryParams fn x b = some p → firstBad (headChecks p) = none → blockBad p = none → s.ownLeaf fn p.cls = true →
    (s.sessionsOfFn fn).length < (s.fnRec fn).sessions → s.pickFree (tblKeys s.sessions) s.sessionLimit = some n →
    s.tookFree.reserveAll (reserveBytes p) [] = .inr rs →
    ∃ t, exec (.createSession fn e b) s = .next t ∧ admEnds s t false fn x 0 0 (sessionRet n p) ∧ (t.sess n).state = .parked
      ∧ (t.sess n).fn = fn ∧ (t.sess n).par = p ∧ (t.sess n).pictures = 0 ∧ (t.sess n).pics = []
      ∧ [(t.sess n).refR, (t.sess n).srcR, (t.sess n).stageR, (t.sess n).mauR] = rs ∧ (∀ m, m ≠ n → t.sess m = s.sess m)
      ∧ t = { s with admq := t.admq, clusters := t.clusters, ctx := t.ctx, free := s.free + 5, funcs := t.funcs, hlu := t.hlu, mem := t.mem, out := t.out,
                     sessions := t.sessions }) ∧
  (∀ (fn : Nat) (e x : Entry) (b : Block) (p : Params) (o : Nat) (s : State), s.admTakes false fn 0x10 e x →
    s.entryParams fn x b = some p → firstBad (headChecks p) = some o →
    ∃ t, exec (.createSession fn e b) s = .next t ∧ admEnds s t false fn x 0x40 0x50 (put 12 0 o) ∧ t.sessions = s.sessions) ∧
  (∀ (fn n : Nat) (e x : Entry) (b : Block) (p : Params) (rs : List Range) (s : State), s.admTakes false fn 0x12 e x →
    n = efld x 8 0 20 → (s.sess n).state ≠ .free → (s.sess n).state ≠ .draining → (s.sess n).fn = fn →
    s.entryParams fn x b = some p → s.setBad fn x p = none → s.ownLeaf fn p.cls = true → s.shrinksHeld n p = false →
    (s.modSess n fun y => { y with nextR := [] }).reserveAll (reserveBytes p)
      [(s.sess n).refR, (s.sess n).srcR, (s.sess n).stageR, (s.sess n).mauR] = .inr rs →
    ∃ t, exec (.setSessionParams fn e b) s = .next t ∧ admEnds s t false fn x 0 0 (sessionRet n p) ∧ (t.sess n).pendPar = some p
      ∧ (t.sess n).par = { (s.sess n).par with cls := p.cls } ∧ (t.sess n).state = (s.sess n).state
      ∧ (∀ m, m ≠ n → t.sess m = s.sess m)
      ∧ t = { s with admq := t.admq, clusters := t.clusters, free := s.free + 4, funcs := t.funcs, hlu := t.hlu, mem := t.mem, out := t.out,
                     sessions := t.sessions }) ∧
  (∀ (fn n : Nat) (e x : Entry) (s : State), s.admTakes false fn 0x13 e x → n = efld x 8 0 20 → (s.sess n).state ≠ .free →
    (s.sess n).state ≠ .draining → (s.sess n).fn = fn →
    ∃ t, exec (.resetSession fn e) s = .next t ∧ (t.sess n).state = .sessionReset) ∧
  (∀ (fn n : Nat) (e x : Entry) (s : State), s.admTakes false fn 0x11 e x → n = efld x 8 0 20 → (s.sess n).state ≠ .free →
    (s.sess n).state ≠ .draining → (s.sess n).fn = fn →
    ∃ t, exec (.destroySession fn e) s = .next t
      ∧ ((t.sess n).state = .free ∨ ((t.sess n).state = .draining ∧ (t.sess n).destroyer = some (fn, BitVec.ofNat 32 (e32 x 4))))) ∧
  (∀ (fn n : Nat) (e x : Entry) (s : State), s.admTakes false fn 0x14 e x → n = efld x 8 0 20 → (s.sess n).state ≠ .free →
    (s.sess n).fn = fn →
    ∃ t, exec (.querySession fn e) s = .next t ∧ admEnds s t false fn x 0 0 (s.sessionRet n)
      ∧ t = { s with admq := t.admq, clusters := t.clusters, funcs := t.funcs, hlu := t.hlu, mem := t.mem, out := t.out }) ∧
  (∀ (fn op : Nat) (e x : Entry) (c : Instr) (s : State), s.admTakes false fn op e x →
    (s.sess (efld x 8 0 20)).state = .free ∨ (s.sess (efld x 8 0 20)).fn ≠ fn →
    (op = 0x11 ∧ c = .destroySession fn e) ∨ (op = 0x13 ∧ c = .resetSession fn e) ∨ (op = 0x14 ∧ c = .querySession fn e) →
    ∃ t, exec c s = .next t ∧ admEnds s t false fn x 0x40 0x52 0 ∧ t.sessions = s.sessions)

/-- CREATE_POOL lays a pool of COUNT buffers at the lowest place of a granted region, with every buffer free; DESTROY_POOL frees it once no
buffer is allocated, and fails under STATE before that; an event ring comes up empty and goes away with what it had not written. -/
def Obligations.PoolAndRingCommands : Prop :=
  (∀ (fn n a : Nat) (r : Region) (e x : Entry) (s : State), s.admTakes false fn 0x20 e x →
    (s.boot.regions.find? fun g => g.kind == 5 && g.id == e8 x 8 && g.grant.getLsbD fn) = some r →
    12 ≤ efld x 8 8 5 → efld x 8 8 5 ≤ 30 → efld x 12 0 25 ≠ 0 → efld x 12 0 25 ≤ 16777216 →
    (s.poolsOf fn).length < (s.fnRec fn).pools → s.pickFree (tblKeys s.bpm.pools) 256 = some n →
    s.poolPlace r (efld x 8 8 5) (newPool fn r.id (efld x 8 8 5) (efld x 12 0 25) 0).limit = some a →
    ∃ t, exec (.createPool fn e) s = .next t ∧ admEnds s t false fn x 0 0 (put 12 0 n + put 16 0 a)
      ∧ (∃ p, t.pool? n = some p ∧ p.fn = fn ∧ p.base = a ∧ p.count = efld x 12 0 25 ∧ p.owners = [] ∧ p.ring = List.range (efld x 12 0 25))
      ∧ (∀ m, m ≠ n → t.pool? m = s.pool? m)
      ∧ t = { s with admq := t.admq, bpm := t.bpm, clusters := t.clusters, free := s.free + 1, funcs := t.funcs, hlu := t.hlu, mem := t.mem,
                     out := t.out }) ∧
  (∀ (fn : Nat) (p : Pool) (e x : Entry) (s : State), s.admTakes false fn 0x21 e x → s.ownPool fn (e8 x 8) = some p → p.owners = [] →
    p.reqs = [] →
    ∃ t, exec (.destroyPool fn e) s = .next t ∧ admEnds s t false fn x 0 0 0 ∧ t.pool? (e8 x 8) = none
      ∧ (∀ m, m ≠ e8 x 8 → t.pool? m = s.pool? m)
      ∧ t = { s with admq := t.admq, bpm := t.bpm, clusters := t.clusters, funcs := t.funcs, hlu := t.hlu, mem := t.mem, out := t.out }) ∧
  (∀ (fn : Nat) (p : Pool) (e x : Entry) (s : State), s.admTakes false fn 0x21 e x → s.ownPool fn (e8 x 8) = some p → p.owners ≠ [] →
    ∃ t, exec (.destroyPool fn e) s = .next t ∧ admEnds s t false fn x 0x40 0x51 0 ∧ t.bpm = s.bpm) ∧
  (∀ (fn : Nat) (e x : Entry) (s : State), s.admTakes false fn 0x30 e x → firstBad (ringChecks x) = none → (s.ring fn).isThere = false →
    ∃ t, exec (.createEventRing fn e) s = .next t ∧ admEnds s t false fn x 0 0 0 ∧ (t.ring fn).isThere = true
      ∧ (t.ring fn).depth = 2 ^ efld x 8 0 5 ∧ (t.ring fn).ringAddr = e64 x 16 ∧ (t.ring fn).wordAddr = e64 x 24
      ∧ (t.ring fn).prod = 0 ∧ (t.ring fn).cons = 0 ∧ (t.ring fn).overflow = false ∧ (∀ f, f ≠ fn → t.ring f = s.ring f)
      ∧ t = { s with admq := t.admq, clusters := t.clusters, evq := t.evq, funcs := t.funcs, hlu := t.hlu, mem := t.mem, out := t.out }) ∧
  (∀ (fn : Nat) (e x : Entry) (s : State), s.admTakes false fn 0x31 e x → (s.ring fn).isThere = true →
    ∃ t, exec (.destroyEventRing fn e) s = .next t ∧ admEnds s t false fn x 0 0 0 ∧ (t.ring fn).isThere = false ∧ (t.ring fn).pend = 0
      ∧ (∀ f, f ≠ fn → t.ring f = s.ring f)
      ∧ t = { s with admq := t.admq, clusters := t.clusters, evq := t.evq, funcs := t.funcs, hlu := t.hlu, mem := t.mem, out := t.out }) ∧
  (∀ (fn : Nat) (e x : Entry) (s : State), s.admTakes false fn 0x31 e x → (s.ring fn).isThere = false →
    ∃ t, exec (.destroyEventRing fn e) s = .next t ∧ admEnds s t false fn x 0x40 0x52 0 ∧ t.evq = s.evq)

/-- SET_CLASS stores WEIGHT, RATE and BURST of a class the function owns, and clamps its bucket; SET_GATE_LIST of a claim lane holds the
list until SWITCH_TIME, which lies at least 100 µs ahead; only PF0 sets one. The queries change nothing but their queue; QUERY_FUNCTION
takes two free values for the counts the spec leaves open (log entry 5). -/
def Obligations.ClassAndGateCommands : Prop :=
  (∀ (fn : Nat) (r : ClassRec) (e x : Entry) (s : State), s.admTakes false fn 0x28 e x → s.clsRec (efld x 8 0 10) = some r →
    firstBad (classBounds r x) = none → r.owner = fn →
    ∃ t, exec (.setClass fn e) s = .next t ∧ admEnds s t false fn x 0 0 0 ∧ (t.cls r.cls).weight = e16 x 12
      ∧ (t.cls r.cls).rate = efld x 16 0 18 ∧ (t.cls r.cls).burst = efld x 20 0 20
      ∧ (t.cls r.cls).bucket = min (s.cls r.cls).bucket ((efld x 20 0 20 * 1000 : Nat) : Int) ∧ (∀ c, c ≠ r.cls → t.cls c = s.cls c)
      ∧ t = { s with admq := t.admq, clusters := t.clusters, dsc := t.dsc, funcs := t.funcs, hlu := t.hlu, mem := t.mem, out := t.out }) ∧
  (∀ (fn op : Nat) (r : ClassRec) (e x : Entry) (c : Instr) (s : State), s.admTakes false fn op e x → s.clsRec (efld x 8 0 10) = some r →
    firstBad (classBounds r x) = none → r.owner ≠ fn → (op = 0x28 ∧ c = .setClass fn e) ∨ (op = 0x29 ∧ c = .queryClass fn e) →
    ∃ t, exec c s = .next t ∧ admEnds s t false fn x 0x40 0x52 0 ∧ t.dsc = s.dsc) ∧
  (∀ (fn : Nat) (r : ClassRec) (e x : Entry) (s : State), s.admTakes false fn 0x29 e x → s.clsRec (efld x 8 0 10) = some r → r.owner = fn →
    ∃ t, exec (.queryClass fn e) s = .next t ∧ admEnds s t false fn x 0 0 (s.classRet r.cls)
      ∧ t = { s with admq := t.admq, clusters := t.clusters, funcs := t.funcs, hlu := t.hlu, mem := t.mem, out := t.out }) ∧
  (∀ (e x : Entry) (b : Block) (bs : List Byte) (s : State), s.admTakes false 0 0x2A e x →
    s.blockBytes 0 (e8 x 40) (e64 x 32) (8 * min 64 (efld x 8 8 7)) b = some bs → firstBad (s.gateBody x) = none →
    firstBad ((entryOffs 0 (min 64 (efld x 8 8 7)) 8).flatMap fun o => gateChecks bs o (efld x 8 0 3)) = none → efld x 8 0 3 < 2 →
    s.time + 100000 ≤ e64 x 24 →
    ∃ t, exec (.setGateList 0 e b) s = .next t ∧ admEnds s t false 0 x 0 0 0
      ∧ t.lane (efld x 8 0 3) = { s.lane (efld x 8 0 3) with next := some (entryGates x bs, e64 x 24) }
      ∧ (∀ l, l ≠ efld x 8 0 3 → t.lane l = s.lane l)
      ∧ t = { s with admq := t.admq, clusters := t.clusters, dsc := t.dsc, funcs := t.funcs, hlu := t.hlu, mem := t.mem, out := t.out }) ∧
  (∀ (fn : Nat) (e x : Entry) (b : Block) (bs : List Byte) (s : State), s.admTakes false fn 0x2A e x → fn ≠ 0 →
    s.blockBytes fn (e8 x 40) (e64 x 32) (8 * min 64 (efld x 8 8 7)) b = some bs →
    ∃ t, exec (.setGateList fn e b) s = .next t ∧ admEnds s t false fn x 0x40 0x53 0 ∧ t.dsc = s.dsc) ∧
  (∀ (fn : Nat) (e x : Entry) (s : State), s.admTakes false fn 0x38 e x → fn = 0 ∨ efld x 8 0 6 = fn → efld x 8 0 6 < s.fnCount →
    ∃ t, exec (.queryFunction fn e) s = .next t ∧ admEnds s t false fn x 0 0 (s.functionRet (efld x 8 0 6))
      ∧ t = { s with admq := t.admq, clusters := t.clusters, free := s.free + 2, funcs := t.funcs, hlu := t.hlu, mem := t.mem, out := t.out }) ∧
  (∀ (fn : Nat) (e x : Entry) (s : State), s.admTakes false fn 0x38 e x → fn ≠ 0 → efld x 8 0 6 ≠ fn →
    ∃ t, exec (.queryFunction fn e) s = .next t ∧ admEnds s t false fn x 0x40 0x53 0)

/-- RESTRUCTURE with an image that passes its check and fits holds it until the device is drained, and then it is in force; one that fails
its check ends with the reason and nothing else changes. SPARE_RANK starts a migration to a free spare rank, RETIRE_RANK of a rank that
is out of service fails under STATE, and QUERY_IMAGE returns version, permissions and digest. -/
def Obligations.ConfigurationCommands : Prop :=
  (∀ (e x : Entry) (b : Block) (bs : List Byte) (i : Image) (s : State), s.admTakes true 0 0x80 e x → (∀ n, (s.sess n).destroyer = none) →
    s.blockBytes 0 (e8 x 12) (e64 x 16) (e32 x 8) b = some bs → e32 x 8 ≠ 0 → e32 x 8 ≤ 16777216 → checkImage s.boot.fuses bs = .inr i →
    s.badRow i = 0 →
    ∃ t, exec (.restructure e b) s = .next t ∧ t.boot.restruct = some i ∧ t.boot.image = s.boot.image ∧ t.boot.stopped = s.runningQueues) ∧
  (∀ (e x : Entry) (b : Block) (bs : List Byte) (r : Nat × Nat) (s : State), s.admTakes true 0 0x80 e x →
    (∀ n, (s.sess n).destroyer = none) → s.blockBytes 0 (e8 x 12) (e64 x 16) (e32 x 8) b = some bs → e32 x 8 ≠ 0 → e32 x 8 ≤ 16777216 →
    checkImage s.boot.fuses bs = .inl r →
    ∃ t, exec (.restructure e b) s = .next t ∧ admEnds s t true 0 x 0x40 0x58 (put 12 0 r.1) ∧ t.boot.chkReason = r.1
      ∧ t.boot.image = s.boot.image ∧ t.boot.restruct = s.boot.restruct
      ∧ t = { s with boot := t.boot, cfgq := t.cfgq, clusters := t.clusters, funcs := t.funcs, hlu := t.hlu, mem := t.mem, out := t.out }) ∧
  (∀ (i : Image) (s : State), s.live = true → s.drained = true → s.boot.restruct = some i →
    ∃ t, exec .restructureInForce s = .next t ∧ t.boot.image = some i ∧ t.boot.restruct = none ∧ t.boot.stopped = []
      ∧ t.cfgq.head = (s.cfgq.head + 1) % (2 * s.cfgq.depth) ∧ t.cfgq.seq = s.cfgq.seq + 1
      ∧ t = { s with boot := t.boot, cfgq := t.cfgq, clusters := t.clusters, dsc := t.dsc, evq := t.evq, funcs := t.funcs, hlu := t.hlu,
                     imb := t.imb, mem := t.mem, out := t.out, queues := t.queues, sessions := t.sessions }) ∧
  (∀ (e x : Entry) (st : Nat) (s : State), s.admTakes true 0 0x81 e x → s.stripeOfRank (efld x 8 0 4) (efld x 8 8 2) = some st →
    s.spareFree (efld x 8 0 4) = true → efld x 8 8 2 ≠ s.physRanks - 1 →
    ∃ t, exec (.spareRank e) s = .next t ∧ (∃ m, (t.chn (efld x 8 0 4)).mig = some m ∧ m.rank = efld x 8 8 2 ∧ m.stripe = st ∧ m.p = 0)
      ∧ Records s t 0x0A 0 ∧ t.cfgq.head = (s.cfgq.head + 1) % (2 * s.cfgq.depth)
      ∧ t = { s with cfgq := t.cfgq, clusters := t.clusters, evq := t.evq, fcl := t.fcl, funcs := t.funcs, hlu := t.hlu, imb := t.imb,
                     mem := t.mem, out := t.out }) ∧
  (∀ (e x : Entry) (s : State), s.admTakes true 0 0x81 e x → s.stripeOfRank (efld x 8 0 4) (efld x 8 8 2) = none ∨
      s.spareFree (efld x 8 0 4) = false →
    ∃ t, exec (.spareRank e) s = .next t ∧ admEnds s t true 0 x 0x40 0x51 (put 12 0 (s.chn (efld x 8 0 4)).state)
      ∧ t = { s with cfgq := t.cfgq, clusters := t.clusters, funcs := t.funcs, hlu := t.hlu, mem := t.mem, out := t.out }) ∧
  (∀ (e x : Entry) (s : State), s.admTakes true 0 0x82 e x → s.rankServes (efld x 8 0 4) (efld x 8 8 2) = false →
    ∃ t, exec (.retireRank e) s = .next t ∧ admEnds s t true 0 x 0x40 0x51 (put 12 0 (s.chn (efld x 8 0 4)).state)
      ∧ t = { s with cfgq := t.cfgq, clusters := t.clusters, funcs := t.funcs, hlu := t.hlu, mem := t.mem, out := t.out }) ∧
  (∀ (e x : Entry) (s : State), s.admTakes true 0 0x82 e x → s.rankServes (efld x 8 0 4) (efld x 8 8 2) = true →
    (s.stripeOfRank (efld x 8 0 4) (efld x 8 8 2)).any s.holdsContext = false →
    exec (.retireRank e) s = .next ((s.retireRank (efld x 8 0 4) (efld x 8 8 2)).finishAdm true 0 (BitVec.ofNat 32 (e32 x 4)) 0x82 0 0 0)) ∧
  (∀ (e x : Entry) (i : Image) (s : State), s.admTakes true 0 0x83 e x → s.boot.image = some i →
    ∃ t, exec (.queryImage e) s = .next t
      ∧ admEnds s t true 0 x 0 0 (put 12 0 i.version.toNat + put 16 0 i.permit.toNat + put 32 0 i.digest.toNat)
      ∧ t = { s with cfgq := t.cfgq, clusters := t.clusters, funcs := t.funcs, hlu := t.hlu, mem := t.mem, out := t.out })

/-- A decision hints the unit that the classes and tags choose for a resource of the kind: it takes a free in-flight entry, and its queue
entry has started; with none to choose it does nothing more than plan again. -/
def Obligations.ScheduleDecision : Prop :=
  (∀ (kind : ResKind) (u : WUnit) (p : Place) (s : State), s.live = true →
    s.replan.pickUnit (fun w => (s.replan.placeFor kind w).isSome) true 6 0 = some u → s.replan.placeFor kind u = some p →
    u ∈ s.replan.dsc.units →
    ∃ t, exec (.scheduleDecision kind) s = .next t
      ∧ (∃ ix, ix < 4096 ∧ t.dsc.inflight = s.replan.dsc.inflight ++ [(ix, u.uid)] ∧ ∀ q ∈ s.replan.dsc.inflight, q.1 ≠ ix)
      ∧ (∃ w ∈ t.dsc.units, w.uid = u.uid ∧ w.stage = .hinted p.at_ p.bank s.replan.time p.start ∧ w.charged = true)
      ∧ (∀ e, (t.queue u.q).entry? u.seq = some e → e.started = true)
      ∧ t = { s.replan with clusters := t.clusters, ctx := t.ctx, dsc := t.dsc, free := t.free, halves := t.halves, mem := t.mem,
                            queues := t.queues, sessions := t.sessions }) ∧
  (∀ (kind : ResKind) (s : State), s.live = true →
    s.replan.pickUnit (fun w => (s.replan.placeFor kind w).isSome) true 6 0 = none →
    exec (.scheduleDecision kind) s = .next s.replan) ∧
  (∀ (s : State), s.dsc.units = [] → s.replan = s)

/-- Where its lane is open at the end of the 2 µs after its hint, a hinted unit starts on its MAU engine, its PCF pipe or its core half: the
half executes it from the bank that was loaded for it, with the windows that pass their check, and DSC_DISPATCHED counts. A core half
that is not free, steady and loaded, or any place whose lane is closed, starts none; a unit whose windows fail is recorded and does not
run. -/
def Obligations.UnitDispatch : Prop :=
  (∀ (ix uid e k at_ sp : Nat) (u : WUnit) (s : State), s.live = true → (s.dsc.inflight.find? fun p => p.1 == ix) = some (ix, uid) →
    s.unit? uid = some u → u.stage = .hinted e k at_ sp → u.kind = .mau → (s.func u.fn).d3 = false →
    s.gateOpen u (max s.time (at_ + 2000)) = true →
    ∃ t, exec (.unitDispatch ix) s = .next t ∧ t.time = max s.time (at_ + 2000)
      ∧ (∃ w ∈ t.dsc.units, w.uid = uid ∧ w.stage = .running e ∧ w.runT = t.time)
      ∧ tblGet 0 t.mau.units e = uid + 1 ∧ t.dsc.dispatched = sat64 s.dsc.dispatched 1
      ∧ (∃ a ∈ (t.sess u.session).ana, a.index = u.pic ∧ a.final = false)
      ∧ t = { s with aon := t.aon, dsc := t.dsc, mau := t.mau, sessions := t.sessions, time := t.time }) ∧
  (∀ (ix uid e k at_ sp : Nat) (u : WUnit) (s : State), s.live = true → (s.dsc.inflight.find? fun p => p.1 == ix) = some (ix, uid) →
    s.unit? uid = some u → u.stage = .hinted e k at_ sp → u.kind = .pcf → (s.func u.fn).d3 = false →
    s.gateOpen u (max s.time (at_ + 2000)) = true → s.passStores u = [] →
    ∃ t, exec (.unitDispatch ix) s = .next t ∧ t.time = max s.time (at_ + 2000)
      ∧ (∃ w ∈ t.dsc.units, w.uid = uid ∧ w.stage = .running e ∧ w.runT = t.time)
      ∧ tblGet 0 t.pcf.units e = uid + 1 ∧ t.dsc.dispatched = sat64 s.dsc.dispatched 1
      ∧ (s.usesLut (s.passDesc u) = true → s.poisoned u.lut 39304 = false →
          tblGet false t.pcf.lutValid e = true ∧ tblGet 0 t.pcf.lutAddr e = u.lut)
      ∧ t = { s with aon := t.aon, dsc := t.dsc, pcf := t.pcf, time := t.time }) ∧
  (∀ (ix uid h k at_ sp : Nat) (u : WUnit) (s : State), s.live = true → (s.dsc.inflight.find? fun p => p.1 == ix) = some (ix, uid) →
    s.unit? uid = some u → u.stage = .hinted h k at_ sp → u.kind = .segment → (s.func u.fn).d3 = false →
    (s.sess u.session).par.encode = false → s.mayStart h k = true → s.gateOpen u (max s.time (at_ + 2000)) = true →
    (∀ p ∈ (s.sess u.session).pics, p.num ≠ u.pic) → s.loadFails u.fn false u.windows = none →
    ∃ t, exec (.unitDispatch ix) s = .next t ∧ (∃ w ∈ t.dsc.units, w.uid = uid ∧ w.stage = .running h ∧ w.cycles = 0)
      ∧ (t.half h).unit = some uid ∧ (t.half h).bank k = .active u.session ∧ (t.half h).activeBank = k ∧ (t.half h).waiting = false
      ∧ (t.half h).winSet = u.windows
      ∧ t.dsc.dispatched = sat64 s.dsc.dispatched 1 ∧ t.time = max s.time (at_ + 2000) ∧ (∀ j, j ≠ h → t.half j = s.half j)
      ∧ t = { s with aon := t.aon, dsc := t.dsc, halves := t.halves, sessions := t.sessions, time := t.time }) ∧
  (∀ (ix uid h k at_ sp i : Nat) (u : WUnit) (s : State), s.live = true → (s.dsc.inflight.find? fun p => p.1 == ix) = some (ix, uid) →
    s.unit? uid = some u → u.stage = .hinted h k at_ sp → u.kind = .segment → (s.func u.fn).d3 = false →
    (s.sess u.session).par.encode = false → s.mayStart h k = true → s.gateOpen u (max s.time (at_ + 2000)) = true →
    (∀ p ∈ (s.sess u.session).pics, p.num ≠ u.pic) → s.loadFails u.fn false u.windows = some i →
    ∃ t, exec (.unitDispatch ix) s = .next t ∧ (∃ r ∈ t.fcl.inbox, r.code = 0x22 ∧ r.cls = 3) ∧ (t.half h).unit = none) ∧
  (∀ (ix uid h k at_ sp : Nat) (u : WUnit) (s : State), (s.dsc.inflight.find? fun p => p.1 == ix) = some (ix, uid) →
    s.unit? uid = some u → u.stage = .hinted h k at_ sp →
    (u.kind.onCore = true ∧ s.mayStart h k = false) ∨ s.gateOpen u (max s.time (at_ + 2000)) = false →
    exec (.unitDispatch ix) s = .next s)

/-- Once a microsecond every class with a RATE gains RATE tokens, no more than BURST times 1,000; others keep their bucket. A claim takes no
more halves than its window reserves; a window opens and closes at its time, and closing drops its claims; a pending list becomes the
lane's list at its switchover. -/
def Obligations.BucketsAndGates : Prop :=
  (∀ (i : Image) (s : State), s.live = true → s.boot.image = some i → (i.classes.map ClassRec.cls).Nodup →
    ∃ t, exec .bucketRefill s = .next t ∧ t.time = max s.time (s.dsc.lastRefill + 1000) ∧ t.dsc.lastRefill = t.time
      ∧ (∀ c, c ∈ i.classes.map ClassRec.cls → (s.cls c).rate ≠ 0 →
          t.cls c = { s.cls c with bucket := min ((s.cls c).bucket + ((s.cls c).rate : Int)) (((s.cls c).burst * 1000 : Nat) : Int) })
      ∧ (∀ c, c ∉ i.classes.map ClassRec.cls ∨ (s.cls c).rate = 0 → t.cls c = s.cls c)
      ∧ t = { s with aon := t.aon, dsc := t.dsc, time := t.time }) ∧
  (∀ (l w : Nat) (s : State), s.live = true → l < 2 → (s.lane l).nextWindow s.time = some w → (s.lane l).claimFrom ≠ w →
    ∃ t, exec (.gateClaim l) s = .next t ∧ t.time = max s.time ((s.lane l).claimAt w) ∧ (t.lane l).claimFrom = w
      ∧ (t.lane l).decHalves.length ≤ (((s.lane l).listAt w).nth (((s.lane l).listAt w).entry w).1).resDec
      ∧ (t.lane l).encHalves.length ≤ (((s.lane l).listAt w).nth (((s.lane l).listAt w).entry w).1).resEnc
      ∧ (∀ h, h ∈ (t.lane l).claims → h ∉ (t.lane (1 - l)).claims) ∧ (∀ m, m ≠ l → t.lane m = s.lane m)
      ∧ t = { s with aon := t.aon, dsc := t.dsc, time := t.time }) ∧
  (∀ (l w : Nat) (s : State), s.live = true → l < 8 → ((s.lane l).listAt s.time).openAt s.time = false →
    (s.lane l).nextWindow s.time = some w → (s.lane l).wasOpen = false →
    ∃ t, exec (.gateWindowOpen l) s = .next t ∧ t.time = max s.time w ∧ t.lane l = { s.lane l with wasOpen := true }
      ∧ (∀ m, m ≠ l → t.lane m = s.lane m) ∧ (2 ≤ l → t.halves = s.halves)
      ∧ t = { s with aon := t.aon, dsc := t.dsc, halves := t.halves, time := t.time }) ∧
  (∀ (l c : Nat) (s : State), s.live = true → l < 8 → (s.lane l).closes s.time = some c → (s.lane l).wasOpen = true →
    ∃ t, exec (.gateWindowClose l) s = .next t ∧ t.time = max s.time c ∧ (t.lane l).wasOpen = false ∧ (t.lane l).claims = []
      ∧ (t.lane l).cur = (s.lane l).cur ∧ (∀ m, m ≠ l → t.lane m = s.lane m)
      ∧ t = { s with aon := t.aon, dmv := t.dmv, dsc := t.dsc, halves := t.halves, mau := t.mau, pcf := t.pcf, sessions := t.sessions,
                     time := t.time }) ∧
  (∀ (l at_ : Nat) (g : GateList) (s : State), s.live = true → l < 8 → (s.lane l).next = some (g, at_) →
    ∃ t, exec (.gateListSwitch l) s = .next t ∧ t.time = max s.time at_ ∧ (t.lane l).cur = g ∧ (t.lane l).next = none
      ∧ (t.lane l).wasOpen = g.openAt t.time ∧ (∀ m, m ≠ l → t.lane m = s.lane m)
      ∧ t = { s with aon := t.aon, dsc := t.dsc, time := t.time })

/-- A preload makes its bank READY, and counts when it came later than 2 µs; a prefetch brings the first session of the plan that is not
cached into its set; a drained bank is EMPTY, and a half that is being fenced is FENCED once it holds nothing. -/
def Obligations.ContextMovements : Prop :=
  (∀ (h k n t0 : Nat) (s : State), s.live = true → k < 2 → (s.half h).bank k = .loading n t0 →
    ∃ t, exec (.preloadDone h k) s = .next t ∧ (t.half h).bank k = .ready n t0 ∧ (t.half h).bank (1 - k) = (s.half h).bank (1 - k)
      ∧ (t.half h).unit = (s.half h).unit ∧ (∀ j, j ≠ h → t.half j = s.half j)
      ∧ t.ctx.late = (if t0 + 2000 < s.time ∧ (s.half h).unit = none then sat32 s.ctx.late 1 else s.ctx.late)
      ∧ t = { s with ctx := t.ctx, halves := t.halves }) ∧
  (∀ (n : Nat) (s : State), s.live = true → s.ctx.ctrl.getLsbD 8 = true →
    ((s.dispatchPlan.take (s.ctx.ctrl.toNat % 256)).find? fun m => !s.cached m) = some n → (s.cacheSet n).length < s.ways n →
    ∃ t, exec .contextPrefetch s = .next t ∧ t.cached n = true ∧ t = { s with ctx := t.ctx }) ∧
  (∀ (s : State), s.ctx.ctrl.getLsbD 8 = false → exec .contextPrefetch s = .next s) ∧
  (∀ (h k n : Nat) (s : State), s.live = true → k < 2 → (s.half h).bank k = .draining n →
    ∃ t, exec (.bankDrainDone h k) s = .next t ∧ (t.half h).bank k = .empty ∧ (t.half h).bank (1 - k) = (s.half h).bank (1 - k)
      ∧ (t.half h).fstate = (if (s.half h).fstate = .fencing ∧ (s.half h).unit = none ∧ (s.half h).bank (1 - k) = .empty then .fenced
          else (s.half h).fstate)
      ∧ (∀ j, j ≠ h → t.half j = s.half j) ∧ t = { s with halves := t.halves })

/-- A microword that neither waits nor checkpoints, moves no memory and puts no byte into the FIFO clears and sets the flags that its
nanoword names, loads the link where its nanoword says so, takes the next word's address from its NEXT field for COND 0 and 1 and from
the link for COND 31, and charges its cycles to the unit. Without a slice to end it changes only its half and its unit. A word that
fails parity, is invalid or reaches an unloaded patch word takes machine check cause 3. A half without a unit issues nothing. -/
def Obligations.MicrowordIssue : Prop :=
  (∀ (h : Nat) (x : IssueIn) (u : WUnit) (s : State), s.live = true → isHalf h = true → s.halfServes h = true → s.running? h = some u →
    (s.half h).waiting = false → x.parity = false → x.tail = none → x.fifoWord = none →
    ((s.half h).fetch (s.half h).nextA).trap = false → ((s.half h).fetch (s.half h).nextA).invalid (h % 2 == 1) = false →
    nfld ((s.half h).fetch (s.half h).nextA).nano 5 26 2 = 0 → mCkpt ((s.half h).fetch (s.half h).nextA).word = false →
    mWait ((s.half h).fetch (s.half h).nextA).word = false →
    ∃ t, exec (.microwordIssue h x) s = .next t ∧ (t.half h).uaddr = ((s.half h).fetch (s.half h).nextA).addr
      ∧ (t.half h).flags = ((s.half h).flags &&& ~~~ BitVec.ofNat 4 (nfld ((s.half h).fetch (s.half h).nextA).nano 0 22 4))
          ||| BitVec.ofNat 4 (nfld ((s.half h).fetch (s.half h).nextA).nano 0 26 4)
      ∧ (t.half h).link = (if nfld ((s.half h).fetch (s.half h).nextA).nano 0 30 2 = 1 then ((s.half h).fetch (s.half h).nextA).addr + 1
          else (s.half h).link)
      ∧ (mCond ((s.half h).fetch (s.half h).nextA).word = 0 →
          (t.half h).nextA = BitVec.ofNat 13 (mNext ((s.half h).fetch (s.half h).nextA).word))
      ∧ (mCond ((s.half h).fetch (s.half h).nextA).word = 1 →
          (t.half h).nextA = BitVec.ofNat 13 (mNext ((s.half h).fetch (s.half h).nextA).word ||| 1))
      ∧ (mCond ((s.half h).fetch (s.half h).nextA).word = 31 → (t.half h).nextA = (s.half h).link)
      ∧ (t.half h).waiting = false ∧ (t.half h).unit = (s.half h).unit
      ∧ (∃ w ∈ t.dsc.units, w.uid = u.uid ∧
          w.cycles = if u.aborted then u.cycles else u.cycles + issueCycles x ((s.half h).fetch (s.half h).nextA))
      ∧ (u.codes h = false → t = { s with dsc := t.dsc, halves := t.halves })
      ∧ (∀ j, j ≠ h → t.half j = s.half j)
      ∧ t = { s with clusters := t.clusters, dsc := t.dsc, funcs := t.funcs, halves := t.halves, hlu := t.hlu, mem := t.mem, out := t.out,
                     queues := t.queues }) ∧
  (∀ (h : Nat) (x : IssueIn) (u : WUnit) (s : State), s.live = true → isHalf h = true → s.halfServes h = true → s.running? h = some u →
    (s.half h).waiting = false →
    x.parity = true ∨ ((s.half h).fetch (s.half h).nextA).trap = true
      ∨ ((s.half h).fetch (s.half h).nextA).invalid (h % 2 == 1) = true →
    ∃ t, exec (.microwordIssue h x) s = .next t ∧ t.checked s h 3 ((s.half h).fetch (s.half h).nextA).addr) ∧
  (∀ (h : Nat) (x : IssueIn) (s : State), s.running? h = none → exec (.microwordIssue h x) s = .next s)

/-- A machine check empties the half, latches its cause and address and counts; the half is FENCED, or goes to its self-test where the
policy unfences it and the limit of the window is not reached. The watchdog is cause 5, at the address of the WAIT word; it acts only on
a waiting half whose count is not held. A unit whose charged cycles have reached its budget is sent the budget abort, one time; a
request on its way reaches the half that executes the unit it names, and is dropped, its sender told so, where its tag is not that of
the unit the half executes. At the end of the unit's FIFO_TMO, counted from the FIFO's last write, every byte that the FIFO holds is
written; what it holds does not change. -/
def Obligations.ChecksAndBudgets : Prop :=
  (∀ (h cause : Nat) (a : BitVec 13) (s : State), s.live = true → isHalf h = true → s.halfServes h = true → 3 ≤ cause → cause ≤ 5 →
    ∃ t, exec (.machineCheck h cause a) s = .next t ∧ t.checked s h cause a) ∧
  (∀ (h : Nat) (s : State), s.live = true → isHalf h = true → s.halfServes h = true → (s.half h).waiting = true →
    s.countHeld h = false → ∃ t, exec (.waitWatchdog h) s = .next t ∧ t.checked s h 5 (s.half h).uaddr) ∧
  (∀ (h : Nat) (s : State), (s.half h).waiting = false ∨ s.countHeld h = true → exec (.waitWatchdog h) s = .next s) ∧
  (∀ (h : Nat) (c : Instr) (u : WUnit) (s : State), s.live = true → isHalf h = true → s.halfServes h = true → s.running? h = some u →
    u.stage = .running h → u.kind.onCore = true → u.aborted = false → (s.half h).budgetAsked u.tag = false →
    (h % 2 = 0 ∧ c = .decodeBudgetAbort h) ∨ (h % 2 = 1 ∧ c = .encodeBudgetAbort h) →
    ∃ t, exec c s = .next t ∧ t.half h = { s.half h with sent := (s.half h).sent ++ [(.abortBudget, u.tag)] }
      ∧ (∃ w ∈ t.dsc.units, w.uid = u.uid ∧ w.cycles = max u.cycles u.budget) ∧ (∀ j, j ≠ h → t.half j = s.half j)
      ∧ t = { s with dsc := t.dsc, halves := t.halves }) ∧
  (∀ (h : Nat) (r : SeqReq) (u : WUnit) (s : State), s.live = true → isHalf h = true → (s.half h).sent.contains (r, u.tag) = true →
    s.running? h = some u →
    ∃ t, exec (.requestArrival h r u.tag) s = .next t
      ∧ t.half h = { s.half h with sent := (s.half h).sent.erase (r, u.tag), reqs := (s.half h).reqs ++ [(r, u.tag)] }
      ∧ (∀ j, j ≠ h → t.half j = s.half j) ∧ t = { s with halves := t.halves }) ∧
  (∀ (h : Nat) (r : SeqReq) (tag : BitVec 16) (s : State), s.live = true → isHalf h = true → (s.half h).sent.contains (r, tag) = true →
    (∀ u, s.running? h = some u → u.tag ≠ tag) →
    ∃ t, exec (.requestArrival h r tag) s = .next t
      ∧ t.half h = { s.half h with sent := (s.half h).sent.erase (r, tag), dropped := (s.half h).dropped ++ [(r, tag)] }
      ∧ (∀ j, j ≠ h → t.half j = s.half j) ∧ t = { s with halves := t.halves }) ∧
  (∀ (h : Nat) (u : WUnit) (s : State), s.live = true → isHalf h = true → s.halfServes h = true → h % 2 = 1 → s.running? h = some u →
    (s.sess u.session).par.fifoTmo ≠ 0 → (s.half h).holdsBytes = true →
    ∃ t, exec (.fifoTailFlush h) s = .next t ∧ (t.half h).fifo.written = (s.half h).fifo.bytes.length
      ∧ (t.half h).fifo.bytes = (s.half h).fifo.bytes ∧ t.time = max s.time ((s.half h).fifo.timer + 100 * (s.sess u.session).par.fifoTmo)
      ∧ (∀ j, j ≠ h → t.half j = s.half j)
      ∧ t = { s with aon := t.aon, clusters := t.clusters, dsc := t.dsc, funcs := t.funcs, halves := t.halves, hlu := t.hlu, mem := t.mem,
                     out := t.out, queues := t.queues, time := t.time })

/-- The commit of a decode segment whose writes are acknowledged makes the session's working version current, counts UNIT_SEQ by one, and
takes the unit from the in-flight table and the unit list; other sessions, queues and units stay. Until the lines that a unit of a
session in service has written are acknowledged, and every progress record it owes is written, its commit changes neither the session's
versions nor the in-flight table. -/
def Obligations.CommitFlip : Prop :=
  (∀ (ix uid h a : Nat) (u w : WUnit) (e : QEntry) (s : State), s.live = true → (s.dsc.inflight.find? fun p => p.1 == ix) = some (ix, uid) →
    s.unit? uid = some u → u.stage = .committing h a → s.linesAcked u.lines = true → s.commitApplies u = true →
    (s.func u.fn).held = [] → e.due = [] → s.entryAcked u.q e = true → (∀ i m, m ∈ s.mergeBuf i → m.tile.base ≠ (u.windows.getD 3 noWindow).base) →
    u.kind = .segment → u.skips = false →
    (s.sess u.session).par.encode = false → (s.queue u.q).entry? u.seq = some e →
    w ∈ s.dsc.units → w.uid ≠ uid → w.q = u.q → w.seq = u.seq → w.session = u.session → w.kind.onCore = true →
    ∃ t, exec (.commitFlip ix) s = .next t ∧ (t.sess u.session).vsel = !(s.sess u.session).vsel
      ∧ (t.sess u.session).unitSeq = (s.sess u.session).unitSeq + 1 ∧ (t.half h).done = (s.half h).done + 1
      ∧ (∀ v ∈ t.dsc.units, v.uid ≠ uid) ∧ (∀ p ∈ t.dsc.inflight, p.2 ≠ uid) ∧ (∀ m, m ≠ u.session → t.sess m = s.sess m) ∧ (∀ p, p ≠ u.q → t.queue p = s.queue p)
      ∧ t = { s with clusters := t.clusters, ctx := t.ctx, dsc := t.dsc, halves := t.halves, mem := t.mem, queues := t.queues,
                     sessions := t.sessions }) ∧
  (∀ (ix uid h a : Nat) (u : WUnit) (e : QEntry) (s : State), (s.dsc.inflight.find? fun p => p.1 == ix) = some (ix, uid) →
    s.unit? uid = some u → u.stage = .committing h a → s.commitApplies u = true → (s.queue u.q).entry? u.seq = some e → e.due = [] →
    s.linesAcked u.lines = false → (∀ i m, m ∈ s.mergeBuf i → m.tile.base ≠ (u.windows.getD 3 noWindow).base) →
    exec (.commitFlip ix) s = .next s)

/-- A fence of an ACTIVE half latches cause 1 and its mode, and is complete at once where the half holds nothing; in abort mode the unit
that executes is asked to stop. Unfencing starts the self-test of a FENCED half whose patch is good. A command that does not apply sets
CMD_IGNORED and does nothing else. A half in self-test becomes ACTIVE when it passes while no clock change of its core waits, and
FAILED, with cause 6 and a fault record of code 0x02 or 0x03, when it does not pass. A clock command is held as the core's wanted clock;
it takes effect when both halves of the core are between units and every half fenced for it has passed its self-test, with the supply
voltage that the device then asks for; until then it has no effect. -/
def Obligations.HalfService : Prop :=
  (∀ (core e : Nat) (abort : Bool) (c : Instr) (s : State), s.live = true → core < 64 →
    (e = 0 ∧ c = .fenceDec core abort) ∨ (e = 1 ∧ c = .fenceEnc core abort) → (s.half (2 * core + e)).fstate = .active →
    ∃ t, exec c s = .next t ∧ (t.half (2 * core + e)).cause = 1 ∧ (t.half (2 * core + e)).abortF = abort ∧ (t.core core).mode = abort
      ∧ ((s.half (2 * core + e)).unit ≠ none → (t.half (2 * core + e)).fstate = .fencing)
      ∧ ((s.half (2 * core + e)).unit = none → (s.half (2 * core + e)).bank0 = .empty → (s.half (2 * core + e)).bank1 = .empty →
          (t.half (2 * core + e)).fstate = .fenced)
      ∧ (∀ u, abort = true → s.running? (2 * core + e) = some u → u.stage = .running (2 * core + e) → u.kind.onCore = true →
          (∀ w ∈ s.dsc.units, w.uid = u.uid → w = u) → (t.half (2 * core + e)).sent.contains (.fenceAbort, u.tag) = true)
      ∧ t = { s with cores := t.cores, dmv := t.dmv, dsc := t.dsc, halves := t.halves, mau := t.mau, pcf := t.pcf, sessions := t.sessions }) ∧
  (∀ (core e : Nat) (abort : Bool) (c : Instr) (s : State), s.live = true → core < 64 →
    (e = 0 ∧ c = .fenceDec core abort) ∨ (e = 1 ∧ c = .fenceEnc core abort) → (s.half (2 * core + e)).fstate ≠ .active →
    ∃ t, exec c s = .next t ∧ t.core core = { s.core core with mode := abort, ignored := true }
      ∧ (∀ k, k ≠ core → t.core k = s.core k) ∧ t = { s with cores := t.cores }) ∧
  (∀ (core e : Nat) (c : Instr) (s : State), s.live = true → core < 64 →
    (e = 0 ∧ c = .unfenceDec core) ∨ (e = 1 ∧ c = .unfenceEnc core) →
    (s.half (2 * core + e)).fstate = .fenced → (s.half (2 * core + e)).patchStatus < 2 →
    ∃ t, exec c s = .next t ∧ t.half (2 * core + e) = { s.half (2 * core + e) with fstate := .testing, passed := false }
      ∧ (∀ j, j ≠ 2 * core + e → t.half j = s.half j) ∧ t = { s with halves := t.halves }) ∧
  (∀ (core e : Nat) (c : Instr) (s : State), s.live = true → core < 64 →
    (e = 0 ∧ c = .unfenceDec core) ∨ (e = 1 ∧ c = .unfenceEnc core) →
    (s.half (2 * core + e)).fstate ≠ .fenced ∨ 2 ≤ (s.half (2 * core + e)).patchStatus →
    ∃ t, exec c s = .next t ∧ t.core core = { s.core core with ignored := true } ∧ (∀ k, k ≠ core → t.core k = s.core k)
      ∧ t = { s with cores := t.cores }) ∧
  (∀ (h : Nat) (s : State), s.up = true → isHalf h = true → (s.half h).fstate = .testing → (s.core (h / 2)).want = none →
    ∃ t, exec (.selfTestDone h .pass) s = .next t ∧ (t.half h).fstate = .active ∧ (t.half h).unit = (s.half h).unit
      ∧ (∀ j, j ≠ h → t.half j = s.half j) ∧ t = { s with halves := t.halves }) ∧
  (∀ (h code : Nat) (r : SelfTest) (s : State), s.up = true → isHalf h = true → (s.half h).fstate = .testing →
    (r = .failRom ∧ code = 0x02) ∨ (r = .failDatapath ∧ code = 0x03) →
    ∃ t, exec (.selfTestDone h r) s = .next t ∧ t.half h = { s.half h with fstate := .failed, cause := 6 }
      ∧ (∀ j, j ≠ h → t.half j = s.half j) ∧ Records s t code (s.reportClass code)
      ∧ (t.core (h / 2)).heldFor = without (s.core (h / 2)).heldFor h
      ∧ t = { s with cores := t.cores, fcl := t.fcl, free := s.free + 1, halves := t.halves }) ∧
  (∀ (h : Nat) (r : SelfTest) (s : State), (s.half h).fstate ≠ .testing → exec (.selfTestDone h r) s = .next s) ∧
  (∀ (core mhz : Nat) (s : State), s.live = true → core < 64 → 400 ≤ mhz → mhz ≤ 1800 →
    ∃ t, exec (.clockChange core mhz) s = .next t ∧ (t.core core).want = some mhz ∧ (t.core core).mhz = (s.core core).mhz
      ∧ (∀ k, k ≠ core → t.core k = s.core k) ∧ t = { s with cores := t.cores }) ∧
  (∀ (core mhz : Nat) (s : State), s.live = true → core < 64 → (s.core core).want = some mhz → s.clockFree core = true →
    ∃ t, exec (.clockSettled core) s = .next t ∧ (t.core core).mhz = mhz ∧ (t.core core).want = none ∧ (t.core core).changing = false
      ∧ (∀ k, k ≠ core → t.core k = s.core k) ∧ (∃ v, t.pins.vddMv = v ∧ t.out = s.out ++ [.avs v])
      ∧ (∀ j, j / 2 ≠ core → t.half j = s.half j)
      ∧ t = { s with cores := t.cores, free := s.free + 1, halves := t.halves, out := t.out, pins := { s.pins with vddMv := t.pins.vddMv } }) ∧
  (∀ (core : Nat) (s : State), s.clockFree core = false ∨ (s.core core).want = none → exec (.clockSettled core) s = .next s)

/-- A row request waits at the RCU with the bytes that its unit has spent, one per half; the RCU, when no plan occupies it, answers the
oldest, the lower half first among equals, 60 ns after it arrived at the earliest, and counts it; occupied, or with no request, it
answers none. A request with another count of bytes is none that the half sends, and does nothing. A plan request for the renditions of
a decoded picture waits at the RCU, once for a picture; a plan that is done stands in its session and counts, at the end of its service
time, and changes no other session. Invar's restart is recorded with code 0x03, and the fourth within a second with code 0x33 of class F
as well; the plans and requests it holds stand. -/
def Obligations.InvarRequests : Prop :=
  (∀ (h row : Nat) (u : WUnit) (p : Plan) (s : State), s.live = true → isHalf h = true → h % 2 = 1 → row ≠ 0 →
    s.running? h = some u → (s.sess u.session).plan? u.pic = some p →
    ∃ t, exec (.rcuRowRequest h row (s.spentOf u h)) s = .next t
      ∧ t.rcu = { s.rcu with rows := (s.rcu.rows.filter fun k => k.2.1 != h) ++ [(s.time, h, row, s.spentOf u h)] }
      ∧ (t.half h).rowQp = none ∧ (t.half h).rowWait = true
      ∧ (t.half h).stage1 = ((s.half h).stage1 || ((s.sess u.session).par.rcMode != 0 && decide ((p.segs.getD u.seg (0, 0, [])).2.1 ≤ s.spentOf u h)))
      ∧ (∀ j, j ≠ h → t.half j = s.half j) ∧ t = { s with halves := t.halves, rcu := t.rcu }) ∧
  (∀ (at_ h row spent : Nat) (u : WUnit) (s : State), s.live = true → s.rcu.busy = false → s.rcu.nextRow = some (at_, h, row, spent) →
    s.running? h = some u → (s.half h).rowWait = true →
    ∃ t, exec .rcuRowDecision s = .next t ∧ t.half h = { s.half h with rowQp := s.rowAnswer u h row spent, rowWait := false, qps := (t.half h).qps }
      ∧ t.rcu.rows = s.rcu.rows.filter (fun k => k.2.1 != h) ∧ t.rcu.rowsN = sat64 s.rcu.rowsN 1 ∧ t.time = max s.time (at_ + 60)
      ∧ (∀ j, j ≠ h → t.half j = s.half j) ∧ t = { s with aon := t.aon, halves := t.halves, rcu := t.rcu, time := t.time }) ∧
  (∀ (at_ h row spent : Nat) (s : State), s.rcu.nextRow = some (at_, h, row, spent) →
    (at_, h, row, spent) ∈ s.rcu.rows ∧ ∀ k ∈ s.rcu.rows, at_ < k.1 ∨ (at_ = k.1 ∧ h ≤ k.2.1)) ∧
  (∀ (s : State), s.rcu.busy = true ∨ s.rcu.rows = [] → exec .rcuRowDecision s = .next s) ∧
  (∀ (h row spent : Nat) (u : WUnit) (s : State), s.running? h = some u → spent ≠ s.spentOf u h →
    exec (.rcuRowRequest h row spent) s = .next s) ∧
  (∀ (n pic : Nat) (s : State), s.live = true → (s.sess n).par.encode = false → s.planPics n pic ≠ [] →
    (∀ p ∈ s.planPics n pic, s.mayPlan p.1 p.2 = true) → (∀ k ∈ s.rcu.plans, (k.2.1, k.2.2) ≠ (n, pic)) →
    ∃ t, exec (.rcuPlanRequest n pic) s = .next t ∧ t.rcu.plans = s.rcu.plans ++ [(s.time, n, pic)]
      ∧ t.rcu.busy = (s.rcu.busy || s.rcu.rows.isEmpty) ∧ t = { s with rcu := t.rcu }) ∧
  (∀ (at_ n pic m : Nat) (p : SrcPic) (maps : List MapRead) (s : State), s.live = true → s.rcu.busy = true → s.rcu.nextPlan = some (at_, n, pic) →
    ((s.planPics n pic).filter fun k => s.mayPlan k.1 k.2) = [(m, p)] →
    ∃ t, exec (.rcuPlanDone maps) s = .next t ∧ ((t.sess m).plan? p.index).isSome = true ∧ t.rcu.plansN = sat64 s.rcu.plansN 1
      ∧ t.rcu.plans = s.rcu.plans.filter (fun k => !(k.2.1 == n && k.2.2 == pic))
      ∧ t.time = max s.time (at_ + s.planCycles [(m, p)]) ∧ (∀ j, j ≠ m → t.sess j = s.sess j)
      ∧ t = { s with aon := t.aon, dsc := t.dsc, rcu := t.rcu, sessions := t.sessions, time := t.time }) ∧
  (∀ (s : State), s.live = true → (s.rcu.restarts.filter fun t => decide (s.time < t + 1000000000)).length < 3 →
    ∃ t, exec .invarRestart s = .next t ∧ Records s t 0x03 (s.reportClass 0x03)
      ∧ t.rcu.restarts = s.rcu.restarts.filter (fun k => decide (s.time < k + 1000000000)) ++ [s.time]
      ∧ t.rcu.plans = s.rcu.plans ∧ t.rcu.rows = s.rcu.rows ∧ t = { s with fcl := t.fcl, free := s.free + 1, rcu := t.rcu }) ∧
  (∀ (s : State), s.live = true → 3 ≤ (s.rcu.restarts.filter fun t => decide (s.time < t + 1000000000)).length →
    ∃ t r q, exec .invarRestart s = .next t ∧ t.fcl.inbox = s.fcl.inbox ++ [r, q] ∧ r.code = 0x03 ∧ q.code = 0x33 ∧ q.cls = 2
      ∧ t.rcu.plans = s.rcu.plans ∧ t.rcu.rows = s.rcu.rows ∧ t = { s with fcl := t.fcl, free := s.free + 1, rcu := t.rcu })

/-- A MAU unit that is done with its picture's planes leaves its engine and the in-flight table; a PCF pass that is done leaves its pipe
free, and its samples are counted. A parity error of an engine is recorded with code 0x03, and one of a pipe with code 0x01; an idle
engine or pipe at the policy's limit is disabled, but for the last engine, which is recorded with code 0x33 instead; the unit of a busy
engine is queued again or leaves, and below the limit of a pipe its LUT copy alone is lost. -/
def Obligations.EnginesAndPipes : Prop :=
  (∀ (e : Nat) (u : WUnit) (a : AnaPic) (src : Block) (prev : Plane) (ps : List Plane) (s : State), s.live = true → e < 8 → s.mauUnit? e = some u →
    s.mauInOrder u = true → s.ana? u.session u.pic = some a → s.badTiles u = [] → s.mauSource u src = some ps →
    ∃ t, exec (.mauUnitDone e src prev) s = .next t ∧ tblGet 0 t.mau.units e = 0
      ∧ (∀ p ∈ t.dsc.inflight, p.2 ≠ u.uid)) ∧
  (∀ (p : Nat) (u : WUnit) (e : QEntry) (luma chroma : List Byte) (poisoned : Bool) (ps : List Plane) (s : State), s.live = true → p < 16 →
    s.pcfUnit? p = some u → (s.queue u.q).entry? u.seq = some e → s.badTiles u = [] →
    s.passPlanes u e (s.passShape u) ⟨!poisoned, luma ++ chroma⟩ = some ps → s.lutOk u p = true →
    ∃ t, exec (.pcfPassDone p luma chroma poisoned) s = .next t ∧ tblGet 0 t.pcf.units p = 0 ∧ t.pcf.passes = sat64 s.pcf.passes 1
      ∧ t.pcf.outSamples = sat64 s.pcf.outSamples u.samples ∧ (∀ k ∈ t.dsc.inflight, k.2 ≠ u.uid)) ∧
  (∀ (e : Nat) (s : State), s.live = true → e < 8 → s.mauUnit? e = none → tblGet 0 s.mau.parity e + 1 < s.policy.unitLimit →
    ∃ t, exec (.mauParity e) s = .next t ∧ tblGet 0 t.mau.parity e = tblGet 0 s.mau.parity e + 1 ∧ t.mau.enable = s.mau.enable
      ∧ Records s t 0x03 (s.reportClass 0x03) ∧ t = { s with fcl := t.fcl, free := s.free + 1, mau := t.mau }) ∧
  (∀ (e : Nat) (u : WUnit) (s : State), s.live = true → e < 8 → s.mauUnit? e = some u → tblGet 0 s.mau.parity e + 1 < s.policy.unitLimit →
    ∃ t, exec (.mauParity e) s = .next t ∧ tblGet 0 t.mau.parity e = tblGet 0 s.mau.parity e + 1 ∧ tblGet 0 t.mau.units e = 0
      ∧ (∀ w ∈ t.dsc.units, w.uid = u.uid → w.queued = true)) ∧
  (∀ (e : Nat) (s : State), s.live = true → e < 8 → s.mauUnit? e = none → s.policy.unitLimit ≤ tblGet 0 s.mau.parity e + 1 →
    s.mau.enable &&& ~~~ BitVec.twoPow 8 e ≠ 0 →
    ∃ t, exec (.mauParity e) s = .next t ∧ t.mau.enable = s.mau.enable &&& ~~~ BitVec.twoPow 8 e
      ∧ Records s t 0x03 (s.reportClass 0x03) ∧ t = { s with fcl := t.fcl, free := s.free + 1, mau := t.mau }) ∧
  (∀ (e : Nat) (s : State), s.live = true → e < 8 → s.mauUnit? e = none → s.policy.unitLimit ≤ tblGet 0 s.mau.parity e + 1 →
    s.mau.enable &&& ~~~ BitVec.twoPow 8 e = 0 →
    ∃ t r k, exec (.mauParity e) s = .next t ∧ t.mau.enable = s.mau.enable ∧ t.fcl.inbox = s.fcl.inbox ++ [r, k] ∧ r.code = 0x03 ∧ k.code = 0x33
      ∧ t = { s with fcl := t.fcl, free := s.free + 1, mau := t.mau }) ∧
  (∀ (p : Nat) (s : State), s.live = true → p < 16 → s.pcfUnit? p = none → s.policy.unitLimit ≤ tblGet 0 s.pcf.parity p + 1 →
    s.pcf.enable &&& ~~~ BitVec.twoPow 16 p ≠ 0 →
    ∃ t, exec (.pcfParity p) s = .next t ∧ t.pcf.enable = s.pcf.enable &&& ~~~ BitVec.twoPow 16 p ∧ Records s t 0x01 0
      ∧ t = { s with fcl := t.fcl, free := s.free + 1, pcf := t.pcf }) ∧
  (∀ (p : Nat) (s : State), s.live = true → p < 16 → s.pcfUnit? p = none → tblGet 0 s.pcf.parity p + 1 < s.policy.unitLimit →
    ∃ t, exec (.pcfParity p) s = .next t ∧ t.pcf.parityN = sat32 s.pcf.parityN 1 ∧ tblGet false t.pcf.lutValid p = false
      ∧ t.pcf.enable = s.pcf.enable ∧ Records s t 0x01 0 ∧ t = { s with fcl := t.fcl, free := s.free + 1, pcf := t.pcf })

/-- Expanding what an engine stores for 256 samples of 12 bits gives the samples back, whatever follows the stored bytes. -/
def Obligations.TileCodec : Prop :=
  ∀ (chroma : Bool) (ss : List Nat) (rest : List Byte), ss.length = 256 → (∀ v ∈ ss, v < 4096) →
    (encodeTile chroma ss).1 < 256 ∧ (encodeTile chroma ss).2.length = 64 * ((encodeTile chroma ss).1 % 8)
      ∧ decodeTile chroma (encodeTile chroma ss).1 ((encodeTile chroma ss).2 ++ rest) = some ss

/-- A read delivers the tile's samples as its engine gives them, or 2,048 for each sample of an invalid tile, which is counted and, outside
the regions of the device, recorded and nothing else; a write of all samples counts the stored SIZE and changes device memory and what
notes its lines alone; a write of some samples, with room for it, waits in the merge buffer; a merge takes the tile from the buffer and
counts. A tile outside the device's memory does not exist, and a command on it faults (R399). Worked by hand from R243 to R246: a flat
tile of 2,048 is stored in its header byte alone; an invalid header byte is refused. -/
def Obligations.TileAccesses : Prop :=
  (∀ (r : TileRef) (ss : List Nat) (s : State), s.up = true → refValid r = true → s.noTile r = false → s.readTile r = some ss →
    exec (.tileRead r) s = .next (s.emit (.readData (ss.flatMap fun v => leBytes 2 v)))) ∧
  (∀ (r : TileRef) (s : State), s.up = true → refValid r = true → s.noTile r = false → s.readTile r = none →
    ∃ t os, exec (.tileRead r) s = .next t ∧ t.ntl.invalid = sat32 s.ntl.invalid 1
      ∧ t.out = s.out ++ os ++ [.readData ((List.replicate 256 2048).flatMap fun v => leBytes 2 v)]) ∧
  (∀ (r : TileRef) (s : State), s.up = true → refValid r = true → s.noTile r = false → s.readTile r = none → s.regionOf (lineOf (refAddr r)) 64 = none →
    ∃ t, exec (.tileRead r) s = .next t ∧ t.out = s.out ++ [.readData ((List.replicate 256 2048).flatMap fun v => leBytes 2 v)]
      ∧ t.ntl.invalid = sat32 s.ntl.invalid 1 ∧ Records s t 0x09 (s.reportClass 0x09)
      ∧ t = { s with fcl := t.fcl, ntl := t.ntl, out := t.out }) ∧
  (∀ (r : TileRef) (ws : List (Nat × Nat)) (s : State), s.up = true → refValid r = true → s.noTile r = false → (∀ p ∈ ws, p.1 < 256) →
    (∀ i, i < 256 → ∃ p ∈ ws, p.1 = i) → (∀ k ∈ s.mergeBuf (refEngine r), k.tile ≠ r) →
    ∃ t, exec (.tileWrite r ws) s = .next t
      ∧ t.ntl.tiles = (List.range 7).map (fun i => if i = (encodeTile r.isChroma (overlay (List.replicate 256 0) ws)).1 % 8
          then sat64 (s.ntl.tiles.getD i 0) 1 else s.ntl.tiles.getD i 0)
      ∧ t = { s with clusters := t.clusters, hlu := t.hlu, mem := t.mem, ntl := t.ntl, out := t.out }) ∧
  (∀ (r : TileRef) (ws : List (Nat × Nat)) (s : State), s.up = true → refValid r = true → s.noTile r = false → (∀ p ∈ ws, p.1 < 256) →
    (∃ i, i < 256 ∧ ∀ p ∈ ws, p.1 ≠ i) → (∀ k ∈ s.mergeBuf (refEngine r), k.tile ≠ r) → (s.mergeBuf (refEngine r)).length < 16 →
    ∃ t, exec (.tileWrite r ws) s = .next t ∧ t.mergeBuf (refEngine r) = s.mergeBuf (refEngine r) ++ [{ tile := r, samples := ws }]
      ∧ t.ntl.tiles = s.ntl.tiles ∧ t = { s with ntl := t.ntl }) ∧
  (∀ (r : TileRef) (k : MergeEnt) (s : State), s.up = true → refValid r = true → s.noTile r = false →
    ((s.mergeBuf (refEngine r)).find? fun m => m.tile == r) = some k →
    ∃ t, exec (.tileMerge r) s = .next t ∧ t.ntl.merges = sat64 s.ntl.merges 1 ∧ (∀ m ∈ t.mergeBuf (refEngine r), m.tile ≠ r)
      ∧ t = { s with clusters := t.clusters, fcl := t.fcl, hlu := t.hlu, mem := t.mem, ntl := t.ntl, out := t.out }) ∧
  (∀ (r : TileRef) (ws : List (Nat × Nat)) (c : Instr) (s : State), s.up = true → refValid r = true → s.noTile r = true →
    c = .tileRead r ∨ c = .tileWrite r ws ∨ c = .tileMerge r →
    exec c s = .fault (.noSuchAddress (max (refAddr r + 383) (refHeader r)))) ∧
  (encodeTile false (List.replicate 256 2048) = (128, []) ∧ decodeTile false 128 [] = some (List.replicate 256 2048)
    ∧ decodeTile false 7 [] = none ∧ decodeTile true 9 [] = none)

/-- A parity error in a reconstruction cache is counted and recorded as a class C fault of code 0x01, and changes no other cluster. Where
the cache holds the line it is read again with its whole tile, and the cache then holds each of the tile's lines; otherwise the cache
holds what it held. A Nitinol engine's parity error is recorded with code 0x01; one in its merge buffer with code 0x03, and the partial
tile leaves the buffer. A tile outside the device's memory does not exist, and the error faults. An error of a cluster port is recorded
as class UC, the cluster's cache is emptied and every active half of it is fenced in abort mode with cause 2. -/
def Obligations.UnitErrors : Prop :=
  (∀ (c a : Nat) (s : State), s.live = true → c < 8 →
    ∃ t, exec (.rcacheParity c a) s = .next t ∧ (t.cluster c).parity = sat32 (s.cluster c).parity 1 ∧ Records s t 0x01 0
      ∧ ((tblGet [] (s.cluster c).sets (lineOf a / 64 % 4096)).contains (lineOf a) = false → (t.cluster c).sets = (s.cluster c).sets)
      ∧ ((tblGet [] (s.cluster c).sets (lineOf a / 64 % 4096)).contains (lineOf a) = true →
          ∀ g ∈ s.tileGranules (lineOf a), g ∈ tblGet [] (t.cluster c).sets (g / 64 % 4096))
      ∧ (∀ d, d ≠ c → t.cluster d = s.cluster d) ∧ t = { s with clusters := t.clusters, fcl := t.fcl, free := s.free + 1 }) ∧
  (∀ (e a : Nat) (s : State), s.live = true → e < 32 →
    ∃ t, exec (.nitinolEngineError e false a) s = .next t ∧ Records s t 0x01 0 ∧ t = { s with fcl := t.fcl, free := s.free + 1 }) ∧
  (∀ (e a : Nat) (s : State), s.live = true → e < 32 → a + 384 ≤ s.memSize →
    ∃ t r, exec (.nitinolEngineError e true a) s = .next t ∧ r ∈ t.fcl.inbox ∧ r.code = 0x03 ∧ (∀ m ∈ t.mergeBuf e, refAddr m.tile ≠ a)) ∧
  (∀ (e a : Nat) (s : State), s.live = true → s.memSize < a + 384 →
    exec (.nitinolEngineError e true a) s = .fault (.noSuchAddress a)) ∧
  (∀ (c : Nat) (s : State), s.live = true → c < 8 →
    ∃ t, exec (.clusterPortError c) s = .next t ∧ Records s t 0x03 (s.reportClass 0x03) ∧ (t.cluster c).sets = []
      ∧ (∀ i, i < 16 → (s.half (16 * c + i)).fstate = .active →
          (t.half (16 * c + i)).cause = 2 ∧ (t.half (16 * c + i)).abortF = true
            ∧ ((t.half (16 * c + i)).fstate = .fencing ∨ (t.half (16 * c + i)).fstate = .fenced))
      ∧ (∀ d, d ≠ c → t.cluster d = s.cluster d)
      ∧ t = { s with clusters := t.clusters, cores := t.cores, dmv := t.dmv, dsc := t.dsc, fcl := t.fcl, free := s.free + 1, halves := t.halves, mau := t.mau,
                     pcf := t.pcf, sessions := t.sessions })

/-- A cluster port grants the requester with the most credit, the lower number among equals, and charges it its granules. A foreground
transaction that asks an active channel alone is granted, joins its queue and is charged; a scrub or migration transaction that its
background counter covers is granted and joins the granules that its process may move; a foreground transaction that finds the queue or
its port's share full backs off for 8 fabric cycles, then twice as long each time up to 1,024; the end of a backoff lets the port ask
again; a refill adds each port's weight; MFX_WEIGHT takes 1 to 1,023. -/
def Obligations.FabricArbitration : Prop :=
  (∀ (c : Nat) (reqs : List (Nat × Txn)) (s : State), s.live = true → c < 8 → (∀ r ∈ reqs, r.2.addr < s.memSize) →
    (∃ r ∈ reqs, r.1 < 17) →
    ∃ t w, exec (.portGrant c reqs) s = .next t ∧ w ∈ reqs ∧ w.1 < 17
      ∧ (∀ r ∈ reqs, r.1 < 17 → tblGet 0 (s.cluster c).credits r.1 < tblGet 0 (s.cluster c).credits w.1
          ∨ (tblGet 0 (s.cluster c).credits r.1 = tblGet 0 (s.cluster c).credits w.1 ∧ w.1 ≤ r.1))
      ∧ tblGet 0 (t.cluster c).credits w.1 = clampCredit 16 (tblGet 0 (s.cluster c).credits w.1 - (w.2.granules : Int))
      ∧ (∀ p, p ≠ w.1 → tblGet 0 (t.cluster c).credits p = tblGet 0 (s.cluster c).credits p)
      ∧ (∀ d, d ≠ c → t.cluster d = s.cluster d) ∧ t = { s with clusters := t.clusters }) ∧
  (∀ (k : Nat) (x : Txn) (s : State), s.live = true → k < 16 → x.addr < s.memSize → x.port < 12 → channelOf x.addr = k →
    tblGet 0 (s.chn k).waitTill x.port = 0 → (s.chn k).state = 1 → (s.chn k).calPend = false → (s.chn k).refuses x.port = false →
    ∃ t, exec (.ingressGrant k [x]) s = .next t
      ∧ (∃ q, (t.chn k).queue = (s.chn k).queue ++ [q] ∧ q.port = x.port ∧ q.id = x.id ∧ q.write = x.write ∧ q.addr = x.addr
          ∧ q.gran = x.granules)
      ∧ tblGet 0 (t.chn k).credits x.port = clampCredit ((s.chn k).inForce ((s.chn k).weightOf x.port))
          (tblGet 0 (s.chn k).credits x.port - (x.granules : Int))
      ∧ (∀ p, p ≠ x.port → tblGet 0 (t.chn k).credits p = tblGet 0 (s.chn k).credits p) ∧ tblGet 0 (t.chn k).backoff x.port = 0
      ∧ (∀ j, j ≠ k → t.chn j = s.chn j) ∧ t = { s with mem := t.mem }) ∧
  (∀ (k : Nat) (x : Txn) (s : State), s.live = true → k < 16 → x.addr < s.memSize → x.port < 12 → channelOf x.addr = k →
    tblGet 0 (s.chn k).waitTill x.port = 0 → (s.chn k).state = 1 → (s.chn k).calPend = false → (s.chn k).refuses x.port = true →
    ∃ t, exec (.ingressGrant k [x]) s = .next t ∧ (t.chn k).queue = (s.chn k).queue
      ∧ tblGet 0 (t.chn k).backoff x.port = (if tblGet 0 (s.chn k).backoff x.port = 0 then 8
          else min 1024 (2 * tblGet 0 (s.chn k).backoff x.port))
      ∧ t.mem.backoffs = sat32 s.mem.backoffs 1 ∧ (∀ j, j ≠ k → t.chn j = s.chn j) ∧ t = { s with mem := t.mem }) ∧
  (∀ (k : Nat) (x : Txn) (s : State), s.live = true → k < 16 → x.addr < s.memSize → x.port = 12 ∨ x.port = 13 → channelOf x.addr = k →
    tblGet 0 (s.chn k).waitTill x.port = 0 → (s.chn k).state = 1 → (s.chn k).calPend = false → (s.chn k).refuses x.port = false →
    (x.granules : Int) ≤ tblGet 0 (s.chn k).bgCredit (x.port - 12) →
    ∃ t, exec (.ingressGrant k [x]) s = .next t
      ∧ (∃ q, (t.chn k).queue = (s.chn k).queue ++ [q] ∧ q.port = x.port ∧ q.id = x.id ∧ q.write = x.write ∧ q.addr = x.addr
          ∧ q.gran = x.granules)
      ∧ tblGet 0 (t.chn k).bgCredit (x.port - 12) = tblGet 0 (s.chn k).bgCredit (x.port - 12) - (x.granules : Int)
      ∧ tblGet 0 (t.chn k).served (x.port - 12) = tblGet 0 (s.chn k).served (x.port - 12) + x.granules
      ∧ (t.chn k).credits = (s.chn k).credits ∧ (∀ j, j ≠ k → t.chn j = s.chn j) ∧ t = { s with mem := t.mem }) ∧
  (∀ (k p : Nat) (s : State), s.live = true → k < 16 → tblGet 0 (s.chn k).waitTill p ≠ 0 →
    ∃ t, exec (.backoffExpiry k p) s = .next t ∧ tblGet 0 (t.chn k).waitTill p = 0
      ∧ t.time = max s.time (ceilDiv (tblGet 0 (s.chn k).waitTill p - 1) 2) ∧ (t.chn k).queue = (s.chn k).queue
      ∧ (∀ j, j ≠ k → t.chn j = s.chn j) ∧ t = { s with aon := t.aon, mem := t.mem, time := t.time }) ∧
  (∀ (k : Nat) (s : State), s.live = true → k < 16 →
    ∃ t, exec (.creditRefill k) s = .next t
      ∧ (∀ p, p < 12 → tblGet 0 (t.chn k).credits p = clampCredit ((s.chn k).inForce ((s.chn k).weightOf p))
          (tblGet 0 (s.chn k).credits p + ((s.chn k).inForce ((s.chn k).weightOf p) : Int)))
      ∧ (t.chn k).queue = (s.chn k).queue ∧ (∀ j, j ≠ k → t.chn j = s.chn j) ∧ t = { s with mem := t.mem }) ∧
  (∀ (k p : Nat) (v : Word) (s : State), s.fnLive 0 = true → k < 16 → p < 12 →
    ∃ t, exec (.mfxWeightWrite k p v) s = .next t ∧ (t.chn k).weightOf p = max 1 (v.toNat % 1024)
      ∧ (∀ r, r ≠ p → (t.chn k).weightOf r = (s.chn k).weightOf r)
      ∧ tblGet 0 (t.chn k).credits p = clampCredit ((s.chn k).inForce (max 1 (v.toNat % 1024))) (tblGet 0 (s.chn k).credits p)
      ∧ (∀ j, j ≠ k → t.chn j = s.chn j) ∧ t = { s with mem := t.mem })

/-- A queued write that waits for no host answer is in memory once acknowledged, byte for byte, except in a retired page, which a record
tells of; no other byte changes. While a line needs the host's answer nothing is written; an address outside memory faults. -/
def Obligations.WriteAcknowledge : Prop :=
  (∀ (k id a : Nat) (data : List Byte) (q : QTxn) (s : State), s.live = true → k < 16 → a + data.length ≤ s.memSize →
    q ∈ (s.chn k).queue → q.write = true → q.id = id → q.addr / 64 ≤ a / 64 → a + data.length ≤ (q.addr / 64 + q.gran) * 64 →
    s.snoopNeeded (linesOf a data.length) = [] → s.biasNeeded (linesOf a data.length) = [] →
    ∃ t, exec (.writeAck k id a data) s = .next t
      ∧ (∀ i, i < data.length → s.retiredAt (a + i) = false → t.byteAt (a + i) = data.getD i 0)
      ∧ (∀ j, j < a ∨ a + data.length ≤ j → t.byteAt j = s.byteAt j)
      ∧ (s.touchesRetired a data.length = true → Records s t 0x07 (s.reportClass 0x07))
      ∧ (s.touchesRetired a data.length = false → t.fcl = s.fcl)
      ∧ t = { s with clusters := t.clusters, fcl := t.fcl, hlu := t.hlu, mem := t.mem }) ∧
  (∀ (k id a : Nat) (data : List Byte) (s : State), s.live = true → k < 16 → a + data.length ≤ s.memSize →
    s.snoopNeeded (linesOf a data.length) ≠ [] →
    ∃ t, exec (.writeAck k id a data) s = .next t ∧ t.mem = s.mem ∧ t = { s with hlu := t.hlu, out := t.out }) ∧
  (∀ (k id a : Nat) (data : List Byte) (s : State), s.memSize < a + data.length →
    exec (.writeAck k id a data) s = .fault (.noSuchAddress a))

/-- The transaction the scheduler picks wakes its rank, opens its row, or leaves the queue with its column command. A clean read changes
nothing; a corrected error is counted and recorded as class C while the threshold is not reached; a read of a retired page, and an
uncorrectable one, are recorded; a granted scrub read moves the scrub's position to the next line that serves; once an hour every
correctable count is halved. -/
def Obligations.DramTransactions : Prop :=
  (∀ (k : Nat) (x : QTxn) (s : State), s.live = true → k < 16 → (s.chn k).issues = true → s.pick (s.chn k) = some x →
    (bankRank (s.bankOf x.addr) ∈ (s.chn k).pdown →
      ∃ t, exec (.dramCommand k) s = .next t ∧ bankRank (s.bankOf x.addr) ∉ (t.chn k).pdown ∧ (t.chn k).queue = (s.chn k).queue
        ∧ (∀ j, j ≠ k → t.chn j = s.chn j) ∧ t = { s with mem := t.mem }) ∧
    (bankRank (s.bankOf x.addr) ∉ (s.chn k).pdown → s.rowOpen (s.chn k) x = true →
      ∃ t, exec (.dramCommand k) s = .next t ∧ (t.chn k).queue = (s.chn k).queue.filter (fun q => q.arrived != x.arrived)
        ∧ (t.chn k).openRow = (s.chn k).openRow ∧ (∀ j, j ≠ k → t.chn j = s.chn j) ∧ t = { s with mem := t.mem }) ∧
    (bankRank (s.bankOf x.addr) ∉ (s.chn k).pdown → s.rowOpen (s.chn k) x = false →
      ∃ t, exec (.dramCommand k) s = .next t ∧ tblGet 0 (t.chn k).openRow (s.bankOf x.addr) = rowOf x.addr + 1
        ∧ (t.chn k).queue = (s.chn k).queue ∧ (∀ j, j ≠ k → t.chn j = s.chn j) ∧ t = { s with mem := t.mem })) ∧
  (∀ (k a : Nat) (s : State), a < s.memSize → s.retiredAt a = false → exec (.dramReadData k a .clean) s = .next s) ∧
  (∀ (a : Nat) (s : State), s.live = true → a < s.memSize → s.retiredAt a = false →
    min 65535 (tblGet 0 (s.chn (channelOf a)).ce (s.servingRank a) + 1) < (s.chn (channelOf a)).thresh →
    ∃ t, exec (.dramReadData (channelOf a) a .corrected) s = .next t ∧ Records s t 0x06 0
      ∧ tblGet 0 (t.chn (channelOf a)).ce (s.servingRank a) = min 65535 (tblGet 0 (s.chn (channelOf a)).ce (s.servingRank a) + 1)
      ∧ (∀ j, j ≠ channelOf a → t.chn j = s.chn j) ∧ t = { s with fcl := t.fcl, mem := t.mem }) ∧
  (∀ (a : Nat) (r : EccResult) (s : State), s.live = true → a < s.memSize → s.retiredAt a = true →
    ∃ t, exec (.dramReadData (channelOf a) a r) s = .next t ∧ Records s t 0x07 (s.reportClass 0x07) ∧ t = { s with fcl := t.fcl }) ∧
  (∀ (a : Nat) (s : State), s.live = true → a < s.memSize → s.retiredAt a = false →
    ∃ t r, exec (.dramReadData (channelOf a) a .uncorrectable) s = .next t ∧ r ∈ t.fcl.inbox ∧ r.code = 0x07
      ∧ r.source = 0xB0 + channelOf a) ∧
  (∀ (k a : Nat) (r : EccResult) (s : State), s.memSize ≤ a → exec (.dramReadData k a r) s = .fault (.noSuchAddress a)) ∧
  (∀ (k pos q : Nat) (s : State), s.live = true → k < 16 → (s.chn k).scrubEn = true → (s.chn k).state = 1 → s.mem.trained.isSome = true →
    (s.chn k).hasServed 0 1 = true → s.scrubNext k 5 (s.chn k).scrubPos = some pos → s.scrubNext k 5 (pos + 64) = some q →
    ∃ t, exec (.patrolScrubRead k .clean) s = .next t ∧ t.chn k = { s.chn k with scrubPos := q, served := (t.chn k).served }
      ∧ tblGet 0 (t.chn k).served 0 = tblGet 0 (s.chn k).served 0 - 1 ∧ (∀ j, j ≠ k → t.chn j = s.chn j)
      ∧ t = { s with mem := t.mem }) ∧
  (∀ (s : State), s.up = true →
    ∃ t, exec .ceWindowEnd s = .next t ∧ (∀ k r, k < 16 → r < 4 → tblGet 0 (t.chn k).ce r = tblGet 0 (s.chn k).ce r / 2)
      ∧ t = { s with mem := t.mem })

/-- A refresh of a busy rank is postponed until three are owed and issued otherwise, which closes the rank's rows; a channel calibrates once
its queue is empty, and is active again when it has. Above 95 °C a channel's weights are halved until 90 °C, with one record an
excursion, and above 85 °C its refresh is doubled; an idle rank powers down; a channel enters self-refresh in two moments once all is
asleep, and a request between them abandons it. -/
def Obligations.DramUpkeep : Prop :=
  (∀ (k r : Nat) (s : State), s.live = true → k < 16 → r < s.physRanks → (s.chn k).issues = true → s.rankBusy (s.chn k) r = true →
    tblGet 0 (s.chn k).owed r < 3 →
    ∃ t, exec (.refreshDue k r) s = .next t ∧ tblGet 0 (t.chn k).owed r = tblGet 0 (s.chn k).owed r + 1
      ∧ (t.chn k).openRow = (s.chn k).openRow ∧ (∀ j, j ≠ k → t.chn j = s.chn j) ∧ t = { s with mem := t.mem }) ∧
  (∀ (k r : Nat) (s : State), s.live = true → k < 16 → r < s.physRanks → (s.chn k).issues = true →
    s.rankBusy (s.chn k) r = false ∨ 3 ≤ tblGet 0 (s.chn k).owed r →
    ∃ t, exec (.refreshDue k r) s = .next t ∧ tblGet 0 (t.chn k).owed r = 0 ∧ (∀ b, bankRank b = r → tblGet 0 (t.chn k).openRow b = 0)
      ∧ (t.chn k).queue = (s.chn k).queue ∧ (∀ j, j ≠ k → t.chn j = s.chn j) ∧ t = { s with mem := t.mem }) ∧
  (∀ (k : Nat) (s : State), s.live = true → k < 16 → (s.chn k).state ≠ 2 →
    ∃ t, exec (.calibrationDue k) s = .next t ∧ (t.chn k).calPend = true
      ∧ (t.chn k).state = (if (s.chn k).state = 1 ∧ (s.chn k).queue = [] then 2 else (s.chn k).state)
      ∧ t.time = max s.time (max (s.chn k).calNext (k * 16000000)) ∧ (∀ j, j ≠ k → t.chn j = s.chn j)
      ∧ t = { s with aon := t.aon, mem := t.mem, time := t.time }) ∧
  (∀ (k : Nat) (s : State), s.live = true → (s.chn k).state = 2 →
    ∃ t, exec (.calibrationDone k) s = .next t ∧ t.chn k = { s.chn k with state := 1, calPend := false }
      ∧ (∀ j, j ≠ k → t.chn j = s.chn j) ∧ t = { s with mem := t.mem }) ∧
  (∀ (k : Nat) (temp : Int) (s : State), s.live = true → k < 16 →
    ∃ t, exec (.dimmThermalRead k temp) s = .next t ∧ (t.chn k).temp = temp ∧ (t.chn k).hot = decide (85 < temp)
      ∧ (t.chn k).throttled = (if 95 < temp then true else if temp ≤ 90 then false else (s.chn k).throttled)
      ∧ ((t.chn k).throttled = true → (s.chn k).throttled = false → Records s t 0x0C 0)
      ∧ ((t.chn k).throttled = (s.chn k).throttled ∨ (t.chn k).throttled = false → t.fcl = s.fcl)
      ∧ (∀ j, j ≠ k → t.chn j = s.chn j) ∧ t = { s with fcl := t.fcl, mem := t.mem }) ∧
  (∀ (k r : Nat) (s : State), s.live = true → k < 16 → r < s.physRanks → (s.chn k).state = 1 → (s.chn k).pdIdle ≠ 0 →
    s.rankBusy (s.chn k) r = false → r ∉ (s.chn k).pdown →
    ∃ t, exec (.powerDownEntry k r) s = .next t ∧ (t.chn k).pdown = (s.chn k).pdown ++ [r]
      ∧ (∀ b, bankRank b = r → tblGet 0 (t.chn k).openRow b = 0) ∧ (∀ b, bankRank b ≠ r → tblGet 0 (t.chn k).openRow b
          = tblGet 0 (s.chn k).openRow b) ∧ (∀ j, j ≠ k → t.chn j = s.chn j) ∧ t = { s with mem := t.mem }) ∧
  (∀ (k : Nat) (s : State), s.live = true → k < 16 → (s.chn k).state = 1 → s.allAsleep = true → (s.chn k).calPend = false →
    ∃ t, exec (.selfRefreshEntry k) s = .next t ∧ t.chn k = { s.chn k with state := 3 } ∧ t.time = max s.time ((s.chn k).lastAt + 10000)
      ∧ (∀ j, j ≠ k → t.chn j = s.chn j) ∧ t = { s with aon := t.aon, mem := t.mem, time := t.time }) ∧
  (∀ (k : Nat) (s : State), s.live = true → k < 16 → (s.chn k).state = 3 → (s.chn k).queue = [] →
    ∃ t, exec (.selfRefreshEntry k) s = .next t ∧ t.chn k = { s.chn k with state := 4, openRow := [], pdown := [], srAt := s.time }
      ∧ (∀ j, j ≠ k → t.chn j = s.chn j) ∧ t = { s with mem := t.mem }) ∧
  (∀ (k : Nat) (s : State), s.live = true → k < 16 → (s.chn k).state = 3 →
    ∃ t, exec (.selfRefreshExit k) s = .next t ∧ t.chn k = { s.chn k with state := 1, sreAborts := sat32 (s.chn k).sreAborts 1 }
      ∧ (∀ j, j ≠ k → t.chn j = s.chn j) ∧ t = { s with mem := t.mem }) ∧
  (∀ (k : Nat) (s : State), s.live = true → k < 16 → (s.chn k).state = 4 →
    ∃ t, exec (.selfRefreshExit k) s = .next t ∧ t.chn k = { s.chn k with state := if (s.chn k).calPend then 2 else 1 }
      ∧ (s.chn k).srAt ≤ t.time ∧ (∀ j, j ≠ k → t.chn j = s.chn j) ∧ t = { s with aon := t.aon, mem := t.mem, time := t.time })

/-- A migration copies 4 KiB at a time, out of the granules granted to it; after the last block the spare holds the stripe, the failing rank
is out of service and a record waits for the boot flash, where the firmware writes it. -/
def Obligations.Migration : Prop :=
  (∀ (k : Nat) (m : Mig) (s : State), s.live = true → k < 16 → (s.chn k).state = 1 → (s.chn k).calPend = false → (s.chn k).mig = some m →
    (s.chn k).hasServed 1 128 = true → m.p + 4096 < s.rankSize →
    ∃ t, exec (.migrationCopy k 0 .clean) s = .next t ∧ t.chn k = { s.chn k with mig := some { m with p := m.p + 4096, mask := 0 }, served := (t.chn k).served }
      ∧ tblGet 0 (t.chn k).served 1 = tblGet 0 (s.chn k).served 1 - 128
      ∧ (∀ j, j ≠ k → t.chn j = s.chn j) ∧ t = { s with mem := t.mem }) ∧
  (∀ (k : Nat) (m : Mig) (s : State), s.live = true → k < 16 → (s.chn k).state = 1 → (s.chn k).calPend = false → (s.chn k).mig = some m →
    (s.chn k).hasServed 1 128 = true → s.rankSize ≤ m.p + 4096 →
    ∃ t, exec (.migrationCopy k 0 .clean) s = .next t ∧ (t.chn k).mig = none ∧ (t.chn k).onSpare = some m.stripe
      ∧ (t.chn k).spareUsed = true ∧ (t.chn k).outRanks = (s.chn k).outRanks ||| BitVec.twoPow 4 m.rank
      ∧ t.mem.pendRec = s.mem.pendRec ++ [(k, m.stripe, s.physRanks - 1, false)] ∧ Records s t 0x0A 0
      ∧ t = { s with clusters := t.clusters, evq := t.evq, fcl := t.fcl, funcs := t.funcs, hlu := t.hlu, imb := t.imb, mem := t.mem,
                     out := t.out }) ∧
  (∀ (f : Flash) (s : State), s.up = true → s.fcl.mpFenced ≠ 3 → s.boot.flash = some f →
    exec .rankRecordWrite s = .next { s with
      boot := { s.boot with flash := some { f with rankRecs := f.rankRecs ++ s.mem.pendRec } }, mem := { s.mem with pendRec := [] } })

/-- The device address of channel k's offset o, and back: what the address map says of a page and of its inverse. -/
def Obligations.AddressMap : Prop :=
  (∀ (k o : Nat), k < 16 → channelOf (addressOf k o) = k ∧ offsetOf (addressOf k o) = o) ∧
  (∀ (a : Nat), addressOf (channelOf a) (offsetOf a) = a ∧ channelOf a < 16)

/-- Enabling a DISABLED channel makes it RUNNING with the fields written; disabling one drops what has not started and leaves it STOPPING,
or DISABLED where nothing is left; a VECTOR out of range discards the write and is recorded; DMV_CH_BASE is taken, with NEXT at 0, only
while ENABLE is 0; a doorbell makes an IDLE channel run. A descriptor read that fails stops the channel with cause 6, and a malformed
descriptor with its cause, each recorded with code 0x21; a well-formed descriptor without an allocation that the device owns joins those
in progress, and one outside what its function is granted has failed before its first burst; one the device does not own makes the
channel IDLE. The only descriptor in progress of a channel, finished without a failure and asking no interrupt, is written back to its
place in the ring as Desc.written gives its bytes, leaves the channel and is counted. -/
def Obligations.ChannelDescriptors : Prop :=
  (∀ (fn l : Nat) (v : Word) (s : State), s.chanLive fn l = true → v.getLsbD 31 = true → v.toNat % 2048 < (s.fnRec fn).vectors →
    (s.chan (s.chanOf fn l)).state = .disabled → (s.chan (s.chanOf fn l)).enable = false →
    ∃ t, exec (.channelEnable fn l v) s = .next t ∧ (t.chan (s.chanOf fn l)).state = .running ∧ (t.chan (s.chanOf fn l)).enable = true
      ∧ (t.chan (s.chanOf fn l)).cause = 0 ∧ (t.chan (s.chanOf fn l)).vector = v.toNat % 2048
      ∧ (t.chan (s.chanOf fn l)).stopOnFail = v.getLsbD 30 ∧ (t.chan (s.chanOf fn l)).depthLog = clampNat 4 16 (v.toNat / 2 ^ 25 % 32)
      ∧ (t.chan (s.chanOf fn l)).base = (s.chan (s.chanOf fn l)).base ∧ (∀ g, g ≠ s.chanOf fn l → t.chan g = s.chan g)
      ∧ t = { s with dmv := t.dmv }) ∧
  (∀ (fn l : Nat) (v : Word) (s : State), s.chanLive fn l = true → v.getLsbD 31 = false → v.toNat % 2048 < (s.fnRec fn).vectors →
    (s.chan (s.chanOf fn l)).state = .running ∨ (s.chan (s.chanOf fn l)).state = .idle →
    ∃ t, exec (.channelDisable fn l v) s = .next t ∧ (t.chan (s.chanOf fn l)).enable = false
      ∧ (∀ d ∈ (t.chan (s.chanOf fn l)).inprog, d.started = true)
      ∧ (t.chan (s.chanOf fn l)).state = (if (s.chan (s.chanOf fn l)).inprog.any (fun d => d.started) then .stopping else .disabled)
      ∧ (∀ g, g ≠ s.chanOf fn l → t.chan g = s.chan g) ∧ t = { s with dmv := t.dmv }) ∧
  (∀ (fn l : Nat) (v : Word) (c : Instr) (s : State), s.chanLive fn l = true → (s.fnRec fn).vectors ≤ v.toNat % 2048 →
    c = .channelEnable fn l v ∨ c = .channelDisable fn l v →
    ∃ t, exec c s = .next t ∧ Records s t 0x20 3 ∧ t = { s with fcl := t.fcl }) ∧
  (∀ (fn l : Nat) (v : DWord) (s : State), s.chanLive fn l = true →
    ∃ t, exec (.dmvChBaseWrite fn l v) s = .next t
      ∧ t.chan (s.chanOf fn l) = (if (s.chan (s.chanOf fn l)).enable then s.chan (s.chanOf fn l)
          else { s.chan (s.chanOf fn l) with base := v, next := 0 })
      ∧ (∀ g, g ≠ s.chanOf fn l → t.chan g = s.chan g)
      ∧ tblGet false t.heldV (pairKey fn (pageBase fn 0x2400000 0x22000 + 0x400 + 0x20 * l)) = false
      ∧ t = { s with dmv := t.dmv, heldV := t.heldV, heldW := t.heldW }) ∧
  (∀ (fn l : Nat) (v : Word) (s : State), s.chanLive fn l = true →
    ∃ t, exec (.dmvChDb fn l v) s = .next t
      ∧ (t.chan (s.chanOf fn l)).state = (if (s.chan (s.chanOf fn l)).state = .idle then .running else (s.chan (s.chanOf fn l)).state)
      ∧ (t.chan (s.chanOf fn l)).inprog = (s.chan (s.chanOf fn l)).inprog
      ∧ (∀ g, g ≠ s.chanOf fn l → t.chan g = s.chan g) ∧ t = { s with dmv := t.dmv }) ∧
  (∀ (g : Nat) (d : BitVec 256) (s : State), s.chanActive g = true → (s.chan g).state = .running → (s.chan g).inprog = [] →
    (s.chan g).space = 0 →
    (∃ t, exec (.descriptorRead g false [d]) s = .next t ∧ (t.chan g).state = .error ∧ (t.chan g).cause = 6 ∧ Records s t 0x21 3
      ∧ (∀ k, k ≠ g → t.chan k = s.chan k)
      ∧ t = { s with dmv := t.dmv, fcl := t.fcl, funcs := t.funcs, hlu := t.hlu, imb := t.imb, out := t.out }) ∧
    (d.getLsbD 0 = false → (s.chan g).bell = false → ∃ t, exec (.descriptorRead g true [d]) s = .next t
      ∧ t.chan g = { s.chan g with state := .idle } ∧ (∀ k, k ≠ g → t.chan k = s.chan k) ∧ t = { s with dmv := t.dmv }) ∧
    (∀ k, d.getLsbD 0 = true → s.descCause (s.fnOfChan g) d = some k → ∃ t, exec (.descriptorRead g true [d]) s = .next t
      ∧ (t.chan g).state = .error ∧ (t.chan g).cause = k ∧ (t.chan g).inprog = [] ∧ (t.chan g).next = (s.chan g).next ∧ Records s t 0x21 3
      ∧ t = { s with dmv := t.dmv, fcl := t.fcl, funcs := t.funcs, hlu := t.hlu, imb := t.imb, out := t.out }) ∧
    (d.getLsbD 0 = true → d.getLsbD 3 = false → s.descCause (s.fnOfChan g) d = none →
      ∃ t, exec (.descriptorRead g true [d]) s = .next t
        ∧ (∃ e, (t.chan g).inprog = [e] ∧ e.raw = d ∧ e.slot = (s.chan g).next ∧ e.started = true ∧ e.rdDone = 0
            ∧ (s.descGranted (s.fnOfChan g) e = false → e.failed = true ∧ e.status = 0x11 ∧ e.cause = 0x23)
            ∧ (s.descGranted (s.fnOfChan g) e = true → e.failed = false))
        ∧ (t.chan g).next = ((s.chan g).next + 1) % (2 * (s.chan g).depth) ∧ (t.chan g).state = .running
        ∧ (∀ k, k ≠ g → t.chan k = s.chan k) ∧ t = { s with dmv := t.dmv })) ∧
  (∀ (g : Nat) (d : Desc) (s : State), s.live = true → (s.chan g).inprog = [d] → s.descReady d = true → d.failed = false → d.intr = false →
    (s.chan g).space = 0 → (s.func (s.fnOfChan g)).flr = false → (s.func (s.fnOfChan g)).d3 = false → s.linkPasses = true →
    s.relaxedFor (s.fnOfChan g) = false →
    ∃ t, exec (.descriptorWriteback g) s = .next t ∧ (t.chan g).inprog = [] ∧ (t.chan g).done = (s.chan g).done + 1
      ∧ t.out = s.out ++ [.hostWrite (s.fnOfChan g) ((s.chan g).base.toNat + d.slot % (s.chan g).depth * 32) d.written false]
      ∧ (∀ k, k ≠ g → t.chan k = s.chan k) ∧ t = { s with dmv := t.dmv, hlu := t.hlu, out := t.out })

/-- The read engine takes bursts into slots that wait for their bytes, none across a 4 KiB boundary of its source. A burst of host memory
that returns fills the oldest slot that waits of its user, and counts its bytes; one that returns poisoned fails its descriptor. A write
request to host memory takes from a filled slot no more than 512 bytes, or Max_Payload_Size where that is smaller and at least 128,
within one block of that many bytes, and host memory gets them. A user without a slot issues none. -/
def Obligations.Bursts : Prop :=
  (∀ (n : Nat) (s : State), ∃ xs, (s.takeBursts n).dmv.slots = s.dmv.slots ++ xs
    ∧ ∀ x ∈ xs, x.waiting = true ∧ x.reread = false ∧ x.src % 4096 + x.bytes.length ≤ 4096) ∧
  (∀ (g : Nat) (x : Slot) (data : List Byte) (s : State), s.live = true →
    (((s.takeBursts 384).slotsOf (.channel g)).find? fun y => y.waiting) = some x → x.srcSpace = 0 → data.length = x.bytes.length →
    ∃ t, exec (.readBurstDone (.channel g) false data) s = .next t
      ∧ t.dmv.slots = (s.takeBursts 384).dmv.slots.map (fun y => if y = x then { y with waiting := false, bytes := data } else y)
      ∧ t.dmv.bytesRd = sat64 s.dmv.bytesRd data.length ∧ t = { s with dmv := t.dmv }) ∧
  (∀ (g : Nat) (x : Slot) (data : List Byte) (s : State), s.live = true →
    (((s.takeBursts 384).slotsOf (.channel g)).find? fun y => y.waiting) = some x → x.srcSpace = 0 →
    ∃ t, exec (.readBurstDone (.channel g) true data) s = .next t
      ∧ (∀ d ∈ (t.chan g).inprog, d.slot = x.desc → d.failed = true ∧ d.status = 0xF0 ∧ d.cause = 0x30)
      ∧ (∀ y ∈ t.dmv.slots, y.user = .channel g → y.desc ≠ x.desc) ∧ t = { s with dmv := t.dmv }) ∧
  (∀ (g m n : Nat) (x : Slot) (xs : List Slot) (s : State), s.live = true → s.slotsOf (.channel g) = x :: xs → x.waiting = false → x.space = 0 →
    (s.func (s.fnOfChan g)).flr = false → (s.func (s.fnOfChan g)).d3 = false → s.linkPasses = true →
    m = min 512 (max 128 s.hlu.mode.payload) → n = min x.bytes.length (m - x.addr % m) →
    ∃ t, exec (.writeRequestIssue (.channel g)) s = .next t
      ∧ t.out = s.out ++ [.hostWrite (s.fnOfChan g) x.addr (x.bytes.take n) ((s.func (s.fnOfChan g)).roEn && s.hlu.ctrl.getLsbD 0)]
      ∧ t.dmv.bytesWr = sat64 s.dmv.bytesWr n ∧ (∀ k, k ≠ g → t.chan k = s.chan k)
      ∧ t = { s with dmv := t.dmv, hlu := t.hlu, out := t.out }) ∧
  (∀ (g : Nat) (s : State), s.slotsOf (.channel g) = [] → exec (.writeRequestIssue (.channel g)) s = .next s)

/-- A demand read that a window of the half's unit admits takes a slot where one is free; a demand write that its window admits is held, and
merges with what is held of the window where it continues it within one block of a write request; an access that no window admits, save
past the end of a decode unit's input, moves nothing and counts as a violation; what is held issues. A parity error in a filled slot is
recorded, and its burst is read once more; a second one fails the descriptor and withdraws the slot. -/
def Obligations.DemandRequests : Prop :=
  (∀ (h space a n i : Nat) (u : WUnit) (s : State), s.live = true → isHalf h = true → s.running? h = some u → 64 ≤ n → n ≤ 4096 → space ≤ 1 →
    i < 16 → (s.demandWindow u i a).space = space → (s.demandWindow u i a).admits false a n = true → s.slotFree (.demand h) = true →
    exec (.demandRead h space a n) s = .next { s with dmv := { s.dmv with demandRd := s.dmv.demandRd ++ [(h, space, a, n)] } }) ∧
  (∀ (h w a : Nat) (bs : List Byte) (u : WUnit) (s : State), s.live = true → isHalf h = true → s.running? h = some u → w < 16 → 0 < bs.length →
    bs.length ≤ 64 → (s.demandWindow u w a).space = 0 → (s.demandWindow u w a).admits true a bs.length = true → s.barred u = false →
    (∀ x ∈ s.dmv.demand, x.1 ≠ h ∨ x.2.1 ≠ w) →
    exec (.demandWrite h w a bs) s = .next { s with dmv := { s.dmv with demand := s.dmv.demand ++ [(h, w, a, bs, s.time)] } }) ∧
  (∀ (h w b a m : Nat) (held bs : List Byte) (at_ : Nat) (u : WUnit) (s : State), s.live = true → isHalf h = true → s.running? h = some u →
    w < 16 → 0 < bs.length → bs.length ≤ 64 → (s.demandWindow u w a).space = 0 → (s.demandWindow u w a).admits true a bs.length = true →
    s.barred u = false → s.dmv.demand = [(h, w, b, held, at_)] → b + held.length = a → m = min 512 (max 128 s.hlu.mode.payload) →
    b / m = (a + bs.length - 1) / m →
    exec (.demandWrite h w a bs) s = .next { s with dmv := { s.dmv with demand := [(h, w, b, held ++ bs, at_)] } }) ∧
  (∀ (h w a : Nat) (bs : List Byte) (u : WUnit) (s : State), s.live = true → isHalf h = true → s.running? h = some u → w < 16 → 0 < bs.length →
    bs.length ≤ 64 → (s.demandWindow u w a).space ≠ 0 ∨ (s.demandWindow u w a).admits true a bs.length = false →
    ∃ t, exec (.demandWrite h w a bs) s = .next t ∧ (t.half h).winViol = sat32 (s.half h).winViol 1 ∧ (∀ j, j ≠ h → t.half j = s.half j)
      ∧ (∀ n, n ≠ u.session → t.sess n = s.sess n) ∧ t = { s with halves := t.halves, sessions := t.sessions }) ∧
  (∀ (h space a n : Nat) (u : WUnit) (s : State), s.live = true → isHalf h = true → s.running? h = some u → 64 ≤ n → n ≤ 4096 → space ≤ 1 →
    (∀ i, i < 16 → (s.demandWindow u i a).space ≠ space ∨ (s.demandWindow u i a).admits false a n = false) →
    readsEnd (s.parOf u).encode u space a = false →
    ∃ t, exec (.demandRead h space a n) s = .next t ∧ (t.half h).winViol = sat32 (s.half h).winViol 1 ∧ (∀ j, j ≠ h → t.half j = s.half j)
      ∧ (∀ k, k ≠ u.session → t.sess k = s.sess k) ∧ t = { s with halves := t.halves, sessions := t.sessions }) ∧
  (∀ (h w a at_ : Nat) (bs : List Byte) (rest : List (Nat × Nat × Nat × List Byte × Nat)) (s : State), s.live = true →
    s.dmv.demand = (h, w, a, bs, at_) :: rest → (s.func (s.fnOfUser (.demand h))).flr = false →
    (s.func (s.fnOfUser (.demand h))).d3 = false → s.linkPasses = true →
    ∃ t, exec (.demandWriteHold h) s = .next t ∧ t.dmv.demand = rest ∧ t.dmv.bytesWr = sat64 s.dmv.bytesWr bs.length
      ∧ (∃ r, t.out = s.out ++ [.hostWrite (s.fnOfUser (.demand h)) a bs r]) ∧ t = { s with dmv := t.dmv, hlu := t.hlu, out := t.out }) ∧
  (∀ (u : DmvUser) (x : Slot) (xs : List Slot) (s : State), s.live = true → s.slotsOf u = x :: xs → x.waiting = false → x.reread = false →
    ∃ t, exec (.dmvBufferParity u) s = .next t ∧ Records s t 0x03 (s.reportClass 0x03) ∧ t.dmv.lostSlots = s.dmv.lostSlots
      ∧ (∃ y ∈ t.dmv.slots, y.reread = true ∧ y.user = u ∧ y.waiting = (x.srcSpace == 0)) ∧ t = { s with dmv := t.dmv, fcl := t.fcl }) ∧
  (∀ (g : Nat) (x : Slot) (xs : List Slot) (s : State), s.live = true → s.slotsOf (.channel g) = x :: xs → x.waiting = false → x.reread = true →
    ∃ t, exec (.dmvBufferParity (.channel g)) s = .next t ∧ Records s t 0x03 (s.reportClass 0x03)
      ∧ t.dmv.lostSlots = s.dmv.lostSlots + 1
      ∧ (∀ d ∈ (t.chan g).inprog, d.slot = x.desc → d.failed = true ∧ d.status = 0xF0 ∧ d.cause = 0x30)
      ∧ t = { s with dmv := t.dmv, fcl := t.fcl })

/-- An allocation request waits at its function's pool, and ends at once where the pool is not the function's; a free of an address in no
pool of the function fails with code 3, an event and a class U record. An allocation takes the index placed last in the cache and marks
its owner; a free that passes the checks clears it and places the index in the cache, one that does not leaves the buffer as it was; the
cache takes up to 16 indices from the ring when it runs low and returns 16 when it overflows. A channel whose backoff ends asks its pool
again; one that has waited DMV_CH_ALLOCW microseconds fails the descriptor that waits with RESOURCE, cause 0x60. -/
def Obligations.PoolService : Prop :=
  (∀ (fn : Nat) (v : Word) (p : Pool) (s : State), s.fnLive fn = true → s.ownPool fn (v.toNat % 256) = some p →
    ∃ t q, exec (.bpmAllocReq fn v) s = .next t ∧ t.pool? (v.toNat % 256) = some q
      ∧ q.reqs = p.reqs.filter (fun r => !(r.port == fn && r.isFree == false))
          ++ [{ port := fn, isFree := false, owner := v.toNat / 256 % 1024, addr := 0 }]
      ∧ q.cache = p.cache ∧ q.owners = p.owners ∧ (t.path fn).allocLo = 0 ∧ t = { s with bpm := t.bpm }) ∧
  (∀ (fn : Nat) (v : Word) (s : State), s.fnLive fn = true → s.ownPool fn (v.toNat % 256) = none →
    ∃ t, exec (.bpmAllocReq fn v) s = .next t ∧ (t.path fn).allocLo = 5 ∧ (t.path fn).allocHi = 0 ∧ t = { s with bpm := t.bpm }) ∧
  (∀ (fn a : Nat) (v : Word) (s : State), s.fnLive fn = true →
    a = v.toNat % 65536 * 2 ^ 32 + ((s.heldLow fn (freeOff fn)).getD (s.path fn).freeLo).toNat → s.poolAt fn a = none →
    ∃ t, exec (.bpmFree fn v) s = .next t ∧ (t.path fn).freeStatus = 0x80000003#32 ∧ t.bpm.usage = sat32 s.bpm.usage 1
      ∧ Records s t 0x23 3 ∧ tblGet false t.heldV (pairKey fn (freeOff fn)) = false
      ∧ t = { s with bpm := t.bpm, clusters := t.clusters, evq := t.evq, fcl := t.fcl, funcs := t.funcs, heldV := t.heldV, heldW := t.heldW,
                     hlu := t.hlu, imb := t.imb, mem := t.mem, out := t.out }) ∧
  (∀ (fn a k : Nat) (v : Word) (p : Pool) (s : State), s.fnLive fn = true →
    a = v.toNat % 65536 * 2 ^ 32 + ((s.heldLow fn (freeOff fn)).getD (s.path fn).freeLo).toNat → s.poolAt fn a = some k →
    s.pool? k = some p →
    ∃ t q, exec (.bpmFree fn v) s = .next t ∧ t.pool? k = some q
      ∧ q.reqs = p.reqs.filter (fun r => !(r.port == fn && r.isFree == true))
          ++ [{ port := fn, isFree := true, owner := v.toNat / 65536 % 1024, addr := a }]
      ∧ (t.path fn).freeStatus = 0 ∧ t = { s with bpm := t.bpm, heldV := t.heldV, heldW := t.heldW }) ∧
  (∀ (k i : Nat) (rest : List Nat) (p : Pool) (r : PoolReq) (s : State), s.live = true → k < 256 → s.pool? k = some p → p.reqs = [r] →
    r.isFree = false → r.port < 64 → p.cache = i :: rest →
    ∃ t q, exec (.poolArbitration k) s = .next t ∧ t.pool? k = some q ∧ q.cache = rest ∧ tblGet 0 q.owners i = r.owner + 1 ∧ q.reqs = []
      ∧ q.rotate = (r.port + 1) % 320 ∧ (∀ j, j ≠ i → tblGet 0 q.owners j = tblGet 0 p.owners j)
      ∧ (t.path r.port).allocLo = BitVec.ofNat 32 (p.bufAddr i % 2 ^ 32 / 4096 * 4096 + 1)
      ∧ (t.path r.port).allocHi = BitVec.ofNat 32 (p.bufAddr i / 2 ^ 32 % 65536) ∧ (∀ m, m ≠ k → t.pool? m = s.pool? m)
      ∧ t = { s with bpm := t.bpm, clusters := t.clusters, mem := t.mem }) ∧
  (∀ (k : Nat) (p : Pool) (r : PoolReq) (s : State), s.live = true → k < 256 → s.pool? k = some p → p.reqs = [r] → r.isFree = false →
    r.port < 64 → p.cache = [] → p.ring = [] →
    ∃ t, exec (.poolArbitration k) s = .next t ∧ (t.path r.port).allocLo = 3 ∧ t.bpm.empty = sat32 s.bpm.empty 1
      ∧ t = { s with bpm := t.bpm }) ∧
  (∀ (k i : Nat) (p : Pool) (r : PoolReq) (s : State), s.live = true → k < 256 → s.pool? k = some p → p.reqs = [r] → r.isFree = true →
    p.freeCode r = 0 → i = (r.addr - p.base) / 2 ^ p.bufLog → i ∉ p.loose → i ∉ p.barred → p.cache.length < 64 →
    ∃ t q, exec (.poolArbitration k) s = .next t ∧ t.pool? k = some q ∧ q.cache = i :: p.cache ∧ tblGet 0 q.owners i = 0 ∧ q.reqs = []
      ∧ (∀ j, j ≠ i → tblGet 0 q.owners j = tblGet 0 p.owners j) ∧ (t.path r.port).freeStatus = 0x80000000#32
      ∧ (∀ m, m ≠ k → t.pool? m = s.pool? m) ∧ t = { s with bpm := t.bpm, clusters := t.clusters, mem := t.mem }) ∧
  (∀ (k : Nat) (p : Pool) (r : PoolReq) (s : State), s.live = true → k < 256 → s.pool? k = some p → p.reqs = [r] → r.isFree = true →
    p.freeCode r ≠ 0 →
    ∃ t q, exec (.poolArbitration k) s = .next t ∧ t.pool? k = some q ∧ q.cache = p.cache ∧ q.owners = p.owners ∧ q.reqs = []
      ∧ (t.path r.port).freeStatus = BitVec.ofNat 32 (2 ^ 31 + p.freeCode r) ∧ Records s t 0x23 3) ∧
  (∀ (k : Nat) (p : Pool) (s : State), s.live = true → s.pool? k = some p → p.cache.length < 16 →
    ∃ t q, exec (.poolCacheRefill k) s = .next t ∧ t.pool? k = some q ∧ q.ring = p.ring.drop 16 ∧ q.owners = p.owners
      ∧ (∀ i, i ∈ q.cache ↔ i ∈ p.cache ∨ (i ∈ p.ring.take 16 ∧ i ∉ p.barred)) ∧ (∀ m, m ≠ k → t.pool? m = s.pool? m)
      ∧ t = { s with bpm := t.bpm }) ∧
  (∀ (k : Nat) (p : Pool) (s : State), s.live = true → s.pool? k = some p → 48 < p.cache.length →
    ∃ t q, exec (.poolCacheSpill k) s = .next t ∧ t.pool? k = some q ∧ q.cache.length = p.cache.length - 16
      ∧ q.ring.length = p.ring.length + 16 ∧ (∀ i, i ∈ q.cache ∨ i ∈ q.ring ↔ i ∈ p.cache ∨ i ∈ p.ring)
      ∧ (∀ m, m ≠ k → t.pool? m = s.pool? m) ∧ t = { s with bpm := t.bpm, clusters := t.clusters, mem := t.mem }) ∧
  (∀ (g : Nat) (d : Desc) (p : Pool) (s : State), s.live = true → (s.chan g).askAt ≠ 0 → (s.chan g).asking = false →
    ((s.chan g).inprog.find? fun e => e.started && e.alloc) = some d → s.ownPool (s.fnOfChan g) d.pool = some p →
    ∃ t q, exec (.allocBackoff g) s = .next t ∧ (t.chan g).asking = true ∧ (t.chan g).askAt = 0 ∧ t.pool? d.pool = some q
      ∧ q.reqs = p.reqs ++ [{ port := 64 + g, isFree := false, owner := d.owner, addr := 0 }]
      ∧ t.time = max s.time ((s.chan g).askAt - 1) ∧ (∀ k, k ≠ g → t.chan k = s.chan k)
      ∧ t = { s with aon := t.aon, bpm := t.bpm, dmv := t.dmv, time := t.time }) ∧
  (∀ (g : Nat) (d : Desc) (s : State), s.live = true → (s.chan g).waited ≠ 0 →
    ((s.chan g).inprog.find? fun e => e.started && e.alloc) = some d →
    ∃ t, exec (.allocWaitExpiry g) s = .next t
      ∧ (∀ e ∈ (t.chan g).inprog, e.slot = d.slot → e.failed = true ∧ e.status = 0x41 ∧ e.cause = 0x60) ∧ (t.chan g).waited = 0
      ∧ t.time = max s.time ((s.chan g).waited - 1 + (s.chan g).allocw * 1000) ∧ (∀ k, k ≠ g → t.chan k = s.chan k)
      ∧ t = { s with aon := t.aon, bpm := t.bpm, dmv := t.dmv, fcl := t.fcl, funcs := t.funcs, hlu := t.hlu, imb := t.imb, out := t.out,
                     time := t.time })

/-- An FLR discards the function's queues and returns its admin queue, event ring, register path, level stack and interrupt masks to their
reset values; what is not the function's own is not in the list. It ends, once no session of the function is left, with Function
Readiness Status and HLU_FLR_COUNT. VF Enable makes VFs 1 to NumVFs exist, and clearing it resets and ends them. A hot reset, a link
down and the loss of the reference clock reset PF0 and every VF and take the link down; the image in force and the protection tables
stay, and PF0 is ready again when the link has trained to a mode of Table 16-1. -/
def Obligations.FunctionAndLinkResets : Prop :=
  (∀ (fn : Nat) (s : State), s.running = true → (s.func fn).isThere = true → (s.func fn).ready = true → (s.func fn).flr = false →
    ∃ t, exec (.flr fn) s = .next t ∧ (t.func fn).flr = true ∧ (t.func fn).d3 = false ∧ (t.func fn).held = []
      ∧ (∀ q ∈ s.queuesOf fn, (t.queue q).state = .free ∧ (t.queue q).entries = [])
      ∧ t.admQ fn = AdmQ.init ∧ t.ring fn = EvRing.init ∧ t.path fn = RegPath.init ∧ t.target fn = Target.init
      ∧ tblGet [] t.imb.mask fn = [] ∧ tblGet [] t.imb.pba fn = []
      ∧ (∀ n, n < 64 → (t.sem n).holder ≠ some fn)
      ∧ (fn = 0 → t.hlu.vfEn = false ∧ t.hlu.numVfs = 0 ∧ t.cfgq = AdmQ.init)
      ∧ t = { s with
          admq := t.admq, boot := t.boot, bpm := t.bpm, cfgq := t.cfgq, clusters := t.clusters, ctx := t.ctx, dmv := t.dmv, dsc := t.dsc,
          evq := t.evq, fcl := t.fcl, funcs := t.funcs, halves := t.halves, heldV := t.heldV, heldW := t.heldW, hlu := t.hlu, imb := t.imb,
          latched := t.latched, latches := t.latches, mau := t.mau, mem := t.mem, out := t.out, pcf := t.pcf, queues := t.queues,
          sessions := t.sessions }) ∧
  (∀ (fn : Nat) (s : State), s.running = true → (s.func fn).flr = true → s.noSessions fn = true →
    ∃ t, exec (.flrComplete fn) s = .next t ∧ (t.func fn).flr = false ∧ t.hlu.flrCount = sat32 s.hlu.flrCount 1
      ∧ t.out = s.out ++ (if s.linkPasses then [.frs fn] else []) ∧ (∀ k, k ≠ fn → t.func k = s.func k)
      ∧ t = { s with funcs := t.funcs, hlu := t.hlu, out := t.out }) ∧
  (∀ (n : Nat) (s : State), s.running = true → (s.func 0).ready = true → (s.func 0).flr = false → s.hlu.vfEn = false → n ≤ s.totalVfs →
    ∃ t, exec (.vfEnableSet n) s = .next t ∧ t.hlu = { s.hlu with vfEn := true, numVfs := n }
      ∧ (∀ k, 1 ≤ k → k ≤ n → (t.func k).isThere = true ∧ (t.func k).ready = true ∧ (t.func k).flr = false)
      ∧ (∀ k, k = 0 ∨ n < k → t.func k = s.func k)
      ∧ t = { s with funcs := t.funcs, hlu := t.hlu }) ∧
  (∀ (s : State), s.running = true → s.hlu.vfEn = true →
    ∃ t, exec .vfEnableClear s = .next t ∧ t.hlu.vfEn = false
      ∧ (∀ k, 1 ≤ k → k ≤ s.hlu.numVfs → (t.func k).isThere = false ∧ t.ring k = EvRing.init)
      ∧ t = { s with
          admq := t.admq, boot := t.boot, bpm := t.bpm, cfgq := t.cfgq, clusters := t.clusters, ctx := t.ctx, dmv := t.dmv, dsc := t.dsc,
          evq := t.evq, fcl := t.fcl, funcs := t.funcs, halves := t.halves, heldV := t.heldV, heldW := t.heldW, hlu := t.hlu, imb := t.imb,
          latched := t.latched, latches := t.latches, mau := t.mau, mem := t.mem, out := t.out, pcf := t.pcf, queues := t.queues,
          sessions := t.sessions }) ∧
  (∀ c ∈ [Instr.hotReset, .linkDown, .refclkLoss], ∀ (s : State), s.running = true →
    ∃ t, exec c s = .next t ∧ (t.func 0).ready = false ∧ (t.func 0).flr = false ∧ t.hlu.up = false ∧ t.hlu.lstate = 6
      ∧ t.hlu.activeWidth = 0 ∧ t.hlu.vfEn = false ∧ t.hlu.numVfs = 0 ∧ t.hlu.hdm = [] ∧ t.admQ 0 = AdmQ.init ∧ t.cfgq = AdmQ.init
      ∧ t.boot.image = s.boot.image ∧ t.boot.regions = s.boot.regions ∧ t.boot.protLock = s.boot.protLock ∧ t.fcl.inSafe = s.fcl.inSafe
      ∧ t = { s with
          admq := t.admq, boot := t.boot, bpm := t.bpm, cfgq := t.cfgq, clusters := t.clusters, ctx := t.ctx, dmv := t.dmv, dsc := t.dsc,
          evq := t.evq, fcl := t.fcl, funcs := t.funcs, halves := t.halves, heldV := t.heldV, heldW := t.heldW, hlu := t.hlu, imb := t.imb,
          latched := t.latched, latches := t.latches, mau := t.mau, mem := t.mem, out := t.out, pcf := t.pcf, queues := t.queues,
          sessions := t.sessions }) ∧
  (∀ (m : LinkMode) (s : State), s.running = true → LinkMode.legal m = true →
    ∃ t, exec (.linkTrained m) s = .next t ∧ t.hlu = { s.hlu with up := true, mode := m, activeWidth := m.width, lstate := 0 }
      ∧ (t.func 0).ready = ((s.func 0).ready || s.boot.burnAllowed) ∧ (∀ k, k ≠ 0 → t.func k = s.func k)
      ∧ t = { s with funcs := t.funcs, hlu := t.hlu })

/-- D3hot suspends a function; on the return to D0 what was held is sent in order, and nothing else happens where every channel of the
function is DISABLED; L2 leaves nothing running; L1, entered in one of its substates, L0p and their exits follow HLU_CTRL and the active
width. A PTM request goes out INTERVAL ms after the last; a response more than 1 ms ahead steps DEV_TIME forward to the root's time, and
any other leaves DEV_TIME and slews it toward the root's at up to 200 ppm, a magnitude that the spec leaves open (log entry 37). -/
def Obligations.PowerAndTime : Prop :=
  (∀ (fn : Nat) (s : State), s.running = true → (s.func fn).isThere = true → (s.func fn).ready = true → (s.func fn).flr = false →
    (s.func fn).d3 = false →
    ∃ t, exec (.d3hotEntry fn) s = .next t ∧ (t.func fn).d3 = true ∧ (t.func fn).ready = true ∧ (t.func fn).flr = false
      ∧ t = { s with
          admq := t.admq, cfgq := t.cfgq, clusters := t.clusters, ctx := t.ctx, dmv := t.dmv, dsc := t.dsc, funcs := t.funcs,
          halves := t.halves, hlu := t.hlu, mau := t.mau, mem := t.mem, out := t.out, pcf := t.pcf, queues := t.queues,
          sessions := t.sessions }) ∧
  (∀ (fn : Nat) (s : State), s.running = true → (s.func fn).d3 = true →
    ∃ t os, exec (.d0Return fn) s = .next t ∧ (t.func fn).d3 = false ∧ t.out = s.out ++ (s.func fn).held ++ os) ∧
  (∀ (fn : Nat) (s : State), s.running = true → (s.func fn).d3 = true → (∀ g, s.fnOfChan g = fn → (s.chan g).state = .disabled) →
    ∃ t, exec (.d0Return fn) s = .next t ∧ t.func fn = { s.func fn with d3 := false, held := [] } ∧ t.out = s.out ++ (s.func fn).held
      ∧ (∀ k, k ≠ fn → t.func k = s.func k)
      ∧ t = { s with funcs := t.funcs, hlu := t.hlu, imb := t.imb, out := t.out }) ∧
  (∀ (s : State), s.running = true →
    ∃ t, exec .pmeTurnOff s = .next t ∧ t.hlu.l2 = true ∧ t.running = false ∧ t.hlu.wake = s.pmePending ∧ t.queues = [] ∧ t.sessions = []
      ∧ t.dsc.units = [] ∧ t.boot.image = none ∧ t.mem.cells = s.mem.cells ∧ t.fcl.fifo = s.fcl.fifo ∧ t.pending = s.pending) ∧
  (∀ (us : Nat) (s : State), s.running = true → s.hlu.up = true → fld s.hlu.ctrl.toNat 24 8 ≤ us → s.hlu.lstate ≤ 1 →
    ∃ k, 2 ≤ k ∧ k ≤ 4 ∧ exec (.aspmL1Entry us) s = .next { s with free := s.free + 1, hlu := { s.hlu with lstate := k } }) ∧
  (∀ (s : State), s.running = true → s.hlu.up = true → 2 ≤ s.hlu.lstate → s.hlu.lstate ≤ 4 →
    exec .l1Exit s = .next { s with hlu := { s.hlu with lstate := if s.hlu.activeWidth < s.hlu.mode.width then 1 else 0 } }) ∧
  (∀ (percent ms : Nat) (s : State), s.running = true → s.hlu.up = true → s.hlu.ctrl.getLsbD 1 = true → s.hlu.mode.flit = true →
    percent < fld s.hlu.ctrl.toNat 8 8 → fld s.hlu.ctrl.toNat 16 8 ≤ ms → s.hlu.lstate ≤ 1 →
    exec (.l0pReduce percent ms) s = .next
      (if 4 < s.hlu.activeWidth then { s with hlu := { s.hlu with activeWidth := s.hlu.activeWidth / 2, lstate := 1 } } else s)) ∧
  (∀ (percent : Nat) (s : State), s.running = true → s.hlu.up = true → s.hlu.lstate = 1 → 25 < percent →
    exec (.l0pRestore percent) s = .next { s with hlu := { s.hlu with activeWidth := s.hlu.mode.width, lstate := 0 } }) ∧
  (∀ (s : State), s.running = true → s.hlu.up = true → s.hlu.ptmCtrl.getLsbD 31 = true →
    ∃ t, exec .ptmRequest s = .next t ∧ t.time = max s.time (s.hlu.ptmAsked + fld s.hlu.ptmCtrl.toNat 0 10 * 1000000)
      ∧ t.hlu.ptmAsked = t.time ∧ t.out = s.out ++ (if s.linkPasses then [.ptmReq] else [])
      ∧ t = { s with time := t.time, aon := t.aon, hlu := t.hlu, out := t.out }) ∧
  (∀ (root : DWord) (s : State), s.running = true → s.hlu.up = true → s.hlu.ptmCtrl.getLsbD 31 = true → s.linkPasses = true →
    s.time < 2 ^ 64 → s.time + 1000000 < root.toNat →
    ∃ t, exec (.ptmResponse root) s = .next t ∧ t.time = root.toNat ∧ t.hlu.stepped = true ∧ t.hlu.slew = 0 ∧ t.hlu.synced = true
      ∧ t.hlu.ptmOffset = BitVec.ofNat 64 (root.toNat - s.time) ∧ t = { s with time := t.time, aon := t.aon, dsc := t.dsc, hlu := t.hlu }) ∧
  (∀ (root : DWord) (s : State), s.running = true → s.hlu.up = true → s.hlu.ptmCtrl.getLsbD 31 = true → s.linkPasses = true →
    s.time < 2 ^ 64 → root.toNat ≤ s.time + 1000000 →
    ∃ t, exec (.ptmResponse root) s = .next t ∧ t.hlu.stepped = s.hlu.stepped ∧ t.hlu.synced = true
      ∧ t.hlu.ptmOffset = root - BitVec.ofNat 64 s.time
      ∧ (s.time < root.toNat → 1 ≤ t.hlu.slew ∧ t.hlu.slew ≤ 200) ∧ (root.toNat < s.time → -200 ≤ t.hlu.slew ∧ t.hlu.slew ≤ -1)
      ∧ (root.toNat = s.time → t.hlu.slew = 0) ∧ t = { s with free := t.free, hlu := t.hlu })

/-- A decoder is committed where its range fits the exposure and no other committed decoder, else it decodes nothing; reads and writes under
a committed decoder or BAR 4 reach the line's bytes with their poison; any other is recorded as a class U fault. -/
def Obligations.HostMemory : Prop :=
  (∀ (d host dev size : Nat) (s : State), s.up = true → s.pf0Answers = true → d < 4 →
    ∃ t, exec (.hdmDecoderCommit d host dev size) s = .next t
      ∧ tblGet Hdm.init t.hlu.hdm d
        = { committed := s.hdmFits d host dev size, bad := !s.hdmFits d host dev size, host := host, dev := dev, size := size }
      ∧ (∀ k, k ≠ d → tblGet Hdm.init t.hlu.hdm k = tblGet Hdm.init s.hlu.hdm k)
      ∧ t = { s with hlu := { s.hlu with hdm := t.hlu.hdm } }) ∧
  (∀ (a d : Nat) (caches : Bool) (s : State), s.cxlMemOpen = true → s.hdmAddr a = some d → s.snooping (lineOf d) = false →
    ∃ t, exec (.cxlMemRead a caches) s = .next t
      ∧ t.out.getLast? = some (.cxlData (lineOf a) (s.memRead (lineOf d) 64) (s.poisoned (lineOf d) 64))
      ∧ t.hlu.poisonRd = (if s.poisoned (lineOf d) 64 then sat32 s.hlu.poisonRd 1 else s.hlu.poisonRd)
      ∧ (s.poisoned (lineOf d) 64 = true → ∃ r, t.fcl.inbox = s.fcl.inbox ++ [r] ∧ r.code = 0x0E)
      ∧ (caches = true → s.hdmDb = true → t.tracked (lineOf d) = true)
      ∧ t = { s with fcl := t.fcl, hlu := t.hlu, out := t.out }) ∧
  (∀ (a : Nat) (caches : Bool) (s : State), s.cxlMemOpen = true → s.hdmAddr a = none →
    ∃ t, exec (.cxlMemRead a caches) s = .next t ∧ t.out = s.out ++ [.cxlData (lineOf a) (List.replicate 64 0) true] ∧ Records s t 0x20 3
      ∧ t = { s with fcl := t.fcl, hlu := t.hlu, out := t.out }) ∧
  (∀ (a d : Nat) (bs : List Byte) (p : Bool) (s : State), s.cxlMemOpen = true → s.hdmAddr a = some d →
    exec (.cxlMemWrite a bs p) s = .next
      (if p then (s.memWrite d (bs.take (64 - d % 64))).poisonLine d else s.memWrite d (bs.take (64 - d % 64)))) ∧
  (∀ (a : Nat) (bs : List Byte) (p : Bool) (s : State), s.cxlMemOpen = true → s.hdmAddr a = none →
    ∃ t, exec (.cxlMemWrite a bs p) s = .next t ∧ Records s t 0x20 3 ∧ t = { s with fcl := t.fcl }) ∧
  (∀ (off len : Nat) (bs : List Byte) (p : Bool) (s : State), s.pf0Answers = true → s.fcl.inSafe = false →
    (∀ l ∈ linesOf off len, s.exposed l 64 = true) →
    exec (.bar4Access off true len ⟨true, bs⟩) s = .next (s.memWrite off (fitBytes len bs)) ∧
    (∃ t, exec (.bar4Access off true len ⟨false, bs⟩) s = .next t ∧ (∀ l ∈ linesOf off len, t.poisoned l 64 = true)
      ∧ (∀ j, t.byteAt j = (s.memWrite off (fitBytes len bs)).byteAt j) ∧ t = { s with clusters := t.clusters, mem := t.mem }) ∧
    (s.poisoned off len = false → ∃ t, exec (.bar4Access off false len ⟨p, bs⟩) s = .next t ∧ t.out = s.out ++ [.readData (s.memRead off len)]
      ∧ t = { s with hlu := t.hlu, out := t.out }) ∧
    (s.poisoned off len = true → ∃ t, exec (.bar4Access off false len ⟨p, bs⟩) s = .next t
      ∧ t.out = s.out ++ [.cxlData off (s.memRead off len) true] ∧ t.hlu.poisonRd = sat32 s.hlu.poisonRd 1
      ∧ t = { s with fcl := t.fcl, hlu := t.hlu, out := t.out })) ∧
  (∀ (off len : Nat) (bs : List Byte) (p : Bool) (s : State), s.pf0Answers = true → s.fcl.inSafe = false →
    (∃ l ∈ linesOf off len, s.exposed l 64 = false) →
    (∃ t, exec (.bar4Access off true len ⟨p, bs⟩) s = .next t ∧ Records s t 0x20 3 ∧ t = { s with fcl := t.fcl }) ∧
    (∃ t, exec (.bar4Access off false len ⟨p, bs⟩) s = .next t ∧ Records s t 0x20 3 ∧ t.out = s.out ++ [.readData (List.replicate len 0)]
      ∧ t = { s with fcl := t.fcl, hlu := t.hlu, out := t.out }))

/-- A back-invalidate's response lets the line's data and the writes that waited be stored, and the line leave the tracker; the host's
answer to a host-bias request lets the access go on; a snoop of the host's cache misses. An integrity failure makes its stream Insecure
and is recorded; keying the stream ends that; SPDM requests are answered, with the measurement block that is asked for (log entry 10). -/
def Obligations.CoherenceAndSecurity : Prop :=
  (∀ (l : Nat) (bs : List Byte) (s : State), s.up = true → s.hlu.snoops = [(l, false)] →
    (∀ b ∈ s.hlu.bias, ¬ (b.write = true ∧ b.line = l)) →
    ∃ t, exec (.bisnpResponse l (some bs)) s = .next t ∧ t.mem = (s.memWrite l (fitBytes 64 bs)).mem ∧ t.hlu.snoops = []
      ∧ t.tracked l = false ∧ t.out = s.out ∧ t = { s with clusters := t.clusters, hlu := t.hlu, mem := t.mem }) ∧
  (∀ (l a : Nat) (bs : List Byte) (s : State), s.up = true → s.hlu.snoops = [(l, false)] → s.hlu.bias = [⟨l, true, a, bs⟩] →
    ∃ t, exec (.bisnpResponse l none) s = .next t ∧ t.mem = (s.memWrite a bs).mem ∧ t.hlu.snoops = [] ∧ t.hlu.bias = []
      ∧ t.tracked l = false ∧ t = { s with clusters := t.clusters, hlu := t.hlu, mem := t.mem }) ∧
  (∀ (l a : Nat) (bs : List Byte) (rest : List BiasReq) (data : Option (List Byte)) (s : State), s.up = true → s.hdmD = true →
    s.hlu.bias = ⟨l, true, a, bs⟩ :: rest → bs ≠ [] →
    ∃ t, exec (.hostBiasResponse l data) s = .next t ∧ t.mem = (s.memWrite a bs).mem ∧ t.hlu = { s.hlu with bias := rest }
      ∧ t = { s with clusters := t.clusters, hlu := t.hlu, mem := t.mem }) ∧
  (∀ (l a : Nat) (bs : List Byte) (rest : List BiasReq) (s : State), s.up = true → s.hdmD = true →
    s.hlu.bias = ⟨l, false, a, []⟩ :: rest →
    ∃ t, exec (.hostBiasResponse l (some bs)) s = .next t ∧ t.mem = (s.memWrite l (fitBytes 64 bs)).mem ∧ t.hlu.bias = rest
      ∧ l ∈ t.hlu.biasOk ∧ t = { s with clusters := t.clusters, hlu := t.hlu, mem := t.mem }) ∧
  (∀ (a : Nat) (s : State), s.running = true → s.hlu.up = true → s.hlu.mode.protocol ≠ 0 → s.linkPasses = true →
    ∃ t, exec (.snoopReceived a) s = .next t ∧ t.out = s.out ++ [.snoopMiss a] ∧ t = { s with hlu := t.hlu, out := t.out }) ∧
  (∀ (n : Nat) (s : State), s.running = true → s.hlu.up = true → n < 5 → s.hlu.ide.getLsbD n = false →
    ∃ t, exec (.ideIntegrityFail n) s = .next t ∧ t.hlu = { s.hlu with ide := s.hlu.ide ||| BitVec.twoPow 5 n }
      ∧ Records s t 0x0D (s.reportClass 0x0D) ∧ t = { s with fcl := t.fcl, hlu := t.hlu }) ∧
  (∀ (n : Nat) (s : State), s.running = true → s.hlu.up = true → n < 5 →
    ∃ t, exec (.ideKeyProgram n) s = .next t ∧ t.hlu.ide.getLsbD n = false ∧ (∀ k, k ≠ n → t.hlu.ide.getLsbD k = s.hlu.ide.getLsbD k)
      ∧ t = { s with hlu := { s.hlu with ide := t.hlu.ide } }) ∧
  (∀ (code param : Nat) (secured : Bool) (s : State), s.running = true → (s.func 0).ready = true → (s.func 0).flr = false →
    s.fcl.mpFenced ≠ 3 → s.linkPasses = true →
    ∃ t, exec (.spdmRequest code param secured) s = .next t
      ∧ (code ≠ 0xE0 → t.out = s.out ++ [.spdm (Config.spdmResponse code param) []])
      ∧ (code = 0xE0 → 1 ≤ param → param ≤ 6 → ∃ v, s.measurement param = some v ∧ v.length = (if param = 6 then 8 else 48)
          ∧ t.out = s.out ++ [.spdm (Config.spdmResponse code param) [(param, v)]])
      ∧ t = { s with hlu := t.hlu, out := t.out })

/-- PERST# stops every unit and keeps what R436 lists; a deassertion, once PWRGOOD has been high for 2 ms, runs boot; a fall of PWRGOOD, a
monitored rail that is low for more than 5 µs and a reference missing for 2 µs are cold resets. -/
def Obligations.ResetInputs : Prop :=
  (∀ (s : State), s.pins.perst = false → s.pins.pwrgood = true →
    ∃ t, exec .perstAssert s = .next t ∧ t.pins.perst = true ∧ t.pins.alive = false ∧ t.running = false ∧ t.queues = [] ∧ t.sessions = []
      ∧ t.dsc.units = [] ∧ t.funcs = [] ∧ t.hlu.up = false ∧ t.boot.image = none ∧ t.boot.protLock = s.boot.protLock
      ∧ t.boot.regions = s.boot.regions ∧ t.fcl.fifo = s.fcl.fifo ∧ t.fcl.first = s.fcl.first ∧ t.fcl.count = s.fcl.count
      ∧ t.fcl.safe = s.fcl.safe ∧ t.mem.cells = s.mem.cells ∧ t.pending = s.pending) ∧
  (∀ (s : State), s.pins.perst = false → s.pins.pwrgood = false →
    exec .perstAssert s = .next { s with pins := { s.pins with perst := true } }) ∧
  (∀ (b : Board) (s : State), s.pins.perst = true → s.pins.pwrgood = true → s.pins.settled = true →
    ∃ t, exec (.perstDeassert b) s = .next t ∧ booted s t b) ∧
  (∀ (b : Board) (s : State), s.pins.perst = true → s.pins.pwrgood = true → s.pins.settled = false →
    exec (.perstDeassert b) s = .next { s with pins := { s.pins with perst := false } }) ∧
  (∀ (s : State), s.pins.pwrgood = false →
    exec .pwrgoodRise s = .next { s with aon := 0, pins := { s.pins with pwrgood := true, settled := false } }) ∧
  (∀ (b : Board) (s : State), s.pins.pwrgood = true → s.pins.settled = false → s.pins.perst = true →
    exec (.pwrgoodSettleTime b) s = .next { s with aon := max s.aon 2000000, pins := { s.pins with settled := true } }) ∧
  (∀ (b : Board) (s : State), s.pins.pwrgood = true → s.pins.settled = false → s.pins.perst = false →
    ∃ t, exec (.pwrgoodSettleTime b) s = .next t ∧ booted s t b) ∧
  (∀ (r : Rail) (ns xs : Nat) (s : State), s.pins.pwrgood = true → 5000 < ns → 2000 ≤ xs →
    ∀ c ∈ [Instr.pwrgoodFall, .railUndervoltage r ns, .xtalLoss xs],
    ∃ t, exec c s = .next t ∧ t.pins = { Pins.init with perst := s.pins.perst, thermtrip := s.pins.thermtrip }
      ∧ t.boot = { Boot.init with fuses := s.boot.fuses, flash := s.boot.flash } ∧ (∀ k, k < 64 → (t.core k).stress = (s.core k).stress)
      ∧ t = { State.reset with pending := s.pending, free := s.free, out := s.out, pins := t.pins, boot := t.boot, cores := t.cores }) ∧
  (∀ (r : Rail) (ns : Nat) (s : State), ns ≤ 5000 → exec (.railUndervoltage r ns) s = .next s)

/-- Boot's end locks the protection tables, puts the halves of enabled clusters in service unless their patch was rejected, and makes PF0
ready with Device Readiness Status; without an image PF0 alone becomes ready. The watchdog ends boot without one. An anti-rollback count
rises by one bit while it is below the level in use; firmware answers the lowest request with its status, enrols an owner whose hash
keeps every burnt bit, stores a partition that passes the checks in the copy that CURRENT does not name, and unlocks debug for a good
token; NONCE changes with every token. -/
def Obligations.BootAndFirmware : Prop :=
  (∀ (i : Image) (s : State), s.running = true → (s.func 0).ready = false → s.boot.step ≠ 6 → s.fcl.inSafe = false → s.boot.image = some i →
    ∃ t, exec .bootComplete s = .next t ∧ t.boot.protLock = true ∧ t.boot.step = 6 ∧ t.boot.image = some i ∧ (t.func 0).ready = true
      ∧ (s.boot.protLock = false → t.boot.regions = i.regions) ∧ (s.boot.protLock = true → t.boot.regions = s.boot.regions)
      ∧ (∀ h, h < 128 → i.clusterEn.getLsbD (h / 16) = true → (s.half h).patchStatus < 2 → (t.half h).fstate = .active)
      ∧ (∀ h, h < 128 → i.clusterEn.getLsbD (h / 16) = false → (t.half h).fstate = .disabled)
      ∧ t.out = s.out ++ (if s.linkPasses then [.drs] else [])
      ∧ t = { s with boot := t.boot, dsc := t.dsc, funcs := t.funcs, halves := t.halves, hlu := t.hlu, mem := t.mem, out := t.out }) ∧
  (∀ (s : State), s.running = true → (s.func 0).ready = false → s.boot.step ≠ 6 → s.fcl.inSafe = false → s.boot.image = none →
    ∃ t, exec .bootComplete s = .next t ∧ t.boot.image = none ∧ t.boot.protLock = s.boot.protLock ∧ (t.func 0).ready = true
      ∧ t.out = s.out ++ (if s.linkPasses then [.drs] else [])
      ∧ t = { s with boot := t.boot, funcs := t.funcs, hlu := t.hlu, out := t.out }) ∧
  (∀ (s : State), s.up = true → s.boot.protLock = false → s.boot.step < 5 → (s.func 0).ready = false → s.boot.image.isSome = true →
    ∃ t, exec .bootTimeout s = .next t ∧ t.boot.image = none ∧ t.boot.reason = 0x13 ∧ t.boot.protLock = false
      ∧ t = { s with time := t.time, aon := t.aon, boot := t.boot }) ∧
  (∀ (k : ArbKind) (s : State), s.up = true → s.boot.burnAllowed = true → arbCount s.boot.fuses k < s.arbLevel k →
    ∃ t, exec (.arbBurn k) s = .next t ∧ arbCount t.boot.fuses k = arbCount s.boot.fuses k + 1
      ∧ (∀ j, j ≠ k → arbCount t.boot.fuses j = arbCount s.boot.fuses j)
      ∧ t = { s with boot := { s.boot with fuses := t.boot.fuses } }) ∧
  (∀ (b : FwBlock) (s : State), s.fwTakes b 1 = true → s.reqOk b 64 = true →
    ∃ t, exec (.fwInfo b) s = .next t
      ∧ fwAnswers s t b (leBytes 40 (put 4 0 s.boot.statusWord + put 8 0 s.boot.fwVersion.toNat + put 12 0 s.boot.imageVersion
          + put 16 0 s.boot.arbWord + put 20 0 s.boot.patchLevel + put 24 0 Config.uniqueId.toNat + put 32 0 s.boot.nonce.toNat))
      ∧ t = { s with funcs := t.funcs, hlu := t.hlu, imb := t.imb, out := t.out }) ∧
  (∀ (b : FwBlock) (s : State), s.fwTakes b 2 = true → s.reqOk b 100 = true → u32 (s.reqBlock b) 96 = 0x454E524C →
    s.boot.fuses.ownerLock = false → s.boot.fuses.ownerHash &&& ~~~ Config.sha384 ((s.reqBlock b).take 96) = 0 →
    ∃ t, exec (.fwEnrollOwner b) s = .next t ∧ fwAnswers s t b (leBytes 4 0) ∧ t.boot.fuses.ownerLock = true
      ∧ t.boot.fuses.ownerHash = Config.sha384 ((s.reqBlock b).take 96)
      ∧ t = { s with boot := { s.boot with fuses := t.boot.fuses }, funcs := t.funcs, hlu := t.hlu, imb := t.imb, out := t.out }) ∧
  (∀ (b : FwBlock) (s : State), s.fwTakes b 2 = true → s.reqOk b 100 = true → u32 (s.reqBlock b) 96 = 0x454E524C →
    s.boot.fuses.ownerLock = true →
    ∃ t, exec (.fwEnrollOwner b) s = .next t ∧ fwAnswers s t b (leBytes 4 4)
      ∧ t = { s with funcs := t.funcs, hlu := t.hlu, imb := t.imb, out := t.out }) ∧
  (∀ (b : FwBlock) (f : Flash) (p : List Byte) (s : State), s.fwTakes b 3 = true → s.boot.flash = some f → s.reqOk b 8 = true →
    s.reqLen b.slot ≤ 4104 → u16 (s.reqBlock b) 0 = 2 → checkPatch s.boot.fuses.patchArb ((s.reqBlock b).drop 8) = .inr p →
    ∃ t, exec (.fwFlashWrite b) s = .next t ∧ fwAnswers s t b (leBytes 4 0)
      ∧ t.boot.flash = some (putFlashPatch f ((s.reqBlock b).drop 8))
      ∧ t = { s with boot := { s.boot with flash := t.boot.flash }, funcs := t.funcs, hlu := t.hlu, imb := t.imb, out := t.out }) ∧
  (∀ (b : FwBlock) (f : Flash) (r : Nat × Nat) (s : State), s.fwTakes b 3 = true → s.boot.flash = some f → s.reqOk b 8 = true →
    s.reqLen b.slot ≤ 16777224 → u16 (s.reqBlock b) 0 = 3 → checkImage s.boot.fuses ((s.reqBlock b).drop 8) = .inl r →
    ∃ t, exec (.fwFlashWrite b) s = .next t ∧ fwAnswers s t b (leBytes 5 (6 + put 4 0 r.1)) ∧ t.boot.flash = s.boot.flash
      ∧ t.boot.chkReason = r.1 ∧ t.boot.chkOffset = r.2
      ∧ t = { s with boot := t.boot, funcs := t.funcs, hlu := t.hlu, imb := t.imb, out := t.out }) ∧
  (∀ (b : FwBlock) (s : State), s.fwTakes b 4 = true → s.reqOk b 128 = true →
    ∃ t, exec (.fwDebugUnlock b) s = .next t ∧ fwAnswers s t b (leBytes 4 (s.tokenStatus (s.reqBlock b)))
      ∧ t.boot.debug = (s.boot.debug || s.tokenStatus (s.reqBlock b) == 0) ∧ t.boot.nonce = Config.freeValue s.free 64
      ∧ t = { s with boot := t.boot, free := t.free, funcs := t.funcs, hlu := t.hlu, imb := t.imb, out := t.out })

/-- The management port reads the identity and boot words at every time, and FN_STATUS while the device runs; a telemetry snapshot is one
host write of 4 KiB at a multiple of its interval (its place and contents are free values, log entry 5). A reading gives every sensor
its TEMP and PEAK, and TGT_ALERT_N its level; at 115 °C THERMTRIP_N asserts and the device enters the safe state with CAUSE 4. -/
def Obligations.SensorsAndPort : Prop :=
  (∀ (s : State), exec (.tgtRead 0) s = .next (s.withRdata 0x64161F3A)) ∧
  (∀ (ix v : Nat) (s : State), s.tgtValue ix = some v → exec (.tgtRead ix) s = .next (s.withRdata (BitVec.ofNat 64 (v % 2 ^ 32)))) ∧
  (∀ (s : State), s.running = false → exec (.tgtRead 5) s = .next (s.withRdata 0)) ∧
  (∀ (s : State), s.up = true → (s.func 0).ready = true → (s.func 0).flr = false → (s.func 0).d3 = false → s.linkPasses = true →
    s.fcl.mpDown &&& ~~~ s.fcl.mpFenced = 0 →
    ∃ t, exec .telemetrySnapshot s = .next t ∧ s.time < t.time ∧ t.time % s.telemetryNs = 0
      ∧ (∃ a bs, bs.length = 4096 ∧ t.out = s.out ++ [.hostWrite 0 a bs false])
      ∧ t = { s with time := t.time, aon := t.aon, free := t.free, hlu := t.hlu, out := t.out }) ∧
  (∀ (temps : List Int) (s : State), temps.length = 16 →
    ∃ t, exec (.thermalReading temps) s = .next t
      ∧ (∀ i x, temps[i]? = some x → tblGet (0, 0) t.boot.therm i = (x, max x (tblGet (0, -32768) s.boot.therm i).2))
      ∧ t.pins.tgtAlert = t.alerting
      ∧ ((∃ x ∈ temps, 115 ≤ x) → s.pins.thermtrip = false → t.pins.thermtrip = true ∧ t.fcl.inSafe = true
          ∧ (s.fcl.inSafe = false → t.fcl.safe = 4))
      ∧ ((∀ x ∈ temps, x ≤ 105) → t.fcl = s.fcl)
      ∧ t = { s with
          boot := { s.boot with therm := t.boot.therm }, cores := t.cores, dmv := t.dmv, dsc := t.dsc, fcl := t.fcl, free := t.free,
          halves := t.halves, mau := t.mau, mem := t.mem, out := t.out, pcf := t.pcf, pins := t.pins, rcu := t.rcu })

/-- The collector accepts the oldest report: it gives it REC_SEQ, stores it or drops the newest where 128 stand, counts it and latches the
first; a class F record enters the safe state. FCL_POP removes the oldest; FIRST_VALID frees the latch. -/
def Obligations.FaultRecords : Prop :=
  (∀ (r : Rec) (rest : List Rec) (s : State), s.pins.pwrgood = true → s.fcl.inbox = r :: rest →
    ∃ t, exec .faultRecord s = .next t ∧ t.fcl.inbox = rest
      ∧ (s.fcl.fifo.length < 128 → t.fcl.fifo = s.fcl.fifo ++ [{ r with recSeq := s.fcl.nextSeq }])
      ∧ (128 ≤ s.fcl.fifo.length → t.fcl.fifo = s.fcl.fifo ∧ tblGet 0 t.fcl.ovf r.cls = sat32 (tblGet 0 s.fcl.ovf r.cls) 1)
      ∧ tblGet 0 t.fcl.count r.source = sat32 (tblGet 0 s.fcl.count r.source) 1
      ∧ (∀ k, k ≠ r.source → tblGet 0 t.fcl.count k = tblGet 0 s.fcl.count k)
      ∧ (s.fcl.first = none → t.fcl.first = some { r with recSeq := s.fcl.nextSeq })
      ∧ (∀ x, s.fcl.first = some x → t.fcl.first = some x)
      ∧ t.fcl.nextSeq = (if s.fcl.nextSeq = 0xFFFFFFFF then 1 else s.fcl.nextSeq + 1)
      ∧ (r.cls = 2 → s.fcl.inSafe = false → t.fcl.inSafe = true ∧ t.fcl.safe = 1 ∧ t.pins.alive = false)
      ∧ (r.cls ≠ 2 → t.fcl.inSafe = s.fcl.inSafe ∧ t.fcl.safe = s.fcl.safe
          ∧ t = { s with
              clusters := t.clusters, evq := t.evq, fcl := t.fcl, funcs := t.funcs, hlu := t.hlu, imb := t.imb, mem := t.mem, out := t.out,
              pins := t.pins })) ∧
  (∀ (v : Word) (s : State), s.pf0Answers = true →
    exec (.fclPop v) s = .next { s with fcl := { s.fcl with fifo := if v.getLsbD 0 then s.fcl.fifo.drop 1 else s.fcl.fifo } }) ∧
  (∀ (s : State), s.pf0Answers = true → exec .firstValidClear s = .next { s with fcl := { s.fcl with first := none } })

/-- A parity error in the collector enters the safe state with CAUSE 3, where no half holds a unit and ALIVE stops; ALIVE_RESUME lets ALIVE
toggle again; a policy window's end halves its counts. A lockstep mismatch counts against MP_LIMIT, stops the pair, is recorded, empties
the outbound mailbox of PF0 and leaves the pair holding no semaphore; with both pairs fenced a class F fault follows; a pair not fenced
runs again. An error in a clean Electrum line is recorded with code 0x01, one in a dirty line with code 0x03, and resets its session;
either takes one way of the set out of service. -/
def Obligations.SafeStateAndFaults : Prop :=
  (∀ (s : State), s.pins.pwrgood = true → s.fcl.inSafe = false →
    ∃ t, exec .fclParityError s = .next t ∧ t.fcl.inSafe = true ∧ t.fcl.safe = 3 ∧ t.pins.alive = false ∧ t.fcl.fifo = s.fcl.fifo
      ∧ t.fcl.inbox = s.fcl.inbox ∧ (∀ h, (t.half h).unit = none) ∧ (∀ u ∈ t.dsc.units, u.stage = .queued) ∧ t.dmv.slots = []
      ∧ t.mem.cells = s.mem.cells ∧ t.up = false
      ∧ t = { s with
          dmv := t.dmv, dsc := t.dsc, fcl := t.fcl, halves := t.halves, mau := t.mau, mem := t.mem, out := t.out, pcf := t.pcf,
          pins := t.pins, rcu := t.rcu }) ∧
  (∀ (s : State), s.pins.pwrgood = true → s.fcl.inSafe = true → exec .fclParityError s = .next s) ∧
  (∀ (s : State), s.up = true → s.pf0Answers = true → s.fcl.aliveStopped = true →
    ∃ t, exec .aliveResume s = .next t ∧ t.fcl = { s.fcl with aliveStopped := false } ∧ t.pins.alive = true
      ∧ t.pins.tgtAlert = t.alerting ∧ t = { s with fcl := t.fcl, out := t.out, pins := t.pins }) ∧
  (∀ (s : State), s.up = true →
    ∃ t, exec (.policyWindowEnd false) s = .next t ∧ (∀ h, h < 128 → (t.half h).mchkWindow = (s.half h).mchkWindow / 2)
      ∧ (∀ e n, s.mau.parity = [(e, n)] → tblGet 0 t.mau.parity e = n / 2)
      ∧ (∀ p n, s.pcf.parity = [(p, n)] → tblGet 0 t.pcf.parity p = n / 2)
      ∧ t = { s with halves := t.halves, mau := t.mau, pcf := t.pcf }) ∧
  (∀ (a b : Nat) (s : State), s.up = true → s.fcl.restarts = [(0, a), (1, b)] →
    ∃ t, exec (.policyWindowEnd true) s = .next t ∧ tblGet 0 t.fcl.restarts 0 = a / 2 ∧ tblGet 0 t.fcl.restarts 1 = b / 2
      ∧ t = { s with fcl := { s.fcl with restarts := t.fcl.restarts } }) ∧
  (∀ (p : Nat) (s : State), s.up = true → p < 2 → s.fcl.mpDown.getLsbD p = false → tblGet 0 s.fcl.restarts p < s.policy.mpLimit →
    s.fcl.mpFenced ≠ 3 →
    ∃ t, exec (.lockstepMismatch p) s = .next t ∧ tblGet 0 t.fcl.restarts p = tblGet 0 s.fcl.restarts p + 1
      ∧ t.fcl.mpDown = s.fcl.mpDown ||| BitVec.twoPow 2 p ∧ t.fcl.mpFenced = s.fcl.mpFenced ∧ Records s t 0x0B (s.reportClass 0x0B)
      ∧ (t.mbx 0).out = 0 ∧ (∀ n, n < 64 → (t.sem n).holder ≠ some (64 + 2 * p) ∧ (t.sem n).holder ≠ some (65 + 2 * p))
      ∧ t = { s with fcl := t.fcl, funcs := t.funcs, hlu := t.hlu, imb := t.imb, out := t.out }) ∧
  (∀ (p : Nat) (s : State), s.up = true → p < 2 → s.fcl.mpDown.getLsbD p = false → s.policy.mpLimit ≤ tblGet 0 s.fcl.restarts p →
    s.fcl.mpFenced ||| BitVec.twoPow 2 p = 3 →
    ∃ t, exec (.lockstepMismatch p) s = .next t ∧ t.fcl.mpFenced = 3
      ∧ (∃ a b, t.fcl.inbox = s.fcl.inbox ++ [a, b] ∧ a.code = 0x0B ∧ b.code = 0x33 ∧ b.cls = 2)
      ∧ t = { s with fcl := t.fcl, funcs := t.funcs, hlu := t.hlu, imb := t.imb, out := t.out }) ∧
  (∀ (p : Nat) (s : State), s.up = true → p < 2 → s.fcl.mpFenced.getLsbD p = false →
    exec (.firmwareRestartDone p) s = .next { s with fcl := { s.fcl with mpDown := s.fcl.mpDown &&& ~~~ BitVec.twoPow 2 p } }) ∧
  (∀ (n : Nat) (l : CLine) (s : State), s.live = true → (s.cacheSet n).find? (fun l => l.session == n) = some l → l.dirty = false →
    ∃ t, exec (.electrumLineError n) s = .next t ∧ Records s t 0x01 0
      ∧ tblGet 0 t.ctx.lostWays (n % 256) = min 16 (tblGet 0 s.ctx.lostWays (n % 256) + 1)
      ∧ t = { s with clusters := t.clusters, ctx := t.ctx, fcl := t.fcl, free := t.free, mem := t.mem }) ∧
  (∀ (n : Nat) (l : CLine) (s : State), s.live = true → (s.cacheSet n).find? (fun l => l.session == n) = some l → l.dirty = true →
    (s.sess n).state ≠ .free → (s.sess n).state ≠ .draining →
    ∃ t, exec (.electrumLineError n) s = .next t ∧ (t.sess n).state = .sessionReset
      ∧ (∃ r rs, t.fcl.inbox = s.fcl.inbox ++ r :: rs ∧ r.code = 0x03)
      ∧ tblGet 0 t.ctx.lostWays (n % 256) = min 16 (tblGet 0 s.ctx.lostWays (n % 256) + 1)
      ∧ t = { s with
          admq := t.admq, cfgq := t.cfgq, clusters := t.clusters, ctx := t.ctx, dmv := t.dmv, dsc := t.dsc, evq := t.evq, fcl := t.fcl,
          free := t.free, funcs := t.funcs, halves := t.halves, hlu := t.hlu, imb := t.imb, mau := t.mau, mem := t.mem, out := t.out,
          pcf := t.pcf, queues := t.queues, sessions := t.sessions })

/-- A write of a query ID clears VALID; the query's result then shows the session, class, queue or pool, with VALID. The blocks that some
offsets of BAR 0 name, the worked addresses of the register map among them. -/
def Obligations.QueryRegisters : Prop :=
  (∀ (v : Word) (s : State), s.fnLive 0 = true →
    exec (.ctxQueryIdWrite v) s
      = .next { s with ctx := { s.ctx with queryId := v.toNat % 2 ^ 20, queryRes := s.ctx.queryRes &&& 0x7FFFFFFF } } ∧
    exec (.dscClassQueryWrite v) s
      = .next { s with dsc := { s.dsc with queryId := v.toNat % 2 ^ 10, queryRes := s.dsc.queryRes &&& 0x7FFFFFFF } } ∧
    exec (.qeQueryIdWrite v) s
      = .next { s with qe := { s.qe with queryId := v.toNat % 2 ^ 16, queryRes := s.qe.queryRes &&& 0x7FFFFFFF } } ∧
    exec (.bpmQueryIdWrite v) s
      = .next { s with bpm := { s.bpm with queryId := v.toNat % 2 ^ 8, queryRes := s.bpm.queryRes &&& 0x7FFFFFFF } }) ∧
  (∀ (s : State), s.live = true → s.ctx.queryRes.getLsbD 31 = false →
    exec (.queryResultValid .ctx) s = .next { s with ctx := { s.ctx with queryRes := BitVec.ofNat 32 (s.sessionWord s.ctx.queryId) } }) ∧
  (∀ (s : State), s.live = true → s.dsc.queryRes.getLsbD 31 = false →
    exec (.queryResultValid .dsc) s = .next { s with dsc := { s.dsc with
      queryRes := BitVec.ofNat 32 (s.classWord s.dsc.queryId), queryTag := BitVec.ofNat 64 (s.cls s.dsc.queryId).fTag } }) ∧
  (∀ (s : State), s.live = true → s.qe.queryRes.getLsbD 31 = false →
    exec (.queryResultValid .qe) s = .next { s with qe := { s.qe with
      queryRes := BitVec.ofNat 32 (s.queueWord s.qe.queryId), queryProd := BitVec.ofNat 32 (s.queue s.qe.queryId).prod } }) ∧
  (∀ (p : Pool) (s : State), s.live = true → s.bpm.queryRes.getLsbD 31 = false → s.pool? s.bpm.queryId = some p →
    exec (.queryResultValid .bpm) s = .next { s with bpm := { s.bpm with
      queryRes := BitVec.ofNat 32 (2 ^ 31 + 2 ^ 30 + p.fn * 2 ^ 24 + p.bufLog), queryFree := BitVec.ofNat 32 p.freeCount } }) ∧
  (blkOf 0 0 = (.csc, 0) ∧ blkOf 0 0x011A0008 = (.seqr 13, 8) ∧ blkOf 0 0x00BC0024 = (.drs 12, 0x24)
  ∧ (∀ n, n < 64 → blkOf 0 (0x1000000 + 0x40000 * n) = (.core n, 0))
  ∧ (∀ k, k < 16 → blkOf 0 (0xB00000 + 0x10000 * k) = (.drs k, 0))
  ∧ (∀ q, q < 65536 → blkOf 0 (0x2000000 + 64 * q) = (.bell q, 0))
  ∧ (∀ fn, 0 < fn → blkOf fn 0x20000 = (.mbx (.vf fn), 0) ∧ blkOf fn 0x21000 = (.irq, 0) ∧ blkOf fn 0x22000 = (.page, 0))
  ∧ (∀ fn q, 0 < fn → q < 2048 → blkOf fn (64 * q) = (.bell q, 0))
  ∧ (∀ off, 0xE00000 ≤ off → off < 0x1000000 → (blkOf 0 off).1 = .none_)
  ∧ (∀ off, 0x2403000 ≤ off → off < 0x4000000 → (blkOf 0 off).1 = .none_))

/-- A read of a pair's low word returns it and latches the high word for the function; the high word then reads the latch, which clears;
without a latch it reads the current high word. An aligned read of 8 bytes at a pair returns its 64 bits. A write of a pair's low word
is held for the function; a write of the high word takes effect as one 64-bit write with what is held, or with the current low word; an
aligned write of 8 bytes takes effect at once; a pair that ENABLE locks keeps its value. -/
def Obligations.RegisterPairs : Prop :=
  (∀ (fn off v : Nat) (s : State), off % 4 = 0 → s.shows fn (blkOf fn off).1 (blkOf fn off).2 = true →
    s.pairVal fn (blkOf fn off).1 (blkOf fn off).2 = some v →
    ∃ t, exec (.pairLowRead fn off) s = .next t ∧ t.rdata = BitVec.ofNat 64 (v % 2 ^ 32)
      ∧ tblGet false t.latched (pairKey fn off) = true ∧ tblGet 0 t.latches (pairKey fn off) = BitVec.ofNat 32 (v / 2 ^ 32)
      ∧ (∀ k, k ≠ pairKey fn off → tblGet false t.latched k = tblGet false s.latched k ∧ tblGet 0 t.latches k = tblGet 0 s.latches k)
      ∧ t = { s with latches := t.latches, latched := t.latched, rdata := t.rdata }) ∧
  (∀ (fn off v : Nat) (s : State), off % 4 = 0 → s.isPair fn (off + 4) true = true →
    s.shows fn (blkOf fn (off + 4)).1 (blkOf fn (off + 4)).2 = true → s.pairAbove fn (blkOf fn (off + 4)).1 (blkOf fn (off + 4)).2 = some v →
    (tblGet false s.latched (pairKey fn off) = true →
      ∃ t, exec (.pairHighRead fn (off + 4)) s = .next t ∧ t.rdata = BitVec.ofNat 64 (tblGet 0 s.latches (pairKey fn off)).toNat
        ∧ tblGet false t.latched (pairKey fn off) = false
        ∧ (∀ k, k ≠ pairKey fn off → tblGet false t.latched k = tblGet false s.latched k)
        ∧ t = { s with latches := t.latches, latched := t.latched, rdata := t.rdata }) ∧
    (tblGet false s.latched (pairKey fn off) = false →
      exec (.pairHighRead fn (off + 4)) s = .next (s.withRdata (BitVec.ofNat 64 (v / 2 ^ 32 % 2 ^ 32))))) ∧
  (∀ (fn off v : Nat) (s : State), off % 8 = 0 → off < barSize fn → s.shows fn (blkOf fn off).1 (blkOf fn off).2 = true →
    s.pairVal fn (blkOf fn off).1 (blkOf fn off).2 = some v → s.isPair fn (off + 4) true = true →
    s.shows fn (blkOf fn (off + 4)).1 (blkOf fn (off + 4)).2 = true →
    ∃ t, exec (.unalignedRead fn off 8) s = .next t ∧ t.rdata = BitVec.ofNat 64 v
      ∧ t = { s with latches := t.latches, latched := t.latched, rdata := t.rdata }) ∧
  (∀ (fn off : Nat) (v : Word) (s : State), s.pairWritable fn off = true → s.pairFree fn (blkOf fn off).2 = true →
    ∃ t, exec (.pairLowWrite fn off v) s = .next t ∧ t.heldLow fn (pageOff fn (blkOf fn off).2) = some v
      ∧ (∀ g o, pairKey g o ≠ pairKey fn (pageOff fn (blkOf fn off).2) → t.heldLow g o = s.heldLow g o)
      ∧ t = { s with heldW := t.heldW, heldV := t.heldV }) ∧
  (∀ (fn off : Nat) (v lo : Word) (s : State), s.pairWritable fn off = true → s.pairFree fn (blkOf fn off).2 = true →
    (blkOf fn off).2 ≠ 0xCC →
    (s.heldLow fn (pageOff fn (blkOf fn off).2) = some lo ∨
      s.heldLow fn (pageOff fn (blkOf fn off).2) = none ∧ lo = BitVec.ofNat 32 ((s.pagePair fn (blkOf fn off).2).getD 0)) →
    ∃ t, exec (.pairHighWrite fn (off + 4) v) s = .next t ∧ t.heldLow fn (pageOff fn (blkOf fn off).2) = none
      ∧ t = { s.putPair fn (blkOf fn off).2 (v ++ lo) with heldW := t.heldW, heldV := t.heldV }
      ∧ ((blkOf fn off).2 = 0x10 → t.admQ fn = { s.admQ fn with base := v ++ lo })
      ∧ ((blkOf fn off).2 = 0x18 → t.admQ fn = { s.admQ fn with res := v ++ lo })
      ∧ ((blkOf fn off).2 = 0x20 → t.admQ fn = { s.admQ fn with sb := v ++ lo })) ∧
  (∀ (fn off : Nat) (v w : Word) (s : State), off % 8 = 0 → off < barSize fn → s.pairWritable fn off = true →
    s.pairFree fn (blkOf fn off).2 = true → (blkOf fn off).2 ≠ 0xCC → blkOf fn (off + 4) = (.page, (blkOf fn off).2 + 4) →
    s.pairTakes fn ((blkOf fn off).2 + 4) = false →
    ∃ t, exec (.regWrite fn off 15 [v, w]) s = .next t ∧ t.heldLow fn (pageOff fn (blkOf fn off).2) = none
      ∧ t = { s.putPair fn (blkOf fn off).2 (w ++ v) with heldW := t.heldW, heldV := t.heldV }) ∧
  (∀ (fn off : Nat) (v : Word) (s : State), s.pairWritable fn off = true → s.pairFree fn (blkOf fn off).2 = false →
    exec (.pairLowWrite fn off v) s = .next s ∧
    ∃ t, exec (.pairHighWrite fn (off + 4) v) s = .next t ∧ t = { s with heldW := t.heldW, heldV := t.heldV })

/-- A write that is not aligned or does not cover its four bytes, and a read that is not naturally aligned, are recorded with code 0x20 as
class U and do nothing else; an access that the device's state hides reads 0 or is discarded; a read of an RC field clears it, a write
of a read-only block is ignored, and a locked RWL field is recorded. -/
def Obligations.RegisterAccesses : Prop :=
  (∀ (fn off : Nat) (be : BitVec 4) (v : List Word) (s : State), off < barSize fn → s.fnAnswers fn = true → v ≠ [] →
    be ≠ 15 ∨ off % (4 * v.length) ≠ 0 → ∃ t, exec (.regWrite fn off be v) s = .next t ∧ Records s t 0x20 3 ∧ t = { s with fcl := t.fcl }) ∧
  (∀ (fn off len : Nat) (s : State), off < barSize fn → s.fnAnswers fn = true → naturally off len = false →
    ∃ t, exec (.unalignedRead fn off len) s = .next t ∧ t.rdata = 0 ∧ Records s t 0x20 3 ∧ t = { s with fcl := t.fcl, rdata := t.rdata }) ∧
  (∀ (fn off : Nat) (s : State), s.shows fn (blkOf fn (off / 4 * 4)).1 (blkOf fn (off / 4 * 4)).2 = false →
    exec (.rcRead fn off) s = .next (s.withRdata 0)) ∧
  (∀ (fn off : Nat) (v : Word) (s : State), off < barSize fn → off % 4 = 0 → s.takes fn (blkOf fn off).1 (blkOf fn off).2 = false →
    exec (.regWrite fn off 15 [v]) s = .next s) ∧
  (∀ (s : State), s.shows 0 .hlu 0x18 = true → exec (.rcRead 0 0x100018) s
    = .next { s with rdata := BitVec.ofNat 64 s.hlu.biCount.toNat, hlu := { s.hlu with biCount := 0 } }) ∧
  (∀ (s : State), s.shows 0 .qe 0x1C = true → exec (.rcRead 0 0x20001C) s
    = .next { s with rdata := BitVec.ofNat 64 s.qe.malformed.toNat, qe := { s.qe with malformed := 0 } }) ∧
  (∀ (n : Nat) (s : State), n < 256 → s.shows 0 .fcl (0x400 + 4 * n) = true →
    ∃ t, exec (.rcRead 0 (0xD00400 + 4 * n)) s = .next t ∧ t.rdata = BitVec.ofNat 64 (tblGet 0 s.fcl.count n).toNat
      ∧ tblGet 0 t.fcl.count n = 0 ∧ (∀ k, k ≠ n → tblGet 0 t.fcl.count k = tblGet 0 s.fcl.count k)
      ∧ t = { s with rdata := t.rdata, fcl := { s.fcl with count := t.fcl.count } }) ∧
  (∀ (off : Nat) (v : Word) (s : State), off < 0x100000 → off % 4 = 0 → exec (.regWrite 0 off 15 [v]) s = .next s) ∧
  (∀ (v : Word) (s : State), s.takes 0 .qe 0 = true → exec (.regWrite 0 0x200000 15 [v]) s
    = .next { s with qe := { s.qe with chainTmo := max 1 (v.toNat % 1024) } }) ∧
  (∀ (v : Word) (s : State), s.takes 0 .ctx 0 = true → exec (.regWrite 0 0x600000 15 [v]) s
    = .next { s with ctx := { s.ctx with ctrl := v &&& 0x1FF } }) ∧
  (∀ (v : Word) (s : State), s.takes 0 .hlu 0xC = true → exec (.regWrite 0 0x10000C 15 [v]) s
    = .next { s with hlu := { s.hlu with stepped := s.hlu.stepped && !v.getLsbD 30 } }) ∧
  (∀ (k : Nat) (v : Word) (s : State), k < 16 → s.takes 0 (.drs k) 0x40 = true → s.boot.protLock = true →
    ∃ t, exec (.regWrite 0 (0xB00040 + 0x10000 * k) 15 [v]) s = .next t ∧ Records s t 0x20 3 ∧ t = { s with fcl := t.fcl })
end

