-- ==== Sys2Proof/Laws/Table.lean ====
section
/-! SUPPORT. Laws of the sparse tables: a read after a write, and the canonical form, which every write keeps. -/
namespace Sys2Proof.Machine

theorem tblGet_tblErase {α : Type} (d : α) (t : Tbl α) (i j : Nat) : tblGet d (tblErase t i) j = if i = j then d else tblGet d t j := by
  induction t with
  | nil => simp [tblErase, tblGet]
  | cons p t ih => grind [tblErase, tblGet]

theorem tblGet_tblInsert {α : Type} (d : α) (t : Tbl α) (i j : Nat) (v : α) :
    tblGet d (tblInsert t i v) j = if i = j then v else tblGet d t j := by
  induction t with
  | nil => simp [tblInsert, tblGet]
  | cons p t ih => grind [tblInsert, tblGet]

/-- What a write leaves to be read, at its own key and at every other. -/
theorem tblGet_tblSet {α : Type} [DecidableEq α] (d : α) (t : Tbl α) (i j : Nat) (v : α) :
    tblGet d (tblSet d t i v) j = if i = j then v else tblGet d t j := by
  unfold tblSet
  split <;> simp_all [tblGet_tblErase, tblGet_tblInsert]

@[simp] theorem tblGet_tblSet_same {α : Type} [DecidableEq α] (d : α) (t : Tbl α) (i : Nat) (v : α) :
    tblGet d (tblSet d t i v) i = v := by simp [tblGet_tblSet]

@[simp] theorem tblGet_tblMod_same {α : Type} [DecidableEq α] (d : α) (t : Tbl α) (i : Nat) (f : α → α) :
    tblGet d (tblMod d t i f) i = f (tblGet d t i) := by simp [tblMod]

theorem tblGet_tblMod_other {α : Type} [DecidableEq α] (d : α) (t : Tbl α) (i j : Nat) (f : α → α) (h : i ≠ j) :
    tblGet d (tblMod d t i f) j = tblGet d t j := by simp [tblMod, tblGet_tblSet, h]

/-- A table whose keys all exceed `k`. -/
def tblAbove {α : Type} (k : Nat) (t : Tbl α) : Prop := ∀ p ∈ t, k < p.1

/-- The canonical form, by the first entry. -/
theorem tblWf_cons {α : Type} [DecidableEq α] (d : α) (k : Nat) (v : α) (t : Tbl α) :
    tblWf d ((k, v) :: t) = true ↔ tblAbove k t ∧ v ≠ d ∧ tblWf d t = true := by
  induction t generalizing k v with
  | nil => simp [tblWf, tblSorted, tblAbove]
  | cons p t ih =>
    obtain ⟨k', v'⟩ := p
    have h1 := ih k' v'
    constructor
    · intro h
      have h2 : k < k' ∧ tblWf d ((k', v') :: t) = true ∧ v ≠ d := by
        simp [tblWf, tblSorted] at h ⊢; tauto
      refine ⟨?_, h2.2.2, h2.2.1⟩
      intro p hp
      rcases List.mem_cons.1 hp with rfl | hp
      · exact h2.1
      · exact Nat.lt_trans h2.1 ((h1.1 h2.2.1).1 p hp)
    · rintro ⟨ha, hv, hw⟩
      have h3 : k < k' := ha _ (List.mem_cons_self ..)
      simp [tblWf, tblSorted] at hw ⊢; tauto

theorem tblAbove_tblErase {α : Type} (k i : Nat) (t : Tbl α) (h : tblAbove k t) : tblAbove k (tblErase t i) := by
  induction t with
  | nil => exact h
  | cons p t ih => unfold tblAbove at *; grind [tblErase]

theorem tblAbove_tblInsert {α : Type} (k i : Nat) (v : α) (t : Tbl α) (h : tblAbove k t) (hi : k < i) : tblAbove k (tblInsert t i v) := by
  induction t with
  | nil => unfold tblAbove at *; grind [tblInsert]
  | cons p t ih => unfold tblAbove at *; grind [tblInsert]

theorem tblWf_tblErase {α : Type} [DecidableEq α] (d : α) (t : Tbl α) (i : Nat) (h : tblWf d t = true) : tblWf d (tblErase t i) = true := by
  induction t with
  | nil => exact h
  | cons p t ih =>
    obtain ⟨k, v⟩ := p
    rw [tblWf_cons] at h
    unfold tblErase
    split
    · exact ih h.2.2
    · rw [tblWf_cons]; exact ⟨tblAbove_tblErase _ _ _ h.1, h.2.1, ih h.2.2⟩

theorem tblWf_tblInsert {α : Type} [DecidableEq α] (d : α) (t : Tbl α) (i : Nat) (v : α) (hv : v ≠ d) (h : tblWf d t = true) :
    tblWf d (tblInsert t i v) = true := by
  induction t with
  | nil => simp [tblInsert, tblWf, tblSorted, hv]
  | cons p t ih =>
    obtain ⟨k, w⟩ := p
    have h' := (tblWf_cons d k w t).1 h
    unfold tblInsert
    split
    · next hlt =>
      rw [tblWf_cons]
      refine ⟨fun q hq => ?_, hv, h⟩
      rcases List.mem_cons.1 hq with rfl | hq
      · exact hlt
      · exact Nat.lt_trans hlt (h'.1 q hq)
    · split
      · next heq => rw [tblWf_cons]; exact ⟨heq ▸ h'.1, hv, h'.2.2⟩
      · rw [tblWf_cons]
        exact ⟨tblAbove_tblInsert _ _ _ _ h'.1 (by omega), h'.2.1, ih h'.2.2⟩

/-- A write keeps the canonical form. -/
theorem tblWf_tblSet {α : Type} [DecidableEq α] (d : α) (t : Tbl α) (i : Nat) (v : α) (h : tblWf d t = true) : tblWf d (tblSet d t i v) = true := by
  unfold tblSet
  split
  · exact tblWf_tblErase d t i h
  · next hv => exact tblWf_tblInsert d t i v hv h

theorem tblWf_tblMod {α : Type} [DecidableEq α] (d : α) (t : Tbl α) (i : Nat) (f : α → α) (h : tblWf d t = true) :
    tblWf d (tblMod d t i f) = true := tblWf_tblSet d t i _ h

/-- Entries taken out keep the canonical form. -/
theorem tblWf_filter {α : Type} [DecidableEq α] (d : α) (t : Tbl α) (p : Nat × α → Bool) (h : tblWf d t = true) : tblWf d (t.filter p) = true := by
  induction t with
  | nil => exact h
  | cons q t ih =>
    obtain ⟨k, v⟩ := q
    rw [tblWf_cons] at h
    rw [List.filter_cons]
    split
    · rw [tblWf_cons]; exact ⟨fun q hq => h.1 q (List.mem_filter.1 hq).1, h.2.1, ih h.2.2⟩
    · exact ih h.2.2

end Sys2Proof.Machine
end

