-- ==== Sys2Proof/Laws/Memory.lean ====
section
/-! SUPPORT. Laws of device memory: what a write leaves to be read, and that every memory operation keeps the canonical form. -/
namespace Sys2Proof.Machine

theorem writeCells_wf (r : Nat → Bool) (t : Tbl Byte) (a : Nat) (bs : List Byte) (h : tblWf 0 t = true) :
    tblWf 0 (writeCells r t a bs) = true := by
  induction bs generalizing t a with
  | nil => exact h
  | cons b bs ih =>
    unfold writeCells
    apply ih
    split
    · exact h
    · exact tblWf_tblSet 0 t a b h

/-- A byte after a run of bytes has been stored: the byte of the run at its place, and every other byte as before. -/
theorem tblGet_writeCells (r : Nat → Bool) (t : Tbl Byte) (a : Nat) (bs : List Byte) (j : Nat) :
    tblGet 0 (writeCells r t a bs) j
      = if a ≤ j ∧ j < a + bs.length ∧ r j = false then bs.getD (j - a) 0 else tblGet 0 t j := by
  induction bs generalizing t a with
  | nil => simp [writeCells]; intro h1 h2; omega
  | cons b bs ih =>
    unfold writeCells
    rw [ih]
    by_cases hj : j = a
    · subst hj
      by_cases hr : r j = true
      · simp [hr]
      · simp [hr]
    · by_cases hin : a + 1 ≤ j ∧ j < a + 1 + bs.length ∧ r j = false
      · have h2 : a ≤ j ∧ j < a + (b :: bs).length ∧ r j = false := by
          refine ⟨by omega, ?_, hin.2.2⟩
          simp only [List.length_cons]; omega
        rw [if_pos hin, if_pos h2]
        have : j - a = (j - (a + 1)) + 1 := by omega
        rw [this]; simp
      · have h2 : ¬ (a ≤ j ∧ j < a + (b :: bs).length ∧ r j = false) := by simp at hin ⊢; intro h3 h4; exact hin (by omega) (by omega)
        rw [if_neg hin, if_neg h2]
        by_cases hr : r a = true
        · simp [hr]
        · simp [hr, tblGet_tblSet, Ne.symm hj]

theorem memWrite_wf (s : State) (a : Nat) (bs : List Byte) (h : Memory.wf s.mem = true) : Memory.wf (s.memWrite a bs).mem = true :=
  writeCells_wf _ _ a bs h

theorem poisonLine_wf (s : State) (a : Nat) (h : Memory.wf s.mem = true) : Memory.wf (s.poisonLine a).mem = true := h

/-- One byte of device memory after a write: the stored byte, unless the page is retired; every other byte as before (R426). -/
theorem byteAt_memWrite (s : State) (a : Nat) (bs : List Byte) (j : Nat) :
    (s.memWrite a bs).byteAt j
      = if a ≤ j ∧ j < a + bs.length ∧ s.retiredAt j = false then bs.getD (j - a) 0 else s.byteAt j :=
  tblGet_writeCells _ _ a bs j

theorem memRead_length (s : State) (a n : Nat) : (s.memRead a n).length = n := by
  induction n generalizing a with
  | zero => rfl
  | succ n ih => simp [State.memRead, ih]

end Sys2Proof.Machine
end

