-- ==== Sys2Proof/Laws/State.lean ====
section
/-! SUPPORT. One law per field per update of the state: each is true by definition, and no later proof unfolds a record update. -/
namespace Sys2Proof.Machine

@[simp] theorem modPins_pending (s : State) (f : Pins → Pins) : (s.modPins f).pending = s.pending := rfl
@[simp] theorem modPins_free (s : State) (f : Pins → Pins) : (s.modPins f).free = s.free := rfl
@[simp] theorem modPins_time (s : State) (f : Pins → Pins) : (s.modPins f).time = s.time := rfl
@[simp] theorem modPins_aon (s : State) (f : Pins → Pins) : (s.modPins f).aon = s.aon := rfl
@[simp] theorem modPins_out (s : State) (f : Pins → Pins) : (s.modPins f).out = s.out := rfl
@[simp] theorem modPins_rdata (s : State) (f : Pins → Pins) : (s.modPins f).rdata = s.rdata := rfl
@[simp] theorem modPins_latches (s : State) (f : Pins → Pins) : (s.modPins f).latches = s.latches := rfl
@[simp] theorem modPins_latched (s : State) (f : Pins → Pins) : (s.modPins f).latched = s.latched := rfl
@[simp] theorem modPins_heldW (s : State) (f : Pins → Pins) : (s.modPins f).heldW = s.heldW := rfl
@[simp] theorem modPins_heldV (s : State) (f : Pins → Pins) : (s.modPins f).heldV = s.heldV := rfl
@[simp] theorem modPins_pins (s : State) (f : Pins → Pins) : (s.modPins f).pins = f s.pins := rfl
@[simp] theorem modPins_boot (s : State) (f : Pins → Pins) : (s.modPins f).boot = s.boot := rfl
@[simp] theorem modPins_funcs (s : State) (f : Pins → Pins) : (s.modPins f).funcs = s.funcs := rfl
@[simp] theorem modPins_admq (s : State) (f : Pins → Pins) : (s.modPins f).admq = s.admq := rfl
@[simp] theorem modPins_cfgq (s : State) (f : Pins → Pins) : (s.modPins f).cfgq = s.cfgq := rfl
@[simp] theorem modPins_evq (s : State) (f : Pins → Pins) : (s.modPins f).evq = s.evq := rfl
@[simp] theorem modPins_qe (s : State) (f : Pins → Pins) : (s.modPins f).qe = s.qe := rfl
@[simp] theorem modPins_queues (s : State) (f : Pins → Pins) : (s.modPins f).queues = s.queues := rfl
@[simp] theorem modPins_sessions (s : State) (f : Pins → Pins) : (s.modPins f).sessions = s.sessions := rfl
@[simp] theorem modPins_dsc (s : State) (f : Pins → Pins) : (s.modPins f).dsc = s.dsc := rfl
@[simp] theorem modPins_ctx (s : State) (f : Pins → Pins) : (s.modPins f).ctx = s.ctx := rfl
@[simp] theorem modPins_halves (s : State) (f : Pins → Pins) : (s.modPins f).halves = s.halves := rfl
@[simp] theorem modPins_cores (s : State) (f : Pins → Pins) : (s.modPins f).cores = s.cores := rfl
@[simp] theorem modPins_clusters (s : State) (f : Pins → Pins) : (s.modPins f).clusters = s.clusters := rfl
@[simp] theorem modPins_rcu (s : State) (f : Pins → Pins) : (s.modPins f).rcu = s.rcu := rfl
@[simp] theorem modPins_mau (s : State) (f : Pins → Pins) : (s.modPins f).mau = s.mau := rfl
@[simp] theorem modPins_pcf (s : State) (f : Pins → Pins) : (s.modPins f).pcf = s.pcf := rfl
@[simp] theorem modPins_ntl (s : State) (f : Pins → Pins) : (s.modPins f).ntl = s.ntl := rfl
@[simp] theorem modPins_mem (s : State) (f : Pins → Pins) : (s.modPins f).mem = s.mem := rfl
@[simp] theorem modPins_dmv (s : State) (f : Pins → Pins) : (s.modPins f).dmv = s.dmv := rfl
@[simp] theorem modPins_bpm (s : State) (f : Pins → Pins) : (s.modPins f).bpm = s.bpm := rfl
@[simp] theorem modPins_hlu (s : State) (f : Pins → Pins) : (s.modPins f).hlu = s.hlu := rfl
@[simp] theorem modPins_imb (s : State) (f : Pins → Pins) : (s.modPins f).imb = s.imb := rfl
@[simp] theorem modPins_fcl (s : State) (f : Pins → Pins) : (s.modPins f).fcl = s.fcl := rfl

@[simp] theorem modBoot_pending (s : State) (f : Boot → Boot) : (s.modBoot f).pending = s.pending := rfl
@[simp] theorem modBoot_free (s : State) (f : Boot → Boot) : (s.modBoot f).free = s.free := rfl
@[simp] theorem modBoot_time (s : State) (f : Boot → Boot) : (s.modBoot f).time = s.time := rfl
@[simp] theorem modBoot_aon (s : State) (f : Boot → Boot) : (s.modBoot f).aon = s.aon := rfl
@[simp] theorem modBoot_out (s : State) (f : Boot → Boot) : (s.modBoot f).out = s.out := rfl
@[simp] theorem modBoot_rdata (s : State) (f : Boot → Boot) : (s.modBoot f).rdata = s.rdata := rfl
@[simp] theorem modBoot_latches (s : State) (f : Boot → Boot) : (s.modBoot f).latches = s.latches := rfl
@[simp] theorem modBoot_latched (s : State) (f : Boot → Boot) : (s.modBoot f).latched = s.latched := rfl
@[simp] theorem modBoot_heldW (s : State) (f : Boot → Boot) : (s.modBoot f).heldW = s.heldW := rfl
@[simp] theorem modBoot_heldV (s : State) (f : Boot → Boot) : (s.modBoot f).heldV = s.heldV := rfl
@[simp] theorem modBoot_pins (s : State) (f : Boot → Boot) : (s.modBoot f).pins = s.pins := rfl
@[simp] theorem modBoot_boot (s : State) (f : Boot → Boot) : (s.modBoot f).boot = f s.boot := rfl
@[simp] theorem modBoot_funcs (s : State) (f : Boot → Boot) : (s.modBoot f).funcs = s.funcs := rfl
@[simp] theorem modBoot_admq (s : State) (f : Boot → Boot) : (s.modBoot f).admq = s.admq := rfl
@[simp] theorem modBoot_cfgq (s : State) (f : Boot → Boot) : (s.modBoot f).cfgq = s.cfgq := rfl
@[simp] theorem modBoot_evq (s : State) (f : Boot → Boot) : (s.modBoot f).evq = s.evq := rfl
@[simp] theorem modBoot_qe (s : State) (f : Boot → Boot) : (s.modBoot f).qe = s.qe := rfl
@[simp] theorem modBoot_queues (s : State) (f : Boot → Boot) : (s.modBoot f).queues = s.queues := rfl
@[simp] theorem modBoot_sessions (s : State) (f : Boot → Boot) : (s.modBoot f).sessions = s.sessions := rfl
@[simp] theorem modBoot_dsc (s : State) (f : Boot → Boot) : (s.modBoot f).dsc = s.dsc := rfl
@[simp] theorem modBoot_ctx (s : State) (f : Boot → Boot) : (s.modBoot f).ctx = s.ctx := rfl
@[simp] theorem modBoot_halves (s : State) (f : Boot → Boot) : (s.modBoot f).halves = s.halves := rfl
@[simp] theorem modBoot_cores (s : State) (f : Boot → Boot) : (s.modBoot f).cores = s.cores := rfl
@[simp] theorem modBoot_clusters (s : State) (f : Boot → Boot) : (s.modBoot f).clusters = s.clusters := rfl
@[simp] theorem modBoot_rcu (s : State) (f : Boot → Boot) : (s.modBoot f).rcu = s.rcu := rfl
@[simp] theorem modBoot_mau (s : State) (f : Boot → Boot) : (s.modBoot f).mau = s.mau := rfl
@[simp] theorem modBoot_pcf (s : State) (f : Boot → Boot) : (s.modBoot f).pcf = s.pcf := rfl
@[simp] theorem modBoot_ntl (s : State) (f : Boot → Boot) : (s.modBoot f).ntl = s.ntl := rfl
@[simp] theorem modBoot_mem (s : State) (f : Boot → Boot) : (s.modBoot f).mem = s.mem := rfl
@[simp] theorem modBoot_dmv (s : State) (f : Boot → Boot) : (s.modBoot f).dmv = s.dmv := rfl
@[simp] theorem modBoot_bpm (s : State) (f : Boot → Boot) : (s.modBoot f).bpm = s.bpm := rfl
@[simp] theorem modBoot_hlu (s : State) (f : Boot → Boot) : (s.modBoot f).hlu = s.hlu := rfl
@[simp] theorem modBoot_imb (s : State) (f : Boot → Boot) : (s.modBoot f).imb = s.imb := rfl
@[simp] theorem modBoot_fcl (s : State) (f : Boot → Boot) : (s.modBoot f).fcl = s.fcl := rfl

@[simp] theorem modCfgQ_pending (s : State) (f : AdmQ → AdmQ) : (s.modCfgQ f).pending = s.pending := rfl
@[simp] theorem modCfgQ_free (s : State) (f : AdmQ → AdmQ) : (s.modCfgQ f).free = s.free := rfl
@[simp] theorem modCfgQ_time (s : State) (f : AdmQ → AdmQ) : (s.modCfgQ f).time = s.time := rfl
@[simp] theorem modCfgQ_aon (s : State) (f : AdmQ → AdmQ) : (s.modCfgQ f).aon = s.aon := rfl
@[simp] theorem modCfgQ_out (s : State) (f : AdmQ → AdmQ) : (s.modCfgQ f).out = s.out := rfl
@[simp] theorem modCfgQ_rdata (s : State) (f : AdmQ → AdmQ) : (s.modCfgQ f).rdata = s.rdata := rfl
@[simp] theorem modCfgQ_latches (s : State) (f : AdmQ → AdmQ) : (s.modCfgQ f).latches = s.latches := rfl
@[simp] theorem modCfgQ_latched (s : State) (f : AdmQ → AdmQ) : (s.modCfgQ f).latched = s.latched := rfl
@[simp] theorem modCfgQ_heldW (s : State) (f : AdmQ → AdmQ) : (s.modCfgQ f).heldW = s.heldW := rfl
@[simp] theorem modCfgQ_heldV (s : State) (f : AdmQ → AdmQ) : (s.modCfgQ f).heldV = s.heldV := rfl
@[simp] theorem modCfgQ_pins (s : State) (f : AdmQ → AdmQ) : (s.modCfgQ f).pins = s.pins := rfl
@[simp] theorem modCfgQ_boot (s : State) (f : AdmQ → AdmQ) : (s.modCfgQ f).boot = s.boot := rfl
@[simp] theorem modCfgQ_funcs (s : State) (f : AdmQ → AdmQ) : (s.modCfgQ f).funcs = s.funcs := rfl
@[simp] theorem modCfgQ_admq (s : State) (f : AdmQ → AdmQ) : (s.modCfgQ f).admq = s.admq := rfl
@[simp] theorem modCfgQ_cfgq (s : State) (f : AdmQ → AdmQ) : (s.modCfgQ f).cfgq = f s.cfgq := rfl
@[simp] theorem modCfgQ_evq (s : State) (f : AdmQ → AdmQ) : (s.modCfgQ f).evq = s.evq := rfl
@[simp] theorem modCfgQ_qe (s : State) (f : AdmQ → AdmQ) : (s.modCfgQ f).qe = s.qe := rfl
@[simp] theorem modCfgQ_queues (s : State) (f : AdmQ → AdmQ) : (s.modCfgQ f).queues = s.queues := rfl
@[simp] theorem modCfgQ_sessions (s : State) (f : AdmQ → AdmQ) : (s.modCfgQ f).sessions = s.sessions := rfl
@[simp] theorem modCfgQ_dsc (s : State) (f : AdmQ → AdmQ) : (s.modCfgQ f).dsc = s.dsc := rfl
@[simp] theorem modCfgQ_ctx (s : State) (f : AdmQ → AdmQ) : (s.modCfgQ f).ctx = s.ctx := rfl
@[simp] theorem modCfgQ_halves (s : State) (f : AdmQ → AdmQ) : (s.modCfgQ f).halves = s.halves := rfl
@[simp] theorem modCfgQ_cores (s : State) (f : AdmQ → AdmQ) : (s.modCfgQ f).cores = s.cores := rfl
@[simp] theorem modCfgQ_clusters (s : State) (f : AdmQ → AdmQ) : (s.modCfgQ f).clusters = s.clusters := rfl
@[simp] theorem modCfgQ_rcu (s : State) (f : AdmQ → AdmQ) : (s.modCfgQ f).rcu = s.rcu := rfl
@[simp] theorem modCfgQ_mau (s : State) (f : AdmQ → AdmQ) : (s.modCfgQ f).mau = s.mau := rfl
@[simp] theorem modCfgQ_pcf (s : State) (f : AdmQ → AdmQ) : (s.modCfgQ f).pcf = s.pcf := rfl
@[simp] theorem modCfgQ_ntl (s : State) (f : AdmQ → AdmQ) : (s.modCfgQ f).ntl = s.ntl := rfl
@[simp] theorem modCfgQ_mem (s : State) (f : AdmQ → AdmQ) : (s.modCfgQ f).mem = s.mem := rfl
@[simp] theorem modCfgQ_dmv (s : State) (f : AdmQ → AdmQ) : (s.modCfgQ f).dmv = s.dmv := rfl
@[simp] theorem modCfgQ_bpm (s : State) (f : AdmQ → AdmQ) : (s.modCfgQ f).bpm = s.bpm := rfl
@[simp] theorem modCfgQ_hlu (s : State) (f : AdmQ → AdmQ) : (s.modCfgQ f).hlu = s.hlu := rfl
@[simp] theorem modCfgQ_imb (s : State) (f : AdmQ → AdmQ) : (s.modCfgQ f).imb = s.imb := rfl
@[simp] theorem modCfgQ_fcl (s : State) (f : AdmQ → AdmQ) : (s.modCfgQ f).fcl = s.fcl := rfl

@[simp] theorem modQe_pending (s : State) (f : Qe → Qe) : (s.modQe f).pending = s.pending := rfl
@[simp] theorem modQe_free (s : State) (f : Qe → Qe) : (s.modQe f).free = s.free := rfl
@[simp] theorem modQe_time (s : State) (f : Qe → Qe) : (s.modQe f).time = s.time := rfl
@[simp] theorem modQe_aon (s : State) (f : Qe → Qe) : (s.modQe f).aon = s.aon := rfl
@[simp] theorem modQe_out (s : State) (f : Qe → Qe) : (s.modQe f).out = s.out := rfl
@[simp] theorem modQe_rdata (s : State) (f : Qe → Qe) : (s.modQe f).rdata = s.rdata := rfl
@[simp] theorem modQe_latches (s : State) (f : Qe → Qe) : (s.modQe f).latches = s.latches := rfl
@[simp] theorem modQe_latched (s : State) (f : Qe → Qe) : (s.modQe f).latched = s.latched := rfl
@[simp] theorem modQe_heldW (s : State) (f : Qe → Qe) : (s.modQe f).heldW = s.heldW := rfl
@[simp] theorem modQe_heldV (s : State) (f : Qe → Qe) : (s.modQe f).heldV = s.heldV := rfl
@[simp] theorem modQe_pins (s : State) (f : Qe → Qe) : (s.modQe f).pins = s.pins := rfl
@[simp] theorem modQe_boot (s : State) (f : Qe → Qe) : (s.modQe f).boot = s.boot := rfl
@[simp] theorem modQe_funcs (s : State) (f : Qe → Qe) : (s.modQe f).funcs = s.funcs := rfl
@[simp] theorem modQe_admq (s : State) (f : Qe → Qe) : (s.modQe f).admq = s.admq := rfl
@[simp] theorem modQe_cfgq (s : State) (f : Qe → Qe) : (s.modQe f).cfgq = s.cfgq := rfl
@[simp] theorem modQe_evq (s : State) (f : Qe → Qe) : (s.modQe f).evq = s.evq := rfl
@[simp] theorem modQe_qe (s : State) (f : Qe → Qe) : (s.modQe f).qe = f s.qe := rfl
@[simp] theorem modQe_queues (s : State) (f : Qe → Qe) : (s.modQe f).queues = s.queues := rfl
@[simp] theorem modQe_sessions (s : State) (f : Qe → Qe) : (s.modQe f).sessions = s.sessions := rfl
@[simp] theorem modQe_dsc (s : State) (f : Qe → Qe) : (s.modQe f).dsc = s.dsc := rfl
@[simp] theorem modQe_ctx (s : State) (f : Qe → Qe) : (s.modQe f).ctx = s.ctx := rfl
@[simp] theorem modQe_halves (s : State) (f : Qe → Qe) : (s.modQe f).halves = s.halves := rfl
@[simp] theorem modQe_cores (s : State) (f : Qe → Qe) : (s.modQe f).cores = s.cores := rfl
@[simp] theorem modQe_clusters (s : State) (f : Qe → Qe) : (s.modQe f).clusters = s.clusters := rfl
@[simp] theorem modQe_rcu (s : State) (f : Qe → Qe) : (s.modQe f).rcu = s.rcu := rfl
@[simp] theorem modQe_mau (s : State) (f : Qe → Qe) : (s.modQe f).mau = s.mau := rfl
@[simp] theorem modQe_pcf (s : State) (f : Qe → Qe) : (s.modQe f).pcf = s.pcf := rfl
@[simp] theorem modQe_ntl (s : State) (f : Qe → Qe) : (s.modQe f).ntl = s.ntl := rfl
@[simp] theorem modQe_mem (s : State) (f : Qe → Qe) : (s.modQe f).mem = s.mem := rfl
@[simp] theorem modQe_dmv (s : State) (f : Qe → Qe) : (s.modQe f).dmv = s.dmv := rfl
@[simp] theorem modQe_bpm (s : State) (f : Qe → Qe) : (s.modQe f).bpm = s.bpm := rfl
@[simp] theorem modQe_hlu (s : State) (f : Qe → Qe) : (s.modQe f).hlu = s.hlu := rfl
@[simp] theorem modQe_imb (s : State) (f : Qe → Qe) : (s.modQe f).imb = s.imb := rfl
@[simp] theorem modQe_fcl (s : State) (f : Qe → Qe) : (s.modQe f).fcl = s.fcl := rfl

@[simp] theorem modDsc_pending (s : State) (f : Dsc → Dsc) : (s.modDsc f).pending = s.pending := rfl
@[simp] theorem modDsc_free (s : State) (f : Dsc → Dsc) : (s.modDsc f).free = s.free := rfl
@[simp] theorem modDsc_time (s : State) (f : Dsc → Dsc) : (s.modDsc f).time = s.time := rfl
@[simp] theorem modDsc_aon (s : State) (f : Dsc → Dsc) : (s.modDsc f).aon = s.aon := rfl
@[simp] theorem modDsc_out (s : State) (f : Dsc → Dsc) : (s.modDsc f).out = s.out := rfl
@[simp] theorem modDsc_rdata (s : State) (f : Dsc → Dsc) : (s.modDsc f).rdata = s.rdata := rfl
@[simp] theorem modDsc_latches (s : State) (f : Dsc → Dsc) : (s.modDsc f).latches = s.latches := rfl
@[simp] theorem modDsc_latched (s : State) (f : Dsc → Dsc) : (s.modDsc f).latched = s.latched := rfl
@[simp] theorem modDsc_heldW (s : State) (f : Dsc → Dsc) : (s.modDsc f).heldW = s.heldW := rfl
@[simp] theorem modDsc_heldV (s : State) (f : Dsc → Dsc) : (s.modDsc f).heldV = s.heldV := rfl
@[simp] theorem modDsc_pins (s : State) (f : Dsc → Dsc) : (s.modDsc f).pins = s.pins := rfl
@[simp] theorem modDsc_boot (s : State) (f : Dsc → Dsc) : (s.modDsc f).boot = s.boot := rfl
@[simp] theorem modDsc_funcs (s : State) (f : Dsc → Dsc) : (s.modDsc f).funcs = s.funcs := rfl
@[simp] theorem modDsc_admq (s : State) (f : Dsc → Dsc) : (s.modDsc f).admq = s.admq := rfl
@[simp] theorem modDsc_cfgq (s : State) (f : Dsc → Dsc) : (s.modDsc f).cfgq = s.cfgq := rfl
@[simp] theorem modDsc_evq (s : State) (f : Dsc → Dsc) : (s.modDsc f).evq = s.evq := rfl
@[simp] theorem modDsc_qe (s : State) (f : Dsc → Dsc) : (s.modDsc f).qe = s.qe := rfl
@[simp] theorem modDsc_queues (s : State) (f : Dsc → Dsc) : (s.modDsc f).queues = s.queues := rfl
@[simp] theorem modDsc_sessions (s : State) (f : Dsc → Dsc) : (s.modDsc f).sessions = s.sessions := rfl
@[simp] theorem modDsc_dsc (s : State) (f : Dsc → Dsc) : (s.modDsc f).dsc = f s.dsc := rfl
@[simp] theorem modDsc_ctx (s : State) (f : Dsc → Dsc) : (s.modDsc f).ctx = s.ctx := rfl
@[simp] theorem modDsc_halves (s : State) (f : Dsc → Dsc) : (s.modDsc f).halves = s.halves := rfl
@[simp] theorem modDsc_cores (s : State) (f : Dsc → Dsc) : (s.modDsc f).cores = s.cores := rfl
@[simp] theorem modDsc_clusters (s : State) (f : Dsc → Dsc) : (s.modDsc f).clusters = s.clusters := rfl
@[simp] theorem modDsc_rcu (s : State) (f : Dsc → Dsc) : (s.modDsc f).rcu = s.rcu := rfl
@[simp] theorem modDsc_mau (s : State) (f : Dsc → Dsc) : (s.modDsc f).mau = s.mau := rfl
@[simp] theorem modDsc_pcf (s : State) (f : Dsc → Dsc) : (s.modDsc f).pcf = s.pcf := rfl
@[simp] theorem modDsc_ntl (s : State) (f : Dsc → Dsc) : (s.modDsc f).ntl = s.ntl := rfl
@[simp] theorem modDsc_mem (s : State) (f : Dsc → Dsc) : (s.modDsc f).mem = s.mem := rfl
@[simp] theorem modDsc_dmv (s : State) (f : Dsc → Dsc) : (s.modDsc f).dmv = s.dmv := rfl
@[simp] theorem modDsc_bpm (s : State) (f : Dsc → Dsc) : (s.modDsc f).bpm = s.bpm := rfl
@[simp] theorem modDsc_hlu (s : State) (f : Dsc → Dsc) : (s.modDsc f).hlu = s.hlu := rfl
@[simp] theorem modDsc_imb (s : State) (f : Dsc → Dsc) : (s.modDsc f).imb = s.imb := rfl
@[simp] theorem modDsc_fcl (s : State) (f : Dsc → Dsc) : (s.modDsc f).fcl = s.fcl := rfl

@[simp] theorem modCtx_pending (s : State) (f : Ctx → Ctx) : (s.modCtx f).pending = s.pending := rfl
@[simp] theorem modCtx_free (s : State) (f : Ctx → Ctx) : (s.modCtx f).free = s.free := rfl
@[simp] theorem modCtx_time (s : State) (f : Ctx → Ctx) : (s.modCtx f).time = s.time := rfl
@[simp] theorem modCtx_aon (s : State) (f : Ctx → Ctx) : (s.modCtx f).aon = s.aon := rfl
@[simp] theorem modCtx_out (s : State) (f : Ctx → Ctx) : (s.modCtx f).out = s.out := rfl
@[simp] theorem modCtx_rdata (s : State) (f : Ctx → Ctx) : (s.modCtx f).rdata = s.rdata := rfl
@[simp] theorem modCtx_latches (s : State) (f : Ctx → Ctx) : (s.modCtx f).latches = s.latches := rfl
@[simp] theorem modCtx_latched (s : State) (f : Ctx → Ctx) : (s.modCtx f).latched = s.latched := rfl
@[simp] theorem modCtx_heldW (s : State) (f : Ctx → Ctx) : (s.modCtx f).heldW = s.heldW := rfl
@[simp] theorem modCtx_heldV (s : State) (f : Ctx → Ctx) : (s.modCtx f).heldV = s.heldV := rfl
@[simp] theorem modCtx_pins (s : State) (f : Ctx → Ctx) : (s.modCtx f).pins = s.pins := rfl
@[simp] theorem modCtx_boot (s : State) (f : Ctx → Ctx) : (s.modCtx f).boot = s.boot := rfl
@[simp] theorem modCtx_funcs (s : State) (f : Ctx → Ctx) : (s.modCtx f).funcs = s.funcs := rfl
@[simp] theorem modCtx_admq (s : State) (f : Ctx → Ctx) : (s.modCtx f).admq = s.admq := rfl
@[simp] theorem modCtx_cfgq (s : State) (f : Ctx → Ctx) : (s.modCtx f).cfgq = s.cfgq := rfl
@[simp] theorem modCtx_evq (s : State) (f : Ctx → Ctx) : (s.modCtx f).evq = s.evq := rfl
@[simp] theorem modCtx_qe (s : State) (f : Ctx → Ctx) : (s.modCtx f).qe = s.qe := rfl
@[simp] theorem modCtx_queues (s : State) (f : Ctx → Ctx) : (s.modCtx f).queues = s.queues := rfl
@[simp] theorem modCtx_sessions (s : State) (f : Ctx → Ctx) : (s.modCtx f).sessions = s.sessions := rfl
@[simp] theorem modCtx_dsc (s : State) (f : Ctx → Ctx) : (s.modCtx f).dsc = s.dsc := rfl
@[simp] theorem modCtx_ctx (s : State) (f : Ctx → Ctx) : (s.modCtx f).ctx = f s.ctx := rfl
@[simp] theorem modCtx_halves (s : State) (f : Ctx → Ctx) : (s.modCtx f).halves = s.halves := rfl
@[simp] theorem modCtx_cores (s : State) (f : Ctx → Ctx) : (s.modCtx f).cores = s.cores := rfl
@[simp] theorem modCtx_clusters (s : State) (f : Ctx → Ctx) : (s.modCtx f).clusters = s.clusters := rfl
@[simp] theorem modCtx_rcu (s : State) (f : Ctx → Ctx) : (s.modCtx f).rcu = s.rcu := rfl
@[simp] theorem modCtx_mau (s : State) (f : Ctx → Ctx) : (s.modCtx f).mau = s.mau := rfl
@[simp] theorem modCtx_pcf (s : State) (f : Ctx → Ctx) : (s.modCtx f).pcf = s.pcf := rfl
@[simp] theorem modCtx_ntl (s : State) (f : Ctx → Ctx) : (s.modCtx f).ntl = s.ntl := rfl
@[simp] theorem modCtx_mem (s : State) (f : Ctx → Ctx) : (s.modCtx f).mem = s.mem := rfl
@[simp] theorem modCtx_dmv (s : State) (f : Ctx → Ctx) : (s.modCtx f).dmv = s.dmv := rfl
@[simp] theorem modCtx_bpm (s : State) (f : Ctx → Ctx) : (s.modCtx f).bpm = s.bpm := rfl
@[simp] theorem modCtx_hlu (s : State) (f : Ctx → Ctx) : (s.modCtx f).hlu = s.hlu := rfl
@[simp] theorem modCtx_imb (s : State) (f : Ctx → Ctx) : (s.modCtx f).imb = s.imb := rfl
@[simp] theorem modCtx_fcl (s : State) (f : Ctx → Ctx) : (s.modCtx f).fcl = s.fcl := rfl

@[simp] theorem modRcu_pending (s : State) (f : Rcu → Rcu) : (s.modRcu f).pending = s.pending := rfl
@[simp] theorem modRcu_free (s : State) (f : Rcu → Rcu) : (s.modRcu f).free = s.free := rfl
@[simp] theorem modRcu_time (s : State) (f : Rcu → Rcu) : (s.modRcu f).time = s.time := rfl
@[simp] theorem modRcu_aon (s : State) (f : Rcu → Rcu) : (s.modRcu f).aon = s.aon := rfl
@[simp] theorem modRcu_out (s : State) (f : Rcu → Rcu) : (s.modRcu f).out = s.out := rfl
@[simp] theorem modRcu_rdata (s : State) (f : Rcu → Rcu) : (s.modRcu f).rdata = s.rdata := rfl
@[simp] theorem modRcu_latches (s : State) (f : Rcu → Rcu) : (s.modRcu f).latches = s.latches := rfl
@[simp] theorem modRcu_latched (s : State) (f : Rcu → Rcu) : (s.modRcu f).latched = s.latched := rfl
@[simp] theorem modRcu_heldW (s : State) (f : Rcu → Rcu) : (s.modRcu f).heldW = s.heldW := rfl
@[simp] theorem modRcu_heldV (s : State) (f : Rcu → Rcu) : (s.modRcu f).heldV = s.heldV := rfl
@[simp] theorem modRcu_pins (s : State) (f : Rcu → Rcu) : (s.modRcu f).pins = s.pins := rfl
@[simp] theorem modRcu_boot (s : State) (f : Rcu → Rcu) : (s.modRcu f).boot = s.boot := rfl
@[simp] theorem modRcu_funcs (s : State) (f : Rcu → Rcu) : (s.modRcu f).funcs = s.funcs := rfl
@[simp] theorem modRcu_admq (s : State) (f : Rcu → Rcu) : (s.modRcu f).admq = s.admq := rfl
@[simp] theorem modRcu_cfgq (s : State) (f : Rcu → Rcu) : (s.modRcu f).cfgq = s.cfgq := rfl
@[simp] theorem modRcu_evq (s : State) (f : Rcu → Rcu) : (s.modRcu f).evq = s.evq := rfl
@[simp] theorem modRcu_qe (s : State) (f : Rcu → Rcu) : (s.modRcu f).qe = s.qe := rfl
@[simp] theorem modRcu_queues (s : State) (f : Rcu → Rcu) : (s.modRcu f).queues = s.queues := rfl
@[simp] theorem modRcu_sessions (s : State) (f : Rcu → Rcu) : (s.modRcu f).sessions = s.sessions := rfl
@[simp] theorem modRcu_dsc (s : State) (f : Rcu → Rcu) : (s.modRcu f).dsc = s.dsc := rfl
@[simp] theorem modRcu_ctx (s : State) (f : Rcu → Rcu) : (s.modRcu f).ctx = s.ctx := rfl
@[simp] theorem modRcu_halves (s : State) (f : Rcu → Rcu) : (s.modRcu f).halves = s.halves := rfl
@[simp] theorem modRcu_cores (s : State) (f : Rcu → Rcu) : (s.modRcu f).cores = s.cores := rfl
@[simp] theorem modRcu_clusters (s : State) (f : Rcu → Rcu) : (s.modRcu f).clusters = s.clusters := rfl
@[simp] theorem modRcu_rcu (s : State) (f : Rcu → Rcu) : (s.modRcu f).rcu = f s.rcu := rfl
@[simp] theorem modRcu_mau (s : State) (f : Rcu → Rcu) : (s.modRcu f).mau = s.mau := rfl
@[simp] theorem modRcu_pcf (s : State) (f : Rcu → Rcu) : (s.modRcu f).pcf = s.pcf := rfl
@[simp] theorem modRcu_ntl (s : State) (f : Rcu → Rcu) : (s.modRcu f).ntl = s.ntl := rfl
@[simp] theorem modRcu_mem (s : State) (f : Rcu → Rcu) : (s.modRcu f).mem = s.mem := rfl
@[simp] theorem modRcu_dmv (s : State) (f : Rcu → Rcu) : (s.modRcu f).dmv = s.dmv := rfl
@[simp] theorem modRcu_bpm (s : State) (f : Rcu → Rcu) : (s.modRcu f).bpm = s.bpm := rfl
@[simp] theorem modRcu_hlu (s : State) (f : Rcu → Rcu) : (s.modRcu f).hlu = s.hlu := rfl
@[simp] theorem modRcu_imb (s : State) (f : Rcu → Rcu) : (s.modRcu f).imb = s.imb := rfl
@[simp] theorem modRcu_fcl (s : State) (f : Rcu → Rcu) : (s.modRcu f).fcl = s.fcl := rfl

@[simp] theorem modMau_pending (s : State) (f : Mau → Mau) : (s.modMau f).pending = s.pending := rfl
@[simp] theorem modMau_free (s : State) (f : Mau → Mau) : (s.modMau f).free = s.free := rfl
@[simp] theorem modMau_time (s : State) (f : Mau → Mau) : (s.modMau f).time = s.time := rfl
@[simp] theorem modMau_aon (s : State) (f : Mau → Mau) : (s.modMau f).aon = s.aon := rfl
@[simp] theorem modMau_out (s : State) (f : Mau → Mau) : (s.modMau f).out = s.out := rfl
@[simp] theorem modMau_rdata (s : State) (f : Mau → Mau) : (s.modMau f).rdata = s.rdata := rfl
@[simp] theorem modMau_latches (s : State) (f : Mau → Mau) : (s.modMau f).latches = s.latches := rfl
@[simp] theorem modMau_latched (s : State) (f : Mau → Mau) : (s.modMau f).latched = s.latched := rfl
@[simp] theorem modMau_heldW (s : State) (f : Mau → Mau) : (s.modMau f).heldW = s.heldW := rfl
@[simp] theorem modMau_heldV (s : State) (f : Mau → Mau) : (s.modMau f).heldV = s.heldV := rfl
@[simp] theorem modMau_pins (s : State) (f : Mau → Mau) : (s.modMau f).pins = s.pins := rfl
@[simp] theorem modMau_boot (s : State) (f : Mau → Mau) : (s.modMau f).boot = s.boot := rfl
@[simp] theorem modMau_funcs (s : State) (f : Mau → Mau) : (s.modMau f).funcs = s.funcs := rfl
@[simp] theorem modMau_admq (s : State) (f : Mau → Mau) : (s.modMau f).admq = s.admq := rfl
@[simp] theorem modMau_cfgq (s : State) (f : Mau → Mau) : (s.modMau f).cfgq = s.cfgq := rfl
@[simp] theorem modMau_evq (s : State) (f : Mau → Mau) : (s.modMau f).evq = s.evq := rfl
@[simp] theorem modMau_qe (s : State) (f : Mau → Mau) : (s.modMau f).qe = s.qe := rfl
@[simp] theorem modMau_queues (s : State) (f : Mau → Mau) : (s.modMau f).queues = s.queues := rfl
@[simp] theorem modMau_sessions (s : State) (f : Mau → Mau) : (s.modMau f).sessions = s.sessions := rfl
@[simp] theorem modMau_dsc (s : State) (f : Mau → Mau) : (s.modMau f).dsc = s.dsc := rfl
@[simp] theorem modMau_ctx (s : State) (f : Mau → Mau) : (s.modMau f).ctx = s.ctx := rfl
@[simp] theorem modMau_halves (s : State) (f : Mau → Mau) : (s.modMau f).halves = s.halves := rfl
@[simp] theorem modMau_cores (s : State) (f : Mau → Mau) : (s.modMau f).cores = s.cores := rfl
@[simp] theorem modMau_clusters (s : State) (f : Mau → Mau) : (s.modMau f).clusters = s.clusters := rfl
@[simp] theorem modMau_rcu (s : State) (f : Mau → Mau) : (s.modMau f).rcu = s.rcu := rfl
@[simp] theorem modMau_mau (s : State) (f : Mau → Mau) : (s.modMau f).mau = f s.mau := rfl
@[simp] theorem modMau_pcf (s : State) (f : Mau → Mau) : (s.modMau f).pcf = s.pcf := rfl
@[simp] theorem modMau_ntl (s : State) (f : Mau → Mau) : (s.modMau f).ntl = s.ntl := rfl
@[simp] theorem modMau_mem (s : State) (f : Mau → Mau) : (s.modMau f).mem = s.mem := rfl
@[simp] theorem modMau_dmv (s : State) (f : Mau → Mau) : (s.modMau f).dmv = s.dmv := rfl
@[simp] theorem modMau_bpm (s : State) (f : Mau → Mau) : (s.modMau f).bpm = s.bpm := rfl
@[simp] theorem modMau_hlu (s : State) (f : Mau → Mau) : (s.modMau f).hlu = s.hlu := rfl
@[simp] theorem modMau_imb (s : State) (f : Mau → Mau) : (s.modMau f).imb = s.imb := rfl
@[simp] theorem modMau_fcl (s : State) (f : Mau → Mau) : (s.modMau f).fcl = s.fcl := rfl

@[simp] theorem modPcf_pending (s : State) (f : Pcf → Pcf) : (s.modPcf f).pending = s.pending := rfl
@[simp] theorem modPcf_free (s : State) (f : Pcf → Pcf) : (s.modPcf f).free = s.free := rfl
@[simp] theorem modPcf_time (s : State) (f : Pcf → Pcf) : (s.modPcf f).time = s.time := rfl
@[simp] theorem modPcf_aon (s : State) (f : Pcf → Pcf) : (s.modPcf f).aon = s.aon := rfl
@[simp] theorem modPcf_out (s : State) (f : Pcf → Pcf) : (s.modPcf f).out = s.out := rfl
@[simp] theorem modPcf_rdata (s : State) (f : Pcf → Pcf) : (s.modPcf f).rdata = s.rdata := rfl
@[simp] theorem modPcf_latches (s : State) (f : Pcf → Pcf) : (s.modPcf f).latches = s.latches := rfl
@[simp] theorem modPcf_latched (s : State) (f : Pcf → Pcf) : (s.modPcf f).latched = s.latched := rfl
@[simp] theorem modPcf_heldW (s : State) (f : Pcf → Pcf) : (s.modPcf f).heldW = s.heldW := rfl
@[simp] theorem modPcf_heldV (s : State) (f : Pcf → Pcf) : (s.modPcf f).heldV = s.heldV := rfl
@[simp] theorem modPcf_pins (s : State) (f : Pcf → Pcf) : (s.modPcf f).pins = s.pins := rfl
@[simp] theorem modPcf_boot (s : State) (f : Pcf → Pcf) : (s.modPcf f).boot = s.boot := rfl
@[simp] theorem modPcf_funcs (s : State) (f : Pcf → Pcf) : (s.modPcf f).funcs = s.funcs := rfl
@[simp] theorem modPcf_admq (s : State) (f : Pcf → Pcf) : (s.modPcf f).admq = s.admq := rfl
@[simp] theorem modPcf_cfgq (s : State) (f : Pcf → Pcf) : (s.modPcf f).cfgq = s.cfgq := rfl
@[simp] theorem modPcf_evq (s : State) (f : Pcf → Pcf) : (s.modPcf f).evq = s.evq := rfl
@[simp] theorem modPcf_qe (s : State) (f : Pcf → Pcf) : (s.modPcf f).qe = s.qe := rfl
@[simp] theorem modPcf_queues (s : State) (f : Pcf → Pcf) : (s.modPcf f).queues = s.queues := rfl
@[simp] theorem modPcf_sessions (s : State) (f : Pcf → Pcf) : (s.modPcf f).sessions = s.sessions := rfl
@[simp] theorem modPcf_dsc (s : State) (f : Pcf → Pcf) : (s.modPcf f).dsc = s.dsc := rfl
@[simp] theorem modPcf_ctx (s : State) (f : Pcf → Pcf) : (s.modPcf f).ctx = s.ctx := rfl
@[simp] theorem modPcf_halves (s : State) (f : Pcf → Pcf) : (s.modPcf f).halves = s.halves := rfl
@[simp] theorem modPcf_cores (s : State) (f : Pcf → Pcf) : (s.modPcf f).cores = s.cores := rfl
@[simp] theorem modPcf_clusters (s : State) (f : Pcf → Pcf) : (s.modPcf f).clusters = s.clusters := rfl
@[simp] theorem modPcf_rcu (s : State) (f : Pcf → Pcf) : (s.modPcf f).rcu = s.rcu := rfl
@[simp] theorem modPcf_mau (s : State) (f : Pcf → Pcf) : (s.modPcf f).mau = s.mau := rfl
@[simp] theorem modPcf_pcf (s : State) (f : Pcf → Pcf) : (s.modPcf f).pcf = f s.pcf := rfl
@[simp] theorem modPcf_ntl (s : State) (f : Pcf → Pcf) : (s.modPcf f).ntl = s.ntl := rfl
@[simp] theorem modPcf_mem (s : State) (f : Pcf → Pcf) : (s.modPcf f).mem = s.mem := rfl
@[simp] theorem modPcf_dmv (s : State) (f : Pcf → Pcf) : (s.modPcf f).dmv = s.dmv := rfl
@[simp] theorem modPcf_bpm (s : State) (f : Pcf → Pcf) : (s.modPcf f).bpm = s.bpm := rfl
@[simp] theorem modPcf_hlu (s : State) (f : Pcf → Pcf) : (s.modPcf f).hlu = s.hlu := rfl
@[simp] theorem modPcf_imb (s : State) (f : Pcf → Pcf) : (s.modPcf f).imb = s.imb := rfl
@[simp] theorem modPcf_fcl (s : State) (f : Pcf → Pcf) : (s.modPcf f).fcl = s.fcl := rfl

@[simp] theorem modNtl_pending (s : State) (f : Ntl → Ntl) : (s.modNtl f).pending = s.pending := rfl
@[simp] theorem modNtl_free (s : State) (f : Ntl → Ntl) : (s.modNtl f).free = s.free := rfl
@[simp] theorem modNtl_time (s : State) (f : Ntl → Ntl) : (s.modNtl f).time = s.time := rfl
@[simp] theorem modNtl_aon (s : State) (f : Ntl → Ntl) : (s.modNtl f).aon = s.aon := rfl
@[simp] theorem modNtl_out (s : State) (f : Ntl → Ntl) : (s.modNtl f).out = s.out := rfl
@[simp] theorem modNtl_rdata (s : State) (f : Ntl → Ntl) : (s.modNtl f).rdata = s.rdata := rfl
@[simp] theorem modNtl_latches (s : State) (f : Ntl → Ntl) : (s.modNtl f).latches = s.latches := rfl
@[simp] theorem modNtl_latched (s : State) (f : Ntl → Ntl) : (s.modNtl f).latched = s.latched := rfl
@[simp] theorem modNtl_heldW (s : State) (f : Ntl → Ntl) : (s.modNtl f).heldW = s.heldW := rfl
@[simp] theorem modNtl_heldV (s : State) (f : Ntl → Ntl) : (s.modNtl f).heldV = s.heldV := rfl
@[simp] theorem modNtl_pins (s : State) (f : Ntl → Ntl) : (s.modNtl f).pins = s.pins := rfl
@[simp] theorem modNtl_boot (s : State) (f : Ntl → Ntl) : (s.modNtl f).boot = s.boot := rfl
@[simp] theorem modNtl_funcs (s : State) (f : Ntl → Ntl) : (s.modNtl f).funcs = s.funcs := rfl
@[simp] theorem modNtl_admq (s : State) (f : Ntl → Ntl) : (s.modNtl f).admq = s.admq := rfl
@[simp] theorem modNtl_cfgq (s : State) (f : Ntl → Ntl) : (s.modNtl f).cfgq = s.cfgq := rfl
@[simp] theorem modNtl_evq (s : State) (f : Ntl → Ntl) : (s.modNtl f).evq = s.evq := rfl
@[simp] theorem modNtl_qe (s : State) (f : Ntl → Ntl) : (s.modNtl f).qe = s.qe := rfl
@[simp] theorem modNtl_queues (s : State) (f : Ntl → Ntl) : (s.modNtl f).queues = s.queues := rfl
@[simp] theorem modNtl_sessions (s : State) (f : Ntl → Ntl) : (s.modNtl f).sessions = s.sessions := rfl
@[simp] theorem modNtl_dsc (s : State) (f : Ntl → Ntl) : (s.modNtl f).dsc = s.dsc := rfl
@[simp] theorem modNtl_ctx (s : State) (f : Ntl → Ntl) : (s.modNtl f).ctx = s.ctx := rfl
@[simp] theorem modNtl_halves (s : State) (f : Ntl → Ntl) : (s.modNtl f).halves = s.halves := rfl
@[simp] theorem modNtl_cores (s : State) (f : Ntl → Ntl) : (s.modNtl f).cores = s.cores := rfl
@[simp] theorem modNtl_clusters (s : State) (f : Ntl → Ntl) : (s.modNtl f).clusters = s.clusters := rfl
@[simp] theorem modNtl_rcu (s : State) (f : Ntl → Ntl) : (s.modNtl f).rcu = s.rcu := rfl
@[simp] theorem modNtl_mau (s : State) (f : Ntl → Ntl) : (s.modNtl f).mau = s.mau := rfl
@[simp] theorem modNtl_pcf (s : State) (f : Ntl → Ntl) : (s.modNtl f).pcf = s.pcf := rfl
@[simp] theorem modNtl_ntl (s : State) (f : Ntl → Ntl) : (s.modNtl f).ntl = f s.ntl := rfl
@[simp] theorem modNtl_mem (s : State) (f : Ntl → Ntl) : (s.modNtl f).mem = s.mem := rfl
@[simp] theorem modNtl_dmv (s : State) (f : Ntl → Ntl) : (s.modNtl f).dmv = s.dmv := rfl
@[simp] theorem modNtl_bpm (s : State) (f : Ntl → Ntl) : (s.modNtl f).bpm = s.bpm := rfl
@[simp] theorem modNtl_hlu (s : State) (f : Ntl → Ntl) : (s.modNtl f).hlu = s.hlu := rfl
@[simp] theorem modNtl_imb (s : State) (f : Ntl → Ntl) : (s.modNtl f).imb = s.imb := rfl
@[simp] theorem modNtl_fcl (s : State) (f : Ntl → Ntl) : (s.modNtl f).fcl = s.fcl := rfl

@[simp] theorem modMem_pending (s : State) (f : Mem → Mem) : (s.modMem f).pending = s.pending := rfl
@[simp] theorem modMem_free (s : State) (f : Mem → Mem) : (s.modMem f).free = s.free := rfl
@[simp] theorem modMem_time (s : State) (f : Mem → Mem) : (s.modMem f).time = s.time := rfl
@[simp] theorem modMem_aon (s : State) (f : Mem → Mem) : (s.modMem f).aon = s.aon := rfl
@[simp] theorem modMem_out (s : State) (f : Mem → Mem) : (s.modMem f).out = s.out := rfl
@[simp] theorem modMem_rdata (s : State) (f : Mem → Mem) : (s.modMem f).rdata = s.rdata := rfl
@[simp] theorem modMem_latches (s : State) (f : Mem → Mem) : (s.modMem f).latches = s.latches := rfl
@[simp] theorem modMem_latched (s : State) (f : Mem → Mem) : (s.modMem f).latched = s.latched := rfl
@[simp] theorem modMem_heldW (s : State) (f : Mem → Mem) : (s.modMem f).heldW = s.heldW := rfl
@[simp] theorem modMem_heldV (s : State) (f : Mem → Mem) : (s.modMem f).heldV = s.heldV := rfl
@[simp] theorem modMem_pins (s : State) (f : Mem → Mem) : (s.modMem f).pins = s.pins := rfl
@[simp] theorem modMem_boot (s : State) (f : Mem → Mem) : (s.modMem f).boot = s.boot := rfl
@[simp] theorem modMem_funcs (s : State) (f : Mem → Mem) : (s.modMem f).funcs = s.funcs := rfl
@[simp] theorem modMem_admq (s : State) (f : Mem → Mem) : (s.modMem f).admq = s.admq := rfl
@[simp] theorem modMem_cfgq (s : State) (f : Mem → Mem) : (s.modMem f).cfgq = s.cfgq := rfl
@[simp] theorem modMem_evq (s : State) (f : Mem → Mem) : (s.modMem f).evq = s.evq := rfl
@[simp] theorem modMem_qe (s : State) (f : Mem → Mem) : (s.modMem f).qe = s.qe := rfl
@[simp] theorem modMem_queues (s : State) (f : Mem → Mem) : (s.modMem f).queues = s.queues := rfl
@[simp] theorem modMem_sessions (s : State) (f : Mem → Mem) : (s.modMem f).sessions = s.sessions := rfl
@[simp] theorem modMem_dsc (s : State) (f : Mem → Mem) : (s.modMem f).dsc = s.dsc := rfl
@[simp] theorem modMem_ctx (s : State) (f : Mem → Mem) : (s.modMem f).ctx = s.ctx := rfl
@[simp] theorem modMem_halves (s : State) (f : Mem → Mem) : (s.modMem f).halves = s.halves := rfl
@[simp] theorem modMem_cores (s : State) (f : Mem → Mem) : (s.modMem f).cores = s.cores := rfl
@[simp] theorem modMem_clusters (s : State) (f : Mem → Mem) : (s.modMem f).clusters = s.clusters := rfl
@[simp] theorem modMem_rcu (s : State) (f : Mem → Mem) : (s.modMem f).rcu = s.rcu := rfl
@[simp] theorem modMem_mau (s : State) (f : Mem → Mem) : (s.modMem f).mau = s.mau := rfl
@[simp] theorem modMem_pcf (s : State) (f : Mem → Mem) : (s.modMem f).pcf = s.pcf := rfl
@[simp] theorem modMem_ntl (s : State) (f : Mem → Mem) : (s.modMem f).ntl = s.ntl := rfl
@[simp] theorem modMem_mem (s : State) (f : Mem → Mem) : (s.modMem f).mem = f s.mem := rfl
@[simp] theorem modMem_dmv (s : State) (f : Mem → Mem) : (s.modMem f).dmv = s.dmv := rfl
@[simp] theorem modMem_bpm (s : State) (f : Mem → Mem) : (s.modMem f).bpm = s.bpm := rfl
@[simp] theorem modMem_hlu (s : State) (f : Mem → Mem) : (s.modMem f).hlu = s.hlu := rfl
@[simp] theorem modMem_imb (s : State) (f : Mem → Mem) : (s.modMem f).imb = s.imb := rfl
@[simp] theorem modMem_fcl (s : State) (f : Mem → Mem) : (s.modMem f).fcl = s.fcl := rfl

@[simp] theorem modDmv_pending (s : State) (f : Dmv → Dmv) : (s.modDmv f).pending = s.pending := rfl
@[simp] theorem modDmv_free (s : State) (f : Dmv → Dmv) : (s.modDmv f).free = s.free := rfl
@[simp] theorem modDmv_time (s : State) (f : Dmv → Dmv) : (s.modDmv f).time = s.time := rfl
@[simp] theorem modDmv_aon (s : State) (f : Dmv → Dmv) : (s.modDmv f).aon = s.aon := rfl
@[simp] theorem modDmv_out (s : State) (f : Dmv → Dmv) : (s.modDmv f).out = s.out := rfl
@[simp] theorem modDmv_rdata (s : State) (f : Dmv → Dmv) : (s.modDmv f).rdata = s.rdata := rfl
@[simp] theorem modDmv_latches (s : State) (f : Dmv → Dmv) : (s.modDmv f).latches = s.latches := rfl
@[simp] theorem modDmv_latched (s : State) (f : Dmv → Dmv) : (s.modDmv f).latched = s.latched := rfl
@[simp] theorem modDmv_heldW (s : State) (f : Dmv → Dmv) : (s.modDmv f).heldW = s.heldW := rfl
@[simp] theorem modDmv_heldV (s : State) (f : Dmv → Dmv) : (s.modDmv f).heldV = s.heldV := rfl
@[simp] theorem modDmv_pins (s : State) (f : Dmv → Dmv) : (s.modDmv f).pins = s.pins := rfl
@[simp] theorem modDmv_boot (s : State) (f : Dmv → Dmv) : (s.modDmv f).boot = s.boot := rfl
@[simp] theorem modDmv_funcs (s : State) (f : Dmv → Dmv) : (s.modDmv f).funcs = s.funcs := rfl
@[simp] theorem modDmv_admq (s : State) (f : Dmv → Dmv) : (s.modDmv f).admq = s.admq := rfl
@[simp] theorem modDmv_cfgq (s : State) (f : Dmv → Dmv) : (s.modDmv f).cfgq = s.cfgq := rfl
@[simp] theorem modDmv_evq (s : State) (f : Dmv → Dmv) : (s.modDmv f).evq = s.evq := rfl
@[simp] theorem modDmv_qe (s : State) (f : Dmv → Dmv) : (s.modDmv f).qe = s.qe := rfl
@[simp] theorem modDmv_queues (s : State) (f : Dmv → Dmv) : (s.modDmv f).queues = s.queues := rfl
@[simp] theorem modDmv_sessions (s : State) (f : Dmv → Dmv) : (s.modDmv f).sessions = s.sessions := rfl
@[simp] theorem modDmv_dsc (s : State) (f : Dmv → Dmv) : (s.modDmv f).dsc = s.dsc := rfl
@[simp] theorem modDmv_ctx (s : State) (f : Dmv → Dmv) : (s.modDmv f).ctx = s.ctx := rfl
@[simp] theorem modDmv_halves (s : State) (f : Dmv → Dmv) : (s.modDmv f).halves = s.halves := rfl
@[simp] theorem modDmv_cores (s : State) (f : Dmv → Dmv) : (s.modDmv f).cores = s.cores := rfl
@[simp] theorem modDmv_clusters (s : State) (f : Dmv → Dmv) : (s.modDmv f).clusters = s.clusters := rfl
@[simp] theorem modDmv_rcu (s : State) (f : Dmv → Dmv) : (s.modDmv f).rcu = s.rcu := rfl
@[simp] theorem modDmv_mau (s : State) (f : Dmv → Dmv) : (s.modDmv f).mau = s.mau := rfl
@[simp] theorem modDmv_pcf (s : State) (f : Dmv → Dmv) : (s.modDmv f).pcf = s.pcf := rfl
@[simp] theorem modDmv_ntl (s : State) (f : Dmv → Dmv) : (s.modDmv f).ntl = s.ntl := rfl
@[simp] theorem modDmv_mem (s : State) (f : Dmv → Dmv) : (s.modDmv f).mem = s.mem := rfl
@[simp] theorem modDmv_dmv (s : State) (f : Dmv → Dmv) : (s.modDmv f).dmv = f s.dmv := rfl
@[simp] theorem modDmv_bpm (s : State) (f : Dmv → Dmv) : (s.modDmv f).bpm = s.bpm := rfl
@[simp] theorem modDmv_hlu (s : State) (f : Dmv → Dmv) : (s.modDmv f).hlu = s.hlu := rfl
@[simp] theorem modDmv_imb (s : State) (f : Dmv → Dmv) : (s.modDmv f).imb = s.imb := rfl
@[simp] theorem modDmv_fcl (s : State) (f : Dmv → Dmv) : (s.modDmv f).fcl = s.fcl := rfl

@[simp] theorem modBpm_pending (s : State) (f : Bpm → Bpm) : (s.modBpm f).pending = s.pending := rfl
@[simp] theorem modBpm_free (s : State) (f : Bpm → Bpm) : (s.modBpm f).free = s.free := rfl
@[simp] theorem modBpm_time (s : State) (f : Bpm → Bpm) : (s.modBpm f).time = s.time := rfl
@[simp] theorem modBpm_aon (s : State) (f : Bpm → Bpm) : (s.modBpm f).aon = s.aon := rfl
@[simp] theorem modBpm_out (s : State) (f : Bpm → Bpm) : (s.modBpm f).out = s.out := rfl
@[simp] theorem modBpm_rdata (s : State) (f : Bpm → Bpm) : (s.modBpm f).rdata = s.rdata := rfl
@[simp] theorem modBpm_latches (s : State) (f : Bpm → Bpm) : (s.modBpm f).latches = s.latches := rfl
@[simp] theorem modBpm_latched (s : State) (f : Bpm → Bpm) : (s.modBpm f).latched = s.latched := rfl
@[simp] theorem modBpm_heldW (s : State) (f : Bpm → Bpm) : (s.modBpm f).heldW = s.heldW := rfl
@[simp] theorem modBpm_heldV (s : State) (f : Bpm → Bpm) : (s.modBpm f).heldV = s.heldV := rfl
@[simp] theorem modBpm_pins (s : State) (f : Bpm → Bpm) : (s.modBpm f).pins = s.pins := rfl
@[simp] theorem modBpm_boot (s : State) (f : Bpm → Bpm) : (s.modBpm f).boot = s.boot := rfl
@[simp] theorem modBpm_funcs (s : State) (f : Bpm → Bpm) : (s.modBpm f).funcs = s.funcs := rfl
@[simp] theorem modBpm_admq (s : State) (f : Bpm → Bpm) : (s.modBpm f).admq = s.admq := rfl
@[simp] theorem modBpm_cfgq (s : State) (f : Bpm → Bpm) : (s.modBpm f).cfgq = s.cfgq := rfl
@[simp] theorem modBpm_evq (s : State) (f : Bpm → Bpm) : (s.modBpm f).evq = s.evq := rfl
@[simp] theorem modBpm_qe (s : State) (f : Bpm → Bpm) : (s.modBpm f).qe = s.qe := rfl
@[simp] theorem modBpm_queues (s : State) (f : Bpm → Bpm) : (s.modBpm f).queues = s.queues := rfl
@[simp] theorem modBpm_sessions (s : State) (f : Bpm → Bpm) : (s.modBpm f).sessions = s.sessions := rfl
@[simp] theorem modBpm_dsc (s : State) (f : Bpm → Bpm) : (s.modBpm f).dsc = s.dsc := rfl
@[simp] theorem modBpm_ctx (s : State) (f : Bpm → Bpm) : (s.modBpm f).ctx = s.ctx := rfl
@[simp] theorem modBpm_halves (s : State) (f : Bpm → Bpm) : (s.modBpm f).halves = s.halves := rfl
@[simp] theorem modBpm_cores (s : State) (f : Bpm → Bpm) : (s.modBpm f).cores = s.cores := rfl
@[simp] theorem modBpm_clusters (s : State) (f : Bpm → Bpm) : (s.modBpm f).clusters = s.clusters := rfl
@[simp] theorem modBpm_rcu (s : State) (f : Bpm → Bpm) : (s.modBpm f).rcu = s.rcu := rfl
@[simp] theorem modBpm_mau (s : State) (f : Bpm → Bpm) : (s.modBpm f).mau = s.mau := rfl
@[simp] theorem modBpm_pcf (s : State) (f : Bpm → Bpm) : (s.modBpm f).pcf = s.pcf := rfl
@[simp] theorem modBpm_ntl (s : State) (f : Bpm → Bpm) : (s.modBpm f).ntl = s.ntl := rfl
@[simp] theorem modBpm_mem (s : State) (f : Bpm → Bpm) : (s.modBpm f).mem = s.mem := rfl
@[simp] theorem modBpm_dmv (s : State) (f : Bpm → Bpm) : (s.modBpm f).dmv = s.dmv := rfl
@[simp] theorem modBpm_bpm (s : State) (f : Bpm → Bpm) : (s.modBpm f).bpm = f s.bpm := rfl
@[simp] theorem modBpm_hlu (s : State) (f : Bpm → Bpm) : (s.modBpm f).hlu = s.hlu := rfl
@[simp] theorem modBpm_imb (s : State) (f : Bpm → Bpm) : (s.modBpm f).imb = s.imb := rfl
@[simp] theorem modBpm_fcl (s : State) (f : Bpm → Bpm) : (s.modBpm f).fcl = s.fcl := rfl

@[simp] theorem modHlu_pending (s : State) (f : Hlu → Hlu) : (s.modHlu f).pending = s.pending := rfl
@[simp] theorem modHlu_free (s : State) (f : Hlu → Hlu) : (s.modHlu f).free = s.free := rfl
@[simp] theorem modHlu_time (s : State) (f : Hlu → Hlu) : (s.modHlu f).time = s.time := rfl
@[simp] theorem modHlu_aon (s : State) (f : Hlu → Hlu) : (s.modHlu f).aon = s.aon := rfl
@[simp] theorem modHlu_out (s : State) (f : Hlu → Hlu) : (s.modHlu f).out = s.out := rfl
@[simp] theorem modHlu_rdata (s : State) (f : Hlu → Hlu) : (s.modHlu f).rdata = s.rdata := rfl
@[simp] theorem modHlu_latches (s : State) (f : Hlu → Hlu) : (s.modHlu f).latches = s.latches := rfl
@[simp] theorem modHlu_latched (s : State) (f : Hlu → Hlu) : (s.modHlu f).latched = s.latched := rfl
@[simp] theorem modHlu_heldW (s : State) (f : Hlu → Hlu) : (s.modHlu f).heldW = s.heldW := rfl
@[simp] theorem modHlu_heldV (s : State) (f : Hlu → Hlu) : (s.modHlu f).heldV = s.heldV := rfl
@[simp] theorem modHlu_pins (s : State) (f : Hlu → Hlu) : (s.modHlu f).pins = s.pins := rfl
@[simp] theorem modHlu_boot (s : State) (f : Hlu → Hlu) : (s.modHlu f).boot = s.boot := rfl
@[simp] theorem modHlu_funcs (s : State) (f : Hlu → Hlu) : (s.modHlu f).funcs = s.funcs := rfl
@[simp] theorem modHlu_admq (s : State) (f : Hlu → Hlu) : (s.modHlu f).admq = s.admq := rfl
@[simp] theorem modHlu_cfgq (s : State) (f : Hlu → Hlu) : (s.modHlu f).cfgq = s.cfgq := rfl
@[simp] theorem modHlu_evq (s : State) (f : Hlu → Hlu) : (s.modHlu f).evq = s.evq := rfl
@[simp] theorem modHlu_qe (s : State) (f : Hlu → Hlu) : (s.modHlu f).qe = s.qe := rfl
@[simp] theorem modHlu_queues (s : State) (f : Hlu → Hlu) : (s.modHlu f).queues = s.queues := rfl
@[simp] theorem modHlu_sessions (s : State) (f : Hlu → Hlu) : (s.modHlu f).sessions = s.sessions := rfl
@[simp] theorem modHlu_dsc (s : State) (f : Hlu → Hlu) : (s.modHlu f).dsc = s.dsc := rfl
@[simp] theorem modHlu_ctx (s : State) (f : Hlu → Hlu) : (s.modHlu f).ctx = s.ctx := rfl
@[simp] theorem modHlu_halves (s : State) (f : Hlu → Hlu) : (s.modHlu f).halves = s.halves := rfl
@[simp] theorem modHlu_cores (s : State) (f : Hlu → Hlu) : (s.modHlu f).cores = s.cores := rfl
@[simp] theorem modHlu_clusters (s : State) (f : Hlu → Hlu) : (s.modHlu f).clusters = s.clusters := rfl
@[simp] theorem modHlu_rcu (s : State) (f : Hlu → Hlu) : (s.modHlu f).rcu = s.rcu := rfl
@[simp] theorem modHlu_mau (s : State) (f : Hlu → Hlu) : (s.modHlu f).mau = s.mau := rfl
@[simp] theorem modHlu_pcf (s : State) (f : Hlu → Hlu) : (s.modHlu f).pcf = s.pcf := rfl
@[simp] theorem modHlu_ntl (s : State) (f : Hlu → Hlu) : (s.modHlu f).ntl = s.ntl := rfl
@[simp] theorem modHlu_mem (s : State) (f : Hlu → Hlu) : (s.modHlu f).mem = s.mem := rfl
@[simp] theorem modHlu_dmv (s : State) (f : Hlu → Hlu) : (s.modHlu f).dmv = s.dmv := rfl
@[simp] theorem modHlu_bpm (s : State) (f : Hlu → Hlu) : (s.modHlu f).bpm = s.bpm := rfl
@[simp] theorem modHlu_hlu (s : State) (f : Hlu → Hlu) : (s.modHlu f).hlu = f s.hlu := rfl
@[simp] theorem modHlu_imb (s : State) (f : Hlu → Hlu) : (s.modHlu f).imb = s.imb := rfl
@[simp] theorem modHlu_fcl (s : State) (f : Hlu → Hlu) : (s.modHlu f).fcl = s.fcl := rfl

@[simp] theorem modImb_pending (s : State) (f : Imb → Imb) : (s.modImb f).pending = s.pending := rfl
@[simp] theorem modImb_free (s : State) (f : Imb → Imb) : (s.modImb f).free = s.free := rfl
@[simp] theorem modImb_time (s : State) (f : Imb → Imb) : (s.modImb f).time = s.time := rfl
@[simp] theorem modImb_aon (s : State) (f : Imb → Imb) : (s.modImb f).aon = s.aon := rfl
@[simp] theorem modImb_out (s : State) (f : Imb → Imb) : (s.modImb f).out = s.out := rfl
@[simp] theorem modImb_rdata (s : State) (f : Imb → Imb) : (s.modImb f).rdata = s.rdata := rfl
@[simp] theorem modImb_latches (s : State) (f : Imb → Imb) : (s.modImb f).latches = s.latches := rfl
@[simp] theorem modImb_latched (s : State) (f : Imb → Imb) : (s.modImb f).latched = s.latched := rfl
@[simp] theorem modImb_heldW (s : State) (f : Imb → Imb) : (s.modImb f).heldW = s.heldW := rfl
@[simp] theorem modImb_heldV (s : State) (f : Imb → Imb) : (s.modImb f).heldV = s.heldV := rfl
@[simp] theorem modImb_pins (s : State) (f : Imb → Imb) : (s.modImb f).pins = s.pins := rfl
@[simp] theorem modImb_boot (s : State) (f : Imb → Imb) : (s.modImb f).boot = s.boot := rfl
@[simp] theorem modImb_funcs (s : State) (f : Imb → Imb) : (s.modImb f).funcs = s.funcs := rfl
@[simp] theorem modImb_admq (s : State) (f : Imb → Imb) : (s.modImb f).admq = s.admq := rfl
@[simp] theorem modImb_cfgq (s : State) (f : Imb → Imb) : (s.modImb f).cfgq = s.cfgq := rfl
@[simp] theorem modImb_evq (s : State) (f : Imb → Imb) : (s.modImb f).evq = s.evq := rfl
@[simp] theorem modImb_qe (s : State) (f : Imb → Imb) : (s.modImb f).qe = s.qe := rfl
@[simp] theorem modImb_queues (s : State) (f : Imb → Imb) : (s.modImb f).queues = s.queues := rfl
@[simp] theorem modImb_sessions (s : State) (f : Imb → Imb) : (s.modImb f).sessions = s.sessions := rfl
@[simp] theorem modImb_dsc (s : State) (f : Imb → Imb) : (s.modImb f).dsc = s.dsc := rfl
@[simp] theorem modImb_ctx (s : State) (f : Imb → Imb) : (s.modImb f).ctx = s.ctx := rfl
@[simp] theorem modImb_halves (s : State) (f : Imb → Imb) : (s.modImb f).halves = s.halves := rfl
@[simp] theorem modImb_cores (s : State) (f : Imb → Imb) : (s.modImb f).cores = s.cores := rfl
@[simp] theorem modImb_clusters (s : State) (f : Imb → Imb) : (s.modImb f).clusters = s.clusters := rfl
@[simp] theorem modImb_rcu (s : State) (f : Imb → Imb) : (s.modImb f).rcu = s.rcu := rfl
@[simp] theorem modImb_mau (s : State) (f : Imb → Imb) : (s.modImb f).mau = s.mau := rfl
@[simp] theorem modImb_pcf (s : State) (f : Imb → Imb) : (s.modImb f).pcf = s.pcf := rfl
@[simp] theorem modImb_ntl (s : State) (f : Imb → Imb) : (s.modImb f).ntl = s.ntl := rfl
@[simp] theorem modImb_mem (s : State) (f : Imb → Imb) : (s.modImb f).mem = s.mem := rfl
@[simp] theorem modImb_dmv (s : State) (f : Imb → Imb) : (s.modImb f).dmv = s.dmv := rfl
@[simp] theorem modImb_bpm (s : State) (f : Imb → Imb) : (s.modImb f).bpm = s.bpm := rfl
@[simp] theorem modImb_hlu (s : State) (f : Imb → Imb) : (s.modImb f).hlu = s.hlu := rfl
@[simp] theorem modImb_imb (s : State) (f : Imb → Imb) : (s.modImb f).imb = f s.imb := rfl
@[simp] theorem modImb_fcl (s : State) (f : Imb → Imb) : (s.modImb f).fcl = s.fcl := rfl

@[simp] theorem modFcl_pending (s : State) (f : Fcl → Fcl) : (s.modFcl f).pending = s.pending := rfl
@[simp] theorem modFcl_free (s : State) (f : Fcl → Fcl) : (s.modFcl f).free = s.free := rfl
@[simp] theorem modFcl_time (s : State) (f : Fcl → Fcl) : (s.modFcl f).time = s.time := rfl
@[simp] theorem modFcl_aon (s : State) (f : Fcl → Fcl) : (s.modFcl f).aon = s.aon := rfl
@[simp] theorem modFcl_out (s : State) (f : Fcl → Fcl) : (s.modFcl f).out = s.out := rfl
@[simp] theorem modFcl_rdata (s : State) (f : Fcl → Fcl) : (s.modFcl f).rdata = s.rdata := rfl
@[simp] theorem modFcl_latches (s : State) (f : Fcl → Fcl) : (s.modFcl f).latches = s.latches := rfl
@[simp] theorem modFcl_latched (s : State) (f : Fcl → Fcl) : (s.modFcl f).latched = s.latched := rfl
@[simp] theorem modFcl_heldW (s : State) (f : Fcl → Fcl) : (s.modFcl f).heldW = s.heldW := rfl
@[simp] theorem modFcl_heldV (s : State) (f : Fcl → Fcl) : (s.modFcl f).heldV = s.heldV := rfl
@[simp] theorem modFcl_pins (s : State) (f : Fcl → Fcl) : (s.modFcl f).pins = s.pins := rfl
@[simp] theorem modFcl_boot (s : State) (f : Fcl → Fcl) : (s.modFcl f).boot = s.boot := rfl
@[simp] theorem modFcl_funcs (s : State) (f : Fcl → Fcl) : (s.modFcl f).funcs = s.funcs := rfl
@[simp] theorem modFcl_admq (s : State) (f : Fcl → Fcl) : (s.modFcl f).admq = s.admq := rfl
@[simp] theorem modFcl_cfgq (s : State) (f : Fcl → Fcl) : (s.modFcl f).cfgq = s.cfgq := rfl
@[simp] theorem modFcl_evq (s : State) (f : Fcl → Fcl) : (s.modFcl f).evq = s.evq := rfl
@[simp] theorem modFcl_qe (s : State) (f : Fcl → Fcl) : (s.modFcl f).qe = s.qe := rfl
@[simp] theorem modFcl_queues (s : State) (f : Fcl → Fcl) : (s.modFcl f).queues = s.queues := rfl
@[simp] theorem modFcl_sessions (s : State) (f : Fcl → Fcl) : (s.modFcl f).sessions = s.sessions := rfl
@[simp] theorem modFcl_dsc (s : State) (f : Fcl → Fcl) : (s.modFcl f).dsc = s.dsc := rfl
@[simp] theorem modFcl_ctx (s : State) (f : Fcl → Fcl) : (s.modFcl f).ctx = s.ctx := rfl
@[simp] theorem modFcl_halves (s : State) (f : Fcl → Fcl) : (s.modFcl f).halves = s.halves := rfl
@[simp] theorem modFcl_cores (s : State) (f : Fcl → Fcl) : (s.modFcl f).cores = s.cores := rfl
@[simp] theorem modFcl_clusters (s : State) (f : Fcl → Fcl) : (s.modFcl f).clusters = s.clusters := rfl
@[simp] theorem modFcl_rcu (s : State) (f : Fcl → Fcl) : (s.modFcl f).rcu = s.rcu := rfl
@[simp] theorem modFcl_mau (s : State) (f : Fcl → Fcl) : (s.modFcl f).mau = s.mau := rfl
@[simp] theorem modFcl_pcf (s : State) (f : Fcl → Fcl) : (s.modFcl f).pcf = s.pcf := rfl
@[simp] theorem modFcl_ntl (s : State) (f : Fcl → Fcl) : (s.modFcl f).ntl = s.ntl := rfl
@[simp] theorem modFcl_mem (s : State) (f : Fcl → Fcl) : (s.modFcl f).mem = s.mem := rfl
@[simp] theorem modFcl_dmv (s : State) (f : Fcl → Fcl) : (s.modFcl f).dmv = s.dmv := rfl
@[simp] theorem modFcl_bpm (s : State) (f : Fcl → Fcl) : (s.modFcl f).bpm = s.bpm := rfl
@[simp] theorem modFcl_hlu (s : State) (f : Fcl → Fcl) : (s.modFcl f).hlu = s.hlu := rfl
@[simp] theorem modFcl_imb (s : State) (f : Fcl → Fcl) : (s.modFcl f).imb = s.imb := rfl
@[simp] theorem modFcl_fcl (s : State) (f : Fcl → Fcl) : (s.modFcl f).fcl = f s.fcl := rfl

@[simp] theorem modHalf_pending (s : State) (n : Nat) (f : Half → Half) : (s.modHalf n f).pending = s.pending := rfl
@[simp] theorem modHalf_free (s : State) (n : Nat) (f : Half → Half) : (s.modHalf n f).free = s.free := rfl
@[simp] theorem modHalf_time (s : State) (n : Nat) (f : Half → Half) : (s.modHalf n f).time = s.time := rfl
@[simp] theorem modHalf_aon (s : State) (n : Nat) (f : Half → Half) : (s.modHalf n f).aon = s.aon := rfl
@[simp] theorem modHalf_out (s : State) (n : Nat) (f : Half → Half) : (s.modHalf n f).out = s.out := rfl
@[simp] theorem modHalf_rdata (s : State) (n : Nat) (f : Half → Half) : (s.modHalf n f).rdata = s.rdata := rfl
@[simp] theorem modHalf_latches (s : State) (n : Nat) (f : Half → Half) : (s.modHalf n f).latches = s.latches := rfl
@[simp] theorem modHalf_latched (s : State) (n : Nat) (f : Half → Half) : (s.modHalf n f).latched = s.latched := rfl
@[simp] theorem modHalf_heldW (s : State) (n : Nat) (f : Half → Half) : (s.modHalf n f).heldW = s.heldW := rfl
@[simp] theorem modHalf_heldV (s : State) (n : Nat) (f : Half → Half) : (s.modHalf n f).heldV = s.heldV := rfl
@[simp] theorem modHalf_pins (s : State) (n : Nat) (f : Half → Half) : (s.modHalf n f).pins = s.pins := rfl
@[simp] theorem modHalf_boot (s : State) (n : Nat) (f : Half → Half) : (s.modHalf n f).boot = s.boot := rfl
@[simp] theorem modHalf_funcs (s : State) (n : Nat) (f : Half → Half) : (s.modHalf n f).funcs = s.funcs := rfl
@[simp] theorem modHalf_admq (s : State) (n : Nat) (f : Half → Half) : (s.modHalf n f).admq = s.admq := rfl
@[simp] theorem modHalf_cfgq (s : State) (n : Nat) (f : Half → Half) : (s.modHalf n f).cfgq = s.cfgq := rfl
@[simp] theorem modHalf_evq (s : State) (n : Nat) (f : Half → Half) : (s.modHalf n f).evq = s.evq := rfl
@[simp] theorem modHalf_qe (s : State) (n : Nat) (f : Half → Half) : (s.modHalf n f).qe = s.qe := rfl
@[simp] theorem modHalf_queues (s : State) (n : Nat) (f : Half → Half) : (s.modHalf n f).queues = s.queues := rfl
@[simp] theorem modHalf_sessions (s : State) (n : Nat) (f : Half → Half) : (s.modHalf n f).sessions = s.sessions := rfl
@[simp] theorem modHalf_dsc (s : State) (n : Nat) (f : Half → Half) : (s.modHalf n f).dsc = s.dsc := rfl
@[simp] theorem modHalf_ctx (s : State) (n : Nat) (f : Half → Half) : (s.modHalf n f).ctx = s.ctx := rfl
@[simp] theorem modHalf_cores (s : State) (n : Nat) (f : Half → Half) : (s.modHalf n f).cores = s.cores := rfl
@[simp] theorem modHalf_clusters (s : State) (n : Nat) (f : Half → Half) : (s.modHalf n f).clusters = s.clusters := rfl
@[simp] theorem modHalf_rcu (s : State) (n : Nat) (f : Half → Half) : (s.modHalf n f).rcu = s.rcu := rfl
@[simp] theorem modHalf_mau (s : State) (n : Nat) (f : Half → Half) : (s.modHalf n f).mau = s.mau := rfl
@[simp] theorem modHalf_pcf (s : State) (n : Nat) (f : Half → Half) : (s.modHalf n f).pcf = s.pcf := rfl
@[simp] theorem modHalf_ntl (s : State) (n : Nat) (f : Half → Half) : (s.modHalf n f).ntl = s.ntl := rfl
@[simp] theorem modHalf_mem (s : State) (n : Nat) (f : Half → Half) : (s.modHalf n f).mem = s.mem := rfl
@[simp] theorem modHalf_dmv (s : State) (n : Nat) (f : Half → Half) : (s.modHalf n f).dmv = s.dmv := rfl
@[simp] theorem modHalf_bpm (s : State) (n : Nat) (f : Half → Half) : (s.modHalf n f).bpm = s.bpm := rfl
@[simp] theorem modHalf_hlu (s : State) (n : Nat) (f : Half → Half) : (s.modHalf n f).hlu = s.hlu := rfl
@[simp] theorem modHalf_imb (s : State) (n : Nat) (f : Half → Half) : (s.modHalf n f).imb = s.imb := rfl
@[simp] theorem modHalf_fcl (s : State) (n : Nat) (f : Half → Half) : (s.modHalf n f).fcl = s.fcl := rfl
@[simp] theorem modHalf_half (s : State) (n : Nat) (f : Half → Half) : (s.modHalf n f).half n = f (s.half n) := tblGet_tblMod_same ..
theorem modHalf_half_other (s : State) (n k : Nat) (f : Half → Half) (h : n ≠ k) : (s.modHalf n f).half k = s.half k := tblGet_tblMod_other _ _ _ _ _ h

@[simp] theorem modCore_pending (s : State) (n : Nat) (f : Core → Core) : (s.modCore n f).pending = s.pending := rfl
@[simp] theorem modCore_free (s : State) (n : Nat) (f : Core → Core) : (s.modCore n f).free = s.free := rfl
@[simp] theorem modCore_time (s : State) (n : Nat) (f : Core → Core) : (s.modCore n f).time = s.time := rfl
@[simp] theorem modCore_aon (s : State) (n : Nat) (f : Core → Core) : (s.modCore n f).aon = s.aon := rfl
@[simp] theorem modCore_out (s : State) (n : Nat) (f : Core → Core) : (s.modCore n f).out = s.out := rfl
@[simp] theorem modCore_rdata (s : State) (n : Nat) (f : Core → Core) : (s.modCore n f).rdata = s.rdata := rfl
@[simp] theorem modCore_latches (s : State) (n : Nat) (f : Core → Core) : (s.modCore n f).latches = s.latches := rfl
@[simp] theorem modCore_latched (s : State) (n : Nat) (f : Core → Core) : (s.modCore n f).latched = s.latched := rfl
@[simp] theorem modCore_heldW (s : State) (n : Nat) (f : Core → Core) : (s.modCore n f).heldW = s.heldW := rfl
@[simp] theorem modCore_heldV (s : State) (n : Nat) (f : Core → Core) : (s.modCore n f).heldV = s.heldV := rfl
@[simp] theorem modCore_pins (s : State) (n : Nat) (f : Core → Core) : (s.modCore n f).pins = s.pins := rfl
@[simp] theorem modCore_boot (s : State) (n : Nat) (f : Core → Core) : (s.modCore n f).boot = s.boot := rfl
@[simp] theorem modCore_funcs (s : State) (n : Nat) (f : Core → Core) : (s.modCore n f).funcs = s.funcs := rfl
@[simp] theorem modCore_admq (s : State) (n : Nat) (f : Core → Core) : (s.modCore n f).admq = s.admq := rfl
@[simp] theorem modCore_cfgq (s : State) (n : Nat) (f : Core → Core) : (s.modCore n f).cfgq = s.cfgq := rfl
@[simp] theorem modCore_evq (s : State) (n : Nat) (f : Core → Core) : (s.modCore n f).evq = s.evq := rfl
@[simp] theorem modCore_qe (s : State) (n : Nat) (f : Core → Core) : (s.modCore n f).qe = s.qe := rfl
@[simp] theorem modCore_queues (s : State) (n : Nat) (f : Core → Core) : (s.modCore n f).queues = s.queues := rfl
@[simp] theorem modCore_sessions (s : State) (n : Nat) (f : Core → Core) : (s.modCore n f).sessions = s.sessions := rfl
@[simp] theorem modCore_dsc (s : State) (n : Nat) (f : Core → Core) : (s.modCore n f).dsc = s.dsc := rfl
@[simp] theorem modCore_ctx (s : State) (n : Nat) (f : Core → Core) : (s.modCore n f).ctx = s.ctx := rfl
@[simp] theorem modCore_halves (s : State) (n : Nat) (f : Core → Core) : (s.modCore n f).halves = s.halves := rfl
@[simp] theorem modCore_clusters (s : State) (n : Nat) (f : Core → Core) : (s.modCore n f).clusters = s.clusters := rfl
@[simp] theorem modCore_rcu (s : State) (n : Nat) (f : Core → Core) : (s.modCore n f).rcu = s.rcu := rfl
@[simp] theorem modCore_mau (s : State) (n : Nat) (f : Core → Core) : (s.modCore n f).mau = s.mau := rfl
@[simp] theorem modCore_pcf (s : State) (n : Nat) (f : Core → Core) : (s.modCore n f).pcf = s.pcf := rfl
@[simp] theorem modCore_ntl (s : State) (n : Nat) (f : Core → Core) : (s.modCore n f).ntl = s.ntl := rfl
@[simp] theorem modCore_mem (s : State) (n : Nat) (f : Core → Core) : (s.modCore n f).mem = s.mem := rfl
@[simp] theorem modCore_dmv (s : State) (n : Nat) (f : Core → Core) : (s.modCore n f).dmv = s.dmv := rfl
@[simp] theorem modCore_bpm (s : State) (n : Nat) (f : Core → Core) : (s.modCore n f).bpm = s.bpm := rfl
@[simp] theorem modCore_hlu (s : State) (n : Nat) (f : Core → Core) : (s.modCore n f).hlu = s.hlu := rfl
@[simp] theorem modCore_imb (s : State) (n : Nat) (f : Core → Core) : (s.modCore n f).imb = s.imb := rfl
@[simp] theorem modCore_fcl (s : State) (n : Nat) (f : Core → Core) : (s.modCore n f).fcl = s.fcl := rfl
@[simp] theorem modCore_core (s : State) (n : Nat) (f : Core → Core) : (s.modCore n f).core n = f (s.core n) := tblGet_tblMod_same ..
theorem modCore_core_other (s : State) (n k : Nat) (f : Core → Core) (h : n ≠ k) : (s.modCore n f).core k = s.core k := tblGet_tblMod_other _ _ _ _ _ h

@[simp] theorem modCluster_pending (s : State) (n : Nat) (f : Cluster → Cluster) : (s.modCluster n f).pending = s.pending := rfl
@[simp] theorem modCluster_free (s : State) (n : Nat) (f : Cluster → Cluster) : (s.modCluster n f).free = s.free := rfl
@[simp] theorem modCluster_time (s : State) (n : Nat) (f : Cluster → Cluster) : (s.modCluster n f).time = s.time := rfl
@[simp] theorem modCluster_aon (s : State) (n : Nat) (f : Cluster → Cluster) : (s.modCluster n f).aon = s.aon := rfl
@[simp] theorem modCluster_out (s : State) (n : Nat) (f : Cluster → Cluster) : (s.modCluster n f).out = s.out := rfl
@[simp] theorem modCluster_rdata (s : State) (n : Nat) (f : Cluster → Cluster) : (s.modCluster n f).rdata = s.rdata := rfl
@[simp] theorem modCluster_latches (s : State) (n : Nat) (f : Cluster → Cluster) : (s.modCluster n f).latches = s.latches := rfl
@[simp] theorem modCluster_latched (s : State) (n : Nat) (f : Cluster → Cluster) : (s.modCluster n f).latched = s.latched := rfl
@[simp] theorem modCluster_heldW (s : State) (n : Nat) (f : Cluster → Cluster) : (s.modCluster n f).heldW = s.heldW := rfl
@[simp] theorem modCluster_heldV (s : State) (n : Nat) (f : Cluster → Cluster) : (s.modCluster n f).heldV = s.heldV := rfl
@[simp] theorem modCluster_pins (s : State) (n : Nat) (f : Cluster → Cluster) : (s.modCluster n f).pins = s.pins := rfl
@[simp] theorem modCluster_boot (s : State) (n : Nat) (f : Cluster → Cluster) : (s.modCluster n f).boot = s.boot := rfl
@[simp] theorem modCluster_funcs (s : State) (n : Nat) (f : Cluster → Cluster) : (s.modCluster n f).funcs = s.funcs := rfl
@[simp] theorem modCluster_admq (s : State) (n : Nat) (f : Cluster → Cluster) : (s.modCluster n f).admq = s.admq := rfl
@[simp] theorem modCluster_cfgq (s : State) (n : Nat) (f : Cluster → Cluster) : (s.modCluster n f).cfgq = s.cfgq := rfl
@[simp] theorem modCluster_evq (s : State) (n : Nat) (f : Cluster → Cluster) : (s.modCluster n f).evq = s.evq := rfl
@[simp] theorem modCluster_qe (s : State) (n : Nat) (f : Cluster → Cluster) : (s.modCluster n f).qe = s.qe := rfl
@[simp] theorem modCluster_queues (s : State) (n : Nat) (f : Cluster → Cluster) : (s.modCluster n f).queues = s.queues := rfl
@[simp] theorem modCluster_sessions (s : State) (n : Nat) (f : Cluster → Cluster) : (s.modCluster n f).sessions = s.sessions := rfl
@[simp] theorem modCluster_dsc (s : State) (n : Nat) (f : Cluster → Cluster) : (s.modCluster n f).dsc = s.dsc := rfl
@[simp] theorem modCluster_ctx (s : State) (n : Nat) (f : Cluster → Cluster) : (s.modCluster n f).ctx = s.ctx := rfl
@[simp] theorem modCluster_halves (s : State) (n : Nat) (f : Cluster → Cluster) : (s.modCluster n f).halves = s.halves := rfl
@[simp] theorem modCluster_cores (s : State) (n : Nat) (f : Cluster → Cluster) : (s.modCluster n f).cores = s.cores := rfl
@[simp] theorem modCluster_rcu (s : State) (n : Nat) (f : Cluster → Cluster) : (s.modCluster n f).rcu = s.rcu := rfl
@[simp] theorem modCluster_mau (s : State) (n : Nat) (f : Cluster → Cluster) : (s.modCluster n f).mau = s.mau := rfl
@[simp] theorem modCluster_pcf (s : State) (n : Nat) (f : Cluster → Cluster) : (s.modCluster n f).pcf = s.pcf := rfl
@[simp] theorem modCluster_ntl (s : State) (n : Nat) (f : Cluster → Cluster) : (s.modCluster n f).ntl = s.ntl := rfl
@[simp] theorem modCluster_mem (s : State) (n : Nat) (f : Cluster → Cluster) : (s.modCluster n f).mem = s.mem := rfl
@[simp] theorem modCluster_dmv (s : State) (n : Nat) (f : Cluster → Cluster) : (s.modCluster n f).dmv = s.dmv := rfl
@[simp] theorem modCluster_bpm (s : State) (n : Nat) (f : Cluster → Cluster) : (s.modCluster n f).bpm = s.bpm := rfl
@[simp] theorem modCluster_hlu (s : State) (n : Nat) (f : Cluster → Cluster) : (s.modCluster n f).hlu = s.hlu := rfl
@[simp] theorem modCluster_imb (s : State) (n : Nat) (f : Cluster → Cluster) : (s.modCluster n f).imb = s.imb := rfl
@[simp] theorem modCluster_fcl (s : State) (n : Nat) (f : Cluster → Cluster) : (s.modCluster n f).fcl = s.fcl := rfl
@[simp] theorem modCluster_cluster (s : State) (n : Nat) (f : Cluster → Cluster) : (s.modCluster n f).cluster n = f (s.cluster n) := tblGet_tblMod_same ..
theorem modCluster_cluster_other (s : State) (n k : Nat) (f : Cluster → Cluster) (h : n ≠ k) : (s.modCluster n f).cluster k = s.cluster k := tblGet_tblMod_other _ _ _ _ _ h

@[simp] theorem modFunc_pending (s : State) (n : Nat) (f : Func → Func) : (s.modFunc n f).pending = s.pending := rfl
@[simp] theorem modFunc_free (s : State) (n : Nat) (f : Func → Func) : (s.modFunc n f).free = s.free := rfl
@[simp] theorem modFunc_time (s : State) (n : Nat) (f : Func → Func) : (s.modFunc n f).time = s.time := rfl
@[simp] theorem modFunc_aon (s : State) (n : Nat) (f : Func → Func) : (s.modFunc n f).aon = s.aon := rfl
@[simp] theorem modFunc_out (s : State) (n : Nat) (f : Func → Func) : (s.modFunc n f).out = s.out := rfl
@[simp] theorem modFunc_rdata (s : State) (n : Nat) (f : Func → Func) : (s.modFunc n f).rdata = s.rdata := rfl
@[simp] theorem modFunc_latches (s : State) (n : Nat) (f : Func → Func) : (s.modFunc n f).latches = s.latches := rfl
@[simp] theorem modFunc_latched (s : State) (n : Nat) (f : Func → Func) : (s.modFunc n f).latched = s.latched := rfl
@[simp] theorem modFunc_heldW (s : State) (n : Nat) (f : Func → Func) : (s.modFunc n f).heldW = s.heldW := rfl
@[simp] theorem modFunc_heldV (s : State) (n : Nat) (f : Func → Func) : (s.modFunc n f).heldV = s.heldV := rfl
@[simp] theorem modFunc_pins (s : State) (n : Nat) (f : Func → Func) : (s.modFunc n f).pins = s.pins := rfl
@[simp] theorem modFunc_boot (s : State) (n : Nat) (f : Func → Func) : (s.modFunc n f).boot = s.boot := rfl
@[simp] theorem modFunc_admq (s : State) (n : Nat) (f : Func → Func) : (s.modFunc n f).admq = s.admq := rfl
@[simp] theorem modFunc_cfgq (s : State) (n : Nat) (f : Func → Func) : (s.modFunc n f).cfgq = s.cfgq := rfl
@[simp] theorem modFunc_evq (s : State) (n : Nat) (f : Func → Func) : (s.modFunc n f).evq = s.evq := rfl
@[simp] theorem modFunc_qe (s : State) (n : Nat) (f : Func → Func) : (s.modFunc n f).qe = s.qe := rfl
@[simp] theorem modFunc_queues (s : State) (n : Nat) (f : Func → Func) : (s.modFunc n f).queues = s.queues := rfl
@[simp] theorem modFunc_sessions (s : State) (n : Nat) (f : Func → Func) : (s.modFunc n f).sessions = s.sessions := rfl
@[simp] theorem modFunc_dsc (s : State) (n : Nat) (f : Func → Func) : (s.modFunc n f).dsc = s.dsc := rfl
@[simp] theorem modFunc_ctx (s : State) (n : Nat) (f : Func → Func) : (s.modFunc n f).ctx = s.ctx := rfl
@[simp] theorem modFunc_halves (s : State) (n : Nat) (f : Func → Func) : (s.modFunc n f).halves = s.halves := rfl
@[simp] theorem modFunc_cores (s : State) (n : Nat) (f : Func → Func) : (s.modFunc n f).cores = s.cores := rfl
@[simp] theorem modFunc_clusters (s : State) (n : Nat) (f : Func → Func) : (s.modFunc n f).clusters = s.clusters := rfl
@[simp] theorem modFunc_rcu (s : State) (n : Nat) (f : Func → Func) : (s.modFunc n f).rcu = s.rcu := rfl
@[simp] theorem modFunc_mau (s : State) (n : Nat) (f : Func → Func) : (s.modFunc n f).mau = s.mau := rfl
@[simp] theorem modFunc_pcf (s : State) (n : Nat) (f : Func → Func) : (s.modFunc n f).pcf = s.pcf := rfl
@[simp] theorem modFunc_ntl (s : State) (n : Nat) (f : Func → Func) : (s.modFunc n f).ntl = s.ntl := rfl
@[simp] theorem modFunc_mem (s : State) (n : Nat) (f : Func → Func) : (s.modFunc n f).mem = s.mem := rfl
@[simp] theorem modFunc_dmv (s : State) (n : Nat) (f : Func → Func) : (s.modFunc n f).dmv = s.dmv := rfl
@[simp] theorem modFunc_bpm (s : State) (n : Nat) (f : Func → Func) : (s.modFunc n f).bpm = s.bpm := rfl
@[simp] theorem modFunc_hlu (s : State) (n : Nat) (f : Func → Func) : (s.modFunc n f).hlu = s.hlu := rfl
@[simp] theorem modFunc_imb (s : State) (n : Nat) (f : Func → Func) : (s.modFunc n f).imb = s.imb := rfl
@[simp] theorem modFunc_fcl (s : State) (n : Nat) (f : Func → Func) : (s.modFunc n f).fcl = s.fcl := rfl
@[simp] theorem modFunc_func (s : State) (n : Nat) (f : Func → Func) : (s.modFunc n f).func n = f (s.func n) := tblGet_tblMod_same ..
theorem modFunc_func_other (s : State) (n k : Nat) (f : Func → Func) (h : n ≠ k) : (s.modFunc n f).func k = s.func k := tblGet_tblMod_other _ _ _ _ _ h

@[simp] theorem modQueue_pending (s : State) (n : Nat) (f : WorkQ → WorkQ) : (s.modQueue n f).pending = s.pending := rfl
@[simp] theorem modQueue_free (s : State) (n : Nat) (f : WorkQ → WorkQ) : (s.modQueue n f).free = s.free := rfl
@[simp] theorem modQueue_time (s : State) (n : Nat) (f : WorkQ → WorkQ) : (s.modQueue n f).time = s.time := rfl
@[simp] theorem modQueue_aon (s : State) (n : Nat) (f : WorkQ → WorkQ) : (s.modQueue n f).aon = s.aon := rfl
@[simp] theorem modQueue_out (s : State) (n : Nat) (f : WorkQ → WorkQ) : (s.modQueue n f).out = s.out := rfl
@[simp] theorem modQueue_rdata (s : State) (n : Nat) (f : WorkQ → WorkQ) : (s.modQueue n f).rdata = s.rdata := rfl
@[simp] theorem modQueue_latches (s : State) (n : Nat) (f : WorkQ → WorkQ) : (s.modQueue n f).latches = s.latches := rfl
@[simp] theorem modQueue_latched (s : State) (n : Nat) (f : WorkQ → WorkQ) : (s.modQueue n f).latched = s.latched := rfl
@[simp] theorem modQueue_heldW (s : State) (n : Nat) (f : WorkQ → WorkQ) : (s.modQueue n f).heldW = s.heldW := rfl
@[simp] theorem modQueue_heldV (s : State) (n : Nat) (f : WorkQ → WorkQ) : (s.modQueue n f).heldV = s.heldV := rfl
@[simp] theorem modQueue_pins (s : State) (n : Nat) (f : WorkQ → WorkQ) : (s.modQueue n f).pins = s.pins := rfl
@[simp] theorem modQueue_boot (s : State) (n : Nat) (f : WorkQ → WorkQ) : (s.modQueue n f).boot = s.boot := rfl
@[simp] theorem modQueue_funcs (s : State) (n : Nat) (f : WorkQ → WorkQ) : (s.modQueue n f).funcs = s.funcs := rfl
@[simp] theorem modQueue_admq (s : State) (n : Nat) (f : WorkQ → WorkQ) : (s.modQueue n f).admq = s.admq := rfl
@[simp] theorem modQueue_cfgq (s : State) (n : Nat) (f : WorkQ → WorkQ) : (s.modQueue n f).cfgq = s.cfgq := rfl
@[simp] theorem modQueue_evq (s : State) (n : Nat) (f : WorkQ → WorkQ) : (s.modQueue n f).evq = s.evq := rfl
@[simp] theorem modQueue_qe (s : State) (n : Nat) (f : WorkQ → WorkQ) : (s.modQueue n f).qe = s.qe := rfl
@[simp] theorem modQueue_sessions (s : State) (n : Nat) (f : WorkQ → WorkQ) : (s.modQueue n f).sessions = s.sessions := rfl
@[simp] theorem modQueue_dsc (s : State) (n : Nat) (f : WorkQ → WorkQ) : (s.modQueue n f).dsc = s.dsc := rfl
@[simp] theorem modQueue_ctx (s : State) (n : Nat) (f : WorkQ → WorkQ) : (s.modQueue n f).ctx = s.ctx := rfl
@[simp] theorem modQueue_halves (s : State) (n : Nat) (f : WorkQ → WorkQ) : (s.modQueue n f).halves = s.halves := rfl
@[simp] theorem modQueue_cores (s : State) (n : Nat) (f : WorkQ → WorkQ) : (s.modQueue n f).cores = s.cores := rfl
@[simp] theorem modQueue_clusters (s : State) (n : Nat) (f : WorkQ → WorkQ) : (s.modQueue n f).clusters = s.clusters := rfl
@[simp] theorem modQueue_rcu (s : State) (n : Nat) (f : WorkQ → WorkQ) : (s.modQueue n f).rcu = s.rcu := rfl
@[simp] theorem modQueue_mau (s : State) (n : Nat) (f : WorkQ → WorkQ) : (s.modQueue n f).mau = s.mau := rfl
@[simp] theorem modQueue_pcf (s : State) (n : Nat) (f : WorkQ → WorkQ) : (s.modQueue n f).pcf = s.pcf := rfl
@[simp] theorem modQueue_ntl (s : State) (n : Nat) (f : WorkQ → WorkQ) : (s.modQueue n f).ntl = s.ntl := rfl
@[simp] theorem modQueue_mem (s : State) (n : Nat) (f : WorkQ → WorkQ) : (s.modQueue n f).mem = s.mem := rfl
@[simp] theorem modQueue_dmv (s : State) (n : Nat) (f : WorkQ → WorkQ) : (s.modQueue n f).dmv = s.dmv := rfl
@[simp] theorem modQueue_bpm (s : State) (n : Nat) (f : WorkQ → WorkQ) : (s.modQueue n f).bpm = s.bpm := rfl
@[simp] theorem modQueue_hlu (s : State) (n : Nat) (f : WorkQ → WorkQ) : (s.modQueue n f).hlu = s.hlu := rfl
@[simp] theorem modQueue_imb (s : State) (n : Nat) (f : WorkQ → WorkQ) : (s.modQueue n f).imb = s.imb := rfl
@[simp] theorem modQueue_fcl (s : State) (n : Nat) (f : WorkQ → WorkQ) : (s.modQueue n f).fcl = s.fcl := rfl
@[simp] theorem modQueue_queue (s : State) (n : Nat) (f : WorkQ → WorkQ) : (s.modQueue n f).queue n = f (s.queue n) := tblGet_tblMod_same ..
theorem modQueue_queue_other (s : State) (n k : Nat) (f : WorkQ → WorkQ) (h : n ≠ k) : (s.modQueue n f).queue k = s.queue k := tblGet_tblMod_other _ _ _ _ _ h

@[simp] theorem modSess_pending (s : State) (n : Nat) (f : Session → Session) : (s.modSess n f).pending = s.pending := rfl
@[simp] theorem modSess_free (s : State) (n : Nat) (f : Session → Session) : (s.modSess n f).free = s.free := rfl
@[simp] theorem modSess_time (s : State) (n : Nat) (f : Session → Session) : (s.modSess n f).time = s.time := rfl
@[simp] theorem modSess_aon (s : State) (n : Nat) (f : Session → Session) : (s.modSess n f).aon = s.aon := rfl
@[simp] theorem modSess_out (s : State) (n : Nat) (f : Session → Session) : (s.modSess n f).out = s.out := rfl
@[simp] theorem modSess_rdata (s : State) (n : Nat) (f : Session → Session) : (s.modSess n f).rdata = s.rdata := rfl
@[simp] theorem modSess_latches (s : State) (n : Nat) (f : Session → Session) : (s.modSess n f).latches = s.latches := rfl
@[simp] theorem modSess_latched (s : State) (n : Nat) (f : Session → Session) : (s.modSess n f).latched = s.latched := rfl
@[simp] theorem modSess_heldW (s : State) (n : Nat) (f : Session → Session) : (s.modSess n f).heldW = s.heldW := rfl
@[simp] theorem modSess_heldV (s : State) (n : Nat) (f : Session → Session) : (s.modSess n f).heldV = s.heldV := rfl
@[simp] theorem modSess_pins (s : State) (n : Nat) (f : Session → Session) : (s.modSess n f).pins = s.pins := rfl
@[simp] theorem modSess_boot (s : State) (n : Nat) (f : Session → Session) : (s.modSess n f).boot = s.boot := rfl
@[simp] theorem modSess_funcs (s : State) (n : Nat) (f : Session → Session) : (s.modSess n f).funcs = s.funcs := rfl
@[simp] theorem modSess_admq (s : State) (n : Nat) (f : Session → Session) : (s.modSess n f).admq = s.admq := rfl
@[simp] theorem modSess_cfgq (s : State) (n : Nat) (f : Session → Session) : (s.modSess n f).cfgq = s.cfgq := rfl
@[simp] theorem modSess_evq (s : State) (n : Nat) (f : Session → Session) : (s.modSess n f).evq = s.evq := rfl
@[simp] theorem modSess_qe (s : State) (n : Nat) (f : Session → Session) : (s.modSess n f).qe = s.qe := rfl
@[simp] theorem modSess_queues (s : State) (n : Nat) (f : Session → Session) : (s.modSess n f).queues = s.queues := rfl
@[simp] theorem modSess_dsc (s : State) (n : Nat) (f : Session → Session) : (s.modSess n f).dsc = s.dsc := rfl
@[simp] theorem modSess_ctx (s : State) (n : Nat) (f : Session → Session) : (s.modSess n f).ctx = s.ctx := rfl
@[simp] theorem modSess_halves (s : State) (n : Nat) (f : Session → Session) : (s.modSess n f).halves = s.halves := rfl
@[simp] theorem modSess_cores (s : State) (n : Nat) (f : Session → Session) : (s.modSess n f).cores = s.cores := rfl
@[simp] theorem modSess_clusters (s : State) (n : Nat) (f : Session → Session) : (s.modSess n f).clusters = s.clusters := rfl
@[simp] theorem modSess_rcu (s : State) (n : Nat) (f : Session → Session) : (s.modSess n f).rcu = s.rcu := rfl
@[simp] theorem modSess_mau (s : State) (n : Nat) (f : Session → Session) : (s.modSess n f).mau = s.mau := rfl
@[simp] theorem modSess_pcf (s : State) (n : Nat) (f : Session → Session) : (s.modSess n f).pcf = s.pcf := rfl
@[simp] theorem modSess_ntl (s : State) (n : Nat) (f : Session → Session) : (s.modSess n f).ntl = s.ntl := rfl
@[simp] theorem modSess_mem (s : State) (n : Nat) (f : Session → Session) : (s.modSess n f).mem = s.mem := rfl
@[simp] theorem modSess_dmv (s : State) (n : Nat) (f : Session → Session) : (s.modSess n f).dmv = s.dmv := rfl
@[simp] theorem modSess_bpm (s : State) (n : Nat) (f : Session → Session) : (s.modSess n f).bpm = s.bpm := rfl
@[simp] theorem modSess_hlu (s : State) (n : Nat) (f : Session → Session) : (s.modSess n f).hlu = s.hlu := rfl
@[simp] theorem modSess_imb (s : State) (n : Nat) (f : Session → Session) : (s.modSess n f).imb = s.imb := rfl
@[simp] theorem modSess_fcl (s : State) (n : Nat) (f : Session → Session) : (s.modSess n f).fcl = s.fcl := rfl
@[simp] theorem modSess_sess (s : State) (n : Nat) (f : Session → Session) : (s.modSess n f).sess n = f (s.sess n) := tblGet_tblMod_same ..
theorem modSess_sess_other (s : State) (n k : Nat) (f : Session → Session) (h : n ≠ k) : (s.modSess n f).sess k = s.sess k := tblGet_tblMod_other _ _ _ _ _ h

@[simp] theorem modAdmQ_pending (s : State) (n : Nat) (f : AdmQ → AdmQ) : (s.modAdmQ n f).pending = s.pending := rfl
@[simp] theorem modAdmQ_free (s : State) (n : Nat) (f : AdmQ → AdmQ) : (s.modAdmQ n f).free = s.free := rfl
@[simp] theorem modAdmQ_time (s : State) (n : Nat) (f : AdmQ → AdmQ) : (s.modAdmQ n f).time = s.time := rfl
@[simp] theorem modAdmQ_aon (s : State) (n : Nat) (f : AdmQ → AdmQ) : (s.modAdmQ n f).aon = s.aon := rfl
@[simp] theorem modAdmQ_out (s : State) (n : Nat) (f : AdmQ → AdmQ) : (s.modAdmQ n f).out = s.out := rfl
@[simp] theorem modAdmQ_rdata (s : State) (n : Nat) (f : AdmQ → AdmQ) : (s.modAdmQ n f).rdata = s.rdata := rfl
@[simp] theorem modAdmQ_latches (s : State) (n : Nat) (f : AdmQ → AdmQ) : (s.modAdmQ n f).latches = s.latches := rfl
@[simp] theorem modAdmQ_latched (s : State) (n : Nat) (f : AdmQ → AdmQ) : (s.modAdmQ n f).latched = s.latched := rfl
@[simp] theorem modAdmQ_heldW (s : State) (n : Nat) (f : AdmQ → AdmQ) : (s.modAdmQ n f).heldW = s.heldW := rfl
@[simp] theorem modAdmQ_heldV (s : State) (n : Nat) (f : AdmQ → AdmQ) : (s.modAdmQ n f).heldV = s.heldV := rfl
@[simp] theorem modAdmQ_pins (s : State) (n : Nat) (f : AdmQ → AdmQ) : (s.modAdmQ n f).pins = s.pins := rfl
@[simp] theorem modAdmQ_boot (s : State) (n : Nat) (f : AdmQ → AdmQ) : (s.modAdmQ n f).boot = s.boot := rfl
@[simp] theorem modAdmQ_funcs (s : State) (n : Nat) (f : AdmQ → AdmQ) : (s.modAdmQ n f).funcs = s.funcs := rfl
@[simp] theorem modAdmQ_cfgq (s : State) (n : Nat) (f : AdmQ → AdmQ) : (s.modAdmQ n f).cfgq = s.cfgq := rfl
@[simp] theorem modAdmQ_evq (s : State) (n : Nat) (f : AdmQ → AdmQ) : (s.modAdmQ n f).evq = s.evq := rfl
@[simp] theorem modAdmQ_qe (s : State) (n : Nat) (f : AdmQ → AdmQ) : (s.modAdmQ n f).qe = s.qe := rfl
@[simp] theorem modAdmQ_queues (s : State) (n : Nat) (f : AdmQ → AdmQ) : (s.modAdmQ n f).queues = s.queues := rfl
@[simp] theorem modAdmQ_sessions (s : State) (n : Nat) (f : AdmQ → AdmQ) : (s.modAdmQ n f).sessions = s.sessions := rfl
@[simp] theorem modAdmQ_dsc (s : State) (n : Nat) (f : AdmQ → AdmQ) : (s.modAdmQ n f).dsc = s.dsc := rfl
@[simp] theorem modAdmQ_ctx (s : State) (n : Nat) (f : AdmQ → AdmQ) : (s.modAdmQ n f).ctx = s.ctx := rfl
@[simp] theorem modAdmQ_halves (s : State) (n : Nat) (f : AdmQ → AdmQ) : (s.modAdmQ n f).halves = s.halves := rfl
@[simp] theorem modAdmQ_cores (s : State) (n : Nat) (f : AdmQ → AdmQ) : (s.modAdmQ n f).cores = s.cores := rfl
@[simp] theorem modAdmQ_clusters (s : State) (n : Nat) (f : AdmQ → AdmQ) : (s.modAdmQ n f).clusters = s.clusters := rfl
@[simp] theorem modAdmQ_rcu (s : State) (n : Nat) (f : AdmQ → AdmQ) : (s.modAdmQ n f).rcu = s.rcu := rfl
@[simp] theorem modAdmQ_mau (s : State) (n : Nat) (f : AdmQ → AdmQ) : (s.modAdmQ n f).mau = s.mau := rfl
@[simp] theorem modAdmQ_pcf (s : State) (n : Nat) (f : AdmQ → AdmQ) : (s.modAdmQ n f).pcf = s.pcf := rfl
@[simp] theorem modAdmQ_ntl (s : State) (n : Nat) (f : AdmQ → AdmQ) : (s.modAdmQ n f).ntl = s.ntl := rfl
@[simp] theorem modAdmQ_mem (s : State) (n : Nat) (f : AdmQ → AdmQ) : (s.modAdmQ n f).mem = s.mem := rfl
@[simp] theorem modAdmQ_dmv (s : State) (n : Nat) (f : AdmQ → AdmQ) : (s.modAdmQ n f).dmv = s.dmv := rfl
@[simp] theorem modAdmQ_bpm (s : State) (n : Nat) (f : AdmQ → AdmQ) : (s.modAdmQ n f).bpm = s.bpm := rfl
@[simp] theorem modAdmQ_hlu (s : State) (n : Nat) (f : AdmQ → AdmQ) : (s.modAdmQ n f).hlu = s.hlu := rfl
@[simp] theorem modAdmQ_imb (s : State) (n : Nat) (f : AdmQ → AdmQ) : (s.modAdmQ n f).imb = s.imb := rfl
@[simp] theorem modAdmQ_fcl (s : State) (n : Nat) (f : AdmQ → AdmQ) : (s.modAdmQ n f).fcl = s.fcl := rfl
@[simp] theorem modAdmQ_admQ (s : State) (n : Nat) (f : AdmQ → AdmQ) : (s.modAdmQ n f).admQ n = f (s.admQ n) := tblGet_tblMod_same ..
theorem modAdmQ_admQ_other (s : State) (n k : Nat) (f : AdmQ → AdmQ) (h : n ≠ k) : (s.modAdmQ n f).admQ k = s.admQ k := tblGet_tblMod_other _ _ _ _ _ h

@[simp] theorem modRing_pending (s : State) (n : Nat) (f : EvRing → EvRing) : (s.modRing n f).pending = s.pending := rfl
@[simp] theorem modRing_free (s : State) (n : Nat) (f : EvRing → EvRing) : (s.modRing n f).free = s.free := rfl
@[simp] theorem modRing_time (s : State) (n : Nat) (f : EvRing → EvRing) : (s.modRing n f).time = s.time := rfl
@[simp] theorem modRing_aon (s : State) (n : Nat) (f : EvRing → EvRing) : (s.modRing n f).aon = s.aon := rfl
@[simp] theorem modRing_out (s : State) (n : Nat) (f : EvRing → EvRing) : (s.modRing n f).out = s.out := rfl
@[simp] theorem modRing_rdata (s : State) (n : Nat) (f : EvRing → EvRing) : (s.modRing n f).rdata = s.rdata := rfl
@[simp] theorem modRing_latches (s : State) (n : Nat) (f : EvRing → EvRing) : (s.modRing n f).latches = s.latches := rfl
@[simp] theorem modRing_latched (s : State) (n : Nat) (f : EvRing → EvRing) : (s.modRing n f).latched = s.latched := rfl
@[simp] theorem modRing_heldW (s : State) (n : Nat) (f : EvRing → EvRing) : (s.modRing n f).heldW = s.heldW := rfl
@[simp] theorem modRing_heldV (s : State) (n : Nat) (f : EvRing → EvRing) : (s.modRing n f).heldV = s.heldV := rfl
@[simp] theorem modRing_pins (s : State) (n : Nat) (f : EvRing → EvRing) : (s.modRing n f).pins = s.pins := rfl
@[simp] theorem modRing_boot (s : State) (n : Nat) (f : EvRing → EvRing) : (s.modRing n f).boot = s.boot := rfl
@[simp] theorem modRing_funcs (s : State) (n : Nat) (f : EvRing → EvRing) : (s.modRing n f).funcs = s.funcs := rfl
@[simp] theorem modRing_admq (s : State) (n : Nat) (f : EvRing → EvRing) : (s.modRing n f).admq = s.admq := rfl
@[simp] theorem modRing_cfgq (s : State) (n : Nat) (f : EvRing → EvRing) : (s.modRing n f).cfgq = s.cfgq := rfl
@[simp] theorem modRing_qe (s : State) (n : Nat) (f : EvRing → EvRing) : (s.modRing n f).qe = s.qe := rfl
@[simp] theorem modRing_queues (s : State) (n : Nat) (f : EvRing → EvRing) : (s.modRing n f).queues = s.queues := rfl
@[simp] theorem modRing_sessions (s : State) (n : Nat) (f : EvRing → EvRing) : (s.modRing n f).sessions = s.sessions := rfl
@[simp] theorem modRing_dsc (s : State) (n : Nat) (f : EvRing → EvRing) : (s.modRing n f).dsc = s.dsc := rfl
@[simp] theorem modRing_ctx (s : State) (n : Nat) (f : EvRing → EvRing) : (s.modRing n f).ctx = s.ctx := rfl
@[simp] theorem modRing_halves (s : State) (n : Nat) (f : EvRing → EvRing) : (s.modRing n f).halves = s.halves := rfl
@[simp] theorem modRing_cores (s : State) (n : Nat) (f : EvRing → EvRing) : (s.modRing n f).cores = s.cores := rfl
@[simp] theorem modRing_clusters (s : State) (n : Nat) (f : EvRing → EvRing) : (s.modRing n f).clusters = s.clusters := rfl
@[simp] theorem modRing_rcu (s : State) (n : Nat) (f : EvRing → EvRing) : (s.modRing n f).rcu = s.rcu := rfl
@[simp] theorem modRing_mau (s : State) (n : Nat) (f : EvRing → EvRing) : (s.modRing n f).mau = s.mau := rfl
@[simp] theorem modRing_pcf (s : State) (n : Nat) (f : EvRing → EvRing) : (s.modRing n f).pcf = s.pcf := rfl
@[simp] theorem modRing_ntl (s : State) (n : Nat) (f : EvRing → EvRing) : (s.modRing n f).ntl = s.ntl := rfl
@[simp] theorem modRing_mem (s : State) (n : Nat) (f : EvRing → EvRing) : (s.modRing n f).mem = s.mem := rfl
@[simp] theorem modRing_dmv (s : State) (n : Nat) (f : EvRing → EvRing) : (s.modRing n f).dmv = s.dmv := rfl
@[simp] theorem modRing_bpm (s : State) (n : Nat) (f : EvRing → EvRing) : (s.modRing n f).bpm = s.bpm := rfl
@[simp] theorem modRing_hlu (s : State) (n : Nat) (f : EvRing → EvRing) : (s.modRing n f).hlu = s.hlu := rfl
@[simp] theorem modRing_imb (s : State) (n : Nat) (f : EvRing → EvRing) : (s.modRing n f).imb = s.imb := rfl
@[simp] theorem modRing_fcl (s : State) (n : Nat) (f : EvRing → EvRing) : (s.modRing n f).fcl = s.fcl := rfl
@[simp] theorem modRing_ring (s : State) (n : Nat) (f : EvRing → EvRing) : (s.modRing n f).ring n = f (s.ring n) := tblGet_tblMod_same ..
theorem modRing_ring_other (s : State) (n k : Nat) (f : EvRing → EvRing) (h : n ≠ k) : (s.modRing n f).ring k = s.ring k := tblGet_tblMod_other _ _ _ _ _ h

@[simp] theorem modCls_cls (s : State) (n : Nat) (f : Cls → Cls) : (s.modCls n f).cls n = f (s.cls n) := tblGet_tblMod_same ..
theorem modCls_cls_other (s : State) (n k : Nat) (f : Cls → Cls) (h : n ≠ k) : (s.modCls n f).cls k = s.cls k := tblGet_tblMod_other _ _ _ _ _ h
theorem modCls_eq (s : State) (n : Nat) (f : Cls → Cls) : s.modCls n f = s.modDsc fun c => { c with classes := tblMod Cls.init c.classes n f } := rfl
@[simp] theorem modLane_lane (s : State) (n : Nat) (f : Lane → Lane) : (s.modLane n f).lane n = f (s.lane n) := tblGet_tblMod_same ..
theorem modLane_lane_other (s : State) (n k : Nat) (f : Lane → Lane) (h : n ≠ k) : (s.modLane n f).lane k = s.lane k := tblGet_tblMod_other _ _ _ _ _ h
theorem modLane_eq (s : State) (n : Nat) (f : Lane → Lane) : s.modLane n f = s.modDsc fun c => { c with lanes := tblMod Lane.init c.lanes n f } := rfl
@[simp] theorem modChan_chan (s : State) (n : Nat) (f : Chan → Chan) : (s.modChan n f).chan n = f (s.chan n) := tblGet_tblMod_same ..
theorem modChan_chan_other (s : State) (n k : Nat) (f : Chan → Chan) (h : n ≠ k) : (s.modChan n f).chan k = s.chan k := tblGet_tblMod_other _ _ _ _ _ h
theorem modChan_eq (s : State) (n : Nat) (f : Chan → Chan) : s.modChan n f = s.modDmv fun c => { c with chans := tblMod Chan.init c.chans n f } := rfl
@[simp] theorem modPath_path (s : State) (n : Nat) (f : RegPath → RegPath) : (s.modPath n f).path n = f (s.path n) := tblGet_tblMod_same ..
theorem modPath_path_other (s : State) (n k : Nat) (f : RegPath → RegPath) (h : n ≠ k) : (s.modPath n f).path k = s.path k := tblGet_tblMod_other _ _ _ _ _ h
theorem modPath_eq (s : State) (n : Nat) (f : RegPath → RegPath) : s.modPath n f = s.modBpm fun c => { c with paths := tblMod RegPath.init c.paths n f } := rfl
@[simp] theorem modSrc_src (s : State) (n : Nat) (f : Src → Src) : (s.modSrc n f).src n = f (s.src n) := tblGet_tblMod_same ..
theorem modSrc_src_other (s : State) (n k : Nat) (f : Src → Src) (h : n ≠ k) : (s.modSrc n f).src k = s.src k := tblGet_tblMod_other _ _ _ _ _ h
theorem modSrc_eq (s : State) (n : Nat) (f : Src → Src) : s.modSrc n f = s.modImb fun c => { c with srcs := tblMod Src.init c.srcs n f } := rfl
@[simp] theorem modTarget_target (s : State) (n : Nat) (f : Target → Target) : (s.modTarget n f).target n = f (s.target n) := tblGet_tblMod_same ..
theorem modTarget_target_other (s : State) (n k : Nat) (f : Target → Target) (h : n ≠ k) : (s.modTarget n f).target k = s.target k := tblGet_tblMod_other _ _ _ _ _ h
theorem modTarget_eq (s : State) (n : Nat) (f : Target → Target) : s.modTarget n f = s.modImb fun c => { c with targets := tblMod Target.init c.targets n f } := rfl
@[simp] theorem modMbx_mbx (s : State) (n : Nat) (f : Mbx → Mbx) : (s.modMbx n f).mbx n = f (s.mbx n) := tblGet_tblMod_same ..
theorem modMbx_mbx_other (s : State) (n k : Nat) (f : Mbx → Mbx) (h : n ≠ k) : (s.modMbx n f).mbx k = s.mbx k := tblGet_tblMod_other _ _ _ _ _ h
theorem modMbx_eq (s : State) (n : Nat) (f : Mbx → Mbx) : s.modMbx n f = s.modImb fun c => { c with mbx := tblMod Mbx.init c.mbx n f } := rfl
@[simp] theorem modSem_sem (s : State) (n : Nat) (f : Sem → Sem) : (s.modSem n f).sem n = f (s.sem n) := tblGet_tblMod_same ..
theorem modSem_sem_other (s : State) (n k : Nat) (f : Sem → Sem) (h : n ≠ k) : (s.modSem n f).sem k = s.sem k := tblGet_tblMod_other _ _ _ _ _ h
theorem modSem_eq (s : State) (n : Nat) (f : Sem → Sem) : s.modSem n f = s.modImb fun c => { c with sems := tblMod Sem.init c.sems n f } := rfl
@[simp] theorem modChn_chn (s : State) (n : Nat) (f : Chn → Chn) : (s.modChn n f).chn n = f (s.chn n) := tblGet_tblMod_same ..
theorem modChn_chn_other (s : State) (n k : Nat) (f : Chn → Chn) (h : n ≠ k) : (s.modChn n f).chn k = s.chn k := tblGet_tblMod_other _ _ _ _ _ h
theorem modChn_eq (s : State) (n : Nat) (f : Chn → Chn) : s.modChn n f = s.modMem fun c => { c with chans := tblMod Chn.init c.chans n f } := rfl
@[simp] theorem withPending_pending (s : State) (p : List Instr) : (s.withPending p).pending = p := rfl
@[simp] theorem withPending_free (s : State) (p : List Instr) : (s.withPending p).free = s.free := rfl
@[simp] theorem withPending_time (s : State) (p : List Instr) : (s.withPending p).time = s.time := rfl
@[simp] theorem withPending_aon (s : State) (p : List Instr) : (s.withPending p).aon = s.aon := rfl
@[simp] theorem withPending_out (s : State) (p : List Instr) : (s.withPending p).out = s.out := rfl
@[simp] theorem withPending_rdata (s : State) (p : List Instr) : (s.withPending p).rdata = s.rdata := rfl
@[simp] theorem withPending_latches (s : State) (p : List Instr) : (s.withPending p).latches = s.latches := rfl
@[simp] theorem withPending_latched (s : State) (p : List Instr) : (s.withPending p).latched = s.latched := rfl
@[simp] theorem withPending_heldW (s : State) (p : List Instr) : (s.withPending p).heldW = s.heldW := rfl
@[simp] theorem withPending_heldV (s : State) (p : List Instr) : (s.withPending p).heldV = s.heldV := rfl
@[simp] theorem withPending_pins (s : State) (p : List Instr) : (s.withPending p).pins = s.pins := rfl
@[simp] theorem withPending_boot (s : State) (p : List Instr) : (s.withPending p).boot = s.boot := rfl
@[simp] theorem withPending_funcs (s : State) (p : List Instr) : (s.withPending p).funcs = s.funcs := rfl
@[simp] theorem withPending_admq (s : State) (p : List Instr) : (s.withPending p).admq = s.admq := rfl
@[simp] theorem withPending_cfgq (s : State) (p : List Instr) : (s.withPending p).cfgq = s.cfgq := rfl
@[simp] theorem withPending_evq (s : State) (p : List Instr) : (s.withPending p).evq = s.evq := rfl
@[simp] theorem withPending_qe (s : State) (p : List Instr) : (s.withPending p).qe = s.qe := rfl
@[simp] theorem withPending_queues (s : State) (p : List Instr) : (s.withPending p).queues = s.queues := rfl
@[simp] theorem withPending_sessions (s : State) (p : List Instr) : (s.withPending p).sessions = s.sessions := rfl
@[simp] theorem withPending_dsc (s : State) (p : List Instr) : (s.withPending p).dsc = s.dsc := rfl
@[simp] theorem withPending_ctx (s : State) (p : List Instr) : (s.withPending p).ctx = s.ctx := rfl
@[simp] theorem withPending_halves (s : State) (p : List Instr) : (s.withPending p).halves = s.halves := rfl
@[simp] theorem withPending_cores (s : State) (p : List Instr) : (s.withPending p).cores = s.cores := rfl
@[simp] theorem withPending_clusters (s : State) (p : List Instr) : (s.withPending p).clusters = s.clusters := rfl
@[simp] theorem withPending_rcu (s : State) (p : List Instr) : (s.withPending p).rcu = s.rcu := rfl
@[simp] theorem withPending_mau (s : State) (p : List Instr) : (s.withPending p).mau = s.mau := rfl
@[simp] theorem withPending_pcf (s : State) (p : List Instr) : (s.withPending p).pcf = s.pcf := rfl
@[simp] theorem withPending_ntl (s : State) (p : List Instr) : (s.withPending p).ntl = s.ntl := rfl
@[simp] theorem withPending_mem (s : State) (p : List Instr) : (s.withPending p).mem = s.mem := rfl
@[simp] theorem withPending_dmv (s : State) (p : List Instr) : (s.withPending p).dmv = s.dmv := rfl
@[simp] theorem withPending_bpm (s : State) (p : List Instr) : (s.withPending p).bpm = s.bpm := rfl
@[simp] theorem withPending_hlu (s : State) (p : List Instr) : (s.withPending p).hlu = s.hlu := rfl
@[simp] theorem withPending_imb (s : State) (p : List Instr) : (s.withPending p).imb = s.imb := rfl
@[simp] theorem withPending_fcl (s : State) (p : List Instr) : (s.withPending p).fcl = s.fcl := rfl
@[simp] theorem withRdata_pending (s : State) (v : DWord) : (s.withRdata v).pending = s.pending := rfl
@[simp] theorem withRdata_free (s : State) (v : DWord) : (s.withRdata v).free = s.free := rfl
@[simp] theorem withRdata_time (s : State) (v : DWord) : (s.withRdata v).time = s.time := rfl
@[simp] theorem withRdata_aon (s : State) (v : DWord) : (s.withRdata v).aon = s.aon := rfl
@[simp] theorem withRdata_out (s : State) (v : DWord) : (s.withRdata v).out = s.out := rfl
@[simp] theorem withRdata_rdata (s : State) (v : DWord) : (s.withRdata v).rdata = v := rfl
@[simp] theorem withRdata_latches (s : State) (v : DWord) : (s.withRdata v).latches = s.latches := rfl
@[simp] theorem withRdata_latched (s : State) (v : DWord) : (s.withRdata v).latched = s.latched := rfl
@[simp] theorem withRdata_heldW (s : State) (v : DWord) : (s.withRdata v).heldW = s.heldW := rfl
@[simp] theorem withRdata_heldV (s : State) (v : DWord) : (s.withRdata v).heldV = s.heldV := rfl
@[simp] theorem withRdata_pins (s : State) (v : DWord) : (s.withRdata v).pins = s.pins := rfl
@[simp] theorem withRdata_boot (s : State) (v : DWord) : (s.withRdata v).boot = s.boot := rfl
@[simp] theorem withRdata_funcs (s : State) (v : DWord) : (s.withRdata v).funcs = s.funcs := rfl
@[simp] theorem withRdata_admq (s : State) (v : DWord) : (s.withRdata v).admq = s.admq := rfl
@[simp] theorem withRdata_cfgq (s : State) (v : DWord) : (s.withRdata v).cfgq = s.cfgq := rfl
@[simp] theorem withRdata_evq (s : State) (v : DWord) : (s.withRdata v).evq = s.evq := rfl
@[simp] theorem withRdata_qe (s : State) (v : DWord) : (s.withRdata v).qe = s.qe := rfl
@[simp] theorem withRdata_queues (s : State) (v : DWord) : (s.withRdata v).queues = s.queues := rfl
@[simp] theorem withRdata_sessions (s : State) (v : DWord) : (s.withRdata v).sessions = s.sessions := rfl
@[simp] theorem withRdata_dsc (s : State) (v : DWord) : (s.withRdata v).dsc = s.dsc := rfl
@[simp] theorem withRdata_ctx (s : State) (v : DWord) : (s.withRdata v).ctx = s.ctx := rfl
@[simp] theorem withRdata_halves (s : State) (v : DWord) : (s.withRdata v).halves = s.halves := rfl
@[simp] theorem withRdata_cores (s : State) (v : DWord) : (s.withRdata v).cores = s.cores := rfl
@[simp] theorem withRdata_clusters (s : State) (v : DWord) : (s.withRdata v).clusters = s.clusters := rfl
@[simp] theorem withRdata_rcu (s : State) (v : DWord) : (s.withRdata v).rcu = s.rcu := rfl
@[simp] theorem withRdata_mau (s : State) (v : DWord) : (s.withRdata v).mau = s.mau := rfl
@[simp] theorem withRdata_pcf (s : State) (v : DWord) : (s.withRdata v).pcf = s.pcf := rfl
@[simp] theorem withRdata_ntl (s : State) (v : DWord) : (s.withRdata v).ntl = s.ntl := rfl
@[simp] theorem withRdata_mem (s : State) (v : DWord) : (s.withRdata v).mem = s.mem := rfl
@[simp] theorem withRdata_dmv (s : State) (v : DWord) : (s.withRdata v).dmv = s.dmv := rfl
@[simp] theorem withRdata_bpm (s : State) (v : DWord) : (s.withRdata v).bpm = s.bpm := rfl
@[simp] theorem withRdata_hlu (s : State) (v : DWord) : (s.withRdata v).hlu = s.hlu := rfl
@[simp] theorem withRdata_imb (s : State) (v : DWord) : (s.withRdata v).imb = s.imb := rfl
@[simp] theorem withRdata_fcl (s : State) (v : DWord) : (s.withRdata v).fcl = s.fcl := rfl

end Sys2Proof.Machine
end

