-- ==== Sys2Proof/Laws/Notify.lean ====
section
/-! SUPPORT. What messages, settling sources and assertions can do: they touch what the host is sent, and of a source only whether it
is deliverable. -/
namespace Sys2Proof.Machine

/-- What a source keeps when it settles: all but whether it is deliverable. -/
def SrcKept (a b : Src) : Prop := b.pending = a.pending ∧ b.count = a.count ∧ b.level = a.level ∧ b.prio = a.prio ∧ b.vector = a.vector

/-- Nothing has changed but what a message touches: held messages, the link's power state, the pending-bit array, the message count
and what goes out. Sources keep all but whether they are deliverable. -/
structure OnlyTold (s t : State) : Prop where
  frame : t = { s with funcs := t.funcs, hlu := t.hlu, imb := t.imb, out := t.out }
  targets : t.imb.targets = s.imb.targets
  mbx : t.imb.mbx = s.imb.mbx
  sems : t.imb.sems = s.imb.sems
  mask : t.imb.mask = s.imb.mask
  claimErr : t.imb.claimErr = s.imb.claimErr
  timeouts : t.imb.mbxTimeouts = s.imb.mbxTimeouts
  src : ∀ m, SrcKept (s.src m) (t.src m)

theorem onlyTold_refl (s : State) : OnlyTold s s :=
  ⟨rfl, rfl, rfl, rfl, rfl, rfl, rfl, fun _ => ⟨rfl, rfl, rfl, rfl, rfl⟩⟩

theorem onlyTold_trans {s t u : State} (h : OnlyTold s t) (k : OnlyTold t u) : OnlyTold s u where
  frame := by have h1 := h.frame; have k1 := k.frame; rw [h1] at k1; exact k1
  targets := k.targets.trans h.targets
  mbx := k.mbx.trans h.mbx
  sems := k.sems.trans h.sems
  mask := k.mask.trans h.mask
  claimErr := k.claimErr.trans h.claimErr
  timeouts := k.timeouts.trans h.timeouts
  src := fun m => by have := h.src m; have := k.src m; unfold SrcKept at *; simp_all

theorem message_told (s : State) (fn v : Nat) : OnlyTold s (s.message fn v) := by
  unfold State.message
  split
  · exact onlyTold_refl s
  · split
    · exact ⟨rfl, rfl, rfl, rfl, rfl, rfl, rfl, fun _ => ⟨rfl, rfl, rfl, rfl, rfl⟩⟩
    · split <;> exact ⟨rfl, rfl, rfl, rfl, rfl, rfl, rfl, fun _ => ⟨rfl, rfl, rfl, rfl, rfl⟩⟩

theorem emit_told (s : State) (o : Out) : OnlyTold s (s.emit o) := ⟨rfl, rfl, rfl, rfl, rfl, rfl, rfl, fun _ => ⟨rfl, rfl, rfl, rfl, rfl⟩⟩

theorem setDeliverable_told (s : State) (n : Nat) (b : Bool) : OnlyTold s (s.modSrc n fun c => { c with deliverable := b }) := by
  refine ⟨rfl, rfl, rfl, rfl, rfl, rfl, rfl, fun m => ?_⟩
  by_cases h : n = m
  · subst h; simp [SrcKept]
  · rw [modSrc_src_other _ _ _ _ h]; exact ⟨rfl, rfl, rfl, rfl, rfl⟩

theorem settleSource_told (s : State) (n : Nat) : OnlyTold s (s.settleSource n) := by
  have h := setDeliverable_told s n (s.deliverable n)
  unfold State.settleSource
  dsimp only
  split
  · split
    · split
      · exact onlyTold_trans h (message_told _ _ _)
      · exact onlyTold_trans h (emit_told _ _)
    · exact h
  · exact h

theorem forEach_told {β : Type} (xs : List β) (f : β → State → State) (hf : ∀ x t, OnlyTold t (f x t)) (s : State) :
    OnlyTold s (forEach xs f s) := by
  induction xs generalizing s with
  | nil => exact onlyTold_refl s
  | cons x xs ih => exact onlyTold_trans (hf x s) (ih _)

theorem settleTarget_told (s : State) (t : Nat) : OnlyTold s (s.settleTarget t) :=
  forEach_told _ _ (fun n u => settleSource_told u n) s

end Sys2Proof.Machine
end

