-- ==== Sys2Proof/Laws/Storage.lean ====
section
/-! SUPPORT. What storing samples and feeding the output stream FIFO can do: storing a unit touches the memories and what goes out; a
pushed byte goes behind those that have entered the FIFO. -/
namespace Sys2Proof.Machine

/-- Nothing has changed but device memory, the caches and engines in front of it, the link and what goes out. -/
def OnlyStored (s t : State) : Prop := t = s.withStored t

theorem onlyStored_refl (s : State) : OnlyStored s s := rfl

theorem onlyStored_trans {s t u : State} (h : OnlyStored s t) (k : OnlyStored t u) : OnlyStored s u := by
  unfold OnlyStored State.withStored at *
  rw [k, h]

theorem withStored_stored (s t : State) : OnlyStored s (s.withStored t) := rfl

theorem memWrite_stored (s : State) (a : Nat) (bs : List Byte) : OnlyStored s (s.memWrite a bs) := rfl

theorem keepPlanes_stored (s : State) (base chroma w h : Nat) (ps : List Plane) : OnlyStored s (s.keepPlanes base chroma w h ps) :=
  withStored_stored s _

theorem storeSide_stored (s : State) (u : WUnit) (e : QEntry) (au : AuInfo) (i : PicInfo) : OnlyStored s (s.storeSide u e au i) :=
  withStored_stored s _

/-- What a decode unit writes of its picture leaves sessions, units, halves and every other part as they were (R68, R154). -/
theorem storeUnit_stored (s : State) (u : WUnit) (e : QEntry) (au : AuInfo) (i : PicInfo) : OnlyStored s (s.storeUnit u e au i) := by
  unfold State.storeUnit
  dsimp only
  split <;> split
  · exact onlyStored_trans (keepPlanes_stored ..) (storeSide_stored ..)
  · exact storeSide_stored ..
  · exact keepPlanes_stored ..
  · exact onlyStored_refl s

/-- Pushing bytes appends at least as many and changes nothing else but the count of zeros at the end (R134, R135). -/
theorem push_appends (p : Params) (f : Fifo) (bs : List Byte) :
    ∃ cs z, Fifo.push p f bs = { f with bytes := f.bytes ++ cs, zeros := z } ∧ bs.length ≤ cs.length := by
  induction bs generalizing f with
  | nil => exact ⟨[], f.zeros, by simp [Fifo.push], by simp⟩
  | cons b bs ih =>
    obtain ⟨cs, z, h, hl⟩ := ih (f.pushByte p b)
    refine ⟨(if decide (p.bsFormat ≤ 1) && f.inUnit && decide (2 ≤ f.zeros) && decide (b.toNat ≤ 3) then [0x03, b] else [b]) ++ cs,
      z, ?_, ?_⟩
    · rw [Fifo.push, h]
      simp [Fifo.pushByte]
    · simp only [List.length_append, List.length_cons]
      split <;> simp <;> omega

end Sys2Proof.Machine
end

