-- ==== Sys2Proof/Machine/Package.lean ====
section
/-! DEFINITION. The package: what each of the 78 × 78 balls carries (R489 to R496). No command acts on a ball, so the map is a function and
holds no state. -/
namespace Sys2Proof.Machine

/-- A signal of a group, by its number in the group. -/
def numbered (name : String) (n : Nat) : String := name ++ "[" ++ toString n ++ "]"

/-- Rows 01 to 06: the host link (R490). -/
def hostBall (r c : Nat) : String :=
  let d := c - 8
  let side := if r == 2 then "HL_TX" else "HL_RX"
  if (r == 2 || r == 4) && decide (8 ≤ c ∧ c ≤ 71) && decide (d % 4 < 2) then
    numbered (side ++ (if d % 4 == 0 then "P" else "N")) (d / 4)
  else if r == 2 && c == 3 then "HL_REFCLK_P"
  else if r == 2 && c == 4 then "HL_REFCLK_N"
  else if r == 4 && c == 3 then "PERST#"
  else if r == 4 && c == 4 then "WAKE#"
  else if r == 5 && decide (7 ≤ c ∧ c ≤ 70) then "VDD_HL_A"
  else if r == 6 && c % 2 == 0 && decide (8 ≤ c ∧ c ≤ 70) then "VDD_HL_H"
  else "VSS"

/-- The command balls of a subchannel (Table 22-3). -/
def commandBall (ir n : Nat) : String :=
  match (match ir with
    | 1 => ["DCA[0]", "DCA[1]", "DCA[2]", "DCA[3]"]
    | 2 => ["DCA[4]", "DCA[5]", "DCA[6]", "DPAR"]
    | _ => ["DCS_N[0]", "DCS_N[1]", "DCK_T", "DCK_C"])[n]? with
  | some x => x
  | none => "VSS"

/-- The ball at local row `i` and column `j` of a channel's block: its signal, and whether it belongs to a subchannel (R492). -/
def channelBall (i j : Nat) : String × Bool :=
  let ir := if i ≤ 4 then i else 10 - i
  let g := (j - 1) / 2
  let p := (j - 1) % 2
  let b := 4 * g + p + (if ir = 2 then 2 else 0)
  if i = 5 then (if j = 1 then "RESET_N" else if j = 2 then "ALERT_N" else "VSS", false)
  else if ir = 4 then (if j % 2 = 1 then "VDDQ_MC" else "VSS", false)
  else if j ≤ 20 then
    (if ir = 3 then numbered (if p = 0 then "DQS_T" else "DQS_C") g
      else if b < 32 then numbered "DQ" b else numbered "CB" (b - 32), true)
  else (commandBall ir (j - 21), true)

/-- The memory bands: channels 0 to 7 left, 8 to 15 right (R492). Supplies and grounds carry no channel's name. -/
def memoryBall (r c : Nat) : String :=
  let right := decide (55 ≤ c)
  let k := (r - 7) / 9 + (if right then 8 else 0)
  let i := (r - 7) % 9 + 1
  let x := channelBall i (if right then 79 - c else c)
  let ch := "MC" ++ toString k ++ "_"
  if x.2 then ch ++ (if i ≤ 4 then "A_" else "B_") ++ x.1
  else if x.1 == "VSS" || x.1 == "VDDQ_MC" then x.1 else ch ++ x.1

/-- The core supply region (R495). -/
def supplyBall (r c : Nat) : String :=
  if (r + c) % 2 = 0 then "VSS" else if r ≤ 14 then "VDD_SOC" else if r ≤ 18 then "VDD_SRAM" else "VDD_CC"

/-- Rows 76 and 77 of the sideband strip from column 25 on (Table 22-4). -/
def sideband76 : List String :=
  ["XSPI_CLK", "XSPI_CS_N", "XSPI_DQS", "XSPI_RESET_N", "XSPI_DQ[0]", "XSPI_DQ[1]", "XSPI_DQ[2]", "XSPI_DQ[3]", "XSPI_DQ[4]",
    "XSPI_DQ[5]", "XSPI_DQ[6]", "XSPI_DQ[7]", "MEM_I3C_SCL[0]", "MEM_I3C_SDA[0]", "MEM_I3C_SCL[1]", "MEM_I3C_SDA[1]",
    "MEM_I3C_SCL[2]", "MEM_I3C_SDA[2]", "MEM_I3C_SCL[3]", "MEM_I3C_SDA[3]", "TGT_SCL", "TGT_SDA", "TGT_ALERT_N", "AVS_CLK",
    "AVS_MDATA", "AVS_SDATA", "VSS", "VSS", "XTAL_IN", "XTAL_OUT"]
def sideband77 : List String :=
  ["TCK", "TMS", "TDI", "TDO", "TRST_N", "BOOT_MODE[0]", "BOOT_MODE[1]", "BOOT_MODE[2]", "PWRGOOD", "THERMTRIP_N", "ALIVE", "VSS",
    "VDD_CC_SENSE", "VSS_CC_SENSE"]

/-- The sideband strip, rows 75 to 78 (R496). -/
def sidebandBall (r c : Nat) : String :=
  match r with
  | 75 => if c % 2 = 1 then "VDD_IO" else "VSS"
  | 76 => (sideband76[c - 25]?).getD "VSS"
  | 77 => (sideband77[c - 25]?).getD "VSS"
  | _ => if c ≤ 32 then "VDD_AON" else "VSS"

/-- What the ball in a row and a column carries; none outside the 78 × 78 grid (R488 to R496). -/
def ball (r c : Nat) : Option String :=
  if r < 1 ∨ 78 < r ∨ c < 1 ∨ 78 < c then none
  else if r ≤ 6 then some (hostBall r c)
  else if c ≤ 24 ∨ 55 ≤ c then some (memoryBall r c)
  else if r ≤ 74 then some (supplyBall r c)
  else some (sidebandBall r c)

end Sys2Proof.Machine
end

