-- ==== Sys2Proof/Tests/Slice0.lean ====
section
/-! SUPPORT. The model's own tests: for every statement with hypotheses, a state and operands that meet them; an ill-formed term for each
check of the commands' form; and worked figures of the spec. -/
namespace Sys2Proof.Tests
open Sys2Proof Sys2Proof.Machine
set_option Elab.async false

/-! ### Small states -/

/-- An entry from its fields: byte, lowest bit, value. -/
def tE (fs : List (Nat × Nat × Nat)) : Entry := BitVec.ofNat 512 (fs.foldl (fun n f => n + put f.1 f.2.1 f.2.2) 0)

/-- An image of two functions, three classes and one region of each kind. -/
def tImage : Image :=
  { version := 1, arb := 0, permit := 0, clusterEn := 0xFF, ranks := 2, width := 0, density := 0, rateMax := 0, spareEn := true,
    regions := [⟨0, 2 ^ 25, 0, 1, 0, false⟩, ⟨2 ^ 25, 2 ^ 21, 0, 2, 0, false⟩, ⟨2 ^ 26, 2 ^ 26, 0, 3, 0, false⟩,
      ⟨2 ^ 27, 2 ^ 26, 0, 4, 0, false⟩, ⟨2 ^ 28, 2 ^ 28, 3, 5, 0, true⟩, ⟨2 ^ 29, 2 ^ 28, 3, 6, 0, true⟩],
    fns := [⟨8, 4, 4, 16, 8, 2⟩, ⟨4, 2, 2, 8, 4, 1⟩],
    classes := [⟨1, 0, 0, 0, 65535, 152000⟩, ⟨2, 0, 0, 2, 65535, 152000⟩, ⟨3, 0, 1, 0, 65535, 152000⟩],
    lanes := [], banks := [], templates := [⟨0, 1, 8, 0, false, false, false, false, false, false, false, [], []⟩], routes := [],
    defPrio := 0x4664, semPermit := List.replicate 64 3, policy := Policy.default, digest := 0 }

/-- A device that runs work under that image. -/
def tLive : State :=
  { State.reset with
    time := 1000000
    aon := 1000000
    pins := { Pins.init with pwrgood := true, perst := false, settled := true, alive := true }
    boot := { Boot.init with step := 6, protLock := true, image := some tImage, regions := tImage.regions, functions := 2, burnAllowed := true }
    funcs := [(0, { Func.init with isThere := true, ready := true }), (1, { Func.init with isThere := true, ready := true })]
    halves := [(0, { Half.init with fstate := .active }), (1, { Half.init with fstate := .active })]
    mem := { Mem.init with trained := some (0, 0, 2, 0), chans := (List.range 16).map fun k => (k, { Chn.init with state := 1 }) }
    hlu := { Hlu.init with up := true, mode := ⟨3, 5, 16, true, 512⟩, activeWidth := 16, lstate := 0 } }

/-- Source 0 of function 0 pending with the image's priority. -/
def tPend : State := tLive.modSrc 5 id |>.modSrc 0 fun x => { x with pending := true, count := 1 }

/-- VF 1's mailbox side with bit 7 posted and its timer running. -/
def tPosted : State := tLive.modMbx 1 fun m => { m with out := 0x80, started := [(7, 5)] }

/-- An enabled queue of function 0 with room for entries. -/
def tQ : WorkQ :=
  { WorkQ.init with
    state := .enabled, cls := 1, vector := 1, wqAddr := 0x100000, resAddr := 0x200000, sbAddr := 0x300000, prod := 4, resvFree := 16 }

/-- The live device with queue 0, changed as the test needs it. -/
def tWith (f : WorkQ → WorkQ) : State := { tLive with queues := [(0, f tQ)] }

/-- The admin queue of function 0, and the configuration queue, enabled with one entry to execute. -/
def tAdmQ : AdmQ :=
  { AdmQ.init with base := 0x10000, res := 0x20000, sb := 0x30000, enable := true, prod := 1 }
def tAdm : State := { tLive with admq := [(0, tAdmQ), (1, tAdmQ)], cfgq := tAdmQ }

/-- A fresh entry with sequence number 0, its FIRST and LAST bits set, as it stands once it holds its reservation. -/
def tEnt (op : Nat) (fs : List (Nat × Nat × Nat)) (bs : List Entry) (f : QEntry → QEntry) : QEntry :=
  f { freshEntry 0 0 (tE ((0, 0, op) :: (1, 0, 3) :: fs)) bs 0 0 with stage := .reserved }

/-- A decode session (5) and an encode session (6) of function 0, in class 1. -/
def tDec : Session :=
  { Session.init with
    state := .ready, par := { Params.init with cls := 1, chroma := 1, depthY := 8, depthC := 8, dpbSlots := 8, maxW := 64, maxH := 64, gangMax := 1 } }
def tEnc : Session := { tDec with par := { tDec.par with encode := true } }

/-- Queue 0 holds these entries, and the sessions are there. -/
def tEs (es : List QEntry) : State :=
  { tWith (fun w => { w with entries := es, fetch := es.length, resvFree := 12, chainNo := 1 }) with sessions := [(5, tDec), (6, tEnc)] }

/-- An access unit in which the parser found no coded picture. -/
def tAu : AuParse :=
  { poisoned := false, data := [0, 0, 0, 1, 9, 0xF0, 0, 0, 0, 1, 0x67, 0x42], seq := none, tools := [], psets := [], recovery := none,
    damage := [], pics := [] }

/-- The entries of the tests. -/
def tDecodeRaw : Entry := tE [(0, 0, 1), (1, 0, 3), (8, 0, 5), (16, 0, 0x1000), (24, 0, 256)]
def tFetched (e : Entry) : FetchedEntry := { raw := e, blockOk := true, blocks := [] }
def tLadder : List Entry := [0, tE [(0, 0, 6), (4, 0, 4096), (8, 0, 0x40000)]]
def tTransRaw : Entry := tE [(0, 0, 3), (1, 0, 3), (2, 0, 1), (8, 0, 5), (16, 0, 0x1000), (24, 0, 256), (32, 0, 0x50000)]
/-- The decode session feeds the MAU, and the encode session is a rendition. -/
def tLad (s : State) : State :=
  { s with sessions := [(5, { tDec with par := { tDec.par with block := BitVec.ofNat 7680 (2 ^ (8 * 8 + 6)) } }),
                        (6, { tEnc with par := { tEnc.par with block := BitVec.ofNat 7680 (2 ^ (8 * 16)) } })] }

/-- A FENCE whose VAL_ADDR names device memory that no region grants, and a second entry of its chain. -/
def tFence : QEntry := tEnt 8 [(16, 0, 0x1000), (32, 0, 1)] [] id
def tNext : QEntry := { tEnt 8 [] [] id with seq := 1, order := 1 }

/-- A COPY in progress. -/
def tCopy : CopyU :=
  { q := 0, seq := 9, src := 0, srcSpace := 0, dst := 0x8000, dstSpace := 0, len := 512, rdDone := 0, wrDone := 0, failed := false, uid := 0 }

/-- An admin command. -/
def tCmd (op : Nat) (fs : List (Nat × Nat × Nat)) : Entry := tE ((0, 0, op) :: (4, 0, 0xABCD) :: fs)
/-- The admin queues beside queue 0 and the sessions. -/
def tAdmEs (es : List QEntry) : State := { tEs es with admq := tAdm.admq, cfgq := tAdmQ }

/-- CREATE_SESSION of the smallest session, and a device whose reference region it fills. -/
def tCreate : Entry := tCmd 0x10 [(12, 5, 1), (12, 8, 8), (12, 12, 8), (12, 16, 1), (16, 0, 1), (20, 0, 64), (22, 0, 64)]
def tPar : Params := (tLive.entryParams 0 tCreate ⟨true, []⟩).getD Params.init
def tSmall : State :=
  tAdm.modBoot fun b => { b with regions := [⟨0, 2 ^ 25, 0, 1, 0, false⟩, ⟨2 ^ 26, (reserveBytes tPar).getD 0 0, 0, 3, 0, false⟩] }

/-- Whatever the free value that picks the place, the region holds the one reservation. -/
theorem tSmall_reserves (k : Nat) : tSmall.tookFree.reserve [] 3 20480 k = some ⟨2 ^ 26, 20480⟩ := by
  have h : (tSmall.tookFree.boot.regions.filter fun r => r.kind == 3) = [⟨2 ^ 26, 20480, 0, 3, 0, false⟩] := by decide +kernel
  have g : tSmall.tookFree.inService (2 ^ 26) 20480 = true := by decide +kernel
  simp only [State.reserve, h, placesIn, List.flatMap_cons, List.flatMap_nil, List.map_nil, Nat.sub_self, Nat.zero_div, Nat.zero_add, Nat.mod_one,
    List.append_nil, List.filterMap_cons, g]
  decide +kernel

theorem tSmall_reserveAll : tSmall.tookFree.reserveAll (reserveBytes tPar) [] = .inr [⟨2 ^ 26, 20480⟩, ⟨0, 0⟩, ⟨0, 0⟩, ⟨0, 0⟩] := by
  have h : reserveBytes tPar = [20480, 0, 0, 0] := by decide +kernel
  have g : tSmall.tookFree.heldRanges = [] := by decide +kernel
  simp [State.reserveAll, h, g, List.range_succ, reserveKind, tSmall_reserves]

/-- A pool of four 4 KiB buffers. -/
def tPool : Pool := newPool 0 0 12 4 (2 ^ 28)
def tPooled (f : Pool → Pool) : State := tAdm.setPool 9 (some (f tPool))

/-- RESTRUCTURE with an image of 2,048 bytes: what its statement assumes holds of any bytes that pass the check. -/
def tRestr : Entry := tCmd 0x80 [(8, 0, 2048), (16, 0, 0x70000)]
theorem test_met_Restructure (fu : Fuses) (bs : List Byte) (i : Image) (hl : bs.length = 2048) (h : checkImage fu bs = .inr i)
    (hr : (tAdm.modBoot fun b => { b with fuses := fu }).badRow i = 0) :
    ∃ (e x : Entry) (b : Block) (s : State), s.admTakes true 0 0x80 e x ∧ (∀ n, (s.sess n).destroyer = none) ∧
      s.blockBytes 0 (e8 x 12) (e64 x 16) (e32 x 8) b = some bs ∧ e32 x 8 ≠ 0 ∧ e32 x 8 ≤ 16777216 ∧
      checkImage s.boot.fuses bs = .inr i ∧ s.badRow i = 0 := by
  refine ⟨tRestr, tRestr, ⟨true, bs⟩, tAdm.modBoot fun b => { b with fuses := fu }, ?_, fun _ => rfl, ?_, by decide +kernel,
    by decide +kernel, h, hr⟩
  · exact (by unfold State.admTakes; decide +kernel : tAdm.admTakes true 0 0x80 tRestr tRestr)
  · have h8 : e8 tRestr 12 = 0 := by decide +kernel
    have h32 : e32 tRestr 8 = 2048 := by decide +kernel
    simp [State.blockBytes, h8, h32, ← hl]

/-- A unit of session 5 for the entry of SEQ 0 of queue 0. -/
def tUnit (kind : UKind) (stage : UStage) : WUnit := { blankUnit 0 0 5 0 1 kind with uid := 3, stage := stage, tag := 9, cost := 1000, budget := 500 }
/-- The device with these units, the first in entry 4 of the in-flight table, and one decode entry running. -/
def tUs (us : List WUnit) : State :=
  (tEs [tEnt 1 [(8, 0, 5), (16, 0, 0x1000), (24, 0, 256)] [] fun e => { e with stage := .running }]).modDsc fun d =>
    { d with units := us, inflight := [(4, 3)], nextUid := 10 }

/-- A list that is open for the second half of each 10 µs from DEV_TIME 0 on, and a lane that follows it. -/
def tGates : GateList := { GateList.init with list := [⟨5000, false, 0, 0⟩, ⟨5000, true, 1, 0⟩] }
def tLane (l : Nat) (f : Lane → Lane) : State := tLive.modLane l fun x => f { x with cur := tGates, wasOpen := false }

/-- Half 0 or 1 runs a segment of session 5 from a writable control store. -/
def tRun (h : Nat) (f : Half → Half) : State :=
  (tUs [tUnit .segment (.running h)]).modHalf h fun x =>
    f { x with unit := some 3, bank0 := .active 5, store := true, nextA := 64, wcsMicro := [(64, BitVec.ofNat 32 (65 * 128))] }

/-- A cycle in which the datapaths give nothing. -/
def tIssue : IssueIn :=
  { conds := 0, index := 0, stall := 0, parity := false, addr := 0, data := [], tail := none, fifoWord := none, mark := .none, ctus := 0,
    bins := 0, sync := [] }

/-- Half 1 runs a segment of a picture with a plan. -/
def tPlan : Plan := { pic := 0, target := 100, cap := 200, qPic := 30, hdr := 1, cPic := 0, segs := [(1, 50, [])], roi := [], hints := [] }
def tPlanned : State := (tRun 1 id).modSess 5 fun x => { x with plans := [tPlan] }

/-- A source picture whose plan may be made: rendition 6 of a ladder of session 5. -/
def tSrc : SrcPic :=
  { index := 0, entryQ := 0, entrySeq := 0, slot := 0, width := 64, height := 64, taken := true, forceKey := false, sizeKey := false,
    firstKey := true, followKey := false, score := 0, decided := true, key := true, keyScene := false, bpic := false, layer := 0,
    hiddenWith := false, codedIx := some 0, refs := [], coded := false, kind := 0, feed := some (5, 0), lead := none, ruled := none,
    hidden_ := false, direct := false, ready := true, showOrd := 0, failed := 0, band := none, store := ⟨0, 0⟩ }
/-- An own source picture that waits to be coded. -/
def tSrc0 : SrcPic := { tSrc with feed := none, codedIx := none, decided := false }
def tAna : AnaPic :=
  { index := 0, slot := 0, width := 64, height := 64, complete := true, final := true, first := true, fwd := false, flushed := true,
    field := [], score := 0, meanY := 0, seq := 0 }
def tAsked (f : Rcu → Rcu) : State :=
  (((tEs [tEnt 3 [(2, 0, 1), (8, 0, 5)] tLadder id]).modSess 6 fun x => { x with src := [tSrc] }).modSess 5 fun x =>
    { x with ana := [tAna] }).modRcu f

/-- Engine 7 analyses the picture of an ENCODE_PICTURE entry whose samples are all 7; pipe 15 makes a pass of a CONVERT_PICTURE entry. -/
def tGrey : Block := ⟨true, List.replicate 6144 7⟩
def tMauS : State :=
  (((tUs [{ tUnit .mau (.running 7) with session := 6 }]).modQueue 0 fun w => { w with entries := [(tEnt 2 [(8, 0, 6), (16, 0, 0x1000), (24, 0, 64), (26, 0, 64), (32, 0, 0x40000), (40, 0, 4096)] [] fun e => { e with stage := .running })] }).modSess 6 fun x =>
    { x with ana := [tAna], src := [tSrc0] }).modMau fun m => { m with units := [(7, 4)] }
theorem tSome {α : Type} {d : α} (o : Option α) (h : o.isSome = true) : o = some (o.getD d) := by cases o <;> simp_all
def tMauP : List Plane := (tMauS.mauSource ({ tUnit .mau (.running 7) with session := 6 }) tGrey).getD []
def tMauU : WUnit := { tUnit .mau (.running 7) with session := 6 }
def tMauB : State := (tUs [tMauU]).modMau fun m => { m with units := [(7, 4)] }
def tPassE : QEntry := (tEnt 4 [(2, 4, 1), (16, 0, 0x1000), (24, 0, 64), (26, 0, 64)] [tE [(40, 0, 0x2000), (52, 0, 65536)]] fun e => { e with stage := .running })
def tPassS : State :=
  ((tUs [tUnit .pcf (.running 15)]).modQueue 0 fun w => { w with entries := [tPassE] }).modPcf fun m => { m with units := [(15, 4)] }
def tPassP : List Plane :=
  (tPassS.passPlanes (tUnit .pcf (.running 15)) tPassE (tPassS.passShape (tUnit .pcf (.running 15))) ⟨!false, tGrey.bytes.take 4096 ++ tGrey.bytes.drop 4096⟩).getD []

/-- The last chroma tile of a picture in the reference region. -/
def tTile : TileRef := { base := 2 ^ 26, width := 64, height := 64, chroma := 1, isChroma := true, tx := 1, ty := 3 }
def tFar : TileRef := { tTile with base := 2 ^ 45 }

/-- A transaction for channel 15. -/
def tTxn : Txn := { port := 11, granules := 8, write := true, addr := 0xF000, id := 4 }
def tQTxn (a : Nat) (w : Bool) : QTxn := { port := 11, id := 4, write := w, addr := a, gran := 8, arrived := 1, since := 0 }

/-- The rank of a bank is that of the address's stripe, whatever the mapping of banks (R400). -/
theorem tBank (s : State) (a : Nat) : bankRank (s.bankOf a) = s.rankOfStripe (channelOf a) (s.stripeOf a) := by
  unfold bankRank State.bankOf
  simp only
  omega

/-- The one transaction of a channel that no bank in in-order mode holds back is the one that is picked. -/
theorem tPick (s : State) (c : Chn) (x : QTxn) (h : c.queue = [x]) (hi : c.inOrder = []) : s.pick c = some x := by
  have hc : s.candidate c x = true := by
    unfold State.candidate
    simp only [h, hi, tblGet]
    by_cases ha : s.aged x = true <;> simp [ha]
  simp [State.pick, h, hc, leastBy]

/-- Channel 15 with one write queued, and what it needs beside. -/
def tDram (f : Chn → Chn) : State := tLive.modChn 15 fun c => f { c with queue := [tQTxn 0xF000 true] }
theorem tDram_rank (f : Chn → Chn) (r : Nat) (h : (tDram f).rankOfStripe (channelOf 0xF000) ((tDram f).stripeOf 0xF000) = r) :
    bankRank ((tDram f).bankOf 0xF000) = r := by rw [tBank, h]

/-- A descriptor of 512 bytes from host memory to host memory, VALID set, as the channel holds it. -/
def tDescRaw : BitVec 256 := BitVec.ofNat 256 (1 + put 4 0 512 + put 8 0 0x1000 + put 16 0 0x8100)
def tDesc (f : Desc → Desc) : Desc := f { newDesc tDescRaw 3 with started := true }
/-- Channel 5, the second of function 1, running. -/
def tChan (f : Chan → Chan) : State := tLive.modChan 5 fun c => f { c with state := .running, enable := true }
def tBurst : Burst := { desc := 3, srcSpace := 0, src := 0x1000, n := 512, dstSpace := 0, dst := 0x8100 }
def tFilled : Slot :=
  { user := .channel 5, desc := 3, srcSpace := 0, src := 0x1000, space := 0, addr := 0x81FF, bytes := [1, 2, 3], reread := false, waiting := false }
def tSlots (x : Slot) (d : List Desc) : State := (tChan fun c => { c with inprog := d }).modDmv fun m => { m with slots := [x] }

/-- A window of 4 KiB of host memory, for reading or for writing. -/
def tW (b : Nat) (w : Bool) : Window := { noWindow with base := b, size := 4096, read := !w, write := w }
/-- Half 0 runs a segment whose windows lie in host memory: input, output and report. -/
def tWin (f : Half → Half) : State :=
  ((tUs [{ tUnit .segment (.running 0) with windows := [tW 0x10000 false, tW 0x20000 true, noWindow, noWindow, noWindow, tW 0x30000 true] }]).modHalf 0
    fun x => f { x with unit := some 3, bank0 := .active 5 })

/-- 16 DIMMs of one population, and a board with them and no flash. -/
def tBoard : Board := ⟨⟨[], [], []⟩, 1, none, List.replicate 16 ⟨true, 0, 0, 2, 0, true⟩⟩
/-- A board flash that holds nothing. -/
def tFlash : Flash := ⟨none, none, false, none, none, false, none, none, false, none, [], [], [], 0, 0, []⟩
/-- The host's request of `type` and `len` bytes in slot 0 of PF0's firmware mailbox. -/
def tFwReq (type len : Nat) : State :=
  (tLive.modMbx 0 fun m => { m with out := 1, slots := [(2, BitVec.ofNat 32 type), (3, BitVec.ofNat 32 len)] }).modBoot fun b =>
    { b with flash := some tFlash }
/-- The enrolment block with its confirmation. -/
def tEnrol : List Byte := List.replicate 96 0 ++ leBytes 4 0x454E524C
theorem test_met_FlashPatch (pb : List Byte) (p : List Byte) (hl : pb.length = 2848) (h : checkPatch Fuses.init.patchArb pb = .inr p) :
    ∃ (b : FwBlock) (f : Flash) (s : State), s.fwTakes b 3 = true ∧ s.boot.flash = some f ∧ s.reqOk b 8 = true ∧
      s.reqLen b.slot ≤ 4104 ∧ u16 (s.reqBlock b) 0 = 2 ∧ checkPatch s.boot.fuses.patchArb ((s.reqBlock b).drop 8) = .inr p := by
  have hr : (tFwReq 3 2856).reqBlock ⟨0, leBytes 8 2 ++ pb⟩ = leBytes 8 2 ++ pb := by
    have : (tFwReq 3 2856).reqLen 0 = 2856 := by decide +kernel
    have h8 : (leBytes 8 2).length = 8 := by decide +kernel
    rw [State.reqBlock, this, fitBytes, List.take_of_length_le (by simp [h8, hl])]; simp [h8, hl]
  have hd : ((leBytes 8 2) ++ pb).drop 8 = pb := by simp [leBytes]
  refine ⟨⟨0, leBytes 8 2 ++ pb⟩, tFlash, tFwReq 3 2856, ?_, rfl, ?_, ?_, ?_, ?_⟩
  · exact (by decide +kernel : (tFwReq 3 2856).fwTakes ⟨0, []⟩ 3 = true)
  · exact (by decide +kernel : (tFwReq 3 2856).reqOk ⟨0, []⟩ 8 = true)
  · exact (by decide +kernel : (tFwReq 3 2856).reqLen 0 ≤ 4104)
  · rw [hr]; simp [leBytes, u16, bytesAt, leNat]
  · rw [hr, hd]; exact h

/-- One record. -/
def tRec (cls : Nat) : Rec := ⟨5, 0, cls, some 0, none, 0x20, 3, 0, 0, 0, false⟩

theorem test_met_StepRunsFrontCommand :
    (∃ (c : Instr) (rest : List Instr) (s : State), s.pending = c :: rest) :=
  ⟨.fclParityError, [.faultRecord], tLive.withPending [.fclParityError, .faultRecord], by decide +kernel⟩

theorem test_met_EmptyQueueLetsTimePass :
    (∃ (s : State), s.pending = []) :=
  ⟨tLive, by decide +kernel⟩

theorem test_met_EveryStepKeepsInvariant :
    (∃ (s : State) (t : State), s.inv = true ∧ step s = .next t) :=
  ⟨tLive, idle tLive, by decide +kernel, rfl⟩

theorem test_met_CommandsLeaveQueue :
    (∃ (c : Instr) (s : State) (t : State), exec c s = .next t) :=
  ⟨.fence 0 0, tLive, tLive, rfl⟩

theorem test_met_SourceAssertion :
    (∃ (n : Nat) (k : Nat) (s : State), s.up = true ∧ sourceOk n = true ∧ isLevelSource n = false ∧ s.sourceTarget n = some k) ∧
    (∃ (n : Nat) (k : Nat) (s : State), s.up = true ∧ isLevelSource n = true ∧ s.sourceTarget n = some k) ∧
    (∃ (n : Nat) (s : State), s.up = true ∧ sourceOk n = true ∧ isLevelSource n = false ∧ s.sourceTarget n = none) :=
  ⟨⟨767, 64, tLive, by decide +kernel⟩,
    ⟨127, 63, tLive.modFunc 63 fun f => { f with isThere := true }, by decide +kernel⟩,
    ⟨447, tLive, by decide +kernel⟩⟩

theorem test_met_ClaimTakesHighest :
    (∃ (fn : Nat) (slot : Nat) (n : Nat) (s : State), s.claimed fn = some (slot, n)) ∧
    (∃ (fn : Nat) (slot : Nat) (n : Nat) (s : State), s.fnLive fn = true ∧ s.claimed fn = some (slot, n)) ∧
    (∃ (fn : Nat) (s : State), s.fnLive fn = true ∧ s.claimed fn = none) ∧
    (∃ (fn : Nat) (s : State), s.fnLive fn = true) ∧
    (∃ (fn : Nat) (slot : Nat) (n : Nat) (v : Word) (s : State), s.fnLive fn = true ∧ (s.slots fn)[slot]? = some n ∧
      fld v.toNat 0 11 < (s.fnRec fn).vectors) ∧
    (∃ (fn : Nat) (slot : Nat) (n : Nat) (v : Word) (s : State), s.fnLive fn = true ∧ (s.slots fn)[slot]? = some n ∧
      (s.fnRec fn).vectors ≤ fld v.toNat 0 11) ∧
    (∃ (fn : Nat) (v : Nat) (s : State), s.up = true ∧ (s.func fn).isThere = true ∧ (s.func fn).flr = false ∧ (s.func fn).d3 = false ∧
      s.linkPasses = true ∧ v < (if fn = 0 then 2048 else 64)) :=
  ⟨⟨0, 0, 0, tPend, by decide +kernel⟩,
    ⟨0, 0, 0, tPend, by decide +kernel⟩,
    ⟨1, tLive, by decide +kernel⟩,
    ⟨1, tLive, by decide +kernel⟩,
    ⟨0, 0, 0, 0xF0007#32, tLive, by decide +kernel⟩,
    ⟨0, 0, 0, 0xF0008#32, tLive, by decide +kernel⟩,
    ⟨1, 63, tLive.modImb fun b => { b with pba := [(1, [63])] }, by decide +kernel⟩⟩

theorem test_met_CompletePopsLevel :
    (∃ (fn : Nat) (lvl : Nat) (slot : Nat) (rest : List (Nat × Nat)) (v : Word) (s : State), s.fnLive fn = true ∧
      (s.target fn).stack = (lvl, slot) :: rest ∧ fld v.toNat 0 8 = slot) ∧
    (∃ (fn : Nat) (v : Word) (s : State), s.fnLive fn = true ∧ ((∀ p, (s.target fn).stack.head? = some p → p.2 ≠ fld v.toNat 0 8))) :=
  ⟨⟨1, 4, 255, [], 0xFF#32, tLive.modTarget 1 fun t => { t with active := 6, stack := [(4, 255)] }, by decide +kernel⟩,
    ⟨1, 0#32, tLive, by decide +kernel, fun p h => nomatch (show (none : Option (Nat × Nat)) = some p from h)⟩⟩

theorem test_met_MailboxMessages :
    (∃ (d : MbxSide) (k : Nat) (w : Nat) (s : State), s.mbxOpen d = true ∧ k < 8 ∧ w < 4 ∧ (s.mbx (mbxKey d)).out.getLsbD k = false) ∧
    (∃ (d : MbxSide) (k : Nat) (w : Nat) (s : State), s.mbxOpen d = true ∧ k < 8 ∧ w < 4 ∧ (s.mbx (mbxKey d)).out.getLsbD k = true) ∧
    (∃ (d : MbxSide) (s : State), s.mbxOpen d = true ∧ s.peerThere d = true) ∧
    (∃ (d : MbxSide) (s : State), s.mbxOpen d = true ∧ s.peerThere d = false) ∧
    (∃ (d : MbxSide) (s : State), s.mbxOpen d = true) ∧
    (∃ (d : MbxSide) (k : Nat) (s : State), s.up = true ∧ mbxValid d = true ∧ s.mbxTimed d k = true) :=
  ⟨⟨.vf 1, 7, 3, tLive, by decide +kernel⟩,
    ⟨.vf 1, 7, 3, tPosted, by decide +kernel⟩,
    ⟨.vf 1, tLive, by decide +kernel⟩,
    ⟨.pf0Vf 2, tLive, by decide +kernel⟩,
    ⟨.fw, tLive, by decide +kernel⟩,
    ⟨.vf 1, 7, tPosted, by decide +kernel⟩⟩

theorem test_met_SemaphoreOwnership :
    (∃ (r : Nat) (n : Nat) (s : State), s.semOpen r = true ∧ n < 64 ∧ s.semPermitted r n = true ∧ (s.sem n).holder = none) ∧
    (∃ (r : Nat) (n : Nat) (h : Nat) (s : State), s.semOpen r = true ∧ n < 64 ∧ s.semPermitted r n = true ∧ (s.sem n).holder = some h) ∧
    (∃ (r : Nat) (n : Nat) (s : State), s.semOpen r = true ∧ n < 64 ∧ s.semPermitted r n = false) ∧
    (∃ (r : Nat) (n : Nat) (v : Word) (s : State), s.semOpen r = true ∧ n < 64 ∧ s.semPermitted r n = true ∧ (s.sem n).holder = some r ∧
      v.getLsbD 0 = true) ∧
    (∃ (r : Nat) (n : Nat) (v : Word) (s : State), s.semOpen r = true ∧ n < 64 ∧ (s.sem n).holder ≠ some r ∧ v.getLsbD 0 = true) :=
  ⟨⟨1, 63, tLive, by decide +kernel⟩,
    ⟨1, 63, 0, tLive.modSem 63 fun x => { x with holder := some 0 }, by decide +kernel⟩,
    ⟨67, 63, tLive, by decide +kernel⟩,
    ⟨1, 63, 1#32, tLive.modSem 63 fun x => { x with holder := some 1 }, by decide +kernel⟩,
    ⟨67, 63, 1#32, tLive, by decide +kernel⟩⟩

theorem test_met_WorkQueueDoorbell :
    (∃ (fn : Nat) (index : Nat) (q : Nat) (v : Word) (s : State), s.fnLive fn = true ∧ s.bellQueue fn index = some q ∧
      (s.queue q).fn = fn ∧ (s.queue q).state = .enabled ∧
      bellRule (s.queue q).depth (s.queue q).head (s.queue q).prod (v.toNat % 2 ^ 17)) ∧
    (∃ (fn : Nat) (index : Nat) (q : Nat) (v : Word) (s : State), s.fnLive fn = true ∧ s.bellQueue fn index = some q ∧
      (s.queue q).fn = fn ∧ (s.queue q).state = .enabled ∧
      ¬ bellRule (s.queue q).depth (s.queue q).head (s.queue q).prod (v.toNat % 2 ^ 17)) ∧
    (∃ (fn : Nat) (index : Nat) (q : Nat) (s : State), s.fnLive fn = true ∧ s.bellQueue fn index = some q ∧ (s.queue q).fn = fn ∧
      (s.queue q).state ≠ .enabled ∧ (s.queue q).state ≠ .free) ∧
    (∃ (fn : Nat) (index : Nat) (s : State), s.fnLive fn = true ∧
      ((∀ q, s.bellQueue fn index = some q → (s.queue q).state = .free ∨ (s.queue q).fn ≠ fn))) ∧
    (∃ (off : Nat), off ≠ 0) :=
  ⟨⟨0, 0, 0, 16#32, tWith id, by unfold bellRule; decide +kernel⟩,
    ⟨0, 0, 0, 17#32, tWith id, by unfold bellRule; decide +kernel⟩,
    ⟨0, 0, 0, tWith fun w => { w with state := .disabled }, by decide +kernel⟩,
    ⟨0, 65535, tLive, by decide +kernel, fun q h => by rw [← Option.some.inj h]; exact Or.inl (by decide +kernel)⟩,
    ⟨4, by decide +kernel⟩⟩

theorem test_met_AdminDoorbells :
    (∃ (fn : Nat) (v : Word) (s : State), s.fnLive fn = true ∧ (s.admQ fn).enable = true ∧ (s.admQ fn).stopped = false ∧
      bellRule (s.admQ fn).depth (s.admQ fn).head (s.admQ fn).prod (v.toNat % 2 ^ 17)) ∧
    (∃ (fn : Nat) (v : Word) (s : State), s.fnLive fn = true ∧ (s.admQ fn).enable = true ∧ (s.admQ fn).stopped = false ∧
      ¬ bellRule (s.admQ fn).depth (s.admQ fn).head (s.admQ fn).prod (v.toNat % 2 ^ 17)) ∧
    (∃ (fn : Nat) (s : State), s.fnLive fn = true ∧ ((s.admQ fn).enable = false ∨ (s.admQ fn).stopped = true)) ∧
    (∃ (v : Word) (s : State), s.fnLive 0 = true ∧ s.cfgq.enable = true ∧ s.cfgq.stopped = false ∧
      bellRule s.cfgq.depth s.cfgq.head s.cfgq.prod (v.toNat % 2 ^ 17)) ∧
    (∃ (v : Word) (s : State), s.fnLive 0 = true ∧ s.cfgq.enable = true ∧ s.cfgq.stopped = false ∧
      ¬ bellRule s.cfgq.depth s.cfgq.head s.cfgq.prod (v.toNat % 2 ^ 17)) ∧
    (∃ (s : State), s.fnLive 0 = true ∧ (s.cfgq.enable = false ∨ s.cfgq.stopped = true)) ∧
    (∃ (fn : Nat) (v : Word) (s : State), s.fnLive fn = true ∧ v.getLsbD 31 = true ∧ (s.admQ fn).enable = false ∧
      (s.admQ fn).stopped = false) ∧
    (∃ (fn : Nat) (v : Word) (s : State), s.fnLive fn = true ∧ v.getLsbD 31 = true ∧ (s.admQ fn).enable = true) ∧
    (∃ (fn : Nat) (v : Word) (s : State), s.fnLive fn = true ∧ v.getLsbD 31 = false ∧ (s.admQ fn).enable = true ∧
      (s.admQ fn).stopped = false) ∧
    (∃ (fn : Nat) (s : State), s.fnLive fn = true ∧ (s.admQ fn).enable = true ∧ (s.admQ fn).stopped = true) ∧
    (∃ (v : Word) (s : State), s.fnLive 0 = true ∧ v.getLsbD 31 = true ∧ s.cfgq.enable = false ∧ s.cfgq.stopped = false) :=
  ⟨⟨0, 16#32, tAdm, by unfold bellRule; decide +kernel⟩,
    ⟨0, 17#32, tAdm, by unfold bellRule; decide +kernel⟩,
    ⟨0, tLive, by decide +kernel⟩,
    ⟨16#32, tAdm, by unfold bellRule; decide +kernel⟩,
    ⟨17#32, tAdm, by unfold bellRule; decide +kernel⟩,
    ⟨tLive, by decide +kernel⟩,
    ⟨1, 0x8000010C#32, tLive, by decide +kernel⟩,
    ⟨1, 0x8000000C#32, tAdm, by decide +kernel⟩,
    ⟨1, 0#32, tAdm, by decide +kernel⟩,
    ⟨1, tAdm.modAdmQ 1 fun a => { a with stopped := true }, by decide +kernel⟩,
    ⟨0x8000000C#32, tLive, by decide +kernel⟩⟩

theorem test_met_EntryFetching :
    (∃ (q : Nat) (s : State), s.fetching q = true) ∧
    (∃ (q : Nat) (x : FetchedEntry) (s : State), s.fetching q = true ∧ (s.queue q).wqSpace = 0 ∧
      s.entryCause (s.queue q) x.raw (s.blocksFor (s.queue q).fn x.raw x) = 0 ∧ eOp x.raw ≠ 3 ∧ eOp x.raw ≠ 7) ∧
    (∃ (q : Nat) (x : FetchedEntry) (s : State), s.fetching q = true ∧ (s.queue q).wqSpace = 0 ∧
      s.entryCause (s.queue q) x.raw (s.blocksFor (s.queue q).fn x.raw x) = 0 ∧ eOp x.raw = 3) ∧
    (∃ (q : Nat) (x : FetchedEntry) (s : State), s.fetching q = true ∧ (s.queue q).wqSpace = 0 ∧
      s.entryCause (s.queue q) x.raw (s.blocksFor (s.queue q).fn x.raw x) = 0) ∧
    (∃ (q : Nat) (x : FetchedEntry) (s : State), s.fetching q = true ∧ (s.queue q).wqSpace = 0 ∧
      s.entryCause (s.queue q) x.raw (s.blocksFor (s.queue q).fn x.raw x) ≠ 0) ∧
    (∃ (q : Nat) (s : State), s.fetching q = true) :=
  ⟨⟨0, tEs [], by decide +kernel⟩,
    ⟨0, tFetched tDecodeRaw, tEs [], by decide +kernel⟩,
    ⟨0, ⟨tTransRaw, true, tLadder⟩, tLad (tEs []), by decide +kernel⟩,
    ⟨0, ⟨tTransRaw, true, tLadder⟩, tLad (tEs []), by decide +kernel⟩,
    ⟨0, tFetched (tE [(0, 0, 9), (1, 0, 3)]), tEs [], by decide +kernel⟩,
    ⟨0, tEs [], by decide +kernel⟩⟩

theorem test_met_ChainRules :
    (∃ (q : Nat) (t0 : Nat) (s : State), s.live = true ∧ s.chainEnd q = some t0) ∧
    (∃ (q : Nat) (c : Nat) (s : State), s.live = true ∧ (s.queue q).state ≠ .free ∧ (s.queue q).waitingChain = some c ∧
      ((s.queue q).entries.filter fun e => e.chain == c).length ≤ (s.queue q).resvFree ∧
      ((∀ e ∈ (s.queue q).entries, e.chain = c → e.rends = [] ∧ s.badWindow (s.queue q).fn (s.asksOf e) = none))) ∧
    (∃ (q : Nat) (w : Nat) (e : QEntry) (s : State), s.live = true ∧ (s.queue q).state ≠ .free ∧ (s.queue q).entries = [e] ∧
      e.stage = .fetched ∧ (s.queue q).chainOpen = false ∧ 1 ≤ (s.queue q).resvFree ∧ s.checksWindows e = true ∧
      s.badWindow (s.queue q).fn (s.asksOf e) = some w ∧ e.code = 0 ∧ e.cause = 0 ∧ e.relPics = [] ∧ s.entryUnits q e.seq = []) ∧
    (∃ (q : Nat) (c : Nat) (s : State), s.live = true ∧ (s.queue q).state ≠ .free ∧ (s.queue q).waitingChain = some c ∧
      (s.queue q).resvFree < ((s.queue q).entries.filter fun e => e.chain == c).length) ∧
    (∃ (q : Nat) (op : Nat) (code : Nat) (cause : Nat) (seq : Word) (e : QEntry) (f : QEntry) (au : AuParse) (c : Instr) (s : State), s.entryTakes q seq op e ∧ 0x10 ≤ code ∧ ((op = 1 ∧ c = .decodeAu q seq au ∧ s.decodeStop e (s.auOf e au) = some (code, cause)) ∨ (op = 4 ∧ c = .convertPicture q seq ∧ s.convertFails e = true ∧ code = 0x41 ∧ cause = 0x24) ∨ (op = 6 ∧ c = .copy q seq ∧ s.copyRefused (s.queue q).fn e.raw = true ∧ s.dmv.copies.length < 16 ∧ (s.func (s.queue q).fn).d3 = false ∧ s.laneMayHold (s.laneOf (s.queue q).cls) = true ∧ code = 0x11 ∧ cause = 0x23) ∨ (op = 7 ∧ c = .flushSession q seq ∧ s.flushStop e = some (code, cause)) ∨ (op = 8 ∧ c = .fence q seq ∧ s.earlierVisible q e = true ∧ e64 e.raw 16 ≠ 0 ∧ s.windowOk (s.queue q).fn (e8 e.raw 32) (e64 e.raw 16) 8 = false ∧ code = 0x11 ∧ cause = 0x23)) ∧ f ∈ ((s.queue q).entries.dropWhile fun g => g.seq != seq) ∧ f.chain = e.chain ∧ f.seq ≠ seq ∧ f.stage ≠ .done) :=
  ⟨⟨0, 10000007, tWith fun w => { w with chainOpen := true, chainTimer := some 7 }, by decide +kernel⟩,
    ⟨0, 0, (tEs [tEnt 8 [] [] fun e => { e with stage := .fetched }]).modQueue 0 fun w => { w with resvFree := 1 }, by decide +kernel⟩,
    ⟨0, 0, tEnt 1 [(8, 0, 5), (16, 0, 0x1000), (24, 0, 256), (28, 0, 1)] [] fun e => { e with stage := .fetched }, (tEs [tEnt 1 [(8, 0, 5), (16, 0, 0x1000), (24, 0, 256), (28, 0, 1)] [] fun e => { e with stage := .fetched }]).modQueue 0 fun w => { w with resvFree := 1 }, by decide +kernel⟩,
    ⟨0, 0, (tEs [tEnt 8 [] [] fun e => { e with stage := .fetched }]).modQueue 0 fun w => { w with resvFree := 0 }, by decide +kernel⟩,
    ⟨0, 8, 0x11, 0x23, 0, tFence, tNext, tAu, .fence 0 0, tEs [tFence, tNext], by unfold State.entryTakes; decide +kernel⟩⟩

theorem test_met_Publication :
    (∃ (q : Nat) (s : State), s.live = true ∧ (s.queue q).state ≠ .free ∧ (s.queue q).state ≠ .disabled ∧
      ((∀ e ∈ (s.queue q).entries, e.stage = .done → e.due = [])) ∧ (s.readyEntries q).takeWhile (fun e => !e.roOut) ≠ []) ∧
    (∃ (q : Nat) (e : QEntry) (es : List QEntry) (s : State), s.live = true ∧ (s.queue q).state = .enabled ∧ (s.queue q).flushRead = 0 ∧
      ((∀ f ∈ (s.queue q).entries, f.stage = .done → f.due = [])) ∧ s.readyEntries q = e :: es ∧ e.roOut = true ∧
      (s.func (s.queue q).fn).flr = false ∧ (s.func (s.queue q).fn).d3 = false ∧ s.linkPasses = true) ∧
    (∃ (q : Nat) (s : State), s.up = true ∧ (s.queue q).state ≠ .free) ∧
    (∃ (q : Nat) (t0 : Nat) (s : State), s.live = true ∧ (s.queue q).pendTimer = some t0 ∧ (s.queue q).pend ≠ 0) ∧
    (∃ (fn : Nat) (s : State), s.fnLive fn = true) ∧
    (∃ (fn : Nat) (s : State), s.fnLive fn = true) :=
  ⟨⟨0, tEs [tEnt 8 [] [] fun e => { e with stage := .done }], by decide +kernel⟩,
    ⟨0, tEnt 8 [] [] fun e => { e with stage := .done, roOut := true }, [], tEs [tEnt 8 [] [] fun e => { e with stage := .done, roOut := true }], by decide +kernel⟩,
    ⟨0, tWith id, by decide +kernel⟩,
    ⟨0, 9, tWith fun w => { w with pend := 1, pendTimer := some 9 }, by decide +kernel⟩,
    ⟨1, tLive, by decide +kernel⟩,
    ⟨1, tLive, by decide +kernel⟩⟩

theorem test_met_DecodeAndTranscodeEntries :
    (∃ (q : Nat) (seq : Word) (e : QEntry) (au : AuParse) (c : Nat) (k : Nat) (s : State), s.entryTakes q seq 1 e ∧
      s.decodeStop e (s.auOf e au) = some (c, k)) ∧
    (∃ (q : Nat) (seq : Word) (e : QEntry) (au : AuParse) (w : Nat) (s : State), s.entryTakes q seq 1 e ∧
      s.decodeStop e (s.auOf e au) = none ∧ s.badWindow (s.sess e.sess).fn (entryAsks (s.sess e.sess).par e.raw e.blocks) = some w) ∧
    (∃ (q : Nat) (seq : Word) (e : QEntry) (au : AuParse) (s : State), s.entryTakes q seq 1 e ∧ s.decodeStop e (s.auOf e au) = none ∧
      s.badWindow (s.sess e.sess).fn (entryAsks (s.sess e.sess).par e.raw e.blocks) = none) ∧
    (∃ (q : Nat) (seq : Word) (e : QEntry) (s : State), (s.live = false ∨ s.turn q e = false) ∧ (s.queue q).entry? seq = some e) ∧
    (∃ (q : Nat) (seq : Word) (e : QEntry) (au : AuParse) (c : Nat) (k : Nat) (s : State), s.entryTakes q seq 3 e ∧
      s.decodeStop e (s.auOf e au) = some (c, k)) ∧
    (∃ (q : Nat) (seq : Word) (e : QEntry) (au : AuParse) (s : State), s.entryTakes q seq 3 e ∧ s.decodeStop e (s.auOf e au) = none ∧
      s.badWindow (s.sess e.sess).fn (entryAsks (s.sess e.sess).par e.raw e.blocks) = none) :=
  ⟨⟨0, 0, tEnt 1 [(8, 0, 5), (16, 0, 0x1000), (24, 0, 256), (44, 0, 16), (48, 0, 0x9000)] [] id, tAu, 0x11, 0x22, tEs [tEnt 1 [(8, 0, 5), (16, 0, 0x1000), (24, 0, 256), (44, 0, 16), (48, 0, 0x9000)] [] id], by unfold State.entryTakes; decide +kernel⟩,
    ⟨0, 0, tEnt 1 [(8, 0, 5), (16, 0, 0x1000), (24, 0, 256), (28, 0, 1)] [] id, tAu, 0, tEs [tEnt 1 [(8, 0, 5), (16, 0, 0x1000), (24, 0, 256), (28, 0, 1)] [] id], by unfold State.entryTakes; decide +kernel⟩,
    ⟨0, 0, tEnt 1 [(8, 0, 5), (16, 0, 0x1000), (24, 0, 256)] [] id, tAu, tEs [tEnt 1 [(8, 0, 5), (16, 0, 0x1000), (24, 0, 256)] [] id], by unfold State.entryTakes; decide +kernel⟩,
    ⟨0, 0, (tEnt 1 [(8, 0, 5), (16, 0, 0x1000), (24, 0, 256)] [] id), (tEs [tEnt 1 [(8, 0, 5), (16, 0, 0x1000), (24, 0, 256)] [] id]).modBoot fun b => { b with step := 5 }, by decide +kernel⟩,
    ⟨0, 0, tEnt 3 [(2, 0, 1), (8, 0, 5), (16, 0, 0x1000), (24, 0, 256), (32, 0, 0x50000)] tLadder id, tAu, 0x40, 0, (tLad (tEs [tEnt 3 [(2, 0, 1), (8, 0, 5), (16, 0, 0x1000), (24, 0, 256), (32, 0, 0x50000)] tLadder id])).modSess 5 fun x => { x with state := .error }, by unfold State.entryTakes; decide +kernel⟩,
    ⟨0, 0, tEnt 3 [(2, 0, 1), (8, 0, 5), (16, 0, 0x1000), (24, 0, 256), (32, 0, 0x50000)] tLadder id, tAu, tLad (tEs [tEnt 3 [(2, 0, 1), (8, 0, 5), (16, 0, 0x1000), (24, 0, 256), (32, 0, 0x50000)] tLadder id]), by unfold State.entryTakes; decide +kernel⟩⟩

theorem test_met_PictureEntries :
    (∃ (q : Nat) (seq : Word) (e : QEntry) (op : Nat) (c : Instr) (s : State) (code : Nat) (cause : Nat), s.entryTakes q seq op e ∧
      ((op = 2 ∧ c = .encodePicture q seq) ∨ (op = 5 ∧ c = .analyzePicture q seq)) ∧ s.sourceStop e = some (code, cause)) ∧
    (∃ (q : Nat) (seq : Word) (e : QEntry) (op : Nat) (c : Instr) (s : State) (w : Nat), s.entryTakes q seq op e ∧ ((op = 2 ∧
      c = .encodePicture q seq) ∨ (op = 5 ∧ c = .analyzePicture q seq)) ∧ s.sourceStop e = none ∧ s.resubmitted e = false ∧
      s.badWindow (s.sess e.sess).fn (entryAsks (s.sess e.sess).par e.raw e.blocks) = some w) ∧
    (∃ (q : Nat) (seq : Word) (e : QEntry) (op : Nat) (c : Instr) (s : State), s.entryTakes q seq op e ∧ ((op = 2 ∧
      c = .encodePicture q seq) ∨ (op = 5 ∧ c = .analyzePicture q seq)) ∧ s.sourceStop e = none ∧ s.resubmitted e = false ∧
      s.badWindow (s.sess e.sess).fn (entryAsks (s.sess e.sess).par e.raw e.blocks) = none) ∧
    (∃ (q : Nat) (seq : Word) (e : QEntry) (op : Nat) (c : Instr) (s : State), s.entryTakes q seq op e ∧ ((op = 2 ∧
      c = .encodePicture q seq) ∨ (op = 5 ∧ c = .analyzePicture q seq)) ∧ s.sourceStop e = none ∧ s.resubmitted e = true ∧
      s.badWindow (s.sess e.sess).fn ((entryAsks (s.sess e.sess).par e.raw e.blocks).filter fun a => a.1 != 0) = none) ∧
    (∃ (q : Nat) (seq : Word) (e : QEntry) (s : State), s.entryTakes q seq 4 e ∧ s.convertFails e = true) ∧
    (∃ (q : Nat) (seq : Word) (e : QEntry) (s : State), s.entryTakes q seq 4 e ∧ s.convertFails e = false ∧ convertSmall s e = true) ∧
    (∃ (q : Nat) (seq : Word) (e : QEntry) (s : State), s.entryTakes q seq 4 e ∧ s.convertFails e = false ∧ convertSmall s e = false ∧
      s.convertRefused (s.queue q).fn e = true) ∧
    (∃ (q : Nat) (seq : Word) (e : QEntry) (s : State), s.entryTakes q seq 4 e ∧ s.convertFails e = false ∧ convertSmall s e = false ∧
      s.convertRefused (s.queue q).fn e = false) :=
  ⟨⟨0, 0, tEnt 2 [(8, 0, 6), (16, 0, 0x1000), (24, 0, 64), (26, 0, 64), (32, 0, 0x40000), (40, 0, 4096), (44, 0, 1), (48, 0, 0x60000)] [] id, 2, .encodePicture 0 0, tEs [tEnt 2 [(8, 0, 6), (16, 0, 0x1000), (24, 0, 64), (26, 0, 64), (32, 0, 0x40000), (40, 0, 4096), (44, 0, 1), (48, 0, 0x60000)] [] id], 0x11, 0x22, by unfold State.entryTakes; decide +kernel⟩,
    ⟨0, 0, tEnt 5 [(8, 0, 6), (16, 0, 0x1000), (24, 0, 64), (26, 0, 64), (28, 0, 1)] [] id, 5, .analyzePicture 0 0, tEs [tEnt 5 [(8, 0, 6), (16, 0, 0x1000), (24, 0, 64), (26, 0, 64), (28, 0, 1)] [] id], 0, by unfold State.entryTakes; decide +kernel⟩,
    ⟨0, 0, tEnt 5 [(8, 0, 6), (16, 0, 0x1000), (24, 0, 64), (26, 0, 64)] [] id, 5, .analyzePicture 0 0, tEs [tEnt 5 [(8, 0, 6), (16, 0, 0x1000), (24, 0, 64), (26, 0, 64)] [] id], by unfold State.entryTakes; decide +kernel⟩,
    ⟨0, 0, tEnt 5 [(8, 0, 6), (16, 0, 0x1000), (24, 0, 64), (26, 0, 64)] [] id, 5, .analyzePicture 0 0, (tEs [tEnt 5 [(8, 0, 6), (16, 0, 0x1000), (24, 0, 64), (26, 0, 64)] [] id]).modSess 6 fun x => { x with nextIndex := 1, src := [{ tSrc with decided := false, failed := 0x41 }] }, by unfold State.entryTakes; decide +kernel⟩,
    ⟨0, 0, tEnt 4 [(2, 4, 1), (16, 0, 0x1000), (24, 0, 64), (26, 0, 64)] [tE [(0, 0, 1), (40, 0, 0x2000), (52, 0, 0)]] id, tEs [tEnt 4 [(2, 4, 1), (16, 0, 0x1000), (24, 0, 64), (26, 0, 64)] [tE [(0, 0, 1), (40, 0, 0x2000), (52, 0, 0)]] id], by unfold State.entryTakes; decide +kernel⟩,
    ⟨0, 0, tEnt 4 [(2, 4, 1), (16, 0, 0x1000), (24, 0, 64), (26, 0, 64)] [tE [(40, 0, 0x2000), (52, 0, 8191)]] id, tEs [tEnt 4 [(2, 4, 1), (16, 0, 0x1000), (24, 0, 64), (26, 0, 64)] [tE [(40, 0, 0x2000), (52, 0, 8191)]] id], by unfold State.entryTakes; decide +kernel⟩,
    ⟨0, 0, tEnt 4 [(2, 4, 1), (16, 0, 0x1000), (24, 0, 64), (26, 0, 64)] [tE [(40, 0, 0x2000), (48, 0, 1), (52, 0, 65536)]] id, tEs [tEnt 4 [(2, 4, 1), (16, 0, 0x1000), (24, 0, 64), (26, 0, 64)] [tE [(40, 0, 0x2000), (48, 0, 1), (52, 0, 65536)]] id], by unfold State.entryTakes; decide +kernel⟩,
    ⟨0, 0, tEnt 4 [(2, 4, 1), (16, 0, 0x1000), (24, 0, 64), (26, 0, 64)] [tE [(40, 0, 0x2000), (52, 0, 65536)]] id, tEs [tEnt 4 [(2, 4, 1), (16, 0, 0x1000), (24, 0, 64), (26, 0, 64)] [tE [(40, 0, 0x2000), (52, 0, 65536)]] id], by unfold State.entryTakes; decide +kernel⟩⟩

theorem test_met_CopyFenceFlushEntries :
    (∃ (q : Nat) (seq : Word) (e : QEntry) (s : State), s.entryTakes q seq 6 e ∧ (s.func (s.queue q).fn).d3 = false ∧
      s.laneMayHold (s.laneOf (s.queue q).cls) = true ∧ s.dmv.copies.length < 16 ∧ s.copyRefused (s.queue q).fn e.raw = false) ∧
    (∃ (q : Nat) (seq : Word) (e : QEntry) (s : State), s.entryTakes q seq 6 e ∧ (s.func (s.queue q).fn).d3 = false ∧
      s.laneMayHold (s.laneOf (s.queue q).cls) = true ∧ s.dmv.copies.length < 16 ∧ s.copyRefused (s.queue q).fn e.raw = true) ∧
    (∃ (q : Nat) (seq : Word) (e : QEntry) (s : State), s.entryTakes q seq 6 e ∧ (s.func (s.queue q).fn).d3 = false ∧
      s.laneMayHold (s.laneOf (s.queue q).cls) = true ∧ 16 ≤ s.dmv.copies.length) ∧
    (∃ (q : Nat) (seq : Word) (e : QEntry) (s : State), s.entryTakes q seq 8 e ∧ s.earlierVisible q e = true ∧ e64 e.raw 16 = 0) ∧
    (∃ (q : Nat) (seq : Word) (e : QEntry) (s : State), s.entryTakes q seq 8 e ∧ s.earlierVisible q e = true ∧ e64 e.raw 16 ≠ 0 ∧
      s.windowOk (s.queue q).fn (e8 e.raw 32) (e64 e.raw 16) 8 = true) ∧
    (∃ (q : Nat) (seq : Word) (e : QEntry) (s : State), s.entryTakes q seq 8 e ∧ s.earlierVisible q e = true ∧ e64 e.raw 16 ≠ 0 ∧
      s.windowOk (s.queue q).fn (e8 e.raw 32) (e64 e.raw 16) 8 = false) ∧
    (∃ (q : Nat) (seq : Word) (e : QEntry) (s : State) (code : Nat) (cause : Nat), s.entryTakes q seq 7 e ∧
      s.flushStop e = some (code, cause)) ∧
    (∃ (q : Nat) (seq : Word) (e : QEntry) (s : State), s.entryTakes q seq 7 e ∧ s.flushStop e = none ∧
      s.badWindow (s.sess e.sess).fn (entryAsks (s.sess e.sess).par e.raw e.blocks) = none ∧ (s.sess e.sess).par.encode = true ∧
      ((∀ p ∈ (s.sess e.sess).src, p.coded = true ∨ p.failed ≠ 0)) ∧ ((∀ f ∈ s.sourceEntries e.sess, e.order ≤ f.order))) ∧
    (∃ (q : Nat) (seq : Word) (e : QEntry) (s : State), s.entryTakes q seq 7 e ∧ s.flushStop e = none ∧
      s.badWindow (s.sess e.sess).fn (entryAsks (s.sess e.sess).par e.raw e.blocks) = none ∧ (s.sess e.sess).par.encode = true ∧
      ((∃ p ∈ (s.sess e.sess).src, p.coded = false ∧ p.failed = 0 ∧ s.flushed e.sess p = true))) ∧
    (∃ (q : Nat) (seq : Word) (e : QEntry) (s : State), s.entryTakes q seq 7 e ∧ s.flushStop e = none ∧
      s.badWindow (s.sess e.sess).fn (entryAsks (s.sess e.sess).par e.raw e.blocks) = none ∧ (s.sess e.sess).par.encode = false) :=
  ⟨⟨0, 0, tEnt 6 [(16, 0, 0x1000), (24, 0, 0x2000), (32, 0, 512)] [] id, tEs [tEnt 6 [(16, 0, 0x1000), (24, 0, 0x2000), (32, 0, 512)] [] id], by unfold State.entryTakes; decide +kernel⟩,
    ⟨0, 0, tEnt 6 [(16, 0, 0x1000), (24, 0, 0x2000), (32, 0, 512), (37, 0, 1)] [] id, tEs [tEnt 6 [(16, 0, 0x1000), (24, 0, 0x2000), (32, 0, 512), (37, 0, 1)] [] id], by unfold State.entryTakes; decide +kernel⟩,
    ⟨0, 0, tEnt 6 [(16, 0, 0x1000), (24, 0, 0x2000), (32, 0, 512)] [] id, (tEs [tEnt 6 [(16, 0, 0x1000), (24, 0, 0x2000), (32, 0, 512)] [] id]).modDmv fun d => { d with copies := List.replicate 16 tCopy }, by unfold State.entryTakes; decide +kernel⟩,
    ⟨0, 0, tEnt 8 [] [] id, tEs [tEnt 8 [] [] id], by unfold State.entryTakes; decide +kernel⟩,
    ⟨0, 0, tEnt 8 [(16, 0, 0x1000), (24, 0, 77)] [] id, tEs [tEnt 8 [(16, 0, 0x1000), (24, 0, 77)] [] id],
      by unfold State.entryTakes; decide +kernel⟩,
    ⟨0, 0, tFence, tEs [tFence], by unfold State.entryTakes; decide +kernel⟩,
    ⟨0, 0, tEnt 7 [(8, 0, 6)] [] id, (tEs [tEnt 7 [(8, 0, 6)] [] id]).modSess 6 fun x => { x with state := .sessionReset }, 0, 0,
      by unfold State.entryTakes; decide +kernel⟩,
    ⟨0, 0, tEnt 7 [(8, 0, 6)] [] id, tEs [tEnt 7 [(8, 0, 6)] [] id], by unfold State.entryTakes; decide +kernel⟩,
    ⟨0, 0, tEnt 7 [(8, 0, 6)] [] id, (tEs [tEnt 7 [(8, 0, 6)] [] id]).modSess 6 fun x => { x with nextIndex := 1, flushes := [1], src := [tSrc0] }, by unfold State.entryTakes; decide +kernel⟩,
    ⟨0, 0, tEnt 7 [(8, 0, 5)] [] id, tEs [tEnt 7 [(8, 0, 5)] [] id], by unfold State.entryTakes; decide +kernel⟩⟩

theorem test_met_MalformedAdminEntry :
    (∃ (fn : Nat) (e : Entry) (x : Entry) (b : Block) (c : Instr) (s : State), s.admReady false fn = true ∧ (s.admQ fn).space.toNat ≤ 1 ∧
      s.admEntry false fn e = some x ∧ admCause false x ≠ 0 ∧ c ∈ adminCommands fn e b) ∧
    (∃ (e : Entry) (x : Entry) (b : Block) (c : Instr) (s : State), s.admReady true 0 = true ∧ s.cfgq.space.toNat ≤ 1 ∧
      s.admEntry true 0 e = some x ∧ admCause true x ≠ 0 ∧ c ∈ cfgCommands e b ∧ ((∀ n, (s.sess n).destroyer = none))) ∧
    (∃ (fn : Nat) (e : Entry) (b : Block) (c : Instr) (s : State), s.admReady false fn = false ∧ c ∈ adminCommands fn e b) :=
  ⟨⟨1, tCmd 0x80 [], tCmd 0x80 [], ⟨true, []⟩, .queryFunction 1 (tCmd 0x80 []), tAdm, by decide +kernel⟩,
    ⟨tCmd 0x83 [(8, 0, 1)], tCmd 0x83 [(8, 0, 1)], ⟨true, []⟩, .queryImage (tCmd 0x83 [(8, 0, 1)]), tAdm, by decide +kernel,
      by decide +kernel, by decide +kernel, by decide +kernel, by decide +kernel, fun _ => rfl⟩,
    ⟨63, tCmd 0x38 [], ⟨true, []⟩, .queryFunction 63 (tCmd 0x38 []), tAdm, by decide +kernel⟩⟩

theorem test_met_QueueCommands :
    (∃ (fn : Nat) (q : Nat) (e : Entry) (x : Entry) (s : State), s.admTakes false fn 0x01 e x ∧ firstBad (s.queueChecks fn x) = none ∧
      s.ownLeaf fn (efld x 8 16 10) = true ∧ (s.queuesOf fn).length < (s.fnRec fn).queues ∧ s.pickFree (tblKeys s.queues) 65536 = some q) ∧
    (∃ (fn : Nat) (q : Nat) (e : Entry) (x : Entry) (s : State), s.admTakes false fn 0x03 e x ∧
      s.localQueue fn (efld x 8 0 16) = some q ∧ (s.queue q).state = .disabled) ∧
    (∃ (fn : Nat) (q : Nat) (e : Entry) (x : Entry) (s : State), s.admTakes false fn 0x05 e x ∧
      s.localQueue fn (efld x 8 0 16) = some q ∧ (s.queue q).state = .disabled) ∧
    (∃ (fn : Nat) (q : Nat) (e : Entry) (x : Entry) (s : State), s.admTakes false fn 0x02 e x ∧
      s.localQueue fn (efld x 8 0 16) = some q ∧ (s.queue q).state = .disabled) ∧
    (∃ (fn : Nat) (q : Nat) (e : Entry) (x : Entry) (s : State), s.admTakes false fn 0x06 e x ∧ modHolds x = true ∧
      s.localQueue fn (efld x 8 0 16) = some q) ∧
    (∃ (fn : Nat) (q : Nat) (e : Entry) (x : Entry) (s : State), s.admTakes false fn 0x04 e x ∧
      s.localQueue fn (efld x 8 0 16) = some q ∧ ((s.queue q).state = .enabled ∨ (s.queue q).state = .error)) ∧
    (∃ (fn : Nat) (op : Nat) (e : Entry) (x : Entry) (c : Instr) (s : State), s.admTakes false fn op e x ∧ ((op = 0x02 ∧
      c = .destroyQueue fn e) ∨ (op = 0x03 ∧ c = .enableQueue fn e) ∨ (op = 0x04 ∧ c = .disableQueue fn e) ∨ (op = 0x05 ∧
      c = .resetQueue fn e)) ∧ s.localQueue fn (efld x 8 0 16) = none) ∧
    (∃ (fn : Nat) (op : Nat) (e : Entry) (x : Entry) (c : Instr) (s : State) (q : Nat), s.admTakes false fn op e x ∧ ((op = 0x02 ∧
      c = .destroyQueue fn e) ∨ (op = 0x03 ∧ c = .enableQueue fn e) ∨ (op = 0x04 ∧ c = .disableQueue fn e) ∨ (op = 0x05 ∧
      c = .resetQueue fn e)) ∧ s.localQueue fn (efld x 8 0 16) = some q ∧ (s.queue q).state = .stopping) :=
  ⟨⟨0, (freeNow tAdm 32).toNat % 65536, tCmd 0x01 [(8, 0, 2047), (8, 16, 2), (12, 0, 4), (12, 8, 4), (12, 16, 7), (16, 0, 1), (16, 16, 1000), (24, 0, 0x100000), (32, 0, 0x200000), (40, 0, 0x300040)], tCmd 0x01 [(8, 0, 2047), (8, 16, 2), (12, 0, 4), (12, 8, 4), (12, 16, 7), (16, 0, 1), (16, 16, 1000), (24, 0, 0x100000), (32, 0, 0x200000), (40, 0, 0x300040)], tAdm, by unfold State.admTakes; decide +kernel, by decide +kernel, by decide +kernel, by decide +kernel, rfl⟩,
    ⟨0, 0, tCmd 0x03 [], tCmd 0x03 [], (tAdmEs []).modQueue 0 fun w => { w with state := .disabled, errCause := 4, head := 3 },
      by unfold State.admTakes; decide +kernel⟩,
    ⟨0, 0, tCmd 0x05 [], tCmd 0x05 [], (tAdmEs []).modQueue 0 fun w => { w with state := .disabled, errCause := 4, head := 3 },
      by unfold State.admTakes; decide +kernel⟩,
    ⟨0, 0, tCmd 0x02 [], tCmd 0x02 [], (tAdmEs []).modQueue 0 fun w => { w with state := .disabled, errCause := 4, head := 3 },
      by unfold State.admTakes; decide +kernel⟩,
    ⟨0, 0, tCmd 0x06 [(16, 0, 256), (16, 16, 1)], tCmd 0x06 [(16, 0, 256), (16, 16, 1)], tAdmEs [],
      by unfold State.admTakes; decide +kernel⟩,
    ⟨0, 0, tCmd 0x04 [], tCmd 0x04 [], tAdmEs [tFence, tNext], by unfold State.admTakes; decide +kernel⟩,
    ⟨1, 0x03, tCmd 0x03 [], tCmd 0x03 [], .enableQueue 1 (tCmd 0x03 []), tAdmEs [], by unfold State.admTakes; decide +kernel⟩,
    ⟨0, 0x04, tCmd 0x04 [], tCmd 0x04 [], .disableQueue 0 (tCmd 0x04 []), (tAdmEs []).modQueue 0 fun w => { w with state := .stopping }, 0, by unfold State.admTakes; decide +kernel⟩⟩

theorem test_met_SessionCommands :
    (∃ (fn : Nat) (n : Nat) (e : Entry) (x : Entry) (b : Block) (p : Params) (rs : List Range) (s : State), s.admTakes false fn 0x10 e x ∧ s.entryParams fn x b = some p ∧ firstBad (headChecks p) = none ∧ blockBad p = none ∧ s.ownLeaf fn p.cls = true ∧ (s.sessionsOfFn fn).length < (s.fnRec fn).sessions ∧ s.pickFree (tblKeys s.sessions) s.sessionLimit = some n ∧ s.tookFree.reserveAll (reserveBytes p) [] = .inr rs) ∧
    (∃ (fn : Nat) (e : Entry) (x : Entry) (b : Block) (p : Params) (o : Nat) (s : State), s.admTakes false fn 0x10 e x ∧
      s.entryParams fn x b = some p ∧ firstBad (headChecks p) = some o) ∧
    (∃ (fn : Nat) (n : Nat) (e : Entry) (x : Entry) (b : Block) (p : Params) (rs : List Range) (s : State), s.admTakes false fn 0x12 e x ∧ n = efld x 8 0 20 ∧ (s.sess n).state ≠ .free ∧ (s.sess n).state ≠ .draining ∧ (s.sess n).fn = fn ∧ s.entryParams fn x b = some p ∧ s.setBad fn x p = none ∧ s.ownLeaf fn p.cls = true ∧ s.shrinksHeld n p = false ∧ (s.modSess n fun y => { y with nextR := [] }).reserveAll (reserveBytes p) [(s.sess n).refR, (s.sess n).srcR, (s.sess n).stageR, (s.sess n).mauR] = .inr rs) ∧
    (∃ (fn : Nat) (n : Nat) (e : Entry) (x : Entry) (s : State), s.admTakes false fn 0x13 e x ∧ n = efld x 8 0 20 ∧
      (s.sess n).state ≠ .free ∧ (s.sess n).state ≠ .draining ∧ (s.sess n).fn = fn) ∧
    (∃ (fn : Nat) (n : Nat) (e : Entry) (x : Entry) (s : State), s.admTakes false fn 0x11 e x ∧ n = efld x 8 0 20 ∧
      (s.sess n).state ≠ .free ∧ (s.sess n).state ≠ .draining ∧ (s.sess n).fn = fn) ∧
    (∃ (fn : Nat) (n : Nat) (e : Entry) (x : Entry) (s : State), s.admTakes false fn 0x14 e x ∧ n = efld x 8 0 20 ∧
      (s.sess n).state ≠ .free ∧ (s.sess n).fn = fn) ∧
    (∃ (fn : Nat) (op : Nat) (e : Entry) (x : Entry) (c : Instr) (s : State), s.admTakes false fn op e x ∧
      ((s.sess (efld x 8 0 20)).state = .free ∨ (s.sess (efld x 8 0 20)).fn ≠ fn) ∧ ((op = 0x11 ∧
      c = .destroySession fn e) ∨ (op = 0x13 ∧ c = .resetSession fn e) ∨ (op = 0x14 ∧ c = .querySession fn e))) :=
  ⟨⟨0, (freeNow tSmall 32).toNat % 1024, tCreate, tCreate, ⟨true, []⟩, tPar, [⟨2 ^ 26, 20480⟩, ⟨0, 0⟩, ⟨0, 0⟩, ⟨0, 0⟩], tSmall,
    by unfold State.admTakes; decide +kernel, by decide +kernel, by decide +kernel, by decide +kernel, by decide +kernel,
    by decide +kernel, rfl, tSmall_reserveAll⟩,
    ⟨0, tCmd 0x10 [(12, 0, 5)], tCmd 0x10 [(12, 0, 5)], ⟨true, []⟩, (tLive.entryParams 0 (tCmd 0x10 [(12, 0, 5)]) ⟨true, []⟩).getD Params.init, 12, tAdm, by unfold State.admTakes; decide +kernel⟩,
    ⟨0, 5, tCmd 0x12 [(8, 0, 5), (12, 5, 1), (12, 8, 8), (12, 12, 8), (12, 16, 2), (16, 0, 1), (20, 0, 64), (22, 0, 64)], tCmd 0x12 [(8, 0, 5), (12, 5, 1), (12, 8, 8), (12, 12, 8), (12, 16, 2), (16, 0, 1), (20, 0, 64), (22, 0, 64)], ⟨true, []⟩, (tLive.entryParams 0 (tCmd 0x12 [(8, 0, 5), (12, 5, 1), (12, 8, 8), (12, 12, 8), (12, 16, 2), (16, 0, 1), (20, 0, 64), (22, 0, 64)]) ⟨true, []⟩).getD Params.init, [⟨2 ^ 26, 20480⟩, ⟨0, 0⟩, ⟨0, 0⟩, ⟨0, 0⟩], ((tAdmEs []).modSess 5 fun x => { x with refR := ⟨2 ^ 26, 2 ^ 20⟩ }), by unfold State.admTakes; decide +kernel⟩,
    ⟨0, 5, tCmd 0x13 [(8, 0, 5)], tCmd 0x13 [(8, 0, 5)], tAdmEs [], by unfold State.admTakes; decide +kernel⟩,
    ⟨0, 5, tCmd 0x11 [(8, 0, 5)], tCmd 0x11 [(8, 0, 5)], tAdmEs [], by unfold State.admTakes; decide +kernel⟩,
    ⟨0, 5, tCmd 0x14 [(8, 0, 5)], tCmd 0x14 [(8, 0, 5)], tAdmEs [], by unfold State.admTakes; decide +kernel⟩,
    ⟨1, 0x14, tCmd 0x14 [(8, 0, 5)], tCmd 0x14 [(8, 0, 5)], .querySession 1 (tCmd 0x14 [(8, 0, 5)]), tAdmEs [],
      by unfold State.admTakes; decide +kernel⟩⟩

theorem test_met_PoolAndRingCommands :
    (∃ (fn : Nat) (n : Nat) (a : Nat) (r : Region) (e : Entry) (x : Entry) (s : State), s.admTakes false fn 0x20 e x ∧
      (s.boot.regions.find? fun g => g.kind == 5 && g.id == e8 x 8 && g.grant.getLsbD fn) = some r ∧ 12 ≤ efld x 8 8 5 ∧
      efld x 8 8 5 ≤ 30 ∧ efld x 12 0 25 ≠ 0 ∧ efld x 12 0 25 ≤ 16777216 ∧ (s.poolsOf fn).length < (s.fnRec fn).pools ∧
      s.pickFree (tblKeys s.bpm.pools) 256 = some n ∧
      s.poolPlace r (efld x 8 8 5) (newPool fn r.id (efld x 8 8 5) (efld x 12 0 25) 0).limit = some a) ∧
    (∃ (fn : Nat) (p : Pool) (e : Entry) (x : Entry) (s : State), s.admTakes false fn 0x21 e x ∧ s.ownPool fn (e8 x 8) = some p ∧
      p.owners = [] ∧ p.reqs = []) ∧
    (∃ (fn : Nat) (p : Pool) (e : Entry) (x : Entry) (s : State), s.admTakes false fn 0x21 e x ∧ s.ownPool fn (e8 x 8) = some p ∧
      p.owners ≠ []) ∧
    (∃ (fn : Nat) (e : Entry) (x : Entry) (s : State), s.admTakes false fn 0x30 e x ∧ firstBad (ringChecks x) = none ∧
      (s.ring fn).isThere = false) ∧
    (∃ (fn : Nat) (e : Entry) (x : Entry) (s : State), s.admTakes false fn 0x31 e x ∧ (s.ring fn).isThere = true) ∧
    (∃ (fn : Nat) (e : Entry) (x : Entry) (s : State), s.admTakes false fn 0x31 e x ∧ (s.ring fn).isThere = false) :=
  ⟨⟨0, (freeNow tAdm 32).toNat % 256, 2 ^ 28, ⟨2 ^ 28, 2 ^ 28, 3, 5, 0, true⟩, tCmd 0x20 [(8, 8, 12), (12, 0, 4)], tCmd 0x20 [(8, 8, 12), (12, 0, 4)], tAdm, by unfold State.admTakes; decide +kernel, by decide +kernel, by decide +kernel, by decide +kernel, by decide +kernel, by decide +kernel, by decide +kernel, rfl, by decide +kernel⟩,
    ⟨0, tPool, tCmd 0x21 [(8, 0, 9)], tCmd 0x21 [(8, 0, 9)], tPooled id, by unfold State.admTakes; decide +kernel⟩,
    ⟨0, { tPool with owners := [(3, 1)] }, tCmd 0x21 [(8, 0, 9)], tCmd 0x21 [(8, 0, 9)], tPooled fun p => { p with owners := [(3, 1)] }, by unfold State.admTakes; decide +kernel⟩,
    ⟨1, tCmd 0x30 [(8, 0, 16), (16, 0, 0x1000), (24, 0, 0x2004)], tCmd 0x30 [(8, 0, 16), (16, 0, 0x1000), (24, 0, 0x2004)], tAdm,
      by unfold State.admTakes; decide +kernel⟩,
    ⟨1, tCmd 0x31 [], tCmd 0x31 [], tAdm.modRing 1 fun r => { r with isThere := true, pend := 3 },
      by unfold State.admTakes; decide +kernel⟩,
    ⟨1, tCmd 0x31 [], tCmd 0x31 [], tAdm, by unfold State.admTakes; decide +kernel⟩⟩

theorem test_met_ClassAndGateCommands :
    (∃ (fn : Nat) (r : ClassRec) (e : Entry) (x : Entry) (s : State), s.admTakes false fn 0x28 e x ∧ s.clsRec (efld x 8 0 10) = some r ∧
      firstBad (classBounds r x) = none ∧ r.owner = fn) ∧
    (∃ (fn : Nat) (op : Nat) (r : ClassRec) (e : Entry) (x : Entry) (c : Instr) (s : State), s.admTakes false fn op e x ∧
      s.clsRec (efld x 8 0 10) = some r ∧ firstBad (classBounds r x) = none ∧ r.owner ≠ fn ∧ ((op = 0x28 ∧
      c = .setClass fn e) ∨ (op = 0x29 ∧ c = .queryClass fn e))) ∧
    (∃ (fn : Nat) (r : ClassRec) (e : Entry) (x : Entry) (s : State), s.admTakes false fn 0x29 e x ∧ s.clsRec (efld x 8 0 10) = some r ∧
      r.owner = fn) ∧
    (∃ (e : Entry) (x : Entry) (b : Block) (bs : List Byte) (s : State), s.admTakes false 0 0x2A e x ∧
      s.blockBytes 0 (e8 x 40) (e64 x 32) (8 * min 64 (efld x 8 8 7)) b = some bs ∧ firstBad (s.gateBody x) = none ∧
      firstBad ((entryOffs 0 (min 64 (efld x 8 8 7)) 8).flatMap fun o => gateChecks bs o (efld x 8 0 3)) = none ∧ efld x 8 0 3 < 2 ∧
      s.time + 100000 ≤ e64 x 24) ∧
    (∃ (fn : Nat) (e : Entry) (x : Entry) (b : Block) (bs : List Byte) (s : State), s.admTakes false fn 0x2A e x ∧ fn ≠ 0 ∧
      s.blockBytes fn (e8 x 40) (e64 x 32) (8 * min 64 (efld x 8 8 7)) b = some bs) ∧
    (∃ (fn : Nat) (e : Entry) (x : Entry) (s : State), s.admTakes false fn 0x38 e x ∧ (fn = 0 ∨ efld x 8 0 6 = fn) ∧
      efld x 8 0 6 < s.fnCount) ∧
    (∃ (fn : Nat) (e : Entry) (x : Entry) (s : State), s.admTakes false fn 0x38 e x ∧ fn ≠ 0 ∧ efld x 8 0 6 ≠ fn) :=
  ⟨⟨0, ⟨1, 0, 0, 0, 65535, 152000⟩, tCmd 0x28 [(8, 0, 1), (12, 0, 65535), (16, 0, 152000), (20, 0, 1)], tCmd 0x28 [(8, 0, 1), (12, 0, 65535), (16, 0, 152000), (20, 0, 1)], tAdm, by unfold State.admTakes; decide +kernel⟩,
    ⟨1, 0x28, ⟨1, 0, 0, 0, 65535, 152000⟩, tCmd 0x28 [(8, 0, 1), (12, 0, 65535), (16, 0, 152000), (20, 0, 1)], tCmd 0x28 [(8, 0, 1), (12, 0, 65535), (16, 0, 152000), (20, 0, 1)], .setClass 1 (tCmd 0x28 [(8, 0, 1), (12, 0, 65535), (16, 0, 152000), (20, 0, 1)]), tAdm, by unfold State.admTakes; decide +kernel⟩,
    ⟨0, ⟨1, 0, 0, 0, 65535, 152000⟩, tCmd 0x29 [(8, 0, 1)], tCmd 0x29 [(8, 0, 1)], tAdm, by unfold State.admTakes; decide +kernel⟩,
    ⟨tCmd 0x2A [(8, 0, 1), (8, 8, 1), (8, 16, 256), (12, 0, 10), (24, 0, 1100000)], tCmd 0x2A [(8, 0, 1), (8, 8, 1), (8, 16, 256), (12, 0, 10), (24, 0, 1100000)], ⟨true, [0xE8, 0x03, 0, 0, 1, 64, 0, 0]⟩, [0xE8, 0x03, 0, 0, 1, 64, 0, 0], tAdm, by unfold State.admTakes; decide +kernel⟩,
    ⟨1, tCmd 0x2A [(8, 0, 1), (8, 8, 1), (8, 16, 256), (12, 0, 10), (24, 0, 1100000)], tCmd 0x2A [(8, 0, 1), (8, 8, 1), (8, 16, 256), (12, 0, 10), (24, 0, 1100000)], ⟨true, [0xE8, 0x03, 0, 0, 1, 64, 0, 0]⟩, [0xE8, 0x03, 0, 0, 1, 64, 0, 0], tAdm, by unfold State.admTakes; decide +kernel⟩,
    ⟨1, tCmd 0x38 [(8, 0, 1)], tCmd 0x38 [(8, 0, 1)], tAdm, by unfold State.admTakes; decide +kernel⟩,
    ⟨1, tCmd 0x38 [], tCmd 0x38 [], tAdm, by unfold State.admTakes; decide +kernel⟩⟩

theorem test_met_ConfigurationCommands :
    (∃ (e : Entry) (x : Entry) (b : Block) (bs : List Byte) (r : Nat × Nat) (s : State), s.admTakes true 0 0x80 e x ∧
      ((∀ n, (s.sess n).destroyer = none)) ∧ s.blockBytes 0 (e8 x 12) (e64 x 16) (e32 x 8) b = some bs ∧ e32 x 8 ≠ 0 ∧
      e32 x 8 ≤ 16777216 ∧ checkImage s.boot.fuses bs = .inl r) ∧
    (∃ (i : Image) (s : State), s.live = true ∧ s.drained = true ∧ s.boot.restruct = some i) ∧
    (∃ (e : Entry) (x : Entry) (st : Nat) (s : State), s.admTakes true 0 0x81 e x ∧
      s.stripeOfRank (efld x 8 0 4) (efld x 8 8 2) = some st ∧ s.spareFree (efld x 8 0 4) = true ∧ efld x 8 8 2 ≠ s.physRanks - 1) ∧
    (∃ (e : Entry) (x : Entry) (s : State), s.admTakes true 0 0x81 e x ∧
      (s.stripeOfRank (efld x 8 0 4) (efld x 8 8 2) = none ∨ s.spareFree (efld x 8 0 4) = false)) ∧
    (∃ (e : Entry) (x : Entry) (s : State), s.admTakes true 0 0x82 e x ∧ s.rankServes (efld x 8 0 4) (efld x 8 8 2) = false) ∧
    (∃ (e : Entry) (x : Entry) (s : State), s.admTakes true 0 0x82 e x ∧ s.rankServes (efld x 8 0 4) (efld x 8 8 2) = true ∧
      (s.stripeOfRank (efld x 8 0 4) (efld x 8 8 2)).any s.holdsContext = false) ∧
    (∃ (e : Entry) (x : Entry) (i : Image) (s : State), s.admTakes true 0 0x83 e x ∧ s.boot.image = some i) :=
  ⟨⟨tRestr, tRestr, ⟨true, List.replicate 2048 0⟩, List.replicate 2048 0, (2, 0), tAdm,
    by unfold State.admTakes; decide +kernel, fun _ => rfl, by decide +kernel, by decide +kernel, by decide +kernel, by decide +kernel⟩,
    ⟨tImage, (tAdmEs []).modBoot fun b => { b with restruct := some tImage, restrTag := 7 }, by decide +kernel⟩,
    ⟨tCmd 0x81 [(8, 0, 15)], tCmd 0x81 [(8, 0, 15)], 0, tAdm, by unfold State.admTakes; decide +kernel⟩,
    ⟨tCmd 0x81 [(8, 0, 15), (8, 8, 1)], tCmd 0x81 [(8, 0, 15), (8, 8, 1)], tAdm, by unfold State.admTakes; decide +kernel⟩,
    ⟨tCmd 0x82 [(8, 0, 15), (8, 8, 2)], tCmd 0x82 [(8, 0, 15), (8, 8, 2)], tAdm, by unfold State.admTakes; decide +kernel⟩,
    ⟨tCmd 0x82 [(8, 0, 15), (8, 8, 1)], tCmd 0x82 [(8, 0, 15), (8, 8, 1)], tAdm, by unfold State.admTakes; decide +kernel⟩,
    ⟨tCmd 0x83 [], tCmd 0x83 [], tImage, tAdm, by unfold State.admTakes; decide +kernel⟩⟩

theorem test_met_ScheduleDecision :
    (∃ (kind : ResKind) (u : WUnit) (p : Place) (s : State), s.live = true ∧
      s.replan.pickUnit (fun w => (s.replan.placeFor kind w).isSome) true 6 0 = some u ∧ s.replan.placeFor kind u = some p ∧
      u ∈ s.replan.dsc.units) ∧
    (∃ (kind : ResKind) (s : State), s.live = true ∧ s.replan.pickUnit (fun w => (s.replan.placeFor kind w).isSome) true 6 0 = none) ∧
    (∃ (s : State), s.dsc.units = []) :=
  ⟨⟨.dec, { tUnit .release .queued with uid := 7 }, ⟨0, 0, 1002000, false⟩, tUs [{ tUnit .release .queued with uid := 7 }],
    by decide +kernel⟩,
    ⟨.mau, tUs [{ tUnit .release .queued with uid := 7 }], by decide +kernel⟩,
    ⟨tLive, by decide +kernel⟩⟩

theorem test_met_UnitDispatch :
    (∃ (ix : Nat) (uid : Nat) (e : Nat) (k : Nat) (at_ : Nat) (sp : Nat) (u : WUnit) (s : State), s.live = true ∧
      (s.dsc.inflight.find? fun p => p.1 == ix) = some (ix, uid) ∧ s.unit? uid = some u ∧ u.stage = .hinted e k at_ sp ∧ u.kind = .mau ∧
      (s.func u.fn).d3 = false ∧ s.gateOpen u (max s.time (at_ + 2000)) = true) ∧
    (∃ (ix : Nat) (uid : Nat) (e : Nat) (k : Nat) (at_ : Nat) (sp : Nat) (u : WUnit) (s : State), s.live = true ∧
      (s.dsc.inflight.find? fun p => p.1 == ix) = some (ix, uid) ∧ s.unit? uid = some u ∧ u.stage = .hinted e k at_ sp ∧ u.kind = .pcf ∧
      (s.func u.fn).d3 = false ∧ s.gateOpen u (max s.time (at_ + 2000)) = true ∧ s.passStores u = []) ∧
    (∃ (ix : Nat) (uid : Nat) (h : Nat) (k : Nat) (at_ : Nat) (sp : Nat) (u : WUnit) (s : State), s.live = true ∧
      (s.dsc.inflight.find? fun p => p.1 == ix) = some (ix, uid) ∧ s.unit? uid = some u ∧ u.stage = .hinted h k at_ sp ∧
      u.kind = .segment ∧ (s.func u.fn).d3 = false ∧ (s.sess u.session).par.encode = false ∧ s.mayStart h k = true ∧
      s.gateOpen u (max s.time (at_ + 2000)) = true ∧ ((∀ p ∈ (s.sess u.session).pics, p.num ≠ u.pic)) ∧
      s.loadFails u.fn false u.windows = none) ∧
    (∃ (ix : Nat) (uid : Nat) (h : Nat) (k : Nat) (at_ : Nat) (sp : Nat) (i : Nat) (u : WUnit) (s : State), s.live = true ∧
      (s.dsc.inflight.find? fun p => p.1 == ix) = some (ix, uid) ∧ s.unit? uid = some u ∧ u.stage = .hinted h k at_ sp ∧
      u.kind = .segment ∧ (s.func u.fn).d3 = false ∧ (s.sess u.session).par.encode = false ∧ s.mayStart h k = true ∧
      s.gateOpen u (max s.time (at_ + 2000)) = true ∧ ((∀ p ∈ (s.sess u.session).pics, p.num ≠ u.pic)) ∧
      s.loadFails u.fn false u.windows = some i) ∧
    (∃ (ix : Nat) (uid : Nat) (h : Nat) (k : Nat) (at_ : Nat) (sp : Nat) (u : WUnit) (s : State), (s.dsc.inflight.find? fun p => p.1 == ix) = some (ix, uid) ∧ s.unit? uid = some u ∧ u.stage = .hinted h k at_ sp ∧ ((u.kind.onCore = true ∧ s.mayStart h k = false) ∨ s.gateOpen u (max s.time (at_ + 2000)) = false)) :=
  ⟨⟨4, 3, 7, 0, 0, 0, tUnit .mau (.hinted 7 0 0 0), tUs [tUnit .mau (.hinted 7 0 0 0)], by decide +kernel⟩,
    ⟨4, 3, 15, 0, 0, 0, { tUnit .pcf (.hinted 15 0 0 0) with lut := 4096 }, tUs [{ tUnit .pcf (.hinted 15 0 0 0) with lut := 4096 }],
      by decide +kernel⟩,
    ⟨4, 3, 0, 1, 999000, 1002000, tUnit .segment (.hinted 0 1 999000 1002000), (tUs [tUnit .segment (.hinted 0 1 999000 1002000)]).modHalf 0 fun x => { x with bank1 := .ready 5 999000 }, by decide +kernel⟩,
    ⟨4, 3, 0, 1, 999000, 1002000, 1, { tUnit .segment (.hinted 0 1 999000 1002000) with windows := [noWindow, { noWindow with base := 0x4000, size := 64, space := 1, write := true }] }, (tUs [{ tUnit .segment (.hinted 0 1 999000 1002000) with windows := [noWindow, { noWindow with base := 0x4000, size := 64, space := 1, write := true }] }]).modHalf 0 fun x => { x with bank1 := .ready 5 999000 }, by decide +kernel⟩,
    ⟨4, 3, 0, 1, 999000, 1002000, tUnit .segment (.hinted 0 1 999000 1002000), tUs [tUnit .segment (.hinted 0 1 999000 1002000)],
      by decide +kernel⟩⟩

theorem test_met_BucketsAndGates :
    (∃ (i : Image) (s : State), s.live = true ∧ s.boot.image = some i ∧ (i.classes.map ClassRec.cls).Nodup) ∧
    (∃ (l : Nat) (w : Nat) (s : State), s.live = true ∧ l < 2 ∧ (s.lane l).nextWindow s.time = some w ∧ (s.lane l).claimFrom ≠ w) ∧
    (∃ (l : Nat) (w : Nat) (s : State), s.live = true ∧ l < 8 ∧ ((s.lane l).listAt s.time).openAt s.time = false ∧
      (s.lane l).nextWindow s.time = some w ∧ (s.lane l).wasOpen = false) ∧
    (∃ (l : Nat) (c : Nat) (s : State), s.live = true ∧ l < 8 ∧ (s.lane l).closes s.time = some c ∧ (s.lane l).wasOpen = true) ∧
    (∃ (l : Nat) (at_ : Nat) (g : GateList) (s : State), s.live = true ∧ l < 8 ∧ (s.lane l).next = some (g, at_)) :=
  ⟨⟨tImage, tLive, by decide +kernel⟩,
    ⟨1, 1005000, tLane 1 id, by decide +kernel⟩,
    ⟨7, 1005000, tLane 7 id, by decide +kernel⟩,
    ⟨7, 1010000, (tLane 7 fun x => { x with wasOpen := true }).reach 1006000, by decide +kernel⟩,
    ⟨7, 1000000, tGates, tLane 7 fun x => { x with next := some (tGates, 1000000) }, by decide +kernel⟩⟩

theorem test_met_ContextMovements :
    (∃ (h : Nat) (k : Nat) (n : Nat) (t0 : Nat) (s : State), s.live = true ∧ k < 2 ∧ (s.half h).bank k = .loading n t0) ∧
    (∃ (n : Nat) (s : State), s.live = true ∧ s.ctx.ctrl.getLsbD 8 = true ∧
      ((s.dispatchPlan.take (s.ctx.ctrl.toNat % 256)).find? fun m => !s.cached m) = some n ∧ (s.cacheSet n).length < s.ways n) ∧
    (∃ (s : State), s.ctx.ctrl.getLsbD 8 = false) ∧
    (∃ (h : Nat) (k : Nat) (n : Nat) (s : State), s.live = true ∧ k < 2 ∧ (s.half h).bank k = .draining n) :=
  ⟨⟨0, 1, 5, 997999, tLive.modHalf 0 fun x => { x with bank1 := .loading 5 997999 }, by decide +kernel⟩,
    ⟨5, tUs [{ tUnit .release .queued with uid := 7 }], by decide +kernel⟩,
    ⟨tLive.modCtx fun c => { c with ctrl := 0 }, by decide +kernel⟩,
    ⟨0, 0, 5, tLive.modHalf 0 fun x => { x with bank0 := .draining 5, fstate := .fencing }, by decide +kernel⟩⟩

theorem test_met_MicrowordIssue :
    (∃ (h : Nat) (x : IssueIn) (u : WUnit) (s : State), s.live = true ∧ isHalf h = true ∧ s.halfServes h = true ∧ s.running? h = some u ∧
      (s.half h).waiting = false ∧ x.parity = false ∧ x.tail = none ∧ x.fifoWord = none ∧
      ((s.half h).fetch (s.half h).nextA).trap = false ∧ ((s.half h).fetch (s.half h).nextA).invalid (h % 2 == 1) = false ∧
      nfld ((s.half h).fetch (s.half h).nextA).nano 5 26 2 = 0 ∧ mCkpt ((s.half h).fetch (s.half h).nextA).word = false ∧
      mWait ((s.half h).fetch (s.half h).nextA).word = false) ∧
    (∃ (h : Nat) (x : IssueIn) (u : WUnit) (s : State), s.live = true ∧ isHalf h = true ∧ s.halfServes h = true ∧ s.running? h = some u ∧
      (s.half h).waiting = false ∧
      (x.parity = true ∨ ((s.half h).fetch (s.half h).nextA).trap = true ∨ ((s.half h).fetch (s.half h).nextA).invalid (h % 2 == 1) = true)) ∧
    (∃ (h : Nat) (s : State), s.running? h = none) :=
  ⟨⟨0, tIssue, tUnit .segment (.running 0), tRun 0 id, by decide +kernel⟩,
    ⟨0, tIssue, tUnit .segment (.running 0), tRun 0 fun x => { x with wcsMicro := [(64, 2)] }, by decide +kernel⟩,
    ⟨0, tLive, by decide +kernel⟩⟩

theorem test_met_ChecksAndBudgets :
    (∃ (h : Nat) (cause : Nat) (s : State), s.live = true ∧ isHalf h = true ∧ s.halfServes h = true ∧ 3 ≤ cause ∧ cause ≤ 5) ∧
    (∃ (h : Nat) (s : State), s.live = true ∧ isHalf h = true ∧ s.halfServes h = true ∧ (s.half h).waiting = true ∧ s.countHeld h = false) ∧
    (∃ (h : Nat) (s : State), ((s.half h).waiting = false ∨ s.countHeld h = true)) ∧
    (∃ (h : Nat) (c : Instr) (u : WUnit) (s : State), s.live = true ∧ isHalf h = true ∧ s.halfServes h = true ∧ s.running? h = some u ∧
      u.stage = .running h ∧ u.kind.onCore = true ∧ u.aborted = false ∧ (s.half h).budgetAsked u.tag = false ∧ ((h % 2 = 0 ∧
      c = .decodeBudgetAbort h) ∨ (h % 2 = 1 ∧ c = .encodeBudgetAbort h))) ∧
    (∃ (h : Nat) (r : SeqReq) (u : WUnit) (s : State), s.live = true ∧ isHalf h = true ∧ (s.half h).sent.contains (r, u.tag) = true ∧
      s.running? h = some u) ∧
    (∃ (h : Nat) (r : SeqReq) (tag : BitVec 16) (s : State), s.live = true ∧ isHalf h = true ∧ (s.half h).sent.contains (r, tag) = true ∧
      ((∀ u, s.running? h = some u → u.tag ≠ tag))) ∧
    (∃ (h : Nat) (u : WUnit) (s : State), s.live = true ∧ isHalf h = true ∧ s.halfServes h = true ∧ h % 2 = 1 ∧ s.running? h = some u ∧
      (s.sess u.session).par.fifoTmo ≠ 0 ∧ (s.half h).holdsBytes = true) :=
  ⟨⟨1, 3, tLive, by decide +kernel⟩,
    ⟨0, tRun 0 fun x => { x with waiting := true, uaddr := 64 }, by decide +kernel⟩,
    ⟨127, tLive, by decide +kernel⟩,
    ⟨1, .encodeBudgetAbort 1, tUnit .segment (.running 1), tRun 1 id, by decide +kernel⟩,
    ⟨0, .preempt, tUnit .segment (.running 0), tRun 0 fun x => { x with sent := [(.preempt, 9)] }, by decide +kernel⟩,
    ⟨0, .preempt, 8, tRun 0 fun x => { x with sent := [(.preempt, 8)] }, by decide +kernel, by decide +kernel,
      by decide +kernel, fun u h => by rw [← Option.some.inj h]; decide +kernel⟩,
    ⟨1, tUnit .segment (.running 1), (tRun 1 fun x => { x with fifo := { Fifo.init with bytes := [1, 2, 3] } }).modSess 5 fun y => { y with par := { y.par with block := BitVec.ofNat 7680 (20 * 65536) } }, by decide +kernel⟩⟩

theorem test_met_CommitFlip :
    (∃ (ix : Nat) (uid : Nat) (h : Nat) (a : Nat) (u : WUnit) (w : WUnit) (e : QEntry) (s : State), s.live = true ∧
      (s.dsc.inflight.find? fun p => p.1 == ix) = some (ix, uid) ∧ s.unit? uid = some u ∧ u.stage = .committing h a ∧
      s.linesAcked u.lines = true ∧ s.commitApplies u = true ∧ (s.func u.fn).held = [] ∧ e.due = [] ∧ s.entryAcked u.q e = true ∧
      ((∀ i m, m ∈ s.mergeBuf i → m.tile.base ≠ (u.windows.getD 3 noWindow).base)) ∧ u.kind = .segment ∧ u.skips = false ∧
      (s.sess u.session).par.encode = false ∧ (s.queue u.q).entry? u.seq = some e ∧ w ∈ s.dsc.units ∧ w.uid ≠ uid ∧ w.q = u.q ∧
      w.seq = u.seq ∧ w.session = u.session ∧ w.kind.onCore = true) ∧
    (∃ (ix : Nat) (uid : Nat) (h : Nat) (a : Nat) (u : WUnit) (e : QEntry) (s : State), (s.dsc.inflight.find? fun p => p.1 == ix) = some (ix, uid) ∧ s.unit? uid = some u ∧ u.stage = .committing h a ∧ s.commitApplies u = true ∧ (s.queue u.q).entry? u.seq = some e ∧ e.due = [] ∧ s.linesAcked u.lines = false ∧ ((∀ i m, m ∈ s.mergeBuf i → m.tile.base ≠ (u.windows.getD 3 noWindow).base))) :=
  ⟨⟨4, 3, 0, 0, tUnit .segment (.committing 0 0), { tUnit .segment .queued with uid := 6 }, (tEnt 1 [(8, 0, 5), (16, 0, 0x1000), (24, 0, 256)] [] fun e => { e with stage := .running }), (tUs [tUnit .segment (.committing 0 0), { tUnit .segment .queued with uid := 6 }]).modHalf 0 fun x => { x with bank0 := .active 5, unit := some 3 }, by decide +kernel, by decide +kernel, by decide +kernel, by decide +kernel, by decide +kernel, by decide +kernel, by decide +kernel, by decide +kernel, by decide +kernel, (fun i m h => nomatch (show m ∈ ([] : List MergeEnt) from h)), by decide +kernel, by decide +kernel, by decide +kernel, by decide +kernel, by decide +kernel, by decide +kernel, by decide +kernel, by decide +kernel, by decide +kernel, by decide +kernel⟩,
    ⟨4, 3, 0, 0, { tUnit .segment (.committing 0 0) with lines := [2 ^ 29] }, (tEnt 1 [(8, 0, 5), (16, 0, 0x1000), (24, 0, 256)] [] fun e => { e with stage := .running }), (tUs [{ tUnit .segment (.committing 0 0) with lines := [2 ^ 29] }]).modHlu fun h => { h with bias := [⟨2 ^ 29, true, 2 ^ 29, [1]⟩] }, by decide +kernel, by decide +kernel, by decide +kernel, by decide +kernel, by decide +kernel, by decide +kernel, by decide +kernel, (fun i m h => nomatch (show m ∈ ([] : List MergeEnt) from h))⟩⟩

theorem test_met_HalfService :
    (∃ (core : Nat) (e : Nat) (abort : Bool) (c : Instr) (s : State), s.live = true ∧ core < 64 ∧ ((e = 0 ∧
      c = .fenceDec core abort) ∨ (e = 1 ∧ c = .fenceEnc core abort)) ∧ (s.half (2 * core + e)).fstate = .active) ∧
    (∃ (core : Nat) (e : Nat) (abort : Bool) (c : Instr) (s : State), s.live = true ∧ core < 64 ∧ ((e = 0 ∧
      c = .fenceDec core abort) ∨ (e = 1 ∧ c = .fenceEnc core abort)) ∧ (s.half (2 * core + e)).fstate ≠ .active) ∧
    (∃ (core : Nat) (e : Nat) (c : Instr) (s : State), s.live = true ∧ core < 64 ∧ ((e = 0 ∧ c = .unfenceDec core) ∨ (e = 1 ∧
      c = .unfenceEnc core)) ∧ (s.half (2 * core + e)).fstate = .fenced ∧ (s.half (2 * core + e)).patchStatus < 2) ∧
    (∃ (core : Nat) (e : Nat) (c : Instr) (s : State), s.live = true ∧ core < 64 ∧ ((e = 0 ∧ c = .unfenceDec core) ∨ (e = 1 ∧
      c = .unfenceEnc core)) ∧ ((s.half (2 * core + e)).fstate ≠ .fenced ∨ 2 ≤ (s.half (2 * core + e)).patchStatus)) ∧
    (∃ (h : Nat) (s : State), s.up = true ∧ isHalf h = true ∧ (s.half h).fstate = .testing ∧ (s.core (h / 2)).want = none) ∧
    (∃ (h : Nat) (code : Nat) (r : SelfTest) (s : State), s.up = true ∧ isHalf h = true ∧ (s.half h).fstate = .testing ∧ ((r = .failRom ∧
      code = 0x02) ∨ (r = .failDatapath ∧ code = 0x03))) ∧
    (∃ (h : Nat) (s : State), (s.half h).fstate ≠ .testing) ∧
    (∃ (core : Nat) (mhz : Nat) (s : State), s.live = true ∧ core < 64 ∧ 400 ≤ mhz ∧ mhz ≤ 1800) ∧
    (∃ (core : Nat) (mhz : Nat) (s : State), s.live = true ∧ core < 64 ∧ (s.core core).want = some mhz ∧ s.clockFree core = true) ∧
    (∃ (core : Nat) (s : State), (s.clockFree core = false ∨ (s.core core).want = none)) :=
  ⟨⟨0, 1, true, .fenceEnc 0 true, tLive, by decide +kernel⟩,
    ⟨63, 0, true, .fenceDec 63 true, tLive, by decide +kernel⟩,
    ⟨63, 1, .unfenceEnc 63, tLive, by decide +kernel⟩,
    ⟨0, 1, .unfenceEnc 0, tLive, by decide +kernel⟩,
    ⟨127, tLive.modHalf 127 fun x => { x with fstate := .testing }, by decide +kernel⟩,
    ⟨127, 0x03, .failDatapath, tLive.modHalf 127 fun x => { x with fstate := .testing }, by decide +kernel⟩,
    ⟨127, tLive, by decide +kernel⟩,
    ⟨63, 1800, tLive, by decide +kernel⟩,
    ⟨0, 400, tLive.modCore 0 fun c => { c with want := some 400 }, by decide +kernel⟩,
    ⟨0, tLive, by decide +kernel⟩⟩

theorem test_met_InvarRequests :
    (∃ (h : Nat) (row : Nat) (u : WUnit) (p : Plan) (s : State), s.live = true ∧ isHalf h = true ∧ h % 2 = 1 ∧ row ≠ 0 ∧
      s.running? h = some u ∧ (s.sess u.session).plan? u.pic = some p) ∧
    (∃ (at_ : Nat) (h : Nat) (row : Nat) (spent : Nat) (u : WUnit) (s : State), s.live = true ∧ s.rcu.busy = false ∧
      s.rcu.nextRow = some (at_, h, row, spent) ∧ s.running? h = some u ∧ (s.half h).rowWait = true) ∧
    (∃ (at_ : Nat) (h : Nat) (row : Nat) (spent : Nat) (s : State), s.rcu.nextRow = some (at_, h, row, spent)) ∧
    (∃ (s : State), (s.rcu.busy = true ∨ s.rcu.rows = [])) ∧
    (∃ (h : Nat) (spent : Nat) (u : WUnit) (s : State), s.running? h = some u ∧ spent ≠ s.spentOf u h) ∧
    (∃ (n : Nat) (pic : Nat) (s : State), s.live = true ∧ (s.sess n).par.encode = false ∧ s.planPics n pic ≠ [] ∧
      ((∀ p ∈ s.planPics n pic, s.mayPlan p.1 p.2 = true)) ∧ ((∀ k ∈ s.rcu.plans, (k.2.1, k.2.2) ≠ (n, pic)))) ∧
    (∃ (at_ : Nat) (n : Nat) (pic : Nat) (m : Nat) (p : SrcPic) (s : State), s.live = true ∧ s.rcu.busy = true ∧
      s.rcu.nextPlan = some (at_, n, pic) ∧ ((s.planPics n pic).filter fun k => s.mayPlan k.1 k.2) = [(m, p)]) ∧
    (∃ (s : State), s.live = true ∧ (s.rcu.restarts.filter fun t => decide (s.time < t + 1000000000)).length < 3) ∧
    (∃ (s : State), s.live = true ∧ 3 ≤ (s.rcu.restarts.filter fun t => decide (s.time < t + 1000000000)).length) :=
  ⟨⟨1, 1, tUnit .segment (.running 1), tPlan, tPlanned, by decide +kernel⟩,
    ⟨7, 1, 1, 50, tUnit .segment (.running 1), (tPlanned.modRcu fun r => { r with rows := [(7, 1, 1, 50)] }).modHalf 1 fun x => { x with rowWait := true }, by decide +kernel⟩,
    ⟨7, 1, 1, 50, tLive.modRcu fun r => { r with rows := [(7, 3, 1, 0), (7, 1, 1, 50)] }, by decide +kernel⟩,
    ⟨tLive, by decide +kernel⟩,
    ⟨1, 1, tUnit .segment (.running 1), tPlanned, by decide +kernel⟩,
    ⟨5, 0, tAsked id, by decide +kernel⟩,
    ⟨7, 5, 0, 6, tSrc, tAsked fun r => { r with busy := true, plans := [(7, 5, 0)] }, by decide +kernel⟩,
    ⟨tLive.modRcu fun r => { r with restarts := [1, 2] }, by decide +kernel⟩,
    ⟨tLive.modRcu fun r => { r with restarts := [1, 2, 3] }, by decide +kernel⟩⟩

theorem test_met_EnginesAndPipes :
    (∃ (e : Nat) (u : WUnit) (a : AnaPic) (src : Block) (ps : List Plane) (s : State), s.live = true ∧ e < 8 ∧ s.mauUnit? e = some u ∧
      s.mauInOrder u = true ∧ s.ana? u.session u.pic = some a ∧ s.badTiles u = [] ∧ s.mauSource u src = some ps) ∧
    (∃ (p : Nat) (u : WUnit) (e : QEntry) (luma : List Byte) (chroma : List Byte) (poisoned : Bool) (ps : List Plane) (s : State), s.live = true ∧ p < 16 ∧ s.pcfUnit? p = some u ∧ (s.queue u.q).entry? u.seq = some e ∧ s.badTiles u = [] ∧ s.passPlanes u e (s.passShape u) ⟨!poisoned, luma ++ chroma⟩ = some ps ∧ s.lutOk u p = true) ∧
    (∃ (e : Nat) (s : State), s.live = true ∧ e < 8 ∧ s.mauUnit? e = none ∧ tblGet 0 s.mau.parity e + 1 < s.policy.unitLimit) ∧
    (∃ (e : Nat) (u : WUnit) (s : State), s.live = true ∧ e < 8 ∧ s.mauUnit? e = some u ∧
      tblGet 0 s.mau.parity e + 1 < s.policy.unitLimit) :=
  ⟨⟨7, { tUnit .mau (.running 7) with session := 6 }, tAna, tGrey, tMauP, tMauS, by decide +kernel, by decide +kernel,
    by decide +kernel, by decide +kernel, by decide +kernel, by decide +kernel, tSome _ (by decide +kernel)⟩,
    ⟨15, tUnit .pcf (.running 15), tPassE, tGrey.bytes.take 4096, tGrey.bytes.drop 4096, false, tPassP, tPassS, by decide +kernel,
      by decide +kernel, by decide +kernel, by decide +kernel, by decide +kernel, tSome _ (by decide +kernel), by decide +kernel⟩,
    ⟨7, tLive.modMau fun m => { m with parity := [(7, 1)] }, by decide +kernel⟩,
    ⟨7, tMauU, tMauB, by decide +kernel⟩⟩

theorem test_met_EnginesAndPipes_2 :
    (∃ (e : Nat) (s : State), s.live = true ∧ e < 8 ∧ s.mauUnit? e = none ∧ s.policy.unitLimit ≤ tblGet 0 s.mau.parity e + 1 ∧
      s.mau.enable &&& ~~~ BitVec.twoPow 8 e ≠ 0) ∧
    (∃ (e : Nat) (s : State), s.live = true ∧ e < 8 ∧ s.mauUnit? e = none ∧ s.policy.unitLimit ≤ tblGet 0 s.mau.parity e + 1 ∧
      s.mau.enable &&& ~~~ BitVec.twoPow 8 e = 0) ∧
    (∃ (p : Nat) (s : State), s.live = true ∧ p < 16 ∧ s.pcfUnit? p = none ∧ s.policy.unitLimit ≤ tblGet 0 s.pcf.parity p + 1 ∧
      s.pcf.enable &&& ~~~ BitVec.twoPow 16 p ≠ 0) ∧
    (∃ (p : Nat) (s : State), s.live = true ∧ p < 16 ∧ s.pcfUnit? p = none ∧ tblGet 0 s.pcf.parity p + 1 < s.policy.unitLimit) :=
  ⟨⟨7, tLive.modMau fun m => { m with parity := [(7, 2)] }, by decide +kernel⟩,
    ⟨7, tLive.modMau fun m => { m with enable := 0x80, parity := [(7, 2)] }, by decide +kernel⟩,
    ⟨15, tLive.modPcf fun m => { m with parity := [(15, 2)] }, by decide +kernel⟩,
    ⟨15, tLive.modPcf fun m => { m with parity := [(15, 1)] }, by decide +kernel⟩⟩

theorem test_met_TileCodec :
    (∃ (ss : List Nat), ss.length = 256 ∧ ((∀ v ∈ ss, v < 4096))) :=
  ⟨(List.range 256).map fun i => (i * i * 37) % 4096, by decide +kernel⟩

theorem test_met_TileAccesses :
    (∃ (r : TileRef) (ss : List Nat) (s : State), s.up = true ∧ refValid r = true ∧ s.noTile r = false ∧ s.readTile r = some ss) ∧
    (∃ (r : TileRef) (s : State), s.up = true ∧ refValid r = true ∧ s.noTile r = false ∧ s.readTile r = none) ∧
    (∃ (r : TileRef) (s : State), s.up = true ∧ refValid r = true ∧ s.noTile r = false ∧ s.readTile r = none ∧
      s.regionOf (lineOf (refAddr r)) 64 = none) ∧
    (∃ (r : TileRef) (ws : List (Nat × Nat)) (s : State), s.up = true ∧ refValid r = true ∧ s.noTile r = false ∧
      ((∀ p ∈ ws, p.1 < 256)) ∧ ((∀ i, i < 256 → ∃ p ∈ ws, p.1 = i)) ∧ ((∀ k ∈ s.mergeBuf (refEngine r), k.tile ≠ r))) ∧
    (∃ (r : TileRef) (ws : List (Nat × Nat)) (s : State), s.up = true ∧ refValid r = true ∧ s.noTile r = false ∧
      ((∀ p ∈ ws, p.1 < 256)) ∧ ((∃ i, i < 256 ∧ ∀ p ∈ ws, p.1 ≠ i)) ∧ ((∀ k ∈ s.mergeBuf (refEngine r), k.tile ≠ r)) ∧
      (s.mergeBuf (refEngine r)).length < 16) ∧
    (∃ (r : TileRef) (k : MergeEnt) (s : State), s.up = true ∧ refValid r = true ∧ s.noTile r = false ∧
      ((s.mergeBuf (refEngine r)).find? fun m => m.tile == r) = some k) ∧
    (∃ (r : TileRef) (ws : List (Nat × Nat)) (c : Instr) (s : State), s.up = true ∧ refValid r = true ∧ s.noTile r = true ∧
      (c = .tileRead r ∨ c = .tileWrite r ws ∨ c = .tileMerge r)) :=
  ⟨⟨tTile, List.replicate 256 2048, tLive.memWrite (refHeader tTile) [128], by decide +kernel⟩,
    ⟨tTile, tLive.memWrite (refHeader tTile) [7], by decide +kernel⟩,
    ⟨tTile, tLive.memWrite (refHeader tTile) [7] |>.modBoot fun b => { b with regions := [] }, by decide +kernel⟩,
    ⟨tTile, (List.range 256).map fun i => (i, i), tLive, by decide +kernel⟩,
    ⟨tTile, (List.range 255).map fun i => (i, i), tLive, by decide +kernel, by decide +kernel, by decide +kernel,
      by decide +kernel, ⟨255, by decide +kernel⟩, by decide +kernel, by decide +kernel⟩,
    ⟨tTile, ⟨tTile, [(0, 5)]⟩, tLive.modNtl fun n => { n with merge := [(refEngine tTile, [⟨tTile, [(0, 5)]⟩])] }, by decide +kernel⟩,
    ⟨tFar, [], .tileMerge tFar, tLive, by decide +kernel⟩⟩

theorem test_met_UnitErrors :
    (∃ (c : Nat) (s : State), s.live = true ∧ c < 8) ∧
    (∃ (e : Nat) (s : State), s.live = true ∧ e < 32) ∧
    (∃ (e : Nat) (a : Nat) (s : State), s.live = true ∧ e < 32 ∧ a + 384 ≤ s.memSize) ∧
    (∃ (a : Nat) (s : State), s.live = true ∧ s.memSize < a + 384) ∧
    (∃ (c : Nat) (s : State), s.live = true ∧ c < 8) :=
  ⟨⟨7, tLive, by decide +kernel⟩,
    ⟨31, tLive, by decide +kernel⟩,
    ⟨31, 2 ^ 39 - 384, tLive, by decide +kernel⟩,
    ⟨2 ^ 39 - 383, tLive, by decide +kernel⟩,
    ⟨0, tLive, by decide +kernel⟩⟩

theorem test_met_FabricArbitration :
    (∃ (c : Nat) (reqs : List (Nat × Txn)) (s : State), s.live = true ∧ c < 8 ∧ ((∀ r ∈ reqs, r.2.addr < s.memSize)) ∧
      ((∃ r ∈ reqs, r.1 < 17))) ∧
    (∃ (k : Nat) (x : Txn) (s : State), s.live = true ∧ k < 16 ∧ x.addr < s.memSize ∧ x.port < 12 ∧ channelOf x.addr = k ∧
      tblGet 0 (s.chn k).waitTill x.port = 0 ∧ (s.chn k).state = 1 ∧ (s.chn k).calPend = false ∧ (s.chn k).refuses x.port = false) ∧
    (∃ (k : Nat) (x : Txn) (s : State), s.live = true ∧ k < 16 ∧ x.addr < s.memSize ∧ x.port < 12 ∧ channelOf x.addr = k ∧
      tblGet 0 (s.chn k).waitTill x.port = 0 ∧ (s.chn k).state = 1 ∧ (s.chn k).calPend = false ∧ (s.chn k).refuses x.port = true) ∧
    (∃ (k : Nat) (x : Txn) (s : State), s.live = true ∧ k < 16 ∧ x.addr < s.memSize ∧ (x.port = 12 ∨ x.port = 13) ∧
      channelOf x.addr = k ∧ tblGet 0 (s.chn k).waitTill x.port = 0 ∧ (s.chn k).state = 1 ∧ (s.chn k).calPend = false ∧
      (s.chn k).refuses x.port = false ∧ (x.granules : Int) ≤ tblGet 0 (s.chn k).bgCredit (x.port - 12)) ∧
    (∃ (k : Nat) (p : Nat) (s : State), s.live = true ∧ k < 16 ∧ tblGet 0 (s.chn k).waitTill p ≠ 0) ∧
    (∃ (k : Nat) (s : State), s.live = true ∧ k < 16) ∧
    (∃ (k : Nat) (p : Nat) (s : State), s.fnLive 0 = true ∧ k < 16 ∧ p < 12) :=
  ⟨⟨7, [(17, tTxn), (16, tTxn), (0, tTxn)], tLive, by decide +kernel⟩,
    ⟨15, tTxn, tLive, by decide +kernel⟩,
    ⟨15, tTxn, tLive.modChn 15 fun c => { c with queue := List.replicate 256 (tQTxn 0xF000 true), backoff := [(11, 1024)] },
      by decide +kernel⟩,
    ⟨15, { tTxn with port := 12, granules := 1 }, tLive.modChn 15 fun c => { c with bgCredit := [(0, 1)] }, by decide +kernel⟩,
    ⟨15, 11, tLive.modChn 15 fun c => { c with waitTill := [(11, 1)] }, by decide +kernel⟩,
    ⟨15, tLive, by decide +kernel⟩,
    ⟨15, 11, tLive, by decide +kernel⟩⟩

theorem test_met_WriteAcknowledge :
    (∃ (k : Nat) (id : Nat) (a : Nat) (data : List Byte) (q : QTxn) (s : State), s.live = true ∧ k < 16 ∧ a + data.length ≤ s.memSize ∧
      q ∈ (s.chn k).queue ∧ q.write = true ∧ q.id = id ∧ q.addr / 64 ≤ a / 64 ∧ a + data.length ≤ (q.addr / 64 + q.gran) * 64 ∧
      s.snoopNeeded (linesOf a data.length) = [] ∧ s.biasNeeded (linesOf a data.length) = []) ∧
    (∃ (k : Nat) (a : Nat) (data : List Byte) (s : State), s.live = true ∧ k < 16 ∧ a + data.length ≤ s.memSize ∧
      s.snoopNeeded (linesOf a data.length) ≠ []) ∧
    (∃ (a : Nat) (data : List Byte) (s : State), s.memSize < a + data.length) :=
  ⟨⟨0, 4, 2 ^ 29 + 1, [1, 2], tQTxn (2 ^ 29) true, tLive.modChn 0 fun c => { c with queue := [tQTxn (2 ^ 29) true] }, by decide +kernel⟩,
    ⟨0, 2 ^ 29, [1], tLive.modHlu fun h => { h with track := [(trackSet (2 ^ 29), [(2 ^ 29, true)])] }, by decide +kernel⟩,
    ⟨2 ^ 39 - 1, [1, 2], tLive, by decide +kernel⟩⟩

theorem test_met_DramTransactions :
    (∃ (k : Nat) (x : QTxn) (s : State), s.live = true ∧ k < 16 ∧ (s.chn k).issues = true ∧ s.pick (s.chn k) = some x ∧
      bankRank (s.bankOf x.addr) ∈ (s.chn k).pdown) ∧
    (∃ (k : Nat) (x : QTxn) (s : State), s.live = true ∧ k < 16 ∧ (s.chn k).issues = true ∧ s.pick (s.chn k) = some x ∧
      bankRank (s.bankOf x.addr) ∉ (s.chn k).pdown ∧ s.rowOpen (s.chn k) x = true) ∧
    (∃ (k : Nat) (x : QTxn) (s : State), s.live = true ∧ k < 16 ∧ (s.chn k).issues = true ∧ s.pick (s.chn k) = some x ∧
      bankRank (s.bankOf x.addr) ∉ (s.chn k).pdown ∧ s.rowOpen (s.chn k) x = false) ∧
    (∃ (a : Nat) (s : State), a < s.memSize ∧ s.retiredAt a = false) ∧
    (∃ (a : Nat) (s : State), s.live = true ∧ a < s.memSize ∧ s.retiredAt a = false ∧
      min 65535 (tblGet 0 (s.chn (channelOf a)).ce (s.servingRank a) + 1) < (s.chn (channelOf a)).thresh) ∧
    (∃ (a : Nat) (s : State), s.live = true ∧ a < s.memSize ∧ s.retiredAt a = true) ∧
    (∃ (a : Nat) (s : State), s.live = true ∧ a < s.memSize ∧ s.retiredAt a = false) ∧
    (∃ (a : Nat) (s : State), s.memSize ≤ a) ∧
    (∃ (k : Nat) (pos : Nat) (q : Nat) (s : State), s.live = true ∧ k < 16 ∧ (s.chn k).scrubEn = true ∧ (s.chn k).state = 1 ∧
      s.mem.trained.isSome = true ∧ (s.chn k).hasServed 0 1 = true ∧ s.scrubNext k 5 (s.chn k).scrubPos = some pos ∧
      s.scrubNext k 5 (pos + 64) = some q) ∧
    (∃ (s : State), s.up = true) :=
  ⟨⟨15, tQTxn 0xF000 true, tDram fun c => { c with pdown := [0] }, by decide +kernel, by decide +kernel,
    by decide +kernel, tPick _ _ _ (by decide +kernel) (by decide +kernel),
    by rw [show (tQTxn 0xF000 true).addr = 0xF000 from rfl, tDram_rank _ 0 (by decide +kernel)]; decide +kernel⟩,
    ⟨15, tQTxn 0xF000 true, tDram fun c => { c with openRow := [(tLive.bankOf 0xF000, rowOf 0xF000 + 1)] }, by decide +kernel,
      by decide +kernel, by decide +kernel, tPick _ _ _ (by decide +kernel) (by decide +kernel),
      by rw [show (tQTxn 0xF000 true).addr = 0xF000 from rfl, tDram_rank _ 0 (by decide +kernel)]; decide +kernel,
      by unfold State.rowOpen; rw [show (((tDram fun c => { c with openRow := [(tLive.bankOf 0xF000, rowOf 0xF000 + 1)] })).chn 15).openRow = [(tLive.bankOf 0xF000, rowOf 0xF000 + 1)] from rfl, show (tDram fun c => { c with openRow := [(tLive.bankOf 0xF000, rowOf 0xF000 + 1)] }).bankOf (tQTxn 0xF000 true).addr = tLive.bankOf 0xF000 from rfl]; simp [tblGet, tQTxn]⟩,
    ⟨15, tQTxn 0xF000 true, tDram id, by decide +kernel, by decide +kernel,
      by decide +kernel, tPick _ _ _ (by decide +kernel) (by decide +kernel),
      by rw [show (tQTxn 0xF000 true).addr = 0xF000 from rfl, tDram_rank _ 0 (by decide +kernel)]; decide +kernel,
      by unfold State.rowOpen; rw [show ((tDram id).chn 15).openRow = [] from rfl]; simp [tblGet]⟩,
    ⟨2 ^ 39 - 1, tLive, by decide +kernel⟩,
    ⟨0xF000, tLive.modChn 15 fun c => { c with ce := [(0, 1022)] }, by decide +kernel⟩,
    ⟨0xF000, tLive.modChn 15 fun c => { c with retired := 1 }, by decide +kernel⟩,
    ⟨0xF000, tLive, by decide +kernel⟩,
    ⟨2 ^ 39, tLive, by decide +kernel⟩,
    ⟨15, 2 ^ 35 - 64, 2 ^ 35, tLive.modChn 15 fun c => { c with scrubPos := 2 ^ 35 - 64, served := [(0, 1)] }, by decide +kernel⟩,
    ⟨tLive.modChn 15 fun c => { c with ce := [(0, 3)] }, by decide +kernel⟩⟩

theorem test_met_DramUpkeep :
    (∃ (k : Nat) (r : Nat) (s : State), s.live = true ∧ k < 16 ∧ r < s.physRanks ∧ (s.chn k).issues = true ∧
      s.rankBusy (s.chn k) r = true ∧ tblGet 0 (s.chn k).owed r < 3) ∧
    (∃ (k : Nat) (r : Nat) (s : State), s.live = true ∧ k < 16 ∧ r < s.physRanks ∧ (s.chn k).issues = true ∧
      (s.rankBusy (s.chn k) r = false ∨ 3 ≤ tblGet 0 (s.chn k).owed r)) ∧
    (∃ (k : Nat) (s : State), s.live = true ∧ k < 16 ∧ (s.chn k).state ≠ 2) ∧
    (∃ (k : Nat) (s : State), s.live = true ∧ (s.chn k).state = 2) ∧
    (∃ (k : Nat) (s : State), s.live = true ∧ k < 16) ∧
    (∃ (k : Nat) (r : Nat) (s : State), s.live = true ∧ k < 16 ∧ r < s.physRanks ∧ (s.chn k).state = 1 ∧ (s.chn k).pdIdle ≠ 0 ∧
      s.rankBusy (s.chn k) r = false ∧ r ∉ (s.chn k).pdown) ∧
    (∃ (k : Nat) (s : State), s.live = true ∧ k < 16 ∧ (s.chn k).state = 1 ∧ s.allAsleep = true ∧ (s.chn k).calPend = false) ∧
    (∃ (k : Nat) (s : State), s.live = true ∧ k < 16 ∧ (s.chn k).state = 3 ∧ (s.chn k).queue = []) ∧
    (∃ (k : Nat) (s : State), s.live = true ∧ k < 16 ∧ (s.chn k).state = 3) ∧
    (∃ (k : Nat) (s : State), s.live = true ∧ k < 16 ∧ (s.chn k).state = 4) :=
  ⟨⟨15, 0, tDram (fun c => { c with owed := [(0, 2)] }), by decide +kernel, by decide +kernel, by decide +kernel, by decide +kernel,
    by rw [show (tDram (fun c => { c with owed := [(0, 2)] })).rankBusy ((tDram (fun c => { c with owed := [(0, 2)] })).chn 15) 0 = (bankRank ((tDram (fun c => { c with owed := [(0, 2)] })).bankOf 0xF000) == 0 || false) from rfl, tDram_rank (fun c => { c with owed := [(0, 2)] }) 0 (by decide +kernel)]; rfl, by decide +kernel⟩,
    ⟨15, 1, tLive.modChn 15 fun c => { c with owed := [(1, 3)] }, by decide +kernel⟩,
    ⟨15, tLive, by decide +kernel⟩,
    ⟨15, tLive.modChn 15 fun c => { c with state := 2, calPend := true }, by decide +kernel⟩,
    ⟨15, tLive, by decide +kernel⟩,
    ⟨15, 1, tLive, by decide +kernel⟩,
    ⟨15, (tLive.modFunc 0 fun f => { f with d3 := true }).modFunc 1 fun f => { f with d3 := true }, by decide +kernel⟩,
    ⟨15, tLive.modChn 15 fun c => { c with state := 3 }, by decide +kernel⟩,
    ⟨15, tLive.modChn 15 fun c => { c with state := 3 }, by decide +kernel⟩,
    ⟨15, tLive.modChn 15 fun c => { c with state := 4 }, by decide +kernel⟩⟩

theorem test_met_Migration :
    (∃ (k : Nat) (m : Mig) (s : State), s.live = true ∧ k < 16 ∧ (s.chn k).state = 1 ∧ (s.chn k).calPend = false ∧
      (s.chn k).mig = some m ∧ (s.chn k).hasServed 1 128 = true ∧ m.p + 4096 < s.rankSize) ∧
    (∃ (k : Nat) (m : Mig) (s : State), s.live = true ∧ k < 16 ∧ (s.chn k).state = 1 ∧ (s.chn k).calPend = false ∧
      (s.chn k).mig = some m ∧ (s.chn k).hasServed 1 128 = true ∧ s.rankSize ≤ m.p + 4096) ∧
    (∃ (f : Flash) (s : State), s.up = true ∧ s.fcl.mpFenced ≠ 3 ∧ s.boot.flash = some f) :=
  ⟨⟨15, ⟨0, 0, 2 ^ 35 - 8192, 0⟩, tLive.modChn 15 fun c => { c with served := [(1, 128)], mig := some ⟨0, 0, 2 ^ 35 - 8192, 0⟩ },
    by decide +kernel⟩,
    ⟨15, ⟨0, 0, 2 ^ 35 - 4096, 0⟩, tLive.modChn 15 fun c => { c with served := [(1, 128)], mig := some ⟨0, 0, 2 ^ 35 - 4096, 0⟩ },
      by decide +kernel⟩,
    ⟨tFlash, (tLive.modBoot fun b => { b with flash := some tFlash }).modMem fun m => { m with pendRec := [(3, 0, 3, false)] },
      by decide +kernel⟩⟩

theorem test_met_AddressMap :
    (∃ (k : Nat), k < 16) :=
  ⟨15, by decide +kernel⟩

theorem test_met_ChannelDescriptors :
    (∃ (fn : Nat) (l : Nat) (v : Word) (s : State), s.chanLive fn l = true ∧ v.getLsbD 31 = true ∧
      v.toNat % 2048 < (s.fnRec fn).vectors ∧ (s.chan (s.chanOf fn l)).state = .disabled ∧ (s.chan (s.chanOf fn l)).enable = false) ∧
    (∃ (fn : Nat) (l : Nat) (v : Word) (s : State), s.chanLive fn l = true ∧ v.getLsbD 31 = false ∧
      v.toNat % 2048 < (s.fnRec fn).vectors ∧ ((s.chan (s.chanOf fn l)).state = .running ∨ (s.chan (s.chanOf fn l)).state = .idle)) ∧
    (∃ (fn : Nat) (l : Nat) (v : Word) (c : Instr) (s : State), s.chanLive fn l = true ∧ (s.fnRec fn).vectors ≤ v.toNat % 2048 ∧
      (c = .channelEnable fn l v ∨ c = .channelDisable fn l v)) ∧
    (∃ (fn : Nat) (l : Nat) (s : State), s.chanLive fn l = true) ∧
    (∃ (fn : Nat) (l : Nat) (s : State), s.chanLive fn l = true) ∧
    (∃ (g : Nat) (s : State), s.chanActive g = true ∧ (s.chan g).state = .running ∧ (s.chan g).inprog = [] ∧ (s.chan g).space = 0) ∧
    (∃ (g : Nat) (d : BitVec 256) (s : State), s.chanActive g = true ∧ (s.chan g).state = .running ∧ (s.chan g).inprog = [] ∧
      (s.chan g).space = 0 ∧ d.getLsbD 0 = false ∧ (s.chan g).bell = false) ∧
    (∃ (g : Nat) (d : BitVec 256) (s : State) (k : Nat), s.chanActive g = true ∧ (s.chan g).state = .running ∧ (s.chan g).inprog = [] ∧
      (s.chan g).space = 0 ∧ d.getLsbD 0 = true ∧ s.descCause (s.fnOfChan g) d = some k) ∧
    (∃ (g : Nat) (d : BitVec 256) (s : State), s.chanActive g = true ∧ (s.chan g).state = .running ∧ (s.chan g).inprog = [] ∧
      (s.chan g).space = 0 ∧ d.getLsbD 0 = true ∧ d.getLsbD 3 = false ∧ s.descCause (s.fnOfChan g) d = none) ∧
    (∃ (g : Nat) (d : Desc) (s : State), s.live = true ∧ (s.chan g).inprog = [d] ∧ s.descReady d = true ∧ d.failed = false ∧
      d.intr = false ∧ (s.chan g).space = 0 ∧ (s.func (s.fnOfChan g)).flr = false ∧ (s.func (s.fnOfChan g)).d3 = false ∧
      s.linkPasses = true ∧ s.relaxedFor (s.fnOfChan g) = false) :=
  ⟨⟨1, 1, 0xE0000003#32, tLive, by decide +kernel⟩,
    ⟨1, 1, 0x00000003#32, tChan id, by decide +kernel⟩,
    ⟨1, 1, 0x80000004#32, .channelEnable 1 1 0x80000004#32, tLive, by decide +kernel⟩,
    ⟨1, 1, tLive, by decide +kernel⟩,
    ⟨1, 1, tChan fun c => { c with state := .idle }, by decide +kernel⟩,
    ⟨5, tChan id, by decide +kernel⟩,
    ⟨5, 2, tChan id, by decide +kernel⟩,
    ⟨5, 1, tChan id, 3, by decide +kernel⟩,
    ⟨5, tDescRaw, tChan id, by decide +kernel⟩,
    ⟨5, tDesc fun d => { d with rdDone := 512, wrDone := 512 }, (tChan fun c => { c with inprog := [tDesc fun d => { d with rdDone := 512, wrDone := 512 }] }).modFunc 1 fun f => { f with roEn := false }, by decide +kernel⟩⟩

theorem test_met_Bursts :
    (∃ (g : Nat) (x : Slot) (data : List Byte) (s : State), s.live = true ∧
      (((s.takeBursts 384).slotsOf (.channel g)).find? fun y => y.waiting) = some x ∧ x.srcSpace = 0 ∧ data.length = x.bytes.length) ∧
    (∃ (g : Nat) (x : Slot) (s : State), s.live = true ∧ (((s.takeBursts 384).slotsOf (.channel g)).find? fun y => y.waiting) = some x ∧
      x.srcSpace = 0) ∧
    (∃ (g : Nat) (m : Nat) (n : Nat) (x : Slot) (xs : List Slot) (s : State), s.live = true ∧ s.slotsOf (.channel g) = x :: xs ∧
      x.waiting = false ∧ x.space = 0 ∧ (s.func (s.fnOfChan g)).flr = false ∧ (s.func (s.fnOfChan g)).d3 = false ∧ s.linkPasses = true ∧
      m = min 512 (max 128 s.hlu.mode.payload) ∧ n = min x.bytes.length (m - x.addr % m)) ∧
    (∃ (g : Nat) (s : State), s.slotsOf (.channel g) = []) :=
  ⟨⟨5, ((((tChan fun c => { c with inprog := [tDesc id] }).takeBursts 384).slotsOf (.channel 5)).headD tFilled), List.replicate 512 7, (tChan fun c => { c with inprog := [tDesc id] }), by decide +kernel⟩,
    ⟨5, ((((tChan fun c => { c with inprog := [tDesc id] }).takeBursts 384).slotsOf (.channel 5)).headD tFilled), (tChan fun c => { c with inprog := [tDesc id] }), by decide +kernel⟩,
    ⟨5, 512, 1, tFilled, [], tSlots tFilled [tDesc id], by decide +kernel⟩,
    ⟨255, tLive, by decide +kernel⟩⟩

theorem test_met_DemandRequests :
    (∃ (h : Nat) (space : Nat) (a : Nat) (n : Nat) (i : Nat) (u : WUnit) (s : State), s.live = true ∧ isHalf h = true ∧
      s.running? h = some u ∧ 64 ≤ n ∧ n ≤ 4096 ∧ space ≤ 1 ∧ i < 16 ∧ (s.demandWindow u i a).space = space ∧
      (s.demandWindow u i a).admits false a n = true ∧ s.slotFree (.demand h) = true) ∧
    (∃ (h : Nat) (w : Nat) (a : Nat) (bs : List Byte) (u : WUnit) (s : State), s.live = true ∧ isHalf h = true ∧ s.running? h = some u ∧
      w < 16 ∧ 0 < bs.length ∧ bs.length ≤ 64 ∧ (s.demandWindow u w a).space = 0 ∧
      (s.demandWindow u w a).admits true a bs.length = true ∧ s.barred u = false ∧ ((∀ x ∈ s.dmv.demand, x.1 ≠ h ∨ x.2.1 ≠ w))) ∧
    (∃ (h : Nat) (w : Nat) (b : Nat) (a : Nat) (m : Nat) (held : List Byte) (bs : List Byte) (at_ : Nat) (u : WUnit) (s : State), s.live = true ∧ isHalf h = true ∧ s.running? h = some u ∧ w < 16 ∧ 0 < bs.length ∧ bs.length ≤ 64 ∧ (s.demandWindow u w a).space = 0 ∧ (s.demandWindow u w a).admits true a bs.length = true ∧ s.barred u = false ∧ s.dmv.demand = [(h, w, b, held, at_)] ∧ b + held.length = a ∧ m = min 512 (max 128 s.hlu.mode.payload) ∧ b / m = (a + bs.length - 1) / m) ∧
    (∃ (h : Nat) (w : Nat) (a : Nat) (bs : List Byte) (u : WUnit) (s : State), s.live = true ∧ isHalf h = true ∧ s.running? h = some u ∧
      w < 16 ∧ 0 < bs.length ∧ bs.length ≤ 64 ∧
      ((s.demandWindow u w a).space ≠ 0 ∨ (s.demandWindow u w a).admits true a bs.length = false)) ∧
    (∃ (h : Nat) (space : Nat) (a : Nat) (n : Nat) (u : WUnit) (s : State), s.live = true ∧ isHalf h = true ∧ s.running? h = some u ∧
      64 ≤ n ∧ n ≤ 4096 ∧ space ≤ 1 ∧
      ((∀ i, i < 16 → (s.demandWindow u i a).space ≠ space ∨ (s.demandWindow u i a).admits false a n = false)) ∧
      readsEnd (s.parOf u).encode u space a = false) ∧
    (∃ (h : Nat) (w : Nat) (a : Nat) (at_ : Nat) (bs : List Byte) (rest : List (Nat × Nat × Nat × List Byte × Nat)) (s : State), s.live = true ∧ s.dmv.demand = (h, w, a, bs, at_) :: rest ∧ (s.func (s.fnOfUser (.demand h))).flr = false ∧ (s.func (s.fnOfUser (.demand h))).d3 = false ∧ s.linkPasses = true) ∧
    (∃ (u : DmvUser) (x : Slot) (xs : List Slot) (s : State), s.live = true ∧ s.slotsOf u = x :: xs ∧ x.waiting = false ∧
      x.reread = false) ∧
    (∃ (g : Nat) (x : Slot) (xs : List Slot) (s : State), s.live = true ∧ s.slotsOf (.channel g) = x :: xs ∧ x.waiting = false ∧
      x.reread = true) :=
  ⟨⟨0, 0, 0x10000, 4096, 0, { tUnit .segment (.running 0) with windows := [tW 0x10000 false, tW 0x20000 true, noWindow, noWindow, noWindow, tW 0x30000 true] }, tWin id, by decide +kernel⟩,
    ⟨0, 5, 0x30000, [1], { tUnit .segment (.running 0) with windows := [tW 0x10000 false, tW 0x20000 true, noWindow, noWindow, noWindow, tW 0x30000 true] }, tWin id, by decide +kernel⟩,
    ⟨0, 5, 0x30000, 0x30002, 512, [1, 2], List.replicate 64 3, 5, { tUnit .segment (.running 0) with windows := [tW 0x10000 false, tW 0x20000 true, noWindow, noWindow, noWindow, tW 0x30000 true] }, (tWin id).modDmv fun d => { d with demand := [(0, 5, 0x30000, [1, 2], 5)] }, by decide +kernel⟩,
    ⟨0, 5, 0x30FFF, [1, 2], { tUnit .segment (.running 0) with windows := [tW 0x10000 false, tW 0x20000 true, noWindow, noWindow, noWindow, tW 0x30000 true] }, tWin id, by decide +kernel⟩,
    ⟨0, 1, 0x10000, 64, { tUnit .segment (.running 0) with windows := [tW 0x10000 false, tW 0x20000 true, noWindow, noWindow, noWindow, tW 0x30000 true] }, tWin id, by decide +kernel⟩,
    ⟨0, 5, 0x30000, 5, [1, 2], [], (tWin id).modDmv fun d => { d with demand := [(0, 5, 0x30000, [1, 2], 5)] }, by decide +kernel⟩,
    ⟨.channel 5, tFilled, [], tSlots tFilled [tDesc id], by decide +kernel⟩,
    ⟨5, { tFilled with reread := true }, [], tSlots { tFilled with reread := true } [tDesc id], by decide +kernel⟩⟩

theorem test_met_PoolService :
    (∃ (fn : Nat) (v : Word) (p : Pool) (s : State), s.fnLive fn = true ∧ s.ownPool fn (v.toNat % 256) = some p) ∧
    (∃ (fn : Nat) (v : Word) (s : State), s.fnLive fn = true ∧ s.ownPool fn (v.toNat % 256) = none) ∧
    (∃ (fn : Nat) (a : Nat) (v : Word) (s : State), s.fnLive fn = true ∧
      a = v.toNat % 65536 * 2 ^ 32 + ((s.heldLow fn (freeOff fn)).getD (s.path fn).freeLo).toNat ∧ s.poolAt fn a = none) ∧
    (∃ (fn : Nat) (a : Nat) (k : Nat) (v : Word) (p : Pool) (s : State), s.fnLive fn = true ∧
      a = v.toNat % 65536 * 2 ^ 32 + ((s.heldLow fn (freeOff fn)).getD (s.path fn).freeLo).toNat ∧ s.poolAt fn a = some k ∧
      s.pool? k = some p) ∧
    (∃ (k : Nat) (i : Nat) (rest : List Nat) (p : Pool) (r : PoolReq) (s : State), s.live = true ∧ k < 256 ∧ s.pool? k = some p ∧
      p.reqs = [r] ∧ r.isFree = false ∧ r.port < 64 ∧ p.cache = i :: rest) ∧
    (∃ (k : Nat) (p : Pool) (r : PoolReq) (s : State), s.live = true ∧ k < 256 ∧ s.pool? k = some p ∧ p.reqs = [r] ∧ r.isFree = false ∧
      r.port < 64 ∧ p.cache = [] ∧ p.ring = []) ∧
    (∃ (k : Nat) (i : Nat) (p : Pool) (r : PoolReq) (s : State), s.live = true ∧ k < 256 ∧ s.pool? k = some p ∧ p.reqs = [r] ∧
      r.isFree = true ∧ p.freeCode r = 0 ∧ i = (r.addr - p.base) / 2 ^ p.bufLog ∧ i ∉ p.loose ∧ i ∉ p.barred ∧ p.cache.length < 64) ∧
    (∃ (k : Nat) (p : Pool) (r : PoolReq) (s : State), s.live = true ∧ k < 256 ∧ s.pool? k = some p ∧ p.reqs = [r] ∧ r.isFree = true ∧
      p.freeCode r ≠ 0) ∧
    (∃ (k : Nat) (p : Pool) (s : State), s.live = true ∧ s.pool? k = some p ∧ p.cache.length < 16) ∧
    (∃ (k : Nat) (p : Pool) (s : State), s.live = true ∧ s.pool? k = some p ∧ 48 < p.cache.length) ∧
    (∃ (g : Nat) (d : Desc) (p : Pool) (s : State), s.live = true ∧ (s.chan g).askAt ≠ 0 ∧ (s.chan g).asking = false ∧
      ((s.chan g).inprog.find? fun e => e.started && e.alloc) = some d ∧ s.ownPool (s.fnOfChan g) d.pool = some p) ∧
    (∃ (g : Nat) (d : Desc) (s : State), s.live = true ∧ (s.chan g).waited ≠ 0 ∧
      ((s.chan g).inprog.find? fun e => e.started && e.alloc) = some d) :=
  ⟨⟨0, 0x2A09#32, tPool, tPooled id, by decide +kernel⟩,
    ⟨1, 0x2A09#32, tPooled id, by decide +kernel⟩,
    ⟨0, 2 ^ 28 + 16384, 0#32, (tPooled id).modPath 0 fun p => { p with freeLo := 0x10004000 }, by decide +kernel⟩,
    ⟨0, 2 ^ 28 + 16383, 9, 0x50000#32, tPool, (tPooled id).holdLow 0 (freeOff 0) 0x10003FFF, by decide +kernel⟩,
    ⟨9, 3, [1], { tPool with reqs := [⟨63, false, 5, 0⟩], cache := [3, 1], ring := [0, 2] }, ⟨63, false, 5, 0⟩, tPooled fun _ => { tPool with reqs := [⟨63, false, 5, 0⟩], cache := [3, 1], ring := [0, 2] }, by decide +kernel⟩,
    ⟨9, { tPool with reqs := [⟨63, false, 5, 0⟩], ring := [] }, ⟨63, false, 5, 0⟩, tPooled fun _ => { tPool with reqs := [⟨63, false, 5, 0⟩], ring := [] }, by decide +kernel⟩,
    ⟨9, 1, { tPool with reqs := [⟨63, true, 5, 2 ^ 28 + 4096⟩], ring := [0, 2, 3], owners := [(1, 6)] }, ⟨63, true, 5, 2 ^ 28 + 4096⟩, tPooled fun _ => { tPool with reqs := [⟨63, true, 5, 2 ^ 28 + 4096⟩], ring := [0, 2, 3], owners := [(1, 6)] }, by decide +kernel⟩,
    ⟨9, { tPool with reqs := [⟨63, true, 5, 2 ^ 28 + 4096⟩], owners := [(1, 7)] }, ⟨63, true, 5, 2 ^ 28 + 4096⟩, tPooled fun _ => { tPool with reqs := [⟨63, true, 5, 2 ^ 28 + 4096⟩], owners := [(1, 7)] }, by decide +kernel⟩,
    ⟨9, { tPool with count := 32, ring := List.range 32 }, tPooled fun _ => { tPool with count := 32, ring := List.range 32 },
      by decide +kernel⟩,
    ⟨9, { tPool with count := 64, cache := List.range 49, ring := [60] }, tPooled fun _ => { tPool with count := 64, cache := List.range 49, ring := [60] }, by decide +kernel⟩,
    ⟨0, tDesc fun d => { d with raw := BitVec.ofNat 256 (1 + 8 + put 2 0 1 + put 3 0 9), alloc := true }, tPool, (tPooled id).modChan 0 fun c => { c with state := .running, inprog := [tDesc fun d => { d with raw := BitVec.ofNat 256 (1 + 8 + put 2 0 1 + put 3 0 9), alloc := true }], askAt := 5 }, by decide +kernel⟩,
    ⟨0, tDesc fun d => { d with raw := BitVec.ofNat 256 (1 + 8 + put 2 0 1 + put 3 0 9), alloc := true }, (tPooled id).modChan 0 fun c => { c with state := .running, inprog := [tDesc fun d => { d with raw := BitVec.ofNat 256 (1 + 8 + put 2 0 1 + put 3 0 9), alloc := true }], waited := 5 }, by decide +kernel⟩⟩

theorem test_met_FunctionAndLinkResets :
    (∃ (fn : Nat) (s : State), s.running = true ∧ (s.func fn).isThere = true ∧ (s.func fn).ready = true ∧ (s.func fn).flr = false) ∧
    (∃ (fn : Nat) (s : State), s.running = true ∧ (s.func fn).flr = true ∧ s.noSessions fn = true) ∧
    (∃ (n : Nat) (s : State), s.running = true ∧ (s.func 0).ready = true ∧ (s.func 0).flr = false ∧ s.hlu.vfEn = false ∧ n ≤ s.totalVfs) ∧
    (∃ (s : State), s.running = true ∧ s.hlu.vfEn = true) ∧
    (∃ (c : Instr) (s : State), c ∈ [Instr.hotReset, .linkDown, .refclkLoss] ∧ s.running = true) ∧
    (∃ (m : LinkMode) (s : State), s.running = true ∧ LinkMode.legal m = true) :=
  ⟨⟨0, tAdmEs [tFence], by decide +kernel⟩,
    ⟨1, tAdm.modFunc 1 fun f => { f with flr := true }, by decide +kernel⟩,
    ⟨1, tLive.modFunc 1 fun _ => Func.init, by decide +kernel⟩,
    ⟨tAdm.modHlu fun h => { h with vfEn := true, numVfs := 1 }, by decide +kernel⟩,
    ⟨.refclkLoss, tAdmEs [tFence], by decide +kernel⟩,
    ⟨⟨3, 6, 4, true, 256⟩, tLive.modHlu fun h => { h with up := false }, by decide +kernel⟩⟩

theorem test_met_PowerAndTime :
    (∃ (fn : Nat) (s : State), s.running = true ∧ (s.func fn).isThere = true ∧ (s.func fn).ready = true ∧ (s.func fn).flr = false ∧
      (s.func fn).d3 = false) ∧
    (∃ (fn : Nat) (s : State), s.running = true ∧ (s.func fn).d3 = true) ∧
    (∃ (fn : Nat) (s : State), s.running = true ∧ (s.func fn).d3 = true ∧ ((∀ g, s.fnOfChan g = fn → (s.chan g).state = .disabled))) ∧
    (∃ (s : State), s.running = true) ∧
    (∃ (us : Nat) (s : State), s.running = true ∧ s.hlu.up = true ∧ fld s.hlu.ctrl.toNat 24 8 ≤ us ∧ s.hlu.lstate ≤ 1) ∧
    (∃ (s : State), s.running = true ∧ s.hlu.up = true ∧ 2 ≤ s.hlu.lstate ∧ s.hlu.lstate ≤ 4) ∧
    (∃ (percent : Nat) (ms : Nat) (s : State), s.running = true ∧ s.hlu.up = true ∧ s.hlu.ctrl.getLsbD 1 = true ∧
      s.hlu.mode.flit = true ∧ percent < fld s.hlu.ctrl.toNat 8 8 ∧ fld s.hlu.ctrl.toNat 16 8 ≤ ms ∧ s.hlu.lstate ≤ 1) ∧
    (∃ (percent : Nat) (s : State), s.running = true ∧ s.hlu.up = true ∧ s.hlu.lstate = 1 ∧ 25 < percent) ∧
    (∃ (s : State), s.running = true ∧ s.hlu.up = true ∧ s.hlu.ptmCtrl.getLsbD 31 = true) ∧
    (∃ (root : DWord) (s : State), s.running = true ∧ s.hlu.up = true ∧ s.hlu.ptmCtrl.getLsbD 31 = true ∧ s.linkPasses = true ∧
      s.time < 2 ^ 64 ∧ s.time + 1000000 < root.toNat) ∧
    (∃ (root : DWord) (s : State), s.running = true ∧ s.hlu.up = true ∧ s.hlu.ptmCtrl.getLsbD 31 = true ∧ s.linkPasses = true ∧
      s.time < 2 ^ 64 ∧ root.toNat ≤ s.time + 1000000) :=
  ⟨⟨0, tAdmEs [tFence], by decide +kernel⟩,
    ⟨0, tLive.modFunc 0 fun f => { f with d3 := true, held := [.pme 0] }, by decide +kernel⟩,
    ⟨0, tLive.modFunc 0 fun f => { f with d3 := true, held := [.pme 0] }, by decide +kernel, by decide +kernel, (fun g _ => rfl)⟩,
    ⟨tAdmEs [tFence], by decide +kernel⟩,
    ⟨32, tLive, by decide +kernel⟩,
    ⟨tLive.modHlu fun h => { h with lstate := 4 }, by decide +kernel⟩,
    ⟨24, 10, tLive, by decide +kernel⟩,
    ⟨26, tLive.modHlu fun h => { h with lstate := 1, activeWidth := 4 }, by decide +kernel⟩,
    ⟨tLive, by decide +kernel⟩,
    ⟨2000001#64, tLive, by decide +kernel⟩,
    ⟨2000000#64, tLive, by decide +kernel⟩⟩

theorem test_met_HostMemory :
    (∃ (d : Nat) (s : State), s.up = true ∧ s.pf0Answers = true ∧ d < 4) ∧
    (∃ (a : Nat) (d : Nat) (s : State), s.cxlMemOpen = true ∧ s.hdmAddr a = some d ∧ s.snooping (lineOf d) = false) ∧
    (∃ (a : Nat) (s : State), s.cxlMemOpen = true ∧ s.hdmAddr a = none) ∧
    (∃ (a : Nat) (d : Nat) (s : State), s.cxlMemOpen = true ∧ s.hdmAddr a = some d) ∧
    (∃ (a : Nat) (s : State), s.cxlMemOpen = true ∧ s.hdmAddr a = none) ∧
    (∃ (off : Nat) (len : Nat) (s : State), s.pf0Answers = true ∧ s.fcl.inSafe = false ∧ ((∀ l ∈ linesOf off len, s.exposed l 64 = true))) ∧
    (∃ (off : Nat) (len : Nat) (s : State), s.pf0Answers = true ∧ s.fcl.inSafe = false ∧ (∀ l ∈ linesOf off len, s.exposed l 64 = true) ∧
      s.poisoned off len = true) ∧
    (∃ (off : Nat) (len : Nat) (s : State), s.pf0Answers = true ∧ s.fcl.inSafe = false ∧ (∃ l ∈ linesOf off len, s.exposed l 64 = false)) :=
  ⟨⟨3, tLive, by decide +kernel⟩,
    ⟨2 ^ 40 + 2 ^ 28 - 1, 2 ^ 29 + 2 ^ 28 - 1, tLive.modHlu fun h => { h with hdm := [(3, ⟨true, false, 2 ^ 40, 2 ^ 29, 2 ^ 28⟩)] },
      by decide +kernel⟩,
    ⟨2 ^ 40 + 2 ^ 28, tLive.modHlu fun h => { h with hdm := [(3, ⟨true, false, 2 ^ 40, 2 ^ 29, 2 ^ 28⟩)] }, by decide +kernel⟩,
    ⟨2 ^ 40, 2 ^ 29, tLive.modHlu fun h => { h with hdm := [(3, ⟨true, false, 2 ^ 40, 2 ^ 29, 2 ^ 28⟩)] }, by decide +kernel⟩,
    ⟨2 ^ 40 - 1, tLive.modHlu fun h => { h with hdm := [(3, ⟨true, false, 2 ^ 40, 2 ^ 29, 2 ^ 28⟩)] }, by decide +kernel⟩,
    ⟨2 ^ 30 - 4 - 2 ^ 28, 4, tLive, by decide +kernel⟩,
    ⟨2 ^ 28, 4, tLive.poisonLine (2 ^ 28), by decide +kernel⟩,
    ⟨2 ^ 28 - 1, 2, tLive, by decide +kernel⟩⟩

theorem test_met_CoherenceAndSecurity :
    (∃ (l : Nat) (s : State), s.up = true ∧ s.hlu.snoops = [(l, false)] ∧ ((∀ b ∈ s.hlu.bias, ¬ (b.write = true ∧ b.line = l)))) ∧
    (∃ (l : Nat) (a : Nat) (bs : List Byte) (s : State), s.up = true ∧ s.hlu.snoops = [(l, false)] ∧ s.hlu.bias = [⟨l, true, a, bs⟩]) ∧
    (∃ (l : Nat) (a : Nat) (bs : List Byte) (rest : List BiasReq) (s : State), s.up = true ∧ s.hdmD = true ∧
      s.hlu.bias = ⟨l, true, a, bs⟩ :: rest ∧ bs ≠ []) ∧
    (∃ (l : Nat) (a : Nat) (rest : List BiasReq) (s : State), s.up = true ∧ s.hdmD = true ∧ s.hlu.bias = ⟨l, false, a, []⟩ :: rest) ∧
    (∃ (s : State), s.running = true ∧ s.hlu.up = true ∧ s.hlu.mode.protocol ≠ 0 ∧ s.linkPasses = true) ∧
    (∃ (n : Nat) (s : State), s.running = true ∧ s.hlu.up = true ∧ n < 5 ∧ s.hlu.ide.getLsbD n = false) ∧
    (∃ (n : Nat) (s : State), s.running = true ∧ s.hlu.up = true ∧ n < 5) ∧
    (∃ (s : State), s.running = true ∧ (s.func 0).ready = true ∧ (s.func 0).flr = false ∧ s.fcl.mpFenced ≠ 3 ∧ s.linkPasses = true) :=
  ⟨⟨2 ^ 29, tLive.modHlu fun h => { h with snoops := [(2 ^ 29, false)], track := [(trackSet (2 ^ 29), [(2 ^ 29, true)])] },
    by decide +kernel⟩,
    ⟨2 ^ 29, 2 ^ 29 + 63, [9], (tLive.modHlu fun h => { h with snoops := [(2 ^ 29, false)], track := [(trackSet (2 ^ 29), [(2 ^ 29, true)])] }).modHlu fun h => { h with bias := [⟨2 ^ 29, true, 2 ^ 29 + 63, [9]⟩] }, by decide +kernel⟩,
    ⟨2 ^ 29, 2 ^ 29 + 63, [9], [], tLive.modHlu fun h => { h with mode := ⟨2, 5, 16, true, 256⟩, bias := [⟨2 ^ 29, true, 2 ^ 29 + 63, [9]⟩] }, by decide +kernel⟩,
    ⟨2 ^ 29, 2 ^ 29, [], tLive.modHlu fun h => { h with mode := ⟨2, 5, 16, true, 256⟩, bias := [⟨2 ^ 29, false, 2 ^ 29, []⟩] },
      by decide +kernel⟩,
    ⟨tLive, by decide +kernel⟩,
    ⟨4, tLive, by decide +kernel⟩,
    ⟨0, tLive.modHlu fun h => { h with ide := 0x1F }, by decide +kernel⟩,
    ⟨tLive, by decide +kernel⟩⟩

theorem test_met_ResetInputs :
    (∃ (s : State), s.pins.perst = false ∧ s.pins.pwrgood = true) ∧
    (∃ (s : State), s.pins.perst = false ∧ s.pins.pwrgood = false) ∧
    (∃ (s : State), s.pins.perst = true ∧ s.pins.pwrgood = true ∧ s.pins.settled = true) ∧
    (∃ (s : State), s.pins.perst = true ∧ s.pins.pwrgood = true ∧ s.pins.settled = false) ∧
    (∃ (s : State), s.pins.pwrgood = false) ∧
    (∃ (s : State), s.pins.pwrgood = true ∧ s.pins.settled = false ∧ s.pins.perst = true) ∧
    (∃ (s : State), s.pins.pwrgood = true ∧ s.pins.settled = false ∧ s.pins.perst = false) ∧
    (∃ (r : Rail) (ns : Nat) (xs : Nat) (s : State) (c : Instr), s.pins.pwrgood = true ∧ 5000 < ns ∧ 2000 ≤ xs ∧
      c ∈ [Instr.pwrgoodFall, .railUndervoltage r ns, .xtalLoss xs]) ∧
    (∃ (ns : Nat), ns ≤ 5000) :=
  ⟨⟨tAdmEs [tFence], by decide +kernel⟩,
    ⟨{ tLive with pins := { tLive.pins with pwrgood := false } }, by decide +kernel⟩,
    ⟨{ tLive with pins := { tLive.pins with perst := true } }, by decide +kernel⟩,
    ⟨{ tLive with pins := { tLive.pins with perst := true, settled := false } }, by decide +kernel⟩,
    ⟨State.reset, by decide +kernel⟩,
    ⟨{ tLive with pins := { tLive.pins with perst := true, settled := false } }, by decide +kernel⟩,
    ⟨{ tLive with pins := { tLive.pins with settled := false } }, by decide +kernel⟩,
    ⟨.vddCc, 5001, 2000, tAdmEs [tFence], .xtalLoss 2000, by decide +kernel⟩,
    ⟨5000, by decide +kernel⟩⟩

theorem test_met_BootAndFirmware :
    (∃ (i : Image) (s : State), s.running = true ∧ (s.func 0).ready = false ∧ s.boot.step ≠ 6 ∧ s.fcl.inSafe = false ∧
      s.boot.image = some i) ∧
    (∃ (s : State), s.running = true ∧ (s.func 0).ready = false ∧ s.boot.step ≠ 6 ∧ s.fcl.inSafe = false ∧ s.boot.image = none) ∧
    (∃ (s : State), s.up = true ∧ s.boot.protLock = false ∧ s.boot.step < 5 ∧ (s.func 0).ready = false ∧ s.boot.image.isSome = true) ∧
    (∃ (k : ArbKind) (s : State), s.up = true ∧ s.boot.burnAllowed = true ∧ arbCount s.boot.fuses k < s.arbLevel k) ∧
    (∃ (b : FwBlock) (s : State), s.fwTakes b 1 = true ∧ s.reqOk b 64 = true) ∧
    (∃ (b : FwBlock) (s : State), s.fwTakes b 2 = true ∧ s.reqOk b 100 = true ∧ u32 (s.reqBlock b) 96 = 0x454E524C ∧
      s.boot.fuses.ownerLock = false ∧ s.boot.fuses.ownerHash &&& ~~~ Config.sha384 ((s.reqBlock b).take 96) = 0) ∧
    (∃ (b : FwBlock) (s : State), s.fwTakes b 2 = true ∧ s.reqOk b 100 = true ∧ u32 (s.reqBlock b) 96 = 0x454E524C ∧
      s.boot.fuses.ownerLock = true) ∧
    (∃ (b : FwBlock) (f : Flash) (r : Nat × Nat) (s : State), s.fwTakes b 3 = true ∧ s.boot.flash = some f ∧ s.reqOk b 8 = true ∧
      s.reqLen b.slot ≤ 16777224 ∧ u16 (s.reqBlock b) 0 = 3 ∧ checkImage s.boot.fuses ((s.reqBlock b).drop 8) = .inl r) ∧
    (∃ (b : FwBlock) (s : State), s.fwTakes b 4 = true ∧ s.reqOk b 128 = true) :=
  ⟨⟨tImage, (tLive.modFunc 0 fun f => { f with ready := false }).modBoot fun b => { b with step := 4, protLock := false },
    by decide +kernel⟩,
    ⟨(tLive.modFunc 0 fun f => { f with ready := false }).modBoot fun b => { b with step := 4, protLock := false, image := none },
      by decide +kernel⟩,
    ⟨(tLive.modFunc 0 fun f => { f with ready := false }).modBoot fun b => { b with step := 4, protLock := false }, by decide +kernel⟩,
    ⟨.patch, tLive.modBoot fun b => { b with patchLevel := 1024 }, by decide +kernel⟩,
    ⟨⟨0, List.replicate 64 0⟩, tFwReq 1 64, by decide +kernel⟩,
    ⟨⟨0, tEnrol⟩, tFwReq 2 100, by decide +kernel, by decide +kernel, by decide +kernel, by decide +kernel,
      by rw [show (tFwReq 2 100).boot.fuses.ownerHash = 0#384 from rfl]; exact BitVec.zero_and⟩,
    ⟨⟨0, tEnrol⟩, (tFwReq 2 100).modBoot fun b => { b with fuses := { b.fuses with ownerLock := true } }, by decide +kernel⟩,
    ⟨⟨0, leBytes 8 3⟩, tFlash, (2, 0), tFwReq 3 8, by decide +kernel⟩,
    ⟨⟨0, List.replicate 128 0⟩, tFwReq 4 128, by decide +kernel⟩⟩

theorem test_met_SensorsAndPort :
    (∃ (ix : Nat) (v : Nat) (s : State), s.tgtValue ix = some v) ∧
    (∃ (s : State), s.running = false) ∧
    (∃ (s : State), s.up = true ∧ (s.func 0).ready = true ∧ (s.func 0).flr = false ∧ (s.func 0).d3 = false ∧ s.linkPasses = true ∧
      s.fcl.mpDown &&& ~~~ s.fcl.mpFenced = 0) ∧
    (∃ (temps : List Int), temps.length = 16) :=
  ⟨⟨0x10, (tLive.cscWord 0x40).getD 0, tLive, by decide +kernel⟩,
    ⟨State.reset, by decide +kernel⟩,
    ⟨tLive, by decide +kernel⟩,
    ⟨List.replicate 16 116, by decide +kernel⟩⟩

theorem test_met_FaultRecords :
    (∃ (r : Rec) (rest : List Rec) (s : State), s.pins.pwrgood = true ∧ s.fcl.inbox = r :: rest) ∧
    (∃ (s : State), s.pf0Answers = true) ∧
    (∃ (s : State), s.pf0Answers = true) :=
  ⟨⟨tRec 2, [tRec 0], tLive.modFcl fun f => { f with inbox := [tRec 2, tRec 0] }, by decide +kernel⟩,
    ⟨tLive.modFcl fun f => { f with fifo := [tRec 2, tRec 0] }, by decide +kernel⟩,
    ⟨tLive.modFcl fun f => { f with first := some (tRec 0) }, by decide +kernel⟩⟩

theorem test_met_SafeStateAndFaults :
    (∃ (s : State), s.pins.pwrgood = true ∧ s.fcl.inSafe = false) ∧
    (∃ (s : State), s.pins.pwrgood = true ∧ s.fcl.inSafe = true) ∧
    (∃ (s : State), s.up = true ∧ s.pf0Answers = true ∧ s.fcl.aliveStopped = true) ∧
    (∃ (s : State), s.up = true) ∧
    (∃ (a : Nat) (b : Nat) (s : State), s.up = true ∧ s.fcl.restarts = [(0, a), (1, b)]) ∧
    (∃ (p : Nat) (s : State), s.up = true ∧ p < 2 ∧ s.fcl.mpDown.getLsbD p = false ∧ tblGet 0 s.fcl.restarts p < s.policy.mpLimit ∧
      s.fcl.mpFenced ≠ 3) ∧
    (∃ (p : Nat) (s : State), s.up = true ∧ p < 2 ∧ s.fcl.mpDown.getLsbD p = false ∧ s.policy.mpLimit ≤ tblGet 0 s.fcl.restarts p ∧
      s.fcl.mpFenced ||| BitVec.twoPow 2 p = 3) ∧
    (∃ (p : Nat) (s : State), s.up = true ∧ p < 2 ∧ s.fcl.mpFenced.getLsbD p = false) ∧
    (∃ (n : Nat) (l : CLine) (s : State), s.live = true ∧ (s.cacheSet n).find? (fun l => l.session == n) = some l ∧ l.dirty = false) ∧
    (∃ (n : Nat) (l : CLine) (s : State), s.live = true ∧ (s.cacheSet n).find? (fun l => l.session == n) = some l ∧ l.dirty = true ∧
      (s.sess n).state ≠ .free ∧ (s.sess n).state ≠ .draining) :=
  ⟨⟨tAdmEs [tFence], by decide +kernel⟩,
    ⟨tLive.modFcl fun f => { f with inSafe := true, safe := 1 }, by decide +kernel⟩,
    ⟨tLive.modFcl fun f => { f with aliveStopped := true }, by decide +kernel⟩,
    ⟨{ (tLive.modHalf 5 fun h => { h with mchkWindow := 3 }) with mau := { tLive.mau with parity := [(2, 3)] } }, by decide +kernel⟩,
    ⟨3, 4, tLive.modFcl fun f => { f with restarts := [(0, 3), (1, 4)] }, by decide +kernel⟩,
    ⟨1, tLive, by decide +kernel⟩,
    ⟨1, tLive.modFcl fun f => { f with restarts := [(1, 100)], mpFenced := 1 }, by decide +kernel⟩,
    ⟨1, tLive.modFcl fun f => { f with mpDown := 2 }, by decide +kernel⟩,
    ⟨5, ⟨5, false, 1⟩, { tLive with ctx := { tLive.ctx with sets := [(5, [⟨5, false, 1⟩])] } }, by decide +kernel⟩,
    ⟨5, ⟨5, true, 1⟩, { tAdmEs [tFence] with ctx := { tLive.ctx with sets := [(5, [⟨5, true, 1⟩])] } }, by decide +kernel⟩⟩

theorem test_met_QueryRegisters :
    (∃ (s : State), s.fnLive 0 = true) ∧
    (∃ (s : State), s.live = true ∧ s.ctx.queryRes.getLsbD 31 = false) ∧
    (∃ (s : State), s.live = true ∧ s.dsc.queryRes.getLsbD 31 = false) ∧
    (∃ (s : State), s.live = true ∧ s.qe.queryRes.getLsbD 31 = false) ∧
    (∃ (p : Pool) (s : State), s.live = true ∧ s.bpm.queryRes.getLsbD 31 = false ∧ s.pool? s.bpm.queryId = some p) :=
  ⟨⟨tLive, by decide +kernel⟩,
    ⟨tLive, by decide +kernel⟩,
    ⟨tLive, by decide +kernel⟩,
    ⟨tLive, by decide +kernel⟩,
    ⟨tPool, { tPooled id with bpm := { (tPooled id).bpm with queryId := 9 } }, by decide +kernel⟩⟩

theorem test_met_RegisterPairs :
    (∃ (fn : Nat) (off : Nat) (v : Nat) (s : State), off % 4 = 0 ∧ s.shows fn (blkOf fn off).1 (blkOf fn off).2 = true ∧
      s.pairVal fn (blkOf fn off).1 (blkOf fn off).2 = some v) ∧
    (∃ (fn : Nat) (off : Nat) (v : Nat) (s : State), off % 4 = 0 ∧ s.isPair fn (off + 4) true = true ∧
      s.shows fn (blkOf fn (off + 4)).1 (blkOf fn (off + 4)).2 = true ∧
      s.pairAbove fn (blkOf fn (off + 4)).1 (blkOf fn (off + 4)).2 = some v ∧ tblGet false s.latched (pairKey fn off) = true) ∧
    (∃ (fn : Nat) (off : Nat) (v : Nat) (s : State), off % 4 = 0 ∧ s.isPair fn (off + 4) true = true ∧
      s.shows fn (blkOf fn (off + 4)).1 (blkOf fn (off + 4)).2 = true ∧
      s.pairAbove fn (blkOf fn (off + 4)).1 (blkOf fn (off + 4)).2 = some v ∧ tblGet false s.latched (pairKey fn off) = false) ∧
    (∃ (fn : Nat) (off : Nat) (v : Nat) (s : State), off % 8 = 0 ∧ off < barSize fn ∧
      s.shows fn (blkOf fn off).1 (blkOf fn off).2 = true ∧ s.pairVal fn (blkOf fn off).1 (blkOf fn off).2 = some v ∧
      s.isPair fn (off + 4) true = true ∧ s.shows fn (blkOf fn (off + 4)).1 (blkOf fn (off + 4)).2 = true) ∧
    (∃ (fn : Nat) (off : Nat) (s : State), s.pairWritable fn off = true ∧ s.pairFree fn (blkOf fn off).2 = true) ∧
    (∃ (fn : Nat) (off : Nat) (lo : Word) (s : State), s.pairWritable fn off = true ∧ s.pairFree fn (blkOf fn off).2 = true ∧
      (blkOf fn off).2 ≠ 0xCC ∧
      ((s.heldLow fn (pageOff fn (blkOf fn off).2) = some lo ∨ s.heldLow fn (pageOff fn (blkOf fn off).2) = none ∧
      lo = BitVec.ofNat 32 ((s.pagePair fn (blkOf fn off).2).getD 0)))) ∧
    (∃ (fn : Nat) (off : Nat) (s : State), off % 8 = 0 ∧ off < barSize fn ∧ s.pairWritable fn off = true ∧
      s.pairFree fn (blkOf fn off).2 = true ∧ (blkOf fn off).2 ≠ 0xCC ∧ blkOf fn (off + 4) = (.page, (blkOf fn off).2 + 4) ∧
      s.pairTakes fn ((blkOf fn off).2 + 4) = false) ∧
    (∃ (fn : Nat) (off : Nat) (s : State), s.pairWritable fn off = true ∧ s.pairFree fn (blkOf fn off).2 = false) :=
  ⟨⟨0, 0x2400008, 1000000, tLive, by decide +kernel⟩,
    ⟨0, 0x2400008, 1000000, { tLive with latched := [(0x2400008, true)], latches := [(0x2400008, 7)] }, by decide +kernel⟩,
    ⟨0, 0x2400008, 1000000, tLive, by decide +kernel⟩,
    ⟨0, 0x2400008, 1000000, tLive, by decide +kernel⟩,
    ⟨1, 0x22010, tLive, by decide +kernel⟩,
    ⟨0, 0x2400010, 0x7000, { tLive with heldW := [(0x2400010, 0x7000)], heldV := [(0x2400010, true)] }, by decide +kernel⟩,
    ⟨0, 0x2400010, tLive, by decide +kernel⟩,
    ⟨0, 0x2400010, tLive.modAdmQ 0 fun a => { a with enable := true }, by decide +kernel⟩⟩

theorem test_met_RegisterAccesses :
    (∃ (fn : Nat) (off : Nat) (be : BitVec 4) (v : List Word) (s : State), off < barSize fn ∧ s.fnAnswers fn = true ∧ v ≠ [] ∧
      (be ≠ 15 ∨ off % (4 * v.length) ≠ 0)) ∧
    (∃ (fn : Nat) (off : Nat) (len : Nat) (s : State), off < barSize fn ∧ s.fnAnswers fn = true ∧ naturally off len = false) ∧
    (∃ (fn : Nat) (off : Nat) (s : State), s.shows fn (blkOf fn (off / 4 * 4)).1 (blkOf fn (off / 4 * 4)).2 = false) ∧
    (∃ (fn : Nat) (off : Nat) (s : State), off < barSize fn ∧ off % 4 = 0 ∧ s.takes fn (blkOf fn off).1 (blkOf fn off).2 = false) ∧
    (∃ (s : State), s.shows 0 .hlu 0x18 = true) ∧
    (∃ (s : State), s.shows 0 .qe 0x1C = true) ∧
    (∃ (n : Nat) (s : State), n < 256 ∧ s.shows 0 .fcl (0x400 + 4 * n) = true) ∧
    (∃ (off : Nat), off < 0x100000 ∧ off % 4 = 0) ∧
    (∃ (s : State), s.takes 0 .qe 0 = true) ∧
    (∃ (s : State), s.takes 0 .ctx 0 = true) ∧
    (∃ (s : State), s.takes 0 .hlu 0xC = true) ∧
    (∃ (k : Nat) (s : State), k < 16 ∧ s.takes 0 (.drs k) 0x40 = true ∧ s.boot.protLock = true) :=
  ⟨⟨1, 0x20004, 15, [3, 4], tLive, by decide +kernel⟩,
    ⟨0, 0x2400008, 3, tLive, by decide +kernel⟩,
    ⟨1, 0x20000, State.reset, by decide +kernel⟩,
    ⟨0, 0xB00040, tLive.modFcl fun f => { f with inSafe := true }, by decide +kernel⟩,
    ⟨tLive.modHlu fun h => { h with biCount := 9 }, by decide +kernel⟩,
    ⟨{ tLive with qe := { tLive.qe with malformed := 9 } }, by decide +kernel⟩,
    ⟨255, tLive.modFcl fun f => { f with count := [(255, 4)] }, by decide +kernel⟩,
    ⟨0xFFFFC, by decide +kernel⟩,
    ⟨tLive, by decide +kernel⟩,
    ⟨tLive, by decide +kernel⟩,
    ⟨tLive.modHlu fun h => { h with stepped := true }, by decide +kernel⟩,
    ⟨15, tLive, by decide +kernel⟩⟩

/-! ### Ill-formed commands, at least one for each check of WellFormed.lean, beside the last well-formed value -/

theorem test_wf_functions_offsets_queues :
    [Instr.imbClaim 64, .flr 64, .createQueue 64 0, .rcRead 64 0, .rcRead 0 0x4000000, .regWrite 1 0x40000 15 [0], .chainTmo 65536,
      .encodePicture 65536 0, .wqDoorbell 0 65536 0 0, .wqDoorbell 1 2048 0 0, .wqDoorbell 1 0 64 0,
      .entryFetch 0 true (List.replicate 17 ⟨0, true, []⟩), .rcuPlanRequest (2 ^ 20) 0, .electrumLineError (2 ^ 20)].all
        (fun c => !c.wf) = true ∧
    [Instr.imbClaim 63, .rcRead 0 0x3FFFFFF, .regWrite 1 0x3FFFF 15 [0], .chainTmo 65535, .wqDoorbell 1 2047 63 0,
      .rcuPlanRequest (2 ^ 20 - 1) 0].all Instr.wf = true := by decide +kernel

theorem test_wf_cores_lanes_engines :
    [Instr.fenceDec 64 false, .clockChange 0 2048, .waitWatchdog 128, .preloadDone 0 2, .machineCheck 0 256 0, .rcacheParity 8 0,
      .clusterPortError 8, .portGrant 0 [(17, tTxn)], .unitDispatch 4096, .gateClaim 8, .mauParity 8, .pcfParity 16,
      .nitinolEngineError 32 false 0, .mauUnitDone 0 ⟨true, []⟩ [[4096]], .pcfPassDone 16 [] [] false].all (fun c => !c.wf) = true ∧
    [Instr.fenceDec 63 false, .waitWatchdog 127, .preloadDone 127 1, .rcacheParity 7 0, .unitDispatch 4095, .gateClaim 7, .mauParity 7,
      .pcfParity 15, .nitinolEngineError 31 false 0, .mauUnitDone 0 ⟨true, []⟩ [[4095]], .pcfPassDone 15 [] [] false].all Instr.wf = true := by decide +kernel

/-- A coded picture of CTUs of 8 samples. -/
def tBadPic : PicInfo :=
  { unit_ := 0, needs := [], ptype := 0, order := 0, width := 64, height := 64, codedW := 64, codedH := 64, cropX := 0, cropY := 0, ctuSize := 8,
    tileCols := 1, tileRows := 1, cavlc := false, edge := 0, segs := [], wavefront := false, shown := true, isRef := true, showExisting := none,
    refs := [], dropRefs := [], prior := none, leading := false, frameNum := 0, slices := [0], dataEnd := 64, damages := [], preds := [],
    blkIntra := 0, blkSkip := 0, qpMax := 0, qpMin := 0, qpAvg := 0, renderW := 64, renderH := 64, maxFall := 0, maxCll := 0, grain := false,
    grainP := [], hash := none, trailing := false, field := false, parity := 0, second := false, superres := false, headerBytes := 0,
    codedBytes := 0 }

theorem test_wf_datapaths_pictures_tiles :
    [Instr.microwordIssue 0 { tIssue with fifoWord := some (0, 5) }, .microwordIssue 0 { tIssue with tail := some (0, [(64, 0)]) },
      .decodeAu 0 0 { tAu with pics := [tBadPic] }, .tileRead { tTile with chroma := 4 },
      .tileRead { tTile with base := 2 ^ 48 }, .tileWrite tTile [(256, 0)], .tileWrite tTile [(0, 4096)]].all (fun c => !c.wf) = true ∧
    [Instr.microwordIssue 0 tIssue, .decodeAu 0 0 { tAu with pics := [{ tBadPic with ctuSize := 16 }] }, .tileRead tTile, .tileWrite tTile [(255, 4095)]].all Instr.wf = true := by
  decide +kernel

theorem test_wf_memory_mover :
    [Instr.dramCommand 16, .backoffExpiry 0 14, .refreshDue 0 4, .ingressGrant 0 [{ tTxn with port := 14 }],
      .ingressGrant 0 [{ tTxn with granules := 0 }], .ingressGrant 0 [{ tTxn with addr := 16 }], .dmvChDb 0 32 0,
      .descriptorWriteback 256, .dmvBufferParity (.channel 256), .dmvBufferParity (.copy 65536 0), .dmvBufferParity (.demand 128),
      .demandRead 0 2 0 64, .demandRead 0 0 0 63, .demandRead 0 0 0 4097, .demandWrite 0 16 0 [0], .demandWrite 0 0 0 [],
      .demandWrite 0 0 0 (List.replicate 65 0), .poolArbitration 256].all (fun c => !c.wf) = true ∧
    [Instr.dramCommand 15, .backoffExpiry 15 13, .refreshDue 15 3, .ingressGrant 15 [tTxn], .dmvChDb 63 31 0, .descriptorWriteback 255,
      .dmvBufferParity (.demand 127), .demandRead 0 1 0 4096, .demandWrite 0 15 0 (List.replicate 64 0)].all Instr.wf = true := by
  decide +kernel

theorem test_wf_link_interrupts_board :
    [Instr.sourceAssert 448 true, .sourceAssert 768 true, .imbLsrcB 0 256 0, .msixUnmask 0 2048, .msixUnmask 1 64,
      .mbxOutSlot (.vf 0) 0 0 0, .mbxOutSlot (.pf0Vf 64) 0 0 0, .mbxOutSlot .pf0 8 0 0, .mbxOutSlot .fw 0 4 0, .mbxTimeout .fw 32,
      .semAcquire 68 0, .semAcquire 0 64, .perstDeassert { tBoard with dimms := [] },
      .perstDeassert { tBoard with dimms := List.replicate 16 ⟨true, 2, 0, 2, 0, true⟩ }, .linkTrained ⟨4, 6, 16, true, 512⟩,
      .linkTrained ⟨3, 0, 16, true, 512⟩, .linkTrained ⟨3, 6, 17, true, 512⟩, .vfEnableSet 64, .l0pReduce 101 0, .hdmDecoderCommit 4 0 0 0,
      .cxlMemRead 63 true, .cxlMemWrite 64 [] false, .bisnpResponse 1 none, .hostBiasResponse 0 (some []), .ideKeyProgram 5,
      .spdmRequest 256 0 false, .lockstepMismatch 2, .thermalReading [40], .fwInfo ⟨8, []⟩, .tgtRead 256].all (fun c => !c.wf) = true ∧
    [Instr.sourceAssert 447 true, .sourceAssert 512 true, .imbLsrcB 63 255 0, .msixUnmask 0 2047, .msixUnmask 63 63, .mbxOutSlot (.vf 63) 7 3 0,
      .semAcquire 67 63, .perstDeassert tBoard, .linkTrained ⟨3, 6, 16, true, 512⟩, .cxlMemRead 64 true, .hostBiasResponse 64 none,
      .fwInfo ⟨7, []⟩, .tgtRead 255].all Instr.wf = true := by decide +kernel

/-! ### Worked figures of the spec -/

/-- Parameters of a session of a size. -/
def tSize (w h : Nat) : Params := { Params.init with maxW := w, maxH := h, chroma := 1 }

/-- 02_sessions.md: the 1080p reference slot; R219's example: the 1080p analysis slot; R329's example: the 720p rendition. -/
theorem test_reservations :
    refSlotSize (tSize 1920 1080) = 4825088 ∧ anaSlotSize (tSize 1920 1080) = 294912 ∧
    reserveBytes { tSize 1280 720 with
      encode := true, codec := 1, gangMax := 3, dpbSlots := 5, depthY := 10, depthC := 10, block := BitVec.ofNat 7680 (2 ^ 128) } =
      [10731520, 0, 2949120, 0] := by decide +kernel

/-- R78's example: both budgets; R81's example: the estimate; R280's example: the correction. -/
theorem test_budget_and_estimate :
    budgetOf 2 368640 245760 30000 1024 = 597904 ∧ budgetOf 2 368640 245760 200000 1024 = 692224 ∧
    estCycles 400 4 368640 30000 85 256 = 246160 ∧ corrected 256 585000 450000 = 265 := by decide +kernel

/-- The 04_control_store.md example's words. -/
theorem test_microwords :
    (mNano 0x2B752120, mNext 0x2B752120, mCond 0x2B752120, mWait 0x2B752120, mCkpt 0x2B752120) = (0x2B7, 0xA42, 8, false, false) ∧
    (mNano 0xFC1F8200, mNext 0xFC1F8200, mCond 0xFC1F8200, mCkpt 0xFC1F8200) = (0xFC1, 0x1F04, 0, false) ∧
    (mNano 0x1A052801, mNext 0x1A052801, mCond 0x1A052801, mCkpt 0x1A052801) = (0x1A0, 0xA50, 0, true) := by decide +kernel

/-- R236's example: the PF_420SP10X3 picture; R166's: the map's row; R225's: the scene score after a hard cut. -/
theorem test_pictures :
    hostSize 2 1920 1080 = 4149248 ∧ (tSize 1920 1080).mapStride = 32 ∧ (tSize 1920 1080).mapRows = 68 ∧
    sceneScore false [⟨(0, 0), (0, 0), 2400000, 0, 9600000, 0⟩] = 0 ∧
      sceneScore false [⟨(0, 0), (0, 0), 8330000, 0, 9800000, 0⟩] = 179 := by
  decide +kernel

/-- Table 10-4: the stored bytes of the example tile. -/
theorem test_tile :
    encodeTile false ((List.range 256).map fun i => (100 + i / 32) * 4) =
      (1, [0x02, 0x0A, 0, 0, 0, 0x02, 0, 0, 0, 0x64, 0x02, 0, 0, 0, 1, 0, 0, 0, 0, 1, 0, 0, 0, 0, 1, 0, 0, 0, 0, 1, 1, 1, 1]
        ++ List.replicate 31 0) := by decide +kernel

/-- R264's example: positions and phases of column 1. -/
theorem test_scaling :
    let y : Axis := { ci := 1920, ao := 1280, d := 1, si := 1, so := 1, hi := 0, ho := 0, n := 1280 }
    let c : Axis := { y with si := 2, so := 2 }
    y.pos 1 = 114688 ∧ y.place 1 = (1, 48) ∧ c.pos 1 = 106496 ∧ c.place 1 = (1, 40) := by decide +kernel

/-- Table 15-1's read bursts; R399's example in 18_memory.md: channel 12 and the channel offset. -/
theorem test_bursts_and_channels :
    burstLen 0x1000000F30 5000 = 208 ∧ burstLen 0x1000001000 4792 = 4096 ∧ burstLen 0x1000002000 696 = 696 ∧
    channelOf 0x12345678000 = 12 ∧ offsetOf 0x12345678000 = 0x1234567000 ∧ addressOf 12 0x1234567000 = 0x12345678000 := by decide +kernel

/-- The state after reset meets the invariant, and a step of its empty queue is one tick of 1 ns. -/
theorem test_reset : State.reset.inv = true ∧ ∃ t, step State.reset = .next t ∧ t.pending = [] := by
  refine ⟨by decide +kernel, ?_⟩
  exact ⟨_, rfl, rfl⟩

/-- The decoded balls that follow R496 in 22_package_electrical.md. -/
theorem test_balls :
    [ball 41 70, ball 5 41, ball 18 32, ball 19 32, ball 4 37, ball 79 1] =
      [some "MC11_B_DQ[18]", some "VDD_HL_A", some "VSS", some "VDD_CC", some "HL_RXN[7]", none] := by decide +kernel
end Sys2Proof.Tests
end

section
/-! PROOFS. Register accesses (R5 to R8, R486): what a read or a write of one register does, and what pairs add to it. -/
namespace Sys2Proof.Machine

/-! ### The commands -/

theorem exec_rcRead (fn off : Nat) (s : State) : exec (.rcRead fn off) s = .next (readOp fn off s) := rfl

theorem exec_pairLowRead (fn off : Nat) (s : State) (h : s.isPair fn off false = true) :
    exec (.pairLowRead fn off) s = .next (readOp fn off s) := by
  have harm : exec (.pairLowRead fn off) s = execPairLowRead fn off s := rfl
  simp [harm, execPairLowRead, onlyIf, h]

theorem exec_pairHighRead (fn off : Nat) (s : State) (h : s.isPair fn off true = true) :
    exec (.pairHighRead fn off) s = .next (readOp fn off s) := by
  have harm : exec (.pairHighRead fn off) s = execPairHighRead fn off s := rfl
  simp [harm, execPairHighRead, onlyIf, h]

theorem exec_unalignedRead (fn off len : Nat) (s : State) (hoff : off < barSize fn) (hlen : len ≠ 0) :
    exec (.unalignedRead fn off len) s = .next (if naturally off len then wideRead fn off len s else unalignedOp fn off s) := by
  have harm : exec (.unalignedRead fn off len) s = execUnalignedRead fn off len s := rfl
  cases hn : naturally off len <;> simp [harm, execUnalignedRead, onlyIf, hoff, hlen, hn]

theorem exec_regWrite (fn off : Nat) (be : BitVec 4) (v : List Word) (s : State) (hoff : off < barSize fn) :
    exec (.regWrite fn off be v) s = .next (writeOp fn off be v s) := by
  have harm : exec (.regWrite fn off be v) s = execRegWrite fn off be v s := rfl
  simp [harm, execRegWrite, onlyIf, hoff]

theorem exec_pairLowWrite (fn off : Nat) (v : Word) (s : State) (h : s.pairWritable fn off = true) :
    exec (.pairLowWrite fn off v) s = .next (pairHoldOp fn (blkOf fn off).2 v s) := by
  have harm : exec (.pairLowWrite fn off v) s = execPairLowWrite fn off v s := rfl
  simp [harm, execPairLowWrite, onlyIf, h]

/-- `off` is the offset of the low word. -/
theorem exec_pairHighWrite (fn off : Nat) (v : Word) (s : State) (h : s.pairWritable fn off = true) :
    exec (.pairHighWrite fn (off + 4) v) s = .next (pairWriteOp fn (blkOf fn off).2 v s) := by
  have harm : exec (.pairHighWrite fn (off + 4) v) s = execPairHighWrite fn (off + 4) v s := rfl
  simp [harm, execPairHighWrite, onlyIf, h]

/-! ### A read of one register -/

theorem wordStart_of_aligned (off : Nat) (h : off % 4 = 0) : off / 4 * 4 = off := Nat.div_mul_cancel (Nat.dvd_of_mod_eq_zero h)

theorem readOp_shown (fn off : Nat) (s : State) (ha : off % 4 = 0) (hs : s.shows fn (blkOf fn off).1 (blkOf fn off).2 = true) :
    readOp fn off s = readWord fn off (blkOf fn off).1 (blkOf fn off).2 s := by
  simp [readOp, wordStart_of_aligned off ha, hs]

theorem readOp_hidden (fn off : Nat) (s : State)
    (hs : s.shows fn (blkOf fn (off / 4 * 4)).1 (blkOf fn (off / 4 * 4)).2 = false) : readOp fn off s = s.withRdata 0 := by
  simp [readOp, hs]

/-- Half of a pair reads without a side effect of its block: the interrupt page and the mailbox pages have no pairs. -/
theorem readWord_of_pair (fn off : Nat) (b : Blk) (o : Nat) (s : State)
    (h : (s.pairVal fn b o).isSome = true ∨ (s.pairAbove fn b o).isSome = true) :
    readWord fn off b o s = plainRead fn off b o s := by
  cases b with
  | irq => simp [State.pairAbove, State.pairVal, State.blockPair] at h
  | mbx d => simp [State.pairAbove, State.pairVal, State.blockPair] at h
  | _ => rfl

theorem readOp_lowWord (fn off v : Nat) (s : State) (ha : off % 4 = 0) (hs : s.shows fn (blkOf fn off).1 (blkOf fn off).2 = true)
    (hv : s.pairVal fn (blkOf fn off).1 (blkOf fn off).2 = some v) : readOp fn off s = pairLowOp fn off v s := by
  rw [readOp_shown fn off s ha hs, readWord_of_pair _ _ _ _ _ (.inl (by simp [hv]))]
  simp [plainRead, hv]

theorem isPair_low (fn off v : Nat) (s : State) (ha : off % 4 = 0)
    (hv : s.pairVal fn (blkOf fn off).1 (blkOf fn off).2 = some v) : s.isPair fn off false = true := by
  simp [State.isPair, wordStart_of_aligned off ha, hv]

theorem isPair_high (fn off : Nat) (s : State) (ha : off % 4 = 0) (h : s.isPair fn off true = true) :
    s.pairVal fn (blkOf fn off).1 (blkOf fn off).2 = none ∧ ∃ v, s.pairAbove fn (blkOf fn off).1 (blkOf fn off).2 = some v := by
  simpa [State.isPair, wordStart_of_aligned off ha, Option.isSome_iff_exists] using h

/-- `off` is the offset of the low word. -/
theorem readOp_highWord (fn off v : Nat) (s : State) (ha : off % 4 = 0)
    (hs : s.shows fn (blkOf fn (off + 4)).1 (blkOf fn (off + 4)).2 = true)
    (hn : s.pairVal fn (blkOf fn (off + 4)).1 (blkOf fn (off + 4)).2 = none)
    (hv : s.pairAbove fn (blkOf fn (off + 4)).1 (blkOf fn (off + 4)).2 = some v) :
    readOp fn (off + 4) s = pairHighOp fn off v s := by
  rw [readOp_shown fn (off + 4) s (by omega) hs, readWord_of_pair _ _ _ _ _ (.inr (by simp [hv]))]
  simp [plainRead, hn, hv]

theorem ofNat_mod_word (w : Word) : BitVec.ofNat 64 (w.toNat % 2 ^ 32) = BitVec.ofNat 64 w.toNat := by
  rw [Nat.mod_eq_of_lt w.isLt]

/-- A register that is no half of a pair, in a block whose reads do nothing but clear its RC registers. -/
theorem exec_rcRead_single (fn off : Nat) (b : Blk) (o : Nat) (w : Word) (s : State) (ha : off % 4 = 0) (hb : blkOf fn off = (b, o))
    (hs : s.shows fn b o = true) (hplain : readWord fn off b o s = plainRead fn off b o s)
    (hn : s.pairVal fn b o = none) (hn' : s.pairAbove fn b o = none) (hw : s.wordVal fn b o = some w.toNat) :
    exec (.rcRead fn off) s = .next ((s.withRdata (BitVec.ofNat 64 w.toNat)).clearRc fn b o) := by
  rw [exec_rcRead, readOp_shown fn off s ha (by simpa [hb] using hs), hb, hplain]
  simp only [plainRead, hn, hn', hw, Option.getD_some, ofNat_mod_word]

/-! ### Latches of the pairs -/

@[simp] theorem pairLowOp_rdata (fn off v : Nat) (s : State) : (pairLowOp fn off v s).rdata = BitVec.ofNat 64 (v % 2 ^ 32) := rfl

theorem pairLowOp_latched (fn off v k : Nat) (s : State) :
    tblGet false (pairLowOp fn off v s).latched k = if pairKey fn off = k then true else tblGet false s.latched k :=
  tblGet_tblSet false s.latched (pairKey fn off) k true

theorem pairLowOp_latches (fn off v k : Nat) (s : State) :
    tblGet 0 (pairLowOp fn off v s).latches k = if pairKey fn off = k then BitVec.ofNat 32 (v / 2 ^ 32) else tblGet 0 s.latches k :=
  tblGet_tblSet 0 s.latches (pairKey fn off) k _

/-- What the high word reads as while a latch is held, and that the latch clears. -/
theorem pairHighOp_latched (fn off v : Nat) (s : State) (h : tblGet false s.latched (pairKey fn off) = true) :
    pairHighOp fn off v s = { s with
      rdata := BitVec.ofNat 64 (tblGet 0 s.latches (pairKey fn off)).toNat
      latches := tblSet 0 s.latches (pairKey fn off) 0
      latched := tblSet false s.latched (pairKey fn off) false } := by
  simp [pairHighOp, h]

theorem pairHighOp_unlatched (fn off v : Nat) (s : State) (h : tblGet false s.latched (pairKey fn off) = false) :
    pairHighOp fn off v s = s.withRdata (BitVec.ofNat 64 (v / 2 ^ 32 % 2 ^ 32)) := by
  simp [pairHighOp, h]

/-! ### What the latches and the held words leave alone -/

theorem fnRec_congr {s t : State} (h : t.boot = s.boot) (f : Nat) : t.fnRec f = s.fnRec f := by simp only [State.fnRec, h]

/-- Where a function's channels begin is the image's to say. -/
theorem chanBase_congr {s t : State} (h : t.boot = s.boot) (f : Nat) : t.chanBase f = s.chanBase f := by
  induction f with
  | zero => rfl
  | succ f ih => simp only [State.chanBase, ih, fnRec_congr h]

theorem chanAt_congr {s t : State} (h : t.boot = s.boot) (fn o : Nat) : t.chanAt fn o = s.chanAt fn o := by
  simp only [State.chanAt, State.chanOf, chanBase_congr h, fnRec_congr h]

/-- A read of a low word changes neither what a register holds nor whether it shows. -/
theorem shows_afterLow (fn off v g o : Nat) (b : Blk) (x : DWord) (s : State) :
    ((pairLowOp fn off v s).withRdata x).shows g b o = s.shows g b o := rfl

theorem pairVal_afterLow (fn off v g o : Nat) (b : Blk) (x : DWord) (s : State) :
    ((pairLowOp fn off v s).withRdata x).pairVal g b o = s.pairVal g b o := by
  have hc (p : Nat) : ((pairLowOp fn off v s).withRdata x).chanAt g p = s.chanAt g p := chanAt_congr (by rfl) g p
  cases b with
  | page => simp only [State.pairVal, State.pagePair, hc]; rfl
  | _ => rfl

theorem pairAbove_afterLow (fn off v g o : Nat) (b : Blk) (x : DWord) (s : State) :
    ((pairLowOp fn off v s).withRdata x).pairAbove g b o = s.pairAbove g b o := by
  simp only [State.pairAbove, pairVal_afterLow]

/-! ### An aligned read of 8 bytes at a pair -/

/-- The two words of an 8-byte read join to the pair's value. -/
theorem join_words (v : Nat) (x : DWord) :
    BitVec.ofNat 64 ((BitVec.ofNat 64 (x.toNat / 2 ^ 32 + (BitVec.ofNat 64 (v % 2 ^ 32)).toNat % 2 ^ 32 * 2 ^ 32)).toNat / 2 ^ 32
      + (BitVec.ofNat 64 (BitVec.ofNat 32 (v / 2 ^ 32)).toNat).toNat % 2 ^ 32 * 2 ^ 32) = BitVec.ofNat 64 v := by
  have hx : x.toNat < 2 ^ 64 := x.isLt
  apply BitVec.eq_of_toNat_eq
  simp only [BitVec.toNat_ofNat]
  omega

/-- The high word that follows a read of the low word is the latch. -/
theorem pairHighOp_afterLow (fn off v w : Nat) (x : DWord) (s : State) :
    ∃ l d, pairHighOp fn off w ((pairLowOp fn off v s).withRdata x)
      = { s with rdata := BitVec.ofNat 64 (BitVec.ofNat 32 (v / 2 ^ 32)).toNat, latches := l, latched := d } := by
  have hlatched : tblGet false ((pairLowOp fn off v s).withRdata x).latched (pairKey fn off) = true := by
    simp [pairLowOp_latched]
  have hlatch : tblGet 0 ((pairLowOp fn off v s).withRdata x).latches (pairKey fn off) = BitVec.ofNat 32 (v / 2 ^ 32) := by
    simp only [withRdata_latches, pairLowOp_latches, if_true]
  rw [pairHighOp_latched _ _ _ _ hlatched, hlatch]
  exact ⟨_, _, rfl⟩

/-- The two reads of an aligned 8-byte read at a pair return its 64 bits, and touch the latches alone. -/
theorem readWords_two_at_pair (fn off v : Nat) (s : State) (ha : off % 4 = 0)
    (hlow : s.shows fn (blkOf fn off).1 (blkOf fn off).2 = true)
    (hv : s.pairVal fn (blkOf fn off).1 (blkOf fn off).2 = some v) (hp : s.isPair fn (off + 4) true = true)
    (hhigh : s.shows fn (blkOf fn (off + 4)).1 (blkOf fn (off + 4)).2 = true) :
    ∃ l d, readWords fn off 2 s = { s with rdata := BitVec.ofNat 64 v, latches := l, latched := d } := by
  obtain ⟨hn, w, hw⟩ := isPair_high fn (off + 4) s (by omega) hp
  have hsecond (x : DWord) : readOp fn (off + 4) ((pairLowOp fn off v s).withRdata x)
      = pairHighOp fn off w ((pairLowOp fn off v s).withRdata x) := by
    apply readOp_highWord fn off w _ ha
    · rw [shows_afterLow, hhigh]
    · rw [pairVal_afterLow, hn]
    · rw [pairAbove_afterLow, hw]
  simp only [readWords, readOp_lowWord fn off v s ha hlow hv, hsecond, pairLowOp_rdata]
  obtain ⟨l, d, hread⟩ := pairHighOp_afterLow fn off v w
    (BitVec.ofNat 64 (s.rdata.toNat / 2 ^ 32 + (BitVec.ofNat 64 (v % 2 ^ 32)).toNat % 2 ^ 32 * 2 ^ 32)) s
  exact ⟨l, d, by rw [hread]; simp only [State.withRdata, join_words]⟩

theorem wideRead_pair (fn off : Nat) (s : State) : wideRead fn off 8 s = readWords fn off 2 s := rfl

theorem naturally_eight (off : Nat) (h : off % 8 = 0) : naturally off 8 = true := by simp [naturally, h]

/-! ### Held low words -/

theorem heldLow_holdLow (fn k : Nat) (v : Word) (s : State) : (s.holdLow fn k v).heldLow fn k = some v := by
  simp [State.heldLow, State.holdLow]

theorem heldLow_holdLow_other (fn k g o : Nat) (v : Word) (s : State) (h : pairKey g o ≠ pairKey fn k) :
    (s.holdLow fn k v).heldLow g o = s.heldLow g o := by
  simp [State.heldLow, State.holdLow, tblGet_tblSet, h.symm]

theorem heldLow_dropHeld (fn k : Nat) (s : State) : (s.dropHeld fn k).heldLow fn k = none := by
  simp [State.heldLow, State.dropHeld]

theorem pairTakes_holdLow (fn k g o : Nat) (v : Word) (s : State) : (s.holdLow fn k v).pairTakes g o = s.pairTakes g o := by
  have hc (p : Nat) : (s.holdLow fn k v).chanAt g p = s.chanAt g p := chanAt_congr (by rfl) g p
  simp only [State.pairTakes, hc]

theorem pairFree_holdLow (fn k g o : Nat) (v : Word) (s : State) : (s.holdLow fn k v).pairFree g o = s.pairFree g o := by
  have hc (p : Nat) : (s.holdLow fn k v).chanAt g p = s.chanAt g p := chanAt_congr (by rfl) g p
  simp only [State.pairFree, hc]; rfl

/-- A pair's 64-bit write does not depend on the held low words. -/
theorem putPair_withHeld (fn o : Nat) (x : DWord) (s : State) (hw : Tbl Word) (hv : Tbl Bool) :
    State.putPair { s with heldW := hw, heldV := hv } fn o x = { s.putPair fn o x with heldW := hw, heldV := hv } := by
  have hc : State.chanBase { s with heldW := hw, heldV := hv } fn = s.chanBase fn := chanBase_congr (by rfl) fn
  simp only [State.putPair, chBaseOp, State.chanOf, hc]
  split <;> rfl

theorem putPair_heldLow (fn o g k : Nat) (x : DWord) (s : State) : (s.putPair fn o x).heldLow g k = s.heldLow g k := by
  unfold State.putPair
  split <;> rfl

/-! ### A write of one register, and of a pair -/

theorem pairWritable_iff (fn off : Nat) (s : State) : s.pairWritable fn off = true ↔
    (blkOf fn off).1 = .page ∧ s.pairTakes fn (blkOf fn off).2 = true ∧ s.takes fn (blkOf fn off).1 (blkOf fn off).2 = true := by
  simp [State.pairWritable, and_assoc]

theorem pairHoldOp_free (fn o : Nat) (v : Word) (s : State) (h : s.pairFree fn o = true) :
    pairHoldOp fn o v s = s.holdLow fn (pageOff fn o) v := by simp [pairHoldOp, h]

theorem pairHoldOp_locked (fn o : Nat) (v : Word) (s : State) (h : s.pairFree fn o = false) : pairHoldOp fn o v s = s := by
  simp [pairHoldOp, h]

theorem ofNat_high_low (v lo : Word) : BitVec.ofNat 64 (v.toNat * 2 ^ 32 + lo.toNat) = (v ++ lo : DWord) := by
  have hlo : lo.toNat < 2 ^ 32 := lo.isLt
  apply BitVec.eq_of_toNat_eq
  rw [BitVec.toNat_append, ← Nat.shiftLeft_add_eq_or_of_lt hlo, Nat.shiftLeft_eq, BitVec.toNat_ofNat]
  omega

/-- The low word that a write of the high word joins: the held one, else the current one. -/
def State.joins (s : State) (fn o : Nat) (lo : Word) : Prop :=
  s.heldLow fn (pageOff fn o) = some lo
    ∨ s.heldLow fn (pageOff fn o) = none ∧ lo = BitVec.ofNat 32 ((s.pagePair fn o).getD 0)

theorem toNat_of_joins (fn o : Nat) (lo : Word) (s : State) (h : s.joins fn o lo) :
    ((s.heldLow fn (pageOff fn o)).map BitVec.toNat).getD (((s.pagePair fn o).getD 0) % 2 ^ 32) = lo.toNat := by
  obtain hheld | ⟨hnone, rfl⟩ := h
  · simp [hheld]
  · simp [hnone]

theorem pairWriteOp_free (fn o : Nat) (v lo : Word) (s : State) (ho : o ≠ 0xCC) (hfree : s.pairFree fn o = true)
    (hlo : s.joins fn o lo) : pairWriteOp fn o v s = (s.dropHeld fn (pageOff fn o)).putPair fn o (v ++ lo) := by
  simp only [pairWriteOp, if_neg ho, toNat_of_joins fn o lo s hlo, hfree, if_true, ofNat_high_low]

/-- A pair that ENABLE locks keeps its value; BPM_FREE is none. -/
theorem pairWriteOp_locked (fn o : Nat) (v : Word) (s : State) (h : s.pairFree fn o = false) :
    pairWriteOp fn o v s = s.dropHeld fn (pageOff fn o) := by
  have ho : o ≠ 0xCC := by rintro rfl; simp [State.pairFree] at h
  simp [pairWriteOp, ho, h]

theorem pairWriteOp_heldLow (fn o : Nat) (v lo : Word) (s : State) (ho : o ≠ 0xCC) (hfree : s.pairFree fn o = true)
    (hlo : s.joins fn o lo) : (pairWriteOp fn o v s).heldLow fn (pageOff fn o) = none := by
  rw [pairWriteOp_free fn o v lo s ho hfree hlo, putPair_heldLow, heldLow_dropHeld]

/-- The write takes effect, and otherwise changes held words alone. -/
theorem pairWriteOp_frame (fn o : Nat) (v lo : Word) (s : State) (ho : o ≠ 0xCC) (hfree : s.pairFree fn o = true)
    (hlo : s.joins fn o lo) : ∃ hw hv, pairWriteOp fn o v s = { s.putPair fn o (v ++ lo) with heldW := hw, heldV := hv } := by
  rw [pairWriteOp_free fn o v lo s ho hfree hlo]
  exact ⟨_, _, putPair_withHeld ..⟩

theorem putPair_admBase (fn : Nat) (x : DWord) (s : State) : (s.putPair fn 0x10 x).admQ fn = { s.admQ fn with base := x } :=
  modAdmQ_admQ ..

theorem putPair_admRes (fn : Nat) (x : DWord) (s : State) : (s.putPair fn 0x18 x).admQ fn = { s.admQ fn with res := x } :=
  modAdmQ_admQ ..

theorem putPair_admSb (fn : Nat) (x : DWord) (s : State) : (s.putPair fn 0x20 x).admQ fn = { s.admQ fn with sb := x } :=
  modAdmQ_admQ ..

theorem oneWrite_taken (fn off : Nat) (b : Blk) (o : Nat) (v : Word) (s : State) (hb : blkOf fn off = (b, o))
    (h : s.takes fn b o = true) : oneWrite fn off v s = writeWord fn off b o v s := by simp [oneWrite, hb, h]

theorem oneWrite_discarded (fn off : Nat) (v : Word) (s : State) (h : s.takes fn (blkOf fn off).1 (blkOf fn off).2 = false) :
    oneWrite fn off v s = s := by simp [oneWrite, h]

theorem writeOp_one (fn off : Nat) (v : Word) (s : State) (h : off % 4 = 0) : writeOp fn off 15 [v] s = oneWrite fn off v s := by
  simp [writeOp, h]

theorem writeOp_two (fn off : Nat) (v w : Word) (s : State) (h : off % 8 = 0) :
    writeOp fn off 15 [v, w] s = oneWrite fn (off + 4) w (oneWrite fn off v s) := by simp [writeOp, h]

theorem writeOp_refused (fn off : Nat) (be : BitVec 4) (v : List Word) (s : State) (hfn : s.fnAnswers fn = true) (hv : v ≠ [])
    (h : be ≠ 15 ∨ off % (4 * v.length) ≠ 0) : writeOp fn off be v s = s.reportAccess fn off := by
  have hlen : max 1 v.length = v.length := max_eq_right (List.length_pos_iff.2 hv)
  have hbad : (be != 15 || off % (4 * max 1 v.length) != 0 || decide (2 < v.length)) = true := by
    obtain hbe | hoff := h
    · simp only [bne_iff_ne.2 hbe, Bool.true_or]
    · simp [hlen, hoff]
  simp only [writeOp, hbad, hfn, if_true]

/-- Whether the function page takes a write does not depend on the offset, nor on held words. -/
theorem takes_page_holdLow (fn k o o' : Nat) (v : Word) (s : State) : (s.holdLow fn k v).takes fn .page o = s.takes fn .page o' := rfl

theorem writeWord_pageLow (fn off o : Nat) (v : Word) (s : State) (h : s.pairTakes fn o = true) :
    writeWord fn off .page o v s = pairHoldOp fn o v s := by simp [writeWord, h]

/-- `o` is the offset of the pair's low word, `off` that of its high word in the BAR. -/
theorem writeWord_pageHigh (fn off o : Nat) (v : Word) (s : State) (h : s.pairTakes fn o = true)
    (h' : s.pairTakes fn (o + 4) = false) : writeWord fn off .page (o + 4) v s = pairWriteOp fn o v s := by simp [writeWord, h, h']

/-- An aligned 8-byte write of a pair of the page: the low word is held, and joins the high word at once. -/
theorem writeOp_pair (fn off : Nat) (v w : Word) (s : State) (ha : off % 8 = 0) (hw : s.pairWritable fn off = true)
    (hfree : s.pairFree fn (blkOf fn off).2 = true) (hb : blkOf fn (off + 4) = (.page, (blkOf fn off).2 + 4))
    (hn : s.pairTakes fn ((blkOf fn off).2 + 4) = false) :
    writeOp fn off 15 [v, w] s
      = pairWriteOp fn (blkOf fn off).2 w (s.holdLow fn (pageOff fn (blkOf fn off).2) v) := by
  obtain ⟨hpage, hpair, htakes⟩ := (pairWritable_iff fn off s).1 hw
  have hb0 : blkOf fn off = (.page, (blkOf fn off).2) := Prod.ext hpage rfl
  rw [hpage] at htakes
  rw [writeOp_two fn off v w s ha, oneWrite_taken _ _ _ _ _ _ hb0 htakes, writeWord_pageLow _ _ _ _ _ hpair,
    pairHoldOp_free _ _ _ _ hfree, oneWrite_taken _ _ _ _ _ _ hb ((takes_page_holdLow ..).trans htakes), writeWord_pageHigh]
  · rw [pairTakes_holdLow, hpair]
  · rw [pairTakes_holdLow, hn]

/-! ### The records of refused accesses -/

theorem reportAccess_records (fn off : Nat) (s : State) : Records s (s.reportAccess fn off) 0x20 3 :=
  ⟨_, rfl, rfl, rfl, rfl⟩

theorem reportAccess_frame (fn off : Nat) (s : State) :
    s.reportAccess fn off = { s with fcl := (s.reportAccess fn off).fcl } := rfl

theorem length_ne_zero_of_not_naturally (off len : Nat) (h : naturally off len = false) : len ≠ 0 := by
  rintro rfl
  simp [naturally] at h

theorem unalignedOp_answered (fn off : Nat) (s : State) (h : s.fnAnswers fn = true) :
    unalignedOp fn off s = (s.withRdata 0).reportAccess fn off := if_pos h

/-! ### The statement about pairs -/

/-- Settles O59: the reads by what the latch holds, the writes by whether ENABLE locks the pair. -/
theorem registerPairs : Obligations.RegisterPairs := by
  unfold Obligations.RegisterPairs
  refine ⟨?lowRead, ?highRead, ?wideRead, ?lowWrite, ?highWrite, ?wideWrite, ?locked⟩
  case lowRead =>
    intro fn off v s ha hs hv
    rw [exec_pairLowRead fn off s (isPair_low fn off v s ha hv), readOp_lowWord fn off v s ha hs hv]
    refine ⟨_, rfl, rfl, ?_, ?_, fun k hk => ⟨?_, ?_⟩, rfl⟩
    · rw [pairLowOp_latched, if_pos rfl]
    · rw [pairLowOp_latches, if_pos rfl]
    · rw [pairLowOp_latched, if_neg hk.symm]
    · rw [pairLowOp_latches, if_neg hk.symm]
  case highRead =>
    intro fn off v s ha hp hs hv
    have hread : exec (.pairHighRead fn (off + 4)) s = .next (pairHighOp fn off v s) := by
      rw [exec_pairHighRead fn (off + 4) s hp, readOp_highWord fn off v s ha hs (isPair_high fn (off + 4) s (by omega) hp).1 hv]
    refine ⟨fun hl => ?_, fun hl => by rw [hread, pairHighOp_unlatched fn off v s hl]⟩
    rw [hread, pairHighOp_latched fn off v s hl]
    exact ⟨_, rfl, rfl, by simp, fun k hk => by simp [tblGet_tblSet, hk.symm], rfl⟩
  case wideRead =>
    intro fn off v s ha hoff hs hv hp hs'
    obtain ⟨l, d, hread⟩ := readWords_two_at_pair fn off v s (by omega) hs hv hp hs'
    rw [exec_unalignedRead fn off 8 s hoff (by decide), if_pos (naturally_eight off ha), wideRead_pair, hread]
    exact ⟨_, rfl, rfl, rfl⟩
  case lowWrite =>
    intro fn off v s hw hfree
    rw [exec_pairLowWrite fn off v s hw, pairHoldOp_free _ _ _ _ hfree]
    exact ⟨_, rfl, heldLow_holdLow .., fun g o h => heldLow_holdLow_other _ _ _ _ _ _ h, rfl⟩
  case highWrite =>
    intro fn off v lo s hw hfree ho hlo
    refine ⟨_, exec_pairHighWrite fn off v s hw, pairWriteOp_heldLow _ _ _ _ _ ho hfree hlo, ?_⟩
    obtain ⟨words, flags, hput⟩ := pairWriteOp_frame _ _ v lo s ho hfree hlo
    rw [hput]
    refine ⟨rfl, fun h => ?_, fun h => ?_, fun h => ?_⟩ <;> rw [h]
    · exact putPair_admBase ..
    · exact putPair_admRes ..
    · exact putPair_admSb ..
  case wideWrite =>
    intro fn off v w s ha hoff hw hfree ho hb hn
    have hfree' := (pairFree_holdLow fn (pageOff fn (blkOf fn off).2) fn (blkOf fn off).2 v s).trans hfree
    have hlo : (s.holdLow fn (pageOff fn (blkOf fn off).2) v).joins fn (blkOf fn off).2 v := .inl (heldLow_holdLow ..)
    rw [exec_regWrite fn off 15 [v, w] s hoff, writeOp_pair fn off v w s ha hw hfree hb hn]
    refine ⟨_, rfl, pairWriteOp_heldLow _ _ _ _ _ ho hfree' hlo, ?_⟩
    obtain ⟨words, flags, hput⟩ := pairWriteOp_frame _ _ w v _ ho hfree' hlo
    rw [hput, State.holdLow, putPair_withHeld]
  case locked =>
    intro fn off v s hw hfree
    rw [exec_pairLowWrite fn off v s hw, pairHoldOp_locked _ _ _ _ hfree, exec_pairHighWrite fn off v s hw,
      pairWriteOp_locked _ _ _ _ hfree]
    exact ⟨rfl, _, rfl, rfl⟩

/-! ### Reads of RC registers and writes by access code -/

theorem blkOf_count (n : Nat) (h : n < 256) : blkOf 0 (0xD00400 + 4 * n) = (.fcl, 0x400 + 4 * n) := by
  have hdiv : (0xD00400 + 4 * n) / 0x100000 = 13 := by omega
  have hmod : (0xD00400 + 4 * n) % 0x100000 = 0x400 + 4 * n := by omega
  have hlt : 0xD00400 + 4 * n < 0x1000000 := by omega
  simp only [blkOf, beq_self_eq_true, if_true, blkPf, hdiv, hmod, hlt]

theorem blkOf_csc (off : Nat) (h : off < 0x100000) : blkOf 0 off = (.csc, off) := by
  have hdiv : off / 0x100000 = 0 := by omega
  have hmod : off % 0x100000 = off := by omega
  have hlt : off < 0x1000000 := by omega
  simp only [blkOf, beq_self_eq_true, if_true, blkPf, hdiv, hmod, hlt]

theorem blkOf_thresh (k : Nat) (h : k < 16) : blkOf 0 (0xB00040 + 0x10000 * k) = (.drs k, 0x40) := by
  have hdiv : (0xB00040 + 0x10000 * k) / 0x100000 = 11 := by omega
  have hk : (0xB00040 + 0x10000 * k) % 0x100000 / 0x10000 = k := by omega
  have hmod : (0xB00040 + 0x10000 * k) % 0x100000 % 0x10000 = 0x40 := by omega
  have hlt : 0xB00040 + 0x10000 * k < 0x1000000 := by omega
  simp only [blkOf, beq_self_eq_true, if_true, blkPf, hdiv, hk, hmod, hlt]

theorem wordIx_at (base step n i : Nat) (hs : 0 < step) (hi : i < n) : wordIx base step n (base + step * i) = some i := by
  simp [wordIx, hs, hi]

theorem wordIx_above (base step n o : Nat) (hs : 0 < step) (h : base + step * n ≤ o) : wordIx base step n o = none := by
  have hge : n ≤ (o - base) / step := (Nat.le_div_iff_mul_le hs).2 (by rw [Nat.mul_comm]; omega)
  simp [wordIx, hge]

/-- The count of source `n` lies above the other tables of the FCL. -/
theorem fclWord_count (n : Nat) (s : State) (h : n < 256) : s.fclWord (0x400 + 4 * n) = some (tblGet 0 s.fcl.count n).toNat := by
  have hfifo := wordIx_above 0x20 4 8 (0x400 + 4 * n) (by decide) (by omega)
  have hfirst := wordIx_above 0x40 4 8 (0x400 + 4 * n) (by decide) (by omega)
  have hovf := wordIx_above 0x60 4 4 (0x400 + 4 * n) (by decide) (by omega)
  have hcount := wordIx_at 0x400 4 256 n (by decide) h
  unfold State.fclWord
  split
  · omega
  · omega
  · omega
  · simp only [hfifo, hfirst, hovf, hcount]

theorem clearRc_count (fn n : Nat) (s : State) (h : n < 256) :
    s.clearRc fn .fcl (0x400 + 4 * n) = s.modFcl fun f => { f with count := tblSet 0 f.count n 0 } := by
  have hovf := wordIx_above 0x60 4 4 (0x400 + 4 * n) (by decide) (by omega)
  simp only [State.clearRc, State.clearFcl, hovf, wordIx_at 0x400 4 256 n (by decide) h]

theorem bitAt_toNat (v : Word) (n : Nat) : bitAt v.toNat n = v.getLsbD n := by
  simp only [bitAt, fld, BitVec.getLsbD, Nat.testBit_eq_decide_div_mod_eq, pow_one]
  rfl

/-- Writing 1 to STEPPED clears it; writing 0 leaves it. -/
theorem hluWrite_stepped (v : Word) (s : State) :
    hluWrite 0x0C v.toNat s = { s with hlu := { s.hlu with stepped := s.hlu.stepped && !v.getLsbD 30 } } := by
  simp only [hluWrite, bitAt_toNat]
  cases hv : v.getLsbD 30
  · simp
  · simp [State.modHlu]

theorem drsWrite_threshLocked (k off v : Nat) (s : State) (h : s.boot.protLock = true) :
    drsWrite k 0x40 off v s = s.reportAccess 0 off := if_pos h

/-- A read-only block ignores the write, whether or not the device's state lets it act. -/
theorem oneWrite_csc (fn off o : Nat) (v : Word) (s : State) (hb : blkOf fn off = (.csc, o)) : oneWrite fn off v s = s := by
  simp [oneWrite, hb, writeWord]

theorem exec_regWrite_one (fn off : Nat) (v : Word) (s : State) (hoff : off < barSize fn) (ha : off % 4 = 0) :
    exec (.regWrite fn off 15 [v]) s = .next (oneWrite fn off v s) := by
  rw [exec_regWrite fn off 15 [v] s hoff, writeOp_one fn off v s ha]

/-! ### The statement about accesses -/

/-- Settles O60: the refused accesses, the hidden ones, and the access codes RC, RO, RW, RW1C and RWL. -/
theorem registerAccesses : Obligations.RegisterAccesses := by
  unfold Obligations.RegisterAccesses
  refine ⟨?refusedWrite, ?refusedRead, ?hiddenRead, ?discarded, ?biCount, ?malformed, ?count, ?readOnly, ?chainTmo, ?ctxCtrl,
    ?stepped, ?locked⟩
  case refusedWrite =>
    intro fn off be v s hoff hfn hv hbad
    rw [exec_regWrite fn off be v s hoff, writeOp_refused fn off be v s hfn hv hbad]
    exact ⟨_, rfl, reportAccess_records fn off s, reportAccess_frame fn off s⟩
  case refusedRead =>
    intro fn off len s hoff hfn hn
    rw [exec_unalignedRead fn off len s hoff (length_ne_zero_of_not_naturally off len hn), if_neg (by simp [hn]),
      unalignedOp_answered fn off s hfn]
    exact ⟨_, rfl, rfl, reportAccess_records fn off (s.withRdata 0), rfl⟩
  case hiddenRead =>
    intro fn off s hs
    rw [exec_rcRead, readOp_hidden fn off s hs]
  case discarded =>
    intro fn off v s hoff ha ht
    rw [exec_regWrite_one fn off v s hoff ha, oneWrite_discarded fn off v s ht]
  case biCount =>
    intro s hs
    exact exec_rcRead_single 0 0x100018 .hlu 0x18 s.hlu.biCount s (by decide) (by decide) hs rfl rfl rfl rfl
  case malformed =>
    intro s hs
    exact exec_rcRead_single 0 0x20001C .qe 0x1C s.qe.malformed s (by decide) (by decide) hs rfl rfl rfl rfl
  case count =>
    intro n s hn hs
    rw [exec_rcRead_single 0 _ .fcl _ (tblGet 0 s.fcl.count n) s (by omega) (blkOf_count n hn) hs rfl rfl
      (by simp [State.pairAbove, State.pairVal, State.blockPair]) (fclWord_count n s hn), clearRc_count 0 n _ hn]
    exact ⟨_, rfl, rfl, by simp, fun k hk => by simp [tblGet_tblSet, hk.symm], rfl⟩
  case readOnly =>
    intro off v s hoff ha
    rw [exec_regWrite_one 0 off v s (hoff.trans (by decide)) ha, oneWrite_csc 0 off off v s (blkOf_csc off hoff)]
  case chainTmo =>
    intro v s ht
    rw [exec_regWrite_one 0 0x200000 v s (by decide) (by decide), oneWrite_taken 0 0x200000 .qe 0 v s (by decide) ht]
    simp [writeWord, qeWrite, fld, State.modQe]
  case ctxCtrl =>
    intro v s ht
    rw [exec_regWrite_one 0 0x600000 v s (by decide) (by decide), oneWrite_taken 0 0x600000 .ctx 0 v s (by decide) ht]
    rfl
  case stepped =>
    intro v s ht
    rw [exec_regWrite_one 0 0x10000C v s (by decide) (by decide), oneWrite_taken 0 0x10000C .hlu 0xC v s (by decide) ht]
    exact congrArg _ (hluWrite_stepped v s)
  case locked =>
    intro k v s hk ht hlock
    have hoff : 0xB00040 + 0x10000 * k < barSize 0 := show _ < 0x4000000 by omega
    rw [exec_regWrite_one 0 _ v s hoff (by omega), oneWrite_taken 0 _ (.drs k) 0x40 v s (blkOf_thresh k hk) ht]
    exact ⟨_, congrArg _ (drsWrite_threshLocked k _ v.toNat s hlock), reportAccess_records 0 _ s, reportAccess_frame 0 _ s⟩

end Sys2Proof.Machine
end

section
/-! PROOFS. Folds over the state: what each step of a fold keeps, the fold keeps. -/
namespace Sys2Proof.Machine

theorem forEach_induct {α β : Type} {P : α → Prop} {f : β → α → α} (xs : List β) (hf : ∀ x ∈ xs, ∀ t, P t → P (f x t)) (s : α) (hs : P s) :
    P (forEach xs f s) := by
  induction xs generalizing s with
  | nil => exact hs
  | cons x xs ih =>
    exact ih (fun y hy => hf y (List.mem_cons_of_mem x hy)) (f x s) (hf x (List.mem_cons_self ..) s hs)

theorem forUpTo_induct {α : Type} {P : α → Prop} {f : Nat → α → α} (n : Nat) (hf : ∀ k t, P t → P (f k t)) (s : α) (hs : P s) :
    P (forUpTo n f s) := by
  induction n with
  | zero => exact hs
  | succ n ih => exact hf n _ ih

end Sys2Proof.Machine
end

section
/-! PROOFS. The management port, telemetry and the junction temperatures (R24, R507, R508, R444). -/
namespace Sys2Proof.Machine

/-! ### The management port and telemetry -/

theorem tgtRead_named (ix v : Nat) (s : State) (h : s.tgtValue ix = some v) :
    exec (.tgtRead ix) s = .next (s.withRdata (BitVec.ofNat 64 (v % 2 ^ 32))) := by
  have harm : exec (.tgtRead ix) s = .next (tgtReadOp ix s) := rfl
  rw [harm, tgtReadOp, h]

theorem leBytes_length (n v : Nat) : (leBytes n v).length = n := by
  induction n generalizing v with
  | zero => rfl
  | succ n ih => simp [leBytes, ih]

/-- What is sent for a function that answers and is not suspended goes out at once (R372, R375, R378). -/
theorem emitFor_sent (s : State) (fn : Nat) (o : Out) (hflr : (s.func fn).flr = false) (hd3 : (s.func fn).d3 = false)
    (hlink : s.linkPasses = true) : s.emitFor fn o = s.send o := by
  simp [State.emitFor, hflr, hd3, hlink]

theorem next_multiple_gt (a n : Nat) (hn : 0 < n) : a < a / n * n + n := by
  have h1 := Nat.div_add_mod a n
  have h2 := Nat.mod_lt a hn
  rw [Nat.mul_comm] at h1
  omega

theorem telemetryNs_pos (s : State) : 0 < s.telemetryNs := by
  unfold State.telemetryNs
  split <;> decide

/-- The snapshot waits for the next multiple of its interval. -/
theorem telemetry_time (s : State) :
    s.time < (telemetryOp s).time ∧ (telemetryOp s).time % s.telemetryNs = 0 := by
  have hgt := next_multiple_gt s.time s.telemetryNs (telemetryNs_pos s)
  have htime : (telemetryOp s).time = max s.time (s.time / s.telemetryNs * s.telemetryNs + s.telemetryNs) := by
    unfold telemetryOp State.emitFor
    dsimp only
    split
    · rfl
    · split <;> rfl
  rw [htime, max_eq_right hgt.le]
  exact ⟨hgt, by simp⟩

/-! ### The sensors -/

/-- One sensor's reading stored with its peak. -/
def putTemp (p : Nat × Int) (t : Tbl (Int × Int)) : Tbl (Int × Int) := tblInsert (tblErase t p.1) p.1 (p.2, peakOf t p.1 p.2)

theorem storeTemps_eq (s : State) (temps : List Int) :
    s.storeTemps temps = s.modBoot fun b => { b with therm := forEach ((List.range 16).zip temps) putTemp b.therm } := rfl

theorem tblGet_putTemp_same (d : Int × Int) (p : Nat × Int) (t : Tbl (Int × Int)) :
    tblGet d (putTemp p t) p.1 = (p.2, peakOf t p.1 p.2) := by
  simp [putTemp, tblGet_tblInsert]

theorem tblGet_putTemp_other (d : Int × Int) (p : Nat × Int) (t : Tbl (Int × Int)) (i : Nat) (h : p.1 ≠ i) :
    tblGet d (putTemp p t) i = tblGet d t i := by
  simp [putTemp, tblGet_tblInsert, tblGet_tblErase, h]

/-- Readings of other sensors leave a sensor's as it was. -/
theorem tblGet_putTemps_other (d : Int × Int) (ps : List (Nat × Int)) (t : Tbl (Int × Int)) (i : Nat) (h : ∀ p ∈ ps, p.1 ≠ i) :
    tblGet d (forEach ps putTemp t) i = tblGet d t i :=
  forEach_induct (P := fun u => tblGet d u i = tblGet d t i) ps
    (fun p hp u hu => (tblGet_putTemp_other d p u i (h p hp)).trans hu) t rfl

/-- Readings of sensors `k` on: each sensor shows its own, and the higher of it and its earlier peak. -/
theorem tblGet_putTemps (temps : List Int) (k n i : Nat) (x : Int) (t : Tbl (Int × Int)) (hn : temps.length ≤ n) (hi : temps[i]? = some x) :
    tblGet (0, 0) (forEach ((List.range' k n).zip temps) putTemp t) (k + i) = (x, peakOf t (k + i) x) := by
  induction temps generalizing k n i t with
  | nil => simp at hi
  | cons y ys ih =>
    obtain ⟨m, rfl⟩ : ∃ m, n = m + 1 := ⟨n - 1, by simp only [List.length_cons] at hn; omega⟩
    rw [List.range'_succ, List.zip_cons_cons, forEach]
    cases i with
    | zero =>
      have hkeys : ∀ p ∈ (List.range' (k + 1) m).zip ys, p.1 ≠ k := by
        intro p hp
        have := List.mem_range'_1.1 (List.of_mem_zip hp).1
        omega
      have hx : y = x := by simpa using hi
      show tblGet (0, 0) (forEach ((List.range' (k + 1) m).zip ys) putTemp (putTemp (k, y) t)) k = (x, peakOf t k x)
      rw [tblGet_putTemps_other _ _ _ _ hkeys, tblGet_putTemp_same, hx]
    | succ i =>
      have hpeak : peakOf (putTemp (k, y) t) (k + 1 + i) x = peakOf t (k + 1 + i) x := by
        simp only [peakOf]
        rw [tblGet_putTemp_other _ _ _ _ (show k ≠ k + 1 + i by omega)]
      rw [show k + (i + 1) = k + 1 + i by omega, ih (k + 1) m i _ (by simpa using hn) (by simpa using hi), hpeak]

theorem storeTemps_therm (s : State) (temps : List Int) (i : Nat) (x : Int) (hlen : temps.length = 16) (hi : temps[i]? = some x) :
    tblGet (0, 0) (s.storeTemps temps).boot.therm i = (x, max x (tblGet (0, -32768) s.boot.therm i).2) := by
  have h := tblGet_putTemps temps 0 16 i x s.boot.therm hlen.le hi
  rw [Nat.zero_add, ← List.range_eq_range'] at h
  rw [storeTemps_eq]
  exact h

/-! ### What heat does to clocks -/

/-- Nothing has changed but the cores, the faults that wait for the collector, and the free values taken. -/
def OnlyHeated (s t : State) : Prop := t = { s with cores := t.cores, fcl := { s.fcl with inbox := t.fcl.inbox }, free := t.free }

theorem onlyHeated_refl (s : State) : OnlyHeated s s := rfl

theorem onlyHeated_trans {s t u : State} (h : OnlyHeated s t) (k : OnlyHeated t u) : OnlyHeated s u := by
  unfold OnlyHeated at *
  rw [k, h]

theorem modCore_heated (s : State) (c : Nat) (f : Core → Core) : OnlyHeated s (s.modCore c f) := rfl

theorem tookFree_heated (s : State) : OnlyHeated s s.tookFree := rfl

theorem wantClock_heated (s : State) (c mhz : Nat) : OnlyHeated s (s.wantClock c mhz) := onlyHeated_trans (modCore_heated ..) (modCore_heated ..)

theorem wantClock_fcl (s : State) (c mhz : Nat) : (s.wantClock c mhz).fcl = s.fcl := rfl

theorem lowerClock_heated (s : State) (c : Nat) : OnlyHeated s (s.lowerClock c) := by
  unfold State.lowerClock
  dsimp only
  split
  · exact onlyHeated_refl s
  · exact onlyHeated_trans (onlyHeated_trans (tookFree_heated s) (modCore_heated ..)) (wantClock_heated ..)

theorem ageCores_heated (s : State) : OnlyHeated s s.ageCores := by
  unfold OnlyHeated State.ageCores
  dsimp only
  generalize forUpTo 64 _ s.cores = cs
  rfl

theorem hotSensor_heated (s : State) (i : Nat) (x : Int) : OnlyHeated s (s.hotSensor i x) :=
  forEach_induct (P := OnlyHeated s) _ (fun c _ t ht => onlyHeated_trans ht (lowerClock_heated t c)) _ rfl

/-- A core that returns to its clock records nothing. -/
theorem restoreClock_heated (s : State) (c : Nat) : OnlyHeated s (s.restoreClock c) ∧ (s.restoreClock c).fcl = s.fcl := by
  unfold State.restoreClock
  split
  · exact ⟨onlyHeated_trans (modCore_heated s c _) (wantClock_heated ..), wantClock_fcl ..⟩
  · exact ⟨onlyHeated_refl s, rfl⟩

/-- The state once a reading is stored, hot cores are slowed and cool ones have returned. -/
def clockedBy (temps : List Int) (s : State) : State :=
  let now := (List.range 16).zip temps
  let hot := now.filter fun p => decide (105 < p.2) && decide ((tblGet (0, 0) s.boot.therm p.1).1 ≤ 105)
  let t := s.storeTemps temps
  let u := if s.live then forEach hot (fun p v => v.hotSensor p.1 p.2) t.ageCores else t
  if s.live then forUpTo 64 (fun c v => if now.all fun p => decide (p.2 ≤ 100) || !(coresUnder p.1).contains c then v.restoreClock c else v) u else u

/-- The first sensor of a reading at 115 °C. -/
def tripping (temps : List Int) : Option (Nat × Int) := ((List.range 16).zip temps).find? fun p => decide (115 ≤ p.2)

/-- THERMTRIP_N asserts where a sensor stands at 115 °C and it had not yet. -/
def trippedBy (temps : List Int) (s w : State) : State :=
  match tripping temps with
  | some p => if s.pins.thermtrip then w else w.thermTrip p.1
  | none => w

/-- Every sensor of a reading is below 95 °C, where an unpowered device releases THERMTRIP_N. -/
def releases (temps : List Int) (s : State) : Bool := !s.pins.pwrgood && ((List.range 16).zip temps).all fun p => decide (p.2 < 95)

theorem thermalReadingOp_eq (temps : List Int) (s : State) :
    thermalReadingOp temps s =
      (if releases temps s then (trippedBy temps s (clockedBy temps s)).modPins fun p => { p with thermtrip := false }
        else trippedBy temps s (clockedBy temps s)).settleAlert := rfl

theorem clockedBy_heated (temps : List Int) (s : State) : OnlyHeated (s.storeTemps temps) (clockedBy temps s) := by
  have hhot : ∀ ps : List (Nat × Int),
      OnlyHeated (s.storeTemps temps) (forEach ps (fun p v => v.hotSensor p.1 p.2) (s.storeTemps temps).ageCores) := fun ps =>
    forEach_induct (P := OnlyHeated (s.storeTemps temps)) ps (fun p _ t ht => onlyHeated_trans ht (hotSensor_heated t p.1 p.2)) _
      (ageCores_heated _)
  unfold clockedBy
  dsimp only
  split
  · refine forUpTo_induct (P := OnlyHeated (s.storeTemps temps)) 64 (fun c t ht => ?_) _ (hhot _)
    split
    · exact onlyHeated_trans ht (restoreClock_heated t c).1
    · exact ht
  · exact rfl

/-- Without a sensor above 105 °C nothing is recorded. -/
theorem clockedBy_cool (temps : List Int) (s : State) (h : ∀ x ∈ temps, x ≤ 105) : (clockedBy temps s).fcl = s.fcl := by
  have hnone : (((List.range 16).zip temps).filter fun p =>
      decide (105 < p.2) && decide ((tblGet (0, 0) s.boot.therm p.1).1 ≤ 105)) = [] := by
    rw [List.filter_eq_nil_iff]
    intro p hp
    have := h p.2 (List.of_mem_zip hp).2
    simp; omega
  unfold clockedBy
  dsimp only
  rw [hnone]
  split
  · refine forUpTo_induct (P := fun t : State => t.fcl = s.fcl) 64 (fun c t ht => ?_) _ rfl
    split
    · exact (restoreClock_heated t c).2.trans ht
    · exact ht
  · rfl

/-! ### THERMTRIP_N and the alert -/

theorem tripping_of_hot (temps : List Int) (hlen : temps.length = 16) (h : ∃ x ∈ temps, 115 ≤ x) : ∃ p, tripping temps = some p := by
  obtain ⟨x, hx, hhot⟩ := h
  obtain ⟨i, hi, hget⟩ := List.getElem_of_mem hx
  have hmem : (i, x) ∈ (List.range 16).zip temps := by
    refine List.mem_iff_getElem.2 ⟨i, by simp; omega, by simp [hget]⟩
  rw [← Option.isSome_iff_exists]
  exact List.find?_isSome.2 ⟨(i, x), hmem, by simpa using hhot⟩

theorem tripping_none_of_cool (temps : List Int) (h : ∀ x ∈ temps, x ≤ 105) : tripping temps = none := by
  refine List.find?_eq_none.2 fun p hp => ?_
  have := h p.2 (List.of_mem_zip hp).2
  simp; omega

theorem releases_false_of_hot (temps : List Int) (s : State) (hlen : temps.length = 16) (h : ∃ x ∈ temps, 115 ≤ x) :
    releases temps s = false := by
  obtain ⟨p, hp⟩ := tripping_of_hot temps hlen h
  have hhot : 115 ≤ p.2 := by simpa using List.find?_some hp
  have hmem := List.mem_of_find?_eq_some hp
  simp only [releases, Bool.and_eq_false_iff, List.all_eq_false]
  exact .inr ⟨p, hmem, by simp; omega⟩

/-- Only what the entry to the safe state stops, and the pins, have changed (Table 19-8, R444). -/
def OnlyStopped (s t : State) : Prop :=
  t = { s with dmv := t.dmv, dsc := t.dsc, fcl := t.fcl, halves := t.halves, mau := t.mau, mem := t.mem, out := t.out, pcf := t.pcf, pins := t.pins,
               rcu := t.rcu }

theorem onlyStopped_trans {s t u : State} (h : OnlyStopped s t) (k : OnlyStopped t u) : OnlyStopped s u := by
  unfold OnlyStopped at *
  rw [k, h]

theorem modFcl_stopped (s : State) (f : Fcl → Fcl) : OnlyStopped s (s.modFcl f) := rfl

theorem modPins_stopped (s : State) (f : Pins → Pins) : OnlyStopped s (s.modPins f) := rfl

theorem settleAlert_eq (s : State) :
    s.settleAlert = { s with pins := { s.pins with tgtAlert := s.alerting }, out := s.settleAlert.out } := by
  unfold State.settleAlert
  dsimp only
  split <;> rfl

/-- TGT_ALERT_N is as the condition that it follows. -/
theorem settleAlert_tgtAlert (s : State) : s.settleAlert.pins.tgtAlert = s.settleAlert.alerting := by
  rw [settleAlert_eq]
  rfl

theorem settleAlert_stopped (s : State) : OnlyStopped s s.settleAlert := by
  unfold State.settleAlert
  dsimp only
  split <;> rfl

theorem stopAlive_stopped (s : State) : OnlyStopped s s.stopAlive :=
  onlyStopped_trans (onlyStopped_trans (modFcl_stopped s _) (modPins_stopped _ _)) (settleAlert_stopped _)

theorem haltAll_stopped (s : State) : OnlyStopped s s.haltAll := by
  unfold OnlyStopped State.haltAll
  dsimp only
  generalize forUpTo 16 _ s.mem.chans = cs
  rfl

theorem enterSafe_stopped (s : State) (c : Nat) : OnlyStopped s (s.enterSafe c) := by
  unfold State.enterSafe
  split
  · rfl
  · exact onlyStopped_trans (haltAll_stopped s) (onlyStopped_trans (modFcl_stopped _ _) (stopAlive_stopped _))

/-- The safe state is entered for the first cause only (R437, R444). -/
theorem enterSafe_fcl (s : State) (c : Nat) :
    (s.enterSafe c).fcl.inSafe = true ∧ (s.fcl.inSafe = false → (s.enterSafe c).fcl.safe = c)
      ∧ (s.enterSafe c).pins.thermtrip = s.pins.thermtrip := by
  unfold State.enterSafe
  split
  · next h => exact ⟨h, by simp [h], rfl⟩
  · unfold State.stopAlive
    rw [settleAlert_eq]
    exact ⟨rfl, fun _ => rfl, rfl⟩

theorem thermTrip_stopped (s : State) (i : Nat) : OnlyStopped s (s.thermTrip i) :=
  onlyStopped_trans (onlyStopped_trans (modFcl_stopped s _) (modPins_stopped _ _)) (enterSafe_stopped _ 4)

theorem trippedBy_stopped (temps : List Int) (s w : State) : OnlyStopped w (trippedBy temps s w) := by
  unfold trippedBy
  split
  · split
    · rfl
    · exact thermTrip_stopped w _
  · rfl

/-- What a reading changes: the temperatures, the clocks, and, at 115 °C, what the entry to the safe state stops. -/
theorem thermalReading_frame (temps : List Int) (s : State) :
    thermalReadingOp temps s = { s.storeTemps temps with
      cores := (thermalReadingOp temps s).cores, dmv := (thermalReadingOp temps s).dmv, dsc := (thermalReadingOp temps s).dsc,
      fcl := (thermalReadingOp temps s).fcl, free := (thermalReadingOp temps s).free, halves := (thermalReadingOp temps s).halves,
      mau := (thermalReadingOp temps s).mau, mem := (thermalReadingOp temps s).mem, out := (thermalReadingOp temps s).out,
      pcf := (thermalReadingOp temps s).pcf, pins := (thermalReadingOp temps s).pins, rcu := (thermalReadingOp temps s).rcu } := by
  have hw : clockedBy temps s = _ := clockedBy_heated temps s
  have hx : trippedBy temps s (clockedBy temps s) = _ := trippedBy_stopped temps s (clockedBy temps s)
  rw [thermalReadingOp_eq, settleAlert_eq]
  split
  · rw [hx, hw]
    rfl
  · rw [hx, hw]

theorem thermalReading_fcl (temps : List Int) (s : State) :
    (thermalReadingOp temps s).fcl = (trippedBy temps s (clockedBy temps s)).fcl := by
  rw [thermalReadingOp_eq, settleAlert_eq]
  split <;> rfl

/-- A sensor at 115 °C trips the device, once (R444, R508). -/
theorem thermalReading_trips (temps : List Int) (s : State) (hlen : temps.length = 16) (hhot : ∃ x ∈ temps, 115 ≤ x)
    (hpin : s.pins.thermtrip = false) :
    (thermalReadingOp temps s).pins.thermtrip = true ∧ (thermalReadingOp temps s).fcl.inSafe = true
      ∧ (s.fcl.inSafe = false → (thermalReadingOp temps s).fcl.safe = 4) := by
  obtain ⟨p, hp⟩ := tripping_of_hot temps hlen hhot
  have htrip : trippedBy temps s (clockedBy temps s) = (clockedBy temps s).thermTrip p.1 := by
    simp [trippedBy, hp, hpin]
  obtain ⟨hin, hsafe, hpins⟩ := enterSafe_fcl
    (((clockedBy temps s).report 0x31 0xAA none none p.1 0 0).modPins fun q => { q with thermtrip := true }) 4
  have hsame : (clockedBy temps s).fcl.inSafe = s.fcl.inSafe := by rw [clockedBy_heated temps s]; rfl
  refine ⟨?_, ?_, ?_⟩
  · rw [thermalReadingOp_eq, releases_false_of_hot temps s hlen hhot, settleAlert_eq, htrip]
    exact hpins
  · rw [thermalReading_fcl, htrip]
    exact hin
  · intro h
    rw [thermalReading_fcl, htrip]
    exact hsafe (hsame.trans h)

theorem thermalReading_cool (temps : List Int) (s : State) (h : ∀ x ∈ temps, x ≤ 105) : (thermalReadingOp temps s).fcl = s.fcl := by
  rw [thermalReading_fcl, trippedBy, tripping_none_of_cool temps h]
  exact clockedBy_cool temps s h

/-! ### The statement about sensors and ports -/

/-- Settles O55: reads of the port by the value each index names, the snapshot by the next multiple of its interval, and a reading by
what it does to the sensors, then to the clocks, then to the pins. -/
theorem sensorsAndPort : Obligations.SensorsAndPort := by
  unfold Obligations.SensorsAndPort
  refine ⟨?identity, fun ix v s h => tgtRead_named ix v s h, ?status, ?snapshot, ?reading⟩
  case identity => exact fun s => tgtRead_named 0 0x64161F3A s rfl
  case status =>
    intro s hdown
    exact tgtRead_named 5 0 s (by simp [State.tgtValue, hdown])
  case snapshot =>
    intro s hup hready hflr hd3 hlink hmp
    have harm : exec .telemetrySnapshot s = execTelemetrySnapshot s := rfl
    obtain ⟨hlater, hmult⟩ := telemetry_time s
    have hsent := emitFor_sent (s.reach (s.time / s.telemetryNs * s.telemetryNs + s.telemetryNs)) 0
      (.hostWrite 0 (freeNow s 64).toNat (leBytes 4096 (freeNow s.tookFree 32768).toNat) false) hflr hd3 hlink
    refine ⟨telemetryOp s, ?_, hlater, hmult, ⟨(freeNow s 64).toNat, leBytes 4096 (freeNow s.tookFree 32768).toNat, leBytes_length 4096 _, ?_⟩, ?_⟩
    · simp [harm, execTelemetrySnapshot, onlyIf, hup, hready, hmp]
    · unfold telemetryOp
      dsimp only
      rw [hsent]
      rfl
    · unfold telemetryOp
      dsimp only
      rw [hsent]
      rfl
  case reading =>
    intro temps s hlen
    have harm : exec (.thermalReading temps) s = execThermalReading temps s := rfl
    have hframe := thermalReading_frame temps s
    refine ⟨thermalReadingOp temps s, by simp [harm, execThermalReading, onlyIf, hlen], ?_, ?_,
      fun hhot hpin => thermalReading_trips temps s hlen hhot hpin, thermalReading_cool temps s, ?_⟩
    · intro i x hi
      rw [hframe]
      exact storeTemps_therm s temps i x hlen hi
    · rw [thermalReadingOp_eq]
      exact settleAlert_tgtAlert _
    · rw [hframe]
      rfl

end Sys2Proof.Machine
end

section
/-! PROOFS. Fencing of the core halves (R82, R83, R290): a half whose unit shares its number with a hinted unit. -/
namespace Sys2Proof.Machine

/-- An image that grants nothing: all that a device needs to run work (R462). -/
def bareImage : Image :=
  { version := 0, arb := 0, permit := 0, clusterEn := 0, ranks := 0, width := 0, density := 0, rateMax := 0, spareEn := false, regions := [], fns := [],
    classes := [], lanes := [], banks := [], templates := [], routes := [], defPrio := 0, semPermit := [], policy := Policy.default, digest := 0 }

/-- Half 0 is ACTIVE and executes unit 0, and a second unit of number 0 is hinted to it. -/
def sharedNumber : State :=
  { State.reset with
    pins := { Pins.init with pwrgood := true, perst := false, settled := true }
    boot := { Boot.init with step := 6, image := some bareImage }
    halves := [(0, { Half.init with fstate := .active, unit := some 0 })]
    dsc := { Dsc.init with units :=
      [{ blankUnit 0 0 0 0 0 .segment with stage := .running 0 }, { blankUnit 0 0 0 0 0 .segment with stage := .hinted 0 0 0 0 }] } }

theorem sharedNumber_live : sharedNumber.live = true := by decide +kernel

/-- The half executes a unit as the fence comes. -/
theorem sharedNumber_half : (sharedNumber.half 0).fstate = .active ∧ (sharedNumber.half 0).unit = some 0 := by decide +kernel

/-- The fence returns the hinted unit by its number, finds the executing unit under it, and takes that one off the half: the half is FENCED at
once. -/
theorem sharedNumber_fenced : ((fenceOp 0 0 false sharedNumber).half 0).fstate = .fenced := by decide +kernel

theorem exec_fenceDec (core : Nat) (abort : Bool) (s : State) (hlive : s.live = true) (hcore : core < 64) :
    exec (.fenceDec core abort) s = .next (fenceOp core 0 abort s) := by
  have harm : exec (.fenceDec core abort) s = execFenceDec core abort s := rfl
  simp [harm, execFenceDec, onlyIf, hlive, hcore]

/-- Refutes O33: a fence does not leave every half that holds a unit in FENCING. The statement asks for no more of a state than that the device
runs, and in `sharedNumber` two units have one number, so that the fence takes the executing unit off its half in the place of the hinted
one. `State.addUnit` queues every unit under a fresh number: what the clause lacks is the hypothesis that no two units share one. -/
theorem not_halfService : ¬ Obligations.HalfService := by
  unfold Obligations.HalfService
  rintro ⟨hfence, -⟩
  obtain ⟨hactive, hunit⟩ := sharedNumber_half
  obtain ⟨t, ht, -, -, -, hbusy, -⟩ := hfence 0 0 false (.fenceDec 0 false) sharedNumber sharedNumber_live (by decide) (.inl ⟨rfl, rfl⟩) hactive
  rw [exec_fenceDec 0 false sharedNumber sharedNumber_live (by decide)] at ht
  injection ht with ht
  have hfencing : (t.half 0).fstate = .fencing := hbusy (by simp [hunit])
  rw [← ht, sharedNumber_fenced] at hfencing
  cases hfencing

end Sys2Proof.Machine
end

section
/-! PROOFS. Writes for a function, and how an entry of a work queue ends (R305, R306): its code stands, and only what its result record
touches has changed. -/
namespace Sys2Proof.Machine

/-! ### Writes for a function -/

/-- Only what a write for a function touches has changed: the link with what waits for it, device memory with its caches, and what goes
out. -/
def OnlyPut (s t : State) : Prop := t = { s with clusters := t.clusters, funcs := t.funcs, hlu := t.hlu, mem := t.mem, out := t.out }

theorem onlyPut_trans {s t u : State} (h : OnlyPut s t) (k : OnlyPut t u) : OnlyPut s u := by
  unfold OnlyPut at *
  rw [k, h]

theorem emitFor_put (s : State) (fn : Nat) (o : Out) : OnlyPut s (s.emitFor fn o) := by
  unfold State.emitFor
  split
  · rfl
  · split <;> rfl

theorem modHlu_put (s : State) (f : Hlu → Hlu) : OnlyPut s (s.modHlu f) := rfl

theorem send_put (s : State) (o : Out) : OnlyPut s (s.send o) := rfl

theorem sendSnoop_put (s : State) (l : Nat) (data : Bool) : OnlyPut s (s.sendSnoop l data) := by
  unfold State.sendSnoop
  dsimp only
  split
  · rfl
  · split
    · exact onlyPut_trans (modHlu_put s _) (onlyPut_trans (modHlu_put _ _) (send_put _ _))
    · exact modHlu_put s _

theorem lineWrite_put (s : State) (l a : Nat) (bs : List Byte) : OnlyPut s (s.lineWrite l a bs) := by
  unfold State.lineWrite
  dsimp only
  split
  · split
    · exact onlyPut_trans (modHlu_put s _) (send_put _ _)
    · exact onlyPut_trans (modHlu_put s _) (sendSnoop_put _ l false)
  · rfl

theorem devWrite_put (s : State) (a : Nat) (bs : List Byte) : OnlyPut s (s.devWrite a bs) := by
  unfold State.devWrite
  split
  · exact forEach_induct (P := OnlyPut s) _ (fun l _ t ht => onlyPut_trans ht (lineWrite_put t l _ _)) s rfl
  · rfl

theorem putBytes_put (s : State) (fn space a : Nat) (bs : List Byte) (relaxed : Bool) : OnlyPut s (s.putBytes fn space a bs relaxed) := by
  unfold State.putBytes
  split
  · exact emitFor_put ..
  · exact devWrite_put ..

theorem putRecord_put (s : State) (fn space a : Nat) (bs : List Byte) : OnlyPut s (s.putRecord fn space a bs) := by
  unfold State.putRecord
  split
  · rfl
  · exact putBytes_put ..

/-! ### Entries after a change of one -/

theorem entry?_seq {w : WorkQ} {seq : Word} {e : QEntry} (h : w.entry? seq = some e) : e.seq = seq := by
  simpa using List.find?_some h

theorem entry?_modEntry (w : WorkQ) (n seq : Word) (f : QEntry → QEntry) (hf : ∀ e, (f e).seq = e.seq) :
    (w.modEntry n f).entry? seq = (w.entry? seq).map fun e => if e.seq == n then f e else e := by
  have hkeep : ((fun e : QEntry => e.seq == seq) ∘ fun e => if e.seq == n then f e else e) = fun e => e.seq == seq := by
    funext e
    simp only [Function.comp]
    split <;> simp [hf]
  simp only [WorkQ.entry?, WorkQ.modEntry, List.find?_map, hkeep]

theorem modEntry_entry (s : State) (q : Nat) (seq : Word) (f : QEntry → QEntry) (e : QEntry) (hf : ∀ e, (f e).seq = e.seq)
    (h : (s.queue q).entry? seq = some e) : ((s.modEntry q seq f).queue q).entry? seq = some (f e) := by
  have hseq := entry?_seq h
  rw [State.modEntry, modQueue_queue, entry?_modEntry _ _ _ _ hf, h]
  simp [hseq]

theorem modEntry_entry_other (s : State) (q : Nat) (n seq : Word) (f : QEntry → QEntry) (hf : ∀ e, (f e).seq = e.seq) (hn : n ≠ seq) :
    ((s.modEntry q n f).queue q).entry? seq = (s.queue q).entry? seq := by
  rw [State.modEntry, modQueue_queue, entry?_modEntry _ _ _ _ hf]
  cases h : (s.queue q).entry? seq with
  | none => rfl
  | some e =>
    have hseq : ¬ e.seq = n := by
      rw [entry?_seq h]
      exact hn.symm
    simp [hseq]

/-- A function that keeps what `entryEnds` reads of an entry. -/
def KeepsEnd (f : QEntry → QEntry) : Prop := ∀ e, (f e).seq = e.seq ∧ (f e).stage = e.stage ∧ (f e).code = e.code ∧ (f e).cause = e.cause

theorem entryEnds_congr {s t : State} {q : Nat} {seq : Word} {c k : Nat} (hq : t.queue q = s.queue q) (h : s.entryEnds q seq c k) :
    t.entryEnds q seq c k := by
  unfold State.entryEnds at *
  rwa [hq]

theorem entryEnds_modEntry {s : State} {q : Nat} {seq : Word} {c k : Nat} {f : QEntry → QEntry} (n : Word) (hf : KeepsEnd f)
    (h : s.entryEnds q seq c k) : (s.modEntry q n f).entryEnds q seq c k := by
  obtain ⟨e, he, hstage, hcode, hcause⟩ := h
  obtain ⟨-, hfs, hfc, hfk⟩ := hf e
  by_cases hn : n = seq
  · subst hn
    exact ⟨f e, modEntry_entry s q _ f e (fun e => (hf e).1) he, hfs.trans hstage, hfc.trans hcode, hfk.trans hcause⟩
  · exact ⟨e, (modEntry_entry_other s q n seq f (fun e => (hf e).1) hn).trans he, hstage, hcode, hcause⟩

theorem entryEnds_modEntry_other {s : State} {q : Nat} {n seq : Word} {c k : Nat} {f : QEntry → QEntry} (hf : ∀ e, (f e).seq = e.seq)
    (hn : n ≠ seq) (h : s.entryEnds q seq c k) : (s.modEntry q n f).entryEnds q seq c k := by
  obtain ⟨e, he, hend⟩ := h
  exact ⟨e, (modEntry_entry_other s q n seq f hf hn).trans he, hend⟩

/-! ### Only one queue's entries -/

/-- Only entries of queue `q`, their units and sessions, and what a write for a function touches have changed. -/
structure OnlyEntry (q : Nat) (s t : State) : Prop where
  frame : t = { s with clusters := t.clusters, dsc := t.dsc, funcs := t.funcs, hlu := t.hlu, mem := t.mem, out := t.out, queues := t.queues,
                       sessions := t.sessions }
  others : ∀ p, p ≠ q → t.queue p = s.queue p

theorem onlyEntry_refl (q : Nat) (s : State) : OnlyEntry q s s := ⟨rfl, fun _ _ => rfl⟩

theorem onlyEntry_trans {q : Nat} {s t u : State} (h : OnlyEntry q s t) (k : OnlyEntry q t u) : OnlyEntry q s u where
  frame := by
    have hst := h.frame
    have htu := k.frame
    rw [hst] at htu
    exact htu
  others := fun p hp => (k.others p hp).trans (h.others p hp)

theorem onlyEntry_of_put {s t : State} (q : Nat) (h : OnlyPut s t) : OnlyEntry q s t := by
  unfold OnlyPut at h
  refine ⟨?_, fun p _ => ?_⟩
  · rw [h]
  · rw [h]
    rfl

theorem modEntry_onlyEntry (s : State) (q : Nat) (seq : Word) (f : QEntry → QEntry) : OnlyEntry q s (s.modEntry q seq f) :=
  ⟨rfl, fun p hp => modQueue_queue_other s q p _ (Ne.symm hp)⟩

theorem modSess_onlyEntry (s : State) (q n : Nat) (f : Session → Session) : OnlyEntry q s (s.modSess n f) := ⟨rfl, fun _ _ => rfl⟩

theorem modDsc_onlyEntry (s : State) (q : Nat) (f : Dsc → Dsc) : OnlyEntry q s (s.modDsc f) := ⟨rfl, fun _ _ => rfl⟩

theorem putResult_onlyEntry (s : State) (q : Nat) (seq : Word) : OnlyEntry q s (s.putResult q seq) := by
  unfold State.putResult
  split
  · exact onlyEntry_refl q s
  · have hput := onlyEntry_of_put q (putRecord_put s (s.queue q).fn (s.queue q).resSpace ((s.queue q).resultAddr seq) (QEntry.result ‹_›))
    dsimp only
    split
    · exact onlyEntry_trans hput (modEntry_onlyEntry ..)
    · exact hput

theorem noteEnd_onlyEntry (s : State) (q : Nat) (e : QEntry) : OnlyEntry q s (s.noteEnd q e) := by
  unfold State.noteEnd
  split
  · exact modSess_onlyEntry ..
  · exact onlyEntry_refl q s

theorem finishEntry_onlyEntry (s : State) (q : Nat) (seq : Word) : OnlyEntry q s (s.finishEntry q seq) := by
  unfold State.finishEntry
  split
  · exact onlyEntry_refl q s
  · split
    · exact onlyEntry_refl q s
    · have hdone := fun e f => onlyEntry_trans (onlyEntry_trans (modEntry_onlyEntry s q seq f) (putResult_onlyEntry _ q seq)) (noteEnd_onlyEntry _ q e)
      dsimp only
      split
      · exact forEach_induct (P := OnlyEntry q s) _ (fun f _ u hu => onlyEntry_trans hu
          (onlyEntry_trans (onlyEntry_trans (modEntry_onlyEntry ..) (modDsc_onlyEntry ..)) (putResult_onlyEntry ..))) _ (hdone _ _)
      · exact hdone _ _

theorem settleEntry_onlyEntry (s : State) (q : Nat) (seq : Word) : OnlyEntry q s (s.settleEntry q seq) := by
  unfold State.settleEntry
  split
  · split
    · exact finishEntry_onlyEntry ..
    · exact onlyEntry_refl q s
  · exact onlyEntry_refl q s

/-! ### The end of an entry -/

theorem putResult_ends {s : State} {q : Nat} {seq : Word} {c k : Nat} (n : Word) (h : s.entryEnds q seq c k) :
    (s.putResult q n).entryEnds q seq c k := by
  unfold State.putResult
  split
  · exact h
  · have hput : ∀ bs, (s.putRecord (s.queue q).fn (s.queue q).resSpace ((s.queue q).resultAddr n) bs).entryEnds q seq c k := fun bs =>
      entryEnds_congr (by rw [putRecord_put s]; rfl) h
    dsimp only
    split
    · exact entryEnds_modEntry n (fun e => ⟨rfl, rfl, rfl, rfl⟩) (hput _)
    · exact hput _

theorem noteEnd_queue (s : State) (q p : Nat) (e : QEntry) : (s.noteEnd q e).queue p = s.queue p := by
  unfold State.noteEnd
  split <;> rfl

/-- A completed entry keeps its code while the entries behind it in its chain are aborted (R305). -/
theorem finishEntry_ends {s : State} {q : Nat} {seq : Word} {e : QEntry} (h : (s.queue q).entry? seq = some e) (hopen : e.stage ≠ .done) :
    (s.finishEntry q seq).entryEnds q seq e.code e.cause := by
  have hdone : ((s.modEntry q seq fun e => { e with stage := .done, doneTime := BitVec.ofNat 64 s.time }).putResult q seq |>.noteEnd q e).entryEnds
      q seq e.code e.cause :=
    entryEnds_congr (noteEnd_queue ..)
      (putResult_ends seq ⟨_, modEntry_entry s q seq (fun e => { e with stage := .done, doneTime := BitVec.ofNat 64 s.time }) e (fun _ => rfl) h, rfl, rfl, rfl⟩)
  unfold State.finishEntry
  rw [h]
  dsimp only
  rw [if_neg (by simpa using hopen)]
  split
  · refine forEach_induct (P := fun u : State => u.entryEnds q seq e.code e.cause) _ (fun f hf u hu => ?_) _ hdone
    have hne : f.seq ≠ seq := by
      have := (List.mem_filter.1 hf).2
      simp only [Bool.and_eq_true, bne_iff_ne] at this
      exact this.1.2
    refine putResult_ends f.seq (entryEnds_congr rfl (entryEnds_modEntry_other (fun _ => rfl) hne hu))
  · exact hdone

/-- An outcome replaces the outcome OK, which has the lowest standing (R153, R169). -/
theorem note_fresh (e : QEntry) (c k : Nat) (hcode : e.code = 0) (hcause : e.cause = 0) (hrank : codeRank c k < 9) :
    e.note c k = { e with code := c, cause := k } := by
  have hlow : codeRank e.code e.cause = 9 := by rw [hcode, hcause]; rfl
  rw [QEntry.note, hlow, if_pos (by simp [hrank])]

/-- The renditions of an entry that ends end with it. -/
def withRendsEnded (c k : Nat) (e : QEntry) : QEntry :=
  { e with rends := e.rends.map fun r => if r.done then r else { r with done := true, code := c, cause := k } }

/-- The outcome of an entry is noted and fixed. -/
def withOutcome (c k : Nat) (e : QEntry) : QEntry := { e.note c k with closing := true }

theorem endEntry_eq (s : State) (q : Nat) (seq : Word) (c k : Nat) :
    s.endEntry q seq c k = ((s.modEntry q seq (withRendsEnded c k)).modEntry q seq (withOutcome c k)).settleEntry q seq := rfl

theorem endEntry_onlyEntry (s : State) (q : Nat) (seq : Word) (c k : Nat) : OnlyEntry q s (s.endEntry q seq c k) := by
  rw [endEntry_eq]
  exact onlyEntry_trans (modEntry_onlyEntry ..) (onlyEntry_trans (modEntry_onlyEntry ..) (settleEntry_onlyEntry ..))

theorem withOutcome_seq (c k : Nat) (e : QEntry) : (withOutcome c k e).seq = e.seq := by
  unfold withOutcome QEntry.note
  split <;> rfl

theorem withOutcome_fresh (e : QEntry) (c k : Nat) (hcode : e.code = 0) (hcause : e.cause = 0) (hrank : codeRank c k < 9) :
    withOutcome c k e = { e with code := c, cause := k, closing := true } := by
  simp only [withOutcome, note_fresh e c k hcode hcause hrank]

/-- An entry whose outcome is fixed, with no unit left and no picture handed on, completes (R231, R307). -/
theorem settleEntry_finishes {s : State} {q : Nat} {seq : Word} {e : QEntry} (h : (s.queue q).entry? seq = some e) (hclosing : e.closing = true)
    (hrels : e.relPics = []) (hunits : s.entryUnits q seq = []) : s.settleEntry q seq = s.finishEntry q seq := by
  unfold State.settleEntry
  rw [h]
  dsimp only
  rw [if_pos (by simp [hunits, hclosing, State.statsOpen, hrels])]

/-- An entry that has run nothing ends with the code and cause that are noted for it. -/
theorem endEntry_ends {s : State} {q : Nat} {seq : Word} {e : QEntry} {c k : Nat} (h : (s.queue q).entry? seq = some e)
    (hopen : e.stage ≠ .done) (hcode : e.code = 0) (hcause : e.cause = 0) (hrels : e.relPics = []) (hunits : s.entryUnits q seq = [])
    (hrank : codeRank c k < 9) : (s.endEntry q seq c k).entryEnds q seq c k := by
  have hentry := modEntry_entry _ q seq (withOutcome c k) _ (withOutcome_seq c k)
    (modEntry_entry s q seq (withRendsEnded c k) e (fun _ => rfl) h)
  rw [withOutcome_fresh (withRendsEnded c k e) c k hcode hcause hrank] at hentry
  rw [endEntry_eq, settleEntry_finishes hentry rfl hrels hunits]
  exact finishEntry_ends hentry hopen

end Sys2Proof.Machine
end

section
/-! PROOFS. Decode and transcode entries (R15, R17, R37, R38, R75, R127, R146): the units that an entry queues, the renditions that it
ends, and how the entry is received. -/
namespace Sys2Proof.Machine

/-! ### The units of a decode -/

/-- A unit of the same entry and session, standing where the other stands. -/
def SameOwner (u v : WUnit) : Prop := v.q = u.q ∧ v.seq = u.seq ∧ v.session = u.session ∧ v.stage = u.stage

theorem sameOwner_refl (u : WUnit) : SameOwner u u := ⟨rfl, rfl, rfl, rfl⟩

theorem segUnits_owner (u : WUnit) (x : Session) (info : PicInfo) (level i c : Nat) (gs : List SegInfo) :
    ∀ v ∈ segUnits u x info level i c gs, SameOwner u v := by
  induction gs generalizing i c with
  | nil => simp [segUnits]
  | cons g gs ih =>
    intro v hv
    rcases List.mem_cons.1 hv with rfl | hv
    · exact sameOwner_refl u
    · exact ih _ _ v hv

theorem picUnits_owner (u : WUnit) (x : Session) (info : PicInfo) (level b : Nat) : ∀ v ∈ picUnits u x info level b, SameOwner u v := by
  unfold picUnits
  dsimp only
  split
  · simp [SameOwner, skipUnit, WUnit.costed]
  · split
    · simp [SameOwner, decUnit, WUnit.costed, WUnit.raised]
    · intro v hv
      simp only [List.mem_cons, List.mem_append, List.not_mem_nil, or_false] at hv
      rcases hv with rfl | hv | rfl
      · exact sameOwner_refl u
      · exact segUnits_owner u x info level 0 0 _ v hv
      · exact sameOwner_refl u

/-- A unit that an entry which continues an open picture keeps in every case (R516). -/
def WUnit.lasts (u : WUnit) : Bool := u.kind == .finish || u.kind == .fused || u.skips

/-- Every picture ends with such a unit (Table 2-6). -/
theorem picUnits_lasting (u : WUnit) (x : Session) (info : PicInfo) (level b : Nat) : ∃ v ∈ picUnits u x info level b, v.lasts = true := by
  unfold picUnits
  dsimp only
  split
  · exact ⟨_, List.mem_singleton_self _, by simp [WUnit.lasts, skipUnit]⟩
  · split
    · exact ⟨_, List.mem_singleton_self _, by simp [WUnit.lasts, decUnit, WUnit.costed, WUnit.raised]⟩
    · exact ⟨_, List.mem_cons_of_mem _ (List.mem_append_right _ (List.mem_singleton_self _)), by simp [WUnit.lasts, WUnit.raised]⟩

theorem mem_of_dropDone {x : Session} {pic : Nat} {us : List WUnit} {u : WUnit} (h : u ∈ dropDone x pic us) : u ∈ us := by
  unfold dropDone at h
  split at h
  · exact (List.mem_filter.1 h).1
  · exact h

theorem dropDone_lasting {x : Session} {pic : Nat} {us : List WUnit} {u : WUnit} (h : u ∈ us) (hlast : u.lasts = true) :
    u ∈ dropDone x pic us := by
  unfold dropDone
  split
  · refine List.mem_filter.2 ⟨h, ?_⟩
    simp only [WUnit.lasts] at hlast
    simp [hlast]
  · exact h

/-- The unit that stands for a whole entry before its pictures' figures are set. -/
def entryUnit (q : Nat) (e : QEntry) (s : State) : WUnit :=
  { blankUnit q e.seq e.sess (s.sess e.sess).fn (s.sess e.sess).par.cls .start with
    windows := setWindow (refWindows (s.sess e.sess) 0 (askWindows false (entryAsks (s.sess e.sess).par e.raw e.blocks))) 15 (s.ctxWindow e.sess)
    pic := (s.sess e.sess).picNext }

/-- A decode entry's units are one that decodes nothing, or those of its pictures that have not committed. -/
theorem decodeUnits_cases (s : State) (q : Nat) (e : QEntry) (au : AuInfo) :
    s.decodeUnits q e au = [skipUnit (entryUnit q e s) (s.sess e.sess).par (auLevel au) (e32 e.raw 24) 0] ∨
      au.pics ≠ [] ∧ s.decodeUnits q e au = ((List.range au.pics.length).zip au.pics).flatMap fun (p : Nat × PicInfo) =>
        dropDone (s.sess e.sess) (s.firstPic e.sess + p.1) (picUnits { entryUnit q e s with pic := s.firstPic e.sess + p.1 } (s.sess e.sess) p.2 (auLevel au)
          (if au.pics.length == 1 then e32 e.raw 24 else 0)) := by
  unfold State.decodeUnits
  dsimp only
  split
  · exact .inl rfl
  · next h =>
    refine .inr ⟨?_, rfl⟩
    rintro hnil
    simp [hnil] at h

theorem decodeUnits_owner (s : State) (q : Nat) (e : QEntry) (au : AuInfo) : ∀ u ∈ s.decodeUnits q e au, SameOwner (entryUnit q e s) u := by
  rcases decodeUnits_cases s q e au with h | ⟨-, h⟩ <;> rw [h]
  · simp [SameOwner, skipUnit, WUnit.costed]
  · intro u hu
    obtain ⟨p, -, hp⟩ := List.mem_flatMap.1 hu
    exact picUnits_owner { entryUnit q e s with pic := s.firstPic e.sess + p.1 } _ _ _ _ u (mem_of_dropDone hp)

theorem decodeUnits_ne_nil (s : State) (q : Nat) (e : QEntry) (au : AuInfo) : s.decodeUnits q e au ≠ [] := by
  rcases decodeUnits_cases s q e au with h | ⟨hpics, h⟩ <;> rw [h]
  · simp
  · obtain ⟨i, is, hi⟩ := List.exists_cons_of_ne_nil hpics
    obtain ⟨v, hv, hlast⟩ := picUnits_lasting { entryUnit q e s with pic := s.firstPic e.sess + 0 } (s.sess e.sess) i (auLevel au)
      (if au.pics.length == 1 then e32 e.raw 24 else 0)
    refine List.ne_nil_of_mem (a := v) (List.mem_flatMap.2 ⟨(0, i), ?_, dropDone_lasting hv hlast⟩)
    simp [hi, List.range_succ_eq_map]

/-! ### Units queued in Babbitt -/

/-- Only Babbitt and the sessions have changed. -/
def OnlyQueued (s t : State) : Prop := t = { s with dsc := t.dsc, sessions := t.sessions }

theorem onlyQueued_trans {s t u : State} (h : OnlyQueued s t) (k : OnlyQueued t u) : OnlyQueued s u := by
  unfold OnlyQueued at *
  rw [k, h]

theorem modSess_queued (s : State) (n : Nat) (f : Session → Session) : OnlyQueued s (s.modSess n f) := rfl

theorem modDsc_queued (s : State) (f : Dsc → Dsc) : OnlyQueued s (s.modDsc f) := rfl

theorem settleState_queued (s : State) (n : Nat) : OnlyQueued s (s.settleState n) ∧ (s.settleState n).dsc = s.dsc := by
  unfold State.settleState
  split <;> exact ⟨rfl, rfl⟩

/-- The wake rule moves tags, and no unit (R278). -/
theorem wake_queued (s : State) (u : WUnit) : OnlyQueued s (s.wake u) ∧ (s.wake u).dsc.units = s.dsc.units := by
  have hpath : ∀ cs : List Nat, ∀ f : Nat → State → State, (∀ c t, OnlyQueued t (f c t) ∧ (f c t).dsc.units = t.dsc.units) →
      OnlyQueued s (forEach cs f s) ∧ (forEach cs f s).dsc.units = s.dsc.units := fun cs f hf =>
    forEach_induct (P := fun t => OnlyQueued s t ∧ t.dsc.units = s.dsc.units) cs
      (fun c _ t ht => ⟨onlyQueued_trans ht.1 (hf c t).1, (hf c t).2.trans ht.2⟩) s ⟨rfl, rfl⟩
  have hwoken := hpath (s.classPath u.cls) (fun c t => if s.backlogged c || c == 0 then t
    else t.modCls c fun k => { k with sTag := max k.fTag (s.cls (s.parentOf c)).vTime }) (fun c t => by
      split <;> exact ⟨rfl, rfl⟩)
  unfold State.wake
  dsimp only
  split
  · exact hwoken
  · exact ⟨onlyQueued_trans hwoken.1 (modSess_queued ..), hwoken.2⟩

theorem addUnit_queued (s : State) (u : WUnit) :
    OnlyQueued s (s.addUnit u) ∧ ∃ v, (s.addUnit u).dsc.units = s.dsc.units ++ [v] ∧ SameOwner u v := by
  obtain ⟨hwake, hunits⟩ := wake_queued s u
  unfold State.addUnit
  obtain ⟨hsettle, hdsc⟩ := settleState_queued ((s.wake u).modDsc fun d =>
    { d with units := d.units ++ [{ u with uid := d.nextUid, seed := d.nextUid }], nextUid := d.nextUid + 1 }) u.session
  refine ⟨onlyQueued_trans (onlyQueued_trans hwake (modDsc_queued ..)) hsettle,
    { u with uid := (s.wake u).dsc.nextUid, seed := (s.wake u).dsc.nextUid }, ?_, sameOwner_refl u⟩
  rw [hdsc, ← hunits]
  rfl

/-- New units stand behind those that are queued, in order. -/
theorem addUnits_queued (us : List WUnit) (s : State) :
    OnlyQueued s (s.addUnits us) ∧
      ∃ vs, (s.addUnits us).dsc.units = s.dsc.units ++ vs ∧ vs.length = us.length ∧ ∀ v ∈ vs, ∃ u ∈ us, SameOwner u v := by
  induction us generalizing s with
  | nil => exact ⟨rfl, [], by simp [State.addUnits, forEach]⟩
  | cons u us ih =>
    obtain ⟨hframe, v, hv, hsame⟩ := addUnit_queued s u
    obtain ⟨hframes, vs, hvs, hlen, hall⟩ := ih (s.addUnit u)
    have hstep : s.addUnits (u :: us) = (s.addUnit u).addUnits us := rfl
    rw [hstep]
    refine ⟨onlyQueued_trans hframe hframes, v :: vs, by rw [hvs, hv, List.append_assoc]; rfl, by simp [hlen], ?_⟩
    intro w hw
    rcases List.mem_cons.1 hw with rfl | hw
    · exact ⟨u, List.mem_cons_self .., hsame⟩
    · obtain ⟨x, hx, hxw⟩ := hall w hw
      exact ⟨x, List.mem_cons_of_mem u hx, hxw⟩

/-! ### Renditions that end -/

/-- Entry `g` is `f` with some of its renditions ended. -/
structure RendsEnded (f g : QEntry) : Prop where
  same : g = { f with rends := g.rends }
  kept : ∀ r ∈ g.rends, ∃ p ∈ f.rends, r.session = p.session ∧ (p.done = true → r.done = true)

theorem rendsEnded_refl (f : QEntry) : RendsEnded f f := ⟨rfl, fun r hr => ⟨r, hr, rfl, id⟩⟩

theorem rendsEnded_trans {f g h : QEntry} (a : RendsEnded f g) (b : RendsEnded g h) : RendsEnded f h where
  same := by
    have hfg := a.same
    have hgh := b.same
    rw [hfg] at hgh
    exact hgh
  kept := fun r hr => by
    obtain ⟨p, hp, hrp, hdone⟩ := b.kept r hr
    obtain ⟨o, ho, hpo, hdone'⟩ := a.kept p hp
    exact ⟨o, ho, hrp.trans hpo, fun h => hdone (hdone' h)⟩

theorem setRend_seq (n c k : Nat) (e : QEntry) : (setRend n c k e).seq = e.seq := rfl

theorem setRend_ended (n c k : Nat) (e : QEntry) :
    RendsEnded e (setRend n c k e) ∧ ∀ r ∈ (setRend n c k e).rends, r.session = n → r.done = true := by
  have hmem : ∀ r ∈ (setRend n c k e).rends,
      ∃ p ∈ e.rends, r = if p.session == n && !p.done then { p with done := true, code := c, cause := k } else p := fun r hr => by
    obtain ⟨p, hp, rfl⟩ := List.mem_map.1 hr
    exact ⟨p, hp, rfl⟩
  refine ⟨⟨rfl, fun r hr => ?_⟩, fun r hr hn => ?_⟩
  · obtain ⟨p, hp, rfl⟩ := hmem r hr
    refine ⟨p, hp, ?_⟩
    split <;> simp
  · obtain ⟨p, -, rfl⟩ := hmem r hr
    split at hn
    · next h => rw [if_pos h]
    · next h =>
      rw [if_neg h]
      simpa [hn] using h

/-- Only entries of queue `q` and the reports of faults have changed. -/
structure OnlyRefused (q : Nat) (s t : State) : Prop where
  frame : t = { s with fcl := t.fcl, queues := t.queues }
  others : ∀ p, p ≠ q → t.queue p = s.queue p

theorem onlyRefused_refl (q : Nat) (s : State) : OnlyRefused q s s := ⟨rfl, fun _ _ => rfl⟩

theorem onlyRefused_trans {q : Nat} {s t u : State} (h : OnlyRefused q s t) (k : OnlyRefused q t u) : OnlyRefused q s u where
  frame := by
    have hst := h.frame
    have htu := k.frame
    rw [hst] at htu
    exact htu
  others := fun p hp => (k.others p hp).trans (h.others p hp)

theorem modEntry_refused (s : State) (q : Nat) (seq : Word) (f : QEntry → QEntry) : OnlyRefused q s (s.modEntry q seq f) :=
  ⟨rfl, fun p hp => modQueue_queue_other s q p _ (Ne.symm hp)⟩

theorem reportWindow_refused (s : State) (q fn n w : Nat) : OnlyRefused q s (s.reportWindow fn n w) := ⟨rfl, fun _ _ => rfl⟩

/-- Refusing renditions changes the entry's renditions and records the refusals (R75). -/
theorem refuseRends_entry (s : State) (q : Nat) (e f : QEntry) (h : (s.queue q).entry? e.seq = some f) :
    OnlyRefused q s (s.refuseRends q e) ∧ ∃ g, ((s.refuseRends q e).queue q).entry? e.seq = some g ∧ RendsEnded f g := by
  refine forEach_induct (P := fun t => OnlyRefused q s t ∧ ∃ g, (t.queue q).entry? e.seq = some g ∧ RendsEnded f g) _ ?_ s
    ⟨onlyRefused_refl q s, f, h, rendsEnded_refl f⟩
  rintro n - t ⟨hframe, g, hg, hfg⟩
  split
  · split
    · exact ⟨hframe, g, hg, hfg⟩
    · exact ⟨onlyRefused_trans hframe (onlyRefused_trans (reportWindow_refused ..) (modEntry_refused ..)), setRend n 0x11 0x23 g,
        modEntry_entry _ q e.seq _ g (setRend_seq n _ _) hg, rendsEnded_trans hfg (setRend_ended n _ _ g).1⟩
  · exact ⟨hframe, g, hg, hfg⟩

/-- A session that can take no part in a ladder (R38). -/
def State.noPart (s : State) (n : Nat) : Prop := (s.sess n).state = .free ∨ (s.sess n).state = .draining

/-- Ending the renditions of sessions that take no part, over a list of sessions. -/
theorem dropRends_list (q : Nat) (seq : Word) (ns : List Nat) (s : State) (f : QEntry) (h : (s.queue q).entry? seq = some f) :
    let t := forEach ns (fun n t => if (t.sess n).state == .draining || (t.sess n).state == .free then t.modEntry q seq (setRend n 0x40 0) else t) s
    OnlyRefused q s t ∧ t.fcl = s.fcl ∧
      ∃ g, (t.queue q).entry? seq = some g ∧ RendsEnded f g ∧ ∀ n ∈ ns, s.noPart n → ∀ r ∈ g.rends, r.session = n → r.done = true := by
  induction ns generalizing s f with
  | nil => exact ⟨onlyRefused_refl q s, rfl, f, h, rendsEnded_refl f, by simp⟩
  | cons n ns ih =>
    rw [forEach]
    split
    · obtain ⟨hframe, hfcl, g, hg, hfg, hdone⟩ := ih (s.modEntry q seq (setRend n 0x40 0)) (setRend n 0x40 0 f)
        (modEntry_entry s q seq _ f (setRend_seq n _ _) h)
      obtain ⟨hset, hsetDone⟩ := setRend_ended n 0x40 0 f
      refine ⟨onlyRefused_trans (modEntry_refused ..) hframe, hfcl, g, hg, rendsEnded_trans hset hfg, fun m hm hpart r hr hrm => ?_⟩
      rcases List.mem_cons.1 hm with rfl | hm
      · obtain ⟨p, hp, hrp, hkeep⟩ := hfg.kept r hr
        exact hkeep (hsetDone p hp (hrp.symm.trans hrm))
      · exact hdone m hm hpart r hr hrm
    · next hstays =>
      obtain ⟨hframe, hfcl, g, hg, hfg, hdone⟩ := ih s f h
      refine ⟨hframe, hfcl, g, hg, hfg, fun m hm hpart => ?_⟩
      rcases List.mem_cons.1 hm with rfl | hm
      · rcases hpart with hp | hp <;> simp [hp] at hstays
      · exact hdone m hm hpart

/-- A rendition of a FREE or DRAINING session has ended, and nothing else is touched (R38). -/
theorem dropRends_entry (s : State) (q : Nat) (e f : QEntry) (h : (s.queue q).entry? e.seq = some f) (hrends : f.rends = e.rends) :
    OnlyRefused q s (s.dropRends q e) ∧ (s.dropRends q e).fcl = s.fcl ∧
      ∃ g, ((s.dropRends q e).queue q).entry? e.seq = some g ∧ RendsEnded f g ∧ ∀ r ∈ g.rends, s.noPart r.session → r.done = true := by
  obtain ⟨hframe, hfcl, g, hg, hfg, hdone⟩ := dropRends_list q e.seq (e.rends.map RendRes.session) s f h
  refine ⟨hframe, hfcl, g, hg, hfg, fun r hr hpart => ?_⟩
  obtain ⟨p, hp, hrp, -⟩ := hfg.kept r hr
  exact hdone r.session (List.mem_map.2 ⟨p, hrends ▸ hp, hrp.symm⟩) hpart r hr rfl

/-! ### An entry is received -/

/-- What a decode's checks read of the state: the sessions, device memory and the protection tables. -/
structure SameChecks (s t : State) : Prop where
  sessions : t.sessions = s.sessions
  mem : t.mem = s.mem
  boot : t.boot = s.boot

theorem memRead_congr {s t : State} (h : t.mem = s.mem) (a n : Nat) : t.memRead a n = s.memRead a n := by
  induction n generalizing a with
  | zero => rfl
  | succ n ih => simp only [State.memRead, State.byteAt, h, ih]

theorem poisoned_congr {s t : State} (h : t.mem = s.mem) (a n : Nat) : t.poisoned a n = s.poisoned a n := by
  simp only [State.poisoned, State.retiredAt, State.chn, State.stripeOf, State.rankSize, h]

theorem auOf_congr {s t : State} (h : SameChecks s t) (e : QEntry) (au : AuParse) : t.auOf e au = s.auOf e au := by
  simp only [State.auOf, State.inputBytes, State.sess, h.sessions, memRead_congr h.mem, poisoned_congr h.mem]

theorem decodeStop_congr {s t : State} (h : SameChecks s t) (e : QEntry) (au : AuInfo) : t.decodeStop e au = s.decodeStop e au := by
  have hs : t.sess e.sess = s.sess e.sess := by simp only [State.sess, h.sessions]
  unfold State.decodeStop
  rw [hs]

theorem badWindow_congr {s t : State} (h : SameChecks s t) (fn : Nat) (as : List Ask) : t.badWindow fn as = s.badWindow fn as := by
  simp only [State.badWindow, State.windowOk, State.granted, State.regionOf, h.boot]

/-- The codes that stop a decode stand above OK (R37, R38, R146). -/
theorem decodeStop_rank {s : State} {e : QEntry} {au : AuInfo} {c k : Nat} (h : s.decodeStop e au = some (c, k)) : codeRank c k < 9 := by
  unfold State.decodeStop at h
  extract_lets x p b rpt at h
  split at h
  · cases h; decide
  split at h
  · cases h; decide
  split at h
  · cases h; decide
  split at h
  · cases h; decide
  split at h
  · cases h; decide
  · cases h

/-- An entry in the queue that has run nothing. -/
structure Untouched (s : State) (q : Nat) (seq : Word) (f : QEntry) : Prop where
  entry : (s.queue q).entry? seq = some f
  isOpen : f.stage ≠ .done
  code : f.code = 0
  cause : f.cause = 0
  rels : f.relPics = []
  units : s.entryUnits q seq = []

theorem decodeReceive_stops {s : State} {q : Nat} {e f : QEntry} {au : AuParse} {c k : Nat} (h : Untouched s q e.seq f)
    (hstop : s.decodeStop e (s.auOf e au) = some (c, k)) :
    (decodeReceive q au e s).entryEnds q e.seq c k ∧ OnlyEntry q s (decodeReceive q au e s) := by
  have heq : decodeReceive q au e s = s.endEntry q e.seq c k := by simp only [decodeReceive, hstop]
  rw [heq]
  exact ⟨endEntry_ends h.entry h.isOpen h.code h.cause h.rels h.units (decodeStop_rank hstop), endEntry_onlyEntry ..⟩

theorem decodeReceive_refused {s : State} {q w : Nat} {e f : QEntry} {au : AuParse} (h : Untouched s q e.seq f)
    (hstop : s.decodeStop e (s.auOf e au) = none)
    (hbad : s.badWindow (s.sess e.sess).fn (entryAsks (s.sess e.sess).par e.raw e.blocks) = some w) :
    (decodeReceive q au e s).entryEnds q e.seq 0x11 0x23
      ∧ OnlyEntry q (s.reportWindow (s.sess e.sess).fn e.sess w) (decodeReceive q au e s) := by
  have heq : decodeReceive q au e s = (s.reportWindow (s.sess e.sess).fn e.sess w).endEntry q e.seq 0x11 0x23 := by
    simp only [decodeReceive, hstop, hbad]
  rw [heq]
  exact ⟨endEntry_ends h.entry h.isOpen h.code h.cause h.rels h.units (by decide), endEntry_onlyEntry ..⟩

/-- What a received entry leaves that runs: its entry with the access unit, its units behind those that are queued, and all else as it was
but for its session and the refusals of renditions. -/
structure Runs (q : Nat) (e f : QEntry) (au : AuInfo) (s t : State) : Prop where
  entry : ∃ g, (t.queue q).entry? e.seq = some g ∧ g.stage = f.stage ∧ g.au = some au
    ∧ ∀ r ∈ g.rends, ∃ p ∈ f.rends, r.session = p.session ∧ (p.done = true → r.done = true)
  units : ∃ us, t.dsc.units = s.dsc.units ++ us ∧ us ≠ [] ∧ ∀ u ∈ us, u.q = q ∧ u.seq = e.seq ∧ u.session = e.sess ∧ u.stage = .queued
  others : ∀ p, p ≠ q → t.queue p = s.queue p
  frame : t = { s with dsc := t.dsc, fcl := t.fcl, queues := t.queues, sessions := t.sessions }

theorem recover_queued (s : State) (n : Nat) : OnlyQueued s (s.recover n) ∧ (s.recover n).dsc = s.dsc := by
  unfold State.recover
  split <;> exact ⟨rfl, rfl⟩

/-- The state of a received entry before its renditions are checked and its units are queued. -/
def received (q : Nat) (e : QEntry) (au : AuInfo) (s : State) : State :=
  ((s.recover e.sess).modEntry q e.seq fun f => { f with
    au := some au
    pics := if au.pics.isEmpty || s.skipsNow e.sess e.order au then [] else ((s.decodeUnits q e au).map WUnit.pic).eraseDups }).modSess e.sess
      fun y => { y with picNext := if (s.decodeUnits q e au).all fun u => u.skips then y.picNext else max y.picNext (s.firstPic e.sess + au.pics.length) }

theorem received_entry {s : State} {q : Nat} {e f : QEntry} (au : AuInfo) (h : (s.queue q).entry? e.seq = some f) :
    ∃ g, ((received q e au s).queue q).entry? e.seq = some g ∧ g.stage = f.stage ∧ g.au = some au ∧ g.rends = f.rends := by
  have hq : ((s.recover e.sess).queue q).entry? e.seq = some f := by
    rw [(recover_queued s e.sess).1]
    exact h
  exact ⟨_, modEntry_entry (s.recover e.sess) q e.seq _ f (fun _ => rfl) hq, rfl, rfl, rfl⟩

theorem received_frame (q : Nat) (e : QEntry) (au : AuInfo) (s : State) :
    received q e au s = { s with queues := (received q e au s).queues, sessions := (received q e au s).sessions }
      ∧ ∀ p, p ≠ q → (received q e au s).queue p = s.queue p := by
  obtain ⟨hframe, hdsc⟩ := recover_queued s e.sess
  have hs : s.recover e.sess = { s with sessions := (s.recover e.sess).sessions } := by
    rw [OnlyQueued, hdsc] at hframe
    exact hframe
  unfold received
  refine ⟨?_, fun p hp => ?_⟩
  · rw [hs]
    rfl
  · refine (modEntry_onlyEntry (s.recover e.sess) q e.seq _).others p hp |>.trans ?_
    rw [hs]
    rfl

theorem decodeReceive_runs {s : State} {q : Nat} {e f : QEntry} {au : AuParse} (h : (s.queue q).entry? e.seq = some f)
    (hstop : s.decodeStop e (s.auOf e au) = none)
    (hwin : s.badWindow (s.sess e.sess).fn (entryAsks (s.sess e.sess).par e.raw e.blocks) = none) :
    Runs q e f (s.auOf e au) s (decodeReceive q au e s) := by
  have heq : decodeReceive q au e s =
      ((received q e (s.auOf e au) s).refuseRends q e).addUnits (s.decodeUnits q e (s.auOf e au)) := by
    simp only [decodeReceive, hstop, hwin]
    rfl
  obtain ⟨g, hg, hstage, hau, hrends⟩ := received_entry (s.auOf e au) h
  obtain ⟨hframe, hothers⟩ := received_frame q e (s.auOf e au) s
  obtain ⟨hrefused, g', hg', hgg'⟩ := refuseRends_entry _ q e g hg
  obtain ⟨hqueued, vs, hvs, hlen, hsame⟩ :=
    addUnits_queued (s.decodeUnits q e (s.auOf e au)) ((received q e (s.auOf e au) s).refuseRends q e)
  have hqueue : ∀ p, (decodeReceive q au e s).queue p = ((received q e (s.auOf e au) s).refuseRends q e).queue p := fun p => by
    rw [heq, hqueued]
    rfl
  refine ⟨⟨g', (hqueue q).symm ▸ hg', ?_, ?_, ?_⟩, ⟨vs, ?_, ?_, ?_⟩, fun p hp => ?_, ?_⟩
  · rw [hgg'.same]
    exact hstage
  · rw [hgg'.same]
    exact hau
  · rw [← hrends]
    exact hgg'.kept
  · rw [heq, hvs, hrefused.frame, hframe]
  · intro hnil
    rw [hnil, List.length_nil, eq_comm, List.length_eq_zero_iff] at hlen
    exact decodeUnits_ne_nil s q e _ hlen
  · intro v hv
    obtain ⟨u, hu, hq, hseq, hsess, hst⟩ := hsame v hv
    obtain ⟨huq, huseq, husess, hust⟩ := decodeUnits_owner s q e _ u hu
    exact ⟨hq.trans huq, hseq.trans huseq, hsess.trans husess, hst.trans hust⟩
  · rw [hqueue, hrefused.others p hp, hothers p hp]
  · rw [heq, hqueued, hrefused.frame, hframe]

end Sys2Proof.Machine
end

section
/-! PROOFS. The statement about decode and transcode entries: an entry whose turn has come is started, and then received. -/
namespace Sys2Proof.Machine

/-- The entry as its turn has come. -/
def startEntry (q : Nat) (seq : Word) (s : State) : State := s.modEntry q seq fun e => { e with stage := .running }

theorem startEntry_checks (q : Nat) (seq : Word) (s : State) : SameChecks s (startEntry q seq s) := ⟨rfl, rfl, rfl⟩

theorem onDue_turn {s : State} {q op : Nat} {seq : Word} {e : QEntry} (f : QEntry → State → State) (h : s.entryTakes q seq op e) :
    s.onDue q seq op f = f e (startEntry q seq s) := by
  obtain ⟨hlive, hentry, -, hop, hturn, -⟩ := h
  unfold State.onDue
  rw [hentry]
  simp [hlive, hop, hturn, startEntry]

theorem onDue_early {s : State} {q : Nat} {seq : Word} {e : QEntry} (op : Nat) (f : QEntry → State → State)
    (h : s.live = false ∨ s.turn q e = false) (hentry : (s.queue q).entry? seq = some e) : s.onDue q seq op f = s := by
  unfold State.onDue
  rw [hentry]
  rcases h with h | h <;> simp [h]

theorem exec_decodeAu (q : Nat) (seq : Word) (au : AuParse) (s : State) :
    exec (.decodeAu q seq au) s = .next (s.onDue q seq 1 (decodeReceive q au)) := rfl

theorem exec_transcodeAu (q : Nat) (seq : Word) (au : AuParse) (s : State) :
    exec (.transcodeAu q seq au) s = .next (s.onDue q seq 3 (transcodeReceive q au)) := rfl

/-- An entry whose turn has come stands started in its queue, and has run nothing. -/
theorem startEntry_untouched {s : State} {q op : Nat} {seq : Word} {e : QEntry} (h : s.entryTakes q seq op e) :
    Untouched (startEntry q seq s) q e.seq { e with stage := .running } := by
  obtain ⟨-, hentry, -, -, -, hcode, hcause, hrels, hunits⟩ := h
  have hseq := entry?_seq hentry
  subst hseq
  exact ⟨modEntry_entry s q e.seq (fun e => { e with stage := .running }) e (fun _ => rfl) hentry, by simp, hcode, hcause, hrels, hunits⟩

theorem entryTakes_seq {s : State} {q op : Nat} {seq : Word} {e : QEntry} (h : s.entryTakes q seq op e) : e.seq = seq := by
  obtain ⟨-, hentry, -⟩ := h
  exact entry?_seq hentry

/-! ### A ladder entry -/

theorem onlyEntry_of_refused {q : Nat} {s t : State} (h : OnlyRefused q s t) (hfcl : t.fcl = s.fcl) : OnlyEntry q s t := by
  have hframe := h.frame
  rw [hfcl] at hframe
  refine ⟨?_, h.others⟩
  rw [hframe]

/-- An entry with other renditions, started: a decode's checks read the same of it. -/
theorem decodeStop_started {s t : State} {e g : QEntry} (au : AuParse) (hchecks : SameChecks s t)
    (hg : g = { e with stage := .running, rends := g.rends }) :
    t.decodeStop g (t.auOf g au) = s.decodeStop e (s.auOf e au) := by
  rw [auOf_congr hchecks, decodeStop_congr hchecks, hg]
  rfl

/-- A ladder entry whose turn has come is received as a decode, the renditions of sessions that can take no part having ended. -/
theorem transcodeReceive_started {s : State} {q : Nat} {seq : Word} {e : QEntry} (au : AuParse) (h : s.entryTakes q seq 3 e) :
    ∃ t g, transcodeReceive q au e (startEntry q seq s) = decodeReceive q au g t ∧ g = { e with stage := .running, rends := g.rends }
      ∧ Untouched t q g.seq g ∧ OnlyEntry q s t ∧ t = { s with queues := t.queues } ∧ ∀ r ∈ g.rends, s.noPart r.session → r.done = true := by
  have hfresh := startEntry_untouched h
  obtain ⟨hframe, hfcl, g, hg, hended, hdone⟩ := dropRends_entry (startEntry q seq s) q e _ hfresh.entry rfl
  have hstart : OnlyEntry q s (startEntry q seq s) := modEntry_onlyEntry ..
  have hsame : g = { e with stage := .running, rends := g.rends } := hended.same
  have hseq : g.seq = e.seq := by rw [hsame]
  have hqueues : (startEntry q seq s).dropRends q e = { s with queues := ((startEntry q seq s).dropRends q e).queues } := by
    have hall := hframe.frame
    rw [hfcl] at hall
    exact hall
  refine ⟨(startEntry q seq s).dropRends q e, g, ?_, hsame, ⟨hseq ▸ hg, ?_, ?_, ?_, ?_, ?_⟩,
    onlyEntry_trans hstart (onlyEntry_of_refused hframe hfcl), hqueues, hdone⟩
  · simp only [transcodeReceive, hg, Option.getD_some]
  · rw [hsame]
    exact hfresh.isOpen
  · rw [hsame]
    exact hfresh.code
  · rw [hsame]
    exact hfresh.cause
  · rw [hsame]
    exact hfresh.rels
  · rw [hqueues, hseq]
    exact hfresh.units

/-! ### The statement about decode and transcode entries -/

/-- Settles O17: an entry's turn starts it (`onDue_turn`), and a started entry is refused with what stops it (`decodeReceive_stops`,
`decodeReceive_refused`) or runs (`decodeReceive_runs`); a ladder entry is received as a decode (`transcodeReceive_started`). -/
theorem decodeAndTranscodeEntries : Obligations.DecodeAndTranscodeEntries := by
  unfold Obligations.DecodeAndTranscodeEntries
  refine ⟨?decodeStops, ?decodeRefused, ?decodeRuns, ?early, ?transcodeStops, ?transcodeRuns⟩
  case decodeStops =>
    intro q seq e au c k s h hstop
    have hseq := entryTakes_seq h
    have hchecks := startEntry_checks q seq s
    obtain ⟨hend, honly⟩ := decodeReceive_stops (au := au) (startEntry_untouched h)
      ((decodeStop_congr hchecks e _).trans (auOf_congr hchecks e au ▸ hstop))
    have hall := onlyEntry_trans (modEntry_onlyEntry ..) honly
    exact ⟨_, by rw [exec_decodeAu, onDue_turn _ h], hseq ▸ hend, hall.others, hall.frame⟩
  case decodeRefused =>
    intro q seq e au w s h hstop hbad
    have hseq := entryTakes_seq h
    have hchecks := startEntry_checks q seq s
    obtain ⟨hend, honly⟩ := decodeReceive_refused (au := au) (startEntry_untouched h)
      ((decodeStop_congr hchecks e _).trans (auOf_congr hchecks e au ▸ hstop)) ((badWindow_congr hchecks _ _).trans hbad)
    refine ⟨_, by rw [exec_decodeAu, onDue_turn _ h], hseq ▸ hend, fun p hp => ?_, ?_⟩
    · exact (honly.others p hp).trans ((modEntry_onlyEntry s q seq _).others p hp)
    · rw [honly.frame]
      rfl
  case decodeRuns =>
    intro q seq e au s h hstop hwin
    have hseq := entryTakes_seq h
    have hchecks := startEntry_checks q seq s
    have hruns := decodeReceive_runs (au := au) (startEntry_untouched h).entry
      ((decodeStop_congr hchecks e _).trans (auOf_congr hchecks e au ▸ hstop)) ((badWindow_congr hchecks _ _).trans hwin)
    obtain ⟨g, hg, hstage, hau, -⟩ := hruns.entry
    refine ⟨_, by rw [exec_decodeAu, onDue_turn _ h], ⟨g, hseq ▸ hg, hstage, hau.trans (by rw [auOf_congr hchecks])⟩, hseq ▸ hruns.units,
      fun p hp => ?_, ?_⟩
    · exact (hruns.others p hp).trans ((modEntry_onlyEntry s q seq _).others p hp)
    · rw [hruns.frame]
      rfl
  case early =>
    intro q seq e au s h hentry
    rw [exec_decodeAu, onDue_early 1 _ h hentry]
  case transcodeStops =>
    intro q seq e au c k s h hstop
    obtain ⟨t, g, heq, hg, hfresh, honly, hqueues, -⟩ := transcodeReceive_started au h
    have heseq : e.seq = seq := entryTakes_seq h
    have hseq : g.seq = seq := (congrArg QEntry.seq hg).trans heseq
    have hchecks : SameChecks s t := ⟨by rw [hqueues], by rw [hqueues], by rw [hqueues]⟩
    obtain ⟨hend, hstopped⟩ := decodeReceive_stops (au := au) hfresh ((decodeStop_started au hchecks hg).trans hstop)
    have hall := onlyEntry_trans honly hstopped
    exact ⟨_, by rw [exec_transcodeAu, onDue_turn _ h, heq], hseq ▸ hend, hall.others, hall.frame⟩
  case transcodeRuns =>
    intro q seq e au s h hstop hwin
    obtain ⟨t, g, heq, hg, hfresh, honly, hqueues, hdone⟩ := transcodeReceive_started au h
    have heseq : e.seq = seq := entryTakes_seq h
    have hseq : g.seq = seq := (congrArg QEntry.seq hg).trans heseq
    have hchecks : SameChecks s t := ⟨by rw [hqueues], by rw [hqueues], by rw [hqueues]⟩
    have hasks : t.badWindow (t.sess g.sess).fn (entryAsks (t.sess g.sess).par g.raw g.blocks) = none := by
      rw [badWindow_congr hchecks, hqueues, hg]
      exact hwin
    have hruns := decodeReceive_runs (au := au) hfresh.entry ((decodeStop_started au hchecks hg).trans hstop) hasks
    obtain ⟨f, hf, hstage, hau, hrends⟩ := hruns.entry
    have haus : t.auOf g au = s.auOf e au := by
      rw [auOf_congr hchecks, hg]
      rfl
    refine ⟨_, by rw [exec_transcodeAu, onDue_turn _ h, heq], ⟨f, hseq ▸ hf, ?_, hau.trans (congrArg some haus), ?_⟩, ?_,
      fun p hp => (hruns.others p hp).trans (honly.others p hp), ?_⟩
    · rw [hstage, hg]
    · intro r hr hpart
      obtain ⟨p, hp, hrp, hkeep⟩ := hrends r hr
      exact hkeep (hdone p hp (hrp ▸ hpart))
    · have hsess : g.sess = e.sess := by rw [hg]; rfl
      have hdsc : t.dsc = s.dsc := by rw [hqueues]
      rw [← hdsc, ← hsess, ← hseq]
      exact hruns.units
    · rw [hruns.frame, hqueues]

end Sys2Proof.Machine
end

section
/-! PROOFS. Units that leave their places for good (R39, R46, R75, R168, R516): nothing of that reports a fault, and no half is given a
unit. -/
namespace Sys2Proof.Machine

/-- No fault has been reported, and no half that ran no unit runs one. -/
structure OnlyLeft (s t : State) : Prop where
  fcl : t.fcl = s.fcl
  idle : ∀ h, (s.half h).unit = none → (t.half h).unit = none

theorem onlyLeft_refl (s : State) : OnlyLeft s s := ⟨rfl, fun _ h => h⟩

theorem onlyLeft_trans {s t u : State} (h : OnlyLeft s t) (k : OnlyLeft t u) : OnlyLeft s u :=
  ⟨k.fcl.trans h.fcl, fun j hj => k.idle j (h.idle j hj)⟩

theorem onlyLeft_of_same {s t : State} (hfcl : t.fcl = s.fcl) (hhalves : t.halves = s.halves) : OnlyLeft s t :=
  ⟨hfcl, fun h hh => by rw [State.half, hhalves]; exact hh⟩

theorem onlyLeft_of_put {s t : State} (h : OnlyPut s t) : OnlyLeft s t := onlyLeft_of_same (by rw [h]) (by rw [h])

theorem onlyLeft_of_queued {s t : State} (h : OnlyQueued s t) : OnlyLeft s t := onlyLeft_of_same (by rw [h]) (by rw [h])

theorem onlyLeft_of_entry {q : Nat} {s t : State} (h : OnlyEntry q s t) : OnlyLeft s t := onlyLeft_of_same (by rw [h.frame]) (by rw [h.frame])

theorem forEach_left {β : Type} {f : β → State → State} (xs : List β) (hf : ∀ x t, OnlyLeft t (f x t)) (s : State) : OnlyLeft s (forEach xs f s) :=
  forEach_induct (P := OnlyLeft s) xs (fun x _ t ht => onlyLeft_trans ht (hf x t)) s (onlyLeft_refl s)

theorem modHalf_left (s : State) (h : Nat) (f : Half → Half) (hf : ∀ x, x.unit = none → (f x).unit = none) : OnlyLeft s (s.modHalf h f) := by
  refine ⟨rfl, fun j hj => ?_⟩
  by_cases hjh : h = j
  · subst hjh
    rw [modHalf_half]
    exact hf _ hj
  · rw [modHalf_half_other _ _ _ _ hjh]
    exact hj

theorem modCls_left (s : State) (c : Nat) (f : Cls → Cls) : OnlyLeft s (s.modCls c f) := onlyLeft_of_same rfl rfl

theorem modCtx_left (s : State) (f : Ctx → Ctx) : OnlyLeft s (s.modCtx f) := onlyLeft_of_same rfl rfl

theorem modUnit_left (s : State) (n : Nat) (f : WUnit → WUnit) : OnlyLeft s (s.modUnit n f) := onlyLeft_of_same rfl rfl

theorem dropUnit_left (s : State) (n : Nat) : OnlyLeft s (s.dropUnit n) := onlyLeft_of_same rfl rfl

theorem freeInflight_left (s : State) (n : Nat) : OnlyLeft s (s.freeInflight n) := onlyLeft_of_same rfl rfl

theorem modSess_left (s : State) (n : Nat) (f : Session → Session) : OnlyLeft s (s.modSess n f) := onlyLeft_of_same rfl rfl

theorem modEntry_left (s : State) (q : Nat) (seq : Word) (f : QEntry → QEntry) : OnlyLeft s (s.modEntry q seq f) := onlyLeft_of_same rfl rfl

/-! ### Places -/

theorem settleHalf_left (s : State) (h : Nat) : OnlyLeft s (s.settleHalf h) := by
  unfold State.settleHalf
  dsimp only
  split
  · exact modHalf_left s h _ fun _ hx => hx
  · exact onlyLeft_refl s

theorem withdraw_left (s : State) (h : Nat) : OnlyLeft s (s.withdraw h) := onlyLeft_of_same rfl rfl

theorem releasePlace_left (s : State) (u : WUnit) (b : BankState) : OnlyLeft s (s.releasePlace u b) := by
  unfold State.releasePlace
  split
  · split
    · exact onlyLeft_of_same rfl rfl
    · split
      · exact onlyLeft_of_same rfl rfl
      · exact onlyLeft_trans (modHalf_left s _ _ fun _ _ => rfl) (onlyLeft_trans (withdraw_left ..) (settleHalf_left ..))
  · split
    · refine onlyLeft_trans (modHalf_left s _ _ fun x hx => ?_) (settleHalf_left ..)
      split <;> exact hx
    · exact onlyLeft_refl s
  · exact onlyLeft_refl s

theorem refund_left (s : State) (u : WUnit) (n : Int) : OnlyLeft s (s.refund u n) := forEach_left _ (fun c t => modCls_left t c _) s

theorem settleState_left (s : State) (n : Nat) : OnlyLeft s (s.settleState n) := onlyLeft_of_queued (settleState_queued s n).1

/-! ### Sessions that drain -/

theorem writeDir_left (s : State) (n : Nat) : OnlyLeft s (s.writeDir n) := by
  unfold State.writeDir
  split
  · exact onlyLeft_of_same rfl rfl
  · exact onlyLeft_refl s

theorem freeSession_left (s : State) (n : Nat) : OnlyLeft s (s.freeSession n) :=
  onlyLeft_trans (onlyLeft_trans (modSess_left ..) (modCtx_left ..)) (writeDir_left _ n)

theorem putRecord_left (s : State) (fn space a : Nat) (bs : List Byte) : OnlyLeft s (s.putRecord fn space a bs) :=
  onlyLeft_of_put (putRecord_put ..)

theorem modAdm_left (s : State) (cfg : Bool) (fn : Nat) (f : AdmQ → AdmQ) : OnlyLeft s (s.modAdm cfg fn f) := by
  unfold State.modAdm
  split <;> exact onlyLeft_of_same rfl rfl

theorem finishAdm_left (s : State) (cfg : Bool) (fn : Nat) (tag : Word) (op code cause ret : Nat) :
    OnlyLeft s (s.finishAdm cfg fn tag op code cause ret) :=
  onlyLeft_trans (onlyLeft_trans (putRecord_left ..) (modAdm_left ..)) (putRecord_left ..)

theorem settleDrain_left (s : State) (n : Nat) : OnlyLeft s (s.settleDrain n) := by
  unfold State.settleDrain
  dsimp only
  split
  · split
    · split
      · exact onlyLeft_trans (freeSession_left s n) (finishAdm_left ..)
      · exact freeSession_left s n
    · exact modSess_left ..
  · exact onlyLeft_refl s

/-! ### Units -/

theorem settleEntry_left (s : State) (q : Nat) (seq : Word) : OnlyLeft s (s.settleEntry q seq) :=
  onlyLeft_of_entry (settleEntry_onlyEntry s q seq)

/-- A unit has left its place and its in-flight entry; its session's tail grows by what it wrote (R46). -/
def State.leftPlace (s : State) (u : WUnit) (n : Nat) : State :=
  ((s.releasePlace u .empty).freeInflight n).modSess u.session fun x => { x with stale := x.stale ||| u.written }

theorem leftPlace_left (s : State) (u : WUnit) (n : Nat) : OnlyLeft s (s.leftPlace u n) :=
  onlyLeft_trans (onlyLeft_trans (releasePlace_left ..) (freeInflight_left ..)) (modSess_left ..)

theorem discardUnit_left (s : State) (u : WUnit) : OnlyLeft s (s.discardUnit u) := by
  have hgone : OnlyLeft s ((s.leftPlace u u.uid).dropUnit u.uid) := onlyLeft_trans (leftPlace_left ..) (dropUnit_left ..)
  have hend : ∀ t, OnlyLeft s t → OnlyLeft s (((t.settleState u.session).settleEntry u.q u.seq).settleDrain u.session) := fun t ht =>
    onlyLeft_trans (onlyLeft_trans (onlyLeft_trans ht (settleState_left ..)) (settleEntry_left ..)) (settleDrain_left ..)
  unfold State.discardUnit
  dsimp only
  split
  · exact hend _ (onlyLeft_trans hgone (modEntry_left ..))
  · exact hend _ hgone

theorem rollback_left (s : State) (n : Nat) : OnlyLeft s (s.rollback n) := by
  unfold State.rollback
  split
  · exact onlyLeft_refl s
  · next u _ =>
    split
    · exact onlyLeft_trans (refund_left ..) (discardUnit_left ..)
    · have hwoken := onlyLeft_trans (onlyLeft_trans (leftPlace_left s u n) (refund_left _ u (u.cost : Int))) (onlyLeft_of_queued (wake_queued _ u).1)
      exact onlyLeft_trans (onlyLeft_trans (onlyLeft_trans hwoken (modUnit_left ..)) (settleState_left ..)) (settleDrain_left ..)

theorem sendReq_left (s : State) (u : WUnit) (r : SeqReq) : OnlyLeft s (s.sendReq u r) := by
  unfold State.sendReq
  split
  · split
    · exact modHalf_left s _ _ fun _ hx => hx
    · exact onlyLeft_refl s
  · exact onlyLeft_refl s

theorem stopUnits_left (s : State) (us : List WUnit) : OnlyLeft s (s.stopUnits us) := by
  refine forEach_left us (fun u t => ?_) s
  unfold State.stopUnit
  split
  · exact discardUnit_left ..
  · exact onlyLeft_trans (modUnit_left ..) (sendReq_left ..)

theorem failEntry_left (s : State) (u : WUnit) (code cause : Nat) : OnlyLeft s (s.failEntry u code cause) := by
  unfold State.failEntry
  dsimp only
  split
  · exact onlyLeft_trans (onlyLeft_trans (stopUnits_left ..) (modEntry_left ..)) (settleEntry_left ..)
  · exact onlyLeft_trans (onlyLeft_trans (stopUnits_left ..) (modEntry_left ..)) (onlyLeft_trans (modEntry_left ..) (settleEntry_left ..))

theorem failUnit_left (s : State) (u : WUnit) (code cause : Nat) : OnlyLeft s (s.failUnit u code cause) := by
  have hend : ∀ t, OnlyLeft s t → OnlyLeft s ((t.rollback u.uid).failEntry { u with wantDrop := true } code cause) := fun t ht =>
    onlyLeft_trans (onlyLeft_trans ht (rollback_left ..)) (failEntry_left ..)
  unfold State.failUnit
  dsimp only
  split
  · exact hend _ (modUnit_left ..)
  · exact hend _ (onlyLeft_trans (modUnit_left ..) (modEntry_left ..))

end Sys2Proof.Machine
end

section
/-! PROOFS. The dispatch of hinted units (R13, R60, R75, R262, R283). -/
namespace Sys2Proof.Machine

/-- Entry `ix` of the in-flight table holds unit `u`, which is hinted to place `h` and bank `k`. -/
structure Hinted (s : State) (ix uid h k at_ sp : Nat) (u : WUnit) : Prop where
  inflight : (s.dsc.inflight.find? fun p => p.1 == ix) = some (ix, uid)
  unit : s.unit? uid = some u
  stage : u.stage = .hinted h k at_ sp

theorem unit?_uid {s : State} {n : Nat} {u : WUnit} (h : s.unit? n = some u) : u.uid = n := by
  simpa using List.find?_some h

theorem modUnit_mem {s : State} {n : Nat} {u : WUnit} (f : WUnit → WUnit) (h : s.unit? n = some u) :
    f u ∈ (s.modUnit n f).dsc.units := by
  refine List.mem_map.2 ⟨u, List.mem_of_find?_eq_some h, ?_⟩
  rw [if_pos (by simp [unit?_uid h])]

theorem exec_unitDispatch (ix : Nat) (s : State) (hlive : s.live = true) : exec (.unitDispatch ix) s = .next (unitDispatchOp ix s) := by
  have harm : exec (.unitDispatch ix) s = execUnitDispatch ix s := rfl
  simp [harm, execUnitDispatch, onlyIf, hlive]

/-- What the dispatch of a hinted unit comes to. -/
theorem unitDispatchOp_hinted {s : State} {ix uid h k at_ sp : Nat} {u : WUnit} (H : Hinted s ix uid h k at_ sp u) :
    unitDispatchOp ix s =
      if (s.func u.fn).d3 || !s.gateOpen u (max s.time (at_ + 2000)) then s
      else if u.kind == .mau then (s.reach (at_ + 2000)).dispatchMau u h
      else if u.kind == .pcf then (s.reach (at_ + 2000)).dispatchPcf u h
      else if s.mayStart h k then (s.reach (at_ + 2000)).dispatchCore u h k
      else s := by
  unfold unitDispatchOp
  simp only [H.inflight, H.unit, H.stage]

/-! ### Engines and pipes -/

theorem dispatchMau_frame (s : State) (u : WUnit) (e : Nat) :
    s.dispatchMau u e = { s with dsc := (s.dispatchMau u e).dsc, mau := (s.dispatchMau u e).mau, sessions := (s.dispatchMau u e).sessions } := by
  simp only [State.dispatchMau, State.modSess, State.modUnit, State.modMau, State.modDsc]

/-- The analysis of a picture whose MAU unit starts (R219). -/
def State.newAnalysis (s : State) (u : WUnit) : AnaPic :=
  { index := u.pic
    slot := (lowestFree (((s.sess u.session).ana.filter fun b => b.index != u.pic).map AnaPic.slot) (anaSlots (s.sess u.session).par)).getD 0
    width := (s.mauSize u).1, height := (s.mauSize u).2, complete := false, final := false, first := false, fwd := false, flushed := false
    field := [], score := 0, meanY := 0, seq := u.seq }

/-- The analysis takes the place of one of the same picture. -/
def withAnalysis (a : AnaPic) (x : Session) : Session := { x with ana := (x.ana.filter fun b => b.index != a.index) ++ [a] }

theorem dispatchMau_sessions (s : State) (u : WUnit) (e : Nat) :
    (s.dispatchMau u e).sessions = (s.modSess u.session (withAnalysis (s.newAnalysis u))).sessions := rfl

/-- A MAU unit's start leaves an analysis of its picture in its session, which is not final. -/
theorem dispatchMau_ana (s : State) (u : WUnit) (e : Nat) : ∃ a ∈ ((s.dispatchMau u e).sess u.session).ana, a.index = u.pic ∧ a.final = false := by
  have hsess : (s.dispatchMau u e).sess u.session = withAnalysis (s.newAnalysis u) (s.sess u.session) := by
    rw [State.sess, dispatchMau_sessions]
    exact modSess_sess ..
  rw [hsess]
  exact ⟨s.newAnalysis u, List.mem_append_right _ (List.mem_singleton_self _), rfl, rfl⟩

/-- The engine of a MAU unit that starts holds its number. -/
theorem dispatchMau_starts {s : State} {uid : Nat} {u : WUnit} (e : Nat) (h : s.unit? uid = some u) :
    (∃ w ∈ (s.dispatchMau u e).dsc.units, w.uid = uid ∧ w.stage = .running e ∧ w.runT = s.time)
      ∧ tblGet 0 (s.dispatchMau u e).mau.units e = uid + 1 ∧ (s.dispatchMau u e).dsc.dispatched = sat64 s.dsc.dispatched 1 := by
  have huid := unit?_uid h
  refine ⟨⟨_, modUnit_mem _ (huid.symm ▸ h), huid, rfl, rfl⟩, ?_, rfl⟩
  rw [← huid]
  exact tblGet_tblSet_same 0 s.mau.units e (u.uid + 1)

theorem startPass_frame (s : State) (u : WUnit) (p : Nat) :
    s.startPass u p = { s with dsc := (s.startPass u p).dsc, pcf := (s.startPass u p).pcf } := by
  simp only [State.startPass, State.modUnit, State.modPcf, State.modDsc]

/-- The pipe of a pass that starts holds its unit's number, and a LUT that the pass uses, where none of it is poisoned (R262, R272). -/
theorem startPass_starts {s : State} {uid : Nat} {u : WUnit} (p : Nat) (h : s.unit? uid = some u) :
    (∃ w ∈ (s.startPass u p).dsc.units, w.uid = uid ∧ w.stage = .running p ∧ w.runT = s.time)
      ∧ tblGet 0 (s.startPass u p).pcf.units p = uid + 1 ∧ (s.startPass u p).dsc.dispatched = sat64 s.dsc.dispatched 1
      ∧ (s.usesLut (s.passDesc u) = true → s.poisoned u.lut 39304 = false →
          tblGet false (s.startPass u p).pcf.lutValid p = true ∧ tblGet 0 (s.startPass u p).pcf.lutAddr p = u.lut) := by
  have huid := unit?_uid h
  refine ⟨⟨_, modUnit_mem _ (huid.symm ▸ h), huid, rfl, rfl⟩, ?_, rfl, fun huses hclean => ?_⟩
  · rw [← huid]
    exact tblGet_tblSet_same 0 s.pcf.units p (u.uid + 1)
  · by_cases hheld : tblGet false s.pcf.lutValid p = true ∧ tblGet 0 s.pcf.lutAddr p = u.lut
    · simp [State.startPass, State.modPcf, State.modDsc, State.modUnit, huses, hheld]
    · have hload : (tblGet false s.pcf.lutValid p && tblGet 0 s.pcf.lutAddr p == u.lut) = false := by
        simpa using hheld
      simp [State.startPass, State.modPcf, State.modDsc, State.modUnit, huses, hload, hclean]

/-- A pass whose outputs need no place starts at once. -/
theorem dispatchPcf_starts {s : State} {u : WUnit} (p : Nat) (h : s.passStores u = []) : s.dispatchPcf u p = s.startPass u p := by
  have htake : s.takeStores u = some s := by
    unfold State.takeStores
    rw [h]
    split <;> rfl
  unfold State.dispatchPcf
  rw [htake]

/-! ### Core halves -/

theorem bank_setBank (x : Half) (k : Nat) (b : BankState) : (x.setBank k b).bank k = b := by
  unfold Half.setBank Half.bank
  split <;> rfl

/-- A half as a unit starts on it, from bank `k`. -/
def startedHalf (s : State) (u : WUnit) (h k : Nat) (x : Half) : Half :=
  { (x.setBank k (.active u.session)) with
    activeBank := k, unit := some u.uid, nextA := s.entryAddr u h, waiting := false, waitCycles := 0, waitProg := false, gap := 0,
    dp := Datapath.init, reqs := [], fifo := Fifo.init, stage1 := false, stage2 := false, rowQp := none, qps := [], forced := none, rowWait := false }

theorem startedHalf_starts (s : State) (u : WUnit) (h k : Nat) (x : Half) :
    (startedHalf s u h k x).unit = some u.uid ∧ (startedHalf s u h k x).bank k = .active u.session ∧ (startedHalf s u h k x).activeBank = k
      ∧ (startedHalf s u h k x).waiting = false ∧ (startedHalf s u h k x).winSet = x.winSet := by
  refine ⟨rfl, bank_setBank x k _, rfl, rfl, ?_⟩
  simp only [startedHalf, Half.setBank]
  split <;> rfl

/-- A unit as it starts on a half. -/
def startedUnit (s : State) (u : WUnit) (h : Nat) (w : WUnit) : WUnit :=
  { w with stage := .running h, runT := s.time, cycles := 0, written := 0, aborted := false, done := 0, lines := [], steps := 0,
           par := some ((s.sess u.session).parFor w) }

/-- A unit has started, before its session's state follows. -/
def State.startedCore (s : State) (u : WUnit) (h k : Nat) : State :=
  (((s.modHalf h (startedHalf s u h k)).modUnit u.uid (startedUnit s u h)).modDsc fun d => { d with dispatched := sat64 d.dispatched 1 }).modSess
    u.session fun x => { x with lastCluster := some (h / 16) }

theorem startCore_eq (s : State) (u : WUnit) (h k : Nat) : s.startCore u h k = (s.startedCore u h k).settleState u.session := rfl

/-- Only Babbitt, the halves and the sessions have changed. -/
def OnlyStarted (s t : State) : Prop := t = { s with dsc := t.dsc, halves := t.halves, sessions := t.sessions }

theorem onlyStarted_trans {s t u : State} (h : OnlyStarted s t) (k : OnlyStarted t u) : OnlyStarted s u := by
  unfold OnlyStarted at *
  rw [k, h]

theorem onlyStarted_of_queued {s t : State} (h : OnlyQueued s t) : OnlyStarted s t := by
  unfold OnlyQueued OnlyStarted at *
  rw [h]

theorem modHalf_started (s : State) (h : Nat) (f : Half → Half) : OnlyStarted s (s.modHalf h f) := rfl

theorem modUnit_started (s : State) (n : Nat) (f : WUnit → WUnit) : OnlyStarted s (s.modUnit n f) := rfl

theorem modDsc_started (s : State) (f : Dsc → Dsc) : OnlyStarted s (s.modDsc f) := rfl

theorem modSess_started (s : State) (n : Nat) (f : Session → Session) : OnlyStarted s (s.modSess n f) := rfl

theorem settleState_halves (s : State) (n : Nat) : (s.settleState n).halves = s.halves := by
  rw [(settleState_queued s n).1]

theorem startCore_started (s : State) (u : WUnit) (h k : Nat) : OnlyStarted s (s.startCore u h k) :=
  onlyStarted_trans (onlyStarted_trans (onlyStarted_trans (onlyStarted_trans (modHalf_started ..) (modUnit_started ..)) (modDsc_started ..))
    (modSess_started ..)) (onlyStarted_of_queued (settleState_queued (s.startedCore u h k) u.session).1)

theorem startCore_half (s : State) (u : WUnit) (h k j : Nat) : (s.startCore u h k).half j = (s.modHalf h (startedHalf s u h k)).half j := by
  rw [startCore_eq, State.half, settleState_halves]
  rfl

theorem startCore_dsc (s : State) (u : WUnit) (h k : Nat) : (s.startCore u h k).dsc = (s.startedCore u h k).dsc :=
  (settleState_queued (s.startedCore u h k) u.session).2

theorem mayStart_idle {s : State} {h k : Nat} (hmay : s.mayStart h k = true) : (s.half h).unit = none := by
  simp only [State.mayStart, Bool.and_eq_true, Option.isNone_iff_eq_none] at hmay
  exact hmay.1.1.2

/-- A segment of a decoded picture that the session does not hold is loaded as it stands. -/
theorem dispatchCore_segment {s : State} {u : WUnit} (h k : Nat) (hkind : u.kind = .segment) (hdec : (s.sess u.session).par.encode = false)
    (hpics : ∀ p ∈ (s.sess u.session).pics, p.num ≠ u.pic) : s.dispatchCore u h k = s.loadUnit u h k := by
  have hfind : ((s.sess u.session).pics.find? fun p => p.num == u.pic) = none :=
    List.find?_eq_none.2 fun p hp => by simpa using hpics p hp
  unfold State.dispatchCore
  rw [if_neg (by simp [hdec]), if_neg (by simp [hkind, UKind.begins]), State.keepSlot, hfind]

/-- A unit has started on a half that loaded its windows. -/
def State.startLoaded (s : State) (u : WUnit) (h k : Nat) : State := (s.modHalf h fun x => { x with winSet := u.windows }).startCore u h k

theorem startLoaded_half (s : State) (u : WUnit) (h k : Nat) :
    ((s.startLoaded u h k).half h).unit = some u.uid ∧ ((s.startLoaded u h k).half h).bank k = .active u.session
      ∧ ((s.startLoaded u h k).half h).activeBank = k ∧ ((s.startLoaded u h k).half h).waiting = false
      ∧ ((s.startLoaded u h k).half h).winSet = u.windows := by
  rw [State.startLoaded, startCore_half, modHalf_half, modHalf_half]
  exact startedHalf_starts ..

theorem startLoaded_half_other (s : State) (u : WUnit) (h k j : Nat) (hj : j ≠ h) : (s.startLoaded u h k).half j = s.half j := by
  rw [State.startLoaded, startCore_half, modHalf_half_other _ _ _ _ hj.symm, modHalf_half_other _ _ _ _ hj.symm]

theorem startLoaded_started (s : State) (u : WUnit) (h k : Nat) : OnlyStarted s (s.startLoaded u h k) :=
  onlyStarted_trans (modHalf_started ..) (startCore_started ..)

theorem startLoaded_unit {s : State} {uid : Nat} {u : WUnit} (h k : Nat) (hunit : s.unit? uid = some u) :
    (∃ w ∈ (s.startLoaded u h k).dsc.units, w.uid = uid ∧ w.stage = .running h ∧ w.cycles = 0)
      ∧ (s.startLoaded u h k).dsc.dispatched = sat64 s.dsc.dispatched 1 := by
  have huid := unit?_uid hunit
  rw [State.startLoaded, startCore_dsc]
  exact ⟨⟨_, modUnit_mem (startedUnit _ u h) (huid.symm ▸ hunit), huid, rfl, rfl⟩, rfl⟩

theorem loadUnit_starts {s : State} {uid : Nat} {u : WUnit} (h k : Nat) (hunit : s.unit? uid = some u)
    (hdec : (s.sess u.session).par.encode = false) (hloads : s.loadFails u.fn false u.windows = none) :
    s.loadUnit u h k = s.startLoaded u h k := by
  rw [← unit?_uid hunit] at hunit
  simp only [State.loadUnit, hunit, Option.getD_some, hdec, hloads, State.startLoaded]

/-- A unit whose window fails its check is refused with a record of the window (R75). -/
theorem loadUnit_refuses {s : State} {uid i : Nat} {u : WUnit} (h k : Nat) (hunit : s.unit? uid = some u)
    (hdec : (s.sess u.session).par.encode = false) (hfails : s.loadFails u.fn false u.windows = some i) :
    s.loadUnit u h k =
      ((s.modHalf h fun x => { x with winSet := markFail i u.windows }).reportWindow u.fn u.session i).failUnit u 0x11 0x23 := by
  rw [← unit?_uid hunit] at hunit
  simp only [State.loadUnit, hunit, Option.getD_some, hdec, hfails]

/-- A refused window is a fault of class U under every policy (Table 19-3). -/
theorem reportWindow_record (s : State) (fn n w : Nat) :
    ∃ r ∈ (s.reportWindow fn n w).fcl.inbox, r.code = 0x22 ∧ r.cls = 3 := by
  have hcls : s.reportClass 0x22 = 3 := by simp [State.reportClass, codeClass]
  exact ⟨_, List.mem_append_right _ (List.mem_singleton_self _), rfl, hcls⟩

/-! ### The statement about dispatch -/

/-- Settles O27: a hinted unit's dispatch comes to one of five cases (`unitDispatchOp_hinted`), and each kind of place has its own start;
a refused unit leaves its half idle, since nothing that its withdrawal does gives a half a unit (`failUnit_left`). -/
theorem unitDispatch : Obligations.UnitDispatch := by
  unfold Obligations.UnitDispatch
  refine ⟨?mau, ?pcf, ?segment, ?refused, ?none⟩
  case mau =>
    intro ix uid e k at_ sp u s hlive hix hunit hstage hkind hd3 hgate
    have hop := unitDispatchOp_hinted ⟨hix, hunit, hstage⟩
    rw [if_neg (by simp [hd3, hgate]), if_pos (by simp [hkind])] at hop
    obtain ⟨hrun, hengine, hcount⟩ := dispatchMau_starts (s := s.reach (at_ + 2000)) e hunit
    exact ⟨_, by rw [exec_unitDispatch ix s hlive, hop], rfl, hrun, hengine, hcount, dispatchMau_ana .., dispatchMau_frame (s.reach (at_ + 2000)) u e⟩
  case pcf =>
    intro ix uid e k at_ sp u s hlive hix hunit hstage hkind hd3 hgate hstores
    have hop := unitDispatchOp_hinted ⟨hix, hunit, hstage⟩
    rw [if_neg (by simp [hd3, hgate]), if_neg (by simp [hkind]), if_pos (by simp [hkind]),
      dispatchPcf_starts (s := s.reach (at_ + 2000)) e hstores] at hop
    obtain ⟨hrun, hpipe, hcount, hlut⟩ := startPass_starts (s := s.reach (at_ + 2000)) e hunit
    exact ⟨_, by rw [exec_unitDispatch ix s hlive, hop], rfl, hrun, hpipe, hcount, hlut, startPass_frame (s.reach (at_ + 2000)) u e⟩
  case segment =>
    intro ix uid h k at_ sp u s hlive hix hunit hstage hkind hd3 hdec hmay hgate hpics hloads
    have hop := unitDispatchOp_hinted ⟨hix, hunit, hstage⟩
    rw [if_neg (by simp [hd3, hgate]), if_neg (by simp [hkind]), if_neg (by simp [hkind]), if_pos hmay,
      dispatchCore_segment (s := s.reach (at_ + 2000)) h k hkind hdec hpics, loadUnit_starts (s := s.reach (at_ + 2000)) h k hunit hdec hloads] at hop
    obtain ⟨hrun, hcount⟩ := startLoaded_unit (s := s.reach (at_ + 2000)) h k hunit
    obtain ⟨hholds, hbank, hactive, hwaiting, hwin⟩ := startLoaded_half (s.reach (at_ + 2000)) u h k
    have hframe := startLoaded_started (s.reach (at_ + 2000)) u h k
    refine ⟨_, by rw [exec_unitDispatch ix s hlive, hop], hrun, unit?_uid hunit ▸ hholds, hbank, hactive, hwaiting, hwin, hcount, ?_,
      fun j hj => startLoaded_half_other _ _ _ _ _ hj, ?_⟩
    · rw [hframe]
      rfl
    · rw [hframe]
      rfl
  case refused =>
    intro ix uid h k at_ sp i u s hlive hix hunit hstage hkind hd3 hdec hmay hgate hpics hfails
    have hop := unitDispatchOp_hinted ⟨hix, hunit, hstage⟩
    rw [if_neg (by simp [hd3, hgate]), if_neg (by simp [hkind]), if_neg (by simp [hkind]), if_pos hmay,
      dispatchCore_segment (s := s.reach (at_ + 2000)) h k hkind hdec hpics, loadUnit_refuses (s := s.reach (at_ + 2000)) h k hunit hdec hfails] at hop
    have hleft := failUnit_left (((s.reach (at_ + 2000)).modHalf h fun x => { x with winSet := markFail i u.windows }).reportWindow u.fn u.session i)
      u 0x11 0x23
    refine ⟨_, by rw [exec_unitDispatch ix s hlive, hop], ?_, hleft.idle h ?_⟩
    · rw [hleft.fcl]
      exact reportWindow_record ..
    · have hset := modHalf_half (s.reach (at_ + 2000)) h fun x => { x with winSet := markFail i u.windows }
      exact (congrArg Half.unit hset).trans (mayStart_idle hmay)
  case none =>
    intro ix uid h k at_ sp u s hix hunit hstage hstop
    have hop := unitDispatchOp_hinted ⟨hix, hunit, hstage⟩
    have hstays : unitDispatchOp ix s = s := by
      rw [hop]
      rcases hstop with ⟨hcore, hmay⟩ | hgate
      · have hmau : ¬ (u.kind == .mau) = true := by
          intro hk
          simp [beq_iff_eq.1 hk, UKind.onCore] at hcore
        have hpcf : ¬ (u.kind == .pcf) = true := by
          intro hk
          simp [beq_iff_eq.1 hk, UKind.onCore] at hcore
        simp [hmau, hpcf, hmay]
      · simp [hgate]
    have harm : exec (.unitDispatch ix) s = execUnitDispatch ix s := rfl
    simp [harm, execUnitDispatch, onlyIf, hstays]

end Sys2Proof.Machine
end

section
/-! PROOFS. Context banks (R59 to R61): what a half's bank becomes when its preload or its drain is done, and what a prefetch caches. -/
namespace Sys2Proof.Machine

/-! ### Banks of a half -/

theorem bank_setBank_other (x : Half) (k : Nat) (b : BankState) (h : k < 2) : (x.setBank k b).bank (1 - k) = x.bank (1 - k) := by
  have hk : k = 0 ∨ k = 1 := by omega
  rcases hk with rfl | rfl <;> rfl

theorem setBank_unit (x : Half) (k : Nat) (b : BankState) : (x.setBank k b).unit = x.unit := by
  unfold Half.setBank
  split <;> rfl

theorem setBank_fstate (x : Half) (k : Nat) (b : BankState) : (x.setBank k b).fstate = x.fstate := by
  unfold Half.setBank
  split <;> rfl

/-- Both banks are EMPTY: bank `k` and the other one. -/
theorem banks_empty_iff (x : Half) (k : Nat) (h : k < 2) :
    (x.bank0 = .empty ∧ x.bank1 = .empty) ↔ (x.bank k = .empty ∧ x.bank (1 - k) = .empty) := by
  have hk : k = 0 ∨ k = 1 := by omega
  rcases hk with rfl | rfl
  · exact Iff.rfl
  · exact and_comm

/-! ### Preloads -/

theorem exec_preloadDone (h k : Nat) (s : State) (hlive : s.live = true) (hk : k < 2) :
    exec (.preloadDone h k) s = .next (preloadOp h k s) := by
  have harm : exec (.preloadDone h k) s = execPreloadDone h k s := rfl
  simp [harm, execPreloadDone, onlyIf, hlive, hk]

/-- The half as its bank is READY. -/
def State.bankReady (s : State) (h k n t0 : Nat) : State := s.modHalf h fun x => x.setBank k (.ready n t0)

theorem preloadOp_loading {h k n t0 : Nat} {s : State} (hload : (s.half h).bank k = .loading n t0) :
    preloadOp h k s = (s.bankReady h k n t0).modCtx fun c =>
      { c with late := if t0 + 2000 < s.time ∧ (s.half h).unit = none then sat32 c.late 1 else c.late } := by
  simp only [preloadOp, hload, Bool.and_eq_true, decide_eq_true_eq, Option.isNone_iff_eq_none]
  by_cases hlate : t0 + 2000 < s.time ∧ (s.half h).unit = none
  · simp only [if_pos hlate]
    rfl
  · simp only [if_neg hlate]
    rfl

/-! ### Prefetches -/

theorem exec_contextPrefetch (s : State) (hlive : s.live = true) (hon : s.ctx.ctrl.getLsbD 8 = true) :
    exec .contextPrefetch s = .next (prefetchOp s) := by
  have harm : exec .contextPrefetch s = execContextPrefetch s := rfl
  simp [harm, execContextPrefetch, onlyIf, bitAt_toNat, hlive, hon]

theorem exec_contextPrefetch_off (s : State) (hoff : s.ctx.ctrl.getLsbD 8 = false) : exec .contextPrefetch s = .next s := by
  have harm : exec .contextPrefetch s = execContextPrefetch s := rfl
  rw [harm, execContextPrefetch, onlyIf, bitAt_toNat, hoff, Bool.and_false]
  rfl

/-- The state with a session's line added to its set, as the most recently used. -/
def State.withLine (s : State) (n : Nat) : State :=
  (s.setLines n (s.cacheSet n ++ [{ session := n, dirty := false, used := s.ctx.stamp + 1 }])).modCtx fun c => { c with stamp := c.stamp + 1 }

theorem allocLine_room {s : State} {n : Nat} (may : Nat → Bool) (h : (s.cacheSet n).length < s.ways n) :
    s.allocLine n may = some (s.withLine n) := by
  simp only [State.allocLine, if_pos h, State.withLine]

theorem withLine_cached (s : State) (n : Nat) : (s.withLine n).cached n = true := by
  have hset : (s.withLine n).cacheSet n = s.cacheSet n ++ [{ session := n, dirty := false, used := s.ctx.stamp + 1 }] := tblGet_tblSet_same ..
  simp [State.cached, hset]

theorem prefetchOp_room {s : State} {n : Nat}
    (hplan : ((s.dispatchPlan.take (s.ctx.ctrl.toNat % 256)).find? fun m => !s.cached m) = some n)
    (hroom : (s.cacheSet n).length < s.ways n) : prefetchOp s = s.withLine n := by
  have hdepth : fld s.ctx.ctrl.toNat 0 8 = s.ctx.ctrl.toNat % 256 := by simp [fld]
  simp only [prefetchOp, hdepth, hplan, allocLine_room _ hroom, Option.getD_some]

/-! ### Drains -/

theorem exec_bankDrainDone (h k : Nat) (s : State) (hlive : s.live = true) (hk : k < 2) :
    exec (.bankDrainDone h k) s = .next (drainOp h k s) := by
  have harm : exec (.bankDrainDone h k) s = execBankDrainDone h k s := rfl
  simp [harm, execBankDrainDone, onlyIf, hlive, hk]

/-- A fencing half that holds nothing is FENCED (R82). -/
def Half.settled (x : Half) : FState :=
  if x.fstate = .fencing ∧ x.unit = none ∧ x.bank0 = .empty ∧ x.bank1 = .empty then .fenced else x.fstate

theorem settleHalf_frame (s : State) (h : Nat) :
    s.settleHalf h = { s with halves := (s.settleHalf h).halves } ∧ ∀ j, j ≠ h → (s.settleHalf h).half j = s.half j := by
  unfold State.settleHalf
  dsimp only
  split
  · exact ⟨rfl, fun j hj => modHalf_half_other _ _ _ _ hj.symm⟩
  · exact ⟨rfl, fun _ _ => rfl⟩

theorem settleHalf_half (s : State) (h : Nat) : (s.settleHalf h).half h = { s.half h with fstate := (s.half h).settled } := by
  unfold State.settleHalf Half.settled
  by_cases hholds : (s.half h).fstate = .fencing ∧ (s.half h).unit = none ∧ (s.half h).bank0 = .empty ∧ (s.half h).bank1 = .empty
  · simp [hholds]
  · rw [if_neg hholds, if_neg (by simpa [and_assoc] using hholds)]

theorem drainOp_draining {h k n : Nat} {s : State} (hdrain : (s.half h).bank k = .draining n) :
    drainOp h k s = (s.modHalf h fun x => x.setBank k .empty).settleHalf h := by
  unfold drainOp
  rw [hdrain]

/-- A half whose bank has drained settles by its other bank. -/
theorem settled_setBank_empty (x : Half) (k : Nat) (hk : k < 2) :
    (x.setBank k .empty).settled = if x.fstate = .fencing ∧ x.unit = none ∧ x.bank (1 - k) = .empty then .fenced else x.fstate := by
  simp only [Half.settled, banks_empty_iff _ k hk, bank_setBank, bank_setBank_other _ _ _ hk, setBank_unit, setBank_fstate, true_and]

/-! ### The statement about context movements -/

/-- Settles O29: a loading bank becomes READY (`preloadOp_loading`), a prefetch with room adds a line (`prefetchOp_room`), and a drained half settles
(`settleHalf_half`). -/
theorem contextMovements : Obligations.ContextMovements := by
  unfold Obligations.ContextMovements
  refine ⟨?preload, ?prefetch, ?off, ?drain⟩
  case preload =>
    intro h k n t0 s hlive hk hload
    have hhalf : (s.bankReady h k n t0).half h = (s.half h).setBank k (.ready n t0) := modHalf_half ..
    refine ⟨_, by rw [exec_preloadDone h k s hlive hk, preloadOp_loading hload], ?_, ?_, ?_, fun j hj => ?_, rfl, rfl⟩
    · exact hhalf ▸ bank_setBank ..
    · exact hhalf ▸ bank_setBank_other _ _ _ hk
    · exact hhalf ▸ setBank_unit ..
    · exact modHalf_half_other s h j (fun x => x.setBank k (.ready n t0)) hj.symm
  case prefetch =>
    intro n s hlive hon hplan hroom
    exact ⟨_, by rw [exec_contextPrefetch s hlive hon, prefetchOp_room hplan hroom], withLine_cached s n, rfl⟩
  case off =>
    exact fun s hoff => exec_contextPrefetch_off s hoff
  case drain =>
    intro h k n s hlive hk hdrain
    have hhalf : (drainOp h k s).half h = { (s.half h).setBank k .empty with fstate := ((s.half h).setBank k .empty).settled } := by
      rw [drainOp_draining hdrain, settleHalf_half, modHalf_half]
    obtain ⟨hframe, hothers⟩ := settleHalf_frame (s.modHalf h fun x => x.setBank k .empty) h
    rw [← drainOp_draining hdrain] at hframe hothers
    refine ⟨_, exec_bankDrainDone h k s hlive hk, ?_, ?_, ?_, fun j hj => (hothers j hj).trans (modHalf_half_other s h j _ hj.symm), hframe⟩
    · exact hhalf ▸ bank_setBank ..
    · exact hhalf ▸ bank_setBank_other _ _ _ hk
    · exact hhalf ▸ settled_setBank_empty _ k hk

end Sys2Proof.Machine
end

section
/-! PROOFS. Query registers (R33, R293, R323, R355), and the blocks that offsets of BAR 0 name (R483 to R485). -/
namespace Sys2Proof.Machine

/-! ### Queries -/

theorem fld_zero (v w : Nat) : fld v 0 w = v % 2 ^ w := by simp [fld]

/-- The writes of the query IDs, where function 0 runs work. -/
theorem exec_queryIdWrites (v : Word) (s : State) (h : s.fnLive 0 = true) :
    exec (.ctxQueryIdWrite v) s = .next (ctxQueryOp v s) ∧ exec (.dscClassQueryWrite v) s = .next (dscQueryOp v s)
      ∧ exec (.qeQueryIdWrite v) s = .next (qeQueryOp v s) ∧ exec (.bpmQueryIdWrite v) s = .next (bpmQueryOp v s) := by
  have hctx : exec (.ctxQueryIdWrite v) s = execCtxQueryIdWrite v s := rfl
  have hdsc : exec (.dscClassQueryWrite v) s = execDscClassQueryWrite v s := rfl
  have hqe : exec (.qeQueryIdWrite v) s = execQeQueryIdWrite v s := rfl
  have hbpm : exec (.bpmQueryIdWrite v) s = execBpmQueryIdWrite v s := rfl
  rw [hctx, hdsc, hqe, hbpm, execCtxQueryIdWrite, execDscClassQueryWrite, execQeQueryIdWrite, execBpmQueryIdWrite]
  simp only [onlyIf, h, if_true, and_self]

/-- A query whose result is not VALID completes. -/
theorem exec_queryResultValid (k : QueryKind) (s : State) (hlive : s.live = true) (hopen : s.queryOpen k = true) :
    exec (.queryResultValid k) s = .next (queryOp k s) := by
  have harm : exec (.queryResultValid k) s = execQueryResultValid k s := rfl
  simp only [harm, execQueryResultValid, onlyIf, hlive, hopen, Bool.and_self, if_true]

theorem poolWord_of_pool {s : State} {n : Nat} {p : Pool} (h : s.pool? n = some p) :
    s.poolWord n = 2 ^ 31 + 2 ^ 30 + p.fn * 2 ^ 24 + p.bufLog := by
  simp only [State.poolWord, h, Nat.add_assoc]

/-! ### Blocks of BAR 0 -/

theorem blkOf_vf (fn off : Nat) (h : 0 < fn) : blkOf fn off = blkVf fn off := by
  have hne : (fn == 0) = false := by simp; omega
  simp only [blkOf, hne]
  rfl

/-- Each core has 256 KiB from 0x1000000 on. -/
theorem blkPf_core (n : Nat) (h : n < 64) : blkPf (0x1000000 + 0x40000 * n) = (.core n, 0) := by
  have hplace : (0x1000000 + 0x40000 * n - 0x1000000) / 0x40000 = n := by omega
  have hstart : (0x1000000 + 0x40000 * n) % 0x40000 = 0 := by omega
  unfold blkPf
  dsimp only
  rw [if_neg (by omega), if_pos (by omega), hplace, hstart, if_pos (by decide)]

/-- Each DRAM channel has 64 KiB from 0xB00000 on. -/
theorem blkPf_drs (k : Nat) (h : k < 16) : blkPf (0xB00000 + 0x10000 * k) = (.drs k, 0) := by
  have hblock : (0xB00000 + 0x10000 * k) / 0x100000 = 11 := by omega
  have hplace : (0xB00000 + 0x10000 * k) % 0x100000 / 0x10000 = k := by omega
  have hstart : (0xB00000 + 0x10000 * k) % 0x100000 % 0x10000 = 0 := by omega
  unfold blkPf
  dsimp only
  rw [if_pos (by omega), hblock]
  simp only [hplace, hstart]

/-- Each queue has a doorbell of 64 bytes from 0x2000000 on. -/
theorem blkPf_bell (q : Nat) (h : q < 65536) : blkPf (0x2000000 + 64 * q) = (.bell q, 0) := by
  have hplace : (0x2000000 + 64 * q - 0x2000000) / 64 = q := by omega
  have hstart : (0x2000000 + 64 * q) % 64 = 0 := by omega
  unfold blkPf
  dsimp only
  rw [if_neg (by omega), if_neg (by omega), if_pos (by omega), hplace, hstart]

/-- Nothing lies between the blocks and the cores. -/
theorem blkPf_between (off : Nat) (hlo : 0xE00000 ≤ off) (hhi : off < 0x1000000) : (blkPf off).1 = .none_ := by
  have hblock : off / 0x100000 = 14 ∨ off / 0x100000 = 15 := by omega
  unfold blkPf
  dsimp only
  rw [if_pos hhi]
  rcases hblock with h | h <;> simp only [h]

/-- Nothing lies above the interrupt page. -/
theorem blkPf_above (off : Nat) (h : 0x2403000 ≤ off) : (blkPf off).1 = .none_ := by
  unfold blkPf
  dsimp only
  rw [if_neg (by omega), if_neg (by omega), if_neg (by omega), if_neg (by omega), if_neg (by omega), if_neg (by omega)]

theorem blkVf_bell (fn q : Nat) (h : q < 2048) : blkVf fn (64 * q) = (.bell q, 0) := by
  have hplace : 64 * q / 64 = q := by omega
  have hstart : 64 * q % 64 = 0 := by omega
  rw [blkVf, if_pos (by omega), hplace, hstart]

/-! ### The statement about query registers -/

/-- Settles O58: the query commands each touch one block, and the offsets of BAR 0 are found by their ranges. -/
theorem queryRegisters : Obligations.QueryRegisters := by
  unfold Obligations.QueryRegisters
  refine ⟨?writes, ?ctx, ?dsc, ?qe, ?bpm, ?blocks⟩
  case writes =>
    intro v s hlive
    obtain ⟨hctx, hdsc, hqe, hbpm⟩ := exec_queryIdWrites v s hlive
    rw [hctx, hdsc, hqe, hbpm, ctxQueryOp, dscQueryOp, qeQueryOp, bpmQueryOp]
    simp only [fld_zero]
    exact ⟨rfl, rfl, rfl, rfl⟩
  case ctx =>
    intro s hlive hopen
    rw [exec_queryResultValid .ctx s hlive (congrArg not hopen)]
    rfl
  case dsc =>
    intro s hlive hopen
    rw [exec_queryResultValid .dsc s hlive (congrArg not hopen)]
    rfl
  case qe =>
    intro s hlive hopen
    rw [exec_queryResultValid .qe s hlive (congrArg not hopen)]
    rfl
  case bpm =>
    intro p s hlive hopen hpool
    rw [exec_queryResultValid .bpm s hlive (congrArg not hopen), ← poolWord_of_pool hpool]
    simp only [queryOp, State.modBpm, hpool, Option.map_some, Option.getD_some]
  case blocks =>
    refine ⟨by decide, by decide, by decide, fun n hn => blkPf_core n hn, fun k hk => blkPf_drs k hk, fun q hq => blkPf_bell q hq,
      fun fn hfn => ?_, fun fn q hfn hq => ?_, fun off hlo hhi => blkPf_between off hlo hhi, fun off hlo _ => blkPf_above off hlo⟩
    · simp only [blkOf_vf fn _ hfn]
      exact ⟨rfl, rfl, rfl⟩
    · rw [blkOf_vf fn _ hfn, blkVf_bell fn q hq]

end Sys2Proof.Machine
end

section
/-! PROOFS. What goes out is only added to: writes for a function, result records, and entries that end. -/
namespace Sys2Proof.Machine

theorem send_out (s : State) (o : Out) : (s.send o).out = s.out ++ [o] := rfl

theorem emitFor_out (s : State) (fn : Nat) (o : Out) : s.out <+: (s.emitFor fn o).out := by
  unfold State.emitFor
  split
  · exact List.prefix_refl _
  · split
    · exact List.prefix_refl _
    · exact List.prefix_append ..

theorem sendSnoop_out (s : State) (l : Nat) (data : Bool) : s.out <+: (s.sendSnoop l data).out := by
  unfold State.sendSnoop
  dsimp only
  split
  · exact List.prefix_refl _
  · split
    · exact List.prefix_append ..
    · exact List.prefix_refl _

theorem lineWrite_out (s : State) (l a : Nat) (bs : List Byte) : s.out <+: (s.lineWrite l a bs).out := by
  unfold State.lineWrite
  dsimp only
  split
  · split
    · exact List.prefix_append ..
    · exact sendSnoop_out (s.modHlu _) l false
  · exact List.prefix_refl _

theorem devWrite_out (s : State) (a : Nat) (bs : List Byte) : s.out <+: (s.devWrite a bs).out := by
  unfold State.devWrite
  split
  · exact forEach_induct (P := fun t : State => s.out <+: t.out) _ (fun l _ t ht => ht.trans (lineWrite_out t l _ _)) s (List.prefix_refl _)
  · exact List.prefix_refl _

theorem putRecord_out (s : State) (fn space a : Nat) (bs : List Byte) : s.out <+: (s.putRecord fn space a bs).out := by
  unfold State.putRecord State.putBytes
  split
  · exact List.prefix_refl _
  · split
    · exact emitFor_out ..
    · exact devWrite_out ..

/-- A record for a function that is reachable goes out to host memory at once (R367, R372, R375, R378). -/
theorem putRecord_sent (s : State) (fn a : Nat) (bs : List Byte) (hflr : (s.func fn).flr = false) (hd3 : (s.func fn).d3 = false)
    (hlink : s.linkPasses = true) : s.putRecord fn 0 a bs = s.send (.hostWrite fn a bs false) := by
  have hput : s.putRecord fn 0 a bs = s.emitFor fn (.hostWrite fn a bs false) := by simp [State.putRecord, State.putBytes, hflr]
  rw [hput, emitFor_sent s fn _ hflr hd3 hlink]

theorem putResult_out (s : State) (q : Nat) (seq : Word) : s.out <+: (s.putResult q seq).out := by
  unfold State.putResult
  split
  · exact List.prefix_refl _
  · dsimp only
    split <;> exact putRecord_out ..

theorem putResult_out_of {s t : State} (q : Nat) (seq : Word) (h : t.out = s.out) : s.out <+: (t.putResult q seq).out :=
  h ▸ putResult_out t q seq

theorem noteEnd_out (s : State) (q : Nat) (e : QEntry) : (s.noteEnd q e).out = s.out := by
  unfold State.noteEnd
  split <;> rfl

theorem finishEntry_out (s : State) (q : Nat) (seq : Word) : s.out <+: (s.finishEntry q seq).out := by
  unfold State.finishEntry
  split
  · exact List.prefix_refl _
  · split
    · exact List.prefix_refl _
    · have hdone : ∀ (f : QEntry → QEntry) e, s.out <+: (((s.modEntry q seq f).putResult q seq).noteEnd q e).out := fun f e => by
        rw [noteEnd_out]
        exact putResult_out_of q seq rfl
      dsimp only
      split
      · refine forEach_induct (P := fun t : State => s.out <+: t.out) _ (fun f _ t ht => ?_) _ (hdone _ _)
        exact ht.trans (putResult_out_of q f.seq rfl)
      · exact hdone _ _

theorem settleEntry_out (s : State) (q : Nat) (seq : Word) : s.out <+: (s.settleEntry q seq).out := by
  unfold State.settleEntry
  split
  · split
    · exact finishEntry_out ..
    · exact List.prefix_refl _
  · exact List.prefix_refl _

theorem endEntry_out (s : State) (q : Nat) (seq : Word) (c k : Nat) : s.out <+: (s.endEntry q seq c k).out := by
  rw [endEntry_eq]
  exact settleEntry_out ((s.modEntry q seq (withRendsEnded c k)).modEntry q seq (withOutcome c k)) q seq

end Sys2Proof.Machine
end

section
/-! PROOFS. Entries that end without having run anything: the outcome OK beside those that stand above it, and entries that close. -/
namespace Sys2Proof.Machine

/-- The outcome is OK, or stands above it (R153, R169). -/
def IsOutcome (c k : Nat) : Prop := (c = 0 ∧ k = 0) ∨ codeRank c k < 9

theorem withOutcome_clean (e : QEntry) (c k : Nat) (hcode : e.code = 0) (hcause : e.cause = 0) (h : IsOutcome c k) :
    withOutcome c k e = { e with code := c, cause := k, closing := true } := by
  rcases h with ⟨rfl, rfl⟩ | hrank
  · rw [withOutcome, QEntry.note, if_pos (by simp [hcode, hcause])]
  · exact withOutcome_fresh e c k hcode hcause hrank

theorem settleEntry_ends {s : State} {q : Nat} {seq : Word} {e : QEntry} (h : (s.queue q).entry? seq = some e) (hopen : e.stage ≠ .done)
    (hclosing : e.closing = true) (hrels : e.relPics = []) (hunits : s.entryUnits q seq = []) :
    (s.settleEntry q seq).entryEnds q seq e.code e.cause := by
  rw [settleEntry_finishes h hclosing hrels hunits]
  exact finishEntry_ends h hopen

theorem closeEntry_eq (s : State) (q : Nat) (seq : Word) (c k : Nat) :
    s.closeEntry q seq c k = (s.modEntry q seq (withOutcome c k)).settleEntry q seq := rfl

theorem closeEntry_onlyEntry (s : State) (q : Nat) (seq : Word) (c k : Nat) : OnlyEntry q s (s.closeEntry q seq c k) := by
  rw [closeEntry_eq]
  exact onlyEntry_trans (modEntry_onlyEntry ..) (settleEntry_onlyEntry ..)

theorem closeEntry_ends {s : State} {q : Nat} {seq : Word} {f : QEntry} {c k : Nat} (h : Untouched s q seq f) (hc : IsOutcome c k) :
    (s.closeEntry q seq c k).entryEnds q seq c k := by
  have hentry := modEntry_entry s q seq (withOutcome c k) f (withOutcome_seq c k) h.entry
  rw [withOutcome_clean f c k h.code h.cause hc] at hentry
  exact settleEntry_ends hentry h.isOpen rfl h.rels h.units

/-- A function that keeps all that says whether an entry has run anything. -/
def KeepsUntouched (f : QEntry → QEntry) : Prop :=
  ∀ e, (f e).seq = e.seq ∧ (f e).stage = e.stage ∧ (f e).code = e.code ∧ (f e).cause = e.cause ∧ (f e).relPics = e.relPics

theorem untouched_modEntry {s : State} {q : Nat} {seq : Word} {e : QEntry} {f : QEntry → QEntry} (hf : KeepsUntouched f)
    (h : Untouched s q seq e) : Untouched (s.modEntry q seq f) q seq (f e) := by
  obtain ⟨-, hstage, hcode, hcause, hrels⟩ := hf e
  exact ⟨modEntry_entry s q seq f e (fun e => (hf e).1) h.entry, hstage ▸ h.isOpen, hcode.trans h.code, hcause.trans h.cause, hrels.trans h.rels,
    h.units⟩

theorem endEntry_closes (s : State) (q : Nat) (seq : Word) (c k : Nat) :
    s.endEntry q seq c k = (s.modEntry q seq (withRendsEnded c k)).closeEntry q seq c k := rfl

theorem untouched_ends {s : State} {q : Nat} {seq : Word} {f : QEntry} {c k : Nat} (h : Untouched s q seq f) (hc : IsOutcome c k) :
    (s.endEntry q seq c k).entryEnds q seq c k := by
  rw [endEntry_closes]
  exact closeEntry_ends (untouched_modEntry (fun _ => ⟨rfl, rfl, rfl, rfl, rfl⟩) h) hc

theorem untouched_of_put {s t : State} {q : Nat} {seq : Word} {e : QEntry} (hput : OnlyPut s t) (h : Untouched s q seq e) : Untouched t q seq e := by
  unfold OnlyPut at hput
  rw [hput]
  exact ⟨h.entry, h.isOpen, h.code, h.cause, h.rels, h.units⟩

end Sys2Proof.Machine
end

section
/-! PROOFS. COPY and FENCE entries (R289, R302, R350). -/
namespace Sys2Proof.Machine

/-! ### COPY -/

theorem granted_congr {s t : State} (h : t.boot = s.boot) (fn a n : Nat) : t.granted fn a n = s.granted fn a n := by
  simp only [State.granted, State.regionOf, h]

theorem copyRefused_congr {s t : State} (h : t.boot = s.boot) (fn : Nat) (e : Entry) : t.copyRefused fn e = s.copyRefused fn e := by
  simp only [State.copyRefused, granted_congr h]

theorem startEntry_fn (q : Nat) (seq : Word) (s : State) : ((startEntry q seq s).queue q).fn = (s.queue q).fn := by
  rw [startEntry, State.modEntry, modQueue_queue]
  rfl

/-- A COPY may be received: fewer than 16 are held, its function is reachable, and it may take an in-flight entry (R289, R350, R375). -/
def State.copyMay (s : State) (q : Nat) : Bool :=
  decide (s.dmv.copies.length < 16) && !(s.func (s.queue q).fn).d3 && s.laneMayHold (s.laneOf (s.queue q).cls)

theorem exec_copy (q : Nat) (seq : Word) (s : State) (h : s.copyMay q = true) :
    exec (.copy q seq) s = .next (s.onDue q seq 6 (copyReceive q)) := by
  have harm : exec (.copy q seq) s = .next (onlyIf (s.copyMay q) (fun t => t.onDue q seq 6 (copyReceive q)) s) := rfl
  rw [harm, onlyIf, if_pos h]

theorem exec_copy_waits (q : Nat) (seq : Word) (s : State) (h : s.copyMay q = false) : exec (.copy q seq) s = .next s := by
  have harm : exec (.copy q seq) s = .next (onlyIf (s.copyMay q) (fun t => t.onDue q seq 6 (copyReceive q)) s) := rfl
  rw [harm, onlyIf, if_neg (by simp [h])]

/-- The Data Mover's record of a COPY that has moved nothing. -/
def newCopy (q uid : Nat) (e : QEntry) : CopyU :=
  { q := q, seq := e.seq, src := e64 e.raw 16, srcSpace := e8 e.raw 36, dst := e64 e.raw 24, dstSpace := e8 e.raw 37,
    len := e32 e.raw 32, rdDone := 0, wrDone := 0, failed := false, uid := uid }

/-- The state with a COPY held by the Data Mover under in-flight entry `ix`. -/
def State.holdCopy (s : State) (q ix : Nat) (e : QEntry) : State :=
  ((s.takeInflight ix s.dsc.nextUid).modDsc fun d => { d with nextUid := s.dsc.nextUid + 1 }).modDmv fun d =>
    { d with copies := d.copies ++ [newCopy q s.dsc.nextUid e] }

/-- The state with a COPY handed to the Data Mover. -/
def State.withCopy (s : State) (q ix : Nat) (e : QEntry) : State :=
  (s.holdCopy q ix e).modEntry q e.seq fun f => { f with started := true }

theorem copyReceive_held {s : State} {q ix : Nat} {e : QEntry} (hok : s.copyRefused (s.queue q).fn e.raw = false)
    (hix : s.freeInflightIx = some ix) : copyReceive q e s = s.withCopy q ix e := by
  simp only [copyReceive, hok, hix]
  rfl

theorem copyReceive_refused {s : State} {q : Nat} {e : QEntry} (h : s.copyRefused (s.queue q).fn e.raw = true) :
    copyReceive q e s = s.endEntry q e.seq 0x11 0x23 := by
  simp only [copyReceive, h, if_true]

theorem withCopy_frame (s : State) (q ix : Nat) (e : QEntry) :
    s.withCopy q ix e = { s with dmv := (s.withCopy q ix e).dmv, dsc := (s.withCopy q ix e).dsc, queues := (s.withCopy q ix e).queues } := by
  simp only [State.withCopy, State.holdCopy, State.takeInflight, State.modDmv, State.modDsc, State.modEntry, State.modQueue]

theorem withCopy_copies (s : State) (q ix : Nat) (e : QEntry) :
    (s.withCopy q ix e).dmv.copies = s.dmv.copies ++ [newCopy q s.dsc.nextUid e] := by
  simp only [State.withCopy, State.holdCopy, State.takeInflight, State.modDmv, State.modDsc, State.modEntry, State.modQueue]

theorem withCopy_inflight (s : State) (q ix : Nat) (e : QEntry) :
    (s.withCopy q ix e).dsc.inflight.length = s.dsc.inflight.length + 1 := by
  simp only [State.withCopy, State.holdCopy, State.takeInflight, State.modDmv, State.modDsc, State.modEntry, State.modQueue, List.length_append,
    List.length_singleton]

theorem holdCopy_queue (s : State) (q ix : Nat) (e : QEntry) (p : Nat) : (s.holdCopy q ix e).queue p = s.queue p := by
  simp only [State.holdCopy, State.takeInflight, State.modDmv, State.modDsc, State.queue]

theorem withCopy_entry {s : State} {q : Nat} (ix : Nat) {e f : QEntry} (h : (s.queue q).entry? e.seq = some f) :
    ((s.withCopy q ix e).queue q).entry? e.seq = some { f with started := true } := by
  rw [← holdCopy_queue s q ix e] at h
  rw [State.withCopy]
  exact modEntry_entry _ q e.seq (fun f => { f with started := true }) f (fun _ => rfl) h

theorem withCopy_others (s : State) (q ix : Nat) (e : QEntry) (p : Nat) (hp : p ≠ q) : (s.withCopy q ix e).queue p = s.queue p := by
  rw [State.withCopy, (modEntry_onlyEntry _ _ _ _).others p hp, holdCopy_queue]

theorem laneMayHold_free {s : State} {l : Nat} (h : s.laneMayHold l = true) : ∃ ix, s.freeInflightIx = some ix := by
  simp only [State.laneMayHold, Bool.and_eq_true] at h
  exact Option.isSome_iff_exists.1 h.2

/-! ### FENCE -/

theorem exec_fence {q : Nat} {seq : Word} {s : State} {e : QEntry} (hentry : (s.queue q).entry? seq = some e)
    (hvisible : s.earlierVisible q e = true) : exec (.fence q seq) s = .next (s.onDue q seq 8 (fenceReceive q)) := by
  have harm : exec (.fence q seq) s = execFence q seq s := rfl
  simp only [harm, execFence, onlyIf, hentry, Option.any_some, hvisible, if_true]

/-- The state with a FENCE's value written, and its lines noted in its entry. -/
def State.fenceWritten (s : State) (q : Nat) (e : QEntry) : State :=
  (s.putRecord (s.queue q).fn (e8 e.raw 32) (e64 e.raw 16) (leBytes 8 (e64 e.raw 24))).modEntry q e.seq fun f =>
    { f with lines := if e8 e.raw 32 == 1 then f.lines ++ linesOf (e64 e.raw 16) 8 else f.lines }

theorem fenceReceive_none {s : State} {q : Nat} {e : QEntry} (h : e64 e.raw 16 = 0) : fenceReceive q e s = s.endEntry q e.seq 0 0 := by
  simp only [fenceReceive, h, beq_self_eq_true, if_true]

theorem fenceReceive_writes {s : State} {q : Nat} {e : QEntry} (haddr : e64 e.raw 16 ≠ 0)
    (hok : s.windowOk (s.queue q).fn (e8 e.raw 32) (e64 e.raw 16) 8 = true) :
    fenceReceive q e s = (s.fenceWritten q e).endEntry q e.seq 0 0 := by
  simp only [fenceReceive, beq_iff_eq, if_neg haddr, hok, if_true, State.fenceWritten]

theorem fenceReceive_refused {s : State} {q : Nat} {e : QEntry} (haddr : e64 e.raw 16 ≠ 0)
    (hbad : s.windowOk (s.queue q).fn (e8 e.raw 32) (e64 e.raw 16) 8 = false) : fenceReceive q e s = s.endEntry q e.seq 0x11 0x23 := by
  simp only [fenceReceive, beq_iff_eq, if_neg haddr, hbad]
  rfl

theorem fenceWritten_onlyEntry (s : State) (q : Nat) (e : QEntry) : OnlyEntry q s (s.fenceWritten q e) :=
  onlyEntry_trans (onlyEntry_of_put q (putRecord_put ..)) (modEntry_onlyEntry ..)

theorem fenceWritten_untouched {s : State} {q : Nat} {e f : QEntry} (h : Untouched s q e.seq f) :
    ∃ g, Untouched (s.fenceWritten q e) q e.seq g :=
  ⟨_, untouched_modEntry (fun _ => ⟨rfl, rfl, rfl, rfl, rfl⟩) (untouched_of_put (putRecord_put ..) h)⟩

/-- The value goes out before all that the end of the entry sends. -/
theorem fenceWritten_out {s : State} {q : Nat} {e : QEntry} (hspace : e8 e.raw 32 = 0) (hflr : (s.func (s.queue q).fn).flr = false)
    (hd3 : (s.func (s.queue q).fn).d3 = false) (hlink : s.linkPasses = true) (c k : Nat) :
    ∃ os, ((s.fenceWritten q e).endEntry q e.seq c k).out
      = s.out ++ .hostWrite (s.queue q).fn (e64 e.raw 16) (leBytes 8 (e64 e.raw 24)) false :: os := by
  have hput := putRecord_sent s (s.queue q).fn (e64 e.raw 16) (leBytes 8 (e64 e.raw 24)) hflr hd3 hlink
  have hwritten : (s.fenceWritten q e).out = s.out ++ [.hostWrite (s.queue q).fn (e64 e.raw 16) (leBytes 8 (e64 e.raw 24)) false] := by
    rw [← send_out, ← hput, ← hspace]
    rfl
  obtain ⟨os, hos⟩ := endEntry_out (s.fenceWritten q e) q e.seq c k
  exact ⟨os, by rw [← hos, hwritten, List.append_assoc]; rfl⟩

end Sys2Proof.Machine
end

section
/-! PROOFS. FLUSH_SESSION entries (R36, R146, R177, R515), and the statement about copies, fences and flushes. -/
namespace Sys2Proof.Machine

/-! ### The entries of all queues -/

theorem mem_tblKeys_of_ne {α : Type} {d : α} {t : Tbl α} {i : Nat} (h : tblGet d t i ≠ d) : i ∈ tblKeys t := by
  induction t with
  | nil => exact absurd rfl h
  | cons p t ih =>
    by_cases hp : p.1 = i
    · exact hp ▸ List.mem_cons_self ..
    · rw [tblGet, if_neg hp] at h
      exact List.mem_cons_of_mem _ (ih h)

theorem mem_queue_keys {s : State} {q : Nat} {f : QEntry} (h : f ∈ (s.queue q).entries) : q ∈ tblKeys s.queues := by
  refine mem_tblKeys_of_ne (d := WorkQ.init) fun hinit => ?_
  rw [State.queue, hinit] at h
  exact List.not_mem_nil h

theorem mem_allEntries (s : State) (p : Nat) (f : QEntry) : (p, f) ∈ s.allEntries ↔ f ∈ (s.queue p).entries := by
  simp only [State.allEntries, List.mem_flatMap, List.mem_map, Prod.mk.injEq]
  constructor
  · rintro ⟨_, -, _, hg, rfl, rfl⟩
    exact hg
  · exact fun h => ⟨p, mem_queue_keys h, f, h, rfl, rfl⟩

theorem mem_sourceEntries (s : State) (n : Nat) (f : QEntry) :
    f ∈ s.sourceEntries n ↔ ∃ p, f ∈ (s.queue p).entries ∧ f.stage ≠ .done ∧ (f.op = 2 ∨ f.op = 5) ∧ f.sess = n := by
  simp only [State.sourceEntries, List.mem_flatMap, List.mem_filter, Bool.and_eq_true, Bool.or_eq_true, bne_iff_ne, beq_iff_eq, and_assoc]
  constructor
  · rintro ⟨p, -, h⟩
    exact ⟨p, h⟩
  · rintro ⟨p, h, hrest⟩
    exact ⟨p, mem_queue_keys h, h, hrest⟩

/-! ### An entry starts -/

/-- What the start of entry `seq` of queue `q` makes of an entry of queue `p`. -/
def startedAs (q : Nat) (seq : Word) (p : Nat) (f : QEntry) : QEntry := if p = q ∧ f.seq = seq then { f with stage := .running } else f

theorem startEntry_entries (q : Nat) (seq : Word) (s : State) (p : Nat) :
    ((startEntry q seq s).queue p).entries = (s.queue p).entries.map (startedAs q seq p) := by
  by_cases hp : p = q
  · subst hp
    rw [startEntry, State.modEntry, modQueue_queue]
    refine List.map_congr_left fun f _ => ?_
    simp only [startedAs, true_and, beq_iff_eq]
  · have hid : startedAs q seq p = id := by
      funext f
      simp [startedAs, hp]
    rw [startEntry, State.modEntry, modQueue_queue_other _ _ _ _ (Ne.symm hp), hid, List.map_id]

theorem startedAs_same (q : Nat) (seq : Word) (p : Nat) (f : QEntry) : startedAs q seq p f = { f with stage := (startedAs q seq p f).stage } := by
  unfold startedAs
  split <;> rfl

theorem startedAs_open {f : QEntry} (q : Nat) (seq : Word) (p : Nat) (h : f.stage ≠ .done) : (startedAs q seq p f).stage ≠ .done := by
  unfold startedAs
  split
  · exact fun hdone => by cases hdone
  · exact h

/-- The start of an entry that brings no picture leaves the source entries as they were. -/
theorem sourceEntries_started {q : Nat} {seq : Word} {s : State} {e : QEntry} (honly : ∀ f ∈ (s.queue q).entries, f.seq = seq → f = e)
    (hop : e.op = 7) {n : Nat} {f : QEntry} (h : f ∈ (startEntry q seq s).sourceEntries n) : f ∈ s.sourceEntries n := by
  obtain ⟨p, hf, hopen, hsource, hsess⟩ := (mem_sourceEntries _ n f).1 h
  rw [startEntry_entries] at hf
  obtain ⟨g, hg, rfl⟩ := List.mem_map.1 hf
  by_cases hstarts : p = q ∧ g.seq = seq
  · obtain ⟨rfl, hseq⟩ := hstarts
    have hge := honly g hg hseq
    rw [startedAs_same, hge] at hsource
    have hop' : e.op = 2 ∨ e.op = 5 := hsource
    omega
  · have hsame : startedAs q seq p g = g := if_neg hstarts
    rw [hsame] at hopen hsource hsess ⊢
    exact (mem_sourceEntries s n g).2 ⟨p, hg, hopen, hsource, hsess⟩

theorem flushPending_started {s : State} {m : Nat} (q : Nat) (seq : Word) (h : s.flushPending m = true) :
    (startEntry q seq s).flushPending m = true := by
  simp only [State.flushPending, List.any_eq_true, Bool.and_eq_true, beq_iff_eq, bne_iff_ne, Bool.not_eq_true'] at h ⊢
  obtain ⟨⟨p, f⟩, hmem, ⟨⟨hop, hsess⟩, hopen⟩, hclosing⟩ := h
  refine ⟨(p, startedAs q seq p f), (mem_allEntries _ p _).2 ?_, ⟨⟨?_, ?_⟩, startedAs_open q seq p hopen⟩, ?_⟩
  · rw [startEntry_entries]
    exact List.mem_map_of_mem ((mem_allEntries s p f).1 hmem)
  · rw [startedAs_same]
    exact hop
  · rw [startedAs_same]
    exact hsess
  · rw [startedAs_same]
    exact hclosing

theorem flushed_started {s : State} {n : Nat} {p : SrcPic} (q : Nat) (seq : Word) (h : s.flushed n p = true) :
    (startEntry q seq s).flushed n p = true := by
  simp only [State.flushed, Bool.or_eq_true, Bool.and_eq_true] at h ⊢
  exact h.imp id fun ⟨hfeed, hpending⟩ => ⟨hfeed, flushPending_started q seq hpending⟩

/-! ### A flush is received -/

theorem exec_flushSession (q : Nat) (seq : Word) (s : State) :
    exec (.flushSession q seq) s = .next (s.onDue q seq 7 (flushReceive q)) := rfl

theorem flushStop_congr {s t : State} (h : t.sessions = s.sessions) (e : QEntry) : t.flushStop e = s.flushStop e := by
  have hs : t.sess e.sess = s.sess e.sess := by simp only [State.sess, h]
  unfold State.flushStop
  rw [hs]

/-- The codes that stop a flush (R36, R37, R38, R146). -/
theorem flushStop_outcome {s : State} {e : QEntry} {c k : Nat} (h : s.flushStop e = some (c, k)) : IsOutcome c k := by
  unfold State.flushStop at h
  extract_lets x at h
  split at h
  · cases h; exact .inr (by decide)
  split at h
  · cases h; exact .inl ⟨rfl, rfl⟩
  split at h
  · cases h; exact .inr (by decide)
  split at h
  · cases h; exact .inr (by decide)
  · cases h

theorem flushReceive_stops {s : State} {q c k : Nat} {e : QEntry} (h : s.flushStop e = some (c, k)) :
    flushReceive q e s = s.endEntry q e.seq c k := by simp only [flushReceive, h]

/-- A flush that nothing stops and no window refuses (R75). -/
structure FlushRuns (s : State) (e : QEntry) : Prop where
  stop : s.flushStop e = none
  windows : s.badWindow (s.sess e.sess).fn (entryAsks (s.sess e.sess).par e.raw e.blocks) = none

theorem flushRuns_congr {s t : State} {e : QEntry} (hchecks : SameChecks s t) (h : FlushRuns s e) : FlushRuns t e where
  stop := (flushStop_congr hchecks.sessions e).trans h.stop
  windows := by
    rw [badWindow_congr hchecks, State.sess, hchecks.sessions]
    exact h.windows

theorem flushReceive_encode {s : State} {q : Nat} {e : QEntry} (h : FlushRuns s e) (henc : (s.sess e.sess).par.encode = true) :
    flushReceive q e s = s.settleFlush q e := by simp only [flushReceive, h.stop, h.windows, henc, if_true]

theorem flushReceive_decode {s : State} {q : Nat} {e : QEntry} (h : FlushRuns s e) (hdec : (s.sess e.sess).par.encode = false) :
    flushReceive q e s = (s.refuseRends q e).addUnit (s.releaseUnit q e) := by
  simp only [flushReceive, h.stop, h.windows, hdec]
  rfl

theorem settleFlush_closes {s : State} {e : QEntry} (q : Nat) (hsrc : ∀ p ∈ (s.sess e.sess).src, p.coded = true ∨ p.failed ≠ 0)
    (hearlier : ∀ f ∈ s.sourceEntries e.sess, e.order ≤ f.order) : s.settleFlush q e = s.closeEntry q e.seq 0 0 := by
  have hnone : ((s.sess e.sess).src.any fun p => !p.coded && p.failed == 0 && s.flushed e.sess p) = false := by
    refine List.any_eq_false.2 fun p hp => ?_
    rcases hsrc p hp with h | h <;> simp [h]
  have hlater : ((s.sourceEntries e.sess).any fun f => decide (f.order < e.order)) = false := by
    refine List.any_eq_false.2 fun f hf => ?_
    simpa using hearlier f hf
  simp only [State.settleFlush, hnone, hlater]
  rfl

theorem settleFlush_waits {s : State} {e : QEntry} (q : Nat)
    (h : ∃ p ∈ (s.sess e.sess).src, p.coded = false ∧ p.failed = 0 ∧ s.flushed e.sess p = true) : s.settleFlush q e = s := by
  obtain ⟨p, hp, hcoded, hfailed, hflushed⟩ := h
  have hwaits : ((s.sess e.sess).src.any fun p => !p.coded && p.failed == 0 && s.flushed e.sess p) = true :=
    List.any_eq_true.2 ⟨p, hp, by simp [hcoded, hfailed, hflushed]⟩
  simp only [State.settleFlush, hwaits, Bool.true_or, if_true]

/-- A new unit stands behind those that are queued, as it was but for its number. -/
theorem addUnit_unit (s : State) (u : WUnit) :
    ∃ v, (s.addUnit u).dsc.units = s.dsc.units ++ [v] ∧ v = { u with uid := v.uid, seed := v.seed } := by
  obtain ⟨-, hunits⟩ := wake_queued s u
  obtain ⟨-, hdsc⟩ := settleState_queued ((s.wake u).modDsc fun d =>
    { d with units := d.units ++ [{ u with uid := d.nextUid, seed := d.nextUid }], nextUid := d.nextUid + 1 }) u.session
  refine ⟨{ u with uid := (s.wake u).dsc.nextUid, seed := (s.wake u).dsc.nextUid }, ?_, rfl⟩
  rw [State.addUnit, hdsc, ← hunits]
  rfl

theorem releaseUnit_owner (s : State) (q : Nat) (e : QEntry) :
    (s.releaseUnit q e).kind = .release ∧ (s.releaseUnit q e).q = q ∧ (s.releaseUnit q e).seq = e.seq ∧ (s.releaseUnit q e).session = e.sess :=
  ⟨rfl, rfl, rfl, rfl⟩

/-- Units queued after renditions were refused: only what the two touch has changed. -/
theorem queued_after_refused {q : Nat} {s r t : State} (hr : OnlyRefused q s r) (ht : OnlyQueued r t) :
    t = { s with dsc := t.dsc, fcl := t.fcl, queues := t.queues, sessions := t.sessions } ∧ (∀ p, p ≠ q → t.queue p = s.queue p) := by
  have hframe := hr.frame
  unfold OnlyQueued at ht
  refine ⟨?_, fun p hp => ?_⟩
  · rw [hframe] at ht
    rw [ht]
  · rw [ht]
    exact hr.others p hp

theorem queued_entry {s t : State} {q : Nat} {seq : Word} {f : QEntry} (h : OnlyQueued s t) (hf : (s.queue q).entry? seq = some f) :
    (t.queue q).entry? seq = some f := by
  rw [h]
  exact hf

/-! ### The statement about copies, fences and flushes -/

/-- Settles O19: each of the three entries, once started, is held, ended or left running by one branch of its receipt. -/
theorem copyFenceFlushEntries : Obligations.CopyFenceFlushEntries := by
  unfold Obligations.CopyFenceFlushEntries
  refine ⟨?copy, ?fence, ?flush⟩
  case copy =>
    intro q seq e s h hd3 hlane
    have hseq := entryTakes_seq h
    subst hseq
    have hfresh := startEntry_untouched h
    have hrefused : (startEntry q e.seq s).copyRefused ((startEntry q e.seq s).queue q).fn e.raw = s.copyRefused (s.queue q).fn e.raw := by
      rw [startEntry_fn]
      exact copyRefused_congr (s := s) rfl _ _
    have hexec : s.dmv.copies.length < 16 → exec (.copy q e.seq) s = .next (copyReceive q e (startEntry q e.seq s)) := fun hroom => by
      rw [exec_copy q e.seq s (by simp [State.copyMay, hroom, hd3, hlane]), onDue_turn _ h]
    refine ⟨fun hroom hok => ?_, fun hroom hbad => ?_, fun hfull => exec_copy_waits q e.seq s (by simp [State.copyMay, hfull])⟩
    · obtain ⟨ix, hix⟩ := laneMayHold_free hlane
      have hheld := copyReceive_held (s := startEntry q e.seq s) (hrefused.trans hok) hix
      refine ⟨(startEntry q e.seq s).withCopy q ix e, by rw [hexec hroom, hheld], ⟨_, withCopy_entry ix hfresh.entry, rfl, rfl⟩,
        ⟨newCopy q s.dsc.nextUid e, withCopy_copies (startEntry q e.seq s) q ix e, rfl, rfl, rfl, rfl, rfl, rfl, rfl, rfl⟩,
        withCopy_inflight (startEntry q e.seq s) q ix e, fun p hp => ?_, ?_⟩
      · rw [withCopy_others _ q ix e p hp]
        exact (modEntry_onlyEntry s q e.seq _).others p hp
      · rw [withCopy_frame]
        rfl
    · refine ⟨(startEntry q e.seq s).endEntry q e.seq 0x11 0x23, by rw [hexec hroom, copyReceive_refused (hrefused.trans hbad)],
        untouched_ends hfresh (.inr (by decide)), ?_⟩
      rw [(endEntry_onlyEntry (startEntry q e.seq s) q e.seq 0x11 0x23).frame]
      rfl
  case fence =>
    intro q seq e s h hvisible
    have hseq := entryTakes_seq h
    subst hseq
    have hentry : (s.queue q).entry? e.seq = some e := h.2.1
    have hfresh := startEntry_untouched h
    have hexec : exec (.fence q e.seq) s = .next (fenceReceive q e (startEntry q e.seq s)) := by
      rw [exec_fence hentry hvisible, onDue_turn _ h]
    have hwindow : (startEntry q e.seq s).windowOk ((startEntry q e.seq s).queue q).fn (e8 e.raw 32) (e64 e.raw 16) 8
        = s.windowOk (s.queue q).fn (e8 e.raw 32) (e64 e.raw 16) 8 := by
      rw [startEntry_fn]
      rfl
    refine ⟨fun haddr => ?_, fun haddr hok => ?_, fun haddr hbad => ?_⟩
    · exact ⟨_, by rw [hexec, fenceReceive_none haddr], untouched_ends hfresh (.inl ⟨rfl, rfl⟩)⟩
    · obtain ⟨g, hg⟩ := fenceWritten_untouched hfresh
      have honly : OnlyEntry q s (((startEntry q e.seq s).fenceWritten q e).endEntry q e.seq 0 0) :=
        onlyEntry_trans (modEntry_onlyEntry ..) (onlyEntry_trans (fenceWritten_onlyEntry ..) (endEntry_onlyEntry ..))
      refine ⟨_, by rw [hexec, fenceReceive_writes haddr (hwindow.trans hok)], untouched_ends hg (.inl ⟨rfl, rfl⟩),
        fun hspace hflr hd3 hlink => ?_, honly.others, honly.frame⟩
      have hfn := startEntry_fn q e.seq s
      have hsent := fenceWritten_out (s := startEntry q e.seq s) hspace (by rw [hfn]; exact hflr) (by rw [hfn]; exact hd3) hlink 0 0
      rw [hfn] at hsent
      exact hsent
    · exact ⟨_, by rw [hexec, fenceReceive_refused haddr (hwindow.trans hbad)], untouched_ends hfresh (.inr (by decide))⟩
  case flush =>
    intro q seq e s h
    have hseq := entryTakes_seq h
    subst hseq
    obtain ⟨-, -, honly, hop, -⟩ := id h
    have hfresh := startEntry_untouched h
    have hchecks := startEntry_checks q e.seq s
    have hexec : exec (.flushSession q e.seq) s = .next (flushReceive q e (startEntry q e.seq s)) := by
      rw [exec_flushSession, onDue_turn _ h]
    have hruns : s.flushStop e = none → s.badWindow (s.sess e.sess).fn (entryAsks (s.sess e.sess).par e.raw e.blocks) = none →
        FlushRuns (startEntry q e.seq s) e := fun hstop hwin => flushRuns_congr hchecks ⟨hstop, hwin⟩
    refine ⟨fun c k hstop => ?_, fun hstop hwin henc hsrc hearlier => ?_, fun hstop hwin henc hwaits => ?_, fun hstop hwin hdec => ?_⟩
    · exact ⟨_, by rw [hexec, flushReceive_stops ((flushStop_congr hchecks.sessions e).trans hstop)],
        untouched_ends hfresh (flushStop_outcome hstop)⟩
    · have hcloses := settleFlush_closes (s := startEntry q e.seq s) q hsrc fun f hf => hearlier f (sourceEntries_started honly hop hf)
      exact ⟨_, by rw [hexec, flushReceive_encode (hruns hstop hwin) henc, hcloses], closeEntry_ends hfresh (.inl ⟨rfl, rfl⟩),
        (onlyEntry_trans (modEntry_onlyEntry ..) (closeEntry_onlyEntry (startEntry q e.seq s) q e.seq 0 0)).frame⟩
    · obtain ⟨p, hp, hcoded, hfailed, hflushed⟩ := hwaits
      have hstays := settleFlush_waits (s := startEntry q e.seq s) q ⟨p, hp, hcoded, hfailed, flushed_started q e.seq hflushed⟩
      exact ⟨startEntry q e.seq s, by rw [hexec, flushReceive_encode (hruns hstop hwin) henc, hstays], ⟨_, hfresh.entry, rfl⟩, rfl⟩
    · obtain ⟨hrefused, g, hg, hended⟩ := refuseRends_entry (startEntry q e.seq s) q e _ hfresh.entry
      obtain ⟨v, hunits, hv⟩ := addUnit_unit ((startEntry q e.seq s).refuseRends q e) ((startEntry q e.seq s).releaseUnit q e)
      obtain ⟨hkind, hq, hvseq, hsess⟩ := releaseUnit_owner (startEntry q e.seq s) q e
      have hqueued := (addUnit_queued ((startEntry q e.seq s).refuseRends q e) ((startEntry q e.seq s).releaseUnit q e)).1
      obtain ⟨hframe, hothers⟩ := queued_after_refused hrefused hqueued
      have hentry := queued_entry hqueued hg
      refine ⟨_, by rw [hexec, flushReceive_decode (hruns hstop hwin) hdec], ⟨g, hentry, ?_⟩, ⟨v, ?_, ?_, ?_, ?_, ?_⟩,
        fun p hp => (hothers p hp).trans ((modEntry_onlyEntry s q e.seq _).others p hp), hframe⟩
      · rw [hended.same]
      · rw [hunits, hrefused.frame]
        rfl
      · rw [hv]
        exact hkind
      · rw [hv]
        exact hq
      · rw [hv]
        exact hvseq
      · rw [hv]
        exact hsess

end Sys2Proof.Machine
end

section
/-! PROOFS. Admin commands (R324 to R326): how one ends, and what the end of it leaves as it was. -/
namespace Sys2Proof.Machine

/-- What the end of an admin command reads of its function, and what is sent before it. -/
structure SameAdm (fn : Nat) (s t : State) : Prop where
  adm : t.admQ fn = s.admQ fn
  func : t.func fn = s.func fn
  link : t.linkPasses = s.linkPasses
  out : s.out <+: t.out

theorem sameAdm_refl (fn : Nat) (s : State) : SameAdm fn s s := ⟨rfl, rfl, rfl, List.prefix_refl _⟩

/-- Only an admin queue and what a write for a function touches have changed. -/
def OnlyAdm (s t : State) : Prop :=
  t = { s with admq := t.admq, clusters := t.clusters, funcs := t.funcs, hlu := t.hlu, mem := t.mem, out := t.out }

theorem onlyAdm_trans {s t u : State} (h : OnlyAdm s t) (k : OnlyAdm t u) : OnlyAdm s u := by
  unfold OnlyAdm at *
  rw [k, h]

theorem onlyAdm_of_put {s t : State} (h : OnlyPut s t) : OnlyAdm s t := by
  unfold OnlyPut OnlyAdm at *
  rw [h]

theorem modAdmQ_onlyAdm (s : State) (fn : Nat) (f : AdmQ → AdmQ) : OnlyAdm s (s.modAdmQ fn f) := rfl

/-- HEAD and SEQ have moved past a command. -/
def AdmQ.passed (a : AdmQ) : AdmQ := { a with head := (a.head + 1) % (2 * a.depth), seq := a.seq + 1 }

/-- The state with a command's result record written, and its queue moved past it. -/
def State.admPassed (s : State) (fn : Nat) (bs : List Byte) : State :=
  (s.putRecord fn (s.admQ fn).space.toNat ((s.admQ fn).res.toNat + (s.admQ fn).seq.toNat % (s.admQ fn).depth * 128) bs).modAdmQ fn AdmQ.passed

theorem toNat_tag (x : Entry) : (BitVec.ofNat 32 (e32 x 4)).toNat = e32 x 4 := by
  rw [BitVec.toNat_ofNat]
  exact Nat.mod_eq_of_lt (Nat.mod_lt _ (Nat.two_pow_pos 32))

theorem finishAdm_eq (s : State) (fn : Nat) (x : Entry) (c k r : Nat) :
    s.finishAdm false fn (BitVec.ofNat 32 (e32 x 4)) (eOp x) c k r = (s.admPassed fn (admRecord (s.admQ fn) x c k r)).putAdmStatus false fn := by
  simp only [State.finishAdm, toNat_tag]
  rfl

theorem putAdmStatus_put (s : State) (cfg : Bool) (fn : Nat) : OnlyPut s (s.putAdmStatus cfg fn) := putRecord_put ..

theorem finishAdm_onlyAdm (s : State) (fn : Nat) (tag : Word) (op c k r : Nat) : OnlyAdm s (s.finishAdm false fn tag op c k r) :=
  onlyAdm_trans (onlyAdm_trans (onlyAdm_of_put (putRecord_put ..)) (modAdmQ_onlyAdm ..)) (onlyAdm_of_put (putAdmStatus_put ..))

theorem admPassed_admQ (s : State) (fn : Nat) (bs : List Byte) : (s.admPassed fn bs).admQ fn = (s.admQ fn).passed := by
  have hput := putRecord_put s fn (s.admQ fn).space.toNat ((s.admQ fn).res.toNat + (s.admQ fn).seq.toNat % (s.admQ fn).depth * 128) bs
  rw [State.admPassed, modAdmQ_admQ, hput]
  rfl

theorem admQ_congr {s t : State} (h : t.admq = s.admq) (fn : Nat) : t.admQ fn = s.admQ fn := by rw [State.admQ, State.admQ, h]

theorem putAdmStatus_admQ (s : State) (fn k : Nat) : (s.putAdmStatus false fn).admQ k = s.admQ k :=
  admQ_congr (by rw [putAdmStatus_put]) k

theorem finishAdm_admQ (s : State) (fn : Nat) (x : Entry) (c k r : Nat) :
    (s.finishAdm false fn (BitVec.ofNat 32 (e32 x 4)) (eOp x) c k r).admQ fn = (s.admQ fn).passed := by
  rw [finishAdm_eq, putAdmStatus_admQ, admPassed_admQ]

theorem send_linkPasses (s : State) (o : Out) : (s.send o).linkPasses = s.linkPasses := by
  have hide : (s.send o).hlu.ide = s.hlu.ide := by
    simp only [State.send, State.emit, State.modHlu, Hlu.awake]
    split <;> rfl
  simp only [State.linkPasses, hide]

theorem modAdmQ_linkPasses (s : State) (n : Nat) (f : AdmQ → AdmQ) : (s.modAdmQ n f).linkPasses = s.linkPasses := rfl

/-- The function's rings lie in host memory, and what is sent for it goes out at once. -/
structure SendsAdm (s : State) (fn : Nat) : Prop where
  space : (s.admQ fn).space = 0
  flr : (s.func fn).flr = false
  d3 : (s.func fn).d3 = false
  link : s.linkPasses = true

theorem admPassed_sent {s : State} {fn : Nat} (bs : List Byte) (h : SendsAdm s fn) :
    s.admPassed fn bs = (s.send (.hostWrite fn ((s.admQ fn).res.toNat + (s.admQ fn).seq.toNat % (s.admQ fn).depth * 128) bs false)).modAdmQ fn
      AdmQ.passed := by
  have hzero : (s.admQ fn).space.toNat = 0 := congrArg BitVec.toNat h.space
  rw [State.admPassed, hzero, putRecord_sent s fn _ _ h.flr h.d3 h.link]

theorem admPassed_sends {s : State} {fn : Nat} (bs : List Byte) (h : SendsAdm s fn) : SendsAdm (s.admPassed fn bs) fn where
  space := by
    rw [admPassed_admQ]
    exact h.space
  flr := by
    rw [admPassed_sent bs h]
    exact h.flr
  d3 := by
    rw [admPassed_sent bs h]
    exact h.d3
  link := by
    rw [admPassed_sent bs h, modAdmQ_linkPasses, send_linkPasses]
    exact h.link

theorem putAdmStatus_sent {s : State} {fn : Nat} (h : SendsAdm s fn) :
    (s.putAdmStatus false fn).out = s.out ++ [.hostWrite fn (s.admQ fn).sb.toNat ((s.admQ fn).status s.time) false] := by
  have hzero : (s.admQ fn).space.toNat = 0 := congrArg BitVec.toNat h.space
  have hput : s.putAdmStatus false fn = s.putRecord fn (s.admQ fn).space.toNat (s.admQ fn).sb.toNat ((s.admQ fn).status s.time) := rfl
  rw [hput, hzero, putRecord_sent s fn _ _ h.flr h.d3 h.link, send_out]

/-- Where the rings lie in host memory and the function is reachable, the record and then the status block go out. -/
theorem finishAdm_out {s : State} {fn : Nat} (x : Entry) (c k r : Nat) (h : SendsAdm s fn) :
    ∃ bs, (s.finishAdm false fn (BitVec.ofNat 32 (e32 x 4)) (eOp x) c k r).out = s.out ++
      [.hostWrite fn ((s.admQ fn).res.toNat + (s.admQ fn).seq.toNat % (s.admQ fn).depth * 128) (admRecord (s.admQ fn) x c k r) false,
        .hostWrite fn (s.admQ fn).sb.toNat bs false] := by
  have hout : (s.admPassed fn (admRecord (s.admQ fn) x c k r)).out = s.out ++ [.hostWrite fn
      ((s.admQ fn).res.toNat + (s.admQ fn).seq.toNat % (s.admQ fn).depth * 128) (admRecord (s.admQ fn) x c k r) false] := by
    rw [admPassed_sent _ h]
    rfl
  rw [finishAdm_eq, putAdmStatus_sent (admPassed_sends _ h), admPassed_admQ, hout, List.append_assoc]
  exact ⟨_, rfl⟩

/-- A command that ends on a state which has its function's queue and reachability as they were completes (R324, R326). -/
theorem finishAdm_ends {s t : State} {fn : Nat} {x : Entry} (c k r : Nat) (h : SameAdm fn s t) (hd3 : (s.func fn).d3 = false) :
    admEnds s (t.finishAdm false fn (BitVec.ofNat 32 (e32 x 4)) (eOp x) c k r) false fn x c k r := by
  have hadm : (t.finishAdm false fn (BitVec.ofNat 32 (e32 x 4)) (eOp x) c k r).adm false fn = (s.admQ fn).passed := by
    rw [← h.adm]
    exact finishAdm_admQ t fn x c k r
  unfold admEnds
  rw [hadm]
  refine ⟨rfl, rfl, rfl, rfl, fun hspace hlink hflr => ?_⟩
  have ha : s.adm false fn = t.admQ fn := h.adm.symm
  obtain ⟨bs, hbs⟩ := finishAdm_out x c k r ⟨ha ▸ hspace, h.func ▸ hflr, h.func ▸ hd3, h.link ▸ hlink⟩
  obtain ⟨os, hos⟩ := h.out
  refine ⟨os, bs, ?_⟩
  rw [hbs, ← hos, ha]

/-! ### Running a command -/

theorem admTakes_reachable {s : State} {fn op : Nat} {e x : Entry} (h : s.admTakes false fn op e x) : (s.func fn).d3 = false := by
  obtain ⟨hready, -⟩ := h
  simp only [State.admReady, Bool.and_eq_true, Bool.not_eq_true'] at hready
  tauto

/-- The state that the effect of a command leaves: its result follows now, or later. -/
def State.endCmd (s : State) (fn : Nat) (x : Entry) : AdmEnd → State
  | (t, some (c, k, r)) => (t.getD s).finishAdm false fn (BitVec.ofNat 32 (e32 x 4)) (eOp x) c k r
  | (t, none) => t.getD s

/-- A well-formed command that its queue may execute ends as its effect says. -/
theorem admCmd_takes {s : State} {fn op : Nat} {e x : Entry} (f : State → Entry → AdmEnd) (h : s.admTakes false fn op e x) :
    admCmd fn op e f s = .next (s.endCmd fn x (f s x)) := by
  obtain ⟨hready, hspace, hentry, hcause, hop⟩ := h
  have hnot : ¬ 1 < (s.adm false fn).space.toNat := by omega
  subst hop
  rw [admCmd, onlyIf, if_pos hready, State.runAdm]
  simp [hnot, hentry, hcause]
  rfl

/-- A command that is done at once. -/
theorem admCmd_ends {s : State} {fn op c k r : Nat} {e x : Entry} {f : State → Entry → AdmEnd} {t : Option State}
    (h : s.admTakes false fn op e x) (hf : f s x = (t, some (c, k, r))) :
    admCmd fn op e f s = .next ((t.getD s).finishAdm false fn (BitVec.ofNat 32 (e32 x 4)) (eOp x) c k r) := by
  rw [admCmd_takes f h, hf]
  rfl

/-- A command that fails changes nothing but its queue. -/
theorem admCmd_fails {s : State} {fn op c k r : Nat} {e x : Entry} {f : State → Entry → AdmEnd} (h : s.admTakes false fn op e x)
    (hf : f s x = (none, some (c, k, r))) :
    ∃ t, admCmd fn op e f s = .next t ∧ admEnds s t false fn x c k r ∧ OnlyAdm s t :=
  ⟨_, admCmd_ends h hf, finishAdm_ends c k r (sameAdm_refl fn s) (admTakes_reachable h), finishAdm_onlyAdm ..⟩

end Sys2Proof.Machine
end

section
/-! PROOFS. Sessions that have left the ranking (R34, R35, R38): what stopping units and closing entries keeps of a session in SESSION_RESET,
and of one that DESTROY_SESSION drains. -/
namespace Sys2Proof.Machine

/-! ### What leaves the sessions as they were -/

theorem writeDir_sessions (s : State) (m : Nat) : (s.writeDir m).sessions = s.sessions := by
  unfold State.writeDir
  split <;> rfl

theorem freeSession_sessions (s : State) (m : Nat) : (s.freeSession m).sessions = (s.modSess m fun _ => Session.init).sessions := by
  rw [State.freeSession, writeDir_sessions, State.dropLine, modCtx_sessions]

theorem freeSession_sess (s : State) (m : Nat) : (s.freeSession m).sess m = Session.init := by
  simp only [State.sess, freeSession_sessions]
  exact modSess_sess s m fun _ => Session.init

theorem settleHalf_sessions (s : State) (h : Nat) : (s.settleHalf h).sessions = s.sessions := by
  unfold State.settleHalf
  dsimp only
  split <;> rfl

theorem releasePlace_sessions (s : State) (u : WUnit) (b : BankState) : (s.releasePlace u b).sessions = s.sessions := by
  unfold State.releasePlace
  split
  · split
    · rfl
    · split
      · rfl
      · exact settleHalf_sessions ..
  · split
    · exact settleHalf_sessions ..
    · rfl
  · rfl

theorem sendReq_sessions (s : State) (u : WUnit) (r : SeqReq) : (s.sendReq u r).sessions = s.sessions := by
  unfold State.sendReq
  split
  · split <;> rfl
  · rfl

theorem putData_sessions (s : State) (fn space a : Nat) (bs : List Byte) : (s.putData fn space a bs).sessions = s.sessions := by
  unfold State.putData State.emitData
  split
  · split <;> rfl
  · rw [devWrite_put]

theorem dropOutputs_sessions (s : State) (n : Nat) : (s.dropOutputs n).sessions = s.sessions := by
  unfold State.dropOutputs
  split <;> rfl

/-! ### Properties that last -/

/-- A property of a session that holds through all that stops its units and closes its entries: it holds of no session whose state follows its
units, it says nothing but of the state and of the command that waits for FREE, and a session that drains keeps it as it becomes FREE. -/
structure Lasting (K : Session → Prop) : Prop where
  fixed : ∀ x, K x → x.state.fixed = true
  kept : ∀ x y, K x → y.state = x.state → y.destroyer = x.destroyer → y.destroyAfter = x.destroyAfter → K y
  frees : ∀ x, K x → x.state = .draining → x.destroyAfter = true ∧ K Session.init

/-- Session `n` keeps the property from `s` to `t`. -/
structure Keeps (K : Session → Prop) (n : Nat) (s t : State) : Prop where
  keep : K (s.sess n) → K (t.sess n)

theorem keeps_refl (K : Session → Prop) (n : Nat) (s : State) : Keeps K n s s := ⟨id⟩

section
variable {K : Session → Prop} {n : Nat}

theorem keeps_trans {s t u : State} (h : Keeps K n s t) (k : Keeps K n t u) : Keeps K n s u :=
  ⟨fun hs => k.keep (h.keep hs)⟩

theorem keeps_of_sessions {s t : State} (h : t.sessions = s.sessions) : Keeps K n s t := by
  refine ⟨fun hs => ?_⟩
  rw [State.sess, h]
  exact hs

theorem keeps_of_put {s t : State} (h : OnlyPut s t) : Keeps K n s t := keeps_of_sessions (by rw [h])

theorem forEach_keeps {β : Type} {f : β → State → State} (xs : List β) (hf : ∀ x t, Keeps K n t (f x t)) (s : State) :
    Keeps K n s (forEach xs f s) :=
  forEach_induct (P := Keeps K n s) xs (fun x _ t ht => keeps_trans ht (hf x t)) s (keeps_refl K n s)

theorem modEntry_keeps (s : State) (q : Nat) (seq : Word) (f : QEntry → QEntry) : Keeps K n s (s.modEntry q seq f) := keeps_of_sessions rfl

theorem modQueue_keeps (s : State) (q : Nat) (f : WorkQ → WorkQ) : Keeps K n s (s.modQueue q f) := keeps_of_sessions rfl

theorem modDsc_keeps (s : State) (f : Dsc → Dsc) : Keeps K n s (s.modDsc f) := keeps_of_sessions rfl

/-- A change of a session that leaves its state and the command that waits for it. -/
def KeepsPlace (f : Session → Session) : Prop :=
  ∀ x, (f x).state = x.state ∧ (f x).destroyer = x.destroyer ∧ (f x).destroyAfter = x.destroyAfter

theorem modSess_keeps (hK : Lasting K) (s : State) (m : Nat) {f : Session → Session} (hf : KeepsPlace f) : Keeps K n s (s.modSess m f) := by
  refine ⟨fun hs => ?_⟩
  by_cases hm : m = n
  · subst hm
    rw [modSess_sess]
    obtain ⟨hstate, hwaits, hafter⟩ := hf (s.sess m)
    exact hK.kept _ _ hs hstate hwaits hafter
  · rw [modSess_sess_other _ _ _ _ hm]
    exact hs

theorem modSess_other_keeps (s : State) {m : Nat} (f : Session → Session) (hm : m ≠ n) : Keeps K n s (s.modSess m f) := by
  refine ⟨fun hs => ?_⟩
  rw [modSess_sess_other _ _ _ _ hm]
  exact hs

theorem settleState_keeps (hK : Lasting K) (s : State) (m : Nat) : Keeps K n s (s.settleState m) := by
  unfold State.settleState
  split
  · exact keeps_refl K n s
  · next hfree =>
    by_cases hm : m = n
    · subst hm
      exact ⟨fun hs => absurd (hK.fixed _ hs) hfree⟩
    · exact modSess_other_keeps s _ hm

/-! ### A drain that ends -/

theorem freeSession_keeps (s : State) {m : Nat} (h : m = n → K Session.init) : Keeps K n s (s.freeSession m) := by
  by_cases hm : m = n
  · subst hm
    exact ⟨fun _ => (freeSession_sess s m).symm ▸ h rfl⟩
  · exact keeps_trans (modSess_other_keeps s (fun _ => Session.init) hm) (keeps_of_sessions (freeSession_sessions s m))

theorem finishAdm_keeps (s : State) (fn : Nat) (tag : Word) (op c k r : Nat) : Keeps K n s (s.finishAdm false fn tag op c k r) :=
  keeps_of_sessions (by rw [finishAdm_onlyAdm])

theorem settleDrain_keeps (hK : Lasting K) (s : State) (m : Nat) : Keeps K n s (s.settleDrain m) := by
  refine ⟨fun hs => ?_⟩
  unfold State.settleDrain
  dsimp only
  split
  · next hdrains =>
    have hdraining : (s.sess m).state = .draining := by
      simp only [Bool.and_eq_true, beq_iff_eq] at hdrains
      exact hdrains.1
    split
    · have hfreed : Keeps K n s (s.freeSession m) := freeSession_keeps s fun hm => (hK.frees _ hs (hm ▸ hdraining)).2
      split
      · exact (keeps_trans hfreed (finishAdm_keeps ..)).keep hs
      · exact hfreed.keep hs
    · next hparks =>
      refine (modSess_other_keeps s _ fun hm => ?_).keep hs
      subst hm
      exact hparks (hK.frees _ hs hdraining).1
  · exact hs

/-! ### Entries -/

theorem putResult_keeps (s : State) (q : Nat) (seq : Word) : Keeps K n s (s.putResult q seq) := by
  unfold State.putResult
  split
  · exact keeps_refl K n s
  · dsimp only
    split
    · exact keeps_trans (keeps_of_put (putRecord_put ..)) (modEntry_keeps ..)
    · exact keeps_of_put (putRecord_put ..)

theorem noteEnd_keeps (hK : Lasting K) (s : State) (q : Nat) (e : QEntry) : Keeps K n s (s.noteEnd q e) := by
  unfold State.noteEnd
  split
  · exact modSess_keeps hK s _ fun _ => ⟨rfl, rfl, rfl⟩
  · exact keeps_refl K n s

theorem finishEntry_keeps (hK : Lasting K) (s : State) (q : Nat) (seq : Word) : Keeps K n s (s.finishEntry q seq) := by
  unfold State.finishEntry
  split
  · exact keeps_refl K n s
  · split
    · exact keeps_refl K n s
    · have hdone : ∀ (f : QEntry → QEntry) e, Keeps K n s (((s.modEntry q seq f).putResult q seq).noteEnd q e) := fun f e =>
        keeps_trans (keeps_trans (modEntry_keeps ..) (putResult_keeps ..)) (noteEnd_keeps hK ..)
      dsimp only
      split
      · refine keeps_trans (hdone _ _) (forEach_keeps _ (fun f t => ?_) _)
        exact keeps_trans (keeps_trans (modEntry_keeps ..) (modDsc_keeps ..)) (putResult_keeps ..)
      · exact hdone _ _

theorem settleEntry_keeps (hK : Lasting K) (s : State) (q : Nat) (seq : Word) : Keeps K n s (s.settleEntry q seq) := by
  unfold State.settleEntry
  split
  · split
    · exact finishEntry_keeps hK ..
    · exact keeps_refl K n s
  · exact keeps_refl K n s

theorem closeEntry_keeps (hK : Lasting K) (s : State) (q : Nat) (seq : Word) (c k : Nat) : Keeps K n s (s.closeEntry q seq c k) :=
  keeps_trans (modEntry_keeps ..) (settleEntry_keeps hK ..)

theorem settleLadders_keeps (hK : Lasting K) (s : State) : Keeps K n s s.settleLadders :=
  forEach_keeps _ (fun _ _ => keeps_trans (modEntry_keeps ..) (settleEntry_keeps hK ..)) s

theorem closeRends_keeps (hK : Lasting K) (s : State) (m c k : Nat) : Keeps K n s (s.closeRends m c k) :=
  keeps_trans (forEach_keeps _ (fun _ _ => modQueue_keeps ..) s) (settleLadders_keeps hK _)

theorem closeEntries_keeps (hK : Lasting K) (s : State) (m c k : Nat) : Keeps K n s (s.closeEntries m c k) :=
  keeps_trans (closeRends_keeps hK ..) (forEach_keeps _ (fun _ _ => closeEntry_keeps hK ..) _)

/-! ### Units that stop -/

theorem leftPlace_keeps (hK : Lasting K) (s : State) (u : WUnit) (m : Nat) : Keeps K n s (s.leftPlace u m) := by
  have hplace : Keeps K n s ((s.releasePlace u .empty).freeInflight m) := keeps_of_sessions (releasePlace_sessions s u .empty)
  exact keeps_trans hplace (modSess_keeps hK _ _ (f := fun x => { x with stale := x.stale ||| u.written }) fun _ => ⟨rfl, rfl, rfl⟩)

theorem discardUnit_keeps (hK : Lasting K) (s : State) (u : WUnit) : Keeps K n s (s.discardUnit u) := by
  have hgone : Keeps K n s ((s.leftPlace u u.uid).dropUnit u.uid) := keeps_trans (leftPlace_keeps hK ..) (modDsc_keeps ..)
  have hend : ∀ t, Keeps K n s t → Keeps K n s (((t.settleState u.session).settleEntry u.q u.seq).settleDrain u.session) := fun t ht =>
    keeps_trans (keeps_trans (keeps_trans ht (settleState_keeps hK ..)) (settleEntry_keeps hK ..)) (settleDrain_keeps hK ..)
  unfold State.discardUnit
  dsimp only
  split
  · exact hend _ (keeps_trans hgone (modEntry_keeps ..))
  · exact hend _ hgone

theorem stopUnits_keeps (hK : Lasting K) (s : State) (us : List WUnit) : Keeps K n s (s.stopUnits us) := by
  refine forEach_keeps us (fun u t => ?_) s
  unfold State.stopUnit
  split
  · exact discardUnit_keeps hK ..
  · exact keeps_trans (modDsc_keeps ..) (keeps_of_sessions (sendReq_sessions ..))

/-! ### Analyses that end in a drain -/

theorem entryOut_keeps (s : State) (q : Nat) (seq : Word) (fn space a : Nat) (bs : List Byte) : Keeps K n s (s.entryOut q seq fn space a bs) :=
  keeps_trans (keeps_of_sessions (putData_sessions ..)) (modEntry_keeps ..)

theorem putField_keeps (s : State) (q : Nat) (seq : Word) (fn space addr w : Nat) (a : AnaPic) :
    Keeps K n s (s.putField q seq fn space addr w a) :=
  forUpTo_induct (P := Keeps K n s) _ (fun _ _ ht => keeps_trans ht (entryOut_keeps ..)) _ (entryOut_keeps ..)

theorem finishAnalysis_keeps (hK : Lasting K) (s : State) (q : Nat) (e : QEntry) : Keeps K n s (s.finishAnalysis q e) := by
  have hend : ∀ t f, KeepsPlace f → Keeps K n s t → Keeps K n s ((t.modSess e.sess f).closeEntry q e.seq 0 0) := fun t f hf ht =>
    keeps_trans (keeps_trans ht (modSess_keeps hK _ _ hf)) (closeEntry_keeps hK ..)
  unfold State.finishAnalysis
  split
  · dsimp only
    split
    · exact hend _ _ (fun _ => ⟨rfl, rfl, rfl⟩) (keeps_refl K n s)
    · exact hend _ _ (fun _ => ⟨rfl, rfl, rfl⟩) (putField_keeps ..)
  · exact keeps_refl K n s

theorem drainAnalysis_keeps (hK : Lasting K) (s : State) (q : Nat) (e : QEntry) : Keeps K n s (s.drainAnalysis q e) := by
  unfold State.drainAnalysis
  refine keeps_trans ?_ (finishAnalysis_keeps hK ..)
  exact modSess_keeps hK _ _ fun _ => ⟨rfl, rfl, rfl⟩

theorem drainRends_keeps (hK : Lasting K) (s : State) (m : Nat) : Keeps K n s (s.drainRends m) :=
  keeps_trans (forEach_keeps _ (fun _ _ => modQueue_keeps ..) s) (settleLadders_keeps hK _)

theorem closeDrained_keeps (hK : Lasting K) (s : State) (m : Nat) : Keeps K n s (s.closeDrained m) := by
  refine keeps_trans (drainRends_keeps hK ..) (forEach_keeps _ (fun p t => ?_) _)
  split
  · split
    · exact drainAnalysis_keeps hK ..
    · split
      · exact closeEntry_keeps hK ..
      · exact modEntry_keeps ..
  · exact keeps_refl K n t

end

/-! ### Sessions that are reset, and sessions that are destroyed -/

theorem lasting_reset : Lasting fun x => x.state = .sessionReset where
  fixed := fun x h => by rw [h]; rfl
  kept := fun x y h hstate _ _ => hstate.trans h
  frees := fun x h hdrains => by rw [h] at hdrains; cases hdrains

theorem resetSession_state (s : State) (n : Nat) (hfree : (s.sess n).state ≠ .free) (hdrain : (s.sess n).state ≠ .draining) :
    ((s.resetSession n).sess n).state = .sessionReset := by
  by_cases hreset : (s.sess n).state = .sessionReset
  · rw [State.resetSession, if_pos (by simp [hreset])]
    exact hreset
  · rw [State.resetSession, if_neg (by simp [hreset, hfree, hdrain])]
    refine (keeps_trans (stopUnits_keeps lasting_reset ..) (closeEntries_keeps lasting_reset ..)).keep ?_
    rw [modSess_sess]

/-- The session is FREE, or drains for the command `tag` of function `fn` that waits for it. -/
def Destroyed (fn : Nat) (tag : Word) (x : Session) : Prop :=
  x.state = .free ∨ (x.state = .draining ∧ x.destroyer = some (fn, tag) ∧ x.destroyAfter = true)

theorem lasting_destroyed (fn : Nat) (tag : Word) : Lasting (Destroyed fn tag) where
  fixed := fun x h => by
    rcases h with h | ⟨h, -⟩ <;> rw [h] <;> rfl
  kept := fun x y h hstate hwaits hafter => by
    unfold Destroyed
    rw [hstate, hwaits, hafter]
    exact h
  frees := fun x h hdrains => by
    rcases h with h | ⟨-, -, hafter⟩
    · rw [h] at hdrains
      cases hdrains
    · exact ⟨hafter, .inl rfl⟩

/-- The session has begun to drain for DESTROY_SESSION. -/
def State.drainBegun (s : State) (n : Nat) : State :=
  (s.dropOutputs n).modSess n fun x => { x with state := .draining, destroyAfter := true }

theorem drainBegun_sess (s : State) (n : Nat) :
    (s.drainBegun n).sess n = { s.sess n with state := .draining, destroyAfter := true } := by
  rw [State.drainBegun, modSess_sess]
  simp only [State.sess, dropOutputs_sessions]

theorem drainSession_keeps {K : Session → Prop} (hK : Lasting K) (s : State) (n : Nat) : Keeps K n (s.drainBegun n) (s.drainSession n true) := by
  have hclosed : Keeps K n (s.drainBegun n) (((s.drainBegun n).stopUnits (s.dsc.units.filter fun u => u.session == n)).closeDrained n) :=
    keeps_trans (stopUnits_keeps hK ..) (closeDrained_keeps hK ..)
  have hqueue : KeepsPlace fun x => { x with outq := if true then [] else x.outq } := fun _ => ⟨rfl, rfl, rfl⟩
  exact keeps_trans (keeps_trans hclosed (modSess_keeps hK _ n hqueue)) (settleDrain_keeps hK ..)

theorem drainSession_destroyed (s : State) (n fn : Nat) (tag : Word) (h : (s.sess n).destroyer = some (fn, tag)) :
    Destroyed fn tag ((s.drainSession n true).sess n) := by
  refine (drainSession_keeps (lasting_destroyed fn tag) s n).keep ?_
  rw [drainBegun_sess]
  exact .inr ⟨rfl, h, rfl⟩

end Sys2Proof.Machine
end

section
/-! PROOFS. CREATE_SESSION and SET_SESSION_PARAMS (R34, R40, R328, R329): the session that they leave, and what its first head touches. -/
namespace Sys2Proof.Machine

/-! ### Reservations -/

/-- One step of the four reservations. -/
def State.reserveStep (s : State) (sizes : List Nat) (old : List Range) (acc : Nat ⊕ List Range) (i : Nat) : Nat ⊕ List Range :=
  match acc with
  | .inl n => .inl n
  | .inr rs =>
    if sizes.getD i 0 ≤ (old.getD i ⟨0, 0⟩).size then .inr (rs ++ [⟨(old.getD i ⟨0, 0⟩).base, sizes.getD i 0⟩])
    else
      match s.reserve (s.heldRanges ++ rs) (reserveKind i) (sizes.getD i 0) (Config.freeValue (s.free + i) 64).toNat with
      | some r => .inr (rs ++ [r])
      | none => .inl (sizes.getD i 0)

theorem reserveAll_eq (s : State) (sizes : List Nat) (old : List Range) :
    s.reserveAll sizes old = (List.range 4).foldl (s.reserveStep sizes old) (.inr []) := rfl

theorem reserveStep_length {s : State} {sizes : List Nat} {old rs : List Range} {acc : Nat ⊕ List Range} {i : Nat}
    (h : s.reserveStep sizes old acc i = .inr rs) : ∃ qs, acc = .inr qs ∧ rs.length = qs.length + 1 := by
  rcases acc with n | qs
  · cases h
  · refine ⟨qs, rfl, ?_⟩
    simp only [State.reserveStep] at h
    split at h
    · cases h
      exact List.length_append
    · split at h
      · cases h
        exact List.length_append
      · cases h

theorem reserveSteps_length {s : State} {sizes : List Nat} {old rs : List Range} (is : List Nat) {acc : Nat ⊕ List Range}
    (h : is.foldl (s.reserveStep sizes old) acc = .inr rs) : ∃ qs, acc = .inr qs ∧ rs.length = qs.length + is.length := by
  induction is generalizing acc with
  | nil => exact ⟨rs, h, rfl⟩
  | cons i is ih =>
    obtain ⟨ps, hps, hlen⟩ := ih h
    obtain ⟨qs, hqs, hstep⟩ := reserveStep_length hps
    refine ⟨qs, hqs, ?_⟩
    rw [hlen, hstep, List.length_cons]
    omega

/-- Reservations that succeed are four ranges (R329). -/
theorem reserveAll_length {s : State} {sizes : List Nat} {old rs : List Range} (h : s.reserveAll sizes old = .inr rs) : rs.length = 4 := by
  rw [reserveAll_eq] at h
  obtain ⟨qs, hqs, hlen⟩ := reserveSteps_length _ h
  cases hqs
  exact hlen

theorem newSession_ranges (fn : Nat) (p : Params) {rs : List Range} (h : rs.length = 4) :
    [(newSession fn p rs).refR, (newSession fn p rs).srcR, (newSession fn p rs).stageR, (newSession fn p rs).mauR] = rs := by
  match rs, h with
  | [_, _, _, _], _ => rfl

/-! ### The first head of a session -/

/-- Only device memory, the caches in front of it and Electrum's cache have changed. -/
def OnlyHead (s t : State) : Prop := t = { s with clusters := t.clusters, ctx := t.ctx, mem := t.mem }

theorem onlyHead_refl (s : State) : OnlyHead s s := rfl

theorem onlyHead_sessions {s t : State} (h : OnlyHead s t) : t.sessions = s.sessions := by rw [h]

theorem onlyAdm_sessions {s t : State} (h : OnlyAdm s t) : t.sessions = s.sessions := by rw [h]

theorem onlyHead_trans {s t u : State} (h : OnlyHead s t) (k : OnlyHead t u) : OnlyHead s u := by
  unfold OnlyHead at *
  rw [k, h]

theorem memWrite_head (s : State) (a : Nat) (bs : List Byte) : OnlyHead s (s.memWrite a bs) := rfl

theorem modCtx_head (s : State) (f : Ctx → Ctx) : OnlyHead s (s.modCtx f) := rfl

theorem setLines_head (s : State) (n : Nat) (ls : List CLine) : OnlyHead s (s.setLines n ls) := modCtx_head ..

theorem writeDir_head (s : State) (n : Nat) : OnlyHead s (s.writeDir n) := by
  unfold State.writeDir
  split
  · exact memWrite_head ..
  · exact onlyHead_refl s

theorem writeHead_head (s : State) (n : Nat) (working : Bool) : OnlyHead s (s.writeHead n working) :=
  onlyHead_trans (onlyHead_trans (memWrite_head ..) (memWrite_head ..)) (writeDir_head ..)

theorem writeParams_head (s : State) (n : Nat) : OnlyHead s (s.writeParams n) := onlyHead_trans (memWrite_head ..) (memWrite_head ..)

theorem evict_head (s : State) (n : Nat) : OnlyHead s (s.evict n) := by
  unfold State.evict
  dsimp only
  split
  · exact onlyHead_trans (writeHead_head ..) (setLines_head ..)
  · exact setLines_head ..

theorem withLine_head (s : State) (n : Nat) : OnlyHead s (s.withLine n) := onlyHead_trans (setLines_head ..) (modCtx_head ..)

theorem allocLine_head {s t : State} {n : Nat} {may : Nat → Bool} (h : s.allocLine n may = some t) : OnlyHead s t := by
  unfold State.allocLine at h
  dsimp only at h
  split at h
  · cases h
    exact withLine_head s n
  · obtain ⟨v, -, hv⟩ := Option.map_eq_some_iff.1 h
    subst hv
    exact onlyHead_trans (evict_head s v) (withLine_head (s.evict v) n)

theorem openHead_head (s : State) (n : Nat) : OnlyHead s (s.openHead n) := by
  have hparams := writeParams_head s n
  unfold State.openHead
  dsimp only
  split
  · next t ht => exact onlyHead_trans (onlyHead_trans hparams (allocLine_head ht)) (modCtx_head ..)
  · exact onlyHead_trans hparams (writeHead_head ..)

/-! ### CREATE_SESSION -/

theorem exec_createSession (fn : Nat) (e : Entry) (b : Block) (s : State) :
    exec (.createSession fn e b) s = admCmd fn 0x10 e (createSessionCmd fn b) s := rfl

/-- The state with a new session: its table entry, the free values that it takes, and its first head. -/
def State.withSession (s : State) (fn n : Nat) (p : Params) (rs : List Range) : State :=
  ((s.modSess n fun _ => newSession fn p rs).tookFree.tookPlaces).openHead n

/-- The session that is new, and all that comes with it. -/
structure SessionMade (s t : State) (n : Nat) (x : Session) : Prop where
  made : t.sess n = x
  others : ∀ m, m ≠ n → t.sess m = s.sess m
  frame : t = { s with clusters := t.clusters, ctx := t.ctx, free := s.free + 5, mem := t.mem, sessions := t.sessions }

theorem withSession_made (s : State) (fn n : Nat) (p : Params) (rs : List Range) :
    SessionMade s (s.withSession fn n p rs) n (newSession fn p rs) := by
  have hhead := openHead_head ((s.modSess n fun _ => newSession fn p rs).tookFree.tookPlaces) n
  have hsame := onlyHead_sessions hhead
  have hsessions : (s.withSession fn n p rs).sessions = (s.modSess n fun _ => newSession fn p rs).sessions := hsame
  refine ⟨?_, fun m hm => ?_, ?_⟩
  · rw [State.sess, hsessions]
    exact modSess_sess s n fun _ => newSession fn p rs
  · rw [State.sess, hsessions]
    exact modSess_sess_other s n m (fun _ => newSession fn p rs) hm.symm
  · rw [State.withSession, hhead]
    rfl

theorem createSessionCmd_makes {s : State} {fn n : Nat} {x : Entry} {b : Block} {p : Params} {rs : List Range}
    (hpar : s.entryParams fn x b = some p) (hhead : firstBad (headChecks p) = none) (hblock : blockBad p = none)
    (hown : s.ownLeaf fn p.cls = true) (hquota : (s.sessionsOfFn fn).length < (s.fnRec fn).sessions)
    (hpick : s.pickFree (tblKeys s.sessions) s.sessionLimit = some n) (hres : s.tookFree.reserveAll (reserveBytes p) [] = .inr rs) :
    createSessionCmd fn b s x = (some (s.withSession fn n p rs), some (0, 0, sessionRet n p)) := by
  simp only [createSessionCmd, hpar, hhead, hblock, hown, hpick, hres, if_neg (Nat.not_le.2 hquota)]
  rfl

theorem createSessionCmd_invalid {s : State} {fn o : Nat} {x : Entry} {b : Block} {p : Params} (hpar : s.entryParams fn x b = some p)
    (hbad : firstBad (headChecks p) = some o) : createSessionCmd fn b s x = failInvalid o := by
  simp only [createSessionCmd, hpar, hbad]

theorem sameAdm_made {s t : State} {n : Nat} {x : Session} (fn : Nat) (h : SessionMade s t n x) : SameAdm fn s t := by
  have hframe := h.frame
  refine ⟨?_, ?_, ?_, ?_⟩
  · rw [hframe]
    rfl
  · rw [hframe]
    rfl
  · rw [hframe]
    rfl
  · rw [hframe]

/-! ### Commands on a session of the function -/

/-- Session `n` is the function's, and neither FREE nor DRAINING. -/
structure OwnSession (s : State) (fn n : Nat) : Prop where
  free : (s.sess n).state ≠ .free
  drains : (s.sess n).state ≠ .draining
  owner : (s.sess n).fn = fn

theorem ownSession_some {s : State} {fn : Nat} {x : Entry} (hfree : (s.sess (efld x 8 0 20)).state ≠ .free)
    (hfn : (s.sess (efld x 8 0 20)).fn = fn) : s.ownSession fn x = some (s.sess (efld x 8 0 20)) := by
  simp [State.ownSession, hfree, hfn]

theorem ownSession_none {s : State} {fn : Nat} {x : Entry}
    (h : (s.sess (efld x 8 0 20)).state = .free ∨ (s.sess (efld x 8 0 20)).fn ≠ fn) : s.ownSession fn x = none := by
  rcases h with h | h <;> simp [State.ownSession, h]

theorem onSession_runs {s : State} {fn : Nat} {x : Entry} (f : Nat → AdmEnd) (h : OwnSession s fn (efld x 8 0 20)) :
    onSession fn f s x = f (efld x 8 0 20) := by
  have hdrains : ((s.sess (efld x 8 0 20)).state == .draining) = false := by simp [h.drains]
  simp only [onSession, ownSession_some h.free h.owner, hdrains]
  rfl

theorem onSession_none {s : State} {fn : Nat} {x : Entry} (f : Nat → AdmEnd)
    (h : (s.sess (efld x 8 0 20)).state = .free ∨ (s.sess (efld x 8 0 20)).fn ≠ fn) : onSession fn f s x = failObject := by
  simp only [onSession, ownSession_none h]

/-! ### SET_SESSION_PARAMS -/

theorem exec_setSessionParams (fn : Nat) (e : Entry) (b : Block) (s : State) :
    exec (.setSessionParams fn e b) s = admCmd fn 0x12 e (setParamsCmd fn b) s := rfl

theorem setParamsCmd_stores {s : State} {fn : Nat} {x : Entry} {b : Block} {p : Params} {rs : List Range}
    (hsess : OwnSession s fn (efld x 8 0 20)) (hpar : s.entryParams fn x b = some p) (hbad : s.setBad fn x p = none)
    (hown : s.ownLeaf fn p.cls = true) (hheld : s.shrinksHeld (efld x 8 0 20) p = false)
    (hres : (s.modSess (efld x 8 0 20) fun y => { y with nextR := [] }).reserveAll (reserveBytes p)
      [(s.sess (efld x 8 0 20)).refR, (s.sess (efld x 8 0 20)).srcR, (s.sess (efld x 8 0 20)).stageR, (s.sess (efld x 8 0 20)).mauR] = .inr rs) :
    setParamsCmd fn b s x = (some (s.storeParams (efld x 8 0 20) p rs), some (0, 0, sessionRet (efld x 8 0 20) p)) := by
  simp only [setParamsCmd, hpar, hbad, hown, onSession_runs _ hsess, hheld, hres]
  rfl

/-- A session with new parameters pending, their class in force (R40). -/
def withPending (p : Params) (rs : List Range) (x : Session) : Session :=
  { x with par := { x.par with cls := p.cls }, pendPar := some p, nextR := if rs == [x.refR, x.srcR, x.stageR, x.mauR] then [] else rs }

theorem storeParams_frame (s : State) (n : Nat) (p : Params) (rs : List Range) :
    s.storeParams n p rs = { s with free := s.free + 4, sessions := (s.storeParams n p rs).sessions } := rfl

theorem storeParams_sameAdm (fn : Nat) (s : State) (n : Nat) (p : Params) (rs : List Range) : SameAdm fn s (s.storeParams n p rs) :=
  ⟨rfl, rfl, rfl, List.prefix_refl _⟩

theorem storeParams_sess (s : State) (n : Nat) (p : Params) (rs : List Range) : (s.storeParams n p rs).sess n = withPending p rs (s.sess n) :=
  modSess_sess s n (withPending p rs)

theorem storeParams_sess_other (s : State) (n : Nat) (p : Params) (rs : List Range) (m : Nat) (hm : m ≠ n) :
    (s.storeParams n p rs).sess m = s.sess m := modSess_sess_other s n m (withPending p rs) hm.symm

/-! ### RESET_SESSION, DESTROY_SESSION and QUERY_SESSION -/

theorem exec_resetSession (fn : Nat) (e : Entry) (s : State) : exec (.resetSession fn e) s = admCmd fn 0x13 e (resetSessionCmd fn) s := rfl

theorem exec_destroySession (fn : Nat) (e : Entry) (s : State) :
    exec (.destroySession fn e) s = admCmd fn 0x11 e (destroySessionCmd fn) s := rfl

/-- The session with the command that waits for it to become FREE. -/
def State.awaitsFree (s : State) (n fn : Nat) (tag : Word) : State := s.modSess n fun y => { y with destroyer := some (fn, tag) }

theorem awaitsFree_destroyer (s : State) (n fn : Nat) (tag : Word) : ((s.awaitsFree n fn tag).sess n).destroyer = some (fn, tag) := by
  rw [State.awaitsFree, modSess_sess]

theorem resetSessionCmd_resets {s : State} {fn : Nat} {x : Entry} (h : OwnSession s fn (efld x 8 0 20)) :
    resetSessionCmd fn s x = (some (s.resetSession (efld x 8 0 20)), some (0, 0, 0)) := by
  rw [resetSessionCmd, onSession_runs _ h, admDone]

theorem destroySessionCmd_drains {s : State} {fn : Nat} {x : Entry} (h : OwnSession s fn (efld x 8 0 20)) :
    destroySessionCmd fn s x =
      (some ((s.awaitsFree (efld x 8 0 20) fn (BitVec.ofNat 32 (e32 x 4))).drainSession (efld x 8 0 20) true), none) := by
  rw [destroySessionCmd, onSession_runs _ h, State.awaitsFree]

theorem destroyed_waits {fn : Nat} {tag : Word} {x : Session} (h : Destroyed fn tag x) :
    x.state = .free ∨ (x.state = .draining ∧ x.destroyer = some (fn, tag)) := by
  unfold Destroyed at h
  exact h.imp id fun ⟨hstate, hwaits, _⟩ => ⟨hstate, hwaits⟩

/-- A command that takes effect now and ends later. -/
theorem admCmd_waits {s t : State} {fn op : Nat} {e x : Entry} {f : State → Entry → AdmEnd} (h : s.admTakes false fn op e x)
    (hf : f s x = (some t, none)) : admCmd fn op e f s = .next t := by
  rw [admCmd_takes f h, hf]
  rfl

theorem exec_querySession (fn : Nat) (e : Entry) (s : State) : exec (.querySession fn e) s = admCmd fn 0x14 e (querySessionCmd fn) s := rfl

theorem querySessionCmd_found {s : State} {fn : Nat} {x : Entry} (hfree : (s.sess (efld x 8 0 20)).state ≠ .free)
    (hfn : (s.sess (efld x 8 0 20)).fn = fn) : querySessionCmd fn s x = (some s, some (0, 0, s.sessionRet (efld x 8 0 20))) := by
  simp only [querySessionCmd, ownSession_some hfree hfn, admDone]

theorem querySessionCmd_none {s : State} {fn : Nat} {x : Entry}
    (h : (s.sess (efld x 8 0 20)).state = .free ∨ (s.sess (efld x 8 0 20)).fn ≠ fn) : querySessionCmd fn s x = failObject := by
  simp only [querySessionCmd, ownSession_none h]

theorem finishAdm_sess (s : State) (fn : Nat) (tag : Word) (op c k r m : Nat) : (s.finishAdm false fn tag op c k r).sess m = s.sess m := by
  have hsessions : (s.finishAdm false fn tag op c k r).sessions = s.sessions := onlyAdm_sessions (finishAdm_onlyAdm s fn tag op c k r)
  simp only [State.sess, hsessions]

/-- Settles O22: an admin command ends on the state that its effect leaves (`admCmd_ends`, `finishAdm_ends`); what a reset or a drain leaves of
the session lasts through all that stops its units and closes its entries (`resetSession_state`, `drainSession_destroyed`). -/
theorem sessionCommands : Obligations.SessionCommands := by
  unfold Obligations.SessionCommands
  refine ⟨?create, ?invalid, ?params, ?reset, ?destroy, ?query, ?none⟩
  case create =>
    intro fn n e x b p rs s h hpar hhead hblock hown hquota hpick hres
    have hmade := withSession_made s fn n p rs
    refine ⟨_, by rw [exec_createSession, admCmd_ends h (createSessionCmd_makes hpar hhead hblock hown hquota hpick hres), Option.getD_some],
      finishAdm_ends 0 0 (sessionRet n p) (sameAdm_made fn hmade) (admTakes_reachable h), ?_⟩
    simp only [finishAdm_sess, hmade.made]
    refine ⟨rfl, rfl, rfl, rfl, rfl, newSession_ranges fn p (reserveAll_length hres), hmade.others, ?_⟩
    have hend := finishAdm_onlyAdm (s.withSession fn n p rs) fn (BitVec.ofNat 32 (e32 x 4)) (eOp x) 0 0 (sessionRet n p)
    rw [hend, hmade.frame]
  case invalid =>
    intro fn e x b p o s h hpar hbad
    obtain ⟨t, ht, hend, honly⟩ := admCmd_fails h (createSessionCmd_invalid hpar hbad)
    exact ⟨t, ht, hend, onlyAdm_sessions honly⟩
  case params =>
    intro fn n e x b p rs s h hn hfree hdrain hfn hpar hbad hown hheld hres
    subst hn
    have hframe := storeParams_frame s (efld x 8 0 20) p rs
    refine ⟨(s.storeParams (efld x 8 0 20) p rs).finishAdm false fn (BitVec.ofNat 32 (e32 x 4)) (eOp x) 0 0 (sessionRet (efld x 8 0 20) p), ?_,
      finishAdm_ends 0 0 _ (storeParams_sameAdm fn s _ p rs) (admTakes_reachable h), ?_⟩
    · rw [exec_setSessionParams, admCmd_ends h (setParamsCmd_stores ⟨hfree, hdrain, hfn⟩ hpar hbad hown hheld hres), Option.getD_some]
    simp only [finishAdm_sess, storeParams_sess]
    refine ⟨rfl, rfl, rfl, fun m hm => storeParams_sess_other s _ p rs m hm, ?_⟩
    have hend := finishAdm_onlyAdm (s.storeParams (efld x 8 0 20) p rs) fn (BitVec.ofNat 32 (e32 x 4)) (eOp x) 0 0 (sessionRet (efld x 8 0 20) p)
    rw [hend, hframe]
  case reset =>
    intro fn n e x s h hn hfree hdrain hfn
    subst hn
    refine ⟨_, by rw [exec_resetSession, admCmd_ends h (resetSessionCmd_resets ⟨hfree, hdrain, hfn⟩), Option.getD_some], ?_⟩
    rw [finishAdm_sess]
    exact resetSession_state s _ hfree hdrain
  case destroy =>
    intro fn n e x s h hn hfree hdrain hfn
    subst hn
    refine ⟨(s.awaitsFree (efld x 8 0 20) fn (BitVec.ofNat 32 (e32 x 4))).drainSession (efld x 8 0 20) true, ?_, destroyed_waits ?_⟩
    · rw [exec_destroySession, admCmd_waits h (destroySessionCmd_drains ⟨hfree, hdrain, hfn⟩)]
    · exact drainSession_destroyed _ _ _ _ (awaitsFree_destroyer ..)
  case query =>
    intro fn n e x s h hn hfree hfn
    subst hn
    exact ⟨_, by rw [exec_querySession, admCmd_ends h (querySessionCmd_found hfree hfn), Option.getD_some],
      finishAdm_ends 0 0 _ (sameAdm_refl fn s) (admTakes_reachable h), finishAdm_onlyAdm ..⟩
  case none =>
    intro fn op e x c s h hnone hc
    have hfails : ∀ f : State → Entry → AdmEnd, f s x = failObject → exec c s = admCmd fn op e f s →
        ∃ t, exec c s = .next t ∧ admEnds s t false fn x 0x40 0x52 0 ∧ t.sessions = s.sessions := fun f hf harm => by
      obtain ⟨t, ht, hend, honly⟩ := admCmd_fails h hf
      exact ⟨t, harm.trans ht, hend, onlyAdm_sessions honly⟩
    rcases hc with ⟨rfl, rfl⟩ | ⟨rfl, rfl⟩ | ⟨rfl, rfl⟩
    · exact hfails (destroySessionCmd fn) (onSession_none _ hnone) rfl
    · exact hfails (resetSessionCmd fn) (onSession_none _ hnone) rfl
    · exact hfails (querySessionCmd fn) (querySessionCmd_none hnone) rfl

end Sys2Proof.Machine
end

section
/-! PROOFS. Chains (R75, R288, R304, R305): a queue with two entries of one sequence number. -/
namespace Sys2Proof.Machine

/-- A device that runs work, with nothing to run. -/
def bareLive : State :=
  { State.reset with
    pins := { Pins.init with pwrgood := true, perst := false, settled := true }
    boot := { Boot.init with step := 6, image := some bareImage } }

/-- A DECODE_AU of session 5, of 256 bytes at address 0x1000 of device memory, which no region grants. -/
def ungrantedDecode : Entry := BitVec.ofNat 512 (put 0 0 1 + put 8 0 5 + put 16 0 0x1000 + put 24 0 256 + put 28 0 1)

/-- A chain of one entry that waits for its reservation, and behind it a reserved entry of another chain with the same sequence number. -/
def sharedSeq : State :=
  { bareLive with
    queues := [(0, { WorkQ.init with
      state := .enabled
      entries := [freshEntry 0 0 0 [] 0 0, { freshEntry 1 0 ungrantedDecode [] 1 1 with stage := .reserved }] })]
    sessions := [(5, { Session.init with state := .ready })] }

theorem sharedSeq_live : sharedSeq.live = true := by decide +kernel

/-- The first chain waits: the queue has no free slot. -/
theorem sharedSeq_waits : (sharedSeq.queue 0).state ≠ .free ∧ (sharedSeq.queue 0).waitingChain = some 0
    ∧ (sharedSeq.queue 0).resvFree < ((sharedSeq.queue 0).entries.filter fun e => e.chain == 0).length := by
  decide +kernel

/-- The waiting chain's sequence number names the reserved entry too, whose windows are checked again, and refused. -/
theorem sharedSeq_records : (reserveChainOp 0 sharedSeq).fcl.inbox ≠ sharedSeq.fcl.inbox := by decide +kernel

theorem exec_completionReservation (q : Nat) (s : State) (hlive : s.live = true) (hstate : (s.queue q).state ≠ .free) :
    exec (.completionReservation q) s = .next (reserveChainOp q s) := by
  have harm : exec (.completionReservation q) s = execCompletionReservation q s := rfl
  simp [harm, execCompletionReservation, onlyIf, hlive, hstate]

/-- Refutes O15: a chain that waits for its reservations may change more than its queue and the count of waits. The statement asks no more of a
state than that the device runs, and in `sharedSeq` two entries of one queue have one sequence number, so that an entry of another chain passes
for one that has just been reserved: its windows are checked again, and their refusal is recorded. What the clause lacks is the hypothesis that
no two entries of a queue share a sequence number. -/
theorem not_chainRules : ¬ Obligations.ChainRules := by
  unfold Obligations.ChainRules
  rintro ⟨-, -, -, hwait, -⟩
  obtain ⟨hstate, hchain, hfew⟩ := sharedSeq_waits
  obtain ⟨t, ht, -, -, -, hframe⟩ := hwait 0 0 sharedSeq sharedSeq_live hstate hchain hfew
  rw [exec_completionReservation 0 sharedSeq sharedSeq_live hstate] at ht
  injection ht with ht
  apply sharedSeq_records
  rw [ht, hframe]

end Sys2Proof.Machine
end

section
/-! PROOFS. Microwords (R77, R79, R99): a half whose unit stands on another half. -/
namespace Sys2Proof.Machine

/-- A segment that stands on half 2, its budget 0 cycles. -/
def straySegment : WUnit := { blankUnit 0 0 0 0 0 .segment with stage := .running 2 }

/-- Half 0 executes that segment, from a writable store of zeros. -/
def strayUnit : State :=
  { bareLive with
    halves := [(0, { Half.init with fstate := .active, unit := some 0, store := true })]
    dsc := { Dsc.init with units := [straySegment] } }

/-- A cycle in which the datapaths give nothing. -/
def quietIssue : IssueIn :=
  { conds := 0, index := 0, stall := 0, parity := false, addr := 0, data := [], tail := none, fifoWord := none, mark := .none, ctus := 0,
    bins := 0, sync := [] }

theorem strayUnit_live : strayUnit.live = true := by decide +kernel

/-- Half 0 serves, and issues for the unit. -/
theorem strayUnit_issues : strayUnit.halfServes 0 = true ∧ strayUnit.running? 0 = some straySegment ∧ (strayUnit.half 0).waiting = false := by
  decide +kernel

/-- The word does nothing. -/
theorem strayUnit_word : ((strayUnit.half 0).fetch (strayUnit.half 0).nextA).trap = false
    ∧ ((strayUnit.half 0).fetch (strayUnit.half 0).nextA).invalid (0 % 2 == 1) = false
    ∧ nfld ((strayUnit.half 0).fetch (strayUnit.half 0).nextA).nano 5 26 2 = 0
    ∧ mCkpt ((strayUnit.half 0).fetch (strayUnit.half 0).nextA).word = false
    ∧ mWait ((strayUnit.half 0).fetch (strayUnit.half 0).nextA).word = false := by
  decide +kernel

/-- The budget abort goes to the half that the unit stands on. -/
theorem strayUnit_asked : ((issueOp 0 quietIssue strayUnit).half 2).sent ≠ (strayUnit.half 2).sent := by decide +kernel

theorem exec_microwordIssue (h : Nat) (x : IssueIn) (s : State) (hlive : s.live = true) (hhalf : isHalf h = true)
    (hserves : s.halfServes h = true) : exec (.microwordIssue h x) s = .next (issueOp h x s) := by
  have harm : exec (.microwordIssue h x) s = execMicrowordIssue h x s := rfl
  simp [harm, execMicrowordIssue, onlyIf, hlive, hhalf, hserves]

/-- Refutes O30: a microword may change another half than its own. The statement asks of the unit that its half executes only that the half
names it, and in `strayUnit` the unit stands on another half, to which the abort goes once the word's cycles reach the budget. What the clause
lacks is the hypothesis that the unit's stage is `.running h`, as the clause of O31 about budgets has it. -/
theorem not_microwordIssue : ¬ Obligations.MicrowordIssue := by
  unfold Obligations.MicrowordIssue
  rintro ⟨hissue, -⟩
  obtain ⟨hserves, hunit, hidle⟩ := strayUnit_issues
  obtain ⟨htrap, hvalid, hmem, hckpt, hwait⟩ := strayUnit_word
  obtain ⟨t, ht, -, -, -, -, -, -, -, -, -, -, hothers, -⟩ := hissue 0 quietIssue straySegment strayUnit strayUnit_live (by decide) hserves hunit
    hidle rfl rfl rfl htrap hvalid hmem hckpt hwait
  rw [exec_microwordIssue 0 quietIssue strayUnit strayUnit_live (by decide) hserves] at ht
  injection ht with ht
  apply strayUnit_asked
  rw [ht, hothers 2 (by decide)]

end Sys2Proof.Machine
end

section
/-! PROOFS. What stays as it was while units leave their places, sessions are reset and lines are lost (R34, R35, R39, R46, R290, R441): the
fault collector, the Nitinol engines, and what a half has latched. -/
namespace Sys2Proof.Machine

/-! ### What a half keeps -/

/-- A half has latched and counted nothing, and may have ended its fencing (R82). -/
structure HalfKept (x y : Half) : Prop where
  count : y.mchkCount = x.mchkCount
  cause : y.cause = x.cause
  abortF : y.abortF = x.abortF
  fstate : y.fstate = x.fstate ∨ x.fstate = .fencing ∧ y.fstate = .fenced

theorem halfKept_refl (x : Half) : HalfKept x x := ⟨rfl, rfl, rfl, .inl rfl⟩

theorem halfKept_trans {x y z : Half} (h : HalfKept x y) (k : HalfKept y z) : HalfKept x z where
  count := k.count.trans h.count
  cause := k.cause.trans h.cause
  abortF := k.abortF.trans h.abortF
  fstate := by
    obtain hxy | ⟨hx, hy⟩ := h.fstate
    · rw [← hxy]
      exact k.fstate
    · obtain hyz | ⟨hy', -⟩ := k.fstate
      · exact .inr ⟨hx, hyz.trans hy⟩
      · rw [hy] at hy'
        cases hy'

/-! ### Units that leave their places -/

/-- Units, their places and their sessions alone have changed, and every half keeps what it has latched. -/
structure OnlyMoved (s t : State) : Prop where
  frame : t = { s with dmv := t.dmv, dsc := t.dsc, halves := t.halves, mau := t.mau, pcf := t.pcf, sessions := t.sessions }
  half : ∀ h, HalfKept (s.half h) (t.half h)

theorem onlyMoved_refl (s : State) : OnlyMoved s s := ⟨rfl, fun _ => halfKept_refl _⟩

theorem onlyMoved_trans {s t u : State} (h : OnlyMoved s t) (k : OnlyMoved t u) : OnlyMoved s u where
  frame := by
    have hst := h.frame
    have htu := k.frame
    rw [hst] at htu
    exact htu
  half := fun j => halfKept_trans (h.half j) (k.half j)

theorem forEach_moved {β : Type} {f : β → State → State} (xs : List β) (hf : ∀ x t, OnlyMoved t (f x t)) (s : State) :
    OnlyMoved s (forEach xs f s) :=
  forEach_induct (P := OnlyMoved s) xs (fun x _ t ht => onlyMoved_trans ht (hf x t)) s (onlyMoved_refl s)

theorem onlyMoved_of_queued {s t : State} (h : OnlyQueued s t) : OnlyMoved s t := by
  unfold OnlyQueued at h
  refine ⟨by rw [h], fun j => ?_⟩
  rw [h]
  exact halfKept_refl _

theorem modHalf_moved (s : State) (h : Nat) (f : Half → Half) (hf : HalfKept (s.half h) (f (s.half h))) : OnlyMoved s (s.modHalf h f) := by
  refine ⟨rfl, fun j => ?_⟩
  by_cases hj : h = j
  · subst hj
    rwa [modHalf_half]
  · rw [modHalf_half_other _ _ _ _ hj]
    exact halfKept_refl _

theorem modDsc_moved (s : State) (f : Dsc → Dsc) : OnlyMoved s (s.modDsc f) := onlyMoved_of_queued (modDsc_queued s f)

theorem modSess_moved (s : State) (n : Nat) (f : Session → Session) : OnlyMoved s (s.modSess n f) := onlyMoved_of_queued (modSess_queued s n f)

theorem modDmv_moved (s : State) (f : Dmv → Dmv) : OnlyMoved s (s.modDmv f) := ⟨rfl, fun _ => halfKept_refl _⟩

theorem modMau_moved (s : State) (f : Mau → Mau) : OnlyMoved s (s.modMau f) := ⟨rfl, fun _ => halfKept_refl _⟩

theorem modPcf_moved (s : State) (f : Pcf → Pcf) : OnlyMoved s (s.modPcf f) := ⟨rfl, fun _ => halfKept_refl _⟩

theorem settleHalf_moved (s : State) (h : Nat) : OnlyMoved s (s.settleHalf h) := by
  unfold State.settleHalf
  dsimp only
  split
  · next hdone =>
    simp only [Bool.and_eq_true, beq_iff_eq] at hdone
    exact modHalf_moved s h _ ⟨rfl, rfl, rfl, .inr ⟨hdone.1.1.1, rfl⟩⟩
  · exact onlyMoved_refl s

theorem leaveHalf_kept (b : BankState) (u : WUnit) (x : Half) : HalfKept x (leaveHalf b u x) := ⟨rfl, rfl, rfl, .inl rfl⟩

theorem releasePlace_moved (s : State) (u : WUnit) (b : BankState) : OnlyMoved s (s.releasePlace u b) := by
  unfold State.releasePlace
  split
  · split
    · exact modMau_moved ..
    · split
      · exact modPcf_moved ..
      · exact onlyMoved_trans (onlyMoved_trans (modHalf_moved s _ _ (leaveHalf_kept ..)) (modDmv_moved ..)) (settleHalf_moved ..)
  · split
    · refine onlyMoved_trans (modHalf_moved s _ _ ?_) (settleHalf_moved ..)
      split <;> exact ⟨rfl, rfl, rfl, .inl rfl⟩
    · exact onlyMoved_refl s
  · exact onlyMoved_refl s

theorem refund_moved (s : State) (u : WUnit) (n : Int) : OnlyMoved s (s.refund u n) := forEach_moved _ (fun _ t => modDsc_moved t _) s

theorem leftPlace_moved (s : State) (u : WUnit) (n : Nat) : OnlyMoved s (s.leftPlace u n) :=
  onlyMoved_trans (onlyMoved_trans (releasePlace_moved ..) (modDsc_moved ..)) (modSess_moved ..)

theorem wake_moved (s : State) (u : WUnit) : OnlyMoved s (s.wake u) := onlyMoved_of_queued (wake_queued s u).1

theorem settleState_moved (s : State) (n : Nat) : OnlyMoved s (s.settleState n) := onlyMoved_of_queued (settleState_queued s n).1

theorem unhint_moved (s : State) (n : Nat) : OnlyMoved s (s.unhint n) := by
  unfold State.unhint
  split
  · exact onlyMoved_refl s
  · next u _ =>
    have hfreed : OnlyMoved s ((s.releasePlace u .empty).freeInflight n) := onlyMoved_trans (releasePlace_moved ..) (modDsc_moved ..)
    exact onlyMoved_trans (onlyMoved_trans (onlyMoved_trans (onlyMoved_trans hfreed (refund_moved ..)) (wake_moved ..)) (modDsc_moved ..))
      (settleState_moved ..)

theorem sendReq_moved (s : State) (u : WUnit) (r : SeqReq) : OnlyMoved s (s.sendReq u r) := by
  unfold State.sendReq
  split
  · split
    · exact modHalf_moved s _ _ ⟨rfl, rfl, rfl, .inl rfl⟩
    · exact onlyMoved_refl s
  · exact onlyMoved_refl s

/-- The hinted units of a half that leaves service return to their sessions, and its claims move on (R83, R290, R292). -/
theorem reclaim_moved (s : State) (h : Nat) : OnlyMoved s (s.reclaim h) :=
  onlyMoved_trans (forEach_moved _ (fun (u : WUnit) t => onlyMoved_trans (unhint_moved t u.uid) (modDsc_moved ..)) s)
    (forEach_moved _ (fun _ t => modDsc_moved t _) _)

/-! ### Units and entries that end for good -/

/-- The fault collector and the Nitinol engines are as before, and every half keeps what it has latched. -/
structure Undisturbed (s t : State) : Prop where
  fcl : t.fcl = s.fcl
  ntl : t.ntl = s.ntl
  half : ∀ h, HalfKept (s.half h) (t.half h)

theorem undisturbed_refl (s : State) : Undisturbed s s := ⟨rfl, rfl, fun _ => halfKept_refl _⟩

theorem undisturbed_trans {s t u : State} (h : Undisturbed s t) (k : Undisturbed t u) : Undisturbed s u :=
  ⟨k.fcl.trans h.fcl, k.ntl.trans h.ntl, fun j => halfKept_trans (h.half j) (k.half j)⟩

theorem forEach_undisturbed {β : Type} {f : β → State → State} (xs : List β) (hf : ∀ x t, Undisturbed t (f x t)) (s : State) :
    Undisturbed s (forEach xs f s) :=
  forEach_induct (P := Undisturbed s) xs (fun x _ t ht => undisturbed_trans ht (hf x t)) s (undisturbed_refl s)

theorem undisturbed_of_same {s t : State} (hfcl : t.fcl = s.fcl) (hntl : t.ntl = s.ntl) (hhalves : t.halves = s.halves) : Undisturbed s t :=
  ⟨hfcl, hntl, fun h => by rw [State.half, State.half, hhalves]; exact halfKept_refl _⟩

theorem undisturbed_of_moved {s t : State} (h : OnlyMoved s t) : Undisturbed s t := ⟨by rw [h.frame], by rw [h.frame], h.half⟩

theorem undisturbed_of_put {s t : State} (h : OnlyPut s t) : Undisturbed s t := undisturbed_of_same (by rw [h]) (by rw [h]) (by rw [h])

theorem undisturbed_of_told {s t : State} (h : OnlyTold s t) : Undisturbed s t :=
  undisturbed_of_same (by rw [h.frame]) (by rw [h.frame]) (by rw [h.frame])

theorem undisturbed_of_entry {q : Nat} {s t : State} (h : OnlyEntry q s t) : Undisturbed s t :=
  undisturbed_of_same (by rw [h.frame]) (by rw [h.frame]) (by rw [h.frame])

theorem modQueue_undisturbed (s : State) (q : Nat) (f : WorkQ → WorkQ) : Undisturbed s (s.modQueue q f) := undisturbed_of_same rfl rfl rfl

theorem modEntry_undisturbed (s : State) (q : Nat) (seq : Word) (f : QEntry → QEntry) : Undisturbed s (s.modEntry q seq f) :=
  modQueue_undisturbed ..

theorem modSess_undisturbed (s : State) (n : Nat) (f : Session → Session) : Undisturbed s (s.modSess n f) := undisturbed_of_same rfl rfl rfl

theorem modDsc_undisturbed (s : State) (f : Dsc → Dsc) : Undisturbed s (s.modDsc f) := undisturbed_of_same rfl rfl rfl

theorem modCtx_undisturbed (s : State) (f : Ctx → Ctx) : Undisturbed s (s.modCtx f) := undisturbed_of_same rfl rfl rfl

theorem modRing_undisturbed (s : State) (fn : Nat) (f : EvRing → EvRing) : Undisturbed s (s.modRing fn f) := undisturbed_of_same rfl rfl rfl

theorem modPool_undisturbed (s : State) (p : Nat) (f : Pool → Pool) : Undisturbed s (s.modPool p f) := undisturbed_of_same rfl rfl rfl

theorem modMem_undisturbed (s : State) (f : Mem → Mem) : Undisturbed s (s.modMem f) := undisturbed_of_same rfl rfl rfl

theorem memWrite_undisturbed (s : State) (a : Nat) (bs : List Byte) : Undisturbed s (s.memWrite a bs) := undisturbed_of_same rfl rfl rfl

theorem writeDir_undisturbed (s : State) (n : Nat) : Undisturbed s (s.writeDir n) := by
  unfold State.writeDir
  split
  · exact memWrite_undisturbed ..
  · exact undisturbed_refl s

theorem freeSession_undisturbed (s : State) (n : Nat) : Undisturbed s (s.freeSession n) :=
  undisturbed_trans (undisturbed_trans (modSess_undisturbed ..) (modCtx_undisturbed ..)) (writeDir_undisturbed ..)

theorem finishAdm_undisturbed (s : State) (fn : Nat) (tag : Word) (op c k r : Nat) : Undisturbed s (s.finishAdm false fn tag op c k r) := by
  have h := finishAdm_onlyAdm s fn tag op c k r
  exact undisturbed_of_same (by rw [h]) (by rw [h]) (by rw [h])

theorem settleDrain_undisturbed (s : State) (n : Nat) : Undisturbed s (s.settleDrain n) := by
  unfold State.settleDrain
  dsimp only
  split
  · split
    · split
      · exact undisturbed_trans (freeSession_undisturbed s n) (finishAdm_undisturbed ..)
      · exact freeSession_undisturbed s n
    · exact modSess_undisturbed ..
  · exact undisturbed_refl s

theorem settleEntry_undisturbed (s : State) (q : Nat) (seq : Word) : Undisturbed s (s.settleEntry q seq) :=
  undisturbed_of_entry (settleEntry_onlyEntry s q seq)

theorem closeEntry_undisturbed (s : State) (q : Nat) (seq : Word) (c k : Nat) : Undisturbed s (s.closeEntry q seq c k) :=
  undisturbed_of_entry (closeEntry_onlyEntry s q seq c k)

theorem discardUnit_undisturbed (s : State) (u : WUnit) : Undisturbed s (s.discardUnit u) := by
  have hgone : Undisturbed s ((s.leftPlace u u.uid).dropUnit u.uid) :=
    undisturbed_of_moved (onlyMoved_trans (leftPlace_moved s u u.uid) (modDsc_moved ..))
  have hend : ∀ t, Undisturbed s t → Undisturbed s (((t.settleState u.session).settleEntry u.q u.seq).settleDrain u.session) := fun t ht =>
    undisturbed_trans (undisturbed_trans (undisturbed_trans ht (undisturbed_of_moved (settleState_moved ..))) (settleEntry_undisturbed ..))
      (settleDrain_undisturbed ..)
  unfold State.discardUnit
  dsimp only
  split
  · exact hend _ (undisturbed_trans hgone (modEntry_undisturbed ..))
  · exact hend _ hgone

theorem rollback_undisturbed (s : State) (n : Nat) : Undisturbed s (s.rollback n) := by
  unfold State.rollback
  split
  · exact undisturbed_refl s
  · next u _ =>
    split
    · exact undisturbed_trans (undisturbed_of_moved (refund_moved ..)) (discardUnit_undisturbed ..)
    · have hwoken := onlyMoved_trans (onlyMoved_trans (leftPlace_moved s u n) (refund_moved _ u (u.cost : Int))) (wake_moved _ u)
      exact undisturbed_trans (undisturbed_of_moved (onlyMoved_trans (onlyMoved_trans hwoken (modDsc_moved ..)) (settleState_moved ..)))
        (settleDrain_undisturbed ..)

theorem stopUnits_undisturbed (s : State) (us : List WUnit) : Undisturbed s (s.stopUnits us) := by
  refine forEach_undisturbed us (fun u t => ?_) s
  unfold State.stopUnit
  split
  · exact discardUnit_undisturbed ..
  · exact undisturbed_of_moved (onlyMoved_trans (modDsc_moved ..) (sendReq_moved ..))

theorem failEntry_undisturbed (s : State) (u : WUnit) (code cause : Nat) : Undisturbed s (s.failEntry u code cause) := by
  unfold State.failEntry
  dsimp only
  split
  · exact undisturbed_trans (undisturbed_trans (stopUnits_undisturbed ..) (modEntry_undisturbed ..)) (settleEntry_undisturbed ..)
  · exact undisturbed_trans (undisturbed_trans (stopUnits_undisturbed ..) (modEntry_undisturbed ..)) (closeEntry_undisturbed ..)

theorem failUnit_undisturbed (s : State) (u : WUnit) (code cause : Nat) : Undisturbed s (s.failUnit u code cause) := by
  have hend : ∀ t, Undisturbed s t → Undisturbed s ((t.rollback u.uid).failEntry { u with wantDrop := true } code cause) := fun t ht =>
    undisturbed_trans (undisturbed_trans ht (rollback_undisturbed ..)) (failEntry_undisturbed ..)
  unfold State.failUnit
  dsimp only
  split
  · exact hend _ (modDsc_undisturbed ..)
  · exact hend _ (undisturbed_trans (modDsc_undisturbed ..) (modEntry_undisturbed ..))

/-! ### Sessions that are reset -/

theorem settleLadders_undisturbed (s : State) : Undisturbed s s.settleLadders :=
  forEach_undisturbed _ (fun _ t => undisturbed_trans (modEntry_undisturbed t ..) (settleEntry_undisturbed ..)) s

theorem closeEntries_undisturbed (s : State) (n c k : Nat) : Undisturbed s (s.closeEntries n c k) :=
  undisturbed_trans (undisturbed_trans (forEach_undisturbed _ (fun q t => modQueue_undisturbed t q _) s) (settleLadders_undisturbed _))
    (forEach_undisturbed _ (fun _ t => closeEntry_undisturbed t ..) _)

theorem dropOutputs_undisturbed (s : State) (n : Nat) : Undisturbed s (s.dropOutputs n) := by
  unfold State.dropOutputs
  split
  · exact undisturbed_refl s
  · exact undisturbed_of_same rfl rfl rfl

theorem resetSession_undisturbed (s : State) (n : Nat) : Undisturbed s (s.resetSession n) := by
  unfold State.resetSession
  split
  · exact undisturbed_refl s
  · exact undisturbed_trans (undisturbed_trans (undisturbed_trans (dropOutputs_undisturbed s n) (modSess_undisturbed ..))
      (stopUnits_undisturbed ..)) (closeEntries_undisturbed ..)

theorem assertSource_undisturbed (s : State) (n : Nat) : Undisturbed s (s.assertSource n) := by
  unfold State.assertSource
  split
  · exact undisturbed_refl s
  · exact undisturbed_trans (t := s.modSrc n _) (undisturbed_of_same rfl rfl rfl) (undisturbed_of_told (settleSource_told ..))

theorem putRecord_undisturbed (s : State) (fn space a : Nat) (bs : List Byte) : Undisturbed s (s.putRecord fn space a bs) :=
  undisturbed_of_put (putRecord_put ..)

/-- The ring of an event changes, and its index word is written. -/
theorem tellRing_undisturbed (s : State) (fn : Nat) (f : EvRing → EvRing) : Undisturbed s ((s.modRing fn f).putEventWord fn) :=
  undisturbed_trans (modRing_undisturbed s fn f) (putRecord_undisturbed ..)

theorem event_undisturbed (s : State) (fn type : Nat) (queue : Option Nat) (cause session : Nat) (seq tag : Word) (arg : Nat) :
    Undisturbed s (s.event fn type queue cause session seq tag arg) := by
  unfold State.event
  dsimp only
  split
  · exact undisturbed_refl s
  · split
    · exact tellRing_undisturbed ..
    · exact undisturbed_trans (undisturbed_trans (putRecord_undisturbed ..) (tellRing_undisturbed ..)) (assertSource_undisturbed ..)

theorem faultReset_undisturbed (s : State) (n : Nat) (lines : List Nat) : Undisturbed s (s.faultReset n lines) := by
  unfold State.faultReset
  split
  · exact undisturbed_refl s
  · split
    · exact modSess_undisturbed ..
    · exact undisturbed_trans (undisturbed_trans (resetSession_undisturbed s n) (modSess_undisturbed ..)) (event_undisturbed ..)

/-! ### Lines that are lost -/

theorem loseContext_undisturbed (s : State) (base l : Nat) : Undisturbed s (s.loseContext base l) := by
  unfold State.loseContext
  dsimp only
  split
  · exact memWrite_undisturbed ..
  · exact faultReset_undisturbed ..

theorem rebuildSession_undisturbed (s : State) (n : Nat) : Undisturbed s (s.rebuildSession n) := by
  unfold State.rebuildSession
  split
  · exact undisturbed_refl s
  · exact undisturbed_trans (undisturbed_trans (faultReset_undisturbed ..) (modSess_undisturbed ..)) (writeDir_undisturbed ..)

/-- A lost line reports nothing beside what its loss was reported by, whichever region held it (Table 19-7). -/
theorem loseLine_undisturbed (s : State) (a : Nat) : Undisturbed s (s.loseLine a) := by
  unfold State.loseLine
  dsimp only
  split
  · exact undisturbed_refl s
  · split
    · exact loseContext_undisturbed ..
    · split
      · exact undisturbed_trans (forUpTo_induct (P := Undisturbed s) 8
          (fun k t ht => undisturbed_trans ht (rebuildSession_undisturbed t _)) s (undisturbed_refl s)) (modMem_undisturbed ..)
      · split
        · exact forEach_undisturbed _ (fun p t => modPool_undisturbed t p _) s
        · exact forEach_undisturbed _ (fun n t => faultReset_undisturbed t n _) s

end Sys2Proof.Machine
end

section
/-! PROOFS. Machine checks and the watchdog (R84, R98, R439). -/
namespace Sys2Proof.Machine

/-! ### What a machine check clears away -/

theorem reportCheck_half (s : State) (h cause : Nat) (a : BitVec 13) (j : Nat) : (s.reportCheck h cause a).half j = s.half j := by
  unfold State.reportCheck
  dsimp only
  split <;> rfl

theorem checkUnit_undisturbed (s : State) (h : Nat) : Undisturbed s (s.checkUnit h) := by
  unfold State.checkUnit
  split
  · exact undisturbed_refl s
  · next u _ =>
    dsimp only
    generalize (if u.mchk.contains h then u.mchk else u.mchk ++ [h]) = hs
    split
    · exact failUnit_undisturbed ..
    · exact undisturbed_trans (modDsc_undisturbed ..) (rollback_undisturbed ..)

theorem holdClock_half (s : State) (h j : Nat) : (s.holdClock h).half j = s.half j := by
  unfold State.holdClock
  split <;> rfl

/-- The check is reported, the half's unit has left it, and its hinted units have been returned (R84). -/
def State.vacated (s : State) (h cause : Nat) (a : BitVec 13) : State :=
  ((((s.reportCheck h cause a).checkUnit h).modHalf h fun x => { x with fstate := .fenced }).reclaim h).holdClock h

theorem vacated_count (s : State) (h cause : Nat) (a : BitVec 13) : ((s.vacated h cause a).half h).mchkCount = (s.half h).mchkCount := by
  have hunit := ((checkUnit_undisturbed (s.reportCheck h cause a) h).half h).count
  have hhints := ((reclaim_moved (((s.reportCheck h cause a).checkUnit h).modHalf h fun x => { x with fstate := .fenced }) h).half h).count
  rw [modHalf_half] at hhints
  rw [State.vacated, holdClock_half, hhints, hunit, reportCheck_half]

/-! ### What it latches -/

/-- The half once the check is latched: nothing of its working state stays (R84, R439). -/
def checkedHalf (s : State) (h cause : Nat) (a : BitVec 13) (x : Half) : Half :=
  { haltHalf x with
    fstate := if s.policy.autoUnfence && decide ((s.half h).mchkWindow + 1 < s.policy.mchkLimit) then .testing else .fenced
    passed := false, abortF := false, cause := cause, mchkAddr := a, mchkCount := min 255 (x.mchkCount + 1), mchkCause := cause
    mchkWindow := (s.half h).mchkWindow + 1 }

theorem machineCheck_eq (s : State) (h cause : Nat) (a : BitVec 13) :
    s.machineCheck h cause a = (s.vacated h cause a).modHalf h (checkedHalf s h cause a) := rfl

theorem machineCheck_checked (s : State) (h cause : Nat) (a : BitVec 13) : (s.machineCheck h cause a).checked s h cause a := by
  unfold State.checked
  rw [machineCheck_eq, modHalf_half, ← vacated_count s h cause a]
  exact ⟨rfl, rfl, rfl, rfl, rfl, rfl, rfl, rfl, rfl, rfl⟩

theorem exec_machineCheck (h cause : Nat) (a : BitVec 13) (s : State) (hlive : s.live = true) (hhalf : isHalf h = true)
    (hserves : s.halfServes h = true) (hlow : 3 ≤ cause) (hhigh : cause ≤ 5) :
    exec (.machineCheck h cause a) s = .next (s.machineCheck h cause a) := by
  have harm : exec (.machineCheck h cause a) s = execMachineCheck h cause a s := rfl
  simp [harm, execMachineCheck, onlyIf, hlive, hhalf, hserves, hlow, hhigh, machineCheckOp]

/-! ### The watchdog -/

/-- The cycles that a half has waited weigh nothing in its machine check. -/
theorem checked_of_waited {s t : State} {h cause : Nat} {a : BitVec 13} {n : Half → Nat}
    (hchecked : t.checked (s.modHalf h fun x => { x with waitCycles := n x }) h cause a) : t.checked s h cause a := by
  unfold State.checked at *
  rwa [modHalf_half] at hchecked

theorem exec_waitWatchdog (h : Nat) (s : State) (hlive : s.live = true) (hhalf : isHalf h = true) (hserves : s.halfServes h = true) :
    exec (.waitWatchdog h) s = .next (watchdogOp h s) := by
  have harm : exec (.waitWatchdog h) s = execWaitWatchdog h s := rfl
  simp [harm, execWaitWatchdog, onlyIf, hlive, hhalf, hserves]

theorem watchdogOp_checked {h : Nat} {s : State} (hwaits : (s.half h).waiting = true) (hcounts : s.countHeld h = false) :
    (watchdogOp h s).checked s h 5 (s.half h).uaddr := by
  rw [watchdogOp, if_pos (by simp [hwaits, hcounts])]
  exact checked_of_waited (machineCheck_checked ..)

theorem watchdogOp_held {h : Nat} {s : State} (hheld : (s.half h).waiting = false ∨ s.countHeld h = true) : watchdogOp h s = s := by
  obtain hheld | hheld := hheld <;> simp [watchdogOp, hheld]

theorem exec_waitWatchdog_held {h : Nat} {s : State} (hheld : (s.half h).waiting = false ∨ s.countHeld h = true) :
    exec (.waitWatchdog h) s = .next s := by
  have harm : exec (.waitWatchdog h) s = execWaitWatchdog h s := rfl
  rw [harm, execWaitWatchdog, onlyIf, watchdogOp_held hheld, ite_self]

end Sys2Proof.Machine
end

section
/-! PROOFS. Budgets and requests (R77, R79, R80, R99, R104), the output tail (R138), and the statement about them and machine checks. -/
namespace Sys2Proof.Machine

/-! ### Budgets -/

theorem running?_unit {s : State} {h : Nat} {u : WUnit} (hrun : s.running? h = some u) : s.unit? u.uid = some u := by
  obtain ⟨n, -, hunit⟩ := Option.bind_eq_some_iff.1 hrun
  rwa [unit?_uid hunit]

/-- The unit's cycles stand at its budget at least, and its half is sent the abort. -/
def State.budgetSpent (s : State) (h : Nat) (u : WUnit) : State :=
  (s.modUnit u.uid fun w => { w with cycles := max w.cycles w.budget }).modHalf h fun x => { x with sent := x.sent ++ [(.abortBudget, u.tag)] }

theorem budgetOp_asks {h : Nat} {s : State} {u : WUnit} (hrun : s.running? h = some u) (hstage : u.stage = .running h)
    (hcore : u.kind.onCore = true) (hgoes : u.aborted = false) (hfirst : (s.half h).budgetAsked u.tag = false) :
    budgetOp h s = s.budgetSpent h u := by
  unfold budgetOp State.sendReq
  simp only [hrun, hgoes, hfirst, hstage, hcore]
  rfl

theorem budgetSpent_cycles {s : State} {u : WUnit} (h : Nat) (hunit : s.unit? u.uid = some u) :
    ∃ w ∈ (s.budgetSpent h u).dsc.units, w.uid = u.uid ∧ w.cycles = max u.cycles u.budget :=
  ⟨_, modUnit_mem (fun w => { w with cycles := max w.cycles w.budget }) hunit, rfl, rfl⟩

theorem exec_budgetAbort {h : Nat} {c : Instr} {s : State} (hlive : s.live = true) (hhalf : isHalf h = true) (hserves : s.halfServes h = true)
    (hc : (h % 2 = 0 ∧ c = .decodeBudgetAbort h) ∨ (h % 2 = 1 ∧ c = .encodeBudgetAbort h)) : exec c s = .next (budgetOp h s) := by
  obtain ⟨hdir, rfl⟩ | ⟨hdir, rfl⟩ := hc
  · have harm : exec (.decodeBudgetAbort h) s = execDecodeBudgetAbort h s := rfl
    simp [harm, execDecodeBudgetAbort, onlyIf, hlive, hhalf, hserves, hdir]
  · have harm : exec (.encodeBudgetAbort h) s = execEncodeBudgetAbort h s := rfl
    simp [harm, execEncodeBudgetAbort, onlyIf, hlive, hhalf, hserves, hdir]

/-! ### Requests -/

theorem exec_requestArrival (h : Nat) (r : SeqReq) (tag : BitVec 16) (s : State) (hlive : s.live = true) (hhalf : isHalf h = true) :
    exec (.requestArrival h r tag) s = .next (requestOp h r tag s) := by
  have harm : exec (.requestArrival h r tag) s = execRequestArrival h r tag s := rfl
  simp [harm, execRequestArrival, onlyIf, hlive, hhalf]

theorem requestOp_arrives {h : Nat} {r : SeqReq} {s : State} {u : WUnit} (hsent : (s.half h).sent.contains (r, u.tag) = true)
    (hrun : s.running? h = some u) :
    requestOp h r u.tag s = s.modHalf h fun x => { x with sent := x.sent.erase (r, u.tag), reqs := x.reqs ++ [(r, u.tag)] } := by
  rw [requestOp, if_neg (by rw [hsent]; decide)]
  simp [hrun]

theorem requestOp_dropped {h : Nat} {r : SeqReq} {tag : BitVec 16} {s : State} (hsent : (s.half h).sent.contains (r, tag) = true)
    (hother : ∀ u, s.running? h = some u → u.tag ≠ tag) :
    requestOp h r tag s = s.modHalf h fun x => { x with sent := x.sent.erase (r, tag), dropped := x.dropped ++ [(r, tag)] } := by
  have hnone : ((s.running? h).any fun u => u.tag == tag) = false := by
    rw [Option.any_eq_false]
    simpa using hother
  rw [requestOp, if_neg (by rw [hsent]; decide), hnone]
  rfl

/-! ### The output tail -/

/-- Only what a unit's stream writes touch has changed, and its half's FIFO holds the same bytes. -/
structure OnlyStreamed (h : Nat) (s t : State) : Prop where
  frame : t = { s with clusters := t.clusters, dsc := t.dsc, funcs := t.funcs, halves := t.halves, hlu := t.hlu, mem := t.mem, out := t.out,
                       queues := t.queues }
  others : ∀ j, j ≠ h → t.half j = s.half j
  bytes : (t.half h).fifo.bytes = (s.half h).fifo.bytes

theorem onlyStreamed_refl (h : Nat) (s : State) : OnlyStreamed h s s := ⟨rfl, fun _ _ => rfl, rfl⟩

theorem onlyStreamed_trans {h : Nat} {s t u : State} (a : OnlyStreamed h s t) (b : OnlyStreamed h t u) : OnlyStreamed h s u where
  frame := by
    have hst := a.frame
    have htu := b.frame
    rw [hst] at htu
    exact htu
  others := fun j hj => (b.others j hj).trans (a.others j hj)
  bytes := b.bytes.trans a.bytes

/-- Only what a unit's stream writes touch outside the halves has changed. -/
def OnlySent (s t : State) : Prop :=
  t = { s with clusters := t.clusters, dsc := t.dsc, funcs := t.funcs, hlu := t.hlu, mem := t.mem, out := t.out, queues := t.queues }

theorem onlySent_refl (s : State) : OnlySent s s := rfl

theorem onlySent_trans {s t u : State} (h : OnlySent s t) (k : OnlySent t u) : OnlySent s u := by
  unfold OnlySent at *
  rw [k, h]

theorem onlySent_half {s t : State} (h : OnlySent s t) (j : Nat) : t.half j = s.half j := by
  rw [h]
  rfl

theorem onlySent_of_put {s t : State} (h : OnlyPut s t) : OnlySent s t := by
  unfold OnlyPut OnlySent at *
  rw [h]

theorem onlyStreamed_of_sent {s t : State} (h : Nat) (hsent : OnlySent s t) : OnlyStreamed h s t := by
  refine ⟨?_, fun j _ => onlySent_half hsent j, by rw [onlySent_half hsent]⟩
  unfold OnlySent at hsent
  rw [hsent]

theorem modHalf_streamed (s : State) (h : Nat) (f : Half → Half) (hf : ∀ x, (f x).fifo.bytes = x.fifo.bytes) : OnlyStreamed h s (s.modHalf h f) :=
  ⟨rfl, fun j hj => modHalf_half_other _ _ _ _ hj.symm, by rw [modHalf_half, hf]⟩

theorem noteWritten_streamed (s : State) (h n now : Nat) :
    OnlyStreamed h s (s.modHalf h fun x => { x with fifo := { x.fifo with written := n, timer := now } }) := modHalf_streamed s h _ fun _ => rfl

theorem modEntry_sent (s : State) (q : Nat) (seq : Word) (f : QEntry → QEntry) : OnlySent s (s.modEntry q seq f) := rfl

theorem modUnit_sent (s : State) (n : Nat) (f : WUnit → WUnit) : OnlySent s (s.modUnit n f) := rfl

theorem putData_put (s : State) (fn space a : Nat) (bs : List Byte) : OnlyPut s (s.putData fn space a bs) := by
  unfold State.putData
  split
  · unfold State.emitData
    split
    · rfl
    · exact send_put ..
  · exact devWrite_put ..

theorem entryOut_sent (s : State) (q : Nat) (seq : Word) (fn space a : Nat) (bs : List Byte) : OnlySent s (s.entryOut q seq fn space a bs) :=
  onlySent_trans (onlySent_of_put (putData_put ..)) (modEntry_sent ..)

theorem writeStream_sent (s : State) (u : WUnit) (f : Fifo) (a b : Nat) : OnlySent s (s.writeStream u f a b) := by
  unfold State.writeStream
  dsimp only
  split
  · exact onlySent_refl s
  · refine onlySent_trans ?_ (modUnit_sent ..)
    split
    · exact onlySent_of_put (devWrite_put ..)
    · exact entryOut_sent ..

theorem ackFifo_streamed (s : State) (u : WUnit) (h : Nat) : OnlyStreamed h s (s.ackFifo u h) := by
  unfold State.ackFifo
  dsimp only
  split
  · exact modHalf_streamed s h _ fun _ => rfl
  · exact onlyStreamed_refl h s

/-- An acknowledgement writes nothing. -/
theorem ackFifo_written (s : State) (u : WUnit) (h : Nat) : ((s.ackFifo u h).half h).fifo.written = (s.half h).fifo.written := by
  unfold State.ackFifo
  dsimp only
  split
  · rw [modHalf_half]
  · rfl

theorem putProg_sent (s : State) (q : Nat) (seq : Word) (r : ProgRec) : OnlySent s (s.putProg q seq r) := by
  unfold State.putProg
  split
  · exact onlySent_refl s
  · split
    · exact onlySent_refl s
    · dsimp only
      split
      · exact modEntry_sent ..
      · exact onlySent_trans (modEntry_sent ..) (onlySent_of_put (putRecord_put ..))

theorem putDue_sent (s : State) (q : Nat) (seq : Word) : OnlySent s (s.putDue q seq) := by
  unfold State.putDue
  split
  · exact onlySent_refl s
  · split
    · exact onlySent_refl s
    · exact forEach_induct (P := OnlySent s) _ (fun r _ t ht => onlySent_trans ht (putProg_sent t q seq r)) _ (modEntry_sent ..)

theorem progress_sent (s : State) (u : WUnit) (f : Fifo) (done : Bool) : OnlySent s (s.progress u f done) := by
  unfold State.progress
  split
  · exact onlySent_refl s
  · exact onlySent_trans (modEntry_sent ..) (putDue_sent ..)

theorem fifoWrite_streamed (s : State) (u : WUnit) (h n : Nat) : OnlyStreamed h s (s.fifoWrite u h n) := by
  unfold State.fifoWrite
  dsimp only
  split
  · exact onlyStreamed_refl h s
  · have hsent := onlyStreamed_of_sent h (writeStream_sent s u (s.half h).fifo (granuleOf (s.streamAt u).2 (s.half h).fifo.written) n)
    exact onlyStreamed_trans (onlyStreamed_trans hsent (noteWritten_streamed ..)) (ackFifo_streamed ..)

theorem fifoWrite_written (s : State) (u : WUnit) (h n : Nat) (hn : (s.half h).fifo.written < n) :
    ((s.fifoWrite u h n).half h).fifo.written = n := by
  unfold State.fifoWrite
  dsimp only
  rw [if_neg (by omega), ackFifo_written, modHalf_half]

/-- The end of FIFO_TMO of a unit, counted from the FIFO's last write (R138). -/
def State.tailTime (s : State) (h : Nat) (u : WUnit) : Nat := (s.half h).fifo.timer + 100 * (s.sess u.session).par.fifoTmo

/-- Every byte that the FIFO holds is written at the end of FIFO_TMO. -/
def State.tailWritten (s : State) (h : Nat) (u : WUnit) : State := (s.reach (s.tailTime h u)).fifoWrite u h (s.half h).fifo.bytes.length

theorem tailFlushOp_eq {h : Nat} {s : State} {u : WUnit} (hrun : s.running? h = some u) (htmo : (s.sess u.session).par.fifoTmo ≠ 0)
    (hholds : (s.half h).holdsBytes = true) :
    tailFlushOp h s = (s.tailWritten h u).progress u ((s.tailWritten h u).half h).fifo false := by
  unfold tailFlushOp
  simp only [hrun]
  rw [if_neg (by simp [htmo, hholds])]
  rfl

theorem exec_fifoTailFlush (h : Nat) (s : State) (hlive : s.live = true) (hhalf : isHalf h = true) (hserves : s.halfServes h = true)
    (henc : h % 2 = 1) : exec (.fifoTailFlush h) s = .next (tailFlushOp h s) := by
  have harm : exec (.fifoTailFlush h) s = execFifoTailFlush h s := rfl
  simp [harm, execFifoTailFlush, onlyIf, hlive, hhalf, hserves, henc]

theorem holdsBytes_written {x : Half} (h : x.holdsBytes = true) : x.fifo.written < x.fifo.bytes.length := by
  simp only [Half.holdsBytes, Bool.and_eq_true, decide_eq_true_eq] at h
  exact h.2

/-! ### The statement about checks, budgets, requests and the tail -/

/-- Settles O31: a check latches what `machineCheck_checked` says and the watchdog is such a check; a budget and a request change one list of
their half; and the writes of a tail flush touch no other half (`fifoWrite_streamed`, `progress_sent`). -/
theorem checksAndBudgets : Obligations.ChecksAndBudgets := by
  unfold Obligations.ChecksAndBudgets
  refine ⟨?check, ?watchdog, fun h s hheld => exec_waitWatchdog_held hheld, ?budget, ?arrives, ?dropped, ?tail⟩
  case check =>
    intro h cause a s hlive hhalf hserves hlow hhigh
    exact ⟨_, exec_machineCheck h cause a s hlive hhalf hserves hlow hhigh, machineCheck_checked s h cause a⟩
  case watchdog =>
    intro h s hlive hhalf hserves hwaits hcounts
    exact ⟨_, exec_waitWatchdog h s hlive hhalf hserves, watchdogOp_checked hwaits hcounts⟩
  case budget =>
    intro h c u s hlive hhalf hserves hrun hstage hcore hgoes hfirst hc
    refine ⟨s.budgetSpent h u, ?_, ?_, budgetSpent_cycles h (running?_unit hrun), ?_, rfl⟩
    · rw [exec_budgetAbort hlive hhalf hserves hc, budgetOp_asks hrun hstage hcore hgoes hfirst]
    · exact modHalf_half ..
    · exact fun j hj => modHalf_half_other _ _ _ _ hj.symm
  case arrives =>
    intro h r u s hlive hhalf hsent hrun
    rw [exec_requestArrival h r u.tag s hlive hhalf, requestOp_arrives hsent hrun]
    exact ⟨_, rfl, modHalf_half .., fun j hj => modHalf_half_other _ _ _ _ hj.symm, rfl⟩
  case dropped =>
    intro h r tag s hlive hhalf hsent hother
    rw [exec_requestArrival h r tag s hlive hhalf, requestOp_dropped hsent hother]
    exact ⟨_, rfl, modHalf_half .., fun j hj => modHalf_half_other _ _ _ _ hj.symm, rfl⟩
  case tail =>
    intro h u s hlive hhalf hserves henc hrun htmo hholds
    have hprog := progress_sent (s.tailWritten h u) u ((s.tailWritten h u).half h).fifo false
    have hstreamed : OnlyStreamed h (s.reach (s.tailTime h u)) ((s.tailWritten h u).progress u ((s.tailWritten h u).half h).fifo false) :=
      onlyStreamed_trans (fifoWrite_streamed ..) (onlyStreamed_of_sent h hprog)
    refine ⟨_, exec_fifoTailFlush h s hlive hhalf hserves henc, ?_⟩
    rw [tailFlushOp_eq hrun htmo hholds]
    refine ⟨?_, hstreamed.bytes, ?_, hstreamed.others, ?_⟩
    · rw [onlySent_half hprog]
      exact fifoWrite_written _ u h _ (holdsBytes_written hholds)
    · rw [hstreamed.frame]
      rfl
    · rw [hstreamed.frame]
      rfl

end Sys2Proof.Machine
end

section
/-! PROOFS. Errors of a reconstruction cache, of a Nitinol engine and of a cluster port (R72, R83, R440, Tables 19-3 and 19-5). -/
namespace Sys2Proof.Machine

/-! ### Granules of a cluster's cache -/

/-- The set of a cluster's cache that a granule belongs in (Table 3-4). -/
def granuleSet (l : Nat) : Nat := l / 64 % 4096

theorem fillGranule_holds (l : Nat) (k : Cluster) : l ∈ tblGet [] (fillGranule l k).sets (granuleSet l) := by
  have hset : tblGet [] (fillGranule l k).sets (granuleSet l) = (l :: without (tblGet [] k.sets (granuleSet l)) l).take 16 :=
    tblGet_tblMod_same [] k.sets (granuleSet l) fun g : List Nat => (l :: without g l).take 16
  rw [hset, List.take_succ_cons]
  exact List.mem_cons_self ..

theorem fillGranules_parity (gs : List Nat) (k : Cluster) : (gs.foldl (fun d l => fillGranule l d) k).parity = k.parity := by
  induction gs generalizing k with
  | nil => rfl
  | cons g gs ih => exact ih (fillGranule g k)

/-- Granules of other sets leave a set as it was. -/
theorem fillGranules_other (gs : List Nat) (k : Cluster) (i : Nat) (h : ∀ g ∈ gs, granuleSet g ≠ i) :
    tblGet [] (gs.foldl (fun d l => fillGranule l d) k).sets i = tblGet [] k.sets i := by
  induction gs generalizing k with
  | nil => rfl
  | cons g gs ih =>
    rw [List.foldl_cons, ih (fillGranule g k) fun l hl => h l (List.mem_cons_of_mem g hl)]
    exact tblGet_tblMod_other [] k.sets (granuleSet g) i (fun x : List Nat => (g :: without x g).take 16) (h g (List.mem_cons_self ..))

/-- Granules of different sets do not displace one another. -/
theorem fillGranules_hold (gs : List Nat) (k : Cluster) (h : gs.Pairwise fun a b => granuleSet a ≠ granuleSet b) :
    ∀ g ∈ gs, g ∈ tblGet [] (gs.foldl (fun d l => fillGranule l d) k).sets (granuleSet g) := by
  induction gs generalizing k with
  | nil => simp
  | cons g gs ih =>
    obtain ⟨hfirst, hrest⟩ := List.pairwise_cons.1 h
    intro l hl
    rw [List.foldl_cons]
    rcases List.mem_cons.1 hl with rfl | hl
    · rw [fillGranules_other gs _ _ fun a ha => (hfirst a ha).symm]
      exact fillGranule_holds l k
    · exact ih (fillGranule g k) hrest l hl

/-- The six granules of a tile lie in six sets (R70). -/
theorem tileGranules_apart (s : State) (a : Nat) : (s.tileGranules a).Pairwise fun a b => granuleSet a ≠ granuleSet b := by
  unfold State.tileGranules
  split
  · rw [List.pairwise_map]
    refine List.pairwise_lt_range.imp_of_mem fun {i j} hi hj hij => ?_
    have hi6 := List.mem_range.1 hi
    have hj6 := List.mem_range.1 hj
    unfold granuleSet lineOf
    omega
  · exact List.pairwise_singleton ..

/-! ### A parity error of a cache -/

/-- The error is counted and recorded (R72). -/
def State.parityNoted (s : State) (c : Nat) : State :=
  ((s.modCluster c fun k => { k with parity := sat32 k.parity 1 }).report 0x01 (0x80 + c) none none (freeNow s 16).toNat 0 0).tookFree

/-- The cache holds the line. -/
def State.holdsLine (s : State) (c a : Nat) : Bool := (tblGet [] (s.cluster c).sets (lineOf a / 64 % 4096)).contains (lineOf a)

theorem rcacheParityOp_eq (c a : Nat) (s : State) :
    rcacheParityOp c a s = (s.parityNoted c).modCluster c fun k =>
      if s.holdsLine c a then (s.tileGranules (lineOf a)).foldl (fun d l => fillGranule l d) k else k := rfl

theorem parityNoted_cluster (s : State) (c : Nat) :
    (s.parityNoted c).cluster c = { s.cluster c with parity := sat32 (s.cluster c).parity 1 } :=
  modCluster_cluster s c fun k => { k with parity := sat32 k.parity 1 }

theorem parityNoted_cluster_other (s : State) (c d : Nat) (h : d ≠ c) : (s.parityNoted c).cluster d = s.cluster d :=
  modCluster_cluster_other s c d (fun k => { k with parity := sat32 k.parity 1 }) h.symm

theorem exec_rcacheParity (c a : Nat) (s : State) (hlive : s.live = true) (hc : c < 8) :
    exec (.rcacheParity c a) s = .next (rcacheParityOp c a s) := by
  have harm : exec (.rcacheParity c a) s = execRcacheParity c a s := rfl
  simp [harm, execRcacheParity, onlyIf, hlive, hc]

/-! ### Errors of a Nitinol engine -/

theorem exec_nitinolEngineError {e a : Nat} {merge : Bool} {s : State} (hlive : s.live = true) (he : e < 32)
    (hthere : merge = true → a + 384 ≤ s.memSize) : exec (.nitinolEngineError e merge a) s = .next (nitinolErrorOp e merge a s) := by
  have harm : exec (.nitinolEngineError e merge a) s = execNitinolEngineError e merge a s := rfl
  rw [harm, execNitinolEngineError, if_neg, onlyIf, if_pos]
  · simp [hlive, he]
  · simp only [Bool.and_eq_true, decide_eq_true_eq, not_and]
    intro hbeyond
    exact absurd (hthere hbeyond.1) (by omega)

theorem exec_nitinolEngineError_beyond (e : Nat) {a : Nat} {s : State} (hlive : s.live = true) (hbeyond : s.memSize < a + 384) :
    exec (.nitinolEngineError e true a) s = .fault (.noSuchAddress a) := by
  have harm : exec (.nitinolEngineError e true a) s = execNitinolEngineError e true a s := rfl
  simp [harm, execNitinolEngineError, hlive, hbeyond]

/-- The merge buffer's error is recorded, and the partial tile has left it (Table 19-5). -/
def State.tileLost (s : State) (e a : Nat) : State :=
  (s.tookFree.report 0x03 (0xC0 + e) none none (freeNow s 16).toNat 0 a).modNtl fun n =>
    { n with merge := tblMod [] n.merge e fun ms => ms.filter fun m => refAddr m.tile != a }

theorem tileLost_records (s : State) (e a : Nat) : Records s (s.tileLost e a) 0x03 (s.reportClass 0x03) := ⟨_, rfl, rfl, rfl, rfl⟩

theorem tileLost_mergeBuf (s : State) (e a : Nat) : (s.tileLost e a).mergeBuf e = (s.mergeBuf e).filter fun m => refAddr m.tile != a :=
  tblGet_tblMod_same ..

/-- What the lost tile's lines belong to does not touch the record or the buffers. -/
theorem nitinolErrorOp_merge (e a : Nat) (s : State) : Undisturbed (s.tileLost e a) (nitinolErrorOp e true a s) :=
  forEach_undisturbed (linesOf a 384) (fun l t => undisturbed_trans (modMem_undisturbed t _) (loseLine_undisturbed _ l)) (s.tileLost e a)

/-! ### An error of a cluster port -/

/-- Only what fencing halves touches has changed. -/
def OnlyFenced (s t : State) : Prop :=
  t = { s with cores := t.cores, dmv := t.dmv, dsc := t.dsc, halves := t.halves, mau := t.mau, pcf := t.pcf, sessions := t.sessions }

theorem onlyFenced_trans {s t u : State} (h : OnlyFenced s t) (k : OnlyFenced t u) : OnlyFenced s u := by
  unfold OnlyFenced at *
  rw [k, h]

theorem onlyFenced_fcl {s t : State} (h : OnlyFenced s t) : t.fcl = s.fcl := by rw [h]

theorem onlyFenced_cluster {s t : State} (h : OnlyFenced s t) (d : Nat) : t.cluster d = s.cluster d := by
  have hclusters : t.clusters = s.clusters := by rw [h]
  rw [State.cluster, State.cluster, hclusters]

theorem onlyFenced_of_moved {s t : State} (h : OnlyMoved s t) : OnlyFenced s t := by
  unfold OnlyFenced
  rw [h.frame]

/-- A half leaves service, its clock change held back (R83, R87). -/
def State.fenceBegun (s : State) (h : Nat) (abort : Bool) (cause : Nat) : State :=
  (s.holdClock h).modHalf h fun x => { x with fstate := .fencing, abortF := abort, cause := cause }

theorem fenceBegun_fenced (s : State) (h : Nat) (abort : Bool) (cause : Nat) : OnlyFenced s (s.fenceBegun h abort cause) := by
  unfold OnlyFenced State.fenceBegun State.holdClock
  split <;> rfl

theorem fenceBegun_half_other (s : State) (h j : Nat) (abort : Bool) (cause : Nat) (hj : h ≠ j) :
    (s.fenceBegun h abort cause).half j = s.half j := by
  rw [State.fenceBegun, modHalf_half_other _ _ _ _ hj, holdClock_half]

/-- What follows a half's leaving service moves units and nothing else. -/
theorem fence_moved (s : State) (h : Nat) (abort : Bool) (cause : Nat) : OnlyMoved (s.fenceBegun h abort cause) (s.fence h abort cause) := by
  have hreclaim := reclaim_moved (s.fenceBegun h abort cause) h
  unfold State.fence
  dsimp only
  refine onlyMoved_trans hreclaim (onlyMoved_trans ?_ (settleHalf_moved ..))
  split
  · split
    · exact sendReq_moved ..
    · exact onlyMoved_refl _
  · exact onlyMoved_refl _

/-- A half that a cluster's error has fenced (R83, Table 19-5). -/
def FencedByError (x : Half) : Prop := x.cause = 2 ∧ x.abortF = true ∧ (x.fstate = .fencing ∨ x.fstate = .fenced)

theorem fencedByError_kept {x y : Half} (h : FencedByError x) (k : HalfKept x y) : FencedByError y := by
  obtain ⟨hcause, habort, hstate⟩ := h
  refine ⟨k.cause.trans hcause, k.abortF.trans habort, ?_⟩
  obtain hsame | ⟨-, hdone⟩ := k.fstate
  · rwa [hsame]
  · exact .inr hdone

theorem active_kept {x y : Half} (h : x.fstate = .active) (k : HalfKept x y) : y.fstate = .active := by
  obtain hsame | ⟨hfencing, -⟩ := k.fstate
  · exact hsame.trans h
  · rw [h] at hfencing
    cases hfencing

theorem fence_half (s : State) (h : Nat) : FencedByError ((s.fence h true 2).half h) := by
  refine fencedByError_kept ?_ ((fence_moved s h true 2).half h)
  rw [State.fenceBegun, modHalf_half]
  exact ⟨rfl, rfl, .inl rfl⟩

theorem fence_half_other (s : State) (h j : Nat) (hj : h ≠ j) : HalfKept (s.half j) ((s.fence h true 2).half j) := by
  have hkept := (fence_moved s h true 2).half j
  rwa [fenceBegun_half_other _ _ _ _ _ hj] at hkept

theorem fence_fenced (s : State) (h : Nat) : OnlyFenced s (s.fence h true 2) :=
  onlyFenced_trans (fenceBegun_fenced s h true 2) (onlyFenced_of_moved (fence_moved s h true 2))

/-- A half that is in service is fenced for the error of its cluster. -/
def fenceActive (c i : Nat) (s : State) : State :=
  if (s.half (16 * c + i)).fstate == .active then s.fence (16 * c + i) true 2 else s

theorem fenceActive_half {c i : Nat} {s : State} (h : (s.half (16 * c + i)).fstate = .active) :
    FencedByError ((fenceActive c i s).half (16 * c + i)) := by
  rw [fenceActive, if_pos (by simp [h])]
  exact fence_half ..

theorem fenceActive_half_other (c i j : Nat) (s : State) (hj : i ≠ j) :
    HalfKept (s.half (16 * c + j)) ((fenceActive c i s).half (16 * c + j)) := by
  unfold fenceActive
  split
  · exact fence_half_other _ _ _ (by omega)
  · exact halfKept_refl _

/-- Of a cluster's halves the first `n` that were in service are fenced, and the others are as they were. -/
theorem fenceActives_half (c n : Nat) (s : State) :
    (∀ i, i < n → (s.half (16 * c + i)).fstate = .active → FencedByError ((forUpTo n (fenceActive c) s).half (16 * c + i)))
      ∧ ∀ i, n ≤ i → HalfKept (s.half (16 * c + i)) ((forUpTo n (fenceActive c) s).half (16 * c + i)) := by
  induction n with
  | zero => exact ⟨fun i hi => absurd hi (Nat.not_lt_zero i), fun _ _ => halfKept_refl _⟩
  | succ n ih =>
    obtain ⟨hfenced, hkept⟩ := ih
    refine ⟨fun i hi hactive => ?_, fun i hi => ?_⟩
    · rcases Nat.lt_succ_iff_lt_or_eq.1 hi with hlt | rfl
      · exact fencedByError_kept (hfenced i hlt hactive) (fenceActive_half_other c n i _ (by omega))
      · exact fenceActive_half (active_kept hactive (hkept i (Nat.le_refl i)))
    · exact halfKept_trans (hkept i (by omega)) (fenceActive_half_other c n i _ (by omega))

theorem fenceActives_fenced (c n : Nat) (s : State) : OnlyFenced s (forUpTo n (fenceActive c) s) :=
  forUpTo_induct (P := OnlyFenced s) n (fun i t ht => by
    unfold fenceActive
    split
    · exact onlyFenced_trans ht (fence_fenced t _)
    · exact ht) s rfl

/-- The error is recorded, and the cluster's cache is empty (Table 19-5). -/
def State.portFailed (s : State) (c : Nat) : State :=
  (s.tookFree.report 0x03 (0x80 + c) none none (freeNow s 16).toNat 0 0).modCluster c fun k => { k with sets := [] }

theorem portFailed_records (s : State) (c : Nat) : Records s (s.portFailed c) 0x03 (s.reportClass 0x03) := ⟨_, rfl, rfl, rfl, rfl⟩

theorem clusterErrorOp_eq (c : Nat) (s : State) : clusterErrorOp c s = forUpTo 16 (fenceActive c) (s.portFailed c) := rfl

theorem clusterErrorOp_fenced (c : Nat) (s : State) : OnlyFenced (s.portFailed c) (clusterErrorOp c s) := fenceActives_fenced c 16 _

/-- Beside the error itself, only what fences touch has changed. -/
theorem portFailed_frame {s t : State} {c : Nat} (h : OnlyFenced (s.portFailed c) t) :
    t = { s with clusters := t.clusters, cores := t.cores, dmv := t.dmv, dsc := t.dsc, fcl := t.fcl, free := s.free + 1, halves := t.halves,
                 mau := t.mau, pcf := t.pcf, sessions := t.sessions } := by
  rw [h]
  rfl

theorem exec_clusterPortError (c : Nat) (s : State) (hlive : s.live = true) (hc : c < 8) :
    exec (.clusterPortError c) s = .next (clusterErrorOp c s) := by
  have harm : exec (.clusterPortError c) s = execClusterPortError c s := rfl
  simp [harm, execClusterPortError, onlyIf, hlive, hc]

/-! ### The statement about errors of units -/

theorem records_congr {s t u : State} {code cls : Nat} (hfcl : u.fcl = t.fcl) (h : Records s t code cls) : Records s u code cls := by
  unfold Records at *
  rwa [hfcl]

/-- Settles O38: a tile's granules lie in different sets, so that each stays as the others are read again (`fillGranules_hold`); a lost tile's
lines disturb neither the record nor the buffers (`nitinolErrorOp_merge`); and each half of a failed cluster is fenced in its turn, the later
fences keeping what the earlier ones latched (`fenceActives_half`). -/
theorem unitErrors : Obligations.UnitErrors := by
  unfold Obligations.UnitErrors
  refine ⟨?cache, ?engine, ?merge, fun e a s hlive hbeyond => exec_nitinolEngineError_beyond e hlive hbeyond, ?port⟩
  case cache =>
    intro c a s hlive hc
    have hcluster : (rcacheParityOp c a s).cluster c = if s.holdsLine c a then
        (s.tileGranules (lineOf a)).foldl (fun d l => fillGranule l d) ((s.parityNoted c).cluster c) else (s.parityNoted c).cluster c := by
      rw [rcacheParityOp_eq, modCluster_cluster]
    refine ⟨_, exec_rcacheParity c a s hlive hc, ?_, ⟨_, rfl, rfl, rfl, rfl⟩, ?_, ?_, ?_, rfl⟩
    · rw [hcluster]
      split
      · rw [fillGranules_parity, parityNoted_cluster]
      · rw [parityNoted_cluster]
    · intro hmiss
      rw [hcluster, if_neg (by rw [State.holdsLine, hmiss]; decide), parityNoted_cluster]
    · intro hheld
      have hline : s.holdsLine c a = true := hheld
      rw [hcluster, if_pos hline]
      exact fillGranules_hold _ _ (tileGranules_apart ..)
    · intro d hd
      rw [rcacheParityOp_eq, modCluster_cluster_other _ _ _ _ hd.symm, parityNoted_cluster_other _ _ _ hd]
  case engine =>
    intro e a s hlive he
    exact ⟨_, exec_nitinolEngineError hlive he (by simp), ⟨_, rfl, rfl, rfl, rfl⟩, rfl⟩
  case merge =>
    intro e a s hlive he hthere
    obtain ⟨r, hinbox, hcode, -, -⟩ := tileLost_records s e a
    have hlines := nitinolErrorOp_merge e a s
    refine ⟨_, r, exec_nitinolEngineError hlive he fun _ => hthere, ?_, hcode, ?_⟩
    · rw [hlines.fcl, hinbox]
      exact List.mem_append_right _ (List.mem_singleton_self r)
    · intro m hm
      have hbuf : m ∈ (s.tileLost e a).mergeBuf e := by
        rw [State.mergeBuf, ← hlines.ntl]
        exact hm
      rw [tileLost_mergeBuf] at hbuf
      simpa using (List.mem_filter.1 hbuf).2
  case port =>
    intro c s hlive hc
    have hfenced := clusterErrorOp_fenced c s
    refine ⟨_, exec_clusterPortError c s hlive hc, ?_, ?_, ?_, ?_, ?_⟩
    · exact records_congr (onlyFenced_fcl hfenced) (portFailed_records s c)
    · rw [onlyFenced_cluster hfenced, State.portFailed, modCluster_cluster]
    · intro i hi hactive
      exact (fenceActives_half c 16 (s.portFailed c)).1 i hi hactive
    · intro d hd
      rw [onlyFenced_cluster hfenced]
      exact modCluster_cluster_other _ _ _ _ hd.symm
    · exact portFailed_frame hfenced

end Sys2Proof.Machine
end

section
/-! PROOFS. Source pictures (R172, R176, R229): an analysis that is resubmitted once its field is final. -/
namespace Sys2Proof.Machine

/-- An ANALYZE_PICTURE of session 6 for source picture 0, of 64 × 64 samples at host address 0x1000; it names no statistics buffer. -/
def analyzePicture0 : QEntry :=
  { freshEntry 0 0 (BitVec.ofNat 512 (put 0 0 5 + put 1 0 3 + put 8 0 6 + put 16 0 0x1000 + put 24 0 64 + put 26 0 64)) [] 0 0 with
    stage := .reserved }

/-- Session 6 has taken picture 0 in under an entry of queue 1 that ended with DEVICE_FAULT_RETRY (R176), and since then the field of that
picture has become final (R224). -/
def analysedSession : Session :=
  { Session.init with
    state := .ready
    par := { Params.init with encode := true, maxW := 64, maxH := 64 }
    intakeOp := 5
    nextIndex := 1
    anaNext := 1
    src := [{ newSource 1 analyzePicture0 with taken := true, failed := 0xF0 }]
    ana := [{ index := 0, slot := 0, width := 64, height := 64, complete := true, final := true, first := true, fwd := false, flushed := false,
              field := [], score := 0, meanY := 0, seq := 0 }] }

/-- The entry stands in queue 0 and its turn has come. -/
def finalField : State :=
  { bareLive with
    queues := [(0, { WorkQ.init with state := .enabled, entries := [analyzePicture0] })]
    sessions := [(6, analysedSession)] }

theorem finalField_takes : finalField.entryTakes 0 0 5 analyzePicture0 := by
  unfold State.entryTakes
  decide +kernel

/-- Nothing stops the entry and no window of it is refused: it takes the failed picture over. -/
theorem finalField_resubmitted : finalField.sourceStop analyzePicture0 = none ∧ finalField.resubmitted analyzePicture0 = true
    ∧ finalField.badWindow (finalField.sess analyzePicture0.sess).fn ((entryAsks (finalField.sess analyzePicture0.sess).par analyzePicture0.raw
        analyzePicture0.blocks).filter fun a => a.1 != 0) = none := by
  decide +kernel

/-- Its field being final, the entry completes as it is received, and with it the source picture leaves the session (R229). -/
theorem finalField_leaves :
    ((analyzeReceive 0 analyzePicture0 (startEntry 0 0 finalField)).sess analyzePicture0.sess).src = [] := by
  decide +kernel

theorem exec_analyzePicture (q : Nat) (seq : Word) (s : State) :
    exec (.analyzePicture q seq) s = .next (s.onDue q seq 5 (analyzeReceive q)) := rfl

/-- Refutes O18: a resubmission does not always leave its picture among those of the session. In `finalField` the field of the failed picture is
final as its ANALYZE_PICTURE is resubmitted, so that the entry has nothing to wait for: it takes the picture over, completes at once, and frees
the picture's source slot (`State.resubmit`, `State.settleAnalysis`, `State.finishAnalysis`). What the clause about resubmissions lacks is the
hypothesis that the picture's field is not final. -/
theorem not_pictureEntries : ¬ Obligations.PictureEntries := by
  unfold Obligations.PictureEntries
  rintro ⟨hsource, -⟩
  obtain ⟨hstop, hagain, hwindows⟩ := finalField_resubmitted
  obtain ⟨-, -, -, hresubmit⟩ := hsource 0 0 analyzePicture0 5 (.analyzePicture 0 0) finalField finalField_takes (.inr ⟨rfl, rfl⟩)
  obtain ⟨t, ht, p, hp, -⟩ := hresubmit hstop hagain hwindows
  rw [exec_analyzePicture, onDue_turn _ finalField_takes] at ht
  injection ht with ht
  rw [← ht, finalField_leaves] at hp
  exact List.not_mem_nil hp

end Sys2Proof.Machine
end

section
/-! PROOFS. Invar's requests (R203, R207, R208, R215, R216): row decisions and plans, which request is served next, and Invar's restart (R440,
Table 19-5). -/
namespace Sys2Proof.Machine

/-! ### The least of a list -/

theorem leastBy_eq_none {α : Type} {key : α → Int} {xs : List α} (h : leastBy key xs = none) : xs = [] := by
  cases xs with
  | nil => rfl
  | cons x xs =>
    rw [leastBy] at h
    split at h
    · cases h
    · split at h <;> cases h

/-- `leastBy` picks an element of the list, and none of the list has a lesser key. -/
theorem leastBy_least {α : Type} {key : α → Int} {xs : List α} {m : α} (h : leastBy key xs = some m) :
    m ∈ xs ∧ ∀ y ∈ xs, key m ≤ key y := by
  induction xs generalizing m with
  | nil => cases h
  | cons x xs ih =>
    rw [leastBy] at h
    split at h
    case h_1 hnone =>
      cases h
      simp [leastBy_eq_none hnone]
    case h_2 y hrest =>
      obtain ⟨hmem, hle⟩ := ih hrest
      split at h
      · next hlt =>
        cases h
        exact ⟨List.mem_cons_of_mem x hmem, List.forall_mem_cons.2 ⟨Int.le_of_lt hlt, hle⟩⟩
      · next hge =>
        cases h
        exact ⟨List.mem_cons_self .., List.forall_mem_cons.2 ⟨Int.le_refl _, fun z hz => (Int.not_lt.1 hge).trans (hle z hz)⟩⟩

/-! ### The next row request -/

theorem nextRow_of_no_rows {r : Rcu} (h : r.rows = []) : r.nextRow = none := by simp [Rcu.nextRow, h, leastBy]

/-- The instant that `Rcu.nextRow` looks at is that of the oldest request. -/
theorem oldestRow_le {r : Rcu} {k : Nat × Nat × Nat × Nat} (hk : k ∈ r.rows) :
    ((leastBy (fun k : Nat × Nat × Nat × Nat => (k.1 : Int)) r.rows).map fun k => k.1).getD 0 ≤ k.1 := by
  cases hleast : leastBy (fun k : Nat × Nat × Nat × Nat => (k.1 : Int)) r.rows with
  | none => exact Nat.zero_le _
  | some m => exact Int.ofNat_le.1 ((leastBy_least hleast).2 k hk)

/-- The next row request is the oldest, and of those of one instant that of the lowest half. -/
theorem nextRow_least {r : Rcu} {at_ h row spent : Nat} (hnext : r.nextRow = some (at_, h, row, spent)) :
    (at_, h, row, spent) ∈ r.rows ∧ ∀ k ∈ r.rows, at_ < k.1 ∨ (at_ = k.1 ∧ h ≤ k.2.1) := by
  obtain ⟨hmem, hlow⟩ := leastBy_least hnext
  obtain ⟨hrows, hat⟩ := List.mem_filter.1 hmem
  refine ⟨hrows, fun k hk => (Nat.lt_or_ge at_ k.1).imp_right fun hge => ?_⟩
  have hsame : at_ = k.1 := Nat.le_antisymm ((eq_of_beq hat).trans_le (oldestRow_le hk)) hge
  exact ⟨hsame, Int.ofNat_le.1 (hlow k (List.mem_filter.2 ⟨hk, by rwa [← hsame]⟩))⟩

/-! ### Row requests (R207, R208, R209) -/

theorem exec_rcuRowRequest (h row spent : Nat) (s : State) :
    exec (.rcuRowRequest h row spent) s = .next (onlyIf (s.live && isHalf h && h % 2 == 1 && row != 0) (rowRequestOp h row spent) s) := rfl

/-- The spend of a half has reached T_s in a mode in which that begins stage 1. -/
def State.spendReached (s : State) (u : WUnit) (h : Nat) (p : Plan) : Bool :=
  (s.sess u.session).par.rcMode != 0 && decide ((p.segs.getD u.seg (0, 0, [])).2.1 ≤ s.spentOf u h)

/-- The half waits at the start of a row. -/
def rowAsking (reached : Bool) (x : Half) : Half := { x with rowQp := none, rowWait := true, stage1 := x.stage1 || reached }

/-- The request of half `h` waits at the RCU, in place of any earlier one (log entry 55). -/
def rowArrived (now h row spent : Nat) (r : Rcu) : Rcu := { r with rows := (r.rows.filter fun k => k.2.1 != h) ++ [(now, h, row, spent)] }

theorem rowRequestOp_asks {h : Nat} {u : WUnit} {p : Plan} {s : State} (row : Nat) (hrun : s.running? h = some u)
    (hplan : (s.sess u.session).plan? u.pic = some p) :
    rowRequestOp h row (s.spentOf u h) s
      = (s.modHalf h (rowAsking (s.spendReached u h p))).modRcu (rowArrived s.time h row (s.spentOf u h)) := by
  have hsent : ((s.running? h).filter fun v => s.spentOf v h == s.spentOf u h) = some u := by simp [hrun]
  simp only [rowRequestOp, hsent, hplan]
  rfl

theorem rowRequestOp_other_count {h spent : Nat} {u : WUnit} {s : State} (row : Nat) (hrun : s.running? h = some u)
    (hspent : spent ≠ s.spentOf u h) : rowRequestOp h row spent s = s := by
  have hnone : ((s.running? h).filter fun v => s.spentOf v h == spent) = none := by simp [hrun, hspent.symm]
  simp only [rowRequestOp, hnone]

/-! ### Row decisions (R207, R216) -/

theorem exec_rcuRowDecision (s : State) : exec .rcuRowDecision s = .next (onlyIf (s.live && !s.rcu.busy) rowDecisionOp s) := rfl

theorem rowDecisionOp_no_rows {s : State} (h : s.rcu.rows = []) : rowDecisionOp s = s := by
  simp only [rowDecisionOp, nextRow_of_no_rows h]

/-- The RCU has served the request of half `h` that arrived at `at_`: it took its 60 ns, and counts. -/
def State.rowServed (s : State) (at_ h : Nat) : State :=
  (s.reach (at_ + 60)).modRcu fun r => Rcu.settle { r with
    rows := r.rows.filter (fun k => k.2.1 != h)
    rowsN := sat64 r.rowsN 1
    waitMax := BitVec.ofNat 32 (max r.waitMax.toNat (min (max s.time (at_ + 60) - at_) 0xFFFFFFFF)) }

/-- The half goes on with the row, with the quantiser that it was answered. -/
def rowTold (row : Nat) (q : Option Int) (x : Half) : Half :=
  { x with rowQp := q, rowWait := false, qps := tblSet none x.qps row (q.map fun v => (v, !x.stage1)) }

theorem rowDecisionOp_answers {at_ h row spent : Nat} {u : WUnit} {s : State} (hnext : s.rcu.nextRow = some (at_, h, row, spent))
    (hrun : s.running? h = some u) (hwaits : (s.half h).rowWait = true) :
    rowDecisionOp s = (s.rowServed at_ h).modHalf h (rowTold row (s.rowAnswer u h row spent)) := by
  simp only [rowDecisionOp, hnext]
  split
  case h_1 v hv =>
    obtain rfl : v = u := Option.some.inj (hv.symm.trans hrun)
    exact if_pos hwaits
  case h_2 hv => cases hv.symm.trans hrun

/-! ### Plan requests (R201, R215) -/

theorem exec_rcuPlanRequest (n pic : Nat) (s : State) : exec (.rcuPlanRequest n pic) s = .next (onlyIf s.live (planRequestOp n pic) s) := rfl

/-- With a plan waiting, an RCU that serves none starts one as soon as no row request waits. -/
theorem settle_busy {r : Rcu} (h : r.plans ≠ []) : r.settle.busy = (r.busy || r.rows.isEmpty) := by
  simp [Rcu.settle, List.isEmpty_eq_false_iff.2 h]

/-- The request for the plan of a ladder's renditions waits at the RCU. -/
theorem planRequestOp_waits {n pic : Nat} {s : State} (hsource : (s.sess n).par.encode = false) (hpics : s.planPics n pic ≠ [])
    (hmay : ∀ p ∈ s.planPics n pic, s.mayPlan p.1 p.2 = true) (hfirst : ∀ k ∈ s.rcu.plans, (k.2.1, k.2.2) ≠ (n, pic)) :
    planRequestOp n pic s = s.modRcu fun r => Rcu.settle { r with plans := r.plans ++ [(s.time, n, pic)] } := by
  have hsome : (s.planPics n pic).isEmpty = false := by simpa using hpics
  have hall : ((s.planPics n pic).all fun p => s.mayPlan p.1 p.2) = true := List.all_eq_true.2 hmay
  have hnew : (s.rcu.plans.any fun k => k.2.1 == n && k.2.2 == pic) = false := by simpa using hfirst
  simp [planRequestOp, hsource, hsome, hall, hnew]

/-! ### Plans (R203, R206, R215, R216) -/

theorem exec_rcuPlanDone (maps : List MapRead) (s : State) :
    exec (.rcuPlanDone maps) s = .next (onlyIf (s.live && s.rcu.busy) (planDoneOp maps) s) := rfl

/-- The estimates that a plan gives the units of its picture stand in the dispatcher alone. -/
theorem rebudget_frame (s : State) (n pic : Nat) : s.rebudget n pic = { s with dsc := (s.rebudget n pic).dsc } := by
  unfold State.rebudget
  dsimp only
  split
  · rfl
  · rfl

theorem rebudget_sess (s : State) (n pic j : Nat) : (s.rebudget n pic).sess j = s.sess j := by
  rw [rebudget_frame]
  rfl

theorem plan?_of_added (x : Session) (k : Plan) : (Session.plan? { x with plans := x.plans ++ [k] } k.pic).isSome = true := by
  simp [Session.plan?, List.find?_append]

theorem makePlan_plan (ms : List MapRead) (n : Nat) (p : SrcPic) (s : State) :
    (((s.makePlan ms n p).sess n).plan? p.index).isSome = true := by
  simp only [State.makePlan, rebudget_sess, modSess_sess]
  exact plan?_of_added (s.sess n) (s.planOf ms n p (startBytes (s.sess n) p))

theorem makePlan_sess_other (ms : List MapRead) (n j : Nat) (p : SrcPic) (s : State) (hj : j ≠ n) :
    (s.makePlan ms n p).sess j = s.sess j := by
  simp only [State.makePlan, rebudget_sess, modSess_sess_other _ _ _ _ hj.symm]

theorem makePlan_frame (ms : List MapRead) (n : Nat) (p : SrcPic) (s : State) :
    s.makePlan ms n p = { s with dsc := (s.makePlan ms n p).dsc, sessions := (s.makePlan ms n p).sessions } := by
  simp only [State.makePlan]
  rw [rebudget_frame]
  rfl

/-- The RCU has served the request for picture `pic` of session `n`: it took its service time for the pictures `ps`, and counts. -/
def State.planServed (s : State) (at_ n pic : Nat) (ps : List (Nat × SrcPic)) : State :=
  (s.reach (at_ + s.planCycles ps)).modRcu fun r => Rcu.settle { r with
    busy := false
    plans := r.plans.filter fun k => !(k.2.1 == n && k.2.2 == pic)
    plansN := sat64 r.plansN 1 }

theorem planDoneOp_one {at_ n pic m : Nat} {p : SrcPic} {s : State} (maps : List MapRead) (hnext : s.rcu.nextPlan = some (at_, n, pic))
    (hone : ((s.planPics n pic).filter fun k => s.mayPlan k.1 k.2) = [(m, p)]) :
    planDoneOp maps s = (s.planServed at_ n pic [(m, p)]).makePlan maps m p := by
  simp only [planDoneOp, hnext, hone, forEach]
  rfl

/-! ### Restarts (R440, Table 19-5) -/

theorem exec_invarRestart (s : State) (hlive : s.live = true) : exec .invarRestart s = .next (invarRestartOp s) := by
  have harm : exec .invarRestart s = execInvarRestart s := rfl
  simp [harm, execInvarRestart, onlyIf, hlive]

/-- The restarts of the last second. -/
def State.recentRestarts (s : State) : List Nat := s.rcu.restarts.filter fun t => decide (s.time < t + 1000000000)

/-- Invar has restarted: the restart is recorded with an INFO that the spec leaves open, and noted with those of the last second (log
entry 40). -/
def State.invarRestarted (s : State) : State :=
  ((s.modRcu fun r => { r with restarts := s.recentRestarts ++ [s.time] }).report 0x03 0xA0 none none (freeNow s 16).toNat 0 0).tookFree

theorem invarRestartOp_few {s : State} (h : s.recentRestarts.length < 3) : invarRestartOp s = s.invarRestarted := if_neg (Nat.not_le.2 h)

theorem invarRestartOp_fourth {s : State} (h : 3 ≤ s.recentRestarts.length) :
    invarRestartOp s = s.invarRestarted.report 0x33 0xA0 none none 0xA0 0 0 := if_pos h

theorem invarRestarted_records (s : State) : Records s s.invarRestarted 0x03 (s.reportClass 0x03) := ⟨_, rfl, rfl, rfl, rfl⟩

/-- REPEAT_LIMIT is class F under every policy (Tables 19-3 and 19-6). -/
theorem reportClass_repeatLimit (s : State) : s.reportClass 0x33 = 2 := rfl

/-! ### The statement about Invar's requests -/

/-- Settles O34: a request and a plan are one write of the RCU beside one half or one session; which request is next is `nextRow_least`. -/
theorem invarRequests : Obligations.InvarRequests := by
  unfold Obligations.InvarRequests
  refine ⟨?asks, ?answers, fun _ _ _ _ _ hnext => nextRow_least hnext, ?noAnswer, ?otherCount, ?planAsks, ?planDone, ?restart, ?fourth⟩
  case asks =>
    intro h row u p s hlive hhalf henc hrow hrun hplan
    refine ⟨(s.modHalf h (rowAsking (s.spendReached u h p))).modRcu (rowArrived s.time h row (s.spentOf u h)), ?_, rfl, ?_⟩
    · simp [exec_rcuRowRequest, onlyIf, hlive, hhalf, henc, hrow, rowRequestOp_asks row hrun hplan]
    · have hself := modHalf_half s h (rowAsking (s.spendReached u h p))
      exact ⟨congrArg Half.rowQp hself, congrArg Half.rowWait hself, congrArg Half.stage1 hself,
        fun j hj => modHalf_half_other _ _ _ _ hj.symm, rfl⟩
  case answers =>
    intro at_ h row spent u s hlive hfree hnext hrun hwaits
    refine ⟨(s.rowServed at_ h).modHalf h (rowTold row (s.rowAnswer u h row spent)), ?_, ?_, rfl, rfl, rfl,
      fun j hj => modHalf_half_other _ _ _ _ hj.symm, rfl⟩
    · simp [exec_rcuRowDecision, onlyIf, hlive, hfree, rowDecisionOp_answers hnext hrun hwaits]
    · rw [modHalf_half]
      rfl
  case noAnswer =>
    rintro s (hbusy | hnone)
    · simp [exec_rcuRowDecision, onlyIf, hbusy]
    · simp [exec_rcuRowDecision, onlyIf, rowDecisionOp_no_rows hnone]
  case otherCount =>
    intro h row spent u s hrun hspent
    simp [exec_rcuRowRequest, onlyIf, rowRequestOp_other_count row hrun hspent]
  case planAsks =>
    intro n pic s hlive hsource hpics hmay hfirst
    refine ⟨_, rfl, ?_⟩
    rw [hlive, onlyIf, if_pos rfl, planRequestOp_waits hsource hpics hmay hfirst]
    exact ⟨rfl, settle_busy (List.append_ne_nil_of_right_ne_nil _ (List.cons_ne_nil _ _)), rfl⟩
  case planDone =>
    intro at_ n pic m p maps s hlive hbusy hnext hone
    refine ⟨(s.planServed at_ n pic [(m, p)]).makePlan maps m p, ?_, makePlan_plan .., ?_⟩
    · simp [exec_rcuPlanDone, onlyIf, hlive, hbusy, planDoneOp_one maps hnext hone]
    · refine ⟨?_, ?_, ?_, fun j hj => makePlan_sess_other _ _ _ _ _ hj, ?_⟩ <;> rw [makePlan_frame] <;> rfl
  case restart =>
    intro s hlive hfew
    refine ⟨s.invarRestarted, ?_, invarRestarted_records s, rfl, rfl, rfl, rfl⟩
    rw [exec_invarRestart s hlive, invarRestartOp_few hfew]
  case fourth =>
    intro s hlive hmany
    refine ⟨s.invarRestarted.report 0x33 0xA0 none none 0xA0 0 0, _, _, ?_, List.append_assoc .., rfl, rfl,
      reportClass_repeatLimit s.invarRestarted, rfl, rfl, rfl⟩
    rw [exec_invarRestart s hlive, invarRestartOp_fourth hmany]

end Sys2Proof.Machine
end

section
/-! PROOFS. What follows the end of a unit gives no unit a place (R224, R269, R305): the MAU, the PCF and the in-flight table stay as the end
of the unit left them. -/
namespace Sys2Proof.Machine

/-- No unit has been given a place or has left one: the MAU, the PCF and the in-flight table are as before. -/
structure SamePlaces (s t : State) : Prop where
  mau : t.mau = s.mau
  pcf : t.pcf = s.pcf
  inflight : t.dsc.inflight = s.dsc.inflight

theorem samePlaces_refl (s : State) : SamePlaces s s := ⟨rfl, rfl, rfl⟩

theorem samePlaces_trans {s t u : State} (h : SamePlaces s t) (k : SamePlaces t u) : SamePlaces s u :=
  ⟨k.mau.trans h.mau, k.pcf.trans h.pcf, k.inflight.trans h.inflight⟩

theorem forEach_samePlaces {β : Type} {f : β → State → State} (xs : List β) (hf : ∀ x t, SamePlaces t (f x t)) (s : State) :
    SamePlaces s (forEach xs f s) :=
  forEach_induct (P := SamePlaces s) xs (fun x _ t ht => samePlaces_trans ht (hf x t)) s (samePlaces_refl s)

theorem forUpTo_samePlaces {f : Nat → State → State} (n : Nat) (hf : ∀ k t, SamePlaces t (f k t)) (s : State) : SamePlaces s (forUpTo n f s) :=
  forUpTo_induct (P := SamePlaces s) n (fun k t ht => samePlaces_trans ht (hf k t)) s (samePlaces_refl s)

/-- No unit has been given a place or has left one, and none is new or has changed. -/
structure OnlyEnded (s t : State) : Prop extends SamePlaces s t where
  units : ∀ w ∈ t.dsc.units, w ∈ s.dsc.units

theorem onlyEnded_of_same {s t : State} (hmau : t.mau = s.mau) (hpcf : t.pcf = s.pcf) (hdsc : t.dsc = s.dsc) : OnlyEnded s t :=
  ⟨⟨hmau, hpcf, by rw [hdsc]⟩, fun w hw => by rwa [hdsc] at hw⟩

theorem onlyEnded_refl (s : State) : OnlyEnded s s := onlyEnded_of_same rfl rfl rfl

theorem onlyEnded_trans {s t u : State} (h : OnlyEnded s t) (k : OnlyEnded t u) : OnlyEnded s u :=
  ⟨samePlaces_trans h.toSamePlaces k.toSamePlaces, fun w hw => h.units w (k.units w hw)⟩

theorem onlyEnded_of_put {s t : State} (h : OnlyPut s t) : OnlyEnded s t := onlyEnded_of_same (by rw [h]) (by rw [h]) (by rw [h])

theorem onlyEnded_of_adm {s t : State} (h : OnlyAdm s t) : OnlyEnded s t := onlyEnded_of_same (by rw [h]) (by rw [h]) (by rw [h])

theorem modEntry_onlyEnded (s : State) (q : Nat) (seq : Word) (f : QEntry → QEntry) : OnlyEnded s (s.modEntry q seq f) :=
  onlyEnded_of_same rfl rfl rfl

theorem modSess_onlyEnded (s : State) (n : Nat) (f : Session → Session) : OnlyEnded s (s.modSess n f) := onlyEnded_of_same rfl rfl rfl

theorem modSess_samePlaces (s : State) (n : Nat) (f : Session → Session) : SamePlaces s (s.modSess n f) := ⟨rfl, rfl, rfl⟩

/-! ### Entries and sessions that end -/

theorem putResult_onlyEnded (s : State) (q : Nat) (seq : Word) : OnlyEnded s (s.putResult q seq) := by
  unfold State.putResult
  split
  · exact onlyEnded_refl s
  · dsimp only
    split
    · exact onlyEnded_trans (onlyEnded_of_put (putRecord_put ..)) (modEntry_onlyEnded ..)
    · exact onlyEnded_of_put (putRecord_put ..)

theorem noteEnd_onlyEnded (s : State) (q : Nat) (e : QEntry) : OnlyEnded s (s.noteEnd q e) := by
  unfold State.noteEnd
  split
  · exact modSess_onlyEnded ..
  · exact onlyEnded_refl s

theorem dropUnits_onlyEnded (s : State) (p : WUnit → Bool) :
    OnlyEnded s (s.modDsc fun d => { d with units := d.units.filter p }) :=
  ⟨⟨rfl, rfl, rfl⟩, fun _ hw => (List.mem_filter.1 hw).1⟩

theorem finishEntry_onlyEnded (s : State) (q : Nat) (seq : Word) : OnlyEnded s (s.finishEntry q seq) := by
  unfold State.finishEntry
  split
  · exact onlyEnded_refl s
  · split
    · exact onlyEnded_refl s
    · have hdone : ∀ (f : QEntry → QEntry) e, OnlyEnded s (((s.modEntry q seq f).putResult q seq).noteEnd q e) := fun f e =>
        onlyEnded_trans (onlyEnded_trans (modEntry_onlyEnded ..) (putResult_onlyEnded ..)) (noteEnd_onlyEnded ..)
      dsimp only
      split
      · exact forEach_induct (P := OnlyEnded s) _ (fun f _ t ht => onlyEnded_trans ht
          (onlyEnded_trans (onlyEnded_trans (modEntry_onlyEnded ..) (dropUnits_onlyEnded ..)) (putResult_onlyEnded ..))) _ (hdone _ _)
      · exact hdone _ _

theorem settleEntry_onlyEnded (s : State) (q : Nat) (seq : Word) : OnlyEnded s (s.settleEntry q seq) := by
  unfold State.settleEntry
  split
  · split
    · exact finishEntry_onlyEnded ..
    · exact onlyEnded_refl s
  · exact onlyEnded_refl s

theorem closeEntry_samePlaces (s : State) (q : Nat) (seq : Word) (c k : Nat) : SamePlaces s (s.closeEntry q seq c k) :=
  (onlyEnded_trans (modEntry_onlyEnded ..) (settleEntry_onlyEnded ..)).toSamePlaces

theorem settleLadders_samePlaces (s : State) : SamePlaces s s.settleLadders :=
  forEach_samePlaces _ (fun _ _ => (onlyEnded_trans (modEntry_onlyEnded ..) (settleEntry_onlyEnded ..)).toSamePlaces) s

theorem settleState_onlyEnded (s : State) (n : Nat) : OnlyEnded s (s.settleState n) := by
  unfold State.settleState
  split
  · exact onlyEnded_refl s
  · exact modSess_onlyEnded ..

theorem dropLine_onlyEnded (s : State) (n : Nat) : OnlyEnded s (s.dropLine n) := onlyEnded_of_same rfl rfl rfl

theorem writeDir_onlyEnded (s : State) (n : Nat) : OnlyEnded s (s.writeDir n) := by
  unfold State.writeDir
  split
  · exact onlyEnded_of_same rfl rfl rfl
  · exact onlyEnded_refl s

theorem freeSession_onlyEnded (s : State) (n : Nat) : OnlyEnded s (s.freeSession n) :=
  onlyEnded_trans (onlyEnded_trans (modSess_onlyEnded ..) (dropLine_onlyEnded ..)) (writeDir_onlyEnded ..)

theorem settleDrain_onlyEnded (s : State) (n : Nat) : OnlyEnded s (s.settleDrain n) := by
  unfold State.settleDrain
  dsimp only
  split
  · split
    · split
      · exact onlyEnded_trans (freeSession_onlyEnded s n) (onlyEnded_of_adm (finishAdm_onlyAdm ..))
      · exact freeSession_onlyEnded s n
    · exact modSess_onlyEnded ..
  · exact onlyEnded_refl s

/-! ### Decisions that queue units (R180) -/

theorem modCls_samePlaces (s : State) (c : Nat) (f : Cls → Cls) : SamePlaces s (s.modCls c f) := ⟨rfl, rfl, rfl⟩

theorem refund_samePlaces (s : State) (u : WUnit) (n : Int) : SamePlaces s (s.refund u n) :=
  forEach_samePlaces _ (fun c t => modCls_samePlaces t c _) s

theorem wake_samePlaces (s : State) (u : WUnit) : SamePlaces s (s.wake u) := by
  have hpath : SamePlaces s (forEach (s.classPath u.cls) (fun c t => if s.backlogged c || c == 0 then t
      else t.modCls c fun k => { k with sTag := max k.fTag (s.cls (s.parentOf c)).vTime }) s) :=
    forEach_samePlaces _ (fun c t => by
      split
      · exact samePlaces_refl t
      · exact modCls_samePlaces ..) s
  unfold State.wake
  dsimp only
  split
  · exact hpath
  · exact samePlaces_trans hpath (modSess_samePlaces ..)

theorem addUnit_samePlaces (s : State) (u : WUnit) : SamePlaces s (s.addUnit u) := by
  have hqueued : SamePlaces s ((s.wake u).modDsc fun d =>
      { d with units := d.units ++ [{ u with uid := d.nextUid, seed := d.nextUid }], nextUid := d.nextUid + 1 }) :=
    samePlaces_trans (wake_samePlaces s u) ⟨rfl, rfl, rfl⟩
  exact samePlaces_trans hqueued (settleState_onlyEnded ..).toSamePlaces

theorem queuePic_samePlaces (s : State) (n : Nat) (p : SrcPic) : SamePlaces s (s.queuePic n p) := by
  unfold State.queuePic
  split
  · split
    · dsimp only
      refine samePlaces_trans ?_ (forEach_samePlaces _ (fun u t => addUnit_samePlaces t u) _)
      split <;> exact ⟨rfl, rfl, rfl⟩
    · exact samePlaces_refl s
  · exact samePlaces_refl s

theorem tellPlaced_samePlaces (t s : State) (n : Nat) (c : Coded) : SamePlaces t (t.tellPlaced s n c) := by
  unfold State.tellPlaced
  split
  · exact forEach_samePlaces _ (fun m v => modSess_samePlaces v m _) t
  · exact samePlaces_refl t

theorem placeAll_samePlaces (s : State) (n : Nat) (cs : List Coded) : SamePlaces s (s.placeAll n cs) := by
  refine samePlaces_trans (samePlaces_trans
    (forEach_samePlaces cs (fun c t => samePlaces_trans (modSess_samePlaces t n _) (tellPlaced_samePlaces _ s n c)) s)
    (forEach_samePlaces cs (fun c t => modSess_samePlaces t n _) _)) (forEach_samePlaces cs (fun c t => ?_) _)
  split
  · exact queuePic_samePlaces ..
  · exact samePlaces_refl t

theorem placeKey_samePlaces (s : State) (n : Nat) (p : SrcPic) : SamePlaces s (s.placeKey n p) :=
  samePlaces_trans (modSess_samePlaces s n _) (placeAll_samePlaces ..)

theorem placeGop_samePlaces (s : State) (n : Nat) (ps : List SrcPic) (full : Bool) : SamePlaces s (s.placeGop n ps full) :=
  samePlaces_trans (placeAll_samePlaces s n _) (modSess_samePlaces ..)

theorem decideOne_samePlaces {s t : State} {n : Nat} (h : s.decideOne n = some t) : SamePlaces s t := by
  unfold State.decideOne at h
  dsimp only at h
  split at h
  · cases h
  · split at h
    · cases h
    · split at h
      · cases h
        exact placeKey_samePlaces ..
      · split at h
        · cases h
          split
          · exact placeKey_samePlaces ..
          · exact placeGop_samePlaces ..
        · cases h

theorem decideAll_samePlaces (n fuel : Nat) (s : State) : SamePlaces s (State.decideAll n fuel s) := by
  induction fuel generalizing s with
  | zero => exact samePlaces_refl s
  | succ fuel ih =>
    unfold State.decideAll
    split
    · next t hone => exact samePlaces_trans (decideOne_samePlaces hone) (ih t)
    · exact samePlaces_refl s

theorem advanceAll_samePlaces (s : State) (m : Nat) : SamePlaces s (s.advanceAll m) :=
  samePlaces_trans (forEach_samePlaces (s.followers m) (fun n t => decideAll_samePlaces n _ t) s)
    (forEach_samePlaces (s.followers m) (fun n t => decideAll_samePlaces n _ t) _)

/-! ### Entries that waited for an analysis (R231) -/

theorem entryOut_samePlaces (s : State) (q : Nat) (seq : Word) (fn space a : Nat) (bs : List Byte) :
    SamePlaces s (s.entryOut q seq fn space a bs) :=
  (onlyEnded_trans (onlyEnded_of_put (putData_put ..)) (modEntry_onlyEnded ..)).toSamePlaces

theorem putField_samePlaces (s : State) (q : Nat) (seq : Word) (fn space addr w : Nat) (a : AnaPic) :
    SamePlaces s (s.putField q seq fn space addr w a) :=
  samePlaces_trans (entryOut_samePlaces ..) (forUpTo_samePlaces _ (fun _ t => entryOut_samePlaces t ..) _)

theorem finishAnalysis_samePlaces (s : State) (q : Nat) (e : QEntry) : SamePlaces s (s.finishAnalysis q e) := by
  unfold State.finishAnalysis
  split
  · refine samePlaces_trans (samePlaces_trans ?_ (modSess_samePlaces ..)) (closeEntry_samePlaces ..)
    split
    · exact samePlaces_refl s
    · exact putField_samePlaces ..
  · exact samePlaces_refl s

theorem settleAnalysis_samePlaces (s : State) (n : Nat) : SamePlaces s (s.settleAnalysis n) := by
  refine forEach_samePlaces _ (fun p t => ?_) s
  split
  · exact finishAnalysis_samePlaces ..
  · exact samePlaces_refl t

theorem settleFlush_samePlaces (s : State) (q : Nat) (e : QEntry) : SamePlaces s (s.settleFlush q e) := by
  unfold State.settleFlush
  split
  · exact samePlaces_refl s
  · exact closeEntry_samePlaces ..

theorem settleFlushes_samePlaces (s : State) (n : Nat) : SamePlaces s (s.settleFlushes n) := by
  refine forEach_samePlaces _ (fun p t => ?_) s
  split
  · exact settleFlush_samePlaces ..
  · exact samePlaces_refl t

theorem afterAnalysis_samePlaces (s : State) (n : Nat) (u : WUnit) : SamePlaces s (s.afterAnalysis n u) := by
  have hdecided : SamePlaces s ((s.settleAnalysis n).advanceAll n) :=
    samePlaces_trans (settleAnalysis_samePlaces ..) (advanceAll_samePlaces ..)
  have hpruned : SamePlaces s ((((s.settleAnalysis n).advanceAll n).pruneAna n).prunePics n) :=
    samePlaces_trans (samePlaces_trans hdecided (modSess_samePlaces ..)) (modSess_samePlaces ..)
  exact samePlaces_trans (samePlaces_trans (samePlaces_trans hpruned (settleEntry_onlyEnded ..).toSamePlaces) (settleLadders_samePlaces _))
    (settleFlushes_samePlaces ..)

/-! ### Outputs of a pass -/

theorem devWrite_samePlaces (s : State) (a : Nat) (bs : List Byte) : SamePlaces s (s.devWrite a bs) :=
  (onlyEnded_of_put (devWrite_put ..)).toSamePlaces

theorem modCluster_samePlaces (s : State) (c : Nat) (f : Cluster → Cluster) : SamePlaces s (s.modCluster c f) := ⟨rfl, rfl, rfl⟩

theorem replaceTile_samePlaces (s : State) (r : TileRef) (ss : List Nat) : SamePlaces s (s.replaceTile r ss) := by
  have hmerge : SamePlaces s (s.setMerge (refEngine r) ((s.mergeBuf (refEngine r)).filter fun k => k.tile != r)) := ⟨rfl, rfl, rfl⟩
  refine samePlaces_trans hmerge (samePlaces_trans (samePlaces_trans ?_ (devWrite_samePlaces ..)) ⟨rfl, rfl, rfl⟩)
  split
  · exact samePlaces_refl _
  · exact samePlaces_trans (devWrite_samePlaces ..) (forEach_samePlaces _ (fun c t => modCluster_samePlaces t c _) _)

theorem storePicture_samePlaces (s : State) (base chroma w h : Nat) (ps : List Plane) : SamePlaces s (s.storePicture base chroma w h ps) :=
  samePlaces_trans
    (forUpTo_samePlaces _ (fun _ _ => forUpTo_samePlaces _ (fun _ t => replaceTile_samePlaces t ..) _) s)
    (forUpTo_samePlaces _ (fun _ _ => forUpTo_samePlaces _ (fun _ t => replaceTile_samePlaces t ..) _) _)

theorem putOutput_samePlaces (s : State) (q : Nat) (seq : Word) (fn : Nat) (t : Template) (d : Entry) (shape : PicShape) (ps : List Plane) :
    SamePlaces s (s.putOutput q seq fn t d shape ps) := by
  unfold State.putOutput
  dsimp only
  split
  · exact samePlaces_trans (storePicture_samePlaces ..) (modEntry_onlyEnded ..).toSamePlaces
  · exact forEach_samePlaces _ (fun _ v => entryOut_samePlaces v ..) s

theorem putOutputs_samePlaces (s : State) (u : WUnit) (e : QEntry) (shape : PicShape) (planes : List Plane) (lut : List DWord) :
    SamePlaces s (s.putOutputs u e shape planes lut) := by
  unfold State.putOutputs
  dsimp only
  split
  · exact samePlaces_refl s
  · refine forEach_samePlaces _ (fun d v => ?_) s
    split
    · exact putOutput_samePlaces ..
    · exact samePlaces_refl v

theorem storeRends_samePlaces (s : State) (u : WUnit) (shape : PicShape) (planes : List Plane) (lut : List DWord) :
    SamePlaces s (s.storeRends u shape planes lut) := by
  unfold State.storeRends
  dsimp only
  split
  · exact samePlaces_refl s
  · refine forEach_samePlaces _ (fun m v => ?_) s
    split
    · exact storePicture_samePlaces ..
    · exact samePlaces_refl v

theorem readyRends_samePlaces (s : State) (u : WUnit) : SamePlaces s (s.readyRends u) :=
  forEach_samePlaces _ (fun m t => modSess_samePlaces t m _) s

end Sys2Proof.Machine
end

section
/-! PROOFS. The end of a MAU unit and of a PCF pass (R224, R269). -/
namespace Sys2Proof.Machine

theorem exec_mauUnitDone {e : Nat} (src : Block) (prev : Plane) {s : State} (hlive : s.live = true) (he : e < 8) :
    exec (.mauUnitDone e src prev) s = .next (mauDoneOp e src prev s) := by
  have harm : exec (.mauUnitDone e src prev) s = execMauUnitDone e src prev s := rfl
  simp [harm, execMauUnitDone, onlyIf, hlive, he]

theorem exec_pcfPassDone {p : Nat} (luma chroma : List Byte) (poisoned : Bool) {s : State} (hlive : s.live = true) (hp : p < 16) :
    exec (.pcfPassDone p luma chroma poisoned) s = .next (passDoneOp p ⟨!poisoned, luma ++ chroma⟩ s) := by
  have harm : exec (.pcfPassDone p luma chroma poisoned) s = execPcfPassDone p luma chroma poisoned s := rfl
  simp [harm, execPcfPassDone, onlyIf, hlive, hp]

/-! ### A unit that retires -/

theorem freeInflight_gone {s : State} {n : Nat} : ∀ k ∈ (s.freeInflight n).dsc.inflight, k.2 ≠ n := fun _ hk => by
  simpa using (List.mem_filter.1 hk).2

/-- Retiring touches no place but the unit's in-flight entry. -/
theorem retire_samePlaces (s : State) (u : WUnit) (n : Nat) : SamePlaces (s.freeInflight u.uid) (s.retire u n) :=
  samePlaces_trans (refund_samePlaces ..) ⟨rfl, rfl, rfl⟩

theorem retire_gone (s : State) (u : WUnit) (n : Nat) : ∀ k ∈ (s.retire u n).dsc.inflight, k.2 ≠ u.uid := by
  rw [(retire_samePlaces s u n).inflight]
  exact freeInflight_gone

/-- The analysis of a unit's picture is stored, and its unit retires. -/
theorem storeAnalysis_gone (s : State) (u : WUnit) (a : AnaPic) (cur prev : Plane) :
    ∀ k ∈ (s.storeAnalysis u a cur prev).dsc.inflight, k.2 ≠ u.uid := retire_gone _ _ _

/-! ### A MAU unit -/

theorem freeEngineOf_units (s : State) (e : Nat) : tblGet 0 (s.freeEngineOf e).mau.units e = 0 := tblGet_tblSet_same 0 s.mau.units e 0

/-- The unit's analysis is stored, its engine is free, and its entry has its analysis (R224, R231). -/
def State.mauCommitted (s : State) (e : Nat) (u : WUnit) (a : AnaPic) (ps : List Plane) (prev : Plane) : State :=
  (((s.storeSource u a ps).storeAnalysis u a (ps.headD []) (s.prevLuma u prev)).freeEngineOf e).modEntry u.q u.seq fun f =>
    { f with analysed := f.op == 5 }

theorem mauDoneOp_commits {e : Nat} {u : WUnit} {a : AnaPic} {src : Block} (prev : Plane) {ps : List Plane} {s : State}
    (hunit : s.mauUnit? e = some u) (horder : s.mauInOrder u = true) (hana : s.ana? u.session u.pic = some a) (hbad : s.badTiles u = [])
    (hsource : s.mauSource u src = some ps) :
    mauDoneOp e src prev s =
      (((s.mauCommitted e u a ps prev).afterAnalysis u.session u).settleState u.session).settleDrain u.session := by
  have hready : (s.mauUnit? e).filter s.mauInOrder = some u := by simp [hunit, Option.filter, horder]
  unfold mauDoneOp
  simp only [hready, hana, hbad, hsource, List.isEmpty_nil, Bool.not_true, Bool.false_eq_true, if_false, State.mauCommitted]

/-- What follows a commit leaves the places as the commit did. -/
theorem afterCommit_samePlaces (s : State) (u : WUnit) :
    SamePlaces s (((s.afterAnalysis u.session u).settleState u.session).settleDrain u.session) :=
  samePlaces_trans (afterAnalysis_samePlaces ..) (onlyEnded_trans (settleState_onlyEnded ..) (settleDrain_onlyEnded ..)).toSamePlaces

/-! ### A PCF pass -/

theorem count_units (m : Pcf) (p n : Nat) : tblGet 0 (m.count p n).units p = 0 := tblGet_tblSet_same 0 m.units p 0

/-- The outputs of a pass, written for its entry or for its renditions. -/
def State.passWritten (s : State) (p : Nat) (u : WUnit) (e : QEntry) (ps : List Plane) : State :=
  if e.op == 4 then s.putOutputs u e (s.passShape u) ps (tblGet [] s.pcf.lut p)
  else (s.storeRends u (s.passShape u) ps (tblGet [] s.pcf.lut p)).readyRends u

theorem passWritten_samePlaces (s : State) (p : Nat) (u : WUnit) (e : QEntry) (ps : List Plane) : SamePlaces s (s.passWritten p u e ps) := by
  unfold State.passWritten
  split
  · exact putOutputs_samePlaces ..
  · exact samePlaces_trans (storeRends_samePlaces ..) (readyRends_samePlaces ..)

/-- The pass is counted, its pipe is free, and its unit retires (R272). -/
def State.passCounted (s : State) (p : Nat) (u : WUnit) : State := (s.modPcf fun m => m.count p u.samples).retire u u.cost

/-- The entry of a pass moves on: a conversion ends, a ladder's pass lets its session go on (R305). -/
def State.afterPass (s : State) (u : WUnit) (e : QEntry) : State :=
  if e.op == 4 then s.closeEntry u.q u.seq 0 0
  else ((((s.prunePics u.session).settleEntry u.q u.seq).settleState u.session).settleDrain u.session)

theorem afterPass_samePlaces (s : State) (u : WUnit) (e : QEntry) : SamePlaces s (s.afterPass u e) := by
  unfold State.afterPass
  split
  · exact closeEntry_samePlaces ..
  · have hpruned : OnlyEnded s ((s.prunePics u.session).settleEntry u.q u.seq) :=
      onlyEnded_trans (modSess_onlyEnded ..) (settleEntry_onlyEnded ..)
    exact (onlyEnded_trans hpruned (onlyEnded_trans (settleState_onlyEnded ..) (settleDrain_onlyEnded ..))).toSamePlaces

theorem passDoneOp_commits {p : Nat} {u : WUnit} {e : QEntry} {src : Block} {ps : List Plane} {s : State} (hunit : s.pcfUnit? p = some u)
    (hentry : (s.queue u.q).entry? u.seq = some e) (hbad : s.badTiles u = []) (hplanes : s.passPlanes u e (s.passShape u) src = some ps)
    (hlut : s.lutOk u p = true) : passDoneOp p src s = ((s.passWritten p u e ps).passCounted p u).afterPass u e := by
  unfold passDoneOp State.afterPass State.passWritten
  simp only [hunit, hentry, hbad, hplanes, Option.filter, hlut, List.isEmpty_nil, Bool.not_true, Bool.false_eq_true, if_false, if_true,
    State.passCounted]

theorem passCounted_pcf (s : State) (p : Nat) (u : WUnit) : (s.passCounted p u).pcf = s.pcf.count p u.samples :=
  (retire_samePlaces (s.modPcf fun m => m.count p u.samples) u u.cost).pcf

end Sys2Proof.Machine
end

section
/-! PROOFS. Parity errors of MAU engines and PCF pipes (R223, R270, R440), and the statement about engines and pipes. -/
namespace Sys2Proof.Machine

theorem exec_mauParity {e : Nat} {s : State} (hlive : s.live = true) (he : e < 8) : exec (.mauParity e) s = .next (mauParityOp e s) := by
  have harm : exec (.mauParity e) s = execMauParity e s := rfl
  simp [harm, execMauParity, onlyIf, hlive, he]

theorem exec_pcfParity {p : Nat} {s : State} (hlive : s.live = true) (hp : p < 16) : exec (.pcfParity p) s = .next (pcfParityOp p s) := by
  have harm : exec (.pcfParity p) s = execPcfParity p s := rfl
  simp [harm, execPcfParity, onlyIf, hlive, hp]

/-! ### The record of an error -/

/-- The error of an engine is counted and recorded, naming the unit that it runs (R440). -/
def State.engineErred (s : State) (e : Nat) : State :=
  (s.tookFree.modMau fun m => { m with parity := tblSet 0 m.parity e (tblGet 0 s.mau.parity e + 1) }).report 0x03 (0x88 + e)
    ((s.mauUnit? e).map WUnit.fn) ((s.mauUnit? e).map WUnit.session) (freeNow s 16).toNat (((s.mauUnit? e).map WUnit.tag).getD 0) 0

theorem engineErred_records (s : State) (e : Nat) : Records s (s.engineErred e) 0x03 (s.reportClass 0x03) := ⟨_, rfl, rfl, rfl, rfl⟩

theorem engineErred_parity (s : State) (e : Nat) : tblGet 0 (s.engineErred e).mau.parity e = tblGet 0 s.mau.parity e + 1 :=
  tblGet_tblSet_same 0 s.mau.parity e (tblGet 0 s.mau.parity e + 1)

theorem mauParityOp_idle {e : Nat} {s : State} (hidle : s.mauUnit? e = none) :
    mauParityOp e s = if s.policy.unitLimit ≤ tblGet 0 s.mau.parity e + 1 then (s.engineErred e).disableEngine e else s.engineErred e := by
  unfold mauParityOp State.engineErred
  simp only [hidle]

theorem mauParityOp_busy {e : Nat} {u : WUnit} {s : State} (hunit : s.mauUnit? e = some u)
    (hbelow : tblGet 0 s.mau.parity e + 1 < s.policy.unitLimit) : mauParityOp e s = (s.engineErred e).rollback u.uid := by
  unfold mauParityOp State.engineErred
  simp only [hunit, Nat.not_le.2 hbelow, if_false]

theorem disableEngine_other {e : Nat} {s : State} (h : s.mau.enable &&& ~~~ BitVec.twoPow 8 e ≠ 0) :
    s.disableEngine e = s.modMau fun m => { m with enable := m.enable &&& ~~~ BitVec.twoPow 8 e } := if_neg (by simpa using h)

theorem disableEngine_last {e : Nat} {s : State} (h : s.mau.enable &&& ~~~ BitVec.twoPow 8 e = 0) :
    s.disableEngine e = s.report 0x33 (0x88 + e) none none (0x88 + e) 0 0 := if_pos (by simpa using h)

/-- The error of a pipe is counted and recorded, and the pipe's LUT copy is lost (R270, R440). -/
def State.pipeErred (s : State) (p : Nat) : State :=
  (s.tookFree.modPcf fun m => { m with
    parity := tblSet 0 m.parity p (tblGet 0 s.pcf.parity p + 1), parityN := sat32 m.parityN 1, lutValid := tblSet false m.lutValid p false }).report
    0x01 (0x90 + p) none none (freeNow s 16).toNat 0 0

theorem pipeErred_records (s : State) (p : Nat) : Records s (s.pipeErred p) 0x01 0 := ⟨_, rfl, rfl, rfl, rfl⟩

theorem pipeErred_lut (s : State) (p : Nat) : tblGet false (s.pipeErred p).pcf.lutValid p = false :=
  tblGet_tblSet_same false s.pcf.lutValid p false

theorem pcfParityOp_idle {p : Nat} {s : State} (hidle : s.pcfUnit? p = none) :
    pcfParityOp p s = if s.policy.unitLimit ≤ tblGet 0 s.pcf.parity p + 1 then (s.pipeErred p).disablePipe p else s.pipeErred p := by
  unfold pcfParityOp State.pipeErred
  simp only [hidle]
  rfl

theorem disablePipe_other {p : Nat} {s : State} (h : s.pcf.enable &&& ~~~ BitVec.twoPow 16 p ≠ 0) :
    s.disablePipe p = s.modPcf fun m => { m with enable := m.enable &&& ~~~ BitVec.twoPow 16 p } := if_neg (by simpa using h)

/-! ### The unit of a busy engine -/

/-- The unit of an engine is one of the scheduler's, and runs there. -/
theorem mauUnit?_running {e : Nat} {u : WUnit} {s : State} (hunit : s.mauUnit? e = some u) :
    s.unit? u.uid = some u ∧ u.kind = .mau ∧ u.stage = .running e := by
  unfold State.mauUnit? at hunit
  dsimp only at hunit
  split at hunit
  · cases hunit
  · obtain ⟨hfound, hruns⟩ := Option.filter_eq_some_iff.1 hunit
    rw [unit?_uid hfound]
    simpa [hfound] using hruns

theorem releasePlace_engine {e : Nat} {u : WUnit} (s : State) (b : BankState) (hkind : u.kind = .mau) (hstage : u.stage = .running e) :
    s.releasePlace u b = s.freeEngineOf e := by
  simp [State.releasePlace, State.freeEngineOf, hkind, hstage]

/-- A unit that leaves its engine leaves it free, and nothing else of the MAU changes. -/
theorem leftPlace_engine {e : Nat} {u : WUnit} (s : State) (n : Nat) (hkind : u.kind = .mau) (hstage : u.stage = .running e) :
    (s.leftPlace u n).mau = (s.freeEngineOf e).mau := by
  rw [State.leftPlace, releasePlace_engine s _ hkind hstage]
  rfl

/-- A unit is gone or stands in its queue. -/
def State.outOfPlace (s : State) (n : Nat) : Prop := ∀ w ∈ s.dsc.units, w.uid = n → w.queued = true

theorem outOfPlace_ended {s t : State} {n : Nat} (h : OnlyEnded s t) (hs : s.outOfPlace n) : t.outOfPlace n :=
  fun w hw => hs w (h.units w hw)

theorem dropUnit_outOfPlace (s : State) (n : Nat) : (s.dropUnit n).outOfPlace n := fun w hw hn => by
  have hother := (List.mem_filter.1 hw).2
  simp [hn] at hother

theorem modUnit_outOfPlace (s : State) (n : Nat) (f : WUnit → WUnit) (hf : ∀ w, (f w).queued = true) : (s.modUnit n f).outOfPlace n :=
  fun w hw hn => by
    obtain ⟨v, -, rfl⟩ := List.mem_map.1 hw
    split at hn
    · next hv =>
      rw [if_pos hv]
      exact hf v
    · next hv => exact absurd hn (by simpa using hv)

theorem discardUnit_ended (s : State) (u : WUnit) : OnlyEnded ((s.leftPlace u u.uid).dropUnit u.uid) (s.discardUnit u) := by
  have hend : ∀ t v, OnlyEnded t v → OnlyEnded t (((v.settleState u.session).settleEntry u.q u.seq).settleDrain u.session) := fun t v hv =>
    onlyEnded_trans (onlyEnded_trans (onlyEnded_trans hv (settleState_onlyEnded ..)) (settleEntry_onlyEnded ..)) (settleDrain_onlyEnded ..)
  unfold State.discardUnit
  dsimp only
  split
  · exact hend _ _ (modEntry_onlyEnded ..)
  · exact hend _ _ (onlyEnded_refl _)

/-- A rollback takes a unit off its engine and changes nothing else of the MAU. -/
theorem rollback_engine {e : Nat} {u : WUnit} {s : State} (hunit : s.unit? u.uid = some u) (hkind : u.kind = .mau)
    (hstage : u.stage = .running e) : (s.rollback u.uid).mau = (s.freeEngineOf e).mau ∧ (s.rollback u.uid).outOfPlace u.uid := by
  unfold State.rollback
  simp only [hunit]
  split
  · have hended := discardUnit_ended (s.refund u (u.cost : Int)) u
    refine ⟨?_, outOfPlace_ended hended (dropUnit_outOfPlace _ _)⟩
    calc _ = ((s.refund u (u.cost : Int)).leftPlace u u.uid).mau := hended.mau
      _ = ((s.refund u (u.cost : Int)).freeEngineOf e).mau := leftPlace_engine _ _ hkind hstage
      _ = (s.freeEngineOf e).mau := by simp only [State.freeEngineOf, modMau_mau, (refund_samePlaces ..).mau]
  · have hended := fun t : State => onlyEnded_trans (settleState_onlyEnded t u.session) (settleDrain_onlyEnded _ u.session)
    refine ⟨(hended _).mau.trans ?_, outOfPlace_ended (hended _) (modUnit_outOfPlace _ _ _ fun _ => rfl)⟩
    calc _ = (s.leftPlace u u.uid).mau := (samePlaces_trans (refund_samePlaces (s.leftPlace u u.uid) u (u.cost : Int)) (wake_samePlaces _ u)).mau
      _ = (s.freeEngineOf e).mau := leftPlace_engine s _ hkind hstage

/-! ### The statement about engines and pipes -/

/-- Settles O35: a unit or pass that is done is counted, leaves its place and the in-flight table, and what follows gives no unit a place
(`afterCommit_samePlaces`, `afterPass_samePlaces`); a parity error is one record (`engineErred`, `pipeErred`) before the engine or pipe is
disabled or its unit rolled back (`rollback_engine`). -/
theorem enginesAndPipes : Obligations.EnginesAndPipes := by
  unfold Obligations.EnginesAndPipes
  refine ⟨?unitDone, ?passDone, ?engineIdle, ?engineBusy, ?engineLimit, ?engineLast, ?pipeLimit, ?pipeIdle⟩
  case unitDone =>
    intro e u a src prev ps s hlive he hunit horder hana hbad hsource
    have hsame := afterCommit_samePlaces (s.mauCommitted e u a ps prev) u
    refine ⟨_, exec_mauUnitDone src prev hlive he, ?_⟩
    rw [mauDoneOp_commits prev hunit horder hana hbad hsource, hsame.mau, hsame.inflight]
    exact ⟨freeEngineOf_units _ e, storeAnalysis_gone _ u a _ _⟩
  case passDone =>
    intro p u e luma chroma poisoned ps s hlive hp hunit hentry hbad hplanes hlut
    have hsame := afterPass_samePlaces ((s.passWritten p u e ps).passCounted p u) u e
    refine ⟨_, exec_pcfPassDone luma chroma poisoned hlive hp, ?_⟩
    rw [passDoneOp_commits hunit hentry hbad hplanes hlut, hsame.pcf, hsame.inflight, passCounted_pcf, (passWritten_samePlaces ..).pcf]
    exact ⟨count_units .., rfl, rfl, retire_gone _ u _⟩
  case engineIdle =>
    intro e s hlive he hidle hbelow
    refine ⟨s.engineErred e, ?_, engineErred_parity s e, rfl, engineErred_records s e, rfl⟩
    rw [exec_mauParity hlive he, mauParityOp_idle hidle, if_neg (Nat.not_le.2 hbelow)]
  case engineBusy =>
    intro e u s hlive he hunit hbelow
    obtain ⟨hfound, hkind, hstage⟩ := mauUnit?_running hunit
    obtain ⟨hmau, hout⟩ := rollback_engine (s := s.engineErred e) hfound hkind hstage
    refine ⟨(s.engineErred e).rollback u.uid, ?_, ?_, ?_, hout⟩
    · rw [exec_mauParity hlive he, mauParityOp_busy hunit hbelow]
    · rw [hmau]
      exact engineErred_parity s e
    · rw [hmau]
      exact freeEngineOf_units _ e
  case engineLimit =>
    intro e s hlive he hidle hlimit hothers
    refine ⟨(s.engineErred e).modMau fun m => { m with enable := m.enable &&& ~~~ BitVec.twoPow 8 e }, ?_, rfl, engineErred_records s e, rfl⟩
    rw [exec_mauParity hlive he, mauParityOp_idle hidle, if_pos hlimit, disableEngine_other (s := s.engineErred e) hothers]
  case engineLast =>
    intro e s hlive he hidle hlimit hlast
    refine ⟨(s.engineErred e).report 0x33 (0x88 + e) none none (0x88 + e) 0 0, _, _, ?_, rfl, List.append_assoc .., rfl, rfl, rfl⟩
    rw [exec_mauParity hlive he, mauParityOp_idle hidle, if_pos hlimit, disableEngine_last (s := s.engineErred e) hlast]
  case pipeLimit =>
    intro p s hlive hp hidle hlimit hothers
    refine ⟨(s.pipeErred p).modPcf fun m => { m with enable := m.enable &&& ~~~ BitVec.twoPow 16 p }, ?_, rfl, pipeErred_records s p, rfl⟩
    rw [exec_pcfParity hlive hp, pcfParityOp_idle hidle, if_pos hlimit, disablePipe_other (s := s.pipeErred p) hothers]
  case pipeIdle =>
    intro p s hlive hp hidle hbelow
    refine ⟨s.pipeErred p, ?_, rfl, pipeErred_lut s p, rfl, pipeErred_records s p, rfl⟩
    rw [exec_pcfParity hlive hp, pcfParityOp_idle hidle, if_neg (Nat.not_le.2 hbelow)]

end Sys2Proof.Machine
end

section
/-! PROOFS. Fields and bytes of stored tiles (R243, R244): what is packed comes back, whatever lies above it. -/
namespace Sys2Proof.Machine

/-! ### Little-endian bytes -/

theorem leNat_leBytes (n v : Nat) : leNat (leBytes n v) = v % 256 ^ n := by
  induction n generalizing v with
  | zero => simp [leBytes, leNat, Nat.mod_one]
  | succ n ih =>
    rw [leBytes, leNat, ih, Nat.pow_succ', Nat.mod_mul, BitVec.toNat_ofNat]

/-- What is read back from the first bytes stored, where the number fits them. -/
theorem leNat_take_leBytes {n v : Nat} (rest : List Byte) (h : v < 2 ^ (8 * n)) : leNat ((leBytes n v ++ rest).take n) = v := by
  have hpow : (256 : Nat) ^ n = 2 ^ (8 * n) := by rw [Nat.pow_mul]
  rw [List.take_left' (leBytes_length n v), leNat_leBytes, hpow, Nat.mod_eq_of_lt h]

/-! ### Packed fields -/

theorem packBits_lt (fs : List (Nat × Nat)) : packBits fs < 2 ^ (fs.map Prod.fst).sum := by
  induction fs with
  | nil => simp [packBits]
  | cons f fs ih =>
    obtain ⟨w, v⟩ := f
    have hv : v % 2 ^ w < 2 ^ w := Nat.mod_lt _ (Nat.two_pow_pos w)
    rw [packBits, List.map_cons, List.sum_cons, Nat.pow_add]
    calc v % 2 ^ w + 2 ^ w * packBits fs < 2 ^ w + 2 ^ w * packBits fs := Nat.add_lt_add_right hv _
      _ = 2 ^ w * (packBits fs + 1) := by rw [Nat.mul_succ, Nat.add_comm]
      _ ≤ 2 ^ w * 2 ^ (fs.map Prod.fst).sum := Nat.mul_le_mul_left _ ih

/-- Packed fields are unpacked to their low bits, whatever stands above them. -/
theorem unpackBits_packBits (fs : List (Nat × Nat)) (above : Nat) :
    unpackBits (fs.map Prod.fst) (packBits fs + 2 ^ (fs.map Prod.fst).sum * above) = fs.map fun f => f.2 % 2 ^ f.1 := by
  induction fs with
  | nil => rfl
  | cons f fs ih =>
    obtain ⟨w, v⟩ := f
    have hv : v % 2 ^ w < 2 ^ w := Nat.mod_lt _ (Nat.two_pow_pos w)
    have hsplit : packBits ((w, v) :: fs) + 2 ^ (w + (fs.map Prod.fst).sum) * above
        = v % 2 ^ w + 2 ^ w * (packBits fs + 2 ^ (fs.map Prod.fst).sum * above) := by
      rw [packBits, Nat.pow_add]
      ring
    simp only [List.map_cons, List.sum_cons, unpackBits, hsplit, Nat.add_mul_mod_self_left, Nat.mod_mod,
      Nat.add_mul_div_left _ _ (Nat.two_pow_pos w), Nat.div_eq_of_lt hv, Nat.zero_add, ih]

/-- Fields that fit their widths come back as they were. -/
theorem unpackBits_packed {fs : List (Nat × Nat)} (above : Nat) (h : ∀ f ∈ fs, f.2 < 2 ^ f.1) :
    unpackBits (fs.map Prod.fst) (packBits fs + 2 ^ (fs.map Prod.fst).sum * above) = fs.map Prod.snd := by
  rw [unpackBits_packBits]
  exact List.map_congr_left fun f hf => Nat.mod_eq_of_lt (h f hf)

/-- Values packed in fields of one width. -/
theorem unpackBits_uniform {w : Nat} {vs : List Nat} (above : Nat) (h : ∀ v ∈ vs, v < 2 ^ w) :
    unpackBits (List.replicate vs.length w) (packBits (vs.map fun v => (w, v)) + 2 ^ (vs.length * w) * above) = vs := by
  have hunpacked := unpackBits_packed (fs := vs.map fun v => (w, v)) above (by simpa using h)
  have hwidths : (vs.map fun v => (w, v)).map Prod.fst = List.replicate vs.length w := by
    simp [Function.comp_def, List.map_const']
  rw [hwidths, List.sum_replicate, smul_eq_mul] at hunpacked
  simpa [Function.comp_def] using hunpacked

theorem packBits_uniform_lt (w : Nat) (vs : List Nat) : packBits (vs.map fun v => (w, v)) < 2 ^ (vs.length * w) := by
  simpa [Function.comp_def, List.map_const', List.sum_replicate] using packBits_lt (vs.map fun v => (w, v))

end Sys2Proof.Machine
end

section
/-! PROOFS. Residuals of a tile (R245): the width of a group holds every residual of it, and each residual stands where its sample reads it. -/
namespace Sys2Proof.Machine

/-! ### One residual -/

theorem residual_lt (n u p : Nat) : residual n u p < 2 ^ n := Nat.mod_lt _ (Nat.two_pow_pos n)

/-- A residual added to its prediction gives the value back. -/
theorem predicted_add_residual {n u : Nat} (p : Nat) (h : u < 2 ^ n) : (p + residual n u p) % 2 ^ n = u := by
  have hp : p % 2 ^ n < 2 ^ n := Nat.mod_lt _ (Nat.two_pow_pos n)
  have hsum : p % 2 ^ n + (u + 2 ^ n - p % 2 ^ n) = u + 2 ^ n := by omega
  rw [residual, Nat.add_mod_mod, ← Nat.mod_add_mod, hsum, Nat.add_mod_right, Nat.mod_eq_of_lt h]

/-- The whole domain holds every residual. -/
theorem fitsBits_whole {n : Nat} (r : Nat) (hn : 0 < n) : fitsBits n n r = true := by
  have hhalves : 2 ^ n = 2 * 2 ^ (n - 1) := by rw [← Nat.pow_succ', Nat.succ_eq_add_one, Nat.sub_add_cancel hn]
  have hne : (n == 0) = false := by simp; omega
  simp only [fitsBits, hne, Bool.false_eq_true, if_false, Bool.or_eq_true, decide_eq_true_eq]
  omega

/-- The low bits of a residual that fits them give it back by their sign. -/
theorem extendBits_lowBits {n w r : Nat} (hw : w ≤ n) (hr : r < 2 ^ n) (hfits : fitsBits n w r = true) : extendBits n w (r % 2 ^ w) = r := by
  obtain rfl | hpos := Nat.eq_zero_or_pos w
  · have hzero : r = 0 := by simpa [fitsBits] using hfits
    simp [extendBits, hzero]
  · have hhalves : 2 ^ w = 2 * 2 ^ (w - 1) := by rw [← Nat.pow_succ', Nat.succ_eq_add_one, Nat.sub_add_cancel hpos]
    have hne : (w == 0) = false := by simp; omega
    simp only [fitsBits, hne, Bool.false_eq_true, if_false, Bool.or_eq_true, decide_eq_true_eq] at hfits
    simp only [extendBits, bne, hne, Bool.not_false, Bool.true_and, decide_eq_true_eq]
    obtain hsmall | hlarge := hfits
    · rw [Nat.mod_eq_of_lt (by omega), if_neg (by omega)]
    · obtain ⟨k, hk⟩ := Nat.pow_dvd_pow 2 hw
      have hlow : r % 2 ^ w = r + 2 ^ w - 2 ^ n := by
        have hbelow : r + 2 ^ w - 2 ^ n < 2 ^ w := by omega
        have hsum : r + 2 ^ w = (r + 2 ^ w - 2 ^ n) + 2 ^ w * k := by omega
        calc r % 2 ^ w = (r + 2 ^ w) % 2 ^ w := (Nat.add_mod_right ..).symm
          _ = r + 2 ^ w - 2 ^ n := by rw [hsum, Nat.add_mul_mod_self_left, ← hsum, Nat.mod_eq_of_lt hbelow]
      have hle : 2 ^ w ≤ 2 ^ n := Nat.pow_le_pow_right (by decide) hw
      rw [hlow, if_pos (by omega)]
      omega

/-! ### The width of a group -/

theorem groupWidth_le (n : Nat) (rs : List Nat) : groupWidth n rs ≤ n := by
  unfold groupWidth
  cases hfound : (List.range (n + 1)).find? fun w => rs.all fun r => fitsBits n w r with
  | none => exact Nat.le_refl n
  | some w => exact Nat.lt_succ_iff.1 (List.mem_range.1 (List.mem_of_find?_eq_some hfound))

theorem groupWidth_fits {n : Nat} (rs : List Nat) (hn : 0 < n) : ∀ r ∈ rs, fitsBits n (groupWidth n rs) r = true := by
  unfold groupWidth
  cases hfound : (List.range (n + 1)).find? fun w => rs.all fun r => fitsBits n w r with
  | none => exact fun r _ => fitsBits_whole r hn
  | some w =>
    have hall := List.find?_some hfound
    simpa using hall

/-! ### The widths of a tile -/

theorem tileWidths_length (n : Nat) (rs : List Nat) : (tileWidths n rs).length = 16 := by simp [tileWidths]

theorem tileWidths_le (n : Nat) (rs : List Nat) : ∀ w ∈ tileWidths n rs, w ≤ n := by
  simp only [tileWidths, List.mem_map]
  rintro w ⟨g, -, rfl⟩
  exact groupWidth_le ..

theorem tileWidths_getD (n : Nat) (rs : List Nat) {g : Nat} (hg : g < 16) : (tileWidths n rs).getD g 0 = groupWidth n (groupOf rs g) := by
  simp [tileWidths, List.getD_eq_getElem?_getD, hg]

theorem mem_groupOf {rs : List Nat} {p : Nat} (hp : p < rs.length) : rs[p] ∈ groupOf rs (p / 16) := by
  have hplace : 16 * (p / 16) + p % 16 = p := Nat.div_add_mod p 16
  have hmod : p % 16 < 16 := Nat.mod_lt _ (by decide)
  refine List.mem_iff_getElem?.2 ⟨p % 16, ?_⟩
  rw [groupOf, List.getElem?_take_of_lt hmod, List.getElem?_drop, hplace, List.getElem?_eq_getElem hp]

@[simp] theorem residualWidths_length (ws : List Nat) : (residualWidths ws).length = 256 := by simp [residualWidths]

theorem residualWidths_getElem (ws : List Nat) {p : Nat} (hp : p < (residualWidths ws).length) :
    (residualWidths ws)[p] = ws.getD (p / 16) 0 := by simp [residualWidths]

/-- The 16 residuals of a group have one width. -/
theorem sum_groups (f : Nat → Nat) (m : Nat) : ((List.range (16 * m)).map fun p => f (p / 16)).sum = 16 * ((List.range m).map f).sum := by
  induction m with
  | zero => rfl
  | succ m ih =>
    have hgroup : ((List.range 16).map fun i => f ((16 * m + i) / 16)) = List.replicate 16 (f m) := by
      refine List.eq_replicate_iff.2 ⟨by simp, fun x hx => ?_⟩
      obtain ⟨i, hi, rfl⟩ := List.mem_map.1 hx
      have hi16 := List.mem_range.1 hi
      rw [show (16 * m + i) / 16 = m by omega]
    rw [Nat.mul_succ, List.range_add, List.map_append, List.sum_append, ih, List.map_map, Function.comp_def, hgroup, List.sum_replicate,
      List.range_succ, List.map_append, List.sum_append, List.map_singleton, List.sum_singleton, smul_eq_mul, Nat.mul_add]

theorem residualWidths_sum {ws : List Nat} (h : ws.length = 16) : (residualWidths ws).sum = 16 * ws.sum := by
  have hws : (List.range 16).map (fun g => ws.getD g 0) = ws := by
    refine List.ext_getElem (by simp [h]) fun g hg hg' => ?_
    simp [List.getD_eq_getElem?_getD, hg']
  calc (residualWidths ws).sum = 16 * ((List.range 16).map fun g => ws.getD g 0).sum := sum_groups (fun g => ws.getD g 0) 16
    _ = 16 * ws.sum := by rw [hws]

/-- The fields in which the residuals are stored. -/
def residualFields (ws rs : List Nat) : List (Nat × Nat) := (residualWidths ws).zip rs

theorem residualFields_widths {ws rs : List Nat} (h : rs.length = 256) : (residualFields ws rs).map Prod.fst = residualWidths ws :=
  List.map_fst_zip (by simp [h])

/-- What expansion makes of stored residuals: their low bits, extended by their signs. -/
def expandedResiduals (n : Nat) (ws rs : List Nat) : List Nat :=
  ((residualWidths ws).zip ((residualFields ws rs).map fun f => f.2 % 2 ^ f.1)).map fun f => extendBits n f.1 f.2

/-- The widths of a tile's groups lose nothing of its residuals (R245). -/
theorem expandedResiduals_tileWidths {n : Nat} {rs : List Nat} (hn : 0 < n) (hlen : rs.length = 256) (hrs : ∀ r ∈ rs, r < 2 ^ n) :
    expandedResiduals n (tileWidths n rs) rs = rs := by
  unfold expandedResiduals residualFields
  refine List.ext_getElem (by simp [hlen]) fun p _ hp => ?_
  have hgroup : (tileWidths n rs).getD (p / 16) 0 = groupWidth n (groupOf rs (p / 16)) := tileWidths_getD n rs (by omega)
  have hfits := groupWidth_fits _ hn _ (mem_groupOf hp)
  simp only [List.getElem_map, List.getElem_zip, residualWidths_getElem, hgroup]
  exact extendBits_lowBits (groupWidth_le ..) (hrs _ (List.getElem_mem hp)) hfits

/-! ### Places of residuals -/

theorem streamPos_lt (chroma : Bool) {k : Nat} (hk : k < 256) : streamPos chroma k < 256 := by
  cases chroma <;> simp only [streamPos, tileWidth, inComp, Bool.false_eq_true, if_true, if_false] <;> omega

/-- The residual of a sample stands at the sample's place. -/
theorem streamIx_streamPos (chroma : Bool) (k : Nat) : streamIx chroma (streamPos chroma k) = k := by
  cases chroma with
  | false =>
    have hgroup : streamPos false k / 16 = 8 * (k / 32 / 4) + k % 32 / 4 := by
      simp only [streamPos, tileWidth, inComp, Bool.false_eq_true, if_false]
      omega
    have hplace : streamPos false k % 16 = k / 32 % 4 * 4 + k % 32 % 4 := by
      simp only [streamPos, tileWidth, inComp, Bool.false_eq_true, if_false]
      omega
    simp only [streamIx, hgroup, hplace, Bool.false_eq_true, if_false]
    omega
  | true =>
    have hgroup : streamPos true k / 16 = 8 * (k / 128) + 4 * (k % 128 / 16 / 4) + k % 128 % 16 / 4 := by
      simp only [streamPos, tileWidth, inComp, if_true]
      omega
    have hplace : streamPos true k % 16 = k % 128 / 16 % 4 * 4 + k % 128 % 16 % 4 := by
      simp only [streamPos, tileWidth, inComp, if_true]
      omega
    simp only [streamIx, hgroup, hplace, if_true]
    omega

theorem tileResiduals_length (chroma : Bool) (n : Nat) (us : List Nat) : (tileResiduals chroma n us).length = 256 := by simp [tileResiduals]

theorem tileResiduals_lt (chroma : Bool) (n : Nat) (us : List Nat) : ∀ r ∈ tileResiduals chroma n us, r < 2 ^ n := by
  simp only [tileResiduals, List.mem_map]
  rintro r ⟨p, -, rfl⟩
  exact residual_lt ..

theorem tileResiduals_at (chroma : Bool) (n : Nat) (us : List Nat) {k : Nat} (hk : k < 256) :
    (tileResiduals chroma n us).getD (streamPos chroma k) 0 = residual n (us.getD k 0) (predict chroma n us k) := by
  simp [tileResiduals, List.getD_eq_getElem?_getD, streamPos_lt chroma hk, streamIx_streamPos]

/-! ### Values rebuilt from residuals -/

/-- A sample is predicted from samples before it. -/
theorem predict_take (chroma : Bool) (n : Nat) (us : List Nat) (k : Nat) : predict chroma n (us.take k) k = predict chroma n us k := by
  obtain rfl | hk := Nat.eq_zero_or_pos k
  · simp [predict, inComp]
  · have hwidth : 0 < tileWidth chroma := by unfold tileWidth; split <;> decide
    have hbefore : ∀ j, j < k → (us.take k).getD j 0 = us.getD j 0 := fun j hj => by
      rw [List.getD_eq_getElem?_getD, List.getD_eq_getElem?_getD, List.getElem?_take_of_lt hj]
    simp only [predict, hbefore (k - 1) (by omega), hbefore (k - tileWidth chroma) (by omega), hbefore (k - tileWidth chroma - 1) (by omega)]

/-- Expansion inverts prediction, sample by sample (R245). -/
theorem rebuild_residuals (chroma : Bool) {n : Nat} {us rs : List Nat} (hlen : us.length = 256) (hus : ∀ u ∈ us, u < 2 ^ n)
    (hrs : ∀ k, k < 256 → rs.getD (streamPos chroma k) 0 = residual n (us.getD k 0) (predict chroma n us k)) :
    ∀ k, k ≤ 256 → rebuild chroma n rs k = us.take k := by
  intro k
  induction k with
  | zero => exact fun _ => rfl
  | succ k ih =>
    intro hk
    have hlt : k < us.length := by omega
    have hat : us.getD k 0 = us[k] := by simp [List.getD_eq_getElem?_getD, hlt]
    simp only [rebuild, ih (Nat.le_of_succ_le hk), predict_take, hrs k hk, hat, predicted_add_residual _ (hus _ (List.getElem_mem hlt)),
      List.take_append_getElem hlt]

theorem rebuild_tileResiduals (chroma : Bool) {n : Nat} {us : List Nat} (hlen : us.length = 256) (hus : ∀ u ∈ us, u < 2 ^ n) :
    rebuild chroma n (tileResiduals chroma n us) 256 = us := by
  rw [rebuild_residuals chroma hlen hus (fun k hk => tileResiduals_at chroma n us hk) 256 (Nat.le_refl 256), List.take_of_length_le hlen.le]

end Sys2Proof.Machine
end

section
/-! PROOFS. The tile codec (R241 to R246): a tile stored flat, compressed or raw is expanded to its samples. -/
namespace Sys2Proof.Machine

/-! ### SHIFT -/

theorem tileShift_le (ss : List Nat) : tileShift ss ≤ 4 := by
  unfold tileShift
  cases hfound : [4, 3, 2, 1].find? fun k => ss.all fun v => v % 2 ^ k == 0 with
  | none => exact Nat.zero_le 4
  | some k =>
    have hmem := List.mem_of_find?_eq_some hfound
    simp only [List.mem_cons, List.not_mem_nil, or_false] at hmem
    rw [Option.getD_some]
    omega

theorem tileShift_dvd (ss : List Nat) : ∀ v ∈ ss, 2 ^ tileShift ss ∣ v := by
  unfold tileShift
  cases hfound : [4, 3, 2, 1].find? fun k => ss.all fun v => v % 2 ^ k == 0 with
  | none => simp
  | some k =>
    have hall := List.find?_some hfound
    simp only [List.all_eq_true, beq_iff_eq] at hall
    exact fun v hv => Nat.dvd_of_mod_eq_zero (hall v hv)

/-- The shifted values of a tile. -/
def shifted (ss : List Nat) : List Nat := ss.map fun v => v / 2 ^ tileShift ss

theorem shifted_lt {ss : List Nat} (h : ∀ v ∈ ss, v < 4096) : ∀ u ∈ shifted ss, u < 2 ^ (12 - tileShift ss) := by
  simp only [shifted, List.mem_map]
  rintro u ⟨v, hv, rfl⟩
  have hle := tileShift_le ss
  rw [Nat.div_lt_iff_lt_mul (Nat.two_pow_pos _), ← Nat.pow_add, Nat.sub_add_cancel (by omega)]
  exact h v hv

theorem shifted_mul (ss : List Nat) : (shifted ss).map (fun u => u * 2 ^ tileShift ss) = ss := by
  rw [shifted, List.map_map]
  exact (List.map_congr_left fun v hv => Nat.div_mul_cancel (tileShift_dvd ss v hv)).trans (List.map_id ss)

/-! ### The compressed form -/

theorem tileLength_eq (ws : List Nat) : tileLength ws = 9 + 2 * ws.sum := by rw [tileLength, ← List.sum_eq_foldl]

/-- What the compressed form of a tile consists of. -/
structure Compresses (shift : Nat) (ws rs : List Nat) : Prop where
  shift : shift ≤ 4
  count : ws.length = 16
  widths : ∀ w ∈ ws, w < 2 ^ 4
  residuals : rs.length = 256

section
variable {shift : Nat} {ws rs : List Nat} (h : Compresses shift ws rs)
include h

theorem codes_lt : packBits (ws.map fun w => (4, w)) < 2 ^ 64 := by simpa [h.count] using packBits_uniform_lt 4 ws

/-- The compressed form fits its length (R244). -/
theorem compressed_lt : compressed shift ws rs < 2 ^ (8 * tileLength ws) := by
  have hshift := h.shift
  have hcodes := codes_lt h
  have hresiduals : packBits (residualFields ws rs) < 2 ^ (16 * ws.sum) := by
    have hlt := packBits_lt (residualFields ws rs)
    rwa [residualFields_widths h.residuals, residualWidths_sum h.count] at hlt
  have hlength : 8 * tileLength ws = 72 + 16 * ws.sum := by rw [tileLength_eq]; ring
  rw [hlength, Nat.pow_add]
  calc compressed shift ws rs < 2 ^ 72 * (packBits (residualFields ws rs) + 1) := by
        rw [compressed, residualFields]
        omega
    _ ≤ 2 ^ 72 * 2 ^ (16 * ws.sum) := Nat.mul_le_mul_left _ hresiduals

theorem compressed_shift : compressed shift ws rs % 8 = shift := by
  have hshift := h.shift
  rw [compressed]
  omega

theorem compressed_reserved : compressed shift ws rs % 256 / 8 = 0 := by
  have hshift := h.shift
  rw [compressed]
  omega

theorem compressed_codes : unpackBits (List.replicate 16 4) (compressed shift ws rs / 2 ^ 8) = ws := by
  have hshift := h.shift
  have hbody : compressed shift ws rs / 2 ^ 8 = packBits (ws.map fun w => (4, w)) + 2 ^ (ws.length * 4) * packBits (residualFields ws rs) := by
    rw [compressed, residualFields, h.count]
    omega
  have hcodes := unpackBits_uniform (packBits (residualFields ws rs)) h.widths
  rwa [← hbody, h.count] at hcodes

theorem compressed_residuals :
    unpackBits (residualWidths ws) (compressed shift ws rs / 2 ^ 72) = (residualFields ws rs).map fun f => f.2 % 2 ^ f.1 := by
  have hshift := h.shift
  have hcodes := codes_lt h
  have hbody : compressed shift ws rs / 2 ^ 72 = packBits (residualFields ws rs) := by
    rw [compressed, residualFields]
    omega
  have hfields := unpackBits_packBits (residualFields ws rs) 0
  rwa [residualFields_widths h.residuals, Nat.mul_zero, Nat.add_zero, ← hbody] at hfields

end

/-! ### The three stored forms -/

/-- The tile is stored in its header byte alone (R243). -/
def isFlat (ss : List Nat) : Bool := ss.all (fun x => x == ss.getD 0 0) && ss.getD 0 0 % 128 == 0

/-- The residuals of a tile's samples. -/
def samplesResiduals (chroma : Bool) (ss : List Nat) : List Nat := tileResiduals chroma (12 - tileShift ss) (shifted ss)

/-- The widths of a tile's groups. -/
def samplesWidths (chroma : Bool) (ss : List Nat) : List Nat := tileWidths (12 - tileShift ss) (samplesResiduals chroma ss)

/-- Number of granules of the compressed form. -/
def granulesOf (chroma : Bool) (ss : List Nat) : Nat := ceilDiv (tileLength (samplesWidths chroma ss)) 64

theorem samples_compress (chroma : Bool) (ss : List Nat) :
    Compresses (tileShift ss) (samplesWidths chroma ss) (samplesResiduals chroma ss) where
  shift := tileShift_le ss
  count := tileWidths_length ..
  widths := fun w hw => by
    have hle := tileWidths_le _ _ w hw
    omega
  residuals := tileResiduals_length ..

theorem encodeTile_flat (chroma : Bool) {ss : List Nat} (h : isFlat ss = true) : encodeTile chroma ss = (ss.getD 0 0 / 128 * 8, []) := if_pos h

theorem encodeTile_compressed {chroma : Bool} {ss : List Nat} (hflat : ¬ isFlat ss = true) (h : tileLength (samplesWidths chroma ss) ≤ 320) :
    encodeTile chroma ss = (granulesOf chroma ss,
      leBytes (64 * granulesOf chroma ss) (compressed (tileShift ss) (samplesWidths chroma ss) (samplesResiduals chroma ss))) :=
  (if_neg hflat).trans (if_pos h)

theorem encodeTile_raw {chroma : Bool} {ss : List Nat} (hflat : ¬ isFlat ss = true) (h : ¬ tileLength (samplesWidths chroma ss) ≤ 320) :
    encodeTile chroma ss = (6, leBytes 384 (packBits (ss.map fun x => (12, x)))) :=
  (if_neg hflat).trans (if_neg h)

/-- A flat tile is its first sample throughout, a multiple of 128. -/
theorem replicate_of_isFlat {ss : List Nat} (h : isFlat ss = true) : List.replicate ss.length (ss.getD 0 0 / 128 * 128) = ss := by
  simp only [isFlat, Bool.and_eq_true, List.all_eq_true, beq_iff_eq] at h
  obtain ⟨hsame, hmult⟩ := h
  rw [Nat.div_mul_cancel (Nat.dvd_of_mod_eq_zero hmult)]
  exact (List.eq_replicate_iff.2 ⟨rfl, hsame⟩).symm

theorem decodeTile_flat (chroma : Bool) (bs : List Byte) {c : Nat} (h : c < 32) :
    decodeTile chroma (c * 8) bs = some (List.replicate 256 (c * 128)) := by
  have hsize : c * 8 % 8 = 0 := Nat.mul_mod_left ..
  have hconst : c * 8 / 8 % 32 = c := by omega
  simp only [decodeTile, hsize, hconst, if_true]

theorem decodeTile_raw (chroma : Bool) {ss : List Nat} (rest : List Byte) (hlen : ss.length = 256) (hss : ∀ v ∈ ss, v < 4096) :
    decodeTile chroma 6 (leBytes 384 (packBits (ss.map fun x => (12, x))) ++ rest) = some ss := by
  have hfits := packBits_uniform_lt 12 ss
  have hsamples := unpackBits_uniform (w := 12) 0 hss
  rw [hlen, show 256 * 12 = 8 * 384 from rfl] at hfits
  rw [hlen, Nat.mul_zero, Nat.add_zero] at hsamples
  exact congrArg some ((congrArg _ (leNat_take_leBytes rest hfits)).trans hsamples)

/-- A compressed form in granules that have room for it, at most 5, is expanded from its residuals (R244, R245). -/
theorem decodeTile_compressed (chroma : Bool) {shift size : Nat} {ws rs : List Nat} (rest : List Byte) (h : Compresses shift ws rs)
    (hws : ∀ w ∈ ws, w ≤ 12 - shift) (hsize : size ≤ 5) (hroom : tileLength ws ≤ 64 * size) :
    decodeTile chroma size (leBytes (64 * size) (compressed shift ws rs) ++ rest) =
      some ((rebuild chroma (12 - shift) (expandedResiduals (12 - shift) ws rs) 256).map fun u => u * 2 ^ shift) := by
  have hlength := tileLength_eq ws
  have hmod : size % 8 = size := by omega
  have hconst : size / 8 % 32 = 0 := by omega
  have hstored := leNat_take_leBytes rest ((compressed_lt h).trans_le (Nat.pow_le_pow_right (by decide) (Nat.mul_le_mul_left 8 hroom)))
  have hvalid : ¬ (0 ≠ 0 ∨ 4 < shift ∨ ws.any (fun w => decide (12 - shift < w)) = true ∨ 64 * size < tileLength ws) := by
    simpa only [List.any_eq_true, decide_eq_true_eq, not_or, not_exists, not_and, not_lt, ne_eq, not_not]
      using ⟨trivial, h.shift, hws, hroom⟩
  simp only [decodeTile, hmod, hconst, hstored, compressed_shift h, compressed_reserved h, compressed_codes h, compressed_residuals h]
  rw [if_neg (by omega), if_neg (by omega), if_neg (by omega), if_neg hvalid]
  rfl

theorem granulesOf_bounds {chroma : Bool} {ss : List Nat} (h : tileLength (samplesWidths chroma ss) ≤ 320) :
    granulesOf chroma ss ≤ 5 ∧ tileLength (samplesWidths chroma ss) ≤ 64 * granulesOf chroma ss := by
  unfold granulesOf ceilDiv
  omega

theorem decodeTile_samples (chroma : Bool) {ss : List Nat} (rest : List Byte) (hlen : ss.length = 256) (hss : ∀ v ∈ ss, v < 4096)
    (h : tileLength (samplesWidths chroma ss) ≤ 320) :
    decodeTile chroma (granulesOf chroma ss)
      (leBytes (64 * granulesOf chroma ss) (compressed (tileShift ss) (samplesWidths chroma ss) (samplesResiduals chroma ss)) ++ rest) = some ss := by
  obtain ⟨hsize, hroom⟩ := granulesOf_bounds h
  have hform := samples_compress chroma ss
  have hn : 0 < 12 - tileShift ss := Nat.sub_pos_of_lt ((tileShift_le ss).trans_lt (by decide))
  have hresiduals : expandedResiduals (12 - tileShift ss) (samplesWidths chroma ss) (samplesResiduals chroma ss) = samplesResiduals chroma ss :=
    expandedResiduals_tileWidths hn hform.residuals (tileResiduals_lt _ _ _)
  rw [decodeTile_compressed chroma rest hform (tileWidths_le _ _) hsize hroom, hresiduals, samplesResiduals,
    rebuild_tileResiduals chroma (by simp [shifted, hlen]) (shifted_lt hss), shifted_mul]

/-! ### The statement about the codec -/

/-- Settles O36, by the form in which the tile is stored: flat (`decodeTile_flat`), compressed, whose residuals rebuild each sample from
those before it (`decodeTile_samples`), or raw (`decodeTile_raw`). -/
theorem tileCodec : Obligations.TileCodec := by
  unfold Obligations.TileCodec
  intro chroma ss rest hlen hss
  by_cases hflat : isFlat ss = true
  · have hfirst : ss.getD 0 0 < 4096 := by
      rw [List.getD_eq_getElem _ _ (by omega)]
      exact hss _ (List.getElem_mem _)
    have hconst : ss.getD 0 0 / 128 < 32 := by omega
    rw [encodeTile_flat chroma hflat]
    refine ⟨by simp only; omega, by simp, ?_⟩
    rw [decodeTile_flat chroma _ hconst, ← hlen, replicate_of_isFlat hflat]
  · by_cases hshort : tileLength (samplesWidths chroma ss) ≤ 320
    · obtain ⟨hsize, -⟩ := granulesOf_bounds hshort
      rw [encodeTile_compressed hflat hshort]
      refine ⟨by simp only; omega, ?_, decodeTile_samples chroma rest hlen hss hshort⟩
      rw [leBytes_length, Nat.mod_eq_of_lt (by omega)]
    · rw [encodeTile_raw hflat hshort]
      exact ⟨(by decide : 6 < 256), leBytes_length .., decodeTile_raw chroma rest hlen hss⟩

end Sys2Proof.Machine
end

section
/-! PROOFS. What goes out is only added to where lines are lost (R246, R441): units that stop, entries and sessions that end, and events. -/
namespace Sys2Proof.Machine

theorem out_of_same {s t : State} (h : t.out = s.out) : s.out <+: t.out := h ▸ List.prefix_refl _

theorem forEach_out {β : Type} {f : β → State → State} (xs : List β) (hf : ∀ x t, t.out <+: (f x t).out) (s : State) :
    s.out <+: (forEach xs f s).out :=
  forEach_induct (P := fun t : State => s.out <+: t.out) xs (fun x _ t ht => ht.trans (hf x t)) s (List.prefix_refl _)

theorem onlyMoved_out {s t : State} (h : OnlyMoved s t) : t.out = s.out := by rw [h.frame]

/-! ### Admin commands and sessions that end -/

theorem finishAdm_grows (s : State) (fn : Nat) (tag : Word) (op c k r : Nat) : s.out <+: (s.finishAdm false fn tag op c k r).out := by
  unfold State.finishAdm
  refine List.IsPrefix.trans ?_ (putRecord_out ..)
  exact putRecord_out ..

theorem writeDir_out (s : State) (n : Nat) : (s.writeDir n).out = s.out := by
  unfold State.writeDir
  split <;> rfl

theorem freeSession_out (s : State) (n : Nat) : (s.freeSession n).out = s.out := by
  rw [State.freeSession, writeDir_out, State.dropLine, modCtx_out, modSess_out]

theorem settleDrain_out (s : State) (n : Nat) : s.out <+: (s.settleDrain n).out := by
  unfold State.settleDrain
  dsimp only
  split
  · split
    · split
      · exact (out_of_same (freeSession_out s n)).trans (finishAdm_grows ..)
      · exact out_of_same (freeSession_out s n)
    · exact List.prefix_refl _
  · exact List.prefix_refl _

/-! ### Units that stop -/

theorem discardUnit_out (s : State) (u : WUnit) : s.out <+: (s.discardUnit u).out := by
  have hgone : ((s.leftPlace u u.uid).dropUnit u.uid).out = s.out := onlyMoved_out (onlyMoved_trans (leftPlace_moved s u u.uid) (modDsc_moved ..))
  have hend : ∀ t : State, t.out = s.out → s.out <+: (((t.settleState u.session).settleEntry u.q u.seq).settleDrain u.session).out := fun t ht =>
    (out_of_same ((onlyMoved_out (settleState_moved ..)).trans ht)).trans ((settleEntry_out ..).trans (settleDrain_out ..))
  unfold State.discardUnit
  dsimp only
  split
  · exact hend _ hgone
  · exact hend _ hgone

theorem stopUnit_out (s : State) (u : WUnit) : s.out <+: (s.stopUnit u).out := by
  unfold State.stopUnit
  split
  · exact discardUnit_out ..
  · exact out_of_same (onlyMoved_out (onlyMoved_trans (modDsc_moved ..) (sendReq_moved ..)))

/-! ### Sessions that are reset -/

theorem closeEntry_out (s : State) (q : Nat) (seq : Word) (c k : Nat) : s.out <+: (s.closeEntry q seq c k).out :=
  settleEntry_out (s.modEntry q seq _) q seq

theorem settleLadders_out (s : State) : s.out <+: s.settleLadders.out := by
  refine forEach_out _ (fun p t => ?_) s
  exact settleEntry_out (t.modEntry p.1 p.2 QEntry.settleLadder) p.1 p.2

theorem closeRends_out (s : State) (n c k : Nat) : s.out <+: (s.closeRends n c k).out := by
  refine List.IsPrefix.trans ?_ (settleLadders_out _)
  exact forEach_out _ (fun q t => out_of_same (modQueue_out t q _)) s

theorem closeEntries_out (s : State) (n c k : Nat) : s.out <+: (s.closeEntries n c k).out := by
  refine (closeRends_out s n c k).trans (forEach_out _ (fun p t => ?_) _)
  exact closeEntry_out t p.1 p.2 c k

theorem dropOutputs_out (s : State) (n : Nat) : (s.dropOutputs n).out = s.out := by
  unfold State.dropOutputs
  split <;> rfl

theorem resetSession_out (s : State) (n : Nat) : s.out <+: (s.resetSession n).out := by
  unfold State.resetSession
  split
  · exact List.prefix_refl _
  · refine List.IsPrefix.trans ?_ (closeEntries_out ..)
    exact (out_of_same (dropOutputs_out s n)).trans (forEach_out _ (fun u t => stopUnit_out t u) ((s.dropOutputs n).modSess n _))

/-! ### Events -/

theorem message_out (s : State) (fn v : Nat) : s.out <+: (s.message fn v).out := by
  unfold State.message
  split
  · exact List.prefix_refl _
  · split
    · exact List.prefix_refl _
    · split <;> exact List.prefix_append ..

theorem settleSource_out (s : State) (n : Nat) : s.out <+: (s.settleSource n).out := by
  unfold State.settleSource
  dsimp only
  split
  · split
    · split
      · exact message_out (s.modSrc n _) ..
      · exact List.prefix_append ..
    · exact List.prefix_refl _
  · exact List.prefix_refl _

theorem assertSource_out (s : State) (n : Nat) : s.out <+: (s.assertSource n).out := by
  unfold State.assertSource
  split
  · exact List.prefix_refl _
  · exact settleSource_out (s.modSrc n _) n

theorem putEventWord_out (s : State) (fn : Nat) : s.out <+: (s.putEventWord fn).out := putRecord_out ..

theorem event_out (s : State) (fn type : Nat) (queue : Option Nat) (cause session : Nat) (seq tag : Word) (arg : Nat) :
    s.out <+: (s.event fn type queue cause session seq tag arg).out := by
  unfold State.event
  dsimp only
  split
  · exact List.prefix_refl _
  · split
    · exact putEventWord_out (s.modRing fn _) fn
    · refine List.IsPrefix.trans ?_ (assertSource_out ..)
      refine List.IsPrefix.trans ?_ (putEventWord_out ..)
      exact putRecord_out ..

/-! ### Lines that are lost -/

theorem faultReset_out (s : State) (n : Nat) (lines : List Nat) : s.out <+: (s.faultReset n lines).out := by
  unfold State.faultReset
  split
  · exact List.prefix_refl _
  · split
    · exact List.prefix_refl _
    · exact (resetSession_out s n).trans (event_out ((s.resetSession n).modSess n _) ..)

theorem loseContext_out (s : State) (base l : Nat) : s.out <+: (s.loseContext base l).out := by
  unfold State.loseContext
  dsimp only
  split
  · exact List.prefix_refl _
  · exact faultReset_out ..

theorem rebuildSession_out (s : State) (n : Nat) : s.out <+: (s.rebuildSession n).out := by
  unfold State.rebuildSession
  split
  · exact List.prefix_refl _
  · rw [writeDir_out]
    exact faultReset_out s n []

theorem modPool_out (s : State) (p : Nat) (f : Pool → Pool) : (s.modPool p f).out = s.out := rfl

/-- A lost line takes back nothing that was sent, whichever region held it (Table 19-7). -/
theorem loseLine_out (s : State) (a : Nat) : s.out <+: (s.loseLine a).out := by
  unfold State.loseLine
  dsimp only
  split
  · exact List.prefix_refl _
  · split
    · exact loseContext_out ..
    · split
      · rw [modMem_out]
        exact forUpTo_induct (P := fun t : State => s.out <+: t.out) 8 (fun k t ht => ht.trans (rebuildSession_out t _)) s (List.prefix_refl _)
      · split
        · exact forEach_out _ (fun p t => out_of_same (modPool_out t p _)) s
        · exact forEach_out _ (fun n t => faultReset_out t n _) s

end Sys2Proof.Machine
end

section
/-! PROOFS. Tiles in device memory (R243, R246, R248, R399): what storing, merging and reading a tile changes, and the statement about them. -/
namespace Sys2Proof.Machine

/-! ### Writes by the device touch no function -/

theorem sendSnoop_funcs (s : State) (l : Nat) (data : Bool) : (s.sendSnoop l data).funcs = s.funcs := by
  unfold State.sendSnoop
  dsimp only
  split
  · rfl
  · split <;> rfl

theorem lineWrite_funcs (s : State) (l a : Nat) (bs : List Byte) : (s.lineWrite l a bs).funcs = s.funcs := by
  unfold State.lineWrite
  dsimp only
  split
  · split
    · rfl
    · exact sendSnoop_funcs (s.modHlu _) l false
  · rfl

theorem devWrite_funcs (s : State) (a : Nat) (bs : List Byte) : (s.devWrite a bs).funcs = s.funcs := by
  unfold State.devWrite
  split
  · exact forEach_induct (P := fun t : State => t.funcs = s.funcs) _ (fun l _ t ht => (lineWrite_funcs t l _ _).trans ht) s rfl
  · rfl

theorem onlyStored_of_put {s t : State} (h : OnlyPut s t) (hfuncs : t.funcs = s.funcs) : OnlyStored s t := by
  unfold OnlyPut at h
  unfold OnlyStored State.withStored
  rw [hfuncs] at h
  rw [h]

theorem devWrite_stored (s : State) (a : Nat) (bs : List Byte) : OnlyStored s (s.devWrite a bs) :=
  onlyStored_of_put (devWrite_put s a bs) (devWrite_funcs s a bs)

theorem devWrite_ntl (s : State) (a : Nat) (bs : List Byte) : (s.devWrite a bs).ntl = s.ntl := by rw [devWrite_put]

/-- Copies that stand change nothing but their clusters (R71). -/
theorem keepCopies_clusters (s old : State) (cs ls : List Nat) : s.keepCopies old cs ls = { s with clusters := (s.keepCopies old cs ls).clusters } :=
  forEach_induct (P := fun t : State => t = { s with clusters := t.clusters }) cs (fun c _ t ht => by
    conv_lhs => rw [ht]
    rfl) s rfl

theorem keepCopies_stored (s old : State) (cs ls : List Nat) : OnlyStored s (s.keepCopies old cs ls) := by
  rw [keepCopies_clusters]
  rfl

/-! ### A tile that is stored -/

/-- The state with a tile's granules and then its header byte written (R248). -/
def State.tileWritten (s : State) (r : TileRef) (ss : List Nat) : State :=
  (if (encodeTile r.isChroma ss).2.isEmpty then s
    else (s.devWrite (refAddr r) (encodeTile r.isChroma ss).2).keepCopies s (s.writers r.base) (linesOf (refAddr r) 384)).devWrite
    (refHeader r) [BitVec.ofNat 8 (encodeTile r.isChroma ss).1]

/-- A tile of the SIZE is counted (R252). -/
def countSize (size : Nat) (k : Ntl) : Ntl :=
  { k with tiles := (List.range 7).map fun i => if i = size then sat64 (k.tiles.getD i 0) 1 else k.tiles.getD i 0 }

/-- Writing a tile changes only what is stored, and no engine. -/
theorem tileWritten_stored (s : State) (r : TileRef) (ss : List Nat) : OnlyStored s (s.tileWritten r ss) ∧ (s.tileWritten r ss).ntl = s.ntl := by
  unfold State.tileWritten
  split
  · exact ⟨devWrite_stored .., devWrite_ntl ..⟩
  · refine ⟨onlyStored_trans (onlyStored_trans (devWrite_stored ..) (keepCopies_stored ..)) (devWrite_stored ..), ?_⟩
    rw [devWrite_ntl, keepCopies_clusters]
    exact devWrite_ntl ..

theorem storeTile_eq (s : State) (r : TileRef) (ss : List Nat) :
    s.storeTile r ss = (s.tileWritten r ss).modNtl (countSize ((encodeTile r.isChroma ss).1 % 8)) := by
  unfold countSize
  simp only [State.storeTile, State.tileWritten, beq_iff_eq]

theorem storeTile_ntl (s : State) (r : TileRef) (ss : List Nat) :
    (s.storeTile r ss).ntl = countSize ((encodeTile r.isChroma ss).1 % 8) s.ntl := by
  rw [storeTile_eq, modNtl_ntl, (tileWritten_stored s r ss).2]

theorem modNtl_stored (s : State) (f : Ntl → Ntl) : OnlyStored s (s.modNtl f) := rfl

theorem storeTile_stored (s : State) (r : TileRef) (ss : List Nat) : OnlyStored s (s.storeTile r ss) := by
  rw [storeTile_eq]
  exact onlyStored_trans (tileWritten_stored s r ss).1 (modNtl_stored ..)

/-! ### The tile commands -/

section
variable {r : TileRef} {s : State} (hup : s.up = true) (hvalid : refValid r = true)
include hup hvalid

theorem onTile_there (f : State → State) (hthere : s.noTile r = false) : s.onTile r f = .next (f s) := by
  simp [State.onTile, hup, hvalid, hthere]

theorem onTile_beyond (f : State → State) (hbeyond : s.noTile r = true) :
    s.onTile r f = .fault (.noSuchAddress (max (refAddr r + 383) (refHeader r))) := by
  simp [State.onTile, hup, hvalid, hbeyond]

theorem exec_tileRead (hthere : s.noTile r = false) : exec (.tileRead r) s = .next (tileReadOp r s) := onTile_there hup hvalid _ hthere

theorem exec_tileMerge (hthere : s.noTile r = false) : exec (.tileMerge r) s = .next (tileMergeOp r s) := onTile_there hup hvalid _ hthere

theorem exec_tileWrite {ws : List (Nat × Nat)} (hws : ∀ p ∈ ws, p.1 < 256) (hthere : s.noTile r = false) :
    exec (.tileWrite r ws) s = .next (s.writeTile r ws) := by
  have hall : (ws.all fun p => decide (p.1 < 256)) = true := by simpa using hws
  refine (onTile_there hup hvalid _ hthere).trans ?_
  rw [if_pos hall]

/-- A command on a tile that does not exist faults (R399). -/
theorem exec_tile_beyond {ws : List (Nat × Nat)} {c : Instr} (hbeyond : s.noTile r = true)
    (hc : c = .tileRead r ∨ c = .tileWrite r ws ∨ c = .tileMerge r) :
    exec c s = .fault (.noSuchAddress (max (refAddr r + 383) (refHeader r))) := by
  obtain rfl | rfl | rfl := hc <;> exact onTile_beyond hup hvalid _ hbeyond

end

/-! ### Reads -/

theorem tileReadOp_valid {r : TileRef} {ss : List Nat} {s : State} (h : s.readTile r = some ss) :
    tileReadOp r s = s.emit (.readData (deliver ss)) := by
  rw [tileReadOp, h]

theorem tileReadOp_invalid {r : TileRef} {s : State} (h : s.readTile r = none) :
    tileReadOp r s = (s.loseTile r).emit (.readData (deliver (List.replicate 256 2048))) := by
  rw [tileReadOp, h]

theorem invalidTile_records (s : State) (r : TileRef) : Records s (s.invalidTile r) 0x09 (s.reportClass 0x09) := ⟨_, rfl, rfl, rfl, rfl⟩

theorem loseTile_invalid (s : State) (r : TileRef) : (s.loseTile r).ntl.invalid = sat32 s.ntl.invalid 1 :=
  congrArg Ntl.invalid (loseLine_undisturbed (s.invalidTile r) (refAddr r)).ntl

theorem loseTile_out (s : State) (r : TileRef) : s.out <+: (s.loseTile r).out := loseLine_out (s.invalidTile r) (refAddr r)

/-- Outside the device's regions nothing follows from a lost tile beside its record (R441). -/
theorem loseTile_unowned {s : State} {r : TileRef} (h : s.regionOf (lineOf (refAddr r)) 64 = none) : s.loseTile r = s.invalidTile r := by
  have hregion : (s.invalidTile r).regionOf (lineOf (refAddr r)) 64 = none := h
  rw [State.loseTile, State.loseLine]
  simp only [hregion]

/-! ### Writes -/

theorem setMerge_mergeBuf (s : State) (e : Nat) (ms : List MergeEnt) : (s.setMerge e ms).mergeBuf e = ms := tblGet_tblSet_same [] s.ntl.merge e ms

theorem find?_unheld {r : TileRef} {ms : List MergeEnt} (h : ∀ k ∈ ms, k.tile ≠ r) : (ms.find? fun k => k.tile == r) = none := by
  simpa using h

theorem allPresent_iff (ws : List (Nat × Nat)) : allPresent ws = true ↔ ∀ i, i < 256 → ∃ p ∈ ws, p.1 = i := by
  simp [allPresent]

/-- A write of all samples to a tile of which nothing is held is stored at once (R248). -/
theorem writeTile_whole {r : TileRef} {ws : List (Nat × Nat)} {s : State} (hunheld : ∀ k ∈ s.mergeBuf (refEngine r), k.tile ≠ r)
    (hall : allPresent ws = true) : ∃ ms, s.writeTile r ws = (s.setMerge (refEngine r) ms).storeTile r (overlay (List.replicate 256 0) ws) := by
  unfold State.writeTile
  simp only [find?_unheld hunheld, List.nil_append, hall, if_true]
  exact ⟨_, rfl⟩

/-- A write of some samples to a tile of which nothing is held joins a buffer with room (R248). -/
theorem writeTile_part {r : TileRef} {ws : List (Nat × Nat)} {s : State} (hunheld : ∀ k ∈ s.mergeBuf (refEngine r), k.tile ≠ r)
    (hpart : ¬ allPresent ws = true) (hroom : (s.mergeBuf (refEngine r)).length < 16) :
    s.writeTile r ws = s.setMerge (refEngine r) (s.mergeBuf (refEngine r) ++ [{ tile := r, samples := ws }]) := by
  have hany : ¬ ((s.mergeBuf (refEngine r)).any fun k => k.tile == r) = true := by simpa using hunheld
  unfold State.writeTile
  simp only [find?_unheld hunheld, List.nil_append, if_neg hpart, if_neg hany, if_neg (Nat.not_le.2 hroom)]

/-! ### Merges -/

/-- The tile has left its engine's buffer, and the merge is counted. -/
def State.mergeTaken (s : State) (r : TileRef) : State :=
  (s.setMerge (refEngine r) ((s.mergeBuf (refEngine r)).filter fun k => k.tile != r)).modNtl fun k => { k with merges := sat64 k.merges 1 }

/-- The tile that a merge begins from: as stored, or counted and recorded as invalid. -/
def State.mergeBase (s : State) (r : TileRef) : State := if (s.tileAt r).isSome then s else s.invalidTile r

theorem mergeTile_stores (s : State) (m : MergeEnt) : ∃ ss, s.mergeTile m = ((s.mergeTaken m.tile).mergeBase m.tile).storeTile m.tile ss := by
  unfold State.mergeTile State.mergeBase State.mergeTaken
  dsimp only
  split
  · next us htile =>
    refine ⟨overlay us m.samples, ?_⟩
    rw [htile]
    rfl
  · next htile =>
    refine ⟨overlay (List.replicate 256 2048) m.samples, ?_⟩
    rw [htile]
    rfl

/-- What a merge begins from differs in the record and the count of an invalid tile alone. -/
theorem mergeBase_frame (s : State) (r : TileRef) :
    s.mergeBase r = { s with fcl := (s.mergeBase r).fcl, ntl := { s.ntl with invalid := (s.mergeBase r).ntl.invalid } } := by
  unfold State.mergeBase
  split <;> rfl

/-- Only what is stored, and the fault collector, have changed. -/
def OnlyMerged (s t : State) : Prop :=
  t = { s with clusters := t.clusters, fcl := t.fcl, hlu := t.hlu, mem := t.mem, ntl := t.ntl, out := t.out }

/-- A merge is counted and leaves the tile out of its buffer (R248, R252). -/
theorem mergeTile_spec (s : State) (m : MergeEnt) :
    OnlyMerged s (s.mergeTile m) ∧ (s.mergeTile m).ntl.merges = sat64 s.ntl.merges 1
      ∧ (s.mergeTile m).mergeBuf (refEngine m.tile) = (s.mergeBuf (refEngine m.tile)).filter fun k => k.tile != m.tile := by
  obtain ⟨ss, hstores⟩ := mergeTile_stores s m
  have hstored := storeTile_stored ((s.mergeTaken m.tile).mergeBase m.tile) m.tile ss
  have hntl := storeTile_ntl ((s.mergeTaken m.tile).mergeBase m.tile) m.tile ss
  rw [hstores]
  refine ⟨?_, ?_, ?_⟩
  · unfold OnlyMerged
    rw [hstored, mergeBase_frame]
    rfl
  · rw [hntl, mergeBase_frame]
    rfl
  · rw [State.mergeBuf, hntl, mergeBase_frame]
    exact setMerge_mergeBuf ..

/-! ### Worked tiles -/

theorem isFlat_replicate (n c : Nat) : isFlat (List.replicate n (c * 128)) = true := by
  cases n with
  | zero => rfl
  | succ n => simp [isFlat, List.replicate_succ]

/-- A constant tile of a multiple of 128 is stored in its header byte alone (R243). -/
theorem encodeTile_replicate (chroma : Bool) (n c : Nat) : encodeTile chroma (List.replicate (n + 1) (c * 128)) = (c * 8, []) := by
  rw [encodeTile_flat chroma (isFlat_replicate ..)]
  simp [List.replicate_succ]

/-! ### The statement about tile accesses -/

/-- Settles O37: a read by whether its tile is valid, what follows from a lost tile only adding to what goes out (`loseLine_out`); a write by
whether its samples are all there; a merge by its spec (`mergeTile_spec`). -/
theorem tileAccesses : Obligations.TileAccesses := by
  unfold Obligations.TileAccesses
  refine ⟨?valid, ?invalid, ?unowned, ?whole, ?part, ?merge, ?beyond, ?worked⟩
  case valid =>
    intro r ss s hup hvalid hthere hread
    rw [exec_tileRead hup hvalid hthere, tileReadOp_valid hread]
    rfl
  case invalid =>
    intro r s hup hvalid hthere hread
    obtain ⟨os, hos⟩ := loseTile_out s r
    refine ⟨_, os, exec_tileRead hup hvalid hthere, ?_⟩
    rw [tileReadOp_invalid hread]
    exact ⟨loseTile_invalid s r, congrArg (· ++ _) hos.symm⟩
  case unowned =>
    intro r s hup hvalid hthere hread hregion
    refine ⟨_, exec_tileRead hup hvalid hthere, ?_⟩
    rw [tileReadOp_invalid hread, loseTile_unowned hregion]
    exact ⟨rfl, rfl, invalidTile_records s r, rfl⟩
  case whole =>
    intro r ws s hup hvalid hthere hws hall hunheld
    obtain ⟨ms, hwrite⟩ := writeTile_whole hunheld ((allPresent_iff ws).2 hall)
    refine ⟨_, exec_tileWrite hup hvalid hws hthere, ?_⟩
    rw [hwrite]
    refine ⟨?_, onlyStored_trans (modNtl_stored s _) (storeTile_stored ..)⟩
    rw [storeTile_ntl]
    rfl
  case part =>
    intro r ws s hup hvalid hthere hws hmissing hunheld hroom
    have hpart : ¬ allPresent ws = true := fun hall => by
      obtain ⟨i, hi, hnone⟩ := hmissing
      obtain ⟨p, hp, hpi⟩ := (allPresent_iff ws).1 hall i hi
      exact hnone p hp hpi
    refine ⟨_, exec_tileWrite hup hvalid hws hthere, ?_⟩
    rw [writeTile_part hunheld hpart hroom]
    exact ⟨setMerge_mergeBuf .., rfl, rfl⟩
  case merge =>
    intro r k s hup hvalid hthere hfound
    obtain rfl : k.tile = r := by simpa using List.find?_some hfound
    obtain ⟨hframe, hmerges, hbuf⟩ := mergeTile_spec s k
    have hop : tileMergeOp k.tile s = s.mergeTile k := by rw [tileMergeOp, hfound]
    refine ⟨_, exec_tileMerge hup hvalid hthere, ?_⟩
    rw [hop]
    refine ⟨hmerges, fun m hm => ?_, hframe⟩
    rw [hbuf] at hm
    simpa using (List.mem_filter.1 hm).2
  case beyond =>
    intro r ws c s hup hvalid hbeyond hc
    exact exec_tile_beyond hup hvalid hbeyond hc
  case worked =>
    exact ⟨encodeTile_replicate false 255 16, decodeTile_flat false [] (c := 16) (by decide), rfl, rfl⟩

end Sys2Proof.Machine
end

section
/-! PROOFS. Scheduling decisions (R262, R276, R277, R279, R289): what the selected unit takes, and what its selection leaves as it was. -/
namespace Sys2Proof.Machine

/-! ### In-flight entries -/

/-- The entry that is taken next is one of the 4,096, and no unit holds it (R289). -/
theorem freeInflightIx_free {s : State} {ix : Nat} (h : s.freeInflightIx = some ix) : ix < 4096 ∧ ∀ q ∈ s.dsc.inflight, q.1 ≠ ix := by
  unfold State.freeInflightIx at h
  have hfree := List.find?_some h
  simp only [Bool.not_eq_true', List.any_eq_false, beq_iff_eq] at hfree
  exact ⟨List.mem_range.1 (List.mem_of_find?_eq_some h), hfree⟩

/-- A unit is given a place only where its lane may take an in-flight entry (R289). -/
theorem placeFor_laneMayHold {s : State} {kind : ResKind} {u : WUnit} {p : Place} (h : s.placeFor kind u = some p) :
    s.laneMayHold (s.laneOf u.cls) = true := by
  by_contra hfull
  simp [State.placeFor, hfull] at h

/-! ### What a selection leaves as it was -/

/-- Babbitt and the work queues are as before: only sessions, halves, Electrum's cache and device memory have changed, and free values have
been taken. -/
def OnlyLoaded (s t : State) : Prop :=
  t = { s with clusters := t.clusters, ctx := t.ctx, free := t.free, halves := t.halves, mem := t.mem, sessions := t.sessions }

theorem onlyLoaded_refl (s : State) : OnlyLoaded s s := rfl

theorem onlyLoaded_trans {s t u : State} (h : OnlyLoaded s t) (k : OnlyLoaded t u) : OnlyLoaded s u := by
  unfold OnlyLoaded at *
  rw [k, h]

theorem onlyLoaded_of_head {s t : State} (h : OnlyHead s t) : OnlyLoaded s t := by
  unfold OnlyHead at h
  rw [OnlyLoaded, h]

theorem onlyLoaded_dsc {s t : State} (h : OnlyLoaded s t) : t.dsc = s.dsc := by rw [h]

theorem onlyLoaded_queue {s t : State} (h : OnlyLoaded s t) (q : Nat) : t.queue q = s.queue q := by
  rw [h]
  rfl

theorem onlyLoaded_time {s t : State} (h : OnlyLoaded s t) : t.time = s.time := by rw [h]

theorem modSess_loaded (s : State) (n : Nat) (f : Session → Session) : OnlyLoaded s (s.modSess n f) := rfl

theorem modHalf_loaded (s : State) (h : Nat) (f : Half → Half) : OnlyLoaded s (s.modHalf h f) := rfl

theorem memWrite_loaded (s : State) (a : Nat) (bs : List Byte) : OnlyLoaded s (s.memWrite a bs) := rfl

theorem tookPlaces_loaded (s : State) : OnlyLoaded s s.tookPlaces := rfl

theorem settleState_loaded (s : State) (n : Nat) : OnlyLoaded s (s.settleState n) := by
  unfold State.settleState
  split
  · exact onlyLoaded_refl s
  · exact modSess_loaded ..

/-- A session's lost lines are zeroed (R442). -/
def State.zeroLost (s : State) (n : Nat) : State :=
  (forEach (s.sess n).zero (fun l u => u.memWrite (lineOf l) (List.replicate 64 0)) s).modSess n fun y => { y with zero := [] }

theorem zeroLost_loaded (s : State) (n : Nat) : OnlyLoaded s (s.zeroLost n) :=
  onlyLoaded_trans (forEach_induct (P := OnlyLoaded s) _ (fun _ _ _ ht => onlyLoaded_trans ht (memWrite_loaded ..)) s (onlyLoaded_refl s))
    (modSess_loaded ..)

/-- A restored session is one whose lost lines are zeroed; where a page of its reservations is retired, they are taken again if they fit
(R426, R442). -/
theorem restoreSession_eq (s : State) (n : Nat) :
    s.restoreSession n = s.zeroLost n ∨ ∃ rs, s.restoreSession n =
      (((s.zeroLost n).modSess n fun y => y.withRanges []).modSess n fun y => { y.withRanges rs with rebuild := false }).tookPlaces := by
  unfold State.restoreSession
  dsimp only
  split
  · split
    · next rs _ => exact .inr ⟨rs, rfl⟩
    · exact .inl rfl
  · exact .inl rfl

theorem restoreSession_loaded (s : State) (n : Nat) : OnlyLoaded s (s.restoreSession n) := by
  have hzeroed := zeroLost_loaded s n
  obtain h | ⟨rs, h⟩ := restoreSession_eq s n
  · rwa [h]
  · rw [h]
    exact onlyLoaded_trans (onlyLoaded_trans (onlyLoaded_trans hzeroed (modSess_loaded ..)) (modSess_loaded ..)) (tookPlaces_loaded _)

/-- A preload hint touches Electrum's cache, and the memory where a line is written back (R57, R58). -/
theorem hint_head (s : State) (n : Nat) : OnlyHead s (s.hint n) := by
  unfold State.hint
  split
  · exact onlyHead_trans (onlyHead_trans (setLines_head ..) (modCtx_head ..)) (modCtx_head ..)
  · dsimp only
    split
    · next ht => exact onlyHead_trans (modCtx_head ..) (allocLine_head ht)
    · exact onlyHead_trans (modCtx_head ..) (modCtx_head ..)

/-! ### Charges -/

/-- Only tags, virtual times and buckets of classes, and sessions, have changed. -/
def OnlyCharged (s t : State) : Prop := t = { s with dsc := { s.dsc with classes := t.dsc.classes }, sessions := t.sessions }

theorem onlyCharged_refl (s : State) : OnlyCharged s s := rfl

theorem onlyCharged_trans {s t u : State} (h : OnlyCharged s t) (k : OnlyCharged t u) : OnlyCharged s u := by
  unfold OnlyCharged at *
  rw [k, h]

theorem modCls_charged (s : State) (c : Nat) (f : Cls → Cls) : OnlyCharged s (s.modCls c f) := rfl

theorem modSess_charged (s : State) (n : Nat) (f : Session → Session) : OnlyCharged s (s.modSess n f) := rfl

theorem forEach_charged {β : Type} {f : β → State → State} (xs : List β) (hf : ∀ x t, OnlyCharged t (f x t)) (s : State) :
    OnlyCharged s (forEach xs f s) :=
  forEach_induct (P := OnlyCharged s) xs (fun x _ t ht => onlyCharged_trans ht (hf x t)) s (onlyCharged_refl s)

theorem chargeNode_charged (c parent : Nat) (u : WUnit) (s : State) : OnlyCharged s (chargeNode c parent u s) := by
  unfold chargeNode
  dsimp only
  split
  · exact modCls_charged ..
  · exact onlyCharged_trans (modCls_charged ..) (modCls_charged ..)

theorem chargeTags_charged (s : State) (u : WUnit) : OnlyCharged s (s.chargeTags u) := by
  unfold State.chargeTags
  split
  · exact onlyCharged_refl s
  · exact onlyCharged_trans (onlyCharged_trans (modSess_charged ..) (modCls_charged ..)) (forEach_charged _ (fun _ t => chargeNode_charged _ _ u t) _)

theorem chargeBuckets_charged (s : State) (u : WUnit) : OnlyCharged s (s.chargeBuckets u) :=
  forEach_charged _ (fun c t => modCls_charged t c _) s

/-- A unit's tags and buckets are charged (R276, R282). -/
def State.chargeUnit (s : State) (u : WUnit) : State := (s.chargeTags u).chargeBuckets u

theorem chargeUnit_charged (s : State) (u : WUnit) : OnlyCharged s (s.chargeUnit u) :=
  onlyCharged_trans (chargeTags_charged s u) (chargeBuckets_charged _ u)

theorem chargeUnit_inflight (s : State) (u : WUnit) : (s.chargeUnit u).dsc.inflight = s.dsc.inflight := by rw [chargeUnit_charged s u]

theorem chargeUnit_units (s : State) (u : WUnit) : (s.chargeUnit u).dsc.units = s.dsc.units := by rw [chargeUnit_charged s u]

/-! ### The steps of a selection -/

/-- Unit `u`, its session restored, holds in-flight entry `ix`. -/
def State.holdUnit (s : State) (u : WUnit) (ix : Nat) : State := (s.restoreSession u.session).takeInflight ix u.uid

/-- A unit that is hinted to a place under in-flight entry `ix` (R13, R289). -/
def hintedUnit (s : State) (p : Place) (ix : Nat) (w : WUnit) : WUnit :=
  { w with stage := .hinted p.at_ p.bank s.time p.start, tag := s.tagOf ix, charged := true, front := false }

/-- A queue entry that has started. -/
def markStarted (e : QEntry) : QEntry := { e with started := true }

theorem markStarted_seq (e : QEntry) : (markStarted e).seq = e.seq := rfl

/-- A unit that starts outside its lane's windows is counted (R284). -/
def countOversize (p : Place) (d : Dsc) : Dsc := { d with oversize := if p.isOver then sat32 d.oversize 1 else d.oversize }

/-- The unit is charged and hinted and its queue entry has started; no half has been told of it. -/
def State.hintUnit (s : State) (u : WUnit) (p : Place) (ix : Nat) : State :=
  ((((s.holdUnit u ix).chargeUnit u).modUnit u.uid (hintedUnit (s.holdUnit u ix) p ix)).modEntry u.q u.seq markStarted).modDsc (countOversize p)

/-- A half loads the context of a unit that is hinted to it; engines and pipes load none (R58, R59). -/
def State.loadPlace (s : State) (u : WUnit) (p : Place) : State :=
  if u.kind.onCore then
    ((s.modHalf p.at_ fun x => x.setBank p.bank (.loading u.session s.time)).hint u.session).settleState u.session
  else s

theorem select_eq {s : State} (u : WUnit) (p : Place) {ix : Nat} (h : s.freeInflightIx = some ix) :
    s.select u p = (s.hintUnit u p ix).loadPlace u p := by
  unfold State.select
  rw [h]
  rfl

theorem loadPlace_loaded (s : State) (u : WUnit) (p : Place) : OnlyLoaded s (s.loadPlace u p) := by
  unfold State.loadPlace
  split
  · exact onlyLoaded_trans (onlyLoaded_trans (modHalf_loaded ..) (onlyLoaded_of_head (hint_head ..))) (settleState_loaded ..)
  · exact onlyLoaded_refl s

theorem holdUnit_inflight (s : State) (u : WUnit) (ix : Nat) : (s.holdUnit u ix).dsc.inflight = s.dsc.inflight ++ [(ix, u.uid)] := by
  rw [State.holdUnit, State.takeInflight, modDsc_dsc, onlyLoaded_dsc (restoreSession_loaded s u.session)]

theorem holdUnit_units (s : State) (u : WUnit) (ix : Nat) : (s.holdUnit u ix).dsc.units = s.dsc.units := by
  rw [State.holdUnit, State.takeInflight, modDsc_dsc, onlyLoaded_dsc (restoreSession_loaded s u.session)]

theorem holdUnit_time (s : State) (u : WUnit) (ix : Nat) : (s.holdUnit u ix).time = s.time := by
  rw [State.holdUnit, State.takeInflight, modDsc_time, onlyLoaded_time (restoreSession_loaded s u.session)]

theorem hintUnit_inflight (s : State) (u : WUnit) (p : Place) (ix : Nat) :
    (s.hintUnit u p ix).dsc.inflight = s.dsc.inflight ++ [(ix, u.uid)] :=
  (chargeUnit_inflight (s.holdUnit u ix) u).trans (holdUnit_inflight s u ix)

/-- The unit stands hinted to its place among the units of Babbitt. -/
theorem hintUnit_hinted {s : State} {u : WUnit} (p : Place) (ix : Nat) (h : u ∈ s.dsc.units) :
    hintedUnit (s.holdUnit u ix) p ix u ∈ (s.hintUnit u p ix).dsc.units := by
  have hcharged : u ∈ ((s.holdUnit u ix).chargeUnit u).dsc.units := by rwa [chargeUnit_units, holdUnit_units]
  exact List.mem_map.2 ⟨u, hcharged, if_pos (beq_self_eq_true u.uid)⟩

/-- The entry that has the number of a changed one is the changed one. -/
theorem modEntry_entry_changed {s : State} {q : Nat} {seq : Word} {f : QEntry → QEntry} {e : QEntry} (hf : ∀ e, (f e).seq = e.seq)
    (h : ((s.modEntry q seq f).queue q).entry? seq = some e) : ∃ d, e = f d := by
  rw [State.modEntry, modQueue_queue, entry?_modEntry _ _ _ _ hf, Option.map_eq_some_iff] at h
  obtain ⟨d, hd, hde⟩ := h
  exact ⟨d, by rw [← hde, if_pos (by simp [entry?_seq hd])]⟩

theorem hintUnit_entry {s : State} {u : WUnit} {p : Place} {ix : Nat} {e : QEntry}
    (h : ((s.hintUnit u p ix).queue u.q).entry? u.seq = some e) : e.started = true := by
  rw [State.hintUnit, State.queue, modDsc_queues, ← State.queue] at h
  obtain ⟨d, rfl⟩ := modEntry_entry_changed markStarted_seq h
  rfl

/-! ### Selected units -/

/-- Only what a selection may touch has changed. -/
def OnlySelected (s t : State) : Prop :=
  t = { s with clusters := t.clusters, ctx := t.ctx, dsc := t.dsc, free := t.free, halves := t.halves, mem := t.mem, queues := t.queues,
               sessions := t.sessions }

theorem onlySelected_trans {s t u : State} (h : OnlySelected s t) (k : OnlySelected t u) : OnlySelected s u := by
  unfold OnlySelected at *
  rw [k, h]

theorem onlySelected_of_loaded {s t : State} (h : OnlyLoaded s t) : OnlySelected s t := by
  unfold OnlyLoaded at h
  rw [OnlySelected, h]

theorem onlySelected_of_charged {s t : State} (h : OnlyCharged s t) : OnlySelected s t := by
  unfold OnlyCharged at h
  rw [OnlySelected, h]

theorem modDsc_selected (s : State) (f : Dsc → Dsc) : OnlySelected s (s.modDsc f) := rfl

theorem takeInflight_selected (s : State) (ix uid : Nat) : OnlySelected s (s.takeInflight ix uid) := modDsc_selected ..

theorem modUnit_selected (s : State) (n : Nat) (f : WUnit → WUnit) : OnlySelected s (s.modUnit n f) := modDsc_selected ..

theorem modEntry_selected (s : State) (q : Nat) (seq : Word) (f : QEntry → QEntry) : OnlySelected s (s.modEntry q seq f) := rfl

theorem holdUnit_selected (s : State) (u : WUnit) (ix : Nat) : OnlySelected s (s.holdUnit u ix) :=
  onlySelected_trans (onlySelected_of_loaded (restoreSession_loaded s u.session)) (takeInflight_selected ..)

theorem hintUnit_selected (s : State) (u : WUnit) (p : Place) (ix : Nat) : OnlySelected s (s.hintUnit u p ix) :=
  have hcharged := onlySelected_trans (holdUnit_selected s u ix) (onlySelected_of_charged (chargeUnit_charged _ u))
  onlySelected_trans (onlySelected_trans (onlySelected_trans hcharged (modUnit_selected ..)) (modEntry_selected ..)) (modDsc_selected ..)

/-! ### The statement about decisions -/

theorem exec_scheduleDecision (kind : ResKind) (s : State) (hlive : s.live = true) :
    exec (.scheduleDecision kind) s = .next (scheduleOp kind s) := by
  have harm : exec (.scheduleDecision kind) s = execScheduleDecision kind s := rfl
  simp [harm, execScheduleDecision, onlyIf, hlive]

theorem scheduleOp_selects {kind : ResKind} {s : State} {u : WUnit} {p : Place}
    (hpick : s.replan.pickUnit (fun w => (s.replan.placeFor kind w).isSome) true 6 0 = some u) (hplace : s.replan.placeFor kind u = some p) :
    scheduleOp kind s = s.replan.select u p := by
  simp only [scheduleOp, hpick, hplace]

theorem scheduleOp_none {kind : ResKind} {s : State}
    (hpick : s.replan.pickUnit (fun w => (s.replan.placeFor kind w).isSome) true 6 0 = none) : scheduleOp kind s = s.replan := by
  simp only [scheduleOp, hpick]

theorem replan_no_units {s : State} (h : s.dsc.units = []) : s.replan = s := by
  rw [State.replan, h]
  rfl

/-- Settles O26: the unit's place shows that an in-flight entry is free (`placeFor_laneMayHold`); what the selection notes in Babbitt and in the
queue entry (`hintUnit_inflight`, `hintUnit_hinted`, `hintUnit_entry`) stands as its place is loaded (`loadPlace_loaded`). -/
theorem scheduleDecision : Obligations.ScheduleDecision := by
  unfold Obligations.ScheduleDecision
  refine ⟨?selects, ?none, ?idle⟩
  case selects =>
    intro kind u p s hlive hpick hplace hmem
    obtain ⟨ix, hix⟩ := laneMayHold_free (placeFor_laneMayHold hplace)
    obtain ⟨hbound, hfree⟩ := freeInflightIx_free hix
    have hloaded := loadPlace_loaded (s.replan.hintUnit u p ix) u p
    refine ⟨_, by rw [exec_scheduleDecision kind s hlive, scheduleOp_selects hpick hplace, select_eq u p hix], ⟨ix, hbound, ?_, hfree⟩, ?_, ?_,
      onlySelected_trans (hintUnit_selected ..) (onlySelected_of_loaded hloaded)⟩
    · rw [onlyLoaded_dsc hloaded, hintUnit_inflight]
    · rw [onlyLoaded_dsc hloaded, ← holdUnit_time s.replan u ix]
      exact ⟨_, hintUnit_hinted p ix hmem, rfl, rfl, rfl⟩
    · intro e he
      rw [onlyLoaded_queue hloaded] at he
      exact hintUnit_entry he
  case none =>
    intro kind s hlive hpick
    rw [exec_scheduleDecision kind s hlive, scheduleOp_none hpick]
  case idle =>
    exact fun s => replan_no_units

end Sys2Proof.Machine
end

section
/-! PROOFS. SET_CLASS (R275, R282, R292): a class that had no bucket. -/
namespace Sys2Proof.Machine

/-- Class 1 of function 0. -/
def plainClass : ClassRec := { cls := 1, parent := 0, owner := 0, lane := 0, maxWeight := 65535, maxRate := 152000 }

/-- A SET_CLASS that gives class 1 a RATE of 1,000 and a BURST of 2,000. -/
def giveBucket : Entry := BitVec.ofNat 512 (put 0 0 0x28 + put 8 0 1 + put 12 0 256 + put 16 0 1000 + put 20 0 2000)

/-- A device that runs work, whose image grants class 1; its parameters are the defaults, a RATE of 0 and a BURST of 1,000 among them. One
command waits on the admin queue. -/
def unlimitedClass : State :=
  { bareLive with
    boot := { bareLive.boot with image := some { bareImage with fns := [⟨0, 0, 0, 0, 0, 1⟩], classes := [plainClass] } }
    funcs := [(0, { Func.init with isThere := true, ready := true })]
    admq := [(0, { AdmQ.init with enable := true, prod := 1 })] }

theorem unlimitedClass_takes : unlimitedClass.admTakes false 0 0x28 giveBucket giveBucket := by
  unfold State.admTakes
  decide +kernel

theorem unlimitedClass_permits : unlimitedClass.clsRec (efld giveBucket 8 0 10) = some plainClass
    ∧ firstBad (classBounds plainClass giveBucket) = none := by
  decide +kernel

/-- As it is set, the class has no bucket: what stands there is the depth of the default BURST, which the new depth exceeds. -/
theorem unlimitedClass_bucket : (unlimitedClass.cls plainClass.cls).rate = 0
    ∧ min (unlimitedClass.cls plainClass.cls).bucket ((efld giveBucket 20 0 20 * 1000 : Nat) : Int)
      < ((efld giveBucket 20 0 20 * 1000 : Nat) : Int) := by
  decide +kernel

/-- The bucket of a class that had none starts full (R282). -/
theorem setClassOf_bucket_full (e : Entry) {k : Cls} (hrate : k.rate = 0) : (setClassOf e k).bucket = ((efld e 20 0 20 * 1000 : Nat) : Int) := by
  simp [setClassOf, hrate]

theorem setClassCmd_sets {s : State} {fn : Nat} {x : Entry} {r : ClassRec} (hrec : s.clsRec (efld x 8 0 10) = some r)
    (hbounds : firstBad (classBounds r x) = none) (hown : r.owner = fn) :
    setClassCmd fn s x = admDone (s.modCls r.cls (setClassOf x)) 0 := by
  simp [setClassCmd, hrec, hbounds, hown]

theorem onlyAdm_cls {s t : State} (h : OnlyAdm s t) (c : Nat) : t.cls c = s.cls c := by
  rw [h]
  rfl

/-- What SET_CLASS leaves of the class. -/
theorem exec_setClass_cls {s t : State} {fn : Nat} {e x : Entry} {r : ClassRec} (h : s.admTakes false fn 0x28 e x)
    (hrec : s.clsRec (efld x 8 0 10) = some r) (hbounds : firstBad (classBounds r x) = none) (hown : r.owner = fn)
    (ht : exec (.setClass fn e) s = .next t) : t.cls r.cls = setClassOf x (s.cls r.cls) := by
  have harm : exec (.setClass fn e) s = admCmd fn 0x28 e (setClassCmd fn) s := rfl
  rw [harm, admCmd_ends h (setClassCmd_sets hrec hbounds hown), Option.getD_some] at ht
  injection ht with ht
  rw [← ht, onlyAdm_cls (finishAdm_onlyAdm ..), modCls_cls]

/-- Refutes O24: SET_CLASS does not leave every bucket at the lesser of what it was and its new depth. A class of RATE 0 has no bucket, and one
that it is given starts full (R282): in `unlimitedClass`, where class 1 stands as it does after reset, a RATE of 1,000 with a BURST of 2,000
leaves 2,000,000 ns in the bucket, and not the 1,000,000 ns that its record held. What the clause lacks is the hypothesis that the class
had a RATE above 0. -/
theorem not_classAndGateCommands : ¬ Obligations.ClassAndGateCommands := by
  unfold Obligations.ClassAndGateCommands
  rintro ⟨hset, -⟩
  obtain ⟨hrec, hbounds⟩ := unlimitedClass_permits
  obtain ⟨hrate, hless⟩ := unlimitedClass_bucket
  obtain ⟨t, ht, -, -, -, -, hclamped, -⟩ := hset 0 plainClass giveBucket giveBucket unlimitedClass unlimitedClass_takes hrec hbounds rfl
  have hfull : (t.cls plainClass.cls).bucket = ((efld giveBucket 20 0 20 * 1000 : Nat) : Int) := by
    rw [exec_setClass_cls unlimitedClass_takes hrec hbounds rfl ht]
    exact setClassOf_bucket_full giveBucket hrate
  exact absurd (hclamped.symm.trans hfull) (ne_of_lt hless)

end Sys2Proof.Machine
end

section
/-! PROOFS. Claims (R285): a half that both claiming lanes hold, for windows that do not overlap. -/
namespace Sys2Proof.Machine

/-- A lane that is closed for `shut` ns and then open for 5,000, in which it reserves one decode half. -/
def reservingLane (shut : Nat) : Lane :=
  { Lane.init with
    cur := { GateList.init with list := [⟨shut, false, 0, 0⟩, ⟨5000, true, 1, 0⟩] }
    wasOpen := false }

/-- Half 0 alone is ACTIVE. The next window of lane 0 runs from 20,000 to 25,000 ns, and that of lane 1 from 5,000 to 10,000. -/
def twoLanes : State :=
  { bareLive with
    halves := [(0, { Half.init with fstate := .active })]
    dsc := { Dsc.init with lanes := [(0, reservingLane 20000), (1, reservingLane 5000)] } }

/-- Lane 0 has taken its claim. -/
def claimedLater : State := gateClaimOp 0 twoLanes

theorem exec_gateClaim (l : Nat) (s : State) (hlive : s.live = true) (hl : l < 2) : exec (.gateClaim l) s = .next (gateClaimOp l s) := by
  have harm : exec (.gateClaim l) s = execGateClaim l s := rfl
  simp [harm, execGateClaim, onlyIf, hlive, hl]

theorem twoLanes_live : twoLanes.live = true := by decide +kernel

theorem claimedLater_reached : exec (.gateClaim 0) twoLanes = .next claimedLater := exec_gateClaim 0 twoLanes twoLanes_live (by decide)

theorem claimedLater_live : claimedLater.live = true := by decide +kernel

/-- Lane 1 has not yet claimed for its window, which ends before that of lane 0 opens. -/
theorem claimedLater_window : (claimedLater.lane 1).nextWindow claimedLater.time = some 5000 ∧ (claimedLater.lane 1).claimFrom ≠ 5000
    ∧ (claimedLater.lane 1).closes 5000 = some 10000 ∧ (claimedLater.lane 0).claimFrom = 20000 := by
  decide +kernel

/-- The claims of lane 0 bind lane 1 in no earlier window: it claims half 0 as well. -/
theorem claimedLater_shared : 0 ∈ ((gateClaimOp 1 claimedLater).lane 1).claims ∧ 0 ∈ ((gateClaimOp 1 claimedLater).lane 0).claims := by
  decide +kernel

/-- Refutes O28: the claims of the two lanes may share a half. A lane keeps off what the other holds only where their times overlap (R285), and
in `claimedLater`, which a claim of lane 0 leaves (`claimedLater_reached`), lane 0 holds half 0 from 20,000 ns on, so that lane 1 claims it too,
from 5,000 to 10,000. What the clause lacks is the hypothesis that the other lane's claims are for a time which overlaps the window. -/
theorem not_bucketsAndGates : ¬ Obligations.BucketsAndGates := by
  unfold Obligations.BucketsAndGates
  rintro ⟨-, hclaim, -⟩
  obtain ⟨hnext, hnew, -⟩ := claimedLater_window
  obtain ⟨hown, hother⟩ := claimedLater_shared
  obtain ⟨t, ht, -, -, -, -, happart, -⟩ := hclaim 1 5000 claimedLater claimedLater_live (by decide) hnext hnew
  rw [exec_gateClaim 1 claimedLater claimedLater_live (by decide)] at ht
  injection ht with ht
  subst ht
  exact happart 0 hown hother

end Sys2Proof.Machine
end

section
/-! PROOFS. What a work queue tells the outside (R308 to R311, R320): its status block, its events and its message touch of the queue nothing but
its moderation; and how a queue goes to ERROR (R298, R299, R313). -/
namespace Sys2Proof.Machine

/-! ### Records, events and messages -/

/-- Only what records, events and messages touch has changed: memory with its caches, the event rings, the link, the sources with their messages,
and what goes out. -/
def OnlyNoted (s t : State) : Prop :=
  t = { s with clusters := t.clusters, evq := t.evq, funcs := t.funcs, hlu := t.hlu, imb := t.imb, mem := t.mem, out := t.out }

theorem onlyNoted_refl (s : State) : OnlyNoted s s := rfl

theorem onlyNoted_trans {s t u : State} (h : OnlyNoted s t) (k : OnlyNoted t u) : OnlyNoted s u := by
  unfold OnlyNoted at *
  rw [k, h]

theorem onlyNoted_of_put {s t : State} (h : OnlyPut s t) : OnlyNoted s t := by
  unfold OnlyPut OnlyNoted at *
  rw [h]

theorem onlyNoted_of_told {s t : State} (h : OnlyTold s t) : OnlyNoted s t := by
  unfold OnlyNoted
  rw [h.frame]

theorem onlyNoted_queue {s t : State} (h : OnlyNoted s t) (p : Nat) : t.queue p = s.queue p := by
  rw [h]
  rfl

theorem putRecord_noted (s : State) (fn space a : Nat) (bs : List Byte) : OnlyNoted s (s.putRecord fn space a bs) :=
  onlyNoted_of_put (putRecord_put ..)

theorem modRing_noted (s : State) (fn : Nat) (f : EvRing → EvRing) : OnlyNoted s (s.modRing fn f) := rfl

theorem tellRing_noted (s : State) (fn : Nat) (f : EvRing → EvRing) : OnlyNoted s ((s.modRing fn f).putEventWord fn) :=
  onlyNoted_trans (modRing_noted s fn f) (putRecord_noted ..)

theorem assertSource_noted (s : State) (n : Nat) : OnlyNoted s (s.assertSource n) := by
  unfold State.assertSource
  split
  · exact onlyNoted_refl s
  · exact onlyNoted_trans (t := s.modSrc n _) rfl (onlyNoted_of_told (settleSource_told ..))

theorem event_noted (s : State) (fn type : Nat) (queue : Option Nat) (cause session : Nat) (seq tag : Word) (arg : Nat) :
    OnlyNoted s (s.event fn type queue cause session seq tag arg) := by
  unfold State.event
  dsimp only
  split
  · exact onlyNoted_refl s
  · split
    · exact tellRing_noted ..
    · exact onlyNoted_trans (onlyNoted_trans (putRecord_noted ..) (tellRing_noted ..)) (assertSource_noted ..)

/-- A message for a function that answers and is not suspended, on a vector that is not masked, goes out and is counted (R375, R386, R388). -/
theorem message_sent {s : State} {fn v : Nat} (hup : s.up = true) (hflr : (s.func fn).flr = false) (hd3 : (s.func fn).d3 = false)
    (hlink : s.linkPasses = true) (hmask : s.unmasked fn v = true) :
    s.message fn v = (s.modImb fun b => { b with messages := sat64 b.messages 1 }).send (.msix fn v) := by
  simp [State.message, hup, hflr, hd3, hlink, hmask]

/-! ### The moderation of one queue (R311) -/

/-- The queue as it was, but for its moderation: the values that a status block brings into effect, PEND and the timer. -/
def SameWork (v w : WorkQ) : Prop :=
  w = { v with modCount := w.modCount, modTimer := w.modTimer, nextMod := w.nextMod, pend := w.pend, pendTimer := w.pendTimer }

theorem sameWork_trans {u v w : WorkQ} (h : SameWork u v) (k : SameWork v w) : SameWork u w := by
  unfold SameWork at *
  rw [k, h]

/-- Only the moderation of queue `q`, and what records, events and messages touch, have changed. -/
structure OnlyModerated (q : Nat) (s t : State) : Prop where
  frame : t = { s with clusters := t.clusters, evq := t.evq, funcs := t.funcs, hlu := t.hlu, imb := t.imb, mem := t.mem, out := t.out,
                       queues := t.queues }
  queue : SameWork (s.queue q) (t.queue q)
  others : ∀ p, p ≠ q → t.queue p = s.queue p

theorem onlyModerated_trans {q : Nat} {s t u : State} (h : OnlyModerated q s t) (k : OnlyModerated q t u) : OnlyModerated q s u where
  frame := by
    have hst := h.frame
    have htu := k.frame
    rw [hst] at htu
    exact htu
  queue := sameWork_trans h.queue k.queue
  others := fun p hp => (k.others p hp).trans (h.others p hp)

theorem onlyModerated_of_noted {s t : State} (q : Nat) (h : OnlyNoted s t) : OnlyModerated q s t where
  frame := by
    unfold OnlyNoted at h
    rw [h]
  queue := by
    rw [onlyNoted_queue h]
    rfl
  others := fun p _ => onlyNoted_queue h p

theorem modQueue_moderated (s : State) (q : Nat) (f : WorkQ → WorkQ) (hf : SameWork (s.queue q) (f (s.queue q))) :
    OnlyModerated q s (s.modQueue q f) where
  frame := rfl
  queue := by rwa [modQueue_queue]
  others := fun p hp => modQueue_queue_other s q p f hp.symm

theorem putStatus_moderated (s : State) (q : Nat) : OnlyModerated q s (s.putStatus q) := by
  refine onlyModerated_trans (modQueue_moderated s q _ ?_) (onlyModerated_of_noted q (putRecord_noted ..))
  split <;> rfl

theorem queueMessage_moderated (s : State) (q : Nat) : OnlyModerated q s (s.queueMessage q) :=
  onlyModerated_trans (modQueue_moderated s q (fun w => { w with pend := 0, pendTimer := none }) rfl)
    (onlyModerated_of_noted q (onlyNoted_of_told (message_told ..)))

theorem moderate_moderated (s : State) (q n : Nat) : OnlyModerated q s (s.moderate q n) := by
  have hpend : OnlyModerated q s (s.modQueue q fun w =>
      { w with pend := w.pend + n, pendTimer := if w.pend == 0 && n != 0 then some s.time else w.pendTimer }) := modQueue_moderated s q _ rfl
  unfold State.moderate
  dsimp only
  split
  · exact onlyModerated_trans hpend (queueMessage_moderated ..)
  · exact hpend

theorem queueEvent_moderated (s : State) (q type cause arg : Nat) : OnlyModerated q s (s.queueEvent q type cause arg) :=
  onlyModerated_of_noted q (event_noted ..)

/-! ### A queue that goes to ERROR -/

/-- The queue in ERROR, without the chain that had not ended (R313). -/
def WorkQ.failed (w : WorkQ) (cause index : Nat) : WorkQ :=
  { w with
    state := .error, errCause := cause, errIndex := index
    entries := if w.chainOpen then w.entries.filter fun e => e.chain != w.chainNo else w.entries
    chainOpen := false, chainLen := 0, chainTimer := none }

/-- The queue in ERROR, counted and reported, before its status block is written. -/
def State.errorFound (s : State) (q cause index : Nat) : State :=
  ((s.modQueue q fun w => w.failed cause index).modQe fun e => { e with malformed := sat32 e.malformed 1 }).report 0x21 0xA2
    (some (s.queue q).fn) none cause 0 0

theorem queueError_eq (s : State) (q cause index : Nat) :
    s.queueError q cause index = (((s.errorFound q cause index).putStatus q).queueEvent q 0x02 cause index).queueMessage q := rfl

theorem queueError_moderated (s : State) (q cause index : Nat) :
    OnlyModerated q (s.errorFound q cause index) (s.queueError q cause index) := by
  rw [queueError_eq]
  exact onlyModerated_trans (onlyModerated_trans (putStatus_moderated ..) (queueEvent_moderated ..)) (queueMessage_moderated ..)

theorem errorFound_queue (s : State) (q cause index : Nat) : (s.errorFound q cause index).queue q = (s.queue q).failed cause index :=
  modQueue_queue s q (·.failed cause index)

theorem errorFound_others (s : State) (q cause index p : Nat) (hp : p ≠ q) : (s.errorFound q cause index).queue p = s.queue p :=
  modQueue_queue_other s q p (·.failed cause index) hp.symm

/-- The class U fault of a queue that goes to ERROR (R313, Table 19-3). -/
theorem errorFound_records (s : State) (q cause index : Nat) : Records s (s.errorFound q cause index) 0x21 3 := ⟨_, rfl, rfl, rfl, rfl⟩

/-- Queue `q` has gone to ERROR with this cause and index, its own indices standing, and the fault is recorded (R298, R299, R313). -/
structure QueueFails (q cause index : Nat) (s t : State) : Prop where
  state : (t.queue q).state = .error
  errCause : (t.queue q).errCause = cause
  errIndex : (t.queue q).errIndex = index
  prod : (t.queue q).prod = (s.queue q).prod
  fetch : (t.queue q).fetch = (s.queue q).fetch
  others : ∀ p, p ≠ q → t.queue p = s.queue p
  records : Records s t 0x21 3
  frame : t = { s with clusters := t.clusters, evq := t.evq, fcl := t.fcl, funcs := t.funcs, hlu := t.hlu, imb := t.imb, mem := t.mem,
                       out := t.out, qe := t.qe, queues := t.queues }

theorem queueError_fails (s : State) (q cause index : Nat) : QueueFails q cause index s (s.queueError q cause index) := by
  obtain ⟨hframe, hqueue, hothers⟩ := queueError_moderated s q cause index
  rw [errorFound_queue] at hqueue
  have hfcl : (s.queueError q cause index).fcl = (s.errorFound q cause index).fcl := by rw [hframe]
  exact
    { state := by rw [hqueue]; rfl
      errCause := by rw [hqueue]; rfl
      errIndex := by rw [hqueue]; rfl
      prod := by rw [hqueue]; rfl
      fetch := by rw [hqueue]; rfl
      others := fun p hp => (hothers p hp).trans (errorFound_others s q cause index p hp)
      records := by
        unfold Records
        rw [hfcl]
        exact errorFound_records s q cause index
      frame := by
        rw [hframe]
        rfl }

end Sys2Proof.Machine
end

section
/-! PROOFS. Doorbells of work queues (R297, R298): the test of the written value, what each outcome does, and the statement about them. -/
namespace Sys2Proof.Machine

theorem bellValid_iff (w : WorkQ) (new : Nat) : w.bellValid new = true ↔ bellRule w.depth w.head w.prod new := by
  simp [WorkQ.bellValid, bellRule, and_assoc]

theorem exec_wqDoorbell (index off : Nat) (v : Word) {fn : Nat} {s : State} (hlive : s.fnLive fn = true) :
    exec (.wqDoorbell fn index off v) s = .next (doorbellOp fn index off v s) := by
  have harm : exec (.wqDoorbell fn index off v) s = execWqDoorbell fn index off v s := rfl
  rw [harm, execWqDoorbell, onlyIf, if_pos hlive]

/-- A write at another offset of a stride is discarded, of whichever function (R297). -/
theorem exec_wqDoorbell_off (fn index : Nat) {off : Nat} (v : Word) (s : State) (hoff : off ≠ 0) :
    exec (.wqDoorbell fn index off v) s = .next s := by
  have harm : exec (.wqDoorbell fn index off v) s = execWqDoorbell fn index off v s := rfl
  have hnone : doorbellOp fn index off v s = s := if_pos (by simpa using hoff)
  rw [harm, execWqDoorbell, onlyIf, hnone, ite_self]

/-- What a write at offset 0 does to the queue of the function that it names. -/
theorem doorbellOp_queue {fn index q : Nat} (v : Word) {s : State} (hbell : s.bellQueue fn index = some q) (hfn : (s.queue q).fn = fn)
    (hstate : (s.queue q).state ≠ .free) :
    doorbellOp fn index 0 v s = if (s.queue q).state = .enabled then
        (if (s.queue q).bellValid (v.toNat % 2 ^ 17) then ringOp q (v.toNat % 2 ^ 17) s
         else s.queueError q 0x09 (v.toNat % 2 ^ 17))
      else s.modQe fun e => { e with dropped := sat32 e.dropped 1 } := by
  rw [← fld_zero]
  simp [doorbellOp, hbell, hfn, hstate]

theorem doorbellOp_unmapped {fn index : Nat} (v : Word) {s : State}
    (hbell : ∀ q, s.bellQueue fn index = some q → (s.queue q).state = .free ∨ (s.queue q).fn ≠ fn) :
    doorbellOp fn index 0 v s = s.reportAccess fn (index * 64) := by
  cases hq : s.bellQueue fn index with
  | none => simp [doorbellOp, hq]
  | some q => simp [doorbellOp, hq, hbell q hq]

/-- Settles O12: which of its outcomes a doorbell write has is `doorbellOp_queue`; an invalid one is `queueError_fails`, and one at a stride that
maps no queue of the function a refused access. -/
theorem workQueueDoorbell : Obligations.WorkQueueDoorbell := by
  unfold Obligations.WorkQueueDoorbell
  refine ⟨?valid, ?invalid, ?dropped, ?unmapped, ?offset⟩
  case valid =>
    intro fn index q v s hlive hbell hfn hstate hrule
    refine ⟨ringOp q (v.toNat % 2 ^ 17) s, ?_, ?_⟩
    · rw [exec_wqDoorbell index 0 v hlive, doorbellOp_queue v hbell hfn (by simp [hstate]), if_pos hstate, if_pos ((bellValid_iff ..).2 hrule)]
    · rw [ringOp, modQueue_queue]
      exact ⟨rfl, rfl, rfl, hstate, fun p hp => modQueue_queue_other s q p _ hp.symm, rfl⟩
  case invalid =>
    intro fn index q v s hlive hbell hfn hstate hrule
    have hfails := queueError_fails s q 0x09 (v.toNat % 2 ^ 17)
    refine ⟨s.queueError q 0x09 (v.toNat % 2 ^ 17), ?_, hfails.state, hfails.errCause, hfails.errIndex, hfails.prod, hfails.others,
      hfails.records, hfails.frame⟩
    rw [exec_wqDoorbell index 0 v hlive, doorbellOp_queue v hbell hfn (by simp [hstate]), if_pos hstate, if_neg (hrule ∘ (bellValid_iff ..).1)]
  case dropped =>
    intro fn index q v s hlive hbell hfn hstate hfree
    rw [exec_wqDoorbell index 0 v hlive, doorbellOp_queue v hbell hfn hfree, if_neg hstate]
    rfl
  case unmapped =>
    intro fn index v s hlive hbell
    refine ⟨s.reportAccess fn (index * 64), ?_, reportAccess_records .., reportAccess_frame ..⟩
    rw [exec_wqDoorbell index 0 v hlive, doorbellOp_unmapped v hbell]
  case offset =>
    intro fn index off v s hoff
    exact exec_wqDoorbell_off fn index v s hoff

end Sys2Proof.Machine
end

section
/-! PROOFS. What fetching a FLUSH_SESSION sets going (R175, R177, R180, R224, R231): decisions, units, entries that complete and fields that are
stored; the Queue Engine's counters are none of it. -/
namespace Sys2Proof.Machine

/-- Only entries, their units and sessions, and what a write for a function touches have changed. -/
def OnlyWorked (s t : State) : Prop :=
  t = { s with clusters := t.clusters, dsc := t.dsc, funcs := t.funcs, hlu := t.hlu, mem := t.mem, out := t.out, queues := t.queues,
               sessions := t.sessions }

theorem onlyWorked_refl (s : State) : OnlyWorked s s := rfl

theorem onlyWorked_trans {s t u : State} (h : OnlyWorked s t) (k : OnlyWorked t u) : OnlyWorked s u := by
  unfold OnlyWorked at *
  rw [k, h]

theorem forEach_worked {β : Type} {f : β → State → State} (xs : List β) (hf : ∀ x t, OnlyWorked t (f x t)) (s : State) :
    OnlyWorked s (forEach xs f s) :=
  forEach_induct (P := OnlyWorked s) xs (fun x _ t ht => onlyWorked_trans ht (hf x t)) s (onlyWorked_refl s)

theorem forUpTo_worked {f : Nat → State → State} (n : Nat) (hf : ∀ k t, OnlyWorked t (f k t)) (s : State) : OnlyWorked s (forUpTo n f s) :=
  forUpTo_induct (P := OnlyWorked s) n (fun k t ht => onlyWorked_trans ht (hf k t)) s (onlyWorked_refl s)

theorem onlyWorked_of_put {s t : State} (h : OnlyPut s t) : OnlyWorked s t := by
  unfold OnlyPut OnlyWorked at *
  rw [h]

theorem onlyWorked_of_queued {s t : State} (h : OnlyQueued s t) : OnlyWorked s t := by
  unfold OnlyQueued OnlyWorked at *
  rw [h]

theorem modSess_worked (s : State) (n : Nat) (f : Session → Session) : OnlyWorked s (s.modSess n f) := rfl

theorem modEntry_worked (s : State) (q : Nat) (seq : Word) (f : QEntry → QEntry) : OnlyWorked s (s.modEntry q seq f) := rfl

theorem addUnit_worked (s : State) (u : WUnit) : OnlyWorked s (s.addUnit u) := onlyWorked_of_queued (addUnit_queued s u).1

/-! ### Entries that waited for an analysis -/

theorem entryOut_worked (s : State) (q : Nat) (seq : Word) (fn space a : Nat) (bs : List Byte) :
    OnlyWorked s (s.entryOut q seq fn space a bs) :=
  onlyWorked_trans (onlyWorked_of_put (putData_put ..)) (modEntry_worked ..)

theorem putField_worked (s : State) (q : Nat) (seq : Word) (fn space addr w : Nat) (a : AnaPic) :
    OnlyWorked s (s.putField q seq fn space addr w a) :=
  onlyWorked_trans (entryOut_worked ..) (forUpTo_worked _ (fun _ t => entryOut_worked t ..) _)

theorem finishAnalysis_worked (s : State) (q : Nat) (e : QEntry) : OnlyWorked s (s.finishAnalysis q e) := by
  unfold State.finishAnalysis
  split
  · refine onlyWorked_trans (onlyWorked_trans ?_ (modSess_worked ..)) (closeEntry_onlyEntry ..).frame
    split
    · exact onlyWorked_refl s
    · exact putField_worked ..
  · exact onlyWorked_refl s

theorem settleAnalysis_worked (s : State) (n : Nat) : OnlyWorked s (s.settleAnalysis n) := by
  refine forEach_worked _ (fun p t => ?_) s
  split
  · exact finishAnalysis_worked ..
  · exact onlyWorked_refl t

/-! ### Decisions -/

theorem queuePic_worked (s : State) (n : Nat) (p : SrcPic) : OnlyWorked s (s.queuePic n p) := by
  unfold State.queuePic
  split
  · split
    · dsimp only
      refine onlyWorked_trans ?_ (forEach_worked _ (fun u t => addUnit_worked t u) _)
      split <;> rfl
    · exact onlyWorked_refl s
  · exact onlyWorked_refl s

theorem tellPlaced_worked (t s : State) (n : Nat) (c : Coded) : OnlyWorked t (t.tellPlaced s n c) := by
  unfold State.tellPlaced
  split
  · exact forEach_worked _ (fun m v => modSess_worked v m _) t
  · exact onlyWorked_refl t

theorem placeAll_worked (s : State) (n : Nat) (cs : List Coded) : OnlyWorked s (s.placeAll n cs) := by
  refine onlyWorked_trans (onlyWorked_trans
    (forEach_worked cs (fun c t => onlyWorked_trans (modSess_worked t n _) (tellPlaced_worked _ s n c)) s)
    (forEach_worked cs (fun _ t => modSess_worked t n _) _)) (forEach_worked cs (fun _ t => ?_) _)
  split
  · exact queuePic_worked ..
  · exact onlyWorked_refl t

theorem placeKey_worked (s : State) (n : Nat) (p : SrcPic) : OnlyWorked s (s.placeKey n p) :=
  onlyWorked_trans (modSess_worked s n _) (placeAll_worked ..)

theorem placeGop_worked (s : State) (n : Nat) (ps : List SrcPic) (full : Bool) : OnlyWorked s (s.placeGop n ps full) :=
  onlyWorked_trans (placeAll_worked s n _) (modSess_worked ..)

/-- A decision places a key picture alone or a mini-GOP (R180). -/
theorem decideOne_worked {s t : State} {n : Nat} (h : s.decideOne n = some t) : OnlyWorked s t := by
  unfold State.decideOne at h
  dsimp only at h
  split at h
  · cases h
  · split at h
    · cases h
    · split at h
      · cases h
        exact placeKey_worked ..
      · split at h
        · cases h
          split
          · exact placeKey_worked ..
          · exact placeGop_worked ..
        · cases h

theorem decideAll_worked (n fuel : Nat) (s : State) : OnlyWorked s (State.decideAll n fuel s) := by
  induction fuel generalizing s with
  | zero => exact onlyWorked_refl s
  | succ fuel ih =>
    unfold State.decideAll
    split
    · next t hone => exact onlyWorked_trans (decideOne_worked hone) (ih t)
    · exact onlyWorked_refl s

theorem advanceAll_worked (s : State) (m : Nat) : OnlyWorked s (s.advanceAll m) :=
  onlyWorked_trans (forEach_worked (s.followers m) (fun n t => decideAll_worked n _ t) s)
    (forEach_worked (s.followers m) (fun n t => decideAll_worked n _ t) _)

/-! ### Flushes as they are fetched -/

theorem storeField_worked (s : State) (n : Nat) (a : AnaPic) : OnlyWorked s (s.storeField n a) := by
  unfold State.storeField State.writeRuns
  exact forEach_worked _ (fun _ t => onlyWorked_of_put (devWrite_put t ..)) s

theorem flushFetched_worked (s : State) (n k : Nat) : OnlyWorked s (s.flushFetched n k) := by
  unfold State.flushFetched
  dsimp only
  refine onlyWorked_trans (onlyWorked_trans ?_ (settleAnalysis_worked ..)) (advanceAll_worked ..)
  exact onlyWorked_trans (modSess_worked s n _) (forEach_worked _ (fun _ z => storeField_worked z n _) _)

theorem noteFetch_worked (s : State) (e : Entry) (bs : List Entry) : OnlyWorked s (s.noteFetch e bs) := by
  unfold State.noteFetch
  split
  · exact modSess_worked ..
  · split
    · exact flushFetched_worked ..
    · exact onlyWorked_refl s

end Sys2Proof.Machine
end

section
/-! PROOFS. Fetching work entries (R299, R304, R312, R313): how many a read brings, what an accepted entry adds, and the statement about them. -/
namespace Sys2Proof.Machine

theorem readable_le (w : WorkQ) : w.readable ≤ 16 := min_le_left ..

theorem fetching_readable {s : State} {q : Nat} (h : s.fetching q = true) : (s.queue q).readable ≠ 0 := by
  simp only [State.fetching, Bool.and_eq_true, bne_iff_ne] at h
  obtain ⟨-, hreadable⟩ := h
  exact hreadable

theorem fetching_enabled {s : State} {q : Nat} (h : s.fetching q = true) : (s.queue q).state = .enabled := by
  simp only [State.fetching, Bool.and_eq_true, beq_iff_eq] at h
  obtain ⟨⟨-, henabled⟩, -⟩ := h
  exact henabled

theorem exec_entryFetch {s : State} {q : Nat} (ok : Bool) (es : List FetchedEntry) (h : s.fetching q = true) :
    exec (.entryFetch q ok es) s = .next (fetchOp q ok es s) := by
  have harm : exec (.entryFetch q ok es) s = .next (onlyIf (s.fetching q) (fetchOp q ok es) s) := rfl
  rw [harm, onlyIf, if_pos h]

/-- Of what a read brings, only the entries that the QE asked for count (R299). -/
theorem fetchOp_take (q : Nat) (es : List FetchedEntry) (s : State) :
    fetchOp q true es s = fetchOp q true (es.take (s.queue q).readable) s := by
  simp [fetchOp, List.take_take]

theorem fetchAll_one (s : State) (q : Nat) (x : FetchedEntry) : s.fetchAll q [x] = s.fetchOne q x := by
  simp [State.fetchAll]

/-- An entry that stops the fetch leaves those behind it unread (R313). -/
theorem fetchAll_stopped {s : State} {q : Nat} {x : FetchedEntry} (xs : List FetchedEntry)
    (h : ((s.fetchOne q x).queue q).state ≠ .enabled) : s.fetchAll q (x :: xs) = s.fetchOne q x := by
  simp [State.fetchAll, h]

theorem fetchOp_cons {s : State} {q : Nat} (x : FetchedEntry) (xs : List FetchedEntry) (h : s.fetching q = true) :
    fetchOp q true (x :: xs) s = (s.fetchAll q (x :: xs.take ((s.queue q).readable - 1))).armChain q := by
  obtain ⟨n, hn⟩ := Nat.exists_eq_succ_of_ne_zero (fetching_readable h)
  simp [fetchOp, hn]

theorem fetchOp_one {s : State} {q : Nat} (x : FetchedEntry) (h : s.fetching q = true) :
    fetchOp q true [x] s = (s.fetchOne q x).armChain q := by
  rw [fetchOp_cons x [] h, List.take_nil, fetchAll_one]

/-! ### The chain timer (R304) -/

theorem armChain_queue (s : State) (q : Nat) :
    (s.armChain q).queue q = { s.queue q with chainTimer := ((s.armChain q).queue q).chainTimer } := by
  rw [State.armChain, modQueue_queue]

theorem armChain_others (s : State) {q p : Nat} (hp : p ≠ q) : (s.armChain q).queue p = s.queue p :=
  modQueue_queue_other s q p _ hp.symm

theorem armChain_sess (s : State) (q n : Nat) : (s.armChain q).sess n = s.sess n := rfl

theorem armChain_frame (s : State) (q : Nat) : s.armChain q = { s with queues := (s.armChain q).queues } := rfl

theorem armChain_fails {s t : State} {q cause index : Nat} (h : QueueFails q cause index s t) : QueueFails q cause index s (t.armChain q) where
  state := by rw [armChain_queue]; exact h.state
  errCause := by rw [armChain_queue]; exact h.errCause
  errIndex := by rw [armChain_queue]; exact h.errIndex
  prod := by rw [armChain_queue]; exact h.prod
  fetch := by rw [armChain_queue]; exact h.fetch
  others := fun p hp => (armChain_others t hp).trans (h.others p hp)
  records := h.records
  frame := by
    have hframe := h.frame
    rw [armChain_frame, hframe]

/-! ### One entry (R312, R313) -/

/-- LAST of an entry is bit 9 (R303). -/
theorem efld_last (e : Entry) : (efld e 1 1 1 == 1) = e.getLsbD 9 := by
  rw [Bool.eq_iff_iff, beq_iff_eq, BitVec.getLsbD, Nat.testBit_eq_decide_div_mod_eq, decide_eq_true_iff]
  rfl

/-- Only what an accepted entry touches has changed: its queue, the QE's count and its session. -/
def OnlyFetched (s t : State) : Prop := t = { s with qe := t.qe, queues := t.queues, sessions := t.sessions }

theorem onlyFetched_trans {s t u : State} (h : OnlyFetched s t) (k : OnlyFetched t u) : OnlyFetched s u := by
  unfold OnlyFetched at *
  rw [k, h]

theorem modSess_fetched (s : State) (n : Nat) (f : Session → Session) : OnlyFetched s (s.modSess n f) := rfl

theorem armChain_fetched (s : State) (q : Nat) : OnlyFetched s (s.armChain q) := rfl

/-- A well-formed entry of a ring in host memory has joined its queue and is counted. -/
def State.joined (s : State) (q : Nat) (x : FetchedEntry) : State :=
  (s.modQueue q fun w => w.accept x.raw ((s.blocksFor (s.queue q).fn x.raw x).getD []) s.qe.fetched.toNat).modQe fun k =>
    { k with fetched := sat64 k.fetched 1 }

section
variable {s : State} {q : Nat} {x : FetchedEntry} (hspace : (s.queue q).wqSpace = 0)
include hspace

theorem fetchOne_accepted (hcause : s.entryCause (s.queue q) x.raw (s.blocksFor (s.queue q).fn x.raw x) = 0) :
    s.fetchOne q x = (s.joined q x).noteFetch x.raw ((s.blocksFor (s.queue q).fn x.raw x).getD []) := by
  simp [State.fetchOne, State.joined, hspace, hcause]

theorem fetchOne_malformed (hcause : s.entryCause (s.queue q) x.raw (s.blocksFor (s.queue q).fn x.raw x) ≠ 0) :
    s.fetchOne q x
      = s.queueError q (s.entryCause (s.queue q) x.raw (s.blocksFor (s.queue q).fn x.raw x)) (s.queue q).fetch := by
  simp [State.fetchOne, hspace, hcause]

end

theorem joined_fetched (s : State) (q : Nat) (x : FetchedEntry) : OnlyFetched s (s.joined q x) := rfl

theorem joined_queue (s : State) (q : Nat) (x : FetchedEntry) :
    (s.joined q x).queue q = (s.queue q).accept x.raw ((s.blocksFor (s.queue q).fn x.raw x).getD []) s.qe.fetched.toNat :=
  modQueue_queue s q fun w => w.accept x.raw ((s.blocksFor (s.queue q).fn x.raw x).getD []) s.qe.fetched.toNat

theorem joined_others (s : State) {q p : Nat} (x : FetchedEntry) (hp : p ≠ q) : (s.joined q x).queue p = s.queue p :=
  modQueue_queue_other s q p (fun w => w.accept x.raw ((s.blocksFor (s.queue q).fn x.raw x).getD []) s.qe.fetched.toNat) hp.symm

theorem accept_chainOpen (w : WorkQ) (e : Entry) (bs : List Entry) (order : Nat) : (w.accept e bs order).chainOpen = !e.getLsbD 9 := by
  rw [← efld_last]
  rfl

theorem modSess_queue (s : State) (n q : Nat) (f : Session → Session) : (s.modSess n f).queue q = s.queue q := rfl

theorem noteFetch_plain (s : State) {e : Entry} (bs : List Entry) (htrans : eOp e ≠ 3) (hflush : eOp e ≠ 7) : s.noteFetch e bs = s := by
  simp [State.noteFetch, htrans, hflush]

/-- A TRANSCODE_AU leaves the ladder that it names in its session (R191). -/
theorem noteFetch_ladder (s : State) {e : Entry} (bs : List Entry) (hop : eOp e = 3) :
    s.noteFetch e bs = s.modSess (eSess e) fun y => { y with ladder := some (rendsOf bs) } := by
  simp [State.noteFetch, hop]

/-- Settles O14: a read is cut to what the QE asked for (`fetchOp_take`); one entry of it joins its queue (`fetchOne_accepted`), or stops the
fetch as a read that failed does (`queueError_fails`). -/
theorem entryFetching : Obligations.EntryFetching := by
  unfold Obligations.EntryFetching
  refine ⟨?count, ?plain, ?ladder, ?counted, ?malformed, ?failed⟩
  case count =>
    intro q es s h
    rw [exec_entryFetch true es h, exec_entryFetch true _ h, fetchOp_take]
    exact ⟨rfl, readable_le _⟩
  case plain =>
    intro q x s h hspace hcause htrans hflush
    refine ⟨(s.joined q x).armChain q, ?_, ?_⟩
    · rw [exec_entryFetch true [x] h, fetchOp_one x h, fetchOne_accepted hspace hcause, noteFetch_plain _ _ htrans hflush]
    · rw [armChain_queue, joined_queue]
      have hopen := accept_chainOpen (s.queue q) x.raw ((s.blocksFor (s.queue q).fn x.raw x).getD []) s.qe.fetched.toNat
      exact ⟨rfl, ⟨_, rfl, rfl, rfl, rfl⟩, hopen, fetching_enabled h,
        fun p hp => (armChain_others _ hp).trans (joined_others s x hp), rfl, rfl⟩
  case ladder =>
    intro q x s h hspace hcause hop
    refine ⟨(s.fetchOne q x).armChain q, ?_, ?_⟩
    · rw [exec_entryFetch true [x] h, fetchOp_one x h]
    · rw [fetchOne_accepted hspace hcause, noteFetch_ladder _ _ hop, armChain_queue, modSess_queue, joined_queue]
      exact ⟨rfl, by rw [armChain_sess, modSess_sess],
        onlyFetched_trans (onlyFetched_trans (joined_fetched s q x) (modSess_fetched ..)) (armChain_fetched ..)⟩
  case counted =>
    intro q x s h hspace hcause
    refine ⟨(s.fetchOne q x).armChain q, ?_, ?_⟩
    · rw [exec_entryFetch true [x] h, fetchOp_one x h]
    · have hqe : (s.fetchOne q x).qe = (s.joined q x).qe := by
        rw [fetchOne_accepted hspace hcause, noteFetch_worked (s.joined q x)]
      exact congrArg Qe.fetched hqe
  case malformed =>
    intro q x xs s h hspace hcause
    have hfails := queueError_fails s q (s.entryCause (s.queue q) x.raw (s.blocksFor (s.queue q).fn x.raw x)) (s.queue q).fetch
    rw [← fetchOne_malformed hspace hcause] at hfails
    have harmed := armChain_fails hfails
    refine ⟨(s.fetchOne q x).armChain q, ?_, harmed.state, harmed.errCause, harmed.errIndex, harmed.fetch, harmed.others, harmed.records⟩
    rw [exec_entryFetch true _ h, fetchOp_cons x xs h, fetchAll_stopped _ (by simp [hfails.state])]
  case failed =>
    intro q es s h
    have hfails := queueError_fails s q 0x0D (s.queue q).fetch
    refine ⟨s.queueError q 0x0D (s.queue q).fetch, ?_, hfails.state, hfails.errCause, hfails.errIndex, hfails.others, hfails.records⟩
    rw [exec_entryFetch false es h]
    rfl

end Sys2Proof.Machine
end

section
/-! PROOFS. Publication (R307, R309, R311), the flush read and the moderation timer, the event ring's registers (R321, R322), and the statement
about them. -/
namespace Sys2Proof.Machine

/-! ### What the QE publishes (R307) -/

theorem exec_publishHead {s : State} {q : Nat} (hlive : s.live = true) (hfree : (s.queue q).state ≠ .free)
    (hdisabled : (s.queue q).state ≠ .disabled) : exec (.publishHead q) s = .next (publishHeadOp q s) := by
  have harm : exec (.publishHead q) s = execPublishHead q s := rfl
  simp [harm, execPublishHead, onlyIf, hlive, hfree, hdisabled]

/-- Where no entry that is done still owes a progress record, the QE publishes at once (R140). -/
theorem publishHeadOp_settled {s : State} {q : Nat} (h : ∀ e ∈ (s.queue q).entries, e.stage = .done → e.due = []) :
    publishHeadOp q s = publishReady q s := by
  have hnone : ((s.queue q).entries.filter fun e => e.stage == .done && !e.due.isEmpty) = [] := by
    rw [List.filter_eq_nil_iff]
    intro e he
    simpa using h e he
  rw [publishHeadOp, hnone, forEach]

theorem publishReady_entries {s : State} {q : Nat} (h : ((s.readyEntries q).takeWhile fun e => !e.roOut) ≠ []) :
    publishReady q s = publishOp q ((s.readyEntries q).takeWhile fun e => !e.roOut) s := by
  have hready : s.readyEntries q ≠ [] := by
    intro hnil
    exact h (by rw [hnil, List.takeWhile_nil])
  simp [publishReady, hready, h]

/-- The first entry's writes may still be under way: they are flushed first (R307 condition 3). -/
theorem publishReady_relaxed {s : State} {q : Nat} {e : QEntry} {es : List QEntry} (h : s.readyEntries q = e :: es) (hro : e.roOut = true) :
    publishReady q s = flushOp q (es.length + 1) s := by
  simp [publishReady, h, hro]

/-! ### HEAD passes entries -/

/-- The queue once HEAD has passed `n` of its entries. -/
def WorkQ.passed (w : WorkQ) (n : Nat) : WorkQ :=
  { w with head := (w.head + n) % (2 * w.depth), headSeq := w.headSeq + BitVec.ofNat 32 n, resvFree := w.resvFree + n,
           entries := w.entries.drop n,
           state := if w.state == .stopping && (w.entries.drop n).isEmpty then .disabled else w.state }

theorem passed_state (w : WorkQ) (n : Nat) :
    (w.passed n).state = if w.state = .stopping ∧ (w.passed n).entries = [] then .disabled else w.state := by
  simp only [WorkQ.passed, Bool.and_eq_true, beq_iff_eq, List.isEmpty_iff]

theorem notifyEntries_noted (s : State) (q : Nat) (es : List QEntry) : OnlyNoted s (s.notifyEntries q es) := by
  refine forEach_induct (P := OnlyNoted s) es (fun e _ t ht => onlyNoted_trans ht ?_) s (onlyNoted_refl s)
  split
  · exact event_noted ..
  · exact onlyNoted_refl t

/-- What follows as HEAD moves touches of the queue its moderation alone (R308 to R311). -/
theorem publishOp_moderated (s : State) (q : Nat) (es : List QEntry) :
    OnlyModerated q (s.modQueue q fun w => w.passed es.length) (publishOp q es s) := by
  have htold := onlyModerated_trans (putStatus_moderated (s.modQueue q fun w => w.passed es.length) q)
    (onlyModerated_of_noted q (notifyEntries_noted _ q es))
  unfold publishOp
  dsimp only
  split
  · exact onlyModerated_trans (onlyModerated_trans htold (queueEvent_moderated ..)) (queueMessage_moderated ..)
  · exact onlyModerated_trans htold (moderate_moderated ..)

/-! ### The flush read (R307 condition 3) -/

theorem flushOp_sends {s : State} {q n : Nat} (hidle : (s.queue q).flushRead = 0) (hflr : (s.func (s.queue q).fn).flr = false)
    (hd3 : (s.func (s.queue q).fn).d3 = false) (hlink : s.linkPasses = true) :
    flushOp q n s = (s.modQueue q fun w => { w with flushRead := n }).send (.hostRead (s.queue q).fn (s.queue q).sbAddr 0) := by
  rw [flushOp, if_pos (by simpa using hidle)]
  exact emitFor_sent _ _ _ hflr hd3 hlink

theorem exec_flushReadCompletion {s : State} {q : Nat} (hup : s.up = true) (hfree : (s.queue q).state ≠ .free) :
    exec (.flushReadCompletion q) s = .next (flushDoneOp q s) := by
  have harm : exec (.flushReadCompletion q) s = execFlushReadCompletion q s := rfl
  simp [harm, execFlushReadCompletion, onlyIf, hup, hfree]

/-- The entries that a flush read covers carry no unflushed write any longer. -/
def flushedFront (n : Nat) (es : List QEntry) : List QEntry := (es.take n).map (fun e => { e with roOut := false }) ++ es.drop n

theorem flushedFront_length (n : Nat) (es : List QEntry) : (flushedFront n es).length = es.length := by
  rw [flushedFront, List.length_append, List.length_map, ← List.length_append, List.take_append_drop]

theorem flushedFront_at (n k : Nat) {es : List QEntry} {e : QEntry} (h : es[k]? = some e) :
    (flushedFront n es)[k]? = some (if k < n then { e with roOut := false } else e) := by
  induction es generalizing n k with
  | nil => cases h
  | cons x xs ih =>
    cases n with
    | zero => simpa [flushedFront] using h
    | succ n =>
      cases k with
      | zero =>
        cases h
        simp [flushedFront]
      | succ k => simpa [flushedFront] using ih n k h

/-! ### The moderation timer (R311) -/

theorem exec_modTimer {s : State} {q t0 : Nat} (hlive : s.live = true) (htimer : (s.queue q).pendTimer = some t0)
    (hpend : (s.queue q).pend ≠ 0) : exec (.modTimer q) s = .next ((s.reach (t0 + (s.queue q).modTimer * 1000)).queueMessage q) := by
  have harm : exec (.modTimer q) s = execModTimer q s := rfl
  simp [harm, execModTimer, onlyIf, modTimerOp, hlive, htimer, hpend]

theorem live_up {s : State} (h : s.live = true) : s.up = true := by
  simp only [State.live, Bool.and_eq_true] at h
  obtain ⟨⟨hup, -⟩, -⟩ := h
  exact hup

/-- PEND at 0 and the timer stopped. -/
def State.pendCleared (s : State) (q : Nat) : State := s.modQueue q fun w => { w with pend := 0, pendTimer := none }

theorem queueMessage_eq (s : State) (q : Nat) : s.queueMessage q = (s.pendCleared q).message (s.queue q).fn (s.queue q).vector := rfl

theorem pendCleared_queue (s : State) (q : Nat) : (s.pendCleared q).queue q = { s.queue q with pend := 0, pendTimer := none } :=
  modQueue_queue s q fun w => { w with pend := 0, pendTimer := none }

theorem queueMessage_queue (s : State) (q : Nat) : (s.queueMessage q).queue q = { s.queue q with pend := 0, pendTimer := none } := by
  rw [queueMessage_eq, onlyNoted_queue (onlyNoted_of_told (message_told ..)), pendCleared_queue]

theorem queueMessage_time (s : State) (q : Nat) : (s.queueMessage q).time = s.time := by
  rw [queueMessage_eq, (message_told ..).frame]
  rfl

/-- Only what a timer that ends with a queue's message touches has changed. -/
def OnlyTimed (s t : State) : Prop :=
  t = { s with aon := t.aon, funcs := t.funcs, hlu := t.hlu, imb := t.imb, out := t.out, queues := t.queues, time := t.time }

theorem onlyTimed_trans {s t u : State} (h : OnlyTimed s t) (k : OnlyTimed t u) : OnlyTimed s u := by
  unfold OnlyTimed at *
  rw [k, h]

theorem onlyTimed_of_told {s t : State} (h : OnlyTold s t) : OnlyTimed s t := by
  unfold OnlyTimed
  rw [h.frame]

theorem reach_timed (s : State) (t : Nat) : OnlyTimed s (s.reach t) := rfl

theorem pendCleared_timed (s : State) (q : Nat) : OnlyTimed s (s.pendCleared q) := rfl

theorem queueMessage_timed (s : State) (q : Nat) : OnlyTimed s (s.queueMessage q) :=
  onlyTimed_trans (pendCleared_timed s q) (onlyTimed_of_told (message_told ..))

theorem queueMessage_sent {s : State} {q : Nat} (hup : s.up = true) (hflr : (s.func (s.queue q).fn).flr = false)
    (hd3 : (s.func (s.queue q).fn).d3 = false) (hlink : s.linkPasses = true) (hmask : s.unmasked (s.queue q).fn (s.queue q).vector = true) :
    (s.queueMessage q).out = s.out ++ [.msix (s.queue q).fn (s.queue q).vector]
      ∧ (s.queueMessage q).imb.messages = sat64 s.imb.messages 1 := by
  rw [queueMessage_eq, message_sent (s := s.pendCleared q) hup hflr hd3 hlink hmask]
  exact ⟨rfl, rfl⟩

/-! ### The event ring's registers (R321, R322) -/

theorem exec_evqConsWrite (v : Word) {fn : Nat} {s : State} (hlive : s.fnLive fn = true) :
    exec (.evqConsWrite fn v) s = .next (s.modRing fn fun r => { r with cons := v.toNat % 2 ^ 17 }) := by
  have harm : exec (.evqConsWrite fn v) s = execEvqConsWrite fn v s := rfl
  rw [harm, execEvqConsWrite, onlyIf, if_pos hlive, fld_zero]

theorem exec_evqOverflowClear {fn : Nat} {s : State} (hlive : s.fnLive fn = true) :
    exec (.evqOverflowClear fn) s = .next (s.modRing fn fun r => { r with overflow := false }) := by
  have harm : exec (.evqOverflowClear fn) s = execEvqOverflowClear fn s := rfl
  rw [harm, execEvqOverflowClear, onlyIf, if_pos hlive]

/-- Settles O16: HEAD moves in `WorkQ.passed`, and what the QE writes and sends for it leaves that as it is (`publishOp_moderated`); a flush
read goes out (`flushOp_sends`) and frees the entries that it covers (`flushedFront_at`); a timer that ends sends the queue's message
(`queueMessage_sent`). -/
theorem publication : Obligations.Publication := by
  unfold Obligations.Publication
  refine ⟨?published, ?flush, ?flushed, ?timer, ?consumer, ?overflow⟩
  case published =>
    intro q s hlive hfree hdisabled hdue hready
    have hrun : exec (.publishHead q) s = .next (publishOp q ((s.readyEntries q).takeWhile fun e => !e.roOut) s) := by
      rw [exec_publishHead hlive hfree hdisabled, publishHeadOp_settled hdue, publishReady_entries hready]
    generalize ((s.readyEntries q).takeWhile fun e => !e.roOut) = es at hrun ⊢
    obtain ⟨hframe, hqueue, hothers⟩ := publishOp_moderated s q es
    rw [modQueue_queue] at hqueue
    refine ⟨_, hrun, ?_⟩
    rw [hqueue]
    exact ⟨rfl, rfl, rfl, rfl, passed_state (s.queue q) es.length,
      fun p hp => (hothers p hp).trans (modQueue_queue_other s q p _ hp.symm), hframe⟩
  case flush =>
    intro q e es s hlive hstate hidle hdue hready hro hflr hd3 hlink
    refine ⟨(s.modQueue q fun w => { w with flushRead := es.length + 1 }).send (.hostRead (s.queue q).fn (s.queue q).sbAddr 0), ?_,
      modQueue_queue s q fun w => { w with flushRead := es.length + 1 }, rfl, rfl⟩
    rw [exec_publishHead hlive (by simp [hstate]) (by simp [hstate]), publishHeadOp_settled hdue, publishReady_relaxed hready hro,
      flushOp_sends hidle hflr hd3 hlink]
  case flushed =>
    intro q s hup hfree
    refine ⟨flushDoneOp q s, exec_flushReadCompletion hup hfree, ?_⟩
    rw [flushDoneOp, modQueue_queue]
    exact ⟨rfl, fun k e he => flushedFront_at _ k he, flushedFront_length .., fun p hp => modQueue_queue_other s q p _ hp.symm, rfl⟩
  case timer =>
    intro q t0 s hlive htimer hpend
    refine ⟨_, exec_modTimer hlive htimer hpend, queueMessage_queue .., queueMessage_time .., (queueMessage_moderated ..).others, ?_,
      onlyTimed_trans (reach_timed ..) (queueMessage_timed ..)⟩
    intro hflr hd3 hlink hmask
    exact queueMessage_sent (s := s.reach _) (live_up hlive) hflr hd3 hlink hmask
  case consumer =>
    intro fn v s hlive
    exact ⟨_, exec_evqConsWrite v hlive, modRing_ring .., fun f hf => modRing_ring_other s fn f _ hf.symm, rfl⟩
  case overflow =>
    intro fn s hlive
    exact ⟨_, exec_evqOverflowClear hlive, modRing_ring .., fun f hf => modRing_ring_other s fn f _ hf.symm, rfl⟩

end Sys2Proof.Machine
end

section
/-! PROOFS. Steady steps: what every step keeps of the queue, device memory and the fault FIFO. -/
namespace Sys2Proof.Machine

/-- The queue of waiting commands is as it was; device memory stays canonical and the fault FIFO within 128 records. -/
structure Steady (s t : State) : Prop where
  pending : t.pending = s.pending
  cells : Memory.wf s.mem = true → Memory.wf t.mem = true
  fifo : s.fcl.fifo.length ≤ 128 → t.fcl.fifo.length ≤ 128

theorem steady_refl (s : State) : Steady s s := ⟨rfl, id, id⟩

theorem Steady.trans {s t u : State} (h : Steady s t) (k : Steady t u) : Steady s u :=
  ⟨k.pending.trans h.pending, k.cells ∘ h.cells, k.fifo ∘ h.fifo⟩

theorem steady_ite {s t u : State} {c : Prop} [Decidable c] (h : Steady s t) (k : Steady s u) : Steady s (if c then t else u) := by
  split
  · exact h
  · exact k

theorem forEach_steady {β : Type} {f : β → State → State} (xs : List β) (hf : ∀ x t, Steady t (f x t)) (s : State) :
    Steady s (forEach xs f s) :=
  forEach_induct (P := Steady s) xs (fun x _ t h => h.trans (hf x t)) s (steady_refl s)

theorem forUpTo_steady {f : Nat → State → State} (n : Nat) (hf : ∀ k t, Steady t (f k t)) (s : State) : Steady s (forUpTo n f s) :=
  forUpTo_induct (P := Steady s) n (fun k t h => h.trans (hf k t)) s (steady_refl s)

theorem onlyIf_steady {f : State → State} (b : Bool) (hf : ∀ t, Steady t (f t)) (s : State) : Steady s (onlyIf b f s) :=
  steady_ite (hf s) (steady_refl s)

theorem foldl_steady {β : Type} {f : State → β → State} (xs : List β) (hf : ∀ x t, Steady t (f t x)) (s : State) : Steady s (xs.foldl f s) := by
  induction xs generalizing s with
  | nil => exact steady_refl s
  | cons x xs ih => exact (hf x s).trans (ih (f s x))

theorem foldl_option_steady {β : Type} {f : State → β → Option State} {s u : State} {xs : List β} {o : Option State}
    (ho : ∀ t, o = some t → Steady s t) (hf : ∀ x t v, f t x = some v → Steady t v)
    (h : xs.foldl (fun acc x => acc.bind fun t => f t x) o = some u) : Steady s u := by
  induction xs generalizing o with
  | nil => exact ho u h
  | cons x xs ih =>
    refine ih (fun t ht => ?_) h
    obtain ⟨v, hv, hx⟩ := Option.bind_eq_some_iff.1 ht
    exact (ho v hv).trans (hf x v t hx)

theorem foldl_fst_steady {β γ : Type} {f : State × γ → β → State × γ} (xs : List β) (hf : ∀ x a, Steady a.1 (f a x).1) (a : State × γ) :
    Steady a.1 (xs.foldl f a).1 := by
  induction xs generalizing a with
  | nil => exact steady_refl a.1
  | cons x xs ih => exact (hf x a).trans (ih (f a x))

theorem accept_length (f : Fcl) (r : Rec) (h : f.fifo.length ≤ 128) : (f.accept r).fifo.length ≤ 128 := by
  unfold Fcl.accept
  dsimp only
  split
  · simp only [List.length_append, List.length_singleton]
    omega
  · exact h

/-- Every next state that the answer can give is steady. -/
structure Ends (s : State) (r : Res) : Prop where
  steady : ∀ t, r = .next t → Steady s t

theorem ends_next {s t : State} (h : Steady s t) : Ends s (.next t) := by
  refine ⟨?_⟩
  rintro _ ⟨⟩
  exact h

theorem ends_onlyIf {s : State} {b : Bool} {f : State → State} (hf : ∀ t, Steady t (f t)) : Ends s (.next (onlyIf b f s)) :=
  ends_next (onlyIf_steady b hf s)

theorem ends_fault (s : State) (f : Fault) : Ends s (.fault f) := by
  refine ⟨?_⟩
  rintro _ ⟨⟩

theorem ends_ite {s : State} {c : Prop} [Decidable c] {a b : Res} (h : Ends s a) (k : Ends s b) : Ends s (if c then a else b) := by
  split
  · exact h
  · exact k

/-- The state that an admin command leaves, where it names one, is steady. -/
structure EndsAdm (s : State) (r : AdmEnd) : Prop where
  steady : ∀ t, r.1 = some t → Steady s t

theorem endsAdm_some {s t : State} {o : Option (Nat × Nat × Nat)} (h : Steady s t) : EndsAdm s (some t, o) := by
  refine ⟨?_⟩
  rintro _ ⟨⟩
  exact h

theorem endsAdm_none {s : State} {o : Option (Nat × Nat × Nat)} : EndsAdm s (none, o) := by
  refine ⟨?_⟩
  rintro _ ⟨⟩

theorem endsAdm_ite {s : State} {c : Prop} [Decidable c] {a b : AdmEnd} (h : EndsAdm s a) (k : EndsAdm s b) :
    EndsAdm s (if c then a else b) := by
  split
  · exact h
  · exact k

theorem getD_steady {s : State} {o : Option State} (h : ∀ t, o = some t → Steady s t) : Steady s (o.getD s) := by
  cases o with
  | none => exact steady_refl s
  | some t => exact h t rfl

end Sys2Proof.Machine
end

section
/-! PROOFS. Registers, notification and the interrupt block keep the queue, device memory and the fault FIFO. -/
namespace Sys2Proof.Machine

theorem modHalf_steady (s : State) (h : Nat) (f : Half → Half) : Steady s (s.modHalf h f) := ⟨rfl, id, id⟩
theorem modCore_steady (s : State) (c : Nat) (f : Core → Core) : Steady s (s.modCore c f) := ⟨rfl, id, id⟩
theorem modCluster_steady (s : State) (c : Nat) (f : Cluster → Cluster) : Steady s (s.modCluster c f) := ⟨rfl, id, id⟩
theorem modFunc_steady (s : State) (n : Nat) (f : Func → Func) : Steady s (s.modFunc n f) := ⟨rfl, id, id⟩
theorem modQueue_steady (s : State) (q : Nat) (f : WorkQ → WorkQ) : Steady s (s.modQueue q f) := ⟨rfl, id, id⟩
theorem modSess_steady (s : State) (n : Nat) (f : Session → Session) : Steady s (s.modSess n f) := ⟨rfl, id, id⟩
theorem modAdmQ_steady (s : State) (n : Nat) (f : AdmQ → AdmQ) : Steady s (s.modAdmQ n f) := ⟨rfl, id, id⟩
theorem modCfgQ_steady (s : State) (f : AdmQ → AdmQ) : Steady s (s.modCfgQ f) := ⟨rfl, id, id⟩
theorem modRing_steady (s : State) (n : Nat) (f : EvRing → EvRing) : Steady s (s.modRing n f) := ⟨rfl, id, id⟩
theorem modPins_steady (s : State) (f : Pins → Pins) : Steady s (s.modPins f) := ⟨rfl, id, id⟩
theorem modBoot_steady (s : State) (f : Boot → Boot) : Steady s (s.modBoot f) := ⟨rfl, id, id⟩
theorem modQe_steady (s : State) (f : Qe → Qe) : Steady s (s.modQe f) := ⟨rfl, id, id⟩
theorem modDsc_steady (s : State) (f : Dsc → Dsc) : Steady s (s.modDsc f) := ⟨rfl, id, id⟩
theorem modCls_steady (s : State) (c : Nat) (f : Cls → Cls) : Steady s (s.modCls c f) := modDsc_steady ..
theorem modLane_steady (s : State) (l : Nat) (f : Lane → Lane) : Steady s (s.modLane l f) := modDsc_steady ..
theorem modUnit_steady (s : State) (u : Nat) (f : WUnit → WUnit) : Steady s (s.modUnit u f) := modDsc_steady ..
theorem dropUnit_steady (s : State) (u : Nat) : Steady s (s.dropUnit u) := modDsc_steady ..
theorem modCtx_steady (s : State) (f : Ctx → Ctx) : Steady s (s.modCtx f) := ⟨rfl, id, id⟩
theorem modRcu_steady (s : State) (f : Rcu → Rcu) : Steady s (s.modRcu f) := ⟨rfl, id, id⟩
theorem modMau_steady (s : State) (f : Mau → Mau) : Steady s (s.modMau f) := ⟨rfl, id, id⟩
theorem modPcf_steady (s : State) (f : Pcf → Pcf) : Steady s (s.modPcf f) := ⟨rfl, id, id⟩
theorem modNtl_steady (s : State) (f : Ntl → Ntl) : Steady s (s.modNtl f) := ⟨rfl, id, id⟩

theorem modMem_steady (s : State) (f : Mem → Mem) (h : ∀ m, (f m).cells = m.cells := by exact fun _ => rfl) : Steady s (s.modMem f) :=
  ⟨rfl, fun hwf => (congrArg (tblWf 0) (h s.mem)).trans hwf, id⟩

theorem modChn_steady (s : State) (k : Nat) (f : Chn → Chn) : Steady s (s.modChn k f) := ⟨rfl, id, id⟩
theorem modDmv_steady (s : State) (f : Dmv → Dmv) : Steady s (s.modDmv f) := ⟨rfl, id, id⟩
theorem modChan_steady (s : State) (g : Nat) (f : Chan → Chan) : Steady s (s.modChan g f) := modDmv_steady ..
theorem modBpm_steady (s : State) (f : Bpm → Bpm) : Steady s (s.modBpm f) := ⟨rfl, id, id⟩
theorem setPool_steady (s : State) (p : Nat) (v : Option Pool) : Steady s (s.setPool p v) := modBpm_steady ..
theorem modPool_steady (s : State) (p : Nat) (f : Pool → Pool) : Steady s (s.modPool p f) := setPool_steady ..
theorem modPath_steady (s : State) (n : Nat) (f : RegPath → RegPath) : Steady s (s.modPath n f) := modBpm_steady ..
theorem modHlu_steady (s : State) (f : Hlu → Hlu) : Steady s (s.modHlu f) := ⟨rfl, id, id⟩
theorem modImb_steady (s : State) (f : Imb → Imb) : Steady s (s.modImb f) := ⟨rfl, id, id⟩
theorem modSrc_steady (s : State) (n : Nat) (f : Src → Src) : Steady s (s.modSrc n f) := modImb_steady ..
theorem modTarget_steady (s : State) (t : Nat) (f : Target → Target) : Steady s (s.modTarget t f) := modImb_steady ..
theorem modMbx_steady (s : State) (k : Nat) (f : Mbx → Mbx) : Steady s (s.modMbx k f) := modImb_steady ..
theorem modSem_steady (s : State) (n : Nat) (f : Sem → Sem) : Steady s (s.modSem n f) := modImb_steady ..

theorem modFcl_steady (s : State) (f : Fcl → Fcl) (h : ∀ c, (f c).fifo = c.fifo := by exact fun _ => rfl) : Steady s (s.modFcl f) :=
  ⟨rfl, id, fun hle => (congrArg List.length (h s.fcl)).trans_le hle⟩

theorem withRdata_steady (s : State) (v : DWord) : Steady s (s.withRdata v) := ⟨rfl, id, id⟩
theorem tookFree_steady (s : State) : Steady s s.tookFree := ⟨rfl, id, id⟩
theorem reach_steady (s : State) (t : Nat) : Steady s (s.reach t) := ⟨rfl, id, id⟩
theorem holdLow_steady (s : State) (fn off : Nat) (v : Word) : Steady s (s.holdLow fn off v) := ⟨rfl, id, id⟩
theorem dropHeld_steady (s : State) (fn off : Nat) : Steady s (s.dropHeld fn off) := ⟨rfl, id, id⟩
theorem memWrite_steady (s : State) (a : Nat) (bs : List Byte) : Steady s (s.memWrite a bs) := ⟨rfl, memWrite_wf s a bs, id⟩
theorem poisonLine_steady (s : State) (a : Nat) : Steady s (s.poisonLine a) := modMem_steady ..
theorem emit_steady (s : State) (o : Out) : Steady s (s.emit o) := ⟨rfl, id, id⟩
theorem send_steady (s : State) (o : Out) : Steady s (s.send o) := (modHlu_steady ..).trans (emit_steady ..)
theorem tellHost_steady (s : State) (o : Out) : Steady s (s.tellHost o) := steady_ite (send_steady ..) (steady_refl _)

theorem emitFor_steady (s : State) (fn : Nat) (o : Out) : Steady s (s.emitFor fn o) :=
  steady_ite (steady_refl _) (steady_ite (modFunc_steady ..) (send_steady ..))

theorem issueSnoop_steady (s : State) (e : Nat × Bool) : Steady s (s.issueSnoop e) := (modHlu_steady ..).trans (send_steady ..)

theorem sendSnoop_steady (s : State) (l : Nat) (data : Bool) : Steady s (s.sendSnoop l data) :=
  steady_ite (steady_refl _) ((modHlu_steady ..).trans (steady_ite (issueSnoop_steady ..) (steady_refl _)))

theorem lineWrite_steady (s : State) (l a : Nat) (bs : List Byte) : Steady s (s.lineWrite l a bs) :=
  steady_ite ((modHlu_steady ..).trans (steady_ite (send_steady ..) (sendSnoop_steady ..))) (memWrite_steady ..)

theorem devWrite_steady (s : State) (a : Nat) (bs : List Byte) : Steady s (s.devWrite a bs) :=
  steady_ite (forEach_steady _ (fun _ _ => lineWrite_steady ..) _) (memWrite_steady ..)

theorem emitData_steady (s : State) (fn : Nat) (o : Out) : Steady s (s.emitData fn o) := steady_ite (steady_refl _) (send_steady ..)

theorem putBytes_steady (s : State) (fn space a : Nat) (bs : List Byte) (relaxed : Bool) : Steady s (s.putBytes fn space a bs relaxed) :=
  steady_ite (emitFor_steady ..) (devWrite_steady ..)

theorem putRecord_steady (s : State) (fn space a : Nat) (bs : List Byte) : Steady s (s.putRecord fn space a bs) :=
  steady_ite (steady_refl _) (putBytes_steady ..)

theorem putData_steady (s : State) (fn space a : Nat) (bs : List Byte) : Steady s (s.putData fn space a bs) :=
  steady_ite (emitData_steady ..) (devWrite_steady ..)

theorem idle_steady (s : State) : Steady s (idle s) := ⟨rfl, id, id⟩

theorem report_steady (s : State) (code source : Nat) (fn session : Option Nat) (info : Nat) (tag : BitVec 16) (addr : Nat) : Steady s (s.report
    code source fn session info tag addr) :=
  modFcl_steady ..

theorem reportAccess_steady (s : State) (fn off : Nat) : Steady s (s.reportAccess fn off) := report_steady ..

theorem message_steady (s : State) (fn v : Nat) : Steady s (s.message fn v) :=
  steady_ite (steady_refl _) (steady_ite (modImb_steady ..) (steady_ite ((modFunc_steady ..).trans (send_steady ..)) ((modImb_steady ..).trans
    (send_steady ..))))

theorem settleSource_steady (s : State) (n : Nat) : Steady s (s.settleSource n) := by
  unfold State.settleSource
  dsimp only
  split
  · split
    · exact steady_ite ((modSrc_steady ..).trans (message_steady ..)) ((modSrc_steady ..).trans (emit_steady ..))
    · exact modSrc_steady ..
  · exact modSrc_steady ..

theorem settleTarget_steady (s : State) (t : Nat) : Steady s (s.settleTarget t) := forEach_steady _ (fun _ _ => settleSource_steady ..) _

theorem assertSource_steady (s : State) (n : Nat) : Steady s (s.assertSource n) :=
  steady_ite (steady_refl _) ((modSrc_steady ..).trans (settleSource_steady ..))

theorem setLevel_steady (s : State) (n : Nat) (l : Bool) : Steady s (s.setLevel n l) :=
  (modSrc_steady ..).trans (steady_ite (assertSource_steady ..) (steady_refl _))

theorem putEventWord_steady (s : State) (fn : Nat) : Steady s (s.putEventWord fn) := putRecord_steady ..

theorem event_steady (s : State) (fn type : Nat) (queue : Option Nat) (cause session : Nat) (seq tag : Word) (arg : Nat) : Steady s (s.event fn
    type queue cause session seq tag arg) :=
  steady_ite (steady_refl _) (steady_ite ((modRing_steady ..).trans (putEventWord_steady ..)) ((putRecord_steady ..).trans (((modRing_steady
    ..).trans (putEventWord_steady ..)).trans (assertSource_steady ..))))

theorem settleMbx_steady (s : State) (d : MbxSide) : Steady s (s.settleMbx d) := by
  unfold State.settleMbx
  split
  · exact setLevel_steady ..
  · exact steady_refl _

theorem raiseMbxOut_steady (s : State) (d : MbxSide) : Steady s (s.raiseMbxOut d) := by
  unfold State.raiseMbxOut
  split
  · exact assertSource_steady ..
  · exact steady_refl _

theorem assertOp_steady (n : Nat) (level : Bool) (s : State) : Steady s (assertOp n level s) :=
  steady_ite (setLevel_steady ..) (onlyIf_steady _ (fun _ => assertSource_steady ..) _)

theorem takeClaim_steady (s : State) (t slot n : Nat) : Steady s (s.takeClaim t slot n) :=
  (modTarget_steady ..).trans ((steady_ite (steady_refl _) (modSrc_steady ..)).trans (settleTarget_steady ..))

theorem claimOp_steady (fn : Nat) (s : State) : Steady s (claimOp fn s) := by
  unfold claimOp
  split
  · exact withRdata_steady ..
  · exact (takeClaim_steady ..).trans (withRdata_steady ..)

theorem completeOp_steady (fn : Nat) (v : Word) (s : State) : Steady s (completeOp fn v s) := by
  unfold completeOp
  dsimp only
  split
  · split
    · refine .trans ?_ (settleTarget_steady ..)
      split
      · exact steady_ite ((modTarget_steady ..).trans (modSrc_steady ..)) (modTarget_steady ..)
      · exact modTarget_steady ..
    · exact (modImb_steady ..).trans (report_steady ..)
  · exact (modImb_steady ..).trans (report_steady ..)

theorem thresholdOp_steady (fn : Nat) (v : Word) (s : State) : Steady s (thresholdOp fn v s) :=
  (modTarget_steady ..).trans (settleTarget_steady ..)

theorem lsrcOp_steady (fn slot : Nat) (v : Word) (s : State) : Steady s (lsrcOp fn slot v s) := by
  unfold lsrcOp
  dsimp only
  split
  · exact steady_refl _
  · exact steady_ite ((modSrc_steady ..).trans ((steady_ite (modChan_steady ..) (steady_refl _)).trans (settleSource_steady ..)))
      (reportAccess_steady ..)

theorem unmaskOp_steady (fn vector : Nat) (s : State) : Steady s (unmaskOp fn vector s) :=
  (modImb_steady ..).trans (steady_ite (message_steady ..) (steady_refl _))

theorem slotOp_steady (d : MbxSide) (k w : Nat) (v : Word) (s : State) : Steady s (slotOp d k w v s) := modMbx_steady ..

theorem outDbOp_steady (d : MbxSide) (v : Word) (s : State) : Steady s (outDbOp d v s) :=
  steady_ite ((modMbx_steady ..).trans (settleMbx_steady ..)) (steady_refl _)

theorem inDbOp_steady (d : MbxSide) (v : Word) (s : State) : Steady s (inDbOp d v s) := (modMbx_steady ..).trans (settleMbx_steady ..)

theorem timeoutOp_steady (d : MbxSide) (k : Nat) (s : State) : Steady s (timeoutOp d k s) :=
  (((reach_steady ..).trans (modMbx_steady ..)).trans (modImb_steady ..)).trans (raiseMbxOut_steady ..)

theorem resetMbx_steady (s : State) (d : MbxSide) : Steady s (s.resetMbx d) :=
  (modMbx_steady ..).trans ((modMbx_steady ..).trans ((settleMbx_steady ..).trans (raiseMbxOut_steady ..)))

theorem acquireOp_steady (t n : Nat) (s : State) : Steady s (acquireOp t n s) := by
  unfold acquireOp
  split
  · exact (report_steady ..).trans (withRdata_steady ..)
  · split
    · exact (modSem_steady ..).trans (withRdata_steady ..)
    · exact withRdata_steady ..

theorem releaseOp_steady (t n : Nat) (v : Word) (s : State) : Steady s (releaseOp t n v s) :=
  steady_ite (steady_ite (modSem_steady ..) (steady_refl _)) (steady_ite (report_steady ..) (steady_refl _))

theorem abandonSems_steady (s : State) (t : Nat) : Steady s (s.abandonSems t) :=
  forUpTo_steady _ (fun _ _ => steady_ite (modSem_steady ..) (steady_refl _)) _

end Sys2Proof.Machine
end

section
/-! PROOFS. Queue entries, units, windows and the safe state keep the queue, device memory and the fault FIFO. -/
namespace Sys2Proof.Machine

theorem modEntry_steady (s : State) (q : Nat) (seq : Word) (f : QEntry → QEntry) : Steady s (s.modEntry q seq f) := modQueue_steady ..
theorem putStatus_steady (s : State) (q : Nat) : Steady s (s.putStatus q) := (modQueue_steady ..).trans (putRecord_steady ..)
theorem queueMessage_steady (s : State) (q : Nat) : Steady s (s.queueMessage q) := (modQueue_steady ..).trans (message_steady ..)

theorem moderate_steady (s : State) (q n : Nat) : Steady s (s.moderate q n) :=
  (modQueue_steady ..).trans (steady_ite (queueMessage_steady ..) (steady_refl _))

theorem queueEvent_steady (s : State) (q type cause arg : Nat) : Steady s (s.queueEvent q type cause arg) := event_steady ..

theorem settleQueue_steady (s : State) (q : Nat) : Steady s (s.settleQueue q) :=
  steady_ite ((modQueue_steady ..).trans (steady_ite (steady_refl _) ((putStatus_steady ..).trans ((queueEvent_steady ..).trans
    (queueMessage_steady ..))))) (steady_refl _)

theorem queueError_steady (s : State) (q cause index : Nat) : Steady s (s.queueError q cause index) :=
  (modQueue_steady ..).trans (((modQe_steady ..).trans (report_steady ..)).trans (((putStatus_steady ..).trans (queueEvent_steady ..)).trans
    (queueMessage_steady ..)))

theorem ringOp_steady (q new : Nat) (s : State) : Steady s (ringOp q new s) := modQueue_steady ..

theorem doorbellOp_steady (fn index off : Nat) (v : Word) (s : State) : Steady s (doorbellOp fn index off v s) := by
  unfold doorbellOp
  dsimp only
  split
  · exact steady_refl _
  · split
    · exact reportAccess_steady ..
    · exact steady_ite (reportAccess_steady ..) (steady_ite (steady_ite (ringOp_steady ..) (queueError_steady ..)) (modQe_steady ..))

theorem chainTmoOp_steady (q : Nat) (s : State) : Steady s (chainTmoOp q s) := by
  unfold chainTmoOp
  split
  · exact (reach_steady ..).trans (queueError_steady ..)
  · exact steady_refl _

theorem reserveOp_steady (q : Nat) (s : State) : Steady s (reserveOp q s) := by
  unfold reserveOp
  dsimp only
  split
  · exact steady_refl _
  · exact steady_ite (modQueue_steady ..) (steady_ite (steady_refl _) ((modQueue_steady ..).trans (modDsc_steady ..)))

theorem putResult_steady (s : State) (q : Nat) (seq : Word) : Steady s (s.putResult q seq) := by
  unfold State.putResult
  dsimp only
  split
  · exact steady_refl _
  · exact (putRecord_steady ..).trans (steady_ite (modEntry_steady ..) (steady_refl _))

theorem putProg_steady (s : State) (q : Nat) (seq : Word) (r : ProgRec) : Steady s (s.putProg q seq r) := by
  unfold State.putProg
  dsimp only
  split
  · exact steady_refl _
  · exact steady_ite (steady_refl _) ((modEntry_steady ..).trans (steady_ite (steady_refl _) (putRecord_steady ..)))

theorem putDue_steady (s : State) (q : Nat) (seq : Word) : Steady s (s.putDue q seq) := by
  unfold State.putDue
  split
  · exact steady_refl _
  · exact steady_ite (steady_refl _) ((modEntry_steady ..).trans (forEach_steady _ (fun _ _ => putProg_steady ..) _))

theorem notifyEntries_steady (s : State) (q : Nat) (es : List QEntry) : Steady s (s.notifyEntries q es) :=
  forEach_steady _ (fun _ _ => steady_ite (event_steady ..) (steady_refl _)) _

theorem publishOp_steady (q : Nat) (es : List QEntry) (s : State) : Steady s (publishOp q es s) :=
  (modQueue_steady ..).trans (((putStatus_steady ..).trans (notifyEntries_steady ..)).trans (steady_ite ((queueEvent_steady ..).trans
    (queueMessage_steady ..)) (moderate_steady ..)))

theorem flushOp_steady (q n : Nat) (s : State) : Steady s (flushOp q n s) :=
  steady_ite ((modQueue_steady ..).trans (emitFor_steady ..)) (steady_refl _)

theorem publishReady_steady (q : Nat) (s : State) : Steady s (publishReady q s) :=
  steady_ite (settleQueue_steady ..) (steady_ite (flushOp_steady ..) (publishOp_steady ..))

theorem publishHeadOp_steady (q : Nat) (s : State) : Steady s (publishHeadOp q s) :=
  (forEach_steady _ (fun _ _ => putDue_steady ..) _).trans (publishReady_steady ..)

theorem flushDoneOp_steady (q : Nat) (s : State) : Steady s (flushDoneOp q s) := modQueue_steady ..

theorem modTimerOp_steady (q : Nat) (s : State) : Steady s (modTimerOp q s) := by
  unfold modTimerOp
  split
  · exact steady_ite ((reach_steady ..).trans (queueMessage_steady ..)) (steady_refl _)
  · exact steady_refl _

theorem noteEnd_steady (s : State) (q : Nat) (e : QEntry) : Steady s (s.noteEnd q e) := steady_ite (modSess_steady ..) (steady_refl _)

theorem finishEntry_steady (s : State) (q : Nat) (seq : Word) : Steady s (s.finishEntry q seq) := by
  unfold State.finishEntry
  dsimp only
  split
  · exact steady_refl _
  · exact steady_ite (steady_refl _) ((((modEntry_steady ..).trans (putResult_steady ..)).trans (noteEnd_steady ..)).trans (steady_ite
      (forEach_steady _ (fun _ _ => (modEntry_steady ..).trans ((modDsc_steady ..).trans (putResult_steady ..))) _) (steady_refl _)))

theorem settleEntry_steady (s : State) (q : Nat) (seq : Word) : Steady s (s.settleEntry q seq) := by
  unfold State.settleEntry
  split
  · exact steady_ite (finishEntry_steady ..) (steady_refl _)
  · exact steady_refl _

theorem closeEntry_steady (s : State) (q : Nat) (seq : Word) (code cause : Nat) : Steady s (s.closeEntry q seq code cause) :=
  (modEntry_steady ..).trans (settleEntry_steady ..)

theorem settleState_steady (s : State) (n : Nat) : Steady s (s.settleState n) := steady_ite (steady_refl _) (modSess_steady ..)
theorem sessionEvent_steady (s : State) (n : Nat) : Steady s (s.sessionEvent n) := event_steady ..
theorem dropLine_steady (s : State) (n : Nat) : Steady s (s.dropLine n) := modCtx_steady ..

theorem writeDir_steady (s : State) (n : Nat) : Steady s (s.writeDir n) := by
  unfold State.writeDir
  split
  · exact memWrite_steady ..
  · exact steady_refl _

theorem freeSession_steady (s : State) (n : Nat) : Steady s (s.freeSession n) :=
  ((modSess_steady ..).trans (dropLine_steady ..)).trans (writeDir_steady ..)

theorem modAdm_steady (s : State) (cfg : Bool) (fn : Nat) (f : AdmQ → AdmQ) : Steady s (s.modAdm cfg fn f) :=
  steady_ite (modCfgQ_steady ..) (modAdmQ_steady ..)

theorem putAdmStatus_steady (s : State) (cfg : Bool) (fn : Nat) : Steady s (s.putAdmStatus cfg fn) := putRecord_steady ..

theorem finishAdm_steady (s : State) (cfg : Bool) (fn : Nat) (tag : Word) (op code cause ret : Nat) : Steady s (s.finishAdm cfg fn tag op code
    cause ret) :=
  (putRecord_steady ..).trans ((modAdm_steady ..).trans (putAdmStatus_steady ..))

theorem settleDrain_steady (s : State) (n : Nat) : Steady s (s.settleDrain n) := by
  unfold State.settleDrain
  dsimp only
  split
  · split
    · split
      · exact (freeSession_steady ..).trans (finishAdm_steady ..)
      · exact freeSession_steady ..
    · exact modSess_steady ..
  · exact steady_refl _

theorem wake_steady (s : State) (u : WUnit) : Steady s (s.wake u) :=
  (forEach_steady _ (fun _ _ => steady_ite (steady_refl _) (modCls_steady ..)) _).trans (steady_ite (steady_refl _) (modSess_steady ..))

theorem addUnit_steady (s : State) (u : WUnit) : Steady s (s.addUnit u) :=
  ((wake_steady ..).trans (modDsc_steady ..)).trans (settleState_steady ..)

theorem withdraw_steady (s : State) (h : Nat) : Steady s (s.withdraw h) := modDmv_steady ..
theorem settleHalf_steady (s : State) (h : Nat) : Steady s (s.settleHalf h) := steady_ite (modHalf_steady ..) (steady_refl _)
theorem freeInflight_steady (s : State) (u : Nat) : Steady s (s.freeInflight u) := modDsc_steady ..
theorem refund_steady (s : State) (u : WUnit) (n : Int) : Steady s (s.refund u n) := forEach_steady _ (fun _ _ => modCls_steady ..) _

theorem releasePlace_steady (s : State) (u : WUnit) (b : BankState) : Steady s (s.releasePlace u b) := by
  unfold State.releasePlace
  split
  · exact steady_ite (modMau_steady ..) (steady_ite (modPcf_steady ..) (((modHalf_steady ..).trans (withdraw_steady ..)).trans (settleHalf_steady
      ..)))
  · exact steady_ite ((modHalf_steady ..).trans (settleHalf_steady ..)) (steady_refl _)
  · exact steady_refl _

theorem abortedEntry_steady (s : State) (u : WUnit) : Steady s (s.abortedEntry u) := modEntry_steady ..

theorem discardUnit_steady (s : State) (u : WUnit) : Steady s (s.discardUnit u) := by
  unfold State.discardUnit
  exact ((((releasePlace_steady ..).trans (freeInflight_steady ..)).trans (modSess_steady ..)).trans (dropUnit_steady ..)).trans
    ((steady_ite (abortedEntry_steady ..) (steady_refl _)).trans
      (((settleState_steady ..).trans (settleEntry_steady ..)).trans (settleDrain_steady ..)))

theorem rollback_steady (s : State) (n : Nat) : Steady s (s.rollback n) := by
  unfold State.rollback
  split
  · exact steady_refl _
  · exact steady_ite ((refund_steady ..).trans (discardUnit_steady ..)) ((((((((releasePlace_steady ..).trans (freeInflight_steady ..)).trans
      (modSess_steady ..)).trans (refund_steady ..)).trans (wake_steady ..)).trans (modUnit_steady ..)).trans (settleState_steady ..)).trans
      (settleDrain_steady ..))

theorem unhint_steady (s : State) (n : Nat) : Steady s (s.unhint n) := by
  unfold State.unhint
  split
  · exact steady_refl _
  · exact (((((releasePlace_steady ..).trans (freeInflight_steady ..)).trans (refund_steady ..)).trans (wake_steady ..)).trans (modUnit_steady
      ..)).trans (settleState_steady ..)

theorem sendReq_steady (s : State) (u : WUnit) (r : SeqReq) : Steady s (s.sendReq u r) := by
  unfold State.sendReq
  split
  · exact steady_ite (modHalf_steady ..) (steady_refl _)
  · exact steady_refl _

theorem stopUnit_steady (s : State) (u : WUnit) : Steady s (s.stopUnit u) :=
  steady_ite (discardUnit_steady ..) ((modUnit_steady ..).trans (sendReq_steady ..))

theorem stopUnits_steady (s : State) (us : List WUnit) : Steady s (s.stopUnits us) := forEach_steady _ (fun _ _ => stopUnit_steady ..) _

theorem settleLadders_steady (s : State) : Steady s s.settleLadders :=
  forEach_steady _ (fun _ _ => (modEntry_steady ..).trans (settleEntry_steady ..)) _

theorem closeRends_steady (s : State) (n code cause : Nat) : Steady s (s.closeRends n code cause) :=
  (forEach_steady _ (fun _ _ => modQueue_steady ..) _).trans (settleLadders_steady ..)

theorem closeEntries_steady (s : State) (n code cause : Nat) : Steady s (s.closeEntries n code cause) :=
  (closeRends_steady ..).trans (forEach_steady _ (fun _ _ => closeEntry_steady ..) _)

theorem dropOutputs_steady (s : State) (n : Nat) : Steady s (s.dropOutputs n) := steady_ite (steady_refl _) (modDmv_steady ..)

theorem resetSession_steady (s : State) (n : Nat) : Steady s (s.resetSession n) :=
  steady_ite (steady_refl _) (((dropOutputs_steady ..).trans (modSess_steady ..)).trans ((stopUnits_steady ..).trans (closeEntries_steady ..)))

theorem faultReset_steady (s : State) (n : Nat) (lines : List Nat) : Steady s (s.faultReset n lines) :=
  steady_ite (steady_refl _) (steady_ite (modSess_steady ..) (((resetSession_steady ..).trans (modSess_steady ..)).trans (sessionEvent_steady
    ..)))

theorem endEntry_steady (s : State) (q : Nat) (seq : Word) (code cause : Nat) : Steady s (s.endEntry q seq code cause) :=
  (modEntry_steady ..).trans (closeEntry_steady ..)

theorem abortOpen_steady (s : State) (n : Nat) : Steady s (s.abortOpen n) :=
  (stopUnits_steady ..).trans (forEach_steady _ (fun _ _ => endEntry_steady ..) _)

theorem stopSession_steady (s : State) (n : Nat) : Steady s (s.stopSession n) :=
  steady_ite (steady_refl _) ((((dropOutputs_steady ..).trans (modSess_steady ..)).trans (sessionEvent_steady ..)).trans (abortOpen_steady ..))

theorem failEntry_steady (s : State) (u : WUnit) (code cause : Nat) : Steady s (s.failEntry u code cause) :=
  steady_ite ((stopUnits_steady ..).trans ((modEntry_steady ..).trans (settleEntry_steady ..))) ((stopUnits_steady ..).trans ((modEntry_steady
    ..).trans (closeEntry_steady ..)))

theorem failUnit_steady (s : State) (u : WUnit) (code cause : Nat) : Steady s (s.failUnit u code cause) :=
  (modUnit_steady ..).trans (((steady_ite (steady_refl _) (modEntry_steady ..)).trans (rollback_steady ..)).trans (failEntry_steady ..))

theorem poisonUnit_steady (s : State) (uid : Nat) : Steady s (s.poisonUnit uid) := by
  unfold State.poisonUnit
  split
  · exact steady_refl _
  · exact failUnit_steady ..

theorem reportWindow_steady (s : State) (fn n w : Nat) : Steady s (s.reportWindow fn n w) := report_steady ..

theorem refuseRends_steady (s : State) (q : Nat) (e : QEntry) : Steady s (s.refuseRends q e) := by
  refine forEach_steady _ (fun _ t => ?_) s
  split
  · exact steady_ite (steady_refl _) ((reportWindow_steady ..).trans (modEntry_steady ..))
  · exact steady_refl _

theorem entryOut_steady (s : State) (q : Nat) (seq : Word) (fn space a : Nat) (bs : List Byte) : Steady s (s.entryOut q seq fn space a bs) :=
  (putData_steady ..).trans (modEntry_steady ..)

theorem putField_steady (s : State) (q : Nat) (seq : Word) (fn space addr maxW : Nat) (a : AnaPic) : Steady s (s.putField q seq fn space addr maxW
    a) :=
  (entryOut_steady ..).trans (forUpTo_steady _ (fun _ _ => entryOut_steady ..) _)

theorem finishAnalysis_steady (s : State) (q : Nat) (e : QEntry) : Steady s (s.finishAnalysis q e) := by
  unfold State.finishAnalysis
  dsimp only
  split
  · exact (steady_ite (steady_refl _) (putField_steady ..)).trans ((modSess_steady ..).trans (closeEntry_steady ..))
  · exact steady_refl _

theorem settleAnalysis_steady (s : State) (n : Nat) : Steady s (s.settleAnalysis n) :=
  forEach_steady _ (fun _ _ => steady_ite (finishAnalysis_steady ..) (steady_refl _)) _

theorem drainRends_steady (s : State) (n : Nat) : Steady s (s.drainRends n) :=
  (forEach_steady _ (fun _ _ => modQueue_steady ..) _).trans (settleLadders_steady ..)

theorem drainAnalysis_steady (s : State) (q : Nat) (e : QEntry) : Steady s (s.drainAnalysis q e) :=
  (modSess_steady ..).trans (finishAnalysis_steady ..)

theorem closeDrained_steady (s : State) (n : Nat) : Steady s (s.closeDrained n) := by
  refine (drainRends_steady ..).trans (forEach_steady _ (fun _ t => ?_) _)
  split
  · exact steady_ite (drainAnalysis_steady ..) (steady_ite (closeEntry_steady ..) (modEntry_steady ..))
  · exact steady_refl _

theorem drainSession_steady (s : State) (n : Nat) (destroy : Bool) : Steady s (s.drainSession n destroy) :=
  ((steady_ite (dropOutputs_steady ..) (steady_refl _)).trans (modSess_steady ..)).trans ((((stopUnits_steady ..).trans (closeDrained_steady
    ..)).trans (modSess_steady ..)).trans (settleDrain_steady ..))

theorem queuePic_steady (s : State) (n : Nat) (p : SrcPic) : Steady s (s.queuePic n p) := by
  unfold State.queuePic
  dsimp only
  split
  · exact steady_ite ((steady_ite (modEntry_steady ..) (steady_refl _)).trans (forEach_steady _ (fun _ _ => addUnit_steady ..) _)) (steady_refl _)
  · exact steady_refl _

theorem tellRends_steady (s : State) (n : Nat) (p : SrcPic) (key : Bool) : Steady s (s.tellRends n p key) :=
  forEach_steady _ (fun _ _ => modSess_steady ..) _

theorem tellPlaced_steady (t s : State) (n : Nat) (c : Coded) : Steady t (t.tellPlaced s n c) := by
  unfold State.tellPlaced
  split
  · exact tellRends_steady ..
  · exact steady_refl _

theorem placeAll_steady (s : State) (n : Nat) (cs : List Coded) : Steady s (s.placeAll n cs) := by
  refine (forEach_steady _ (fun _ t => (modSess_steady ..).trans (tellPlaced_steady ..)) _).trans
    ((forEach_steady _ (fun _ t => modSess_steady ..) _).trans (forEach_steady _ (fun _ t => ?_) _))
  split
  · exact queuePic_steady ..
  · exact steady_refl _

theorem placeKey_steady (s : State) (n : Nat) (p : SrcPic) : Steady s (s.placeKey n p) := (modSess_steady ..).trans (placeAll_steady ..)

theorem placeGop_steady (s : State) (n : Nat) (ps : List SrcPic) (full : Bool) : Steady s (s.placeGop n ps full) :=
  (placeAll_steady ..).trans (modSess_steady ..)

theorem decideOne_steady {s t : State} {n : Nat} (h : s.decideOne n = some t) : Steady s t := by
  unfold State.decideOne at h
  split at h
  · cases h
  · split at h
    · cases h
    · split at h
      · cases h
        exact placeKey_steady ..
      · dsimp only at h
        split at h
        · cases h
          exact steady_ite (placeKey_steady ..) (placeGop_steady ..)
        · cases h

theorem decideAll_steady (n fuel : Nat) (s : State) : Steady s (State.decideAll n fuel s) := by
  induction fuel generalizing s with
  | zero => exact steady_refl s
  | succ fuel ih =>
    unfold State.decideAll
    split
    · next h => exact (decideOne_steady h).trans (ih _)
    · exact steady_refl s

theorem advance_steady (s : State) (n : Nat) : Steady s (s.advance n) := decideAll_steady ..

theorem advanceAll_steady (s : State) (m : Nat) : Steady s (s.advanceAll m) :=
  (forEach_steady _ (fun _ _ => advance_steady ..) _).trans (forEach_steady _ (fun _ _ => advance_steady ..) _)

theorem writeRuns_steady (s : State) (base : Nat) (rs : List (Nat × List Byte)) : Steady s (s.writeRuns base rs) :=
  forEach_steady _ (fun _ _ => devWrite_steady ..) _

theorem storeField_steady (s : State) (n : Nat) (a : AnaPic) : Steady s (s.storeField n a) := writeRuns_steady ..

theorem flushFetched_steady (s : State) (n k : Nat) : Steady s (s.flushFetched n k) :=
  (modSess_steady ..).trans ((forEach_steady _ (fun _ _ => storeField_steady ..) _).trans ((settleAnalysis_steady ..).trans (advanceAll_steady
    ..)))

theorem pruneAna_steady (s : State) (m : Nat) : Steady s (s.pruneAna m) := modSess_steady ..
theorem settleAlert_steady (s : State) : Steady s s.settleAlert := (modPins_steady ..).trans (steady_ite (emit_steady ..) (steady_refl _))
theorem stopAlive_steady (s : State) : Steady s s.stopAlive := ((modFcl_steady ..).trans (modPins_steady ..)).trans (settleAlert_steady ..)

theorem halvesChans_steady (s : State) (hs : Tbl Half) (cs : Tbl Chn) : Steady s { s with halves := hs, mem := { s.mem with chans := cs } } :=
  ⟨rfl, id, id⟩

theorem haltAll_steady (s : State) : Steady s s.haltAll := by
  unfold State.haltAll
  refine .trans ?_ (((((modDsc_steady ..).trans (modMau_steady ..)).trans (modPcf_steady ..)).trans (modRcu_steady ..)).trans
    (modDmv_steady ..))
  exact halvesChans_steady ..

theorem enterSafe_steady (s : State) (cause : Nat) : Steady s (s.enterSafe cause) :=
  steady_ite (steady_refl _) (((haltAll_steady ..).trans (modFcl_steady ..)).trans (stopAlive_steady ..))

theorem loseContext_steady (s : State) (base l : Nat) : Steady s (s.loseContext base l) := steady_ite (memWrite_steady ..) (faultReset_steady ..)

theorem rebuildSession_steady (s : State) (n : Nat) : Steady s (s.rebuildSession n) :=
  steady_ite (steady_refl _) (((faultReset_steady ..).trans (modSess_steady ..)).trans (writeDir_steady ..))

theorem loseLine_steady (s : State) (a : Nat) : Steady s (s.loseLine a) := by
  unfold State.loseLine
  dsimp only
  split
  · exact steady_refl _
  · refine steady_ite (loseContext_steady ..) (steady_ite ((forUpTo_steady _ (fun _ _ => rebuildSession_steady ..) _).trans (modMem_steady ..))
      (steady_ite (forEach_steady _ (fun _ _ => modPool_steady ..) _) ?_))
    exact forEach_steady _ (fun _ _ => faultReset_steady ..) _

theorem capacity_steady (s : State) (ch cause arg : Nat) : Steady s (s.capacity ch cause arg) := (event_steady ..).trans (report_steady ..)
theorem setMerge_steady (s : State) (e : Nat) (ms : List MergeEnt) : Steady s (s.setMerge e ms) := modNtl_steady ..

theorem keepCopies_steady (s old : State) (cs ls : List Nat) : Steady s (s.keepCopies old cs ls) :=
  forEach_steady _ (fun _ _ => modCluster_steady ..) _

theorem storeTile_steady (s : State) (t : TileRef) (ss : List Nat) : Steady s (s.storeTile t ss) := by
  unfold State.storeTile
  exact (steady_ite (steady_refl _) ((devWrite_steady ..).trans (keepCopies_steady ..))).trans ((devWrite_steady ..).trans (modNtl_steady ..))

theorem invalidTile_steady (s : State) (t : TileRef) : Steady s (s.invalidTile t) := (modNtl_steady ..).trans (report_steady ..)

theorem mergeTile_steady (s : State) (m : MergeEnt) : Steady s (s.mergeTile m) := by
  unfold State.mergeTile
  dsimp only
  split
  · exact ((setMerge_steady ..).trans (modNtl_steady ..)).trans (storeTile_steady ..)
  · exact (((setMerge_steady ..).trans (modNtl_steady ..)).trans (invalidTile_steady ..)).trans (storeTile_steady ..)

theorem writeTile_steady (s : State) (t : TileRef) (ws : List (Nat × Nat)) : Steady s (s.writeTile t ws) := by
  unfold State.writeTile
  refine steady_ite ((setMerge_steady ..).trans (storeTile_steady ..)) (steady_ite (setMerge_steady ..) (.trans (steady_ite ?_ (steady_refl _))
    (setMerge_steady ..)))
  split
  · exact mergeTile_steady ..
  · exact steady_refl _

theorem onTile_steady {s : State} {t : TileRef} {f : State → State} (hf : ∀ u, Steady u (f u)) : Ends s (s.onTile t f) :=
  ends_ite (ends_ite (ends_fault _ _) (ends_next (hf s))) (ends_next (steady_refl _))

theorem loseTile_steady (s : State) (t : TileRef) : Steady s (s.loseTile t) := (invalidTile_steady ..).trans (loseLine_steady ..)

theorem tileReadOp_steady (t : TileRef) (s : State) : Steady s (tileReadOp t s) := by
  unfold tileReadOp
  split
  · exact emit_steady ..
  · exact (loseTile_steady ..).trans (emit_steady ..)

theorem tileMergeOp_steady (t : TileRef) (s : State) : Steady s (tileMergeOp t s) := by
  unfold tileMergeOp
  split
  · exact mergeTile_steady ..
  · exact steady_refl _

theorem replaceTile_steady (s : State) (t : TileRef) (ss : List Nat) : Steady s (s.replaceTile t ss) :=
  (setMerge_steady ..).trans (storeTile_steady ..)

theorem storePicture_steady (s : State) (base chroma w h : Nat) (planes : List Plane) : Steady s (s.storePicture base chroma w h planes) :=
  (forUpTo_steady _ (fun _ _ => forUpTo_steady _ (fun _ _ => replaceTile_steady ..) _) _).trans (forUpTo_steady _ (fun _ _ => forUpTo_steady _
    (fun _ _ => replaceTile_steady ..) _) _)

theorem ackTiles_steady (s : State) (base : Nat) : Steady s (s.ackTiles base) :=
  forUpTo_steady _ (fun _ _ => forEach_steady _ (fun _ _ => mergeTile_steady ..) _) _

end Sys2Proof.Machine
end

section
/-! PROOFS. Intake, scheduling and start of entries keep the queue, device memory and the fault FIFO. -/
namespace Sys2Proof.Machine

theorem noteFetch_steady (s : State) (e : Entry) (bs : List Entry) : Steady s (s.noteFetch e bs) :=
  steady_ite (modSess_steady ..) (steady_ite (flushFetched_steady ..) (steady_refl _))

theorem fetchOne_steady (s : State) (q : Nat) (x : FetchedEntry) : Steady s (s.fetchOne q x) :=
  steady_ite (queueError_steady ..) (steady_ite (((modQueue_steady ..).trans (modQe_steady ..)).trans (noteFetch_steady ..)) (queueError_steady
    ..))

theorem fetchAll_steady (s : State) (q : Nat) (xs : List FetchedEntry) : Steady s (s.fetchAll q xs) := by
  induction xs generalizing s with
  | nil => exact steady_refl s
  | cons x xs ih => exact steady_ite ((fetchOne_steady ..).trans (ih _)) (fetchOne_steady ..)

theorem armChain_steady (s : State) (q : Nat) : Steady s (s.armChain q) := modQueue_steady ..

theorem fetchOp_steady (q : Nat) (ok : Bool) (es : List FetchedEntry) (s : State) : Steady s (fetchOp q ok es s) :=
  steady_ite (queueError_steady ..) ((fetchAll_steady ..).trans (armChain_steady ..))

theorem onDue_steady {s : State} {q : Nat} {seq : Word} {op : Nat} {f : QEntry → State → State} (hf : ∀ e t, Steady t (f e t)) :
    Steady s (s.onDue q seq op f) := by
  unfold State.onDue
  split
  · exact steady_ite ((modEntry_steady ..).trans (hf _ _)) (steady_refl _)
  · exact steady_refl _

theorem addUnits_steady (s : State) (us : List WUnit) : Steady s (s.addUnits us) := forEach_steady _ (fun _ _ => addUnit_steady ..) _
theorem recover_steady (s : State) (n : Nat) : Steady s (s.recover n) := steady_ite (modSess_steady ..) (steady_refl _)

theorem decodeReceive_steady (q : Nat) (p : AuParse) (e : QEntry) (s : State) : Steady s (decodeReceive q p e s) := by
  unfold decodeReceive
  dsimp only
  split
  · exact endEntry_steady ..
  · split
    · exact (reportWindow_steady ..).trans (endEntry_steady ..)
    · exact (((recover_steady ..).trans (modEntry_steady ..)).trans (modSess_steady ..)).trans ((refuseRends_steady ..).trans (addUnits_steady
        ..))

theorem dropRends_steady (s : State) (q : Nat) (e : QEntry) : Steady s (s.dropRends q e) :=
  forEach_steady _ (fun _ _ => steady_ite (modEntry_steady ..) (steady_refl _)) _

theorem transcodeReceive_steady (q : Nat) (au : AuParse) (e : QEntry) (s : State) : Steady s (transcodeReceive q au e s) :=
  (dropRends_steady ..).trans (decodeReceive_steady ..)

theorem takeInflight_steady (s : State) (ix uid : Nat) : Steady s (s.takeInflight ix uid) := modDsc_steady ..

theorem copyReceive_steady (q : Nat) (e : QEntry) (s : State) : Steady s (copyReceive q e s) := by
  unfold copyReceive
  dsimp only
  split
  · exact endEntry_steady ..
  · split
    · exact steady_refl _
    · exact (((takeInflight_steady ..).trans (modDsc_steady ..)).trans (modEntry_steady ..)).trans (modDmv_steady ..)

theorem fenceReceive_steady (q : Nat) (e : QEntry) (s : State) : Steady s (fenceReceive q e s) :=
  steady_ite (endEntry_steady ..) (steady_ite ((putRecord_steady ..).trans ((modEntry_steady ..).trans (endEntry_steady ..))) (endEntry_steady
    ..))

theorem checkEntry_steady (s : State) (q : Nat) (e : QEntry) : Steady s (s.checkEntry q e) := by
  unfold State.checkEntry
  split
  · exact steady_refl _
  · split
    · exact (reportWindow_steady ..).trans (endEntry_steady ..)
    · exact refuseRends_steady ..

theorem reserveChainOp_steady (q : Nat) (s : State) : Steady s (reserveChainOp q s) :=
  (reserveOp_steady ..).trans (forEach_steady _ (fun _ _ => checkEntry_steady ..) _)

theorem takeSource_steady (s : State) (q : Nat) (e : QEntry) : Steady s (s.takeSource q e) := (modSess_steady ..).trans (addUnit_steady ..)

theorem resubmit_steady (s : State) (q : Nat) (e : QEntry) : Steady s (s.resubmit q e) := by
  unfold State.resubmit
  dsimp only
  split
  · exact steady_ite (((modSess_steady ..).trans (modEntry_steady ..)).trans (queuePic_steady ..)) (((modSess_steady ..).trans (modEntry_steady
      ..)).trans (settleAnalysis_steady ..))
  · exact (modSess_steady ..).trans (modEntry_steady ..)

theorem sourceReceive_steady (q : Nat) (e : QEntry) (s : State) : Steady s (sourceReceive q e s) := by
  unfold sourceReceive
  dsimp only
  split
  · exact (endEntry_steady ..).trans (advanceAll_steady ..)
  · split
    · exact ((reportWindow_steady ..).trans (endEntry_steady ..)).trans (advanceAll_steady ..)
    · exact steady_ite (resubmit_steady ..) ((recover_steady ..).trans (takeSource_steady ..))

theorem encodeReceive_steady (q : Nat) (e : QEntry) (s : State) : Steady s (encodeReceive q e s) := sourceReceive_steady ..
theorem analyzeReceive_steady (q : Nat) (e : QEntry) (s : State) : Steady s (analyzeReceive q e s) := sourceReceive_steady ..

theorem convertReceive_steady (q : Nat) (e : QEntry) (s : State) : Steady s (convertReceive q e s) :=
  steady_ite (endEntry_steady ..) (steady_ite (endEntry_steady ..) (steady_ite (endEntry_steady ..) (addUnit_steady ..)))

theorem settleFlush_steady (s : State) (q : Nat) (e : QEntry) : Steady s (s.settleFlush q e) := steady_ite (steady_refl _) (closeEntry_steady ..)

theorem settleFlushes_steady (s : State) (n : Nat) : Steady s (s.settleFlushes n) :=
  forEach_steady _ (fun _ _ => steady_ite (settleFlush_steady ..) (steady_refl _)) _

theorem flushReceive_steady (q : Nat) (e : QEntry) (s : State) : Steady s (flushReceive q e s) := by
  unfold flushReceive
  dsimp only
  split
  · exact endEntry_steady ..
  · split
    · exact (reportWindow_steady ..).trans (endEntry_steady ..)
    · exact steady_ite (settleFlush_steady ..) ((refuseRends_steady ..).trans (addUnit_steady ..))

theorem tookPlaces_steady (s : State) : Steady s s.tookPlaces := ⟨rfl, id, id⟩

theorem restoreSession_steady (s : State) (n : Nat) : Steady s (s.restoreSession n) := by
  unfold State.restoreSession
  dsimp only
  split
  · split
    · exact ((((forEach_steady _ (fun _ _ => memWrite_steady ..) _).trans (modSess_steady ..)).trans (modSess_steady ..)).trans (modSess_steady
        ..)).trans (tookPlaces_steady ..)
    · exact (forEach_steady _ (fun _ _ => memWrite_steady ..) _).trans (modSess_steady ..)
  · exact (forEach_steady _ (fun _ _ => memWrite_steady ..) _).trans (modSess_steady ..)

theorem writeHead_steady (s : State) (n : Nat) (working : Bool) : Steady s (s.writeHead n working) :=
  ((memWrite_steady ..).trans (memWrite_steady ..)).trans (writeDir_steady ..)

theorem writeParams_steady (s : State) (n : Nat) : Steady s (s.writeParams n) := (memWrite_steady ..).trans (memWrite_steady ..)
theorem setLines_steady (s : State) (n : Nat) (ls : List CLine) : Steady s (s.setLines n ls) := modCtx_steady ..
theorem touch_steady (s : State) (n : Nat) : Steady s (s.touch n) := (setLines_steady ..).trans (modCtx_steady ..)
theorem evict_steady (s : State) (v : Nat) : Steady s (s.evict v) := (steady_ite (writeHead_steady ..) (steady_refl _)).trans (setLines_steady ..)

theorem allocLine_steady {s t : State} {n : Nat} {may : Nat → Bool} (h : s.allocLine n may = some t) : Steady s t := by
  unfold State.allocLine at h
  split at h
  · cases h
    exact (setLines_steady ..).trans (modCtx_steady ..)
  · obtain ⟨v, -, rfl⟩ := Option.map_eq_some_iff.1 h
    exact ((evict_steady ..).trans (setLines_steady ..)).trans (modCtx_steady ..)

theorem openHead_steady (s : State) (n : Nat) : Steady s (s.openHead n) := by
  unfold State.openHead
  dsimp only
  split
  · next h => exact ((writeParams_steady ..).trans (allocLine_steady h)).trans (modCtx_steady ..)
  · exact (writeParams_steady ..).trans (writeHead_steady ..)

theorem hint_steady (s : State) (n : Nat) : Steady s (s.hint n) := by
  unfold State.hint
  dsimp only
  split
  · exact (touch_steady ..).trans (modCtx_steady ..)
  · split
    · next h => exact (modCtx_steady ..).trans (allocLine_steady h)
    · exact (modCtx_steady ..).trans (modCtx_steady ..)

theorem preloadOp_steady (h k : Nat) (s : State) : Steady s (preloadOp h k s) := by
  unfold preloadOp
  dsimp only
  split
  · exact (modHalf_steady ..).trans (steady_ite (modCtx_steady ..) (steady_refl _))
  · exact steady_refl _

theorem drainOp_steady (h k : Nat) (s : State) : Steady s (drainOp h k s) := by
  unfold drainOp
  split
  · exact (modHalf_steady ..).trans (settleHalf_steady ..)
  · exact steady_refl _

theorem putReport_steady (s : State) (q : Nat) (seq : Word) (stopped : Bool) : Steady s (s.putReport q seq stopped) := by
  unfold State.putReport
  dsimp only
  split
  · exact steady_refl _
  · exact steady_ite (steady_refl _) ((entryOut_steady ..).trans (steady_ite (steady_refl _) (forEach_steady _ (fun _ _ => entryOut_steady ..)
      _)))

theorem putSection_steady (s : State) (q : Nat) (seq : Word) (info : PicInfo) (ms : List Nat) (decIndex cycles cause ptype : Nat) (flags : BitVec
    16) : Steady s (s.putSection q seq info ms decIndex cycles cause ptype flags) := by
  unfold State.putSection
  dsimp only
  split
  · exact steady_refl _
  · exact modEntry_steady ..

theorem noteHeld_steady (s : State) (q : Nat) (seq : Word) (n : Nat) : Steady s (s.noteHeld q seq n) := modEntry_steady ..

theorem failDecode_steady (s : State) (u : WUnit) (code cause : Nat) : Steady s (s.failDecode u code cause) :=
  (modEntry_steady ..).trans ((noteHeld_steady ..).trans ((steady_ite (steady_refl _) (putReport_steady ..)).trans (failEntry_steady ..)))

theorem stopDecode_steady (s : State) (u : WUnit) (code cause : Nat) : Steady s (s.stopDecode u code cause) :=
  ((modUnit_steady ..).trans (rollback_steady ..)).trans ((steady_ite (steady_refl _) (modSess_steady ..)).trans ((failDecode_steady ..).trans
    (stopSession_steady ..)))

theorem claim_steady (s : State) (l w : Nat) : Steady s (s.claim l w) := modLane_steady ..
theorem moveClaim_steady (s : State) (h : Nat) : Steady s (s.moveClaim h) := forEach_steady _ (fun _ _ => modLane_steady ..) _

theorem gateClaimOp_steady (l : Nat) (s : State) : Steady s (gateClaimOp l s) := by
  unfold gateClaimOp
  split
  · exact steady_ite ((reach_steady ..).trans (claim_steady ..)) (steady_refl _)
  · exact steady_refl _

theorem preemptHalf_steady (s : State) (l h : Nat) : Steady s (s.preemptHalf l h) := by
  unfold State.preemptHalf
  split
  · exact steady_refl _
  · split
    · exact steady_refl _
    · exact steady_ite (steady_refl _) ((sendReq_steady ..).trans (modDsc_steady ..))

theorem gateOpenOp_steady (l : Nat) (s : State) : Steady s (gateOpenOp l s) := by
  unfold gateOpenOp
  dsimp only
  split
  · exact steady_ite (steady_refl _) (((reach_steady ..).trans (modLane_steady ..)).trans (steady_ite (forEach_steady _ (fun _ _ =>
      preemptHalf_steady ..) _) (steady_refl _)))
  · exact steady_refl _

theorem unhintLane_steady (s : State) (l c : Nat) : Steady s (s.unhintLane l c) :=
  forEach_steady _ (fun _ _ => (unhint_steady ..).trans (modDsc_steady ..)) _

theorem gateCloseOp_steady (l : Nat) (s : State) : Steady s (gateCloseOp l s) := by
  unfold gateCloseOp
  dsimp only
  split
  · exact steady_refl _
  · exact steady_ite (steady_refl _) ((reach_steady ..).trans ((modLane_steady ..).trans (unhintLane_steady ..)))

theorem gateSwitchOp_steady (l : Nat) (s : State) : Steady s (gateSwitchOp l s) := by
  unfold gateSwitchOp
  dsimp only
  split
  · exact steady_refl _
  · exact (reach_steady ..).trans (modLane_steady ..)

theorem chargeNode_steady (c parent : Nat) (u : WUnit) (s : State) : Steady s (chargeNode c parent u s) :=
  (modCls_steady ..).trans (steady_ite (steady_refl _) (modCls_steady ..))

theorem chargeTags_steady (s : State) (u : WUnit) : Steady s (s.chargeTags u) :=
  steady_ite (steady_refl _) (((modSess_steady ..).trans (modCls_steady ..)).trans (forEach_steady _ (fun _ _ => chargeNode_steady ..) _))

theorem chargeBuckets_steady (s : State) (u : WUnit) : Steady s (s.chargeBuckets u) := forEach_steady _ (fun _ _ => modCls_steady ..) _

theorem prefetchOp_steady (s : State) : Steady s (prefetchOp s) := by
  unfold prefetchOp
  dsimp only
  split
  · exact steady_refl _
  · exact getD_steady fun _ => allocLine_steady

theorem replan_steady (s : State) : Steady s s.replan := forEach_steady _ (fun _ _ => (unhint_steady ..).trans (modDsc_steady ..)) _

theorem select_steady (s : State) (u : WUnit) (p : Place) : Steady s (s.select u p) := by
  unfold State.select
  dsimp only
  split
  · exact steady_refl _
  · exact ((restoreSession_steady ..).trans (takeInflight_steady ..)).trans ((((chargeTags_steady ..).trans (chargeBuckets_steady ..)).trans
      (modUnit_steady ..)).trans (((modEntry_steady ..).trans (modDsc_steady ..)).trans (steady_ite (((modHalf_steady ..).trans (hint_steady
      ..)).trans (settleState_steady ..)) (steady_refl _))))

theorem scheduleOp_steady (kind : ResKind) (s : State) : Steady s (scheduleOp kind s) := by
  unfold scheduleOp
  dsimp only
  split
  · exact replan_steady ..
  · split
    · exact (replan_steady ..).trans (select_steady ..)
    · exact replan_steady ..

theorem bucketRefillOp_steady (s : State) : Steady s (bucketRefillOp s) := by
  unfold bucketRefillOp
  exact (reach_steady ..).trans ((forEach_steady _ (fun _ _ => modCls_steady ..) _).trans (modDsc_steady ..))

theorem skipEntry_steady (s : State) (u : WUnit) (au : AuInfo) (r : Nat × Nat) : Steady s (s.skipEntry u au r) :=
  (modDsc_steady ..).trans (modEntry_steady ..)

theorem giveSlot_steady (s : State) (u : WUnit) (k : Nat) : Steady s (s.giveSlot u k) := by
  unfold State.giveSlot
  exact modDsc_steady ..

theorem copyRange_steady (old : State) (a b n : Nat) (s : State) : Steady s (State.copyRange old a b n s) :=
  steady_ite (steady_refl _) ((memWrite_steady ..).trans (forEach_steady _ (fun _ _ => poisonLine_steady ..) _))

theorem copySlots_steady (old : State) (m : List (Nat × Nat)) (from_ to_ : Range) (size size' : Nat) (s : State) : Steady s (State.copySlots old m
    from_ to_ size size' s) :=
  forEach_steady _ (fun _ _ => copyRange_steady ..) _

theorem moveSlots_steady (old : State) (n : Nat) (s : State) : Steady s (State.moveSlots old n s) := by
  unfold State.moveSlots
  exact (((copySlots_steady ..).trans (copySlots_steady ..)).trans (copySlots_steady ..)).trans ((copySlots_steady ..).trans ((modSess_steady
    ..).trans (modDsc_steady ..)))

theorem writeApplied_steady (s old : State) (n : Nat) : Steady s (s.writeApplied old n) :=
  steady_ite (steady_refl _) (steady_ite (writeParams_steady ..) ((writeParams_steady ..).trans (moveSlots_steady ..)))

theorem beginDecode_steady {s t : State} {u : WUnit} {e : QEntry} (h : s.beginDecode u e = .inr t) : Steady s t := by
  have hput (y : Session) (g : WUnit → WUnit) :
      Steady s ((((s.modSess u.session fun _ => y).writeApplied s u.session).modEntry u.q u.seq fun f => { f with added := true }).modUnit u.uid g) :=
    (((modSess_steady ..).trans (writeApplied_steady ..)).trans (modEntry_steady ..)).trans (modUnit_steady ..)
  unfold State.beginDecode at h
  dsimp only at h
  split at h
  · cases h
  · split at h
    · cases h
    · split at h
      · cases h
        exact (hput ..).trans (skipEntry_steady ..)
      · split at h
        · cases h
          exact hput ..
        · split at h
          · cases h
            exact (hput ..).trans (giveSlot_steady ..)
          · cases h

theorem keepSlot_steady (s : State) (u : WUnit) : Steady s (s.keepSlot u) := by
  unfold State.keepSlot
  split
  · exact modUnit_steady ..
  · exact steady_refl _

theorem beginEncode_steady (s : State) (u : WUnit) : Steady s (s.beginEncode u) := by
  have happlied (f g : Session → Session) (k : Nat) :
      Steady s ((((s.modSess u.session f).writeApplied s u.session).modSess u.session g).giveSlot u k) :=
    (((modSess_steady ..).trans (writeApplied_steady ..)).trans (modSess_steady ..)).trans (giveSlot_steady ..)
  unfold State.beginEncode
  dsimp only
  split
  · exact (happlied ..).trans (modDsc_steady ..)
  · exact happlied ..

theorem startCore_steady (s : State) (u : WUnit) (h k : Nat) : Steady s (s.startCore u h k) :=
  ((modHalf_steady ..).trans (modUnit_steady ..)).trans (((modDsc_steady ..).trans (modSess_steady ..)).trans (settleState_steady ..))

theorem loadUnit_steady (s : State) (u : WUnit) (h k : Nat) : Steady s (s.loadUnit u h k) := by
  unfold State.loadUnit
  dsimp only
  split
  · exact (modHalf_steady ..).trans (startCore_steady ..)
  · exact ((modHalf_steady ..).trans (reportWindow_steady ..)).trans (failUnit_steady ..)

theorem refuseDecode_steady (s : State) (u : WUnit) (e : QEntry) (c : Nat × Nat) : Steady s (s.refuseDecode u e c) := by
  unfold State.refuseDecode
  dsimp only
  split
  · split
    · exact failUnit_steady ..
    · split
      · exact stopDecode_steady ..
      · exact failDecode_steady ..
  · exact failDecode_steady ..

theorem dispatchCore_steady (s : State) (u : WUnit) (h k : Nat) : Steady s (s.dispatchCore u h k) := by
  unfold State.dispatchCore
  dsimp only
  split
  · exact (steady_ite (beginEncode_steady ..) (steady_refl _)).trans (loadUnit_steady ..)
  · split
    · split
      · exact loadUnit_steady ..
      · split
        · exact refuseDecode_steady ..
        · next hbegin => exact (beginDecode_steady hbegin).trans (loadUnit_steady ..)
    · exact (keepSlot_steady ..).trans (loadUnit_steady ..)

theorem dispatchMau_steady (s : State) (u : WUnit) (e : Nat) : Steady s (s.dispatchMau u e) := by
  unfold State.dispatchMau
  exact (((modSess_steady ..).trans (modUnit_steady ..)).trans (modMau_steady ..)).trans (modDsc_steady ..)

theorem takeStores_steady {s t : State} {u : WUnit} (h : s.takeStores u = some t) : Steady s t := by
  unfold State.takeStores at h
  split at h
  · cases h
    exact steady_refl s
  · refine foldl_option_steady (fun t ht => by cases ht; exact steady_refl s) ?_ h
    intro k t v hk
    obtain ⟨r, -, rfl⟩ := Option.map_eq_some_iff.1 hk
    exact (tookFree_steady ..).trans (modSess_steady ..)

theorem startPass_steady (s : State) (u : WUnit) (p : Nat) : Steady s (s.startPass u p) := by
  unfold State.startPass
  exact ((modUnit_steady ..).trans (modPcf_steady ..)).trans (modDsc_steady ..)

theorem dispatchPcf_steady (s : State) (u : WUnit) (p : Nat) : Steady s (s.dispatchPcf u p) := by
  unfold State.dispatchPcf
  split
  · next hstores => exact (takeStores_steady hstores).trans (startPass_steady ..)
  · exact steady_refl _

theorem unitDispatchOp_steady (ix : Nat) (s : State) : Steady s (unitDispatchOp ix s) := by
  unfold unitDispatchOp
  split
  · exact steady_refl _
  · split
    · exact steady_refl _
    · split
      · exact steady_ite (steady_refl _) (steady_ite ((reach_steady ..).trans (dispatchMau_steady ..)) (steady_ite ((reach_steady ..).trans
          (dispatchPcf_steady ..)) (steady_ite ((reach_steady ..).trans (dispatchCore_steady ..)) (steady_refl _))))
      · exact steady_refl _

end Sys2Proof.Machine
end

section
/-! PROOFS. The fabric, the data mover and the pools keep the queue, device memory and the fault FIFO. -/
namespace Sys2Proof.Machine

theorem portGrantOp_steady (cl : Nat) (reqs : List (Nat × Txn)) (s : State) : Steady s (portGrantOp cl reqs s) := by
  unfold portGrantOp
  split
  · exact steady_refl _
  · exact modCluster_steady ..

theorem execPortGrant_steady (cluster : Nat) (reqs : List (Nat × Txn)) (s : State) : Ends s (execPortGrant cluster reqs s) := by
  unfold execPortGrant
  split
  · exact ends_fault _ _
  · exact ends_onlyIf fun _ => portGrantOp_steady ..

theorem settleChn_steady (s : State) (k : Nat) : Steady s (s.settleChn k) := modChn_steady ..

theorem ingressOp_steady (k : Nat) (reqs : List Txn) (s : State) : Steady s (ingressOp k reqs s) := by
  have hwake : Steady s (if (s.chn k).state == 3 then s.modChn k fun c => { c with state := 1, sreAborts := sat32 c.sreAborts 1 } else s) :=
    steady_ite (modChn_steady ..) (steady_refl _)
  unfold ingressOp
  dsimp only
  generalize (if (s.chn k).state == 3 then s.modChn k fun c => { c with state := 1, sreAborts := sat32 c.sreAborts 1 } else s) = s1 at hwake
  refine steady_ite (steady_refl _) (steady_ite hwake (hwake.trans ?_))
  have hrefuse (ts : List Txn) : Steady s1 (forEach ts (fun t u => (u.modChn k (Chn.refuse s.time t.port)).modMem fun m =>
      { m with backoffs := sat32 m.backoffs 1 }) s1) :=
    forEach_steady _ (fun _ _ => (modChn_steady ..).trans (modMem_steady ..)) _
  split
  · exact hrefuse _
  · exact ((hrefuse _).trans (modChn_steady ..)).trans (settleChn_steady ..)

theorem execIngressGrant_steady (ch : Nat) (reqs : List Txn) (s : State) : Ends s (execIngressGrant ch reqs s) := by
  unfold execIngressGrant
  split
  · exact ends_fault _ _
  · exact ends_onlyIf fun _ => ingressOp_steady ..

theorem refillChn_steady (s : State) (k : Nat) : Steady s (s.refillChn k) := modChn_steady ..

theorem refillOp_steady (ch : Nat) (s : State) : Steady s (refillOp ch s) :=
  steady_ite (refillChn_steady ..) (steady_ite (modCluster_steady ..) (steady_refl _))

theorem backoffOp_steady (k port : Nat) (s : State) : Steady s (backoffOp k port s) :=
  steady_ite (steady_refl _) ((reach_steady ..).trans (modChn_steady ..))

theorem askBias_steady (s : State) (l : Nat) (write : Bool) : Steady s (s.askBias l write) :=
  steady_ite (steady_refl _) ((modHlu_steady ..).trans (send_steady ..))

theorem askRead_steady (s : State) (a n : Nat) : Steady s (s.askRead a n) :=
  (forEach_steady _ (fun _ _ => sendSnoop_steady ..) _).trans (forEach_steady _ (fun _ _ => askBias_steady ..) _)

theorem usedBias_steady (s : State) (a n : Nat) : Steady s (s.usedBias a n) := modHlu_steady ..
theorem readUsed_steady (s : State) (space a n : Nat) : Steady s (s.readUsed space a n) := steady_ite (usedBias_steady ..) (steady_refl _)

theorem writeAckOp_steady (k id a : Nat) (data : List Byte) (s : State) : Steady s (writeAckOp k id a data s) :=
  steady_ite (steady_refl _) (steady_ite (forEach_steady _ (fun _ _ => sendSnoop_steady ..) _) (steady_ite (forEach_steady _ (fun _ _ =>
    askBias_steady ..) _) (((memWrite_steady ..).trans (usedBias_steady ..)).trans (steady_ite (report_steady ..) (steady_refl _)))))

theorem weightOp_steady (k p : Nat) (v : Word) (s : State) : Steady s (weightOp k p v s) := modChn_steady ..

theorem commandOp_steady (k : Nat) (s : State) : Steady s (commandOp k s) := by
  unfold commandOp
  dsimp only
  split
  · exact steady_refl _
  · exact steady_ite (modChn_steady ..) (steady_ite ((modChn_steady ..).trans (settleChn_steady ..)) ((modChn_steady ..).trans (settleChn_steady
      ..)))

theorem retireSession_steady (s : State) (n : Nat) : Steady s (s.retireSession n) :=
  steady_ite ((faultReset_steady ..).trans (modSess_steady ..)) (steady_refl _)

theorem retirePool_steady (s : State) (p : Nat) : Steady s (s.retirePool p) := modPool_steady ..

theorem retireStripe_steady (s : State) (ch r st : Nat) : Steady s (s.retireStripe ch r st) :=
  steady_ite (report_steady ..) ((modChn_steady ..).trans ((modMem_steady ..).trans ((capacity_steady ..).trans ((forEach_steady _ (fun _ _ =>
    retireSession_steady ..) _).trans (forEach_steady _ (fun _ _ => retirePool_steady ..) _)))))

theorem beginMigration_steady (s : State) (ch r st : Nat) : Steady s (s.beginMigration ch r st) := (modChn_steady ..).trans (capacity_steady ..)

theorem stopMigration_steady (s : State) (ch : Nat) (m : Mig) : Steady s (s.stopMigration ch m) :=
  (modChn_steady ..).trans ((capacity_steady ..).trans (retireStripe_steady ..))

theorem rankOut_steady (s : State) (ch r : Nat) (migrate : Bool) : Steady s (s.rankOut ch r migrate) := by
  unfold State.rankOut
  split
  · split
    · exact steady_refl _
    · split
      · exact stopMigration_steady ..
      · split
        · exact retireStripe_steady ..
        · exact steady_refl _
  · split
    · exact steady_ite (beginMigration_steady ..) (retireStripe_steady ..)
    · exact modChn_steady ..

theorem correctedOn_steady (s : State) (ch r a : Nat) : Steady s (s.correctedOn ch r a) :=
  ((modChn_steady ..).trans (report_steady ..)).trans (steady_ite (rankOut_steady ..) (steady_refl _))

theorem lineLost_steady (s : State) (ch r a : Nat) : Steady s (s.lineLost ch r a) :=
  (((poisonLine_steady ..).trans (modChn_steady ..)).trans (report_steady ..)).trans (loseLine_steady ..)

theorem readDataOp_steady (ch a : Nat) (r : EccResult) (s : State) : Steady s (readDataOp ch a r s) := by
  unfold readDataOp
  dsimp only
  split
  · exact report_steady ..
  · split
    · exact steady_refl _
    · exact correctedOn_steady ..
    · exact (lineLost_steady ..).trans (rankOut_steady ..)

theorem revoke_steady (s : State) (k r : Nat) : Steady s (s.revoke k r) := by
  unfold State.revoke
  dsimp only
  split
  · exact steady_refl _
  · exact steady_ite ((modChn_steady ..).trans (modMem_steady ..)) (steady_refl _)

theorem refreshOp_steady (k r : Nat) (s : State) : Steady s (refreshOp k r s) :=
  steady_ite (modChn_steady ..) (((revoke_steady ..).trans (modChn_steady ..)).trans (settleChn_steady ..))

theorem calibrationOp_steady (k : Nat) (s : State) : Steady s (calibrationOp k s) :=
  (reach_steady ..).trans ((modChn_steady ..).trans (settleChn_steady ..))

theorem thermalOp_steady (k : Nat) (temp : Int) (s : State) : Steady s (thermalOp k temp s) :=
  (modChn_steady ..).trans (steady_ite (report_steady ..) (steady_refl _))

theorem powerDownOp_steady (k r : Nat) (s : State) : Steady s (powerDownOp k r s) := modChn_steady ..

theorem selfRefreshOp_steady (k : Nat) (s : State) : Steady s (selfRefreshOp k s) :=
  steady_ite (steady_ite ((reach_steady ..).trans (modChn_steady ..)) (steady_refl _)) (steady_ite (modChn_steady ..) (steady_refl _))

theorem selfRefreshExitOp_steady (k : Nat) (s : State) : Steady s (selfRefreshExitOp k s) :=
  steady_ite (modChn_steady ..) (steady_ite ((reach_steady ..).trans (modChn_steady ..)) (steady_refl _))

theorem scrubRead_steady (s : State) (ch pos : Nat) (r : EccResult) : Steady s (s.scrubRead ch pos r) := by
  unfold State.scrubRead
  dsimp only
  split
  · split
    · exact steady_refl _
    · exact correctedOn_steady ..
    · exact (lineLost_steady ..).trans (rankOut_steady ..)
  · split
    · exact steady_refl _
    · exact correctedOn_steady ..
    · exact ((modChn_steady ..).trans (report_steady ..)).trans (rankOut_steady ..)

theorem scrubStep_steady (s : State) (ch pos : Nat) : Steady s (s.scrubStep ch pos) := by
  unfold State.scrubStep
  split
  · exact modChn_steady ..
  · exact modChn_steady ..

theorem spend_steady (s : State) (ch b n : Nat) : Steady s (s.spend ch b n) := modChn_steady ..

theorem scrubOp_steady (ch : Nat) (r : EccResult) (s : State) : Steady s (scrubOp ch r s) := by
  unfold scrubOp
  split
  · exact steady_refl _
  · exact ((spend_steady ..).trans (scrubRead_steady ..)).trans (scrubStep_steady ..)

theorem ceWindowOp_steady (s : State) : Steady s (ceWindowOp s) := forUpTo_steady _ (fun _ _ => modChn_steady ..) _

theorem copyLost_steady (s : State) (ch : Nat) (m : Mig) (bad : BitVec 64) : Steady s (s.copyLost ch m bad) :=
  forUpTo_steady _ (fun _ _ => steady_ite (lineLost_steady ..) (steady_refl _)) _

theorem endMigration_steady (s : State) (ch : Nat) (m : Mig) : Steady s (s.endMigration ch m) :=
  ((modChn_steady ..).trans (modMem_steady ..)).trans (capacity_steady ..)

theorem copyBlockOp_steady (ch : Nat) (bad : BitVec 64) (r : EccResult) (s : State) : Steady s (copyBlockOp ch bad r s) := by
  unfold copyBlockOp
  dsimp only
  split
  · exact steady_refl _
  · split
    · exact stopMigration_steady ..
    · exact (copyLost_steady ..).trans ((modChn_steady ..).trans ((steady_ite (correctedOn_steady ..) (steady_refl _)).trans (steady_ite
        (endMigration_steady ..) (steady_refl _))))

theorem migrationOp_steady (ch : Nat) (bad : BitVec 64) (r : EccResult) (s : State) : Steady s (migrationOp ch bad r s) :=
  (spend_steady ..).trans (copyBlockOp_steady ..)

theorem rankRecordOp_steady (s : State) : Steady s (rankRecordOp s) := by
  unfold rankRecordOp
  split
  · exact steady_refl _
  · exact (modBoot_steady ..).trans (modMem_steady ..)

theorem chanFail_steady (s : State) (g cause : Nat) : Steady s (s.chanFail g cause) :=
  ((modChan_steady ..).trans (assertSource_steady ..)).trans (report_steady ..)

theorem unask_steady (s : State) (g : Nat) : Steady s (s.unask g) := forEach_steady _ (fun _ _ => modPool_steady ..) _

theorem askPool_steady (s : State) (g : Nat) : Steady s (s.askPool g) := by
  unfold State.askPool
  dsimp only
  split
  · exact steady_refl _
  · split
    · exact (modChan_steady ..).trans ((modChan_steady ..).trans (chanFail_steady ..))
    · exact steady_ite (steady_refl _) ((modChan_steady ..).trans (modPool_steady ..))

theorem startDescs_steady (s : State) (g : Nat) : Steady s (s.startDescs g) :=
  steady_ite (steady_refl _) ((steady_ite (steady_refl _) (modChan_steady ..)).trans (askPool_steady ..))

theorem ctrlOp_steady (fn l : Nat) (v : Word) (s : State) : Steady s (ctrlOp fn l v s) := steady_ite (reportAccess_steady ..) (modChan_steady ..)
theorem chDbOp_steady (fn l : Nat) (s : State) : Steady s (chDbOp fn l s) := modChan_steady ..
theorem chBaseOp_steady (fn l : Nat) (v : DWord) (s : State) : Steady s (chBaseOp fn l v s) := modChan_steady ..

theorem chBaseWide_steady (fn chan : Nat) (v : DWord) (s : State) : Steady s (chBaseWide fn chan v s) :=
  (chBaseOp_steady ..).trans (dropHeld_steady ..)

theorem takeDescs_steady (g fn : Nat) (ds : List (BitVec 256)) (s : State) : Steady s (takeDescs g fn ds s) := by
  induction ds generalizing s with
  | nil => exact steady_refl s
  | cons d ds ih =>
    unfold takeDescs
    refine steady_ite (steady_refl _) (steady_ite (modChan_steady ..) ?_)
    split
    · exact chanFail_steady ..
    · exact (modChan_steady ..).trans (ih _)

theorem descReadOp_steady (g : Nat) (ok : Bool) (ds : List (BitVec 256)) (s : State) : Steady s (descReadOp g ok ds s) :=
  steady_ite (chanFail_steady ..) ((takeDescs_steady ..).trans (startDescs_steady ..))

theorem addRead_steady (s : State) (u : DmvUser) (desc n : Nat) : Steady s (s.addRead u desc n) := by
  unfold State.addRead
  split
  · exact modChan_steady ..
  · exact modDmv_steady ..
  · exact steady_refl _

theorem addWritten_steady (s : State) (u : DmvUser) (desc n : Nat) : Steady s (s.addWritten u desc n) := by
  unfold State.addWritten
  split
  · exact modChan_steady ..
  · exact modDmv_steady ..
  · exact steady_refl _

theorem endCopy_steady (s : State) (q : Nat) (seq : Word) (code cause bytes : Nat) : Steady s (s.endCopy q seq code cause bytes) :=
  (modDsc_steady ..).trans ((modDmv_steady ..).trans ((modEntry_steady ..).trans (closeEntry_steady ..)))

theorem failTransfer_steady (s : State) (u : DmvUser) (desc : Nat) : Steady s (s.failTransfer u desc) := by
  unfold State.failTransfer
  split
  · exact (modChan_steady ..).trans (modDmv_steady ..)
  · exact endCopy_steady ..
  · split
    · exact poisonUnit_steady ..
    · exact steady_refl _

theorem consumed_steady (s : State) (u : DmvUser) (space a n : Nat) : Steady s (s.consumed u space a n) :=
  steady_ite (forEach_steady _ (fun _ _ => (report_steady ..).trans (loseLine_steady ..)) _) (steady_refl _)

theorem takeBurst_steady (s : State) (k : Nat) (u : DmvUser) (b : Burst) : Steady s (s.takeBurst k u b) :=
  (addRead_steady ..).trans (modDmv_steady ..)

theorem takeBursts_steady (s : State) (fuel : Nat) : Steady s (s.takeBursts fuel) := by
  induction fuel generalizing s with
  | zero => exact steady_refl s
  | succ fuel ih =>
    unfold State.takeBursts
    split
    · exact steady_refl s
    · split
      · exact steady_refl s
      · exact (takeBurst_steady ..).trans (ih _)

theorem fillSlot_steady (s : State) (u : DmvUser) (x : Slot) (poisoned : Bool) (data : List Byte) : Steady s (s.fillSlot u x poisoned data) :=
  ((readUsed_steady ..).trans (modDmv_steady ..)).trans (steady_ite ((consumed_steady ..).trans (failTransfer_steady ..)) (modDmv_steady ..))

theorem demandBack_steady (s : State) (h : Nat) (poisoned : Bool) : Steady s (s.demandBack h poisoned) := by
  unfold State.demandBack
  dsimp only
  split
  · exact steady_refl _
  · exact ((readUsed_steady ..).trans (modDmv_steady ..)).trans (steady_ite ((consumed_steady ..).trans (failTransfer_steady ..)) (steady_refl _))

theorem burstOp_steady (u : DmvUser) (poisoned : Bool) (data : List Byte) (s : State) : Steady s (burstOp u poisoned data s) := by
  unfold burstOp
  dsimp only
  split
  · exact demandBack_steady ..
  · split
    · exact takeBursts_steady ..
    · exact steady_ite ((takeBursts_steady ..).trans (askRead_steady ..)) ((takeBursts_steady ..).trans (fillSlot_steady ..))

theorem issueFrom_steady (s : State) (x : Slot) : Steady s (s.issueFrom x) :=
  (putData_steady ..).trans ((modDmv_steady ..).trans (addWritten_steady ..))

theorem settleCopy_steady (s : State) (u : DmvUser) : Steady s (s.settleCopy u) := by
  unfold State.settleCopy
  split
  · split
    · exact steady_ite ((modEntry_steady ..).trans (endCopy_steady ..)) (steady_refl _)
    · exact steady_refl _
  · exact steady_refl _

theorem issueDemand_steady (s : State) (h : Nat) : Steady s (s.issueDemand h) := by
  unfold State.issueDemand
  split
  · exact steady_refl _
  · exact (putData_steady ..).trans (modDmv_steady ..)

theorem writeReqOp_steady (u : DmvUser) (s : State) : Steady s (writeReqOp u s) := by
  unfold writeReqOp
  split
  · exact issueDemand_steady ..
  · split
    · exact steady_refl _
    · exact steady_ite (steady_refl _) ((issueFrom_steady ..).trans (settleCopy_steady ..))

theorem flushFor_steady (s : State) (fn space a : Nat) : Steady s (s.flushFor fn space a) := steady_ite (emitFor_steady ..) (steady_refl _)

theorem writebackOp_steady (g : Nat) (s : State) : Steady s (writebackOp g s) := by
  unfold writebackOp
  dsimp only
  split
  · exact steady_refl _
  · exact steady_ite (steady_refl _) (((flushFor_steady ..).trans (putRecord_steady ..)).trans ((modChan_steady ..).trans ((steady_ite
      (assertSource_steady ..) (steady_refl _)).trans ((steady_ite ((modChan_steady ..).trans (assertSource_steady ..)) (steady_refl _)).trans
      ((modChan_steady ..).trans (startDescs_steady ..))))))

theorem demandReadOp_steady (h space a n : Nat) (s : State) : Steady s (demandReadOp h space a n s) :=
  steady_ite (modDmv_steady ..) (steady_refl _)

theorem demandWriteOp_steady (h w a : Nat) (bs : List Byte) (s : State) : Steady s (demandWriteOp h w a bs s) := by
  unfold demandWriteOp
  dsimp only
  split
  · exact modDmv_steady ..
  · exact steady_ite (modDmv_steady ..) ((putData_steady ..).trans (modDmv_steady ..))

theorem reread_steady (s : State) (x : Slot) : Steady s (s.reread x) := modDmv_steady ..

theorem bufParityOp_steady (u : DmvUser) (s : State) : Steady s (bufParityOp u s) := by
  unfold bufParityOp
  dsimp only
  split
  · exact steady_ite ((report_steady ..).trans (modDmv_steady ..)) (report_steady ..)
  · exact report_steady ..
  · exact steady_ite (((report_steady ..).trans (modDmv_steady ..)).trans (failTransfer_steady ..)) ((report_steady ..).trans (reread_steady ..))

theorem setOwner_steady (s : State) (pool i v : Nat) : Steady s (s.setOwner pool i v) := by
  unfold State.setOwner
  dsimp only
  split
  · exact (modPool_steady ..).trans (memWrite_steady ..)
  · exact modPool_steady ..

theorem writeRing_steady (s : State) (pool n : Nat) : Steady s (s.writeRing pool n) := by
  unfold State.writeRing
  split
  · exact steady_refl _
  · exact forEach_steady _ (fun _ _ => memWrite_steady ..) _

theorem poolRefillOp_steady (pool : Nat) (s : State) : Steady s (poolRefillOp pool s) := modPool_steady ..

theorem poolSpillOp_steady (pool : Nat) (s : State) : Steady s (poolSpillOp pool s) := by
  unfold poolSpillOp
  split
  · exact steady_ite ((setPool_steady ..).trans (writeRing_steady ..)) (steady_refl _)
  · exact steady_refl _

theorem poolEvent_steady (s : State) (fn code arg : Nat) : Steady s (s.poolEvent fn code arg) :=
  ((event_steady ..).trans (modBpm_steady ..)).trans (report_steady ..)

theorem freeDone_steady (s : State) (fn code : Nat) : Steady s (s.freeDone fn code) := modPath_steady ..
theorem allocDone_steady (s : State) (fn addr flags : Nat) : Steady s (s.allocDone fn addr flags) := modPath_steady ..

theorem dropPath_steady (s : State) (fn : Nat) (isFree : Bool) : Steady s (s.dropPath fn isFree) :=
  forEach_steady _ (fun _ _ => modPool_steady ..) _

theorem allocReqOp_steady (fn : Nat) (v : Word) (s : State) : Steady s (allocReqOp fn v s) := by
  unfold allocReqOp
  dsimp only
  split
  · exact ((dropPath_steady ..).trans (modPath_steady ..)).trans (allocDone_steady ..)
  · exact ((dropPath_steady ..).trans (modPath_steady ..)).trans (modPool_steady ..)

theorem freeOp_steady (fn : Nat) (v : Word) (s : State) : Steady s (freeOp fn v s) := by
  unfold freeOp
  dsimp only
  split
  · exact ((((dropPath_steady ..).trans (dropHeld_steady ..)).trans (modPath_steady ..)).trans (poolEvent_steady ..)).trans (freeDone_steady ..)
  · exact (((dropPath_steady ..).trans (dropHeld_steady ..)).trans (modPath_steady ..)).trans (modPool_steady ..)

theorem takeFree_steady (s : State) (pool : Nat) (p : Pool) (r : PoolReq) : Steady s (s.takeFree pool p r) :=
  (steady_ite (steady_refl _) (setOwner_steady ..)).trans ((steady_ite ((modPool_steady ..).trans (writeRing_steady ..)) (steady_refl _)).trans
    (modPool_steady ..))

theorem serveFree_steady (s : State) (pool : Nat) (p : Pool) (r : PoolReq) : Steady s (s.serveFree pool p r) :=
  (modPool_steady ..).trans ((steady_ite (takeFree_steady ..) (poolEvent_steady ..)).trans (freeDone_steady ..))

theorem giveBuffer_steady (s : State) (r : PoolReq) (a : Nat) : Steady s (s.giveBuffer r a) :=
  steady_ite (allocDone_steady ..) ((modChan_steady ..).trans (askPool_steady ..))

theorem sayEmpty_steady (s : State) (r : PoolReq) : Steady s (s.sayEmpty r) :=
  (modBpm_steady ..).trans (steady_ite (allocDone_steady ..) (modChan_steady ..))

theorem serveAlloc_steady (s : State) (pool : Nat) (p : Pool) (r : PoolReq) : Steady s (s.serveAlloc pool p r) := by
  unfold State.serveAlloc
  dsimp only
  split
  · exact (setPool_steady ..).trans (sayEmpty_steady ..)
  · exact ((setPool_steady ..).trans (setOwner_steady ..)).trans (giveBuffer_steady ..)

theorem arbitrateOp_steady (pool : Nat) (s : State) : Steady s (arbitrateOp pool s) := by
  unfold arbitrateOp
  split
  · exact steady_refl _
  · split
    · exact serveFree_steady ..
    · split
      · exact serveAlloc_steady ..
      · exact steady_refl _

theorem allocBackoffOp_steady (g : Nat) (s : State) : Steady s (allocBackoffOp g s) :=
  steady_ite (steady_refl _) (((reach_steady ..).trans (modChan_steady ..)).trans (askPool_steady ..))

theorem allocWaitOp_steady (g : Nat) (s : State) : Steady s (allocWaitOp g s) := by
  unfold allocWaitOp
  dsimp only
  split
  · exact steady_refl _
  · split
    · exact steady_refl _
    · exact (((reach_steady ..).trans (unask_steady ..)).trans (modChan_steady ..)).trans (askPool_steady ..)

theorem dropPool_steady (s : State) (pool : Nat) : Steady s (s.dropPool pool) := by
  unfold State.dropPool
  dsimp only
  split
  · exact steady_refl _
  · exact (setPool_steady ..).trans (forEach_steady _ (fun _ _ => steady_ite (steady_ite ((poolEvent_steady ..).trans (freeDone_steady ..))
      (allocDone_steady ..)) ((modChan_steady ..).trans (askPool_steady ..))) _)

end Sys2Proof.Machine
end

section
/-! PROOFS. The admin commands, fences and the fault collector keep the queue, device memory and the fault FIFO. -/
namespace Sys2Proof.Machine

theorem admStop_steady (s : State) (cfg : Bool) (fn cause index : Nat) : Steady s (s.admStop cfg fn cause index) :=
  steady_ite ((report_steady ..).trans (enterSafe_steady ..)) ((modAdmQ_steady ..).trans (((modQe_steady ..).trans (report_steady ..)).trans
    ((putAdmStatus_steady ..).trans (event_steady ..))))

theorem admBellOp_steady (cfg : Bool) (fn : Nat) (v : Word) (s : State) : Steady s (admBellOp cfg fn v s) :=
  steady_ite (modQe_steady ..) (steady_ite (modAdm_steady ..) (admStop_steady ..))

theorem runAdm_steady (s : State) (cfg : Bool) (fn op : Nat) (e : Entry) {f : Entry → AdmEnd} (hf : ∀ x, EndsAdm s (f x)) :
    Steady s (s.runAdm cfg fn op e f) := by
  unfold State.runAdm
  dsimp only
  refine steady_ite (admStop_steady ..) ?_
  split
  · exact finishAdm_steady ..
  · next x _ =>
    have hx := (hf x).steady
    refine steady_ite (admStop_steady ..) (steady_ite (steady_refl _) ?_)
    split
    · next h => exact (getD_steady fun t ht => hx t (by rw [h, ht])).trans (finishAdm_steady ..)
    · next h => exact getD_steady fun t ht => hx t (by rw [h, ht])

theorem admCmd_steady {fn op : Nat} {e : Entry} {f : State → Entry → AdmEnd} (hf : ∀ t x, EndsAdm t (f t x)) {s : State} :
    Ends s (admCmd fn op e f s) :=
  ends_next (onlyIf_steady _ (fun t => runAdm_steady _ _ _ _ _ (hf t)) _)

theorem createQueueCmd_steady (fn : Nat) (s : State) (e : Entry) : EndsAdm s (createQueueCmd fn s e) := by
  unfold createQueueCmd
  split
  · exact endsAdm_none
  · split
    · exact endsAdm_none
    · split
      · exact endsAdm_none
      · split
        · exact endsAdm_none
        · exact endsAdm_some (((modQueue_steady ..).trans (tookFree_steady ..)).trans (putStatus_steady ..))

theorem onQueue_steady {fn : Nat} {ok : QState → Bool} {f : Nat → AdmEnd} {s : State} {e : Entry} (hf : ∀ n, EndsAdm s (f n)) :
    EndsAdm s (onQueue fn ok f s e) := by
  unfold onQueue
  split
  · exact endsAdm_none
  · split
    · exact hf _
    · exact endsAdm_none

theorem destroyQueueCmd_steady (fn : Nat) (s : State) (e : Entry) : EndsAdm s (destroyQueueCmd fn s e) :=
  onQueue_steady (fun _ => endsAdm_some (modQueue_steady ..))

theorem enableQueueCmd_steady (fn : Nat) (s : State) (e : Entry) : EndsAdm s (enableQueueCmd fn s e) :=
  onQueue_steady (fun _ => endsAdm_some (modQueue_steady ..))

theorem takeBack_steady (s : State) (q : Nat) (e : QEntry) : Steady s (s.takeBack q e) :=
  (modDsc_steady ..).trans ((steady_ite (modSess_steady ..) (steady_ite (modSess_steady ..) (steady_refl _))).trans (forEach_steady _ (fun _ _ =>
    settleState_steady ..) _))

theorem disableQueue_steady (s : State) (q : Nat) : Steady s (s.disableQueue q) :=
  (modQueue_steady ..).trans (forEach_steady _ (fun _ _ => takeBack_steady ..) _)

theorem disableQueueCmd_steady (fn : Nat) (s : State) (e : Entry) : EndsAdm s (disableQueueCmd fn s e) :=
  onQueue_steady (fun _ => endsAdm_some ((disableQueue_steady ..).trans (settleQueue_steady ..)))

theorem resetQueueCmd_steady (fn : Nat) (s : State) (e : Entry) : EndsAdm s (resetQueueCmd fn s e) :=
  onQueue_steady (fun _ => endsAdm_some ((modQueue_steady ..).trans (putStatus_steady ..)))

theorem setQueueModCmd_steady (fn : Nat) (s : State) (e : Entry) : EndsAdm s (setQueueModCmd fn s e) :=
  endsAdm_ite (endsAdm_none) (onQueue_steady (fun _ => endsAdm_some (modQueue_steady ..)))

theorem createSessionCmd_steady (fn : Nat) (b : Block) (s : State) (e : Entry) : EndsAdm s (createSessionCmd fn b s e) := by
  unfold createSessionCmd
  split
  · exact endsAdm_none
  · split
    · exact endsAdm_none
    · exact endsAdm_none
    · split
      · exact endsAdm_none
      · split
        · exact endsAdm_none
        · split
          · exact endsAdm_none
          · exact endsAdm_none
          · exact endsAdm_some ((((modSess_steady ..).trans (tookFree_steady ..)).trans (tookPlaces_steady ..)).trans (openHead_steady ..))

theorem onSession_steady {fn : Nat} {f : Nat → AdmEnd} {s : State} {e : Entry} (hf : ∀ n, EndsAdm s (f n)) :
    EndsAdm s (onSession fn f s e) := by
  unfold onSession
  split
  · exact endsAdm_none
  · split
    · exact endsAdm_none
    · exact hf _

theorem destroySessionCmd_steady (fn : Nat) (s : State) (e : Entry) : EndsAdm s (destroySessionCmd fn s e) :=
  onSession_steady (fun _ => endsAdm_some ((modSess_steady ..).trans (drainSession_steady ..)))

theorem storeParams_steady (s : State) (n : Nat) (p : Params) (rs : List Range) : Steady s (s.storeParams n p rs) :=
  (modSess_steady ..).trans (tookPlaces_steady ..)

theorem setParamsCmd_steady (fn : Nat) (b : Block) (s : State) (e : Entry) : EndsAdm s (setParamsCmd fn b s e) := by
  unfold setParamsCmd
  split
  · exact endsAdm_none
  · split
    · exact endsAdm_none
    · split
      · exact endsAdm_none
      · refine onSession_steady fun _ => ?_
        dsimp only
        split
        · exact endsAdm_none
        · split
          · exact endsAdm_none
          · exact endsAdm_some (storeParams_steady ..)

theorem resetSessionCmd_steady (fn : Nat) (s : State) (e : Entry) : EndsAdm s (resetSessionCmd fn s e) :=
  onSession_steady (fun _ => endsAdm_some (resetSession_steady ..))

theorem querySessionCmd_steady (fn : Nat) (s : State) (e : Entry) : EndsAdm s (querySessionCmd fn s e) := by
  unfold querySessionCmd
  split
  · exact endsAdm_none
  · exact endsAdm_some (steady_refl _)

theorem writePool_steady (s : State) (p : Pool) : Steady s (s.writePool p) := (memWrite_steady ..).trans (memWrite_steady ..)

theorem createPoolCmd_steady (fn : Nat) (s : State) (e : Entry) : EndsAdm s (createPoolCmd fn s e) := by
  unfold createPoolCmd
  dsimp only
  split
  · exact endsAdm_none
  · split
    · exact endsAdm_none
    · split
      · exact endsAdm_none
      · split
        · exact endsAdm_none
        · split
          · exact endsAdm_none
          · exact endsAdm_none
          · exact endsAdm_some (((setPool_steady ..).trans (tookFree_steady ..)).trans (writePool_steady ..))

theorem destroyPoolCmd_steady (fn : Nat) (s : State) (e : Entry) : EndsAdm s (destroyPoolCmd fn s e) := by
  unfold destroyPoolCmd
  split
  · exact endsAdm_none
  · exact endsAdm_ite (endsAdm_some (dropPool_steady ..)) (endsAdm_none)

theorem createEventRingCmd_steady (fn : Nat) (s : State) (e : Entry) : EndsAdm s (createEventRingCmd fn s e) := by
  unfold createEventRingCmd
  split
  · exact endsAdm_none
  · exact endsAdm_ite (endsAdm_none) (endsAdm_some (modRing_steady ..))

theorem destroyEventRingCmd_steady (fn : Nat) (s : State) (x : Entry) : EndsAdm s (destroyEventRingCmd fn s x) :=
  endsAdm_ite (endsAdm_some (modRing_steady ..)) (endsAdm_none)

theorem setClassCmd_steady (fn : Nat) (s : State) (e : Entry) : EndsAdm s (setClassCmd fn s e) := by
  unfold setClassCmd
  split
  · exact endsAdm_none
  · split
    · exact endsAdm_none
    · exact endsAdm_ite (endsAdm_some (modCls_steady ..)) (endsAdm_none)

theorem queryClassCmd_steady (fn : Nat) (s : State) (e : Entry) : EndsAdm s (queryClassCmd fn s e) := by
  unfold queryClassCmd
  split
  · exact endsAdm_none
  · exact endsAdm_ite (endsAdm_some (steady_refl _)) (endsAdm_none)

theorem setGates_steady (s : State) (l : Nat) (g : GateList) (at_ : Nat) : Steady s (s.setGates l g at_) :=
  steady_ite (modLane_steady ..) (steady_ite (modLane_steady ..) (modLane_steady ..))

theorem setGateListCmd_steady (fn : Nat) (b : Block) (s : State) (e : Entry) : EndsAdm s (setGateListCmd fn b s e) := by
  unfold setGateListCmd
  dsimp only
  split
  · exact endsAdm_none
  · split
    · exact endsAdm_none
    · split
      · exact endsAdm_none
      · exact endsAdm_none
      · exact endsAdm_ite (endsAdm_none) (endsAdm_some (setGates_steady ..))

theorem queryFunctionCmd_steady (fn : Nat) (s : State) (e : Entry) : EndsAdm s (queryFunctionCmd fn s e) :=
  endsAdm_ite (endsAdm_none) (endsAdm_ite (endsAdm_none) (endsAdm_some ((tookFree_steady ..).trans (tookFree_steady ..))))

theorem repairPatch_steady (s : State) (h : Nat) : Steady s (s.repairPatch h) := by
  unfold State.repairPatch
  split
  · exact steady_ite (steady_refl _) (modHalf_steady ..)
  · exact steady_refl _

theorem reclaim_steady (s : State) (h : Nat) : Steady s (s.reclaim h) :=
  (forEach_steady _ (fun _ _ => (unhint_steady ..).trans (modDsc_steady ..)) _).trans (moveClaim_steady ..)

theorem holdClock_steady (s : State) (h : Nat) : Steady s (s.holdClock h) := steady_ite (modCore_steady ..) (steady_refl _)

theorem fence_steady (s : State) (h : Nat) (abort : Bool) (cause : Nat) : Steady s (s.fence h abort cause) := by
  unfold State.fence
  dsimp only
  refine .trans ?_ (settleHalf_steady ..)
  split
  · exact steady_ite ((((holdClock_steady ..).trans (modHalf_steady ..)).trans (reclaim_steady ..)).trans (sendReq_steady ..)) (((holdClock_steady
      ..).trans (modHalf_steady ..)).trans (reclaim_steady ..))
  · exact ((holdClock_steady ..).trans (modHalf_steady ..)).trans (reclaim_steady ..)

theorem ignoreCmd_steady (s : State) (core : Nat) : Steady s (s.ignoreCmd core) := modCore_steady ..

theorem fenceOp_steady (core e : Nat) (abort : Bool) (s : State) : Steady s (fenceOp core e abort s) :=
  (modCore_steady ..).trans (steady_ite (fence_steady ..) (ignoreCmd_steady ..))

theorem unfenceOp_steady (core e : Nat) (s : State) : Steady s (unfenceOp core e s) := steady_ite (modHalf_steady ..) (ignoreCmd_steady ..)

theorem sendClock_steady (s : State) (core mhz : Nat) : Steady s (s.sendClock core mhz) :=
  ((((modCore_steady ..).trans (modPins_steady ..)).trans (emit_steady ..)).trans (tookFree_steady ..)).trans ((modHalf_steady ..).trans
    (modHalf_steady ..))

theorem wantClock_steady (s : State) (core mhz : Nat) : Steady s (s.wantClock core mhz) := (modCore_steady ..).trans (modCore_steady ..)
theorem clockChangeOp_steady (core mhz : Nat) (s : State) : Steady s (clockChangeOp core mhz s) := wantClock_steady ..

theorem clockSettledOp_steady (core : Nat) (s : State) : Steady s (clockSettledOp core s) := by
  unfold clockSettledOp
  split
  · exact steady_ite (sendClock_steady ..) (steady_refl _)
  · exact steady_refl _

theorem reportCheck_steady (s : State) (h cause : Nat) (a : BitVec 13) : Steady s (s.reportCheck h cause a) :=
  (steady_ite (tookFree_steady ..) (steady_refl _)).trans (report_steady ..)

theorem checkUnit_steady (s : State) (h : Nat) : Steady s (s.checkUnit h) := by
  unfold State.checkUnit
  dsimp only
  split
  · exact steady_refl _
  · exact steady_ite (failUnit_steady ..) ((modUnit_steady ..).trans (rollback_steady ..))

theorem machineCheck_steady (s : State) (h cause : Nat) (a : BitVec 13) : Steady s (s.machineCheck h cause a) :=
  (((((reportCheck_steady ..).trans (checkUnit_steady ..)).trans (modHalf_steady ..)).trans (reclaim_steady ..)).trans (holdClock_steady
    ..)).trans (modHalf_steady ..)

theorem machineCheckOp_steady (h cause : Nat) (a : BitVec 13) (s : State) : Steady s (machineCheckOp h cause a s) := machineCheck_steady ..

theorem watchdogOp_steady (h : Nat) (s : State) : Steady s (watchdogOp h s) :=
  steady_ite ((modHalf_steady ..).trans (machineCheck_steady ..)) (steady_refl _)

theorem selfTestOp_steady (h : Nat) (r : SelfTest) (s : State) : Steady s (selfTestOp h r s) := by
  unfold selfTestOp
  dsimp only
  split
  · exact steady_refl _
  · split
    · split
      · exact steady_ite ((((repairPatch_steady ..).trans (modHalf_steady ..)).trans (modCore_steady ..)).trans (steady_ite (sendClock_steady ..)
          (steady_refl _))) ((repairPatch_steady ..).trans (modHalf_steady ..))
      · exact (repairPatch_steady ..).trans (modHalf_steady ..)
    · exact ((modHalf_steady ..).trans (modCore_steady ..)).trans ((tookFree_steady ..).trans (report_steady ..))

theorem rcacheParityOp_steady (c a : Nat) (s : State) : Steady s (rcacheParityOp c a s) :=
  ((modCluster_steady ..).trans (report_steady ..)).trans ((tookFree_steady ..).trans (modCluster_steady ..))

theorem clusterErrorOp_steady (c : Nat) (s : State) : Steady s (clusterErrorOp c s) :=
  (((tookFree_steady ..).trans (report_steady ..)).trans (modCluster_steady ..)).trans (forUpTo_steady _ (fun _ _ => steady_ite (fence_steady ..)
    (steady_refl _)) _)

theorem tellAer_steady (s : State) (r : Rec) : Steady s (s.tellAer r) :=
  steady_ite (steady_refl _) (steady_ite (tellHost_steady ..) (tellHost_steady ..))

theorem tellRecord_steady (s : State) (r : Rec) (seq : Word) (stored : Bool) : Steady s (s.tellRecord r seq stored) :=
  (assertSource_steady ..).trans (((steady_ite (steady_refl _) (event_steady ..)).trans (tellAer_steady ..)).trans ((steady_ite (stopAlive_steady
    ..) (steady_refl _)).trans (steady_ite (enterSafe_steady ..) (steady_refl _))))

theorem faultRecordOp_steady (s : State) : Steady s (faultRecordOp s) := by
  unfold faultRecordOp
  split
  · exact steady_refl _
  · next r rest _ =>
    have hfcl : Steady s (s.modFcl fun f => { f.accept r with inbox := rest }) := ⟨rfl, id, accept_length s.fcl r⟩
    exact hfcl.trans (tellRecord_steady ..)

theorem fclPopOp_steady (v : Word) (s : State) : Steady s (fclPopOp v s) := by
  refine steady_ite ⟨rfl, id, fun h => ?_⟩ (steady_refl _)
  simp only [modFcl_fcl, List.length_drop]
  omega

theorem firstClearOp_steady (s : State) : Steady s (firstClearOp s) := modFcl_steady ..

theorem aliveResumeOp_steady (s : State) : Steady s (aliveResumeOp s) :=
  steady_ite (((modFcl_steady ..).trans (modPins_steady ..)).trans (settleAlert_steady ..)) (steady_refl _)

theorem fclParityOp_steady (s : State) : Steady s (fclParityOp s) := enterSafe_steady ..

theorem policyWindowOp_steady (hour : Bool) (s : State) : Steady s (policyWindowOp hour s) :=
  steady_ite (modFcl_steady ..) ((forUpTo_steady _ (fun _ _ => modHalf_steady ..) _).trans ((modMau_steady ..).trans (modPcf_steady ..)))

theorem lockstepOp_steady (pair : Nat) (s : State) : Steady s (lockstepOp pair s) := by
  unfold lockstepOp
  exact (modFcl_steady ..).trans (((report_steady ..).trans (resetMbx_steady ..)).trans (((abandonSems_steady ..).trans
    (abandonSems_steady ..)).trans (steady_ite (report_steady ..) (steady_refl _))))

theorem restartDoneOp_steady (pair : Nat) (s : State) : Steady s (restartDoneOp pair s) := steady_ite (steady_refl _) (modFcl_steady ..)

theorem electrumLineOp_steady (n : Nat) (s : State) : Steady s (electrumLineOp n s) := by
  unfold electrumLineOp
  split
  · exact steady_refl _
  · exact ((dropLine_steady ..).trans (modCtx_steady ..)).trans (((tookFree_steady ..).trans (report_steady ..)).trans
      (steady_ite (faultReset_steady ..) (getD_steady fun _ => allocLine_steady)))

theorem nitinolErrorOp_steady (e : Nat) (merge : Bool) (a : Nat) (s : State) : Steady s (nitinolErrorOp e merge a s) :=
  ((tookFree_steady ..).trans (report_steady ..)).trans (steady_ite ((modNtl_steady ..).trans (forEach_steady _ (fun _ _ => (poisonLine_steady
    ..).trans (loseLine_steady ..)) _)) (steady_refl _))

theorem storeTemps_steady (s : State) (temps : List Int) : Steady s (s.storeTemps temps) := by
  unfold State.storeTemps
  exact modBoot_steady ..

theorem lowerClock_steady (s : State) (core : Nat) : Steady s (s.lowerClock core) :=
  steady_ite (steady_refl _) (((tookFree_steady ..).trans (modCore_steady ..)).trans (wantClock_steady ..))

theorem restoreClock_steady (s : State) (core : Nat) : Steady s (s.restoreClock core) := by
  unfold State.restoreClock
  split
  · exact (modCore_steady ..).trans (wantClock_steady ..)
  · exact steady_refl _

theorem hotSensor_steady (s : State) (i : Nat) (x : Int) : Steady s (s.hotSensor i x) :=
  (report_steady ..).trans (forEach_steady _ (fun _ _ => lowerClock_steady ..) _)

theorem thermTrip_steady (s : State) (i : Nat) : Steady s (s.thermTrip i) :=
  ((report_steady ..).trans (modPins_steady ..)).trans (enterSafe_steady ..)

theorem ageCores_steady (s : State) : Steady s s.ageCores := (tookFree_steady ..).trans (⟨rfl, id, id⟩)

theorem thermalReadingOp_steady (temps : List Int) (s : State) : Steady s (thermalReadingOp temps s) := by
  unfold thermalReadingOp
  dsimp only
  refine .trans ?_ ((steady_ite (modPins_steady ..) (steady_refl _)).trans (settleAlert_steady ..))
  split
  · exact steady_ite (steady_ite ((steady_ite (((storeTemps_steady ..).trans (ageCores_steady ..)).trans (forEach_steady _ (fun _ _ =>
      hotSensor_steady ..) _)) (storeTemps_steady ..)).trans (forUpTo_steady _ (fun _ _ => steady_ite (restoreClock_steady ..) (steady_refl _))
      _)) (steady_ite (((storeTemps_steady ..).trans (ageCores_steady ..)).trans (forEach_steady _ (fun _ _ => hotSensor_steady ..) _))
      (storeTemps_steady ..))) ((steady_ite ((steady_ite (((storeTemps_steady ..).trans (ageCores_steady ..)).trans (forEach_steady _ (fun _ _ =>
      hotSensor_steady ..) _)) (storeTemps_steady ..)).trans (forUpTo_steady _ (fun _ _ => steady_ite (restoreClock_steady ..) (steady_refl _))
      _)) (steady_ite (((storeTemps_steady ..).trans (ageCores_steady ..)).trans (forEach_steady _ (fun _ _ => hotSensor_steady ..) _))
      (storeTemps_steady ..))).trans (thermTrip_steady ..))
  · exact steady_ite ((steady_ite (((storeTemps_steady ..).trans (ageCores_steady ..)).trans (forEach_steady _ (fun _ _ => hotSensor_steady ..)
      _)) (storeTemps_steady ..)).trans (forUpTo_steady _ (fun _ _ => steady_ite (restoreClock_steady ..) (steady_refl _)) _)) (steady_ite
      (((storeTemps_steady ..).trans (ageCores_steady ..)).trans (forEach_steady _ (fun _ _ => hotSensor_steady ..) _)) (storeTemps_steady ..))

end Sys2Proof.Machine
end

section
/-! PROOFS. The coding core and the analysis keep the queue, device memory and the fault FIFO. -/
namespace Sys2Proof.Machine

theorem withStored_steady {s t : State} (h : Steady s t) : Steady s (s.withStored t) := ⟨rfl, h.cells, id⟩

theorem keepPlanes_steady (s : State) (base chroma w h : Nat) (ps : List Plane) : Steady s (s.keepPlanes base chroma w h ps) :=
  withStored_steady (storePicture_steady ..)

theorem storeSide_steady (s : State) (u : WUnit) (e : QEntry) (au : AuInfo) (i : PicInfo) : Steady s (s.storeSide u e au i) := by
  unfold State.storeSide
  exact withStored_steady (devWrite_steady ..)

theorem storeUnit_steady (s : State) (u : WUnit) (e : QEntry) (au : AuInfo) (i : PicInfo) : Steady s (s.storeUnit u e au i) :=
  (steady_ite (keepPlanes_steady ..) (steady_refl _)).trans (steady_ite (storeSide_steady ..) (steady_refl _))

theorem writeOut_steady (s : State) (q : Nat) (seq : Word) (n : Nat) (p : Pict) (b : OutBuf) : Steady s (s.writeOut q seq n p b) :=
  forEach_steady _ (fun _ _ => entryOut_steady ..) _

theorem writeStream_steady (s : State) (u : WUnit) (f : Fifo) (a b : Nat) : Steady s (s.writeStream u f a b) :=
  steady_ite (steady_refl _) ((steady_ite (devWrite_steady ..) (entryOut_steady ..)).trans (modUnit_steady ..))

theorem ackFifo_steady (s : State) (u : WUnit) (h : Nat) : Steady s (s.ackFifo u h) := steady_ite (modHalf_steady ..) (steady_refl _)

theorem progress_steady (s : State) (u : WUnit) (f : Fifo) (done : Bool) : Steady s (s.progress u f done) :=
  steady_ite (steady_refl _) ((modEntry_steady ..).trans (putDue_steady ..))

theorem fifoWrite_steady (s : State) (u : WUnit) (h n : Nat) : Steady s (s.fifoWrite u h n) :=
  steady_ite (steady_refl _) (((writeStream_steady ..).trans (modHalf_steady ..)).trans (ackFifo_steady ..))

theorem overrunFifo_steady (s : State) (u : WUnit) (h : Nat) : Steady s (s.overrunFifo u h) :=
  ((fifoWrite_steady ..).trans (modHalf_steady ..)).trans (progress_steady ..)

theorem writeSlots_steady (s : State) (u : WUnit) (h : Nat) (old : Fifo) : Steady s (s.writeSlots u h old) :=
  forEach_steady _ (fun _ _ => steady_ite (writeStream_steady ..) (steady_refl _)) _

theorem fifoTakes_steady (s : State) (u : WUnit) (h : Nat) (change : Params → Nat → Fifo → Fifo) : Steady s (s.fifoTakes u h change) :=
  ((modHalf_steady ..).trans (writeSlots_steady ..)).trans (steady_ite (steady_refl _) (steady_ite (overrunFifo_steady ..) (fifoWrite_steady ..)))

theorem feedFifo_steady (s : State) (u : WUnit) (h : Nat) (m : FifoMark) (bs : List Byte) : Steady s (s.feedFifo u h m bs) := fifoTakes_steady ..

theorem tailFlushOp_steady (h : Nat) (s : State) : Steady s (tailFlushOp h s) := by
  unfold tailFlushOp
  dsimp only
  split
  · exact steady_refl _
  · exact steady_ite (steady_refl _) (((reach_steady ..).trans (fifoWrite_steady ..)).trans (progress_steady ..))

theorem stageBytes_steady (s : State) (u : WUnit) (h : Nat) (m : FifoMark) (bs : List Byte) : Steady s (s.stageBytes u h m bs) :=
  ((devWrite_steady ..).trans (modUnit_steady ..)).trans (modHalf_steady ..)

theorem keepPiece_steady (s : State) (u : WUnit) (h : Nat) : Steady s (s.keepPiece u h) := modSess_steady ..

theorem stageHeads_steady (s : State) (u : WUnit) (h : Nat) : Steady s (s.stageHeads u h) :=
  (forEach_steady _ (fun _ _ => stageBytes_steady ..) _).trans (keepPiece_steady ..)

theorem copyPiece_steady (s : State) (u : WUnit) (h part : Nat) : Steady s (s.copyPiece u h part) := by
  unfold State.copyPiece
  dsimp only
  split
  · exact steady_refl _
  · exact foldl_fst_steady _ (fun _ _ => feedFifo_steady ..) (s, 0)

theorem copyHidden_steady (s : State) (u : WUnit) (h : Nat) : Steady s (s.copyHidden u h) := by
  unfold State.copyHidden
  dsimp only
  split
  · exact steady_ite (steady_refl _) (fifoTakes_steady ..)
  · exact steady_refl _

theorem openFifo_steady (s : State) (u : WUnit) (h : Nat) : Steady s (s.openFifo u h) :=
  steady_ite (steady_refl _) ((modHalf_steady ..).trans ((steady_ite (copyPiece_steady ..) (forEach_steady _ (fun _ _ => fifoTakes_steady ..)
    _)).trans ((((fifoTakes_steady ..).trans (copyHidden_steady ..)).trans (modHalf_steady ..)).trans (steady_ite (feedFifo_steady ..)
    (steady_refl _)))))

theorem emitBytes_steady (s : State) (u : WUnit) (h : Nat) (m : FifoMark) (bs : List Byte) : Steady s (s.emitBytes u h m bs) :=
  steady_ite (stageBytes_steady ..) (feedFifo_steady ..)

theorem codeWord_steady (s : State) (u : WUnit) (h : Nat) (w : Word) (n : Nat) (m : FifoMark) : Steady s (s.codeWord u h w n m) :=
  (steady_ite (openFifo_steady ..) (steady_refl _)).trans (steady_ite ((emitBytes_steady ..).trans (steady_ite (emitBytes_steady ..) (steady_refl
    _))) (emitBytes_steady ..))

theorem cutSlice_steady (s : State) (u : WUnit) (h ctus : Nat) : Steady s (s.cutSlice u h ctus) := by
  unfold State.cutSlice
  dsimp only
  split
  · exact steady_ite (emitBytes_steady ..) (steady_refl _)
  · exact steady_refl _

theorem fillPicture_steady (s : State) (u : WUnit) (h : Nat) : Steady s (s.fillPicture u h) :=
  steady_ite (steady_refl _) (((modUnit_steady ..).trans (fifoTakes_steady ..)).trans (modSess_steady ..))

theorem drainFifo_steady (s : State) (u : WUnit) (h : Nat) : Steady s (s.drainFifo u h) :=
  (openFifo_steady ..).trans ((steady_ite (forEach_steady _ (fun _ _ => copyPiece_steady ..) _) (steady_refl _)).trans (((fifoTakes_steady
    ..).trans (fillPicture_steady ..)).trans (steady_ite (steady_refl _) ((fifoWrite_steady ..).trans (progress_steady ..)))))

theorem putRecords_steady (s : State) (u : WUnit) (e : QEntry) (p : SrcPic) (bs : List BlockRec) : Steady s (s.putRecords u e p bs) := by
  unfold State.putRecords
  dsimp only
  split
  · exact forEach_steady _ (fun _ _ => entryOut_steady ..) _
  · exact steady_refl _

theorem codedSide_steady (s : State) (u : WUnit) (h : Nat) (p : SrcPic) : Steady s (s.codedSide u h p) := by
  unfold State.codedSide
  exact withStored_steady (devWrite_steady ..)

theorem storeCoded_steady (s : State) (u : WUnit) (h : Nat) (e : QEntry) (p : SrcPic) : Steady s (s.storeCoded u h e p) :=
  (keepPlanes_steady ..).trans ((steady_ite (steady_refl _) (codedSide_steady ..)).trans ((putRecords_steady ..).trans (modSess_steady ..)))

theorem finishCoding_steady (s : State) (u : WUnit) (h : Nat) : Steady s (s.finishCoding u h) := by
  unfold State.finishCoding
  split
  · exact steady_ite (steady_refl _) (storeCoded_steady ..)
  · exact steady_refl _

theorem readPoison_steady (s : State) (u : WUnit) (source : Nat) (rs : List (Nat × Nat)) : Steady s (s.readPoison u source rs) :=
  (forEach_steady _ (fun _ _ => (report_steady ..).trans (loseLine_steady ..)) _).trans (poisonUnit_steady ..)

theorem loseTiles_steady (s : State) (u : WUnit) (source : Nat) (ts : List TileRef) : Steady s (s.loseTiles u source ts) :=
  (forEach_steady _ (fun _ _ => (report_steady ..).trans (loseTile_steady ..)) _).trans (poisonUnit_steady ..)

theorem endCycles_steady (s : State) (u : WUnit) (e : QEntry) : Steady s (s.endCycles u e) := modUnit_steady ..

theorem violate_steady (s : State) (u : WUnit) (h ctu : Nat) : Steady s (s.violate u h ctu) :=
  (modHalf_steady ..).trans (steady_ite (modHalf_steady ..) (modSess_steady ..))

theorem lookup_steady (s : State) (u : WUnit) (h l : Nat) : Steady s (s.lookup u h l) := steady_ite (modCluster_steady ..) (modCluster_steady ..)

theorem unitWrite_steady (s : State) (u : WUnit) (h : Nat) (w : Window) (a : Nat) (bs : List Byte) : Steady s (s.unitWrite u h w a bs) :=
  ((devWrite_steady ..).trans (modUnit_steady ..)).trans (modCluster_steady ..)

theorem tailWrite_steady (s : State) (u : WUnit) (g : Nat) (bs : List (Nat × Byte)) : Steady s (s.tailWrite u g bs) :=
  (steady_ite ((memWrite_steady ..).trans (modSess_steady ..)) (steady_refl _)).trans ((forEach_steady _ (fun _ _ => steady_ite (memWrite_steady
    ..) (steady_refl _)) _).trans (modUnit_steady ..))

theorem tailBytes_steady (s : State) (u : WUnit) (a : Nat) (bs : List Byte) : Steady s (s.tailBytes u a bs) := by
  refine forEach_steady _ (fun _ t => ?_) _
  split
  · exact tailWrite_steady ..
  · exact steady_refl _

theorem allocTiles_steady (s : State) (u : WUnit) (h a n : Nat) : Steady s (s.allocTiles u h a n) := modCluster_steady ..

theorem access_steady (s : State) (u : WUnit) (h win : Nat) (w : Window) (op a n : Nat) (data : List Byte) : Steady s (s.access u h win w op a n
    data) :=
  steady_ite (steady_refl _) (steady_ite (steady_ite (steady_refl _) (steady_ite (tailBytes_steady ..) (steady_ite (steady_ite (allocTiles_steady
    ..) (steady_refl _)) (unitWrite_steady ..)))) ((steady_ite (forEach_steady _ (fun _ _ => lookup_steady ..) _) (steady_refl _)).trans
    (steady_ite ((forEach_steady _ (fun _ _ => (report_steady ..).trans (loseLine_steady ..)) _).trans (poisonUnit_steady ..)) (steady_refl _))))

theorem memOp_steady (s : State) (u : WUnit) (h : Nat) (n : BitVec 192) (x : IssueIn) : Steady s (s.memOp u h n x) :=
  steady_ite (steady_refl _) (steady_ite (access_steady ..) (violate_steady ..))

theorem unitReadOp_steady (h space a n : Nat) (s : State) : Steady s (unitReadOp h space a n s) := by
  unfold unitReadOp
  dsimp only
  split
  · exact steady_refl _
  · exact steady_ite (demandReadOp_steady ..) (steady_ite (steady_refl _) (violate_steady ..))

theorem unitWriteOp_steady (h win a : Nat) (bs : List Byte) (s : State) : Steady s (unitWriteOp h win a bs s) := by
  unfold unitWriteOp
  dsimp only
  split
  · exact steady_refl _
  · exact steady_ite (violate_steady ..) (steady_ite (steady_refl _) (demandWriteOp_steady ..))

theorem charge_steady (s : State) (u : WUnit) (h n : Nat) : Steady s (s.charge u h n) :=
  steady_ite (steady_refl _) ((modUnit_steady ..).trans (steady_ite (sendReq_steady ..) (steady_refl _)))

theorem conceal_steady (s : State) (u : WUnit) (h : Nat) : Steady s (s.conceal u h) :=
  ((modUnit_steady ..).trans (modHalf_steady ..)).trans (modSess_steady ..)

theorem abortEncode_steady (s : State) (u : WUnit) (h : Nat) : Steady s (s.abortEncode u h) :=
  ((modHalf_steady ..).trans (report_steady ..)).trans (failUnit_steady ..)

theorem takeReq_steady (s : State) (u : WUnit) (h : Nat) (r : SeqReq) : Steady s (s.takeReq u h r) := by
  unfold State.takeReq
  split
  · exact rollback_steady ..
  · exact (modUnit_steady ..).trans (rollback_steady ..)
  · exact steady_ite (abortEncode_steady ..) (conceal_steady ..)
  · exact failUnit_steady ..
  · exact (modHalf_steady ..).trans (rollback_steady ..)

theorem checkpoint_steady (s : State) (h : Nat) : Steady s (s.checkpoint h) := by
  unfold State.checkpoint
  dsimp only
  split
  · exact steady_refl _
  · split
    · exact takeReq_steady ..
    · exact modHalf_steady ..

theorem requestOp_steady (h : Nat) (r : SeqReq) (tag : BitVec 16) (s : State) : Steady s (requestOp h r tag s) :=
  steady_ite (steady_refl _) (modHalf_steady ..)

theorem budgetOp_steady (h : Nat) (s : State) : Steady s (budgetOp h s) := by
  unfold budgetOp
  split
  · exact steady_refl _
  · exact steady_ite (steady_refl _) ((modUnit_steady ..).trans (sendReq_steady ..))

theorem sendCommit_steady (s : State) (u : WUnit) (h : Nat) : Steady s (s.sendCommit u h) :=
  (forEach_steady _ (fun _ _ => issueDemand_steady ..) _).trans ((modSess_steady ..).trans (((modUnit_steady ..).trans (modHalf_steady ..)).trans
    (settleHalf_steady ..)))

theorem finalDecode_steady (s : State) (u : WUnit) (h : Nat) : Steady s (s.finalDecode u h) := by
  unfold State.finalDecode
  dsimp only
  split
  · exact sendCommit_steady ..
  · split
    · exact sendCommit_steady ..
    · split
      · exact failUnit_steady ..
      · split
        · exact stopDecode_steady ..
        · split
          · exact stopDecode_steady ..
          · refine .trans ?_ ((endCycles_steady ..).trans (sendCommit_steady ..))
            split
            · exact steady_ite (steady_refl _) (storeUnit_steady ..)
            · exact steady_refl _

theorem noteBytes_steady (s : State) (u : WUnit) (n : Nat) : Steady s (s.noteBytes u n) := modEntry_steady ..

theorem finalEncode_steady (s : State) (u : WUnit) (h : Nat) : Steady s (s.finalEncode u h) :=
  (steady_ite (drainFifo_steady ..) (steady_ite (keepPiece_steady ..) (stageHeads_steady ..))).trans (steady_ite ((noteBytes_steady ..).trans
    (failUnit_steady ..)) ((finishCoding_steady ..).trans (sendCommit_steady ..)))

theorem final_steady (s : State) (h : Nat) : Steady s (s.final h) := by
  unfold State.final
  dsimp only
  split
  · exact steady_refl _
  · exact steady_ite (loseTiles_steady ..) (steady_ite (finalEncode_steady ..) (finalDecode_steady ..))

theorem publish_steady (s : State) (u : WUnit) (x : IssueIn) : Steady s (s.publish u x) := by
  unfold State.publish
  dsimp only
  split
  · exact steady_refl _
  · split
    · split
      · exact (modSess_steady ..).trans (modHalf_steady ..)
      · exact modSess_steady ..
    · exact modSess_steady ..

theorem holdCycle_steady (s : State) (h : Nat) (u : WUnit) (x : IssueIn) (f : Fetch) : Steady s (s.holdCycle h u x f) :=
  (steady_ite (steady_refl _) (charge_steady ..)).trans (steady_ite ((modHalf_steady ..).trans (steady_ite (checkpoint_steady ..) (steady_refl
    _))) ((modHalf_steady ..).trans (steady_ite (machineCheck_steady ..) (steady_ite (checkpoint_steady ..) (steady_refl _)))))

theorem guard_steady (s : State) (u : WUnit) (h : Nat) (x : IssueIn) : Steady s (s.guard u h x) := by
  unfold State.guard
  dsimp only
  split
  · exact steady_refl _
  · exact steady_ite (modHalf_steady ..) (steady_refl _)

theorem act_steady (s : State) (u : WUnit) (h : Nat) (x : IssueIn) (f : Fetch) : Steady s (s.act u h x f) := by
  unfold State.act
  dsimp only
  refine .trans ?_ ((steady_ite (cutSlice_steady ..) (steady_refl _)).trans (steady_ite (publish_steady ..) (steady_refl _)))
  split
  · split
    · refine .trans ?_ (codeWord_steady ..)
      split
      · exact steady_ite (((((modHalf_steady ..).trans (modUnit_steady ..)).trans (memOp_steady ..)).trans (guard_steady ..)).trans
          (tailWrite_steady ..)) ((((modHalf_steady ..).trans (modUnit_steady ..)).trans (memOp_steady ..)).trans (guard_steady ..))
      · exact (((modHalf_steady ..).trans (modUnit_steady ..)).trans (memOp_steady ..)).trans (guard_steady ..)
    · split
      · exact steady_ite (((((modHalf_steady ..).trans (modUnit_steady ..)).trans (memOp_steady ..)).trans (guard_steady ..)).trans
          (tailWrite_steady ..)) ((((modHalf_steady ..).trans (modUnit_steady ..)).trans (memOp_steady ..)).trans (guard_steady ..))
      · exact (((modHalf_steady ..).trans (modUnit_steady ..)).trans (memOp_steady ..)).trans (guard_steady ..)
  · split
    · exact steady_ite (((((modHalf_steady ..).trans (modUnit_steady ..)).trans (memOp_steady ..)).trans (guard_steady ..)).trans
        (tailWrite_steady ..)) ((((modHalf_steady ..).trans (modUnit_steady ..)).trans (memOp_steady ..)).trans (guard_steady ..))
    · exact (((modHalf_steady ..).trans (modUnit_steady ..)).trans (memOp_steady ..)).trans (guard_steady ..)

theorem goOn_steady (s : State) (h : Nat) (x : IssueIn) (f : Fetch) : Steady s (s.goOn h x f) := by
  unfold State.goOn
  dsimp only
  split
  · exact steady_refl _
  · exact (modHalf_steady ..).trans (steady_ite (final_steady ..) (steady_ite (checkpoint_steady ..) (steady_refl _)))

theorem issueOp_steady (h : Nat) (x : IssueIn) (s : State) : Steady s (issueOp h x s) := by
  unfold issueOp
  dsimp only
  split
  · exact steady_refl _
  · exact steady_ite (holdCycle_steady ..) (steady_ite (charge_steady ..) ((modHalf_steady ..).trans (steady_ite (machineCheck_steady ..)
      ((modHalf_steady ..).trans (((charge_steady ..).trans (act_steady ..)).trans (goOn_steady ..))))))

theorem prunePics_steady (s : State) (n : Nat) : Steady s (s.prunePics n) := modSess_steady ..

theorem releaseInto_steady (s : State) (q : Nat) (e : QEntry) (n : Nat) (p : Pict) (b : OutBuf) : Steady s (s.releaseInto q e n p b) :=
  (steady_ite (writeOut_steady ..) (steady_refl _)).trans ((modSess_steady ..).trans (modEntry_steady ..))

theorem releaseOne_steady (s : State) (q : Nat) (seq : Word) (n : Nat) : Steady s (s.releaseOne q seq n) := by
  unfold State.releaseOne
  split
  · split
    · exact steady_refl _
    · split
      · split
        · exact releaseInto_steady ..
        · exact steady_refl _
      · exact releaseInto_steady ..
  · exact steady_refl _

theorem releaseDue_steady (s : State) (q : Nat) (seq : Word) (n : Nat) : Steady s (s.releaseDue q seq n) :=
  forUpTo_steady _ (fun _ _ => releaseOne_steady ..) _

theorem feedRend_steady (s : State) (q : Nat) (e : QEntry) (n rel : Nat) (p : Pict) (shape : PicShape) (m : Nat) : Steady s (s.feedRend q e n rel
    p shape m) := by
  unfold State.feedRend
  dsimp only
  split
  · exact modEntry_steady ..
  · exact ((recover_steady ..).trans (modSess_steady ..)).trans (modEntry_steady ..)

theorem releaseMau_steady (s : State) (q : Nat) (seq : Word) (n rel : Nat) (p : Pict) : Steady s (s.releaseMau q seq n rel p) :=
  steady_ite (addUnit_steady ..) (steady_refl _)

theorem feedPicture_steady (s : State) (q : Nat) (e : QEntry) (n rel : Nat) : Steady s (s.feedPicture q e n rel) := by
  unfold State.feedPicture
  split
  · exact steady_refl _
  · refine (releaseMau_steady ..).trans ((forEach_steady _ (fun _ _ => ?_) _).trans
      ((forEach_steady _ (fun _ _ => addUnit_steady ..) _).trans (modSess_steady ..)))
    split
    · exact feedRend_steady ..
    · exact steady_refl _

theorem endDecode_steady (s : State) (q : Nat) (seq : Word) (n : Nat) : Steady s (s.endDecode q seq n) := by
  unfold State.endDecode
  dsimp only
  split
  · exact ((modEntry_steady ..).trans (noteHeld_steady ..)).trans (putReport_steady ..)
  · exact ((((modEntry_steady ..).trans (noteHeld_steady ..)).trans (putReport_steady ..)).trans (forEach_steady _ (fun _ _ => feedPicture_steady
      ..) _)).trans ((modEntry_steady ..).trans (((settleEntry_steady ..).trans (settleLadders_steady ..)).trans (advanceAll_steady ..)))

theorem settleDecode_steady (s : State) (q : Nat) (seq : Word) (n : Nat) : Steady s (s.settleDecode q seq n) := by
  unfold State.settleDecode
  split
  · exact steady_ite (endDecode_steady ..) (steady_refl _)
  · exact steady_refl _

theorem retire_steady (s : State) (u : WUnit) (actual : Nat) : Steady s (s.retire u actual) :=
  ((freeInflight_steady ..).trans (refund_steady ..)).trans (dropUnit_steady ..)

theorem copyForward_steady (s : State) (u : WUnit) : Steady s (s.copyForward u) :=
  forUpTo_steady _ (fun _ _ => steady_ite (memWrite_steady ..) (steady_refl _)) _

theorem countCycles_steady (s : State) (u : WUnit) : Steady s (s.countCycles u) := (modEntry_steady ..).trans (modSess_steady ..)
theorem soil_steady (s : State) (n : Nat) : Steady s (s.soil n) := modCtx_steady ..

theorem flip_steady (s : State) (u : WUnit) (h : Nat) : Steady s (s.flip u h) :=
  ((copyForward_steady ..).trans (modSess_steady ..)).trans ((steady_ite (soil_steady ..) (writeHead_steady ..)).trans (((modHalf_steady ..).trans
    (countCycles_steady ..)).trans (retire_steady ..)))

theorem startPicture_steady (s : State) (u : WUnit) (e : QEntry) (au : AuInfo) (info : PicInfo) : Steady s (s.startPicture u e au info) :=
  modSess_steady ..

theorem putInternal_steady (s : State) (u : WUnit) (e : QEntry) : Steady s (s.putInternal u e) := by
  unfold State.putInternal
  split
  · exact steady_ite (keepPlanes_steady ..) (steady_refl _)
  · exact steady_refl _

theorem endPicture_steady (s : State) (u : WUnit) (e : QEntry) (au : AuInfo) (info : PicInfo) (x : Session) : Steady s (s.endPicture u e au info
    x) :=
  steady_ite ((modSess_steady ..).trans ((modEntry_steady ..).trans (putSection_steady ..))) ((modSess_steady ..).trans (((putInternal_steady
    ..).trans (modEntry_steady ..)).trans (putSection_steady ..)))

theorem showExisting_steady (s : State) (u : WUnit) (e : QEntry) (au : AuInfo) (info : PicInfo) (num : Nat) : Steady s (s.showExisting u e au info
    num) :=
  (modEntry_steady ..).trans (modSess_steady ..)

theorem endSkip_steady (s : State) (u : WUnit) (e : QEntry) (au : AuInfo) : Steady s (s.endSkip u e au) :=
  ((modSess_steady ..).trans (modEntry_steady ..)).trans (forEach_steady _ (fun _ _ => putSection_steady ..) _)

theorem commitDecode_steady (s : State) (u : WUnit) (e : QEntry) : Steady s (s.commitDecode u e) := by
  unfold State.commitDecode
  split
  · split
    · exact steady_ite (showExisting_steady ..) (steady_refl _)
    · split
      · exact endSkip_steady ..
      · split
        · exact startPicture_steady ..
        · exact modSess_steady ..
        · exact endPicture_steady ..
        · exact (startPicture_steady ..).trans (endPicture_steady ..)
        · exact steady_refl _
  · exact steady_ite (endSkip_steady ..) (steady_refl _)
  · exact steady_refl _

theorem commitFlush_steady (s : State) (u : WUnit) : Steady s (s.commitFlush u) := modSess_steady ..

theorem retireDecode_steady (s : State) (u : WUnit) (h : Nat) : Steady s (s.retireDecode u h) := by
  unfold State.retireDecode
  dsimp only
  split
  · exact flip_steady ..
  · exact (steady_ite ((flip_steady ..).trans (commitFlush_steady ..)) ((flip_steady ..).trans (commitDecode_steady ..))).trans ((steady_ite
      (releaseDue_steady ..) (steady_refl _)).trans ((steady_ite (modSess_steady ..) (steady_refl _)).trans ((((prunePics_steady ..).trans
      (settleDecode_steady ..)).trans (prunePics_steady ..)).trans (settleEntry_steady ..))))

theorem putSummary_steady (s : State) (u : WUnit) (e : QEntry) (p : SrcPic) (r : PicResult) (bytes : Nat) : Steady s (s.putSummary u e p r bytes)
    := by
  unfold State.putSummary
  dsimp only
  split
  · exact entryOut_steady ..
  · exact steady_refl _

theorem countStages_steady (s : State) (r : PicResult) : Steady s (s.countStages r) := modRcu_steady ..

theorem unitWritten_steady (s : State) (u : WUnit) (p : SrcPic) (r : PicResult) (e : QEntry) : Steady s (s.unitWritten u p r e) :=
  steady_ite (modEntry_steady ..) (modEntry_steady ..)

theorem endCoded_steady (s : State) (u : WUnit) (p : SrcPic) (e : QEntry) : Steady s (s.endCoded u p e) :=
  steady_ite ((modSess_steady ..).trans (unitWritten_steady ..)) ((((putSummary_steady ..).trans (countStages_steady ..)).trans (modSess_steady
    ..)).trans (steady_ite (unitWritten_steady ..) (steady_refl _)))

theorem commitEncode_steady (s : State) (u : WUnit) (e : QEntry) (p : SrcPic) : Steady s (s.commitEncode u e p) := by
  unfold State.commitEncode
  dsimp only
  split
  · exact modSess_steady ..
  · exact modSess_steady ..
  · exact endCoded_steady ..
  · exact (steady_ite (steady_refl _) (modSess_steady ..)).trans (endCoded_steady ..)
  · exact steady_refl _

theorem afterCoded_steady (s : State) (n : Nat) (p : SrcPic) : Steady s (s.afterCoded n p) :=
  (((settleLadders_steady ..).trans (advanceAll_steady ..)).trans (pruneAna_steady ..)).trans (((modSess_steady ..).trans (settleFlushes_steady
    ..)).trans (prunePics_steady ..))

theorem retireEncode_steady (s : State) (u : WUnit) (h : Nat) : Steady s (s.retireEncode u h) := by
  unfold State.retireEncode
  dsimp only
  split
  · exact (((flip_steady ..).trans (commitEncode_steady ..)).trans (settleEntry_steady ..)).trans (steady_ite (afterCoded_steady ..) (steady_refl
      _))
  · exact flip_steady ..

theorem dueBefore_steady (s : State) (u : WUnit) : Steady s (s.dueBefore u) := steady_ite (putDue_steady ..) (modEntry_steady ..)

theorem flipOp_steady (u : WUnit) (h : Nat) (s : State) : Steady s (flipOp u h s) :=
  steady_ite (steady_refl _) (steady_ite ((modUnit_steady ..).trans (rollback_steady ..)) ((steady_ite (retireEncode_steady ..)
    (retireDecode_steady ..)).trans ((settleState_steady ..).trans (settleDrain_steady ..))))

theorem commitOp_steady (ix : Nat) (s : State) : Steady s (commitOp ix s) := by
  unfold commitOp
  split
  · exact steady_refl _
  · split
    · exact steady_refl _
    · split
      · exact ((ackTiles_steady ..).trans (dueBefore_steady ..)).trans (flipOp_steady ..)
      · exact steady_refl _

theorem storePlanes_steady (s : State) (n : Nat) (a : AnaPic) (cur : Plane) : Steady s (s.storePlanes n a cur) :=
  (writeRuns_steady ..).trans (writeRuns_steady ..)

theorem sourceStats_steady (s : State) (n : Nat) (a : AnaPic) : Steady s (s.sourceStats n a) := by
  unfold State.sourceStats
  dsimp only
  split
  · exact steady_refl _
  · split
    · exact steady_refl _
    · exact steady_ite (steady_refl _) (putField_steady ..)

theorem freeEngineOf_steady (s : State) (e : Nat) : Steady s (s.freeEngineOf e) := modMau_steady ..

theorem afterAnalysis_steady (s : State) (n : Nat) (u : WUnit) : Steady s (s.afterAnalysis n u) :=
  ((settleAnalysis_steady ..).trans (advanceAll_steady ..)).trans (((((pruneAna_steady ..).trans (prunePics_steady ..)).trans (settleEntry_steady
    ..)).trans (settleLadders_steady ..)).trans (settleFlushes_steady ..))

theorem storeAnalysis_steady (s : State) (u : WUnit) (a : AnaPic) (cur prev : Plane) : Steady s (s.storeAnalysis u a cur prev) :=
  (modSess_steady ..).trans ((((storePlanes_steady ..).trans (storeField_steady ..)).trans (sourceStats_steady ..)).trans ((forEach_steady _ (fun
    _ _ => (storeField_steady ..).trans (sourceStats_steady ..)) _).trans (((modMau_steady ..).trans (modSess_steady ..)).trans (retire_steady
    ..))))

theorem storeSource_steady (s : State) (u : WUnit) (a : AnaPic) (ps : List Plane) : Steady s (s.storeSource u a ps) :=
  steady_ite (storePicture_steady ..) (steady_refl _)

theorem mauDoneOp_steady (e : Nat) (src : Block) (prev : Plane) (s : State) : Steady s (mauDoneOp e src prev s) := by
  unfold mauDoneOp
  dsimp only
  split
  · exact steady_refl _
  · split
    · exact steady_refl _
    · split
      · exact (loseTiles_steady ..).trans (advanceAll_steady ..)
      · split
        · exact (readPoison_steady ..).trans (advanceAll_steady ..)
        · exact (((storeSource_steady ..).trans (storeAnalysis_steady ..)).trans (freeEngineOf_steady ..)).trans ((modEntry_steady ..).trans
            (((afterAnalysis_steady ..).trans (settleState_steady ..)).trans (settleDrain_steady ..)))

theorem disableEngine_steady (s : State) (e : Nat) : Steady s (s.disableEngine e) := steady_ite (report_steady ..) (modMau_steady ..)

theorem mauParityOp_steady (e : Nat) (s : State) : Steady s (mauParityOp e s) := by
  unfold mauParityOp
  dsimp only
  refine .trans ?_ (steady_ite (disableEngine_steady ..) (steady_refl _))
  split
  · exact (((tookFree_steady ..).trans (modMau_steady ..)).trans (report_steady ..)).trans (rollback_steady ..)
  · exact ((tookFree_steady ..).trans (modMau_steady ..)).trans (report_steady ..)

theorem putOutput_steady (s : State) (q : Nat) (seq : Word) (fn : Nat) (t : Template) (d : Entry) (shape : PicShape) (ps : List Plane) : Steady s
    (s.putOutput q seq fn t d shape ps) :=
  steady_ite ((storePicture_steady ..).trans (modEntry_steady ..)) (forEach_steady _ (fun _ _ => entryOut_steady ..) _)

theorem putOutputs_steady (s : State) (u : WUnit) (e : QEntry) (shape : PicShape) (planes : List Plane) (lut : List DWord) :
    Steady s (s.putOutputs u e shape planes lut) := by
  unfold State.putOutputs
  dsimp only
  split
  · exact steady_refl _
  · refine forEach_steady _ (fun _ _ => ?_) _
    split
    · exact putOutput_steady ..
    · exact steady_refl _

theorem storeRends_steady (s : State) (u : WUnit) (shape : PicShape) (planes : List Plane) (lut : List DWord) :
    Steady s (s.storeRends u shape planes lut) := by
  unfold State.storeRends
  dsimp only
  split
  · exact steady_refl _
  · refine forEach_steady _ (fun _ _ => ?_) _
    split
    · exact storePicture_steady ..
    · exact steady_refl _

theorem readyRends_steady (s : State) (u : WUnit) : Steady s (s.readyRends u) := forEach_steady _ (fun _ _ => modSess_steady ..) _

theorem passDoneOp_steady (p : Nat) (src : Block) (s : State) : Steady s (passDoneOp p src s) := by
  unfold passDoneOp
  dsimp only
  split
  · exact steady_refl _
  · split
    · exact loseTiles_steady ..
    · split
      · exact discardUnit_steady ..
      · split
        · exact readPoison_steady ..
        · exact (steady_ite (putOutputs_steady ..) ((storeRends_steady ..).trans (readyRends_steady ..))).trans (((modPcf_steady ..).trans
            (retire_steady ..)).trans (steady_ite (closeEntry_steady ..) ((((prunePics_steady ..).trans (settleEntry_steady ..)).trans
            (settleState_steady ..)).trans (settleDrain_steady ..))))

theorem disablePipe_steady (s : State) (p : Nat) : Steady s (s.disablePipe p) := steady_ite (report_steady ..) (modPcf_steady ..)

theorem pcfParityOp_steady (p : Nat) (s : State) : Steady s (pcfParityOp p s) := by
  unfold pcfParityOp
  dsimp only
  refine .trans ?_ (steady_ite (disablePipe_steady ..) (steady_refl _))
  split
  · exact (((tookFree_steady ..).trans (modPcf_steady ..)).trans (report_steady ..)).trans (rollback_steady ..)
  · exact ((tookFree_steady ..).trans (modPcf_steady ..)).trans (report_steady ..)

end Sys2Proof.Machine
end

section
/-! PROOFS. Boot, the host link and RESTRUCTURE keep the queue, device memory and the fault FIFO. -/
namespace Sys2Proof.Machine

theorem atPerst_steady (s : State) : Steady s s.atPerst := ⟨rfl, id, id⟩
theorem atCold_steady (s : State) : Steady s s.atCold := ⟨rfl, fun _ => rfl, fun _ => Nat.zero_le _⟩
theorem perstOp_steady (s : State) : Steady s (perstOp s) := (atPerst_steady ..).trans (settleAlert_steady ..)
theorem coldOp_steady (s : State) : Steady s (coldOp s) := atCold_steady ..
theorem pwrgoodRiseOp_steady (s : State) : Steady s (pwrgoodRiseOp s) := ⟨rfl, id, id⟩
theorem bootFails_steady (s : State) (reason offset : Nat) : Steady s (s.bootFails reason offset) := modBoot_steady ..
theorem runsFw_steady (s : State) (c : FwCopy) (copy : Bool) : Steady s (s.runsFw c copy) := modBoot_steady ..
theorem allHalves_steady (s : State) (f : Half → Half) : Steady s (s.allHalves f) := forUpTo_steady _ (fun _ _ => modHalf_steady ..) _

theorem loadsPatch_steady (s : State) (raw : Option (List Byte)) : Steady s (s.loadsPatch raw) := by
  unfold State.loadsPatch
  exact (allHalves_steady ..).trans (modBoot_steady ..)

theorem fillsStore_steady (s : State) (micro : List Word) (nano : List (BitVec 192)) (table : List (BitVec 13)) : Steady s (s.fillsStore micro
    nano table) :=
  allHalves_steady ..

theorem loadsStore_steady (s : State) (f : Flash) : Steady s (s.loadsStore f) := (fillsStore_steady ..).trans (modBoot_steady ..)
theorem trains_steady (s : State) (ds : List Dimm) : Steady s (s.trains ds) := forUpTo_steady _ (fun _ _ => modChn_steady ..) _

theorem bootMemory_steady (s : State) (b : Board) (f : Flash) : Steady s (s.bootMemory b f) := by
  unfold State.bootMemory
  dsimp only
  split
  · exact bootFails_steady ..
  · split
    · exact bootFails_steady ..
    · split
      · exact (trains_steady ..).trans (bootFails_steady ..)
      · split
        · exact (((trains_steady ..).trans (modBoot_steady ..)).trans (modMem_steady ..)).trans (bootFails_steady ..)
        · exact ((((trains_steady ..).trans (modBoot_steady ..)).trans (modMem_steady ..)).trans (modBoot_steady ..)).trans (modMem_steady ..)

theorem testMode_steady (s : State) (j : TestStore) : Steady s (s.testMode j) := fillsStore_steady ..

theorem bootSteps_steady (s : State) (b : Board) : Steady s (s.bootSteps b) := by
  unfold State.bootSteps
  dsimp only
  split
  · exact testMode_steady ..
  · split
    · exact bootFails_steady ..
    · split
      · split
        · exact bootFails_steady ..
        · exact ((runsFw_steady ..).trans (loadsPatch_steady ..)).trans (bootMemory_steady ..)
      · split
        · split
          · exact bootFails_steady ..
          · exact ((runsFw_steady ..).trans (loadsStore_steady ..)).trans (bootMemory_steady ..)
        · exact bootFails_steady ..

theorem bootOp_steady (b : Board) (s : State) : Steady s (bootOp b s) := by
  unfold bootOp
  refine ((atPerst_steady s).trans ?_).trans (((tookFree_steady _).trans (bootSteps_steady ..)).trans (settleAlert_steady _))
  exact ⟨rfl, id, id⟩

theorem perstDeassertOp_steady (b : Board) (s : State) : Steady s (perstDeassertOp b s) := steady_ite (bootOp_steady ..) (modPins_steady ..)

theorem settleTimeOp_steady (b : Board) (s : State) : Steady s (settleTimeOp b s) := by
  unfold settleTimeOp
  refine .trans ?_ (steady_ite (steady_refl _) (bootOp_steady ..))
  exact ⟨rfl, id, id⟩

theorem applyRecords_steady (s : State) : Steady s s.applyRecords := by
  unfold State.applyRecords
  split
  · exact forEach_steady _ (fun _ _ => modChn_steady ..) _
  · exact steady_refl _

theorem loadScheduler_steady (s : State) (i : Image) : Steady s (s.loadScheduler i) := modDsc_steady ..

theorem lockTables_steady (s : State) (i : Image) : Steady s (s.lockTables i) := by
  have hlocked : Steady s s.applyRecords := applyRecords_steady s
  exact ⟨hlocked.pending, fun h => tblWf_filter _ _ _ (hlocked.cells h), hlocked.fifo⟩

theorem becomesReady_steady (s : State) : Steady s s.becomesReady := ((modFunc_steady ..).trans (modBoot_steady ..)).trans (tellHost_steady ..)

theorem bootCompleteOp_steady (s : State) : Steady s (bootCompleteOp s) := by
  unfold bootCompleteOp
  dsimp only
  split
  · exact (modBoot_steady ..).trans (becomesReady_steady ..)
  · split
    · exact (modBoot_steady ..).trans (becomesReady_steady ..)
    · exact ((lockTables_steady ..).trans (loadScheduler_steady ..)).trans ((forUpTo_steady _ (fun _ _ => modHalf_steady ..) _).trans
        ((modBoot_steady ..).trans (becomesReady_steady ..)))

theorem bootTimeoutOp_steady (s : State) : Steady s (bootTimeoutOp s) := (reach_steady ..).trans (bootFails_steady ..)
theorem arbBurnOp_steady (k : ArbKind) (s : State) : Steady s (arbBurnOp k s) := modBoot_steady ..

theorem fwReply_steady (s : State) (b : FwBlock) (resp : List Byte) : Steady s (s.fwReply b resp) := by
  unfold State.fwReply
  exact (((modMbx_steady ..).trans (settleMbx_steady ..)).trans (emitFor_steady ..)).trans ((modMbx_steady ..).trans (settleMbx_steady ..))

theorem fwStatus_steady (s : State) (b : FwBlock) (status : Nat) : Steady s (s.fwStatus b status) := fwReply_steady ..
theorem fwInfoOp_steady (b : FwBlock) (s : State) : Steady s (fwInfoOp b s) := steady_ite (fwStatus_steady ..) (fwReply_steady ..)

theorem fwEnrollOp_steady (b : FwBlock) (s : State) : Steady s (fwEnrollOp b s) :=
  steady_ite (fwStatus_steady ..) (steady_ite (fwStatus_steady ..) ((modBoot_steady ..).trans (fwStatus_steady ..)))

theorem fwFlashOp_steady (b : FwBlock) (s : State) : Steady s (fwFlashOp b s) := by
  unfold fwFlashOp
  dsimp only
  split
  · exact fwStatus_steady ..
  · split
    · exact fwStatus_steady ..
    · split
      · exact steady_ite (fwStatus_steady ..) (steady_ite (fwStatus_steady ..) (steady_ite (fwStatus_steady ..) ((modBoot_steady ..).trans
          (fwStatus_steady ..))))
      · split
        · split
          · exact fwStatus_steady ..
          · exact steady_ite (fwStatus_steady ..) ((modBoot_steady ..).trans (fwStatus_steady ..))
        · split
          · split
            · exact fwStatus_steady ..
            · split
              · exact (modBoot_steady ..).trans (fwReply_steady ..)
              · exact (modBoot_steady ..).trans (fwStatus_steady ..)
          · exact fwStatus_steady ..

theorem fwDebugOp_steady (b : FwBlock) (s : State) : Steady s (fwDebugOp b s) :=
  ((tookFree_steady ..).trans (modBoot_steady ..)).trans (fwStatus_steady ..)

theorem resetQueues_steady (s : State) (qs : List Nat) : Steady s (s.resetQueues qs) := forEach_steady _ (fun _ _ => modQueue_steady ..) _
theorem resetUnits_steady (s : State) (fn : Nat) : Steady s (s.resetUnits fn) := stopUnits_steady ..

theorem resetSess_steady (s : State) (n : Nat) : Steady s (s.resetSess n) :=
  steady_ite ((modSess_steady ..).trans (settleDrain_steady ..)) (drainSession_steady ..)

theorem resetMover_steady (s : State) (fn : Nat) (qs : List Nat) : Steady s (s.resetMover fn qs) :=
  (forEach_steady _ (fun _ _ => endCopy_steady ..) _).trans ((forEach_steady _ (fun _ _ => withdraw_steady ..) _).trans (forUpTo_steady _ (fun _ _
    => ((unask_steady ..).trans (modChan_steady ..)).trans (modDmv_steady ..)) _))

theorem resetObjects_steady (s : State) (fn : Nat) : Steady s (s.resetObjects fn) :=
  ((((dropPath_steady ..).trans (dropPath_steady ..)).trans (forEach_steady _ (fun _ _ => dropPool_steady ..) _)).trans (modPath_steady ..)).trans
    (((modRing_steady ..).trans (modAdmQ_steady ..)).trans (steady_ite ((modCfgQ_steady ..).trans (modBoot_steady ..)) (steady_refl _)))

theorem resetSide_steady (s : State) (d : MbxSide) : Steady s (s.resetSide d) := (modMbx_steady ..).trans (resetMbx_steady ..)

theorem resetImb_steady (s : State) (fn : Nat) : Steady s (s.resetImb fn) :=
  (steady_ite ((resetSide_steady ..).trans (forUpTo_steady _ (fun _ _ => resetSide_steady ..) _)) (resetSide_steady ..)).trans ((forEach_steady _
    (fun _ _ => modSrc_steady ..) _).trans (((modTarget_steady ..).trans (modImb_steady ..)).trans (abandonSems_steady ..)))

theorem resetPairs_steady (s : State) (fn : Nat) : Steady s (s.resetPairs fn) := ⟨rfl, id, id⟩
theorem hushFaults_steady (s : State) (fn : Nat) : Steady s (s.hushFaults fn) := modFcl_steady ..

theorem resetFn_steady (s : State) (fn : Nat) : Steady s (s.resetFn fn) :=
  ((modFunc_steady ..).trans (hushFaults_steady ..)).trans (((((resetQueues_steady ..).trans (resetUnits_steady ..)).trans (resetMover_steady
    ..)).trans (forEach_steady _ (fun _ _ => resetSess_steady ..) _)).trans (((resetObjects_steady ..).trans (resetImb_steady ..)).trans
    (resetPairs_steady ..)))

theorem clearVfs_steady (s : State) : Steady s s.clearVfs :=
  steady_ite ((forUpTo_steady _ (fun _ _ => (resetFn_steady ..).trans (modFunc_steady ..)) _).trans (modHlu_steady ..)) (steady_refl _)

theorem flrOp_steady (fn : Nat) (s : State) : Steady s (flrOp fn s) :=
  (steady_ite ((clearVfs_steady ..).trans (modHlu_steady ..)) (steady_refl _)).trans (resetFn_steady ..)

theorem flrCompleteOp_steady (fn : Nat) (s : State) : Steady s (flrCompleteOp fn s) :=
  ((modFunc_steady ..).trans (modHlu_steady ..)).trans (tellHost_steady ..)

theorem vfEnableSetOp_steady (n : Nat) (s : State) : Steady s (vfEnableSetOp n s) :=
  (forUpTo_steady _ (fun _ _ => modFunc_steady ..) _).trans (modHlu_steady ..)

theorem vfEnableClearOp_steady (s : State) : Steady s (vfEnableClearOp s) := clearVfs_steady ..

theorem linkReset_steady (s : State) : Steady s s.linkReset :=
  (((clearVfs_steady ..).trans (resetFn_steady ..)).trans (modFunc_steady ..)).trans (modHlu_steady ..)

theorem hotResetOp_steady (s : State) : Steady s (hotResetOp s) := linkReset_steady ..
theorem linkDownOp_steady (s : State) : Steady s (linkDownOp s) := linkReset_steady ..
theorem linkTrainedOp_steady (m : LinkMode) (s : State) : Steady s (linkTrainedOp m s) := (modHlu_steady ..).trans (modFunc_steady ..)

theorem suspendUnit_steady (s : State) (u : WUnit) : Steady s (s.suspendUnit u) := by
  unfold State.suspendUnit
  split
  · exact steady_ite (sendReq_steady ..) (rollback_steady ..)
  · exact unhint_steady ..
  · exact steady_refl _

theorem d3Op_steady (fn : Nat) (s : State) : Steady s (d3Op fn s) :=
  (modFunc_steady ..).trans (forEach_steady _ (fun _ _ => suspendUnit_steady ..) _)

theorem sendHeld_steady (s : State) (o : Out) : Steady s (s.sendHeld o) := by
  unfold State.sendHeld
  split
  · exact (modImb_steady ..).trans (send_steady ..)
  · exact send_steady ..

theorem d0Op_steady (fn : Nat) (s : State) : Steady s (d0Op fn s) :=
  ((modFunc_steady ..).trans (forEach_steady _ (fun _ _ => sendHeld_steady ..) _)).trans (forEach_steady _ (fun _ _ => startDescs_steady ..) _)

theorem pmeOffOp_steady (s : State) : Steady s (pmeOffOp s) := by
  unfold pmeOffOp
  refine (((atPerst_steady s).trans ?_).trans (modHlu_steady ..)).trans (settleAlert_steady _)
  exact ⟨rfl, id, id⟩

theorem l1EntryOp_steady (us : Nat) (s : State) : Steady s (l1EntryOp us s) :=
  steady_ite ((tookFree_steady ..).trans (modHlu_steady ..)) (steady_refl _)

theorem l1ExitOp_steady (s : State) : Steady s (l1ExitOp s) := modHlu_steady ..
theorem ptmRequestOp_steady (s : State) : Steady s (ptmRequestOp s) := (reach_steady ..).trans ((modHlu_steady ..).trans (tellHost_steady ..))

theorem stepTo_steady (s : State) (now : Nat) : Steady s (s.stepTo now) := by
  unfold State.stepTo
  refine .trans ?_ (forUpTo_steady _ (fun _ _ => ?_) _)
  · exact ⟨rfl, id, id⟩
  · dsimp only
    split
    · exact steady_ite ((modLane_steady ..).trans (gateSwitchOp_steady ..)) (modLane_steady ..)
    · exact modLane_steady ..

theorem ptmResponseOp_steady (root : DWord) (s : State) : Steady s (ptmResponseOp root s) := by
  unfold ptmResponseOp
  exact (modHlu_steady ..).trans ((steady_ite ((stepTo_steady ..).trans (modHlu_steady ..)) ((tookFree_steady ..).trans (modHlu_steady ..))).trans
    (modHlu_steady ..))

theorem hdmCommitOp_steady (d host dev size : Nat) (s : State) : Steady s (hdmCommitOp d host dev size s) := by
  unfold hdmCommitOp
  exact modHlu_steady ..

theorem strayAccess_steady (s : State) (a : Nat) : Steady s (s.strayAccess a) := report_steady ..
theorem poisonedRead_steady (s : State) (a : Nat) : Steady s (s.poisonedRead a) := (modHlu_steady ..).trans (report_steady ..)

theorem trackLine_steady (s : State) (l : Nat) : Steady s (s.trackLine l) := by
  unfold State.trackLine
  dsimp only
  split
  · exact modHlu_steady ..
  · split
    · exact steady_ite ((modHlu_steady ..).trans (sendSnoop_steady ..)) (modHlu_steady ..)
    · exact modHlu_steady ..

theorem cxlReadOp_steady (a : Nat) (caches : Bool) (s : State) : Steady s (cxlReadOp a caches s) := by
  unfold cxlReadOp
  dsimp only
  split
  · exact (strayAccess_steady ..).trans (tellHost_steady ..)
  · exact steady_ite (steady_refl _) ((steady_ite (poisonedRead_steady ..) (steady_refl _)).trans ((steady_ite (trackLine_steady ..) (steady_refl
      _)).trans (tellHost_steady ..)))

theorem cxlWriteOp_steady (a : Nat) (bs : List Byte) (poison : Bool) (s : State) : Steady s (cxlWriteOp a bs poison s) := by
  unfold cxlWriteOp
  dsimp only
  split
  · exact strayAccess_steady ..
  · exact (memWrite_steady ..).trans (steady_ite (poisonLine_steady ..) (steady_refl _))

theorem bar4Op_steady (off : Nat) (write : Bool) (len : Nat) (bs : List Byte) (poison : Bool) (s : State) : Steady s (bar4Op off write len bs
    poison s) :=
  steady_ite (steady_ite ((memWrite_steady ..).trans (forEach_steady _ (fun _ _ => poisonLine_steady ..) _)) (steady_ite ((poisonedRead_steady
    ..).trans (tellHost_steady ..)) (tellHost_steady ..))) (steady_ite (strayAccess_steady ..) ((strayAccess_steady ..).trans (tellHost_steady
    ..)))

theorem bar4Safe_steady (write : Bool) (len : Nat) (s : State) : Steady s (bar4Safe write len s) :=
  steady_ite (steady_refl _) (tellHost_steady ..)

theorem storeHeld_steady (s : State) (l : Nat) : Steady s (s.storeHeld l) :=
  (modHlu_steady ..).trans (forEach_steady _ (fun _ _ => memWrite_steady ..) _)

theorem untrack_steady (s : State) (l : Nat) : Steady s (s.untrack l) := modHlu_steady ..
theorem markClean_steady (s : State) (l : Nat) : Steady s (s.markClean l) := modHlu_steady ..

theorem bisnpOp_steady (l : Nat) (dirty : Option (List Byte)) (s : State) : Steady s (bisnpOp l dirty s) := by
  unfold bisnpOp
  dsimp only
  split
  · exact steady_refl _
  · refine .trans ?_ (steady_ite (steady_ite ((markClean_steady ..).trans (sendSnoop_steady ..)) (markClean_steady ..)) ((untrack_steady ..).trans
      (storeHeld_steady ..)))
    split
    · refine .trans ?_ (memWrite_steady ..)
      split
      · exact (modHlu_steady ..).trans (issueSnoop_steady ..)
      · exact modHlu_steady ..
    · split
      · exact (modHlu_steady ..).trans (issueSnoop_steady ..)
      · exact modHlu_steady ..

theorem biasOp_steady (l : Nat) (data : Option (List Byte)) (s : State) : Steady s (biasOp l data s) := by
  unfold biasOp
  dsimp only
  split
  · exact steady_refl _
  · split
    · exact (modHlu_steady ..).trans (memWrite_steady ..)
    · refine .trans ?_ (modHlu_steady ..)
      split
      · exact steady_ite (modHlu_steady ..) ((modHlu_steady ..).trans (memWrite_steady ..))
      · exact modHlu_steady ..

theorem snoopOp_steady (a : Nat) (s : State) : Steady s (snoopOp a s) := send_steady ..
theorem ideFailOp_steady (stream : Nat) (s : State) : Steady s (ideFailOp stream s) := (modHlu_steady ..).trans (report_steady ..)
theorem ideKeyOp_steady (stream : Nat) (s : State) : Steady s (ideKeyOp stream s) := modHlu_steady ..
theorem spdmOp_steady (code param : Nat) (s : State) : Steady s (spdmOp code param s) := tellHost_steady ..

theorem cfgCmd_steady {op : Nat} {e : Entry} {f : State → Entry → AdmEnd} (hf : ∀ t x, EndsAdm t (f t x)) {s : State} :
    Ends s (cfgCmd op e f s) :=
  ends_next (onlyIf_steady _ (fun t => runAdm_steady _ _ _ _ _ (hf t)) _)

theorem beginRestructure_steady (s : State) (i : Image) (tag : Word) : Steady s (s.beginRestructure i tag) :=
  (modBoot_steady ..).trans ((forEach_steady _ (fun _ _ => (disableQueue_steady ..).trans (settleQueue_steady ..)) _).trans (forEach_steady _ (fun
    _ _ => drainSession_steady ..) _))

theorem restructureCmd_steady (b : Block) (s : State) (e : Entry) : EndsAdm s (restructureCmd b s e) := by
  unfold restructureCmd
  dsimp only
  split
  · exact endsAdm_none
  · split
    · exact endsAdm_none
    · split
      · exact endsAdm_some (modBoot_steady ..)
      · split
        · exact endsAdm_some (modBoot_steady ..)
        · exact endsAdm_some ((modBoot_steady ..).trans (beginRestructure_steady ..))

theorem putInForce_steady (s : State) (i : Image) : Steady s (s.putInForce i) :=
  (modBoot_steady ..).trans ((loadScheduler_steady ..).trans (forEach_steady _ (fun _ _ => modSess_steady ..) _))

theorem inForceOp_steady (s : State) : Steady s (inForceOp s) := by
  unfold inForceOp
  dsimp only
  split
  · exact steady_refl _
  · exact ((putInForce_steady ..).trans (modBoot_steady ..)).trans ((forEach_steady _ (fun _ _ => (putStatus_steady ..).trans ((queueEvent_steady
      ..).trans (queueMessage_steady ..))) _).trans (finishAdm_steady ..))

theorem spareRankCmd_steady (s : State) (e : Entry) : EndsAdm s (spareRankCmd s e) := by
  unfold spareRankCmd
  dsimp only
  split
  · exact endsAdm_ite (endsAdm_some (beginMigration_steady ..)) (endsAdm_none)
  · exact endsAdm_none

theorem retireRank_steady (s : State) (ch r : Nat) : Steady s (s.retireRank ch r) := by
  unfold State.retireRank
  split
  · exact steady_ite (((modChn_steady ..).trans (capacity_steady ..)).trans (retireStripe_steady ..)) (retireStripe_steady ..)
  · exact stopMigration_steady ..
  · exact retireStripe_steady ..
  · exact modChn_steady ..

theorem retireRankCmd_steady (s : State) (e : Entry) : EndsAdm s (retireRankCmd s e) :=
  endsAdm_ite (endsAdm_none) (endsAdm_some (retireRank_steady ..))

theorem queryImageCmd_steady (s : State) (x : Entry) : EndsAdm s (queryImageCmd s x) := by
  unfold queryImageCmd
  split
  · exact endsAdm_some (steady_refl _)
  · exact endsAdm_some (steady_refl _)

end Sys2Proof.Machine
end

section
/-! PROOFS. The registers' writes and the pins keep the queue, device memory and the fault FIFO. -/
namespace Sys2Proof.Machine

theorem clearBlock_steady (s : State) (b : Blk) (o : Nat) : Steady s (s.clearBlock b o) := by
  unfold State.clearBlock
  split
  · exact modHlu_steady ..
  · exact modHlu_steady ..
  · exact modHlu_steady ..
  · exact modQe_steady ..
  · exact modQe_steady ..
  · exact modDmv_steady ..
  · exact modImb_steady ..
  · exact modImb_steady ..
  · exact modCtx_steady ..
  · exact modCtx_steady ..
  · exact modMau_steady ..
  · exact modPcf_steady ..
  · exact modPcf_steady ..
  · exact modRcu_steady ..
  · exact modRcu_steady ..
  · exact modRcu_steady ..
  · exact modRcu_steady ..
  · exact modMem_steady ..
  · exact modMem_steady ..
  · exact modNtl_steady ..
  · exact modBpm_steady ..
  · exact modBpm_steady ..
  · exact steady_refl _

theorem clearDsc_steady (s : State) (o : Nat) : Steady s (s.clearDsc o) := by
  unfold State.clearDsc
  split
  · exact modDsc_steady ..
  · exact modDsc_steady ..
  · exact modDsc_steady ..
  · exact modDsc_steady ..
  · split
    · exact modLane_steady ..
    · exact steady_refl _

theorem clearDrs_steady (s : State) (k o : Nat) : Steady s (s.clearDrs k o) := by
  unfold State.clearDrs
  split
  · exact modChn_steady ..
  · exact modChn_steady ..
  · split
    · exact modChn_steady ..
    · exact steady_refl _

theorem clearFcl_steady (s : State) (o : Nat) : Steady s (s.clearFcl o) := by
  unfold State.clearFcl
  split
  · exact modFcl_steady ..
  · exact modFcl_steady ..
  · exact steady_refl _

theorem clearCore_steady (s : State) (n o : Nat) : Steady s (s.clearCore n o) :=
  steady_ite (modHalf_steady ..) (steady_ite (modHalf_steady ..) (steady_ite (modCluster_steady ..) (steady_refl _)))

theorem clearSeq_steady (s : State) (h o : Nat) : Steady s (s.clearSeq h o) := by
  unfold State.clearSeq
  split
  · exact modHalf_steady ..
  · exact modHalf_steady ..
  · exact modHalf_steady ..
  · exact steady_refl _

theorem clearRc_steady (s : State) (fn : Nat) (b : Blk) (o : Nat) : Steady s (s.clearRc fn b o) := by
  unfold State.clearRc
  split
  · exact clearDsc_steady ..
  · exact clearDrs_steady ..
  · exact clearFcl_steady ..
  · exact clearCore_steady ..
  · exact clearSeq_steady ..
  · exact steady_ite (modRing_steady ..) (steady_refl _)
  · exact clearBlock_steady ..

theorem pairLowOp_steady (fn off v : Nat) (s : State) : Steady s (pairLowOp fn off v s) := ⟨rfl, id, id⟩
theorem pairHighOp_steady (fn off v : Nat) (s : State) : Steady s (pairHighOp fn off v s) := steady_ite (⟨rfl, id, id⟩) (withRdata_steady ..)

theorem plainRead_steady (fn off : Nat) (b : Blk) (o : Nat) (s : State) : Steady s (plainRead fn off b o s) := by
  unfold plainRead
  split
  · exact pairLowOp_steady ..
  · exact pairHighOp_steady ..
  · exact (withRdata_steady ..).trans (clearRc_steady ..)

theorem semRead_steady (fn : Nat) (d : MbxSide) (n : Nat) (s : State) : Steady s (semRead fn d n s) := by
  unfold semRead
  split
  · exact acquireOp_steady ..
  · exact acquireOp_steady ..
  · exact withRdata_steady ..

theorem readWord_steady (fn off : Nat) (b : Blk) (o : Nat) (s : State) : Steady s (readWord fn off b o s) := by
  unfold readWord
  split
  · exact steady_ite (claimOp_steady ..) (plainRead_steady ..)
  · split
    · exact semRead_steady ..
    · exact plainRead_steady ..
  · exact plainRead_steady ..

theorem readOp_steady (fn off : Nat) (s : State) : Steady s (readOp fn off s) := steady_ite (readWord_steady ..) (withRdata_steady ..)

theorem unalignedOp_steady (fn off : Nat) (s : State) : Steady s (unalignedOp fn off s) :=
  (withRdata_steady ..).trans (steady_ite (reportAccess_steady ..) (steady_refl _))

theorem readWords_steady (fn off n : Nat) (s : State) : Steady s (readWords fn off n s) := by
  induction n generalizing off s with
  | zero => exact steady_refl s
  | succ n ih => exact ((readOp_steady ..).trans (withRdata_steady ..)).trans (ih _ _)

theorem narrowRead_steady (fn off len : Nat) (s : State) : Steady s (narrowRead fn off len s) := (readOp_steady ..).trans (withRdata_steady ..)

theorem wideRead_steady (fn off len : Nat) (s : State) : Steady s (wideRead fn off len s) :=
  steady_ite (narrowRead_steady ..) (steady_ite (readOp_steady ..) (readWords_steady ..))

theorem pairHoldOp_steady (fn o : Nat) (v : Word) (s : State) : Steady s (pairHoldOp fn o v s) := steady_ite (holdLow_steady ..) (steady_refl _)

theorem putPair_steady (s : State) (fn o : Nat) (v : DWord) : Steady s (s.putPair fn o v) := by
  unfold State.putPair
  split
  · exact modAdmQ_steady ..
  · exact modAdmQ_steady ..
  · exact modAdmQ_steady ..
  · exact modCfgQ_steady ..
  · exact modCfgQ_steady ..
  · exact modCfgQ_steady ..
  · exact chBaseOp_steady ..

theorem pairWriteOp_steady (fn o : Nat) (v : Word) (s : State) : Steady s (pairWriteOp fn o v s) :=
  steady_ite (freeOp_steady ..) ((dropHeld_steady ..).trans (steady_ite (putPair_steady ..) (steady_refl _)))

theorem ctxQueryOp_steady (v : Word) (s : State) : Steady s (ctxQueryOp v s) := modCtx_steady ..
theorem dscQueryOp_steady (v : Word) (s : State) : Steady s (dscQueryOp v s) := modDsc_steady ..
theorem qeQueryOp_steady (v : Word) (s : State) : Steady s (qeQueryOp v s) := modQe_steady ..
theorem bpmQueryOp_steady (v : Word) (s : State) : Steady s (bpmQueryOp v s) := modBpm_steady ..

theorem queryOp_steady (k : QueryKind) (s : State) : Steady s (queryOp k s) := by
  unfold queryOp
  split
  · exact modCtx_steady ..
  · exact modDsc_steady ..
  · exact modQe_steady ..
  · exact modBpm_steady ..

theorem hluWrite_steady (o v : Nat) (s : State) : Steady s (hluWrite o v s) := by
  unfold hluWrite
  split
  · exact modHlu_steady ..
  · exact modHlu_steady ..
  · exact steady_ite (modHlu_steady ..) (steady_refl _)
  · exact steady_refl _

theorem qeWrite_steady (o : Nat) (v : Word) (s : State) : Steady s (qeWrite o v s) := by
  unfold qeWrite
  split
  · exact modQe_steady ..
  · exact qeQueryOp_steady ..
  · exact steady_refl _

theorem dscWrite_steady (o : Nat) (v : Word) (s : State) : Steady s (dscWrite o v s) := by
  unfold dscWrite
  split
  · exact modDsc_steady ..
  · exact dscQueryOp_steady ..
  · exact steady_refl _

theorem ctxWrite_steady (o : Nat) (v : Word) (s : State) : Steady s (ctxWrite o v s) := by
  unfold ctxWrite
  split
  · exact modCtx_steady ..
  · exact ctxQueryOp_steady ..
  · exact steady_refl _

theorem mfxWrite_steady (o : Nat) (v : Word) (s : State) : Steady s (mfxWrite o v s) :=
  steady_ite (modMem_steady ..) (steady_ite (weightOp_steady ..) (steady_refl _))

theorem drsWrite_steady (k o off v : Nat) (s : State) : Steady s (drsWrite k o off v s) := by
  unfold drsWrite
  split
  · exact modChn_steady ..
  · exact modChn_steady ..
  · exact steady_ite (reportAccess_steady ..) (modChn_steady ..)
  · exact steady_refl _

theorem fclWrite_steady (o : Nat) (v : Word) (s : State) : Steady s (fclWrite o v s) := by
  unfold fclWrite
  split
  · exact steady_ite (aliveResumeOp_steady ..) (steady_refl _)
  · exact steady_ite (firstClearOp_steady ..) (steady_refl _)
  · exact fclPopOp_steady ..
  · exact steady_refl _

theorem cmdBit_steady {v : Word} {n : Nat} {f : State → State} (hf : ∀ t, Steady t (f t)) {s : State} : Steady s (cmdBit v n f s) :=
  steady_ite (hf s) (steady_refl _)

theorem unfenceBit_steady (n e : Nat) (v : Word) (s : State) : Steady s (unfenceBit n e v s) :=
  steady_ite (steady_refl _) (cmdBit_steady fun _ => unfenceOp_steady ..)

theorem ccaCtrlOp_steady (n : Nat) (v : Word) (s : State) : Steady s (ccaCtrlOp n v s) :=
  ((((modCore_steady ..).trans (cmdBit_steady fun _ => fenceOp_steady ..)).trans (cmdBit_steady fun _ => fenceOp_steady ..)).trans
    (unfenceBit_steady ..)).trans (unfenceBit_steady ..)

theorem coreWrite_steady (n o : Nat) (v : Word) (s : State) : Steady s (coreWrite n o v s) := by
  unfold coreWrite
  split
  · exact ccaCtrlOp_steady ..
  · exact steady_ite (modCore_steady ..) (steady_refl _)
  · exact steady_refl _

theorem seqWrite_steady (h o v : Nat) (s : State) : Steady s (seqWrite h o v s) := steady_ite (modHalf_steady ..) (steady_refl _)

theorem chanWrite_steady (fn l o : Nat) (v : Word) (s : State) : Steady s (chanWrite fn l o v s) := by
  unfold chanWrite
  split
  · exact ctrlOp_steady ..
  · exact chDbOp_steady ..
  · exact modChan_steady ..
  · exact steady_refl _

theorem pageWrite_steady (fn o : Nat) (v : Word) (s : State) : Steady s (pageWrite fn o v s) := by
  unfold pageWrite
  split
  · exact modAdmQ_steady ..
  · exact admBellOp_steady ..
  · exact modRing_steady ..
  · exact steady_ite (modRing_steady ..) (steady_refl _)
  · exact modRing_steady ..
  · exact steady_ite (modCfgQ_steady ..) (steady_refl _)
  · exact steady_ite (admBellOp_steady ..) (steady_refl _)
  · exact allocReqOp_steady ..
  · split
    · exact chanWrite_steady ..
    · exact steady_refl _

theorem irqWrite_steady (fn o : Nat) (v : Word) (s : State) : Steady s (irqWrite fn o v s) := by
  unfold irqWrite
  split
  · exact thresholdOp_steady ..
  · exact completeOp_steady ..
  · split
    · exact lsrcOp_steady ..
    · exact steady_refl _

theorem semWrite_steady (fn : Nat) (d : MbxSide) (n : Nat) (v : Word) (s : State) : Steady s (semWrite fn d n v s) := by
  unfold semWrite
  split
  · exact releaseOp_steady ..
  · exact releaseOp_steady ..
  · exact steady_refl _

theorem mbxWrite_steady (fn : Nat) (d : MbxSide) (o : Nat) (v : Word) (s : State) : Steady s (mbxWrite fn d o v s) := by
  unfold mbxWrite
  split
  · exact inDbOp_steady ..
  · exact (modMbx_steady ..).trans (settleMbx_steady ..)
  · exact outDbOp_steady ..
  · exact modMbx_steady ..
  · exact modMbx_steady ..
  · exact modMbx_steady ..
  · split
    · exact slotOp_steady ..
    · exact semWrite_steady ..
    · exact steady_refl _

theorem writeWord_steady (fn off : Nat) (b : Blk) (o : Nat) (v : Word) (s : State) : Steady s (writeWord fn off b o v s) := by
  unfold writeWord
  split
  · exact hluWrite_steady ..
  · exact qeWrite_steady ..
  · exact dscWrite_steady ..
  · exact ctxWrite_steady ..
  · exact steady_ite (modMau_steady ..) (steady_refl _)
  · exact steady_ite (modPcf_steady ..) (steady_refl _)
  · exact mfxWrite_steady ..
  · exact drsWrite_steady ..
  · exact steady_ite (bpmQueryOp_steady ..) (steady_refl _)
  · exact fclWrite_steady ..
  · exact coreWrite_steady ..
  · exact seqWrite_steady ..
  · exact doorbellOp_steady ..
  · exact irqWrite_steady ..
  · exact mbxWrite_steady ..
  · exact steady_ite (pairHoldOp_steady ..) (steady_ite (pairWriteOp_steady ..) (pageWrite_steady ..))
  · exact steady_refl _
  · exact steady_refl _
  · exact steady_refl _
  · exact steady_refl _
  · exact steady_refl _
  · exact steady_refl _

theorem oneWrite_steady (fn off : Nat) (v : Word) (s : State) : Steady s (oneWrite fn off v s) := steady_ite (writeWord_steady ..) (steady_refl _)

theorem writeOp_steady (fn off : Nat) (be : BitVec 4) (v : List Word) (s : State) : Steady s (writeOp fn off be v s) := by
  unfold writeOp
  split
  · exact steady_ite (reportAccess_steady ..) (steady_refl _)
  · split
    · exact steady_refl _
    · exact oneWrite_steady ..
    · exact (oneWrite_steady ..).trans (oneWrite_steady ..)

theorem telemetryOp_steady (s : State) : Steady s (telemetryOp s) :=
  (reach_steady ..).trans (((emitFor_steady ..).trans (tookFree_steady ..)).trans (tookFree_steady ..))

theorem railOp_steady (s : State) : Steady s (railOp s) := atCold_steady ..
theorem refclkOp_steady (s : State) : Steady s (refclkOp s) := linkReset_steady ..
theorem xtalOp_steady (s : State) : Steady s (xtalOp s) := atCold_steady ..

theorem tgtReadOp_steady (ix : Nat) (s : State) : Steady s (tgtReadOp ix s) := by
  unfold tgtReadOp
  split
  · exact withRdata_steady ..
  · exact steady_refl _

theorem rowRequestOp_steady (h row spent : Nat) (s : State) : Steady s (rowRequestOp h row spent s) := by
  unfold rowRequestOp
  dsimp only
  split
  · exact steady_refl _
  · split
    · exact steady_refl _
    · exact (modHalf_steady ..).trans (modRcu_steady ..)

theorem rowDecisionOp_steady (s : State) : Steady s (rowDecisionOp s) := by
  unfold rowDecisionOp
  dsimp only
  split
  · exact steady_refl _
  · split
    · exact steady_ite (((reach_steady ..).trans (modRcu_steady ..)).trans (modHalf_steady ..)) ((reach_steady ..).trans (modRcu_steady ..))
    · exact (reach_steady ..).trans (modRcu_steady ..)

theorem planRequestOp_steady (n pic : Nat) (s : State) : Steady s (planRequestOp n pic s) := steady_ite (steady_refl _) (modRcu_steady ..)

theorem rebudget_steady (s : State) (n pic : Nat) : Steady s (s.rebudget n pic) := by
  unfold State.rebudget
  dsimp only
  split
  · exact steady_refl _
  · exact modDsc_steady ..

theorem makePlan_steady (s : State) (ms : List MapRead) (n : Nat) (p : SrcPic) : Steady s (s.makePlan ms n p) :=
  (modSess_steady ..).trans (rebudget_steady ..)

theorem planDoneOp_steady (ms : List MapRead) (s : State) : Steady s (planDoneOp ms s) := by
  unfold planDoneOp
  dsimp only
  split
  · exact steady_refl _
  · exact ((reach_steady ..).trans (modRcu_steady ..)).trans (forEach_steady _ (fun _ _ => makePlan_steady ..) _)

theorem invarRestartOp_steady (s : State) : Steady s (invarRestartOp s) :=
  ((modRcu_steady ..).trans (report_steady ..)).trans ((tookFree_steady ..).trans (steady_ite (report_steady ..) (steady_refl _)))

end Sys2Proof.Machine
end

section
/-! PROOFS. Every command is steady; O1 to O6. -/
namespace Sys2Proof.Machine

theorem execTileWrite_steady (r : TileRef) (samples : List (Nat × Nat)) (s : State) : Ends s (execTileWrite r samples s) := by
  unfold execTileWrite
  refine onTile_steady fun u => ?_
  split
  · exact writeTile_steady ..
  · exact steady_refl u

theorem exec_steady (c : Instr) (s : State) : Ends s (exec c s) := by
  cases c with
  | wqDoorbell => exact ends_onlyIf fun _ => doorbellOp_steady ..
  | entryFetch => exact ends_onlyIf fun _ => fetchOp_steady ..
  | chainTmo => exact ends_onlyIf fun _ => chainTmoOp_steady ..
  | completionReservation => exact ends_onlyIf fun _ => reserveChainOp_steady ..
  | decodeAu => exact ends_next (onDue_steady (fun _ _ => decodeReceive_steady ..))
  | encodePicture => exact ends_next (onDue_steady (fun _ _ => encodeReceive_steady ..))
  | transcodeAu => exact ends_next (onDue_steady (fun _ _ => transcodeReceive_steady ..))
  | convertPicture => exact ends_next (onDue_steady (fun _ _ => convertReceive_steady ..))
  | analyzePicture => exact ends_next (onDue_steady (fun _ _ => analyzeReceive_steady ..))
  | copy => exact ends_onlyIf (fun _ => onDue_steady (fun _ _ => copyReceive_steady ..))
  | flushSession => exact ends_next (onDue_steady (fun _ _ => flushReceive_steady ..))
  | fence => exact ends_onlyIf (fun _ => onDue_steady (fun _ _ => fenceReceive_steady ..))
  | publishHead => exact ends_onlyIf fun _ => publishHeadOp_steady ..
  | modTimer => exact ends_onlyIf fun _ => modTimerOp_steady ..
  | evqConsWrite => exact ends_onlyIf fun _ => modRing_steady ..
  | evqOverflowClear => exact ends_onlyIf fun _ => modRing_steady ..
  | admqDb => exact ends_onlyIf fun _ => admBellOp_steady ..
  | cfgqDb => exact ends_onlyIf fun _ => admBellOp_steady ..
  | admqEnable => exact ends_onlyIf fun _ => modAdmQ_steady ..
  | admqDisable => exact ends_onlyIf fun _ => modAdmQ_steady ..
  | cfgqEnable => exact ends_onlyIf fun _ => modCfgQ_steady ..
  | createQueue => exact admCmd_steady (fun _ _ => createQueueCmd_steady ..)
  | destroyQueue => exact admCmd_steady (fun _ _ => destroyQueueCmd_steady ..)
  | enableQueue => exact admCmd_steady (fun _ _ => enableQueueCmd_steady ..)
  | disableQueue => exact admCmd_steady (fun _ _ => disableQueueCmd_steady ..)
  | resetQueue => exact admCmd_steady (fun _ _ => resetQueueCmd_steady ..)
  | setQueueMod => exact admCmd_steady (fun _ _ => setQueueModCmd_steady ..)
  | createSession => exact admCmd_steady (fun _ _ => createSessionCmd_steady ..)
  | destroySession => exact admCmd_steady (fun _ _ => destroySessionCmd_steady ..)
  | setSessionParams => exact admCmd_steady (fun _ _ => setParamsCmd_steady ..)
  | resetSession => exact admCmd_steady (fun _ _ => resetSessionCmd_steady ..)
  | querySession => exact admCmd_steady (fun _ _ => querySessionCmd_steady ..)
  | createPool => exact admCmd_steady (fun _ _ => createPoolCmd_steady ..)
  | destroyPool => exact admCmd_steady (fun _ _ => destroyPoolCmd_steady ..)
  | setClass => exact admCmd_steady (fun _ _ => setClassCmd_steady ..)
  | queryClass => exact admCmd_steady (fun _ _ => queryClassCmd_steady ..)
  | setGateList => exact admCmd_steady (fun _ _ => setGateListCmd_steady ..)
  | createEventRing => exact admCmd_steady (fun _ _ => createEventRingCmd_steady ..)
  | destroyEventRing => exact admCmd_steady (fun _ _ => destroyEventRingCmd_steady ..)
  | queryFunction => exact admCmd_steady (fun _ _ => queryFunctionCmd_steady ..)
  | restructure => exact ends_ite (ends_next (steady_refl _)) (cfgCmd_steady (fun _ _ => restructureCmd_steady ..))
  | restructureInForce => exact ends_onlyIf fun _ => inForceOp_steady ..
  | spareRank => exact cfgCmd_steady (fun _ _ => spareRankCmd_steady ..)
  | retireRank => exact cfgCmd_steady (fun _ _ => retireRankCmd_steady ..)
  | queryImage => exact cfgCmd_steady (fun _ _ => queryImageCmd_steady ..)
  | scheduleDecision => exact ends_onlyIf fun _ => scheduleOp_steady ..
  | unitDispatch => exact ends_onlyIf fun _ => unitDispatchOp_steady ..
  | bucketRefill => exact ends_onlyIf fun _ => bucketRefillOp_steady ..
  | gateClaim => exact ends_onlyIf fun _ => gateClaimOp_steady ..
  | gateWindowOpen => exact ends_onlyIf fun _ => gateOpenOp_steady ..
  | gateWindowClose => exact ends_onlyIf fun _ => gateCloseOp_steady ..
  | gateListSwitch => exact ends_onlyIf fun _ => gateSwitchOp_steady ..
  | preloadDone => exact ends_onlyIf fun _ => preloadOp_steady ..
  | contextPrefetch => exact ends_onlyIf fun _ => prefetchOp_steady ..
  | bankDrainDone => exact ends_onlyIf fun _ => drainOp_steady ..
  | microwordIssue => exact ends_onlyIf fun _ => issueOp_steady ..
  | fifoTailFlush => exact ends_onlyIf fun _ => tailFlushOp_steady ..
  | commitFlip => exact ends_onlyIf fun _ => commitOp_steady ..
  | requestArrival => exact ends_onlyIf fun _ => requestOp_steady ..
  | waitWatchdog => exact ends_onlyIf fun _ => watchdogOp_steady ..
  | decodeBudgetAbort => exact ends_onlyIf fun _ => budgetOp_steady ..
  | encodeBudgetAbort => exact ends_onlyIf fun _ => budgetOp_steady ..
  | machineCheck => exact ends_onlyIf fun _ => machineCheckOp_steady ..
  | fenceDec => exact ends_onlyIf fun _ => fenceOp_steady ..
  | fenceEnc => exact ends_onlyIf fun _ => fenceOp_steady ..
  | unfenceDec => exact ends_onlyIf fun _ => unfenceOp_steady ..
  | unfenceEnc => exact ends_onlyIf fun _ => unfenceOp_steady ..
  | selfTestDone => exact ends_onlyIf fun _ => selfTestOp_steady ..
  | clockChange => exact ends_onlyIf fun _ => clockChangeOp_steady ..
  | clockSettled => exact ends_onlyIf fun _ => clockSettledOp_steady ..
  | rcacheParity => exact ends_onlyIf fun _ => rcacheParityOp_steady ..
  | rcuRowRequest => exact ends_onlyIf fun _ => rowRequestOp_steady ..
  | rcuRowDecision => exact ends_onlyIf fun _ => rowDecisionOp_steady ..
  | rcuPlanRequest => exact ends_onlyIf fun _ => planRequestOp_steady ..
  | rcuPlanDone => exact ends_onlyIf fun _ => planDoneOp_steady ..
  | invarRestart => exact ends_onlyIf fun _ => invarRestartOp_steady ..
  | mauUnitDone => exact ends_onlyIf fun _ => mauDoneOp_steady ..
  | mauParity => exact ends_onlyIf fun _ => mauParityOp_steady ..
  | pcfPassDone => exact ends_onlyIf fun _ => passDoneOp_steady ..
  | pcfParity => exact ends_onlyIf fun _ => pcfParityOp_steady ..
  | tileWrite t samples => exact execTileWrite_steady t samples s
  | tileRead => exact onTile_steady (fun _ => tileReadOp_steady ..)
  | tileMerge => exact onTile_steady (fun _ => tileMergeOp_steady ..)
  | portGrant => exact execPortGrant_steady ..
  | ingressGrant => exact execIngressGrant_steady ..
  | creditRefill => exact ends_onlyIf fun _ => refillOp_steady ..
  | backoffExpiry => exact ends_onlyIf fun _ => backoffOp_steady ..
  | writeAck => exact ends_ite (ends_fault _ _) (ends_onlyIf fun _ => writeAckOp_steady ..)
  | mfxWeightWrite => exact ends_onlyIf fun _ => weightOp_steady ..
  | dramCommand => exact ends_onlyIf fun _ => commandOp_steady ..
  | dramReadData => exact ends_ite (ends_fault _ _) (ends_onlyIf fun _ => readDataOp_steady ..)
  | refreshDue => exact ends_onlyIf fun _ => refreshOp_steady ..
  | calibrationDue => exact ends_onlyIf fun _ => calibrationOp_steady ..
  | calibrationDone => exact ends_onlyIf fun _ => modChn_steady ..
  | dimmThermalRead => exact ends_onlyIf fun _ => thermalOp_steady ..
  | powerDownEntry => exact ends_onlyIf fun _ => powerDownOp_steady ..
  | selfRefreshEntry => exact ends_onlyIf fun _ => selfRefreshOp_steady ..
  | selfRefreshExit => exact ends_onlyIf fun _ => selfRefreshExitOp_steady ..
  | patrolScrubRead => exact ends_onlyIf fun _ => scrubOp_steady ..
  | ceWindowEnd => exact ends_onlyIf fun _ => ceWindowOp_steady ..
  | migrationCopy => exact ends_onlyIf fun _ => migrationOp_steady ..
  | rankRecordWrite => exact ends_onlyIf fun _ => rankRecordOp_steady ..
  | dmvChDb => exact ends_onlyIf fun _ => chDbOp_steady ..
  | channelEnable => exact ends_onlyIf fun _ => ctrlOp_steady ..
  | channelDisable => exact ends_onlyIf fun _ => ctrlOp_steady ..
  | dmvChBaseWrite => exact ends_onlyIf fun _ => chBaseWide_steady ..
  | descriptorRead => exact ends_onlyIf fun _ => descReadOp_steady ..
  | readBurstDone => exact ends_onlyIf fun _ => burstOp_steady ..
  | writeRequestIssue => exact ends_onlyIf fun _ => writeReqOp_steady ..
  | descriptorWriteback => exact ends_onlyIf fun _ => writebackOp_steady ..
  | demandRead => exact ends_onlyIf fun _ => unitReadOp_steady ..
  | demandWrite => exact ends_onlyIf fun _ => unitWriteOp_steady ..
  | demandWriteHold => exact ends_onlyIf fun _ => issueDemand_steady ..
  | dmvBufferParity => exact ends_onlyIf fun _ => bufParityOp_steady ..
  | bpmAllocReq => exact ends_onlyIf fun _ => allocReqOp_steady ..
  | bpmFree => exact ends_onlyIf fun _ => freeOp_steady ..
  | poolArbitration => exact ends_onlyIf fun _ => arbitrateOp_steady ..
  | allocBackoff => exact ends_onlyIf fun _ => allocBackoffOp_steady ..
  | allocWaitExpiry => exact ends_onlyIf fun _ => allocWaitOp_steady ..
  | poolCacheRefill => exact ends_onlyIf fun _ => poolRefillOp_steady ..
  | poolCacheSpill => exact ends_onlyIf fun _ => poolSpillOp_steady ..
  | sourceAssert => exact ends_onlyIf fun _ => assertOp_steady ..
  | imbClaim => exact ends_next (steady_ite (claimOp_steady ..) (withRdata_steady ..))
  | imbComplete => exact ends_onlyIf fun _ => completeOp_steady ..
  | imbThreshold => exact ends_onlyIf fun _ => thresholdOp_steady ..
  | imbLsrcB => exact ends_onlyIf fun _ => lsrcOp_steady ..
  | msixUnmask => exact ends_onlyIf fun _ => unmaskOp_steady ..
  | mbxOutSlot => exact ends_onlyIf fun _ => slotOp_steady ..
  | mbxOutDb => exact ends_onlyIf fun _ => outDbOp_steady ..
  | mbxInDb => exact ends_onlyIf fun _ => inDbOp_steady ..
  | mbxTimeout => exact ends_onlyIf fun _ => timeoutOp_steady ..
  | semAcquire => exact ends_next (steady_ite (acquireOp_steady ..) (withRdata_steady ..))
  | semRelease => exact ends_onlyIf fun _ => releaseOp_steady ..
  | perstAssert => exact ends_next (steady_ite (steady_refl _) (steady_ite (perstOp_steady ..) (modPins_steady ..)))
  | perstDeassert => exact ends_onlyIf fun _ => perstDeassertOp_steady ..
  | pwrgoodFall => exact ends_onlyIf fun _ => coldOp_steady ..
  | pwrgoodRise => exact ends_onlyIf fun _ => pwrgoodRiseOp_steady ..
  | railUndervoltage => exact ends_onlyIf fun _ => railOp_steady ..
  | refclkLoss => exact ends_onlyIf fun _ => refclkOp_steady ..
  | xtalLoss => exact ends_onlyIf fun _ => xtalOp_steady ..
  | hotReset => exact ends_onlyIf fun _ => hotResetOp_steady ..
  | linkDown => exact ends_onlyIf fun _ => linkDownOp_steady ..
  | linkTrained => exact ends_onlyIf fun _ => linkTrainedOp_steady ..
  | flr => exact ends_onlyIf fun _ => flrOp_steady ..
  | flrComplete => exact ends_onlyIf fun _ => flrCompleteOp_steady ..
  | vfEnableClear => exact ends_onlyIf fun _ => vfEnableClearOp_steady ..
  | d3hotEntry => exact ends_onlyIf fun _ => d3Op_steady ..
  | d0Return => exact ends_onlyIf fun _ => d0Op_steady ..
  | pmeTurnOff => exact ends_onlyIf fun _ => pmeOffOp_steady ..
  | aspmL1Entry => exact ends_onlyIf fun _ => l1EntryOp_steady ..
  | l1Exit => exact ends_onlyIf fun _ => l1ExitOp_steady ..
  | l0pReduce => exact ends_onlyIf fun _ => modHlu_steady ..
  | l0pRestore => exact ends_onlyIf fun _ => modHlu_steady ..
  | ptmRequest => exact ends_onlyIf fun _ => ptmRequestOp_steady ..
  | ptmResponse => exact ends_onlyIf fun _ => ptmResponseOp_steady ..
  | hdmDecoderCommit => exact ends_onlyIf fun _ => hdmCommitOp_steady ..
  | cxlMemRead => exact ends_onlyIf fun _ => cxlReadOp_steady ..
  | cxlMemWrite => exact ends_onlyIf fun _ => cxlWriteOp_steady ..
  | bar4Access =>
    refine ends_onlyIf fun t => ?_
    split
    · exact bar4Safe_steady ..
    · exact bar4Op_steady ..
  | bisnpResponse => exact ends_onlyIf fun _ => bisnpOp_steady ..
  | snoopReceived => exact ends_onlyIf fun _ => snoopOp_steady ..
  | ideIntegrityFail => exact ends_onlyIf fun _ => ideFailOp_steady ..
  | ideKeyProgram => exact ends_onlyIf fun _ => ideKeyOp_steady ..
  | spdmRequest => exact ends_onlyIf fun _ => spdmOp_steady ..
  | faultRecord => exact ends_onlyIf fun _ => faultRecordOp_steady ..
  | fclPop => exact ends_onlyIf fun _ => fclPopOp_steady ..
  | firstValidClear => exact ends_onlyIf fun _ => firstClearOp_steady ..
  | aliveResume => exact ends_onlyIf fun _ => aliveResumeOp_steady ..
  | policyWindowEnd => exact ends_onlyIf fun _ => policyWindowOp_steady ..
  | lockstepMismatch => exact ends_onlyIf fun _ => lockstepOp_steady ..
  | firmwareRestartDone => exact ends_onlyIf fun _ => restartDoneOp_steady ..
  | electrumLineError => exact ends_onlyIf fun _ => electrumLineOp_steady ..
  | thermalReading => exact ends_onlyIf fun _ => thermalReadingOp_steady ..
  | bootComplete => exact ends_onlyIf fun _ => bootCompleteOp_steady ..
  | bootTimeout => exact ends_onlyIf fun _ => bootTimeoutOp_steady ..
  | arbBurn => exact ends_onlyIf fun _ => arbBurnOp_steady ..
  | fwInfo => exact ends_onlyIf fun _ => fwInfoOp_steady ..
  | fwEnrollOwner => exact ends_onlyIf fun _ => fwEnrollOp_steady ..
  | fwFlashWrite => exact ends_onlyIf fun _ => fwFlashOp_steady ..
  | fwDebugUnlock => exact ends_onlyIf fun _ => fwDebugOp_steady ..
  | tgtRead => exact ends_next (tgtReadOp_steady ..)
  | telemetrySnapshot => exact ends_onlyIf fun _ => telemetryOp_steady ..
  | ctxQueryIdWrite => exact ends_onlyIf fun _ => ctxQueryOp_steady ..
  | dscClassQueryWrite => exact ends_onlyIf fun _ => dscQueryOp_steady ..
  | qeQueryIdWrite => exact ends_onlyIf fun _ => qeQueryOp_steady ..
  | bpmQueryIdWrite => exact ends_onlyIf fun _ => bpmQueryOp_steady ..
  | queryResultValid => exact ends_onlyIf fun _ => queryOp_steady ..
  | regWrite => exact ends_onlyIf fun _ => writeOp_steady ..
  | rcRead => exact ends_next (readOp_steady ..)
  | pairLowRead => exact ends_onlyIf fun _ => readOp_steady ..
  | pairHighRead => exact ends_onlyIf fun _ => readOp_steady ..
  | pairLowWrite => exact ends_onlyIf fun _ => pairHoldOp_steady ..
  | pairHighWrite => exact ends_onlyIf fun _ => pairWriteOp_steady ..
  | unalignedRead =>
    refine ends_onlyIf fun t => ?_
    split
    · exact wideRead_steady ..
    · exact unalignedOp_steady ..
  | vfEnableSet => exact ends_onlyIf fun _ => vfEnableSetOp_steady ..
  | pwrgoodSettleTime => exact ends_onlyIf fun _ => settleTimeOp_steady ..
  | flushReadCompletion => exact ends_onlyIf fun _ => flushDoneOp_steady ..
  | hostBiasResponse => exact ends_onlyIf fun _ => biasOp_steady ..
  | fclParityError => exact ends_onlyIf fun _ => fclParityOp_steady ..
  | clusterPortError => exact ends_onlyIf fun _ => clusterErrorOp_steady ..
  | nitinolEngineError => exact ends_ite (ends_fault _ _) (ends_onlyIf fun _ => nitinolErrorOp_steady ..)

/-- Settles O6. Every command's model function is steady, and a steady step leaves the queue as it is. -/
theorem commandsLeaveQueue : Obligations.CommandsLeaveQueue :=
  fun c s t h => ((exec_steady c s).steady t h).pending

/-- Settles O5. A steady step keeps device memory canonical and the fault FIFO within 128 records. -/
theorem everyStepKeepsInvariant : Obligations.EveryStepKeepsInvariant := by
  intro s t hinv h
  simp only [State.inv, Bool.and_eq_true, decide_eq_true_eq] at hinv ⊢
  obtain ⟨hmem, hfifo⟩ := hinv
  unfold step at h
  cases hp : s.pending with
  | nil =>
    rw [hp] at h
    obtain rfl := Host.Outcome.next.inj h
    exact ⟨(idle_steady s).cells hmem, (idle_steady s).fifo hfifo⟩
  | cons c rest =>
    rw [hp] at h
    have hstep := (exec_steady c (s.withPending rest)).steady t h
    exact ⟨hstep.cells hmem, hstep.fifo hfifo⟩

/-- Settles O1. -/
theorem stepRunsFrontCommand : Obligations.StepRunsFrontCommand := by
  intro c rest s hp
  simp only [step, hp]

/-- Settles O2. The idle tick writes `time` and `aon` and nothing else. -/
theorem emptyQueueLetsTimePass : Obligations.EmptyQueueLetsTimePass := by
  intro s hp
  refine ⟨idle s, by simp only [step, hp], rfl, fun hrun => ?_, fun hrun => ?_, rfl⟩
  · simp [idle, hrun]
  · simp [idle, hrun]

/-- Settles O3: each conjunct is a field of the reset state, the clocks and device memory at every index. -/
theorem resetState : Obligations.ResetState := by
  refine ⟨rfl, rfl, rfl, rfl, rfl, rfl, rfl, rfl, rfl, rfl, rfl, rfl, fun n => ?_, rfl, rfl, rfl, rfl, fun a => ?_⟩
  · rfl
  · rfl

/-- Settles O4. -/
theorem resetKeepsInvariant : Obligations.ResetKeepsInvariant := rfl

end Sys2Proof.Machine
end

section
/-! PROOFS. Interrupt sources (R382 to R388): assertions, claims, completions, and the writes of a source's priority, vector and mask. -/
namespace Sys2Proof.Machine

/-! ### Assertions (R382) -/

theorem message_srcs (s : State) (fn v : Nat) : (s.message fn v).imb.srcs = s.imb.srcs := by
  unfold State.message
  split
  · rfl
  · split
    · rfl
    · split <;> rfl

theorem settleSource_src_other (s : State) {n m : Nat} (h : m ≠ n) : (s.settleSource n).src m = s.src m := by
  have hmod : ∀ b, (s.modSrc n fun c => { c with deliverable := b }).src m = s.src m := fun b => modSrc_src_other _ _ _ _ h.symm
  have hmsg : ∀ (t : State) k v, (t.message k v).src m = t.src m := fun t k v => by simp only [State.src, message_srcs]
  unfold State.settleSource
  dsimp only
  split
  · split
    · split
      · rw [hmsg, hmod]
      · exact hmod _
    · exact hmod _
  · exact hmod _

/-- A source with one more assertion: pending, and counted up to 255. -/
def Src.asserted (c : Src) : Src := { c with pending := true, count := min 255 (c.count + 1) }

/-- The functions that own the sources are the image's: a source's write changes none of it. -/
theorem modSrc_sourceTarget (s : State) (n m : Nat) (f : Src → Src) : (s.modSrc n f).sourceTarget m = s.sourceTarget m := by
  have hbase : ∀ k, (s.modSrc n f).chanBase k = s.chanBase k := chanBase_congr rfl
  have howner : ∀ g, (s.modSrc n f).chanOwner g = s.chanOwner g := fun g => by
    simp only [State.chanOwner, hbase]
    rfl
  simp only [State.sourceTarget, howner]
  rfl

theorem assertSource_settles {s : State} {n k : Nat} (hup : s.up = true) (htarget : s.sourceTarget n = some k) :
    s.assertSource n = (s.modSrc n Src.asserted).settleSource n := by
  unfold State.assertSource
  rw [if_neg (by simp [hup, htarget])]
  rfl

theorem assertSource_src {s : State} {n k : Nat} (hup : s.up = true) (htarget : s.sourceTarget n = some k) :
    SrcKept (s.src n).asserted ((s.assertSource n).src n) := by
  have h := (settleSource_told (s.modSrc n Src.asserted) n).src n
  rwa [modSrc_src, ← assertSource_settles hup htarget] at h

theorem assertSource_src_other {s : State} {n k m : Nat} (hup : s.up = true) (htarget : s.sourceTarget n = some k) (h : m ≠ n) :
    (s.assertSource n).src m = s.src m := by
  rw [assertSource_settles hup htarget, settleSource_src_other _ h, modSrc_src_other _ _ _ _ h.symm]

/-- Nothing has changed but what an assertion touches: the sources, and what a message touches. -/
structure OnlyAsserted (s t : State) : Prop where
  frame : t = { s with funcs := t.funcs, hlu := t.hlu, imb := t.imb, out := t.out }
  targets : t.imb.targets = s.imb.targets
  mbx : t.imb.mbx = s.imb.mbx
  sems : t.imb.sems = s.imb.sems
  claimErr : t.imb.claimErr = s.imb.claimErr
  timeouts : t.imb.mbxTimeouts = s.imb.mbxTimeouts

theorem onlyAsserted_refl (s : State) : OnlyAsserted s s := ⟨rfl, rfl, rfl, rfl, rfl, rfl⟩

theorem onlyAsserted_trans {s t u : State} (h : OnlyAsserted s t) (k : OnlyAsserted t u) : OnlyAsserted s u where
  frame := by
    have hframe := h.frame
    have kframe := k.frame
    rw [hframe] at kframe
    exact kframe
  targets := k.targets.trans h.targets
  mbx := k.mbx.trans h.mbx
  sems := k.sems.trans h.sems
  claimErr := k.claimErr.trans h.claimErr
  timeouts := k.timeouts.trans h.timeouts

theorem onlyAsserted_of_told {s t : State} (h : OnlyTold s t) : OnlyAsserted s t :=
  ⟨h.frame, h.targets, h.mbx, h.sems, h.claimErr, h.timeouts⟩

theorem modSrc_asserted (s : State) (n : Nat) (f : Src → Src) : OnlyAsserted s (s.modSrc n f) := ⟨rfl, rfl, rfl, rfl, rfl, rfl⟩

theorem assertSource_asserted (s : State) (n : Nat) : OnlyAsserted s (s.assertSource n) := by
  unfold State.assertSource
  split
  · exact onlyAsserted_refl s
  · exact onlyAsserted_trans (modSrc_asserted ..) (onlyAsserted_of_told (settleSource_told ..))

theorem setLevel_asserted (s : State) (n : Nat) (l : Bool) : OnlyAsserted s (s.setLevel n l) := by
  unfold State.setLevel
  dsimp only
  split
  · exact onlyAsserted_trans (modSrc_asserted ..) (assertSource_asserted ..)
  · exact modSrc_asserted ..

theorem settleMbx_asserted (s : State) (d : MbxSide) : OnlyAsserted s (s.settleMbx d) := by
  unfold State.settleMbx
  split
  · exact setLevel_asserted ..
  · exact onlyAsserted_refl s

theorem raiseMbxOut_asserted (s : State) (d : MbxSide) : OnlyAsserted s (s.raiseMbxOut d) := by
  unfold State.raiseMbxOut
  split
  · exact assertSource_asserted ..
  · exact onlyAsserted_refl s

theorem sourceOk_of_level {n : Nat} (h : isLevelSource n = true) : sourceOk n = true := by
  simp only [isLevelSource, Bool.and_eq_true, decide_eq_true_eq] at h
  have hlow : n < 448 := by omega
  simp [sourceOk, hlow]

theorem exec_sourceAssert {n : Nat} {s : State} (l : Bool) (hup : s.up = true) (hn : sourceOk n = true) :
    exec (.sourceAssert n l) s = .next (assertOp n l s) := by
  have harm : exec (.sourceAssert n l) s = execSourceAssert n l s := rfl
  simp [harm, execSourceAssert, onlyIf, hup, hn]

/-- A write of a level source's level: a rising edge asserts the source, any other level does not. -/
theorem setLevel_src {s : State} {n k : Nat} (l : Bool) (hup : s.up = true) (htarget : s.sourceTarget n = some k) :
    ((s.setLevel n l).src n).level = l
      ∧ ((s.setLevel n l).src n).pending = ((s.src n).pending || (l && !(s.src n).level))
      ∧ ((s.setLevel n l).src n).count = (if l && !(s.src n).level then min 255 ((s.src n).count + 1) else (s.src n).count) := by
  unfold State.setLevel
  dsimp only
  split
  next hrise =>
    obtain ⟨hpending, hcount, hlevel, -, -⟩ :=
      assertSource_src (s := s.modSrc n fun c => { c with level := l }) (n := n) hup ((modSrc_sourceTarget ..).trans htarget)
    rw [modSrc_src] at hpending hcount hlevel
    exact ⟨hlevel, by simp [hpending, Src.asserted, hrise], hcount⟩
  next hflat =>
    rw [modSrc_src]
    simp [Bool.eq_false_iff.2 hflat]

theorem setLevel_src_other {s : State} {n k m : Nat} (l : Bool) (hup : s.up = true) (htarget : s.sourceTarget n = some k) (h : m ≠ n) :
    (s.setLevel n l).src m = s.src m := by
  unfold State.setLevel
  dsimp only
  split
  · rw [assertSource_src_other (s := s.modSrc n fun c => { c with level := l }) hup ((modSrc_sourceTarget ..).trans htarget) h, modSrc_src_other _ _ _ _ h.symm]
  · exact modSrc_src_other _ _ _ _ h.symm

/-- Settles O7: an edge source's event is `assertSource`, a level source follows `setLevel`. -/
theorem sourceAssertion : Obligations.SourceAssertion := by
  refine ⟨?edge, ?level, ?nowhere⟩
  case edge =>
    intro n k s hup hn hedge htarget
    have hop : assertOp n true s = s.assertSource n := by simp [assertOp, hedge, onlyIf]
    obtain ⟨hpending, hcount, -, -, -⟩ := assertSource_src hup htarget
    refine ⟨_, hop ▸ exec_sourceAssert true hup hn, hpending, hcount, ?_, (assertSource_asserted s n).frame⟩
    exact fun m hm => assertSource_src_other hup htarget hm
  case level =>
    intro n k l s hup hlevel htarget
    have hop : assertOp n l s = s.setLevel n (s.mbxInLevel (n % 64)) := by simp [assertOp, hlevel]
    obtain ⟨hl, hpending, hcount⟩ := setLevel_src (s.mbxInLevel (n % 64)) hup htarget
    refine ⟨_, hop ▸ exec_sourceAssert l hup (sourceOk_of_level hlevel), hl, hpending, hcount, ?_, (setLevel_asserted ..).frame⟩
    exact fun m hm => setLevel_src_other _ hup htarget hm
  case nowhere =>
    intro n s hup hn hedge htarget
    have hop : assertOp n true s = s := by simp [assertOp, hedge, onlyIf, State.assertSource, htarget]
    rw [exec_sourceAssert true hup hn, hop]

/-! ### Claims (R384) -/

theorem slots_length (s : State) (t : Nat) : (s.slots t).length ≤ 256 := by
  simp only [State.slots, List.length_take]
  omega

theorem mem_claimable {s : State} {t slot n : Nat} :
    (slot, n) ∈ ((List.range 256).zip (s.slots t)).filter (fun p => s.deliverable p.2)
      ↔ (s.slots t)[slot]? = some n ∧ s.deliverable n = true := by
  have hlen := slots_length s t
  rw [List.mem_filter, List.mem_iff_getElem?]
  simp only [List.getElem?_zip_eq_some]
  constructor
  · rintro ⟨⟨i, hi, hn⟩, hdel⟩
    have hlt : i < (s.slots t).length := (List.getElem?_eq_some_iff.1 hn).1
    rw [List.getElem?_range (by omega)] at hi
    obtain rfl := Option.some.inj hi
    exact ⟨hn, hdel⟩
  · rintro ⟨hn, hdel⟩
    have hlt : slot < (s.slots t).length := (List.getElem?_eq_some_iff.1 hn).1
    exact ⟨⟨slot, List.getElem?_range (by omega), hn⟩, hdel⟩

/-- The first of the least: what `leastBy` takes lies before everything of the same key. -/
theorem leastBy_first {α : Type} {key : α → Int} {xs : List α} {m : α} {r : α → α → Prop} (hrefl : ∀ x, r x x) (hr : xs.Pairwise r)
    (h : leastBy key xs = some m) : ∀ y ∈ xs, key y = key m → r m y := by
  induction xs generalizing m with
  | nil => cases h
  | cons x xs ih =>
    obtain ⟨hx, hxs⟩ := List.pairwise_cons.1 hr
    intro y hy hkey
    obtain ⟨-, hleast⟩ := leastBy_least h
    unfold leastBy at h
    split at h
    next hnone =>
      obtain rfl := leastBy_eq_none hnone
      obtain rfl := Option.some.inj h
      obtain rfl := List.mem_singleton.1 hy
      exact hrefl _
    next z hz =>
      split at h
      next hlt =>
        obtain rfl := Option.some.inj h
        rcases List.mem_cons.1 hy with rfl | hy
        · omega
        · exact ih hxs hz y hy hkey
      next hge =>
        obtain rfl := Option.some.inj h
        rcases List.mem_cons.1 hy with rfl | hy
        · exact hrefl _
        · exact hx y hy

theorem claimable_sorted (s : State) (t : Nat) :
    (((List.range 256).zip (s.slots t)).filter fun p => s.deliverable p.2).Pairwise fun p q => p.1 ≤ q.1 := by
  refine List.Pairwise.filter _ (List.pairwise_iff_getElem.2 fun i j hi hj hij => ?_)
  simp only [List.getElem_zip, List.getElem_range]
  omega

theorem claimed_highest {s : State} {fn slot n : Nat} (h : s.claimed fn = some (slot, n)) :
    (s.slots fn)[slot]? = some n ∧ s.deliverable n = true ∧
    ∀ k m, (s.slots fn)[k]? = some m → s.deliverable m = true → s.prioOf m ≤ s.prioOf n ∧ (s.prioOf m = s.prioOf n → slot ≤ k) := by
  obtain ⟨hmem, hleast⟩ := leastBy_least h
  obtain ⟨hslot, hdel⟩ := mem_claimable.1 hmem
  refine ⟨hslot, hdel, fun k m hk hm => ?_⟩
  have hkm := mem_claimable.2 ⟨hk, hm⟩
  have hprio : -(s.prioOf n : Int) ≤ -(s.prioOf m : Int) := hleast _ hkm
  refine ⟨by omega, fun heq => ?_⟩
  exact leastBy_first (r := fun p q => p.1 ≤ q.1) (fun p => le_refl p.1) (claimable_sorted s fn) h _ hkm (by simp [heq])

/-- What a claim writes before the target's sources settle. -/
def State.claimTaken (s : State) (t slot n : Nat) : State :=
  let u := s.modTarget t fun g => { g with active := s.prioOf n, stack := (g.active, slot) :: g.stack }
  if isLevelSource n then u else u.modSrc n fun c => { c with pending := false, count := 0 }

/-- What is told after a write of the interrupt block alone. -/
theorem told_frame {s u t : State} (h : OnlyTold u t) (hu : u = { s with imb := u.imb }) :
    t = { s with funcs := t.funcs, hlu := t.hlu, imb := t.imb, out := t.out } := by
  have hframe := h.frame
  rw [hu] at hframe
  exact hframe

theorem takeClaim_settles (s : State) (t slot n : Nat) : s.takeClaim t slot n = (s.claimTaken t slot n).settleTarget t := rfl

theorem target_told {s t : State} (h : OnlyTold s t) (k : Nat) : t.target k = s.target k := by
  simp only [State.target, h.targets]

theorem claimTaken_target (s : State) (t slot n : Nat) :
    (s.claimTaken t slot n).target t
      = { s.target t with active := s.prioOf n, stack := ((s.target t).active, slot) :: (s.target t).stack } := by
  have hmod := modTarget_target s t fun g => { g with active := s.prioOf n, stack := (g.active, slot) :: g.stack }
  unfold State.claimTaken
  dsimp only
  split
  · exact hmod
  · exact hmod

theorem claimTaken_src (s : State) (t slot n : Nat) :
    (s.claimTaken t slot n).src n = if isLevelSource n then s.src n else { s.src n with pending := false, count := 0 } := by
  unfold State.claimTaken
  dsimp only
  split
  · rfl
  · exact modSrc_src ..

theorem claimTaken_src_other (s : State) {t slot n m : Nat} (h : m ≠ n) : (s.claimTaken t slot n).src m = s.src m := by
  unfold State.claimTaken
  dsimp only
  split
  · rfl
  · exact modSrc_src_other _ _ _ _ h.symm

theorem claimTaken_frame (s : State) (t slot n : Nat) :
    s.claimTaken t slot n = { s with imb := (s.claimTaken t slot n).imb } := by
  unfold State.claimTaken
  dsimp only
  split <;> rfl

theorem withRdata_frame {s t : State} (v : BitVec 64) (h : t = { s with funcs := t.funcs, hlu := t.hlu, imb := t.imb, out := t.out }) :
    t.withRdata v = { s with funcs := t.funcs, hlu := t.hlu, imb := t.imb, out := t.out, rdata := v } := by
  conv_lhs => rw [h]
  rfl

theorem exec_imbClaim {fn : Nat} {s : State} (hlive : s.fnLive fn = true) : exec (.imbClaim fn) s = .next (claimOp fn s) := by
  have harm : exec (.imbClaim fn) s = execImbClaim fn s := rfl
  rw [harm, execImbClaim, if_pos hlive]

/-! ### The writes of thresholds, priorities, vectors and masks (R386, R388) -/

theorem exec_imbThreshold {fn : Nat} {s : State} (v : Word) (hlive : s.fnLive fn = true) :
    exec (.imbThreshold fn v) s = .next (thresholdOp fn v s) := by
  have harm : exec (.imbThreshold fn v) s = execImbThreshold fn v s := rfl
  rw [harm, execImbThreshold, onlyIf, if_pos hlive]

theorem exec_imbLsrcB {fn : Nat} {s : State} (slot : Nat) (v : Word) (hlive : s.fnLive fn = true) :
    exec (.imbLsrcB fn slot v) s = .next (lsrcOp fn slot v s) := by
  have harm : exec (.imbLsrcB fn slot v) s = execImbLsrcB fn slot v s := rfl
  rw [harm, execImbLsrcB, onlyIf, if_pos hlive]

/-- A source's PRIO and VECTOR as written; a DMV source's vector is its channel's (R386). -/
def State.lsrcWritten (s : State) (n prio vector : Nat) : State :=
  let t := s.modSrc n fun c => { c with prio := some prio, vector := vector }
  if 192 ≤ n ∧ n < 448 then t.modChan (n - 192) fun c => { c with vector := vector } else t

theorem lsrcWritten_src (s : State) (n prio vector : Nat) :
    (s.lsrcWritten n prio vector).src n = { s.src n with prio := some prio, vector := vector } := by
  unfold State.lsrcWritten
  dsimp only
  split <;> exact modSrc_src ..

theorem lsrcWritten_frame (s : State) (n prio vector : Nat) :
    s.lsrcWritten n prio vector = { s with imb := (s.lsrcWritten n prio vector).imb, dmv := (s.lsrcWritten n prio vector).dmv } := by
  unfold State.lsrcWritten
  dsimp only
  split <;> rfl

theorem told_frame_dmv {s u t : State} (h : OnlyTold u t) (hu : u = { s with imb := u.imb, dmv := u.dmv }) :
    t = { s with funcs := t.funcs, hlu := t.hlu, imb := t.imb, out := t.out, dmv := t.dmv } := by
  have hframe := h.frame
  rw [hu] at hframe
  rw [hframe]

theorem lsrcWritten_vector (s : State) (n prio vector : Nat) : (s.lsrcWritten n prio vector).vectorOf n = vector := by
  unfold State.vectorOf
  split
  next hdmv =>
    have h : s.lsrcWritten n prio vector
        = (s.modSrc n fun c => { c with prio := some prio, vector := vector }).modChan (n - 192) fun c => { c with vector := vector } :=
      if_pos hdmv
    rw [h, modChan_chan]
  next => rw [lsrcWritten_src]

theorem prioOf_told {s t : State} {n p : Nat} (h : OnlyTold s t) (hp : (s.src n).prio = some p) : t.prioOf n = p := by
  obtain ⟨-, -, -, hprio, -⟩ := h.src n
  rw [hp] at hprio
  simp [State.prioOf, hprio]

theorem vectorOf_told {s t : State} (h : OnlyTold s t) (n : Nat) : t.vectorOf n = s.vectorOf n := by
  obtain ⟨-, -, -, -, hvector⟩ := h.src n
  have hchan : t.chan (n - 192) = s.chan (n - 192) := by
    have hframe := h.frame
    rw [hframe]
    rfl
  simp only [State.vectorOf, hvector, hchan]

theorem lsrcOp_takes {s : State} {fn slot n : Nat} {v : Word} (hslot : (s.slots fn)[slot]? = some n)
    (hv : fld v.toNat 0 11 < (s.fnRec fn).vectors) :
    lsrcOp fn slot v s = (s.lsrcWritten n (fld v.toNat 16 4) (fld v.toNat 0 11)).settleSource n := by
  simp only [lsrcOp, hslot, if_pos hv, State.lsrcWritten]

theorem lsrcOp_refuses {s : State} {fn slot n : Nat} {v : Word} (hslot : (s.slots fn)[slot]? = some n)
    (hv : (s.fnRec fn).vectors ≤ fld v.toNat 0 11) :
    lsrcOp fn slot v s = s.reportAccess fn (pageBase fn 0x2402000 0x21000 + 0x804 + 8 * slot) := by
  simp only [lsrcOp, hslot, if_neg (Nat.not_lt.2 hv)]

/-- The vector's mask bit clear, and nothing pending for it. -/
def State.unmaskedNow (s : State) (fn vector : Nat) : State :=
  s.modImb fun b =>
    { b with mask := tblMod [] b.mask fn fun l => if l.contains vector then l else l ++ [vector]
             pba := tblMod [] b.pba fn fun l => without l vector }

theorem unmaskedNow_unmasked (s : State) (fn v : Nat) : (s.unmaskedNow fn v).unmasked fn v = true := by
  simp only [State.unmasked, State.unmaskedNow, State.modImb, tblGet_tblMod_same]
  split
  · assumption
  · simp

theorem unmaskedNow_pba (s : State) (fn v : Nat) : (tblGet [] (s.unmaskedNow fn v).imb.pba fn).contains v = false := by
  simp [State.unmaskedNow, State.modImb, tblGet_tblMod_same, without]

theorem exec_msixUnmask {fn v : Nat} {s : State} (hup : s.up = true) (hthere : (s.func fn).isThere = true) (hflr : (s.func fn).flr = false)
    (hv : v < if fn = 0 then 2048 else 64) : exec (.msixUnmask fn v) s = .next (unmaskOp fn v s) := by
  have harm : exec (.msixUnmask fn v) s = execMsixUnmask fn v s := rfl
  rw [harm, execMsixUnmask]
  simp only [onlyIf, hup, hthere, hflr, beq_iff_eq, hv, decide_true, Bool.not_false, Bool.and_self, if_true]

/-- A vector that is unmasked sends the message that waited for it, and none where none waited. -/
theorem unmaskOp_sends {fn v : Nat} {s : State} (hup : s.up = true) (hflr : (s.func fn).flr = false) (hd3 : (s.func fn).d3 = false)
    (hlink : s.linkPasses = true) :
    unmaskOp fn v s = if (tblGet [] s.imb.pba fn).contains v
      then ((s.unmaskedNow fn v).modImb fun b => { b with messages := sat64 b.messages 1 }).send (.msix fn v) else s.unmaskedNow fn v := by
  have hmsg := message_sent (s := s.unmaskedNow fn v) (fn := fn) (v := v) hup hflr hd3 hlink (unmaskedNow_unmasked s fn v)
  rw [← hmsg]
  rfl

theorem unmaskedNow_frame (s : State) (fn v : Nat) : s.unmaskedNow fn v = { s with imb := (s.unmaskedNow fn v).imb } := rfl

theorem messageSent_frame {s u : State} (o : Out) (hu : u = { s with imb := u.imb }) :
    (u.modImb fun b => { b with messages := sat64 b.messages 1 }).send o
      = { s with hlu := ((u.modImb fun b => { b with messages := sat64 b.messages 1 }).send o).hlu,
                 imb := ((u.modImb fun b => { b with messages := sat64 b.messages 1 }).send o).imb,
                 out := ((u.modImb fun b => { b with messages := sat64 b.messages 1 }).send o).out } := by
  rw [hu]
  rfl

/-- What a mask bit that clears does, where nothing keeps a message back. -/
theorem unmaskOp_told {fn v : Nat} {s : State} (hup : s.up = true) (hflr : (s.func fn).flr = false) (hd3 : (s.func fn).d3 = false)
    (hlink : s.linkPasses = true) :
    (unmaskOp fn v s).unmasked fn v = true
      ∧ ((tblGet [] s.imb.pba fn).contains v = true →
          (unmaskOp fn v s).out = s.out ++ [.msix fn v] ∧ (unmaskOp fn v s).imb.messages = sat64 s.imb.messages 1)
      ∧ ((tblGet [] s.imb.pba fn).contains v = false → (unmaskOp fn v s).out = s.out)
      ∧ (tblGet [] (unmaskOp fn v s).imb.pba fn).contains v = false
      ∧ unmaskOp fn v s = { s with hlu := (unmaskOp fn v s).hlu, imb := (unmaskOp fn v s).imb, out := (unmaskOp fn v s).out } := by
  have hopen := unmaskedNow_unmasked s fn v
  have hgone := unmaskedNow_pba s fn v
  have hframe := unmaskedNow_frame s fn v
  have hout : (s.unmaskedNow fn v).out = s.out := rfl
  have hcount : (s.unmaskedNow fn v).imb.messages = s.imb.messages := rfl
  rw [unmaskOp_sends hup hflr hd3 hlink]
  generalize s.unmaskedNow fn v = u at hopen hgone hframe hout hcount ⊢
  split
  next hwaits =>
    exact ⟨hopen, fun _ => ⟨congrArg (· ++ [Out.msix fn v]) hout, congrArg (sat64 · 1) hcount⟩, fun h => absurd hwaits (ne_true_of_eq_false h), hgone,
      messageSent_frame _ hframe⟩
  next hnone =>
    refine ⟨hopen, fun h => absurd h hnone, fun _ => hout, hgone, ?_⟩
    rw [hframe]

theorem reportAccess_recorded (s : State) (fn off : Nat) :
    ∃ r, (s.reportAccess fn off).fcl.inbox = s.fcl.inbox ++ [r] ∧ r.cls = 3 ∧ r.code = 0x20 := by
  obtain ⟨r, hin, hcode, hcls, -⟩ := reportAccess_records fn off s
  exact ⟨r, hin, hcls, hcode⟩

theorem exec_imbClaim_takes {fn slot n : Nat} {s : State} (hlive : s.fnLive fn = true) (hclaim : s.claimed fn = some (slot, n)) :
    exec (.imbClaim fn) s = .next ((s.takeClaim fn slot n).withRdata (BitVec.ofNat 64 (s.claimWord slot n))) := by
  rw [exec_imbClaim hlive, claimOp, hclaim]

/-- What a claim leaves, the word that it returns being any. -/
theorem claim_reads {fn slot n : Nat} {s u : State} {word : BitVec 64} {r : Res} (hrun : r = .next (u.withRdata word))
    (htold : OnlyTold (s.claimTaken fn slot n) u) :
    ∃ t, r = .next t ∧ t.rdata = word
      ∧ (t.target fn).active = s.prioOf n ∧ (t.target fn).stack = ((s.target fn).active, slot) :: (s.target fn).stack
      ∧ (t.target fn).threshold = (s.target fn).threshold
      ∧ (isLevelSource n = false → (t.src n).pending = false ∧ (t.src n).count = 0)
      ∧ (isLevelSource n = true → (t.src n).pending = (s.src n).pending ∧ (t.src n).count = (s.src n).count)
      ∧ (∀ m, m ≠ n → (t.src m).pending = (s.src m).pending ∧ (t.src m).count = (s.src m).count)
      ∧ t = { s with funcs := t.funcs, hlu := t.hlu, imb := t.imb, out := t.out, rdata := t.rdata } := by
  have htarget := (target_told htold fn).trans (claimTaken_target s fn slot n)
  obtain ⟨hpending, hcount, -, -, -⟩ := htold.src n
  rw [claimTaken_src] at hpending hcount
  refine ⟨_, hrun, rfl, congrArg (·.active) htarget, congrArg (·.stack) htarget, congrArg (·.threshold) htarget,
    fun hedge => ?_, fun hlevel => ?_, fun m hm => ?_, withRdata_frame _ (told_frame htold (claimTaken_frame ..))⟩
  · rw [if_neg (by simp [hedge])] at hpending hcount
    exact ⟨hpending, hcount⟩
  · rw [if_pos hlevel] at hpending hcount
    exact ⟨hpending, hcount⟩
  · obtain ⟨hp, hc, -, -, -⟩ := htold.src m
    rw [claimTaken_src_other s hm] at hp hc
    exact ⟨hp, hc⟩

/-- Settles O8: `claimed_highest` for the choice, `claimTaken` for what a claim writes, `lsrcWritten` and `unmaskedNow` for the writes. -/
theorem claimTakesHighest : Obligations.ClaimTakesHighest := by
  refine ⟨fun _ _ _ _ h => claimed_highest h, ?claim, ?none, ?threshold, ?lsrc, ?badVector, ?unmask⟩
  case claim =>
    intro fn slot n s hlive hclaim
    have htold := settleTarget_told (s.claimTaken fn slot n) fn
    rw [← takeClaim_settles] at htold
    exact claim_reads (exec_imbClaim_takes hlive hclaim) htold
  case none =>
    intro fn s hlive hclaim
    rw [exec_imbClaim hlive]
    simp [claimOp, hclaim]
  case threshold =>
    intro fn v s hlive
    have htold := settleTarget_told (s.modTarget fn fun g => { g with threshold := fld v.toNat 0 4 }) fn
    have htarget := (target_told htold fn).trans (modTarget_target ..)
    exact ⟨_, exec_imbThreshold v hlive, congrArg (·.threshold) htarget, congrArg (·.active) htarget, congrArg (·.stack) htarget,
      htold.frame⟩
  case lsrc =>
    intro fn slot n v s hlive hslot hv
    have htold := settleSource_told (s.lsrcWritten n (fld v.toNat 16 4) (fld v.toNat 0 11)) n
    refine ⟨_, lsrcOp_takes hslot hv ▸ exec_imbLsrcB slot v hlive, prioOf_told htold (by rw [lsrcWritten_src]),
      (vectorOf_told htold n).trans (lsrcWritten_vector ..), told_frame_dmv htold (lsrcWritten_frame ..)⟩
  case badVector =>
    intro fn slot n v s hlive hslot hv
    exact ⟨_, lsrcOp_refuses hslot hv ▸ exec_imbLsrcB slot v hlive, reportAccess_recorded .., reportAccess_frame ..⟩
  case unmask =>
    intro fn v s hup hthere hflr hd3 hlink hv
    exact ⟨unmaskOp fn v s, exec_msixUnmask hup hthere hflr hv, unmaskOp_told hup hflr hd3 hlink⟩

/-! ### Completions (R385) -/

theorem exec_imbComplete {fn : Nat} {s : State} (v : Word) (hlive : s.fnLive fn = true) :
    exec (.imbComplete fn v) s = .next (completeOp fn v s) := by
  have harm : exec (.imbComplete fn v) s = execImbComplete fn v s := rfl
  rw [harm, execImbComplete, onlyIf, if_pos hlive]

/-- What a completion of the latest claim writes before the target's sources settle. -/
def State.claimDone (s : State) (fn lvl slot : Nat) (rest : List (Nat × Nat)) : State :=
  let t := s.modTarget fn fun g => { g with active := lvl, stack := rest }
  match (s.slots fn)[slot]? with
  | some n => if isLevelSource n then t.modSrc n settleLevel else t
  | none => t

theorem completeOp_pops {s : State} {fn lvl slot : Nat} {rest : List (Nat × Nat)} {v : Word}
    (hstack : (s.target fn).stack = (lvl, slot) :: rest) (hslot : fld v.toNat 0 8 = slot) :
    completeOp fn v s = (s.claimDone fn lvl slot rest).settleTarget fn := by
  simp only [completeOp, hstack, hslot, beq_self_eq_true, if_true, State.claimDone] <;> rfl

theorem claimDone_frame (s : State) (fn lvl slot : Nat) (rest : List (Nat × Nat)) :
    s.claimDone fn lvl slot rest = { s with imb := (s.claimDone fn lvl slot rest).imb } := by
  unfold State.claimDone
  dsimp only
  split
  · split <;> rfl
  · rfl

theorem claimDone_target (s : State) (fn lvl slot : Nat) (rest : List (Nat × Nat)) :
    (s.claimDone fn lvl slot rest).target fn = { s.target fn with active := lvl, stack := rest } := by
  have hmod := modTarget_target s fn fun g => { g with active := lvl, stack := rest }
  unfold State.claimDone
  dsimp only
  split
  · split
    · exact hmod
    · exact hmod
  · exact hmod

theorem claimDone_src {s : State} {fn lvl slot n : Nat} {rest : List (Nat × Nat)} (hslot : (s.slots fn)[slot]? = some n)
    (hlevel : isLevelSource n = true) : (s.claimDone fn lvl slot rest).src n = settleLevel (s.src n) := by
  simp only [State.claimDone, hslot, hlevel, if_true]
  exact modSrc_src ..

theorem settleLevel_follows (c : Src) :
    (settleLevel c).pending = c.level ∧ (settleLevel c).count = if c.level then 1 else 0 := by
  unfold settleLevel
  split
  next h => exact ⟨h.symm, rfl⟩
  next h => exact ⟨(Bool.eq_false_iff.2 h).symm, rfl⟩

/-- A completion that names no claim, or not the latest, is discarded, counted and recorded. -/
theorem completeOp_discards {s : State} {fn : Nat} {v : Word} (h : ∀ p, (s.target fn).stack.head? = some p → p.2 ≠ fld v.toNat 0 8) :
    completeOp fn v s = (s.modImb fun b => { b with claimErr := sat32 b.claimErr 1 }).report 0x24 0xA6 (some fn) none 0 0 0 := by
  unfold completeOp
  dsimp only
  split
  next lvl k rest hstack =>
    have hk : k ≠ fld v.toNat 0 8 := h (lvl, k) (by rw [hstack]; rfl)
    rw [if_neg (by simpa using hk)]
  next => rfl

/-- Settles O9: `claimDone` for a completion of the latest claim, `completeOp_discards` for any other. -/
theorem completePopsLevel : Obligations.CompletePopsLevel := by
  refine ⟨?pops, ?discards⟩
  case pops =>
    intro fn lvl slot rest v s hlive hstack hslot
    have htold := settleTarget_told (s.claimDone fn lvl slot rest) fn
    have htarget := (target_told htold fn).trans (claimDone_target ..)
    refine ⟨_, completeOp_pops hstack hslot ▸ exec_imbComplete v hlive, congrArg (·.active) htarget, congrArg (·.stack) htarget,
      fun n hn hlevel => ?_, told_frame htold (claimDone_frame ..)⟩
    obtain ⟨hpending, hcount, -, -, -⟩ := htold.src n
    rw [claimDone_src hn hlevel] at hpending hcount
    obtain ⟨hp, hc⟩ := settleLevel_follows (s.src n)
    exact ⟨hpending.trans hp, hcount.trans hc⟩
  case discards =>
    intro fn v s hlive h
    exact ⟨_, completeOp_discards h ▸ exec_imbComplete v hlive, rfl, ⟨_, rfl, rfl⟩, rfl⟩

end Sys2Proof.Machine
end

section
/-! PROOFS. Mailboxes and semaphores (R392, R393, R395, R396). -/
namespace Sys2Proof.Machine

/-! ### Slots and doorbell bits (R392) -/

theorem exec_mbxOutSlot {d : MbxSide} {k w : Nat} {s : State} (v : Word) (hopen : s.mbxOpen d = true) (hk : k < 8) (hw : w < 4) :
    exec (.mbxOutSlot d k w v) s = .next (slotOp d k w v s) := by
  have harm : exec (.mbxOutSlot d k w v) s = execMbxOutSlot d k w v s := rfl
  simp [harm, execMbxOutSlot, onlyIf, hopen, hk, hw]

theorem exec_mbxOutDb {d : MbxSide} {s : State} (v : Word) (hopen : s.mbxOpen d = true) :
    exec (.mbxOutDb d v) s = .next (outDbOp d v s) := by
  have harm : exec (.mbxOutDb d v) s = execMbxOutDb d v s := rfl
  rw [harm, execMbxOutDb, onlyIf, if_pos hopen]

theorem exec_mbxInDb {d : MbxSide} {s : State} (v : Word) (hopen : s.mbxOpen d = true) :
    exec (.mbxInDb d v) s = .next (inDbOp d v s) := by
  have harm : exec (.mbxInDb d v) s = execMbxInDb d v s := rfl
  rw [harm, execMbxInDb, onlyIf, if_pos hopen]

theorem exec_mbxTimeout {d : MbxSide} {k : Nat} {s : State} (hup : s.up = true) (hvalid : mbxValid d = true) (htimed : s.mbxTimed d k = true) :
    exec (.mbxTimeout d k) s = .next (timeoutOp d k s) := by
  have harm : exec (.mbxTimeout d k) s = execMbxTimeout d k s := rfl
  simp [harm, execMbxTimeout, onlyIf, hup, hvalid, htimed]

theorem mbx_asserted {s t : State} (h : OnlyAsserted s t) (k : Nat) : t.mbx k = s.mbx k := by
  simp only [State.mbx, h.mbx]

theorem slotOp_writes {d : MbxSide} {k w : Nat} {v : Word} {s : State} (hfree : (s.mbx (mbxKey d)).out.getLsbD k = false) :
    (slotOp d k w v s).mbx (mbxKey d) = { s.mbx (mbxKey d) with slots := tblSet 0 (s.mbx (mbxKey d)).slots (4 * k + w) v } := by
  rw [slotOp, modMbx_mbx, if_neg (by simp [hfree])]

theorem slotOp_busy {d : MbxSide} {k w : Nat} {v : Word} {s : State} (hset : (s.mbx (mbxKey d)).out.getLsbD k = true) :
    (slotOp d k w v s).mbx (mbxKey d) = { s.mbx (mbxKey d) with slotBusy := true } := by
  rw [slotOp, modMbx_mbx, if_pos hset]

/-- The step of `setBits` for bit `k`. -/
def setStep (now : Nat) (v : Word) (m : Mbx) (k : Nat) (m' : Mbx) : Mbx :=
  if v.getLsbD k && !m.out.getLsbD k then setBit now m.gen k m' else m'

theorem setBits_steps (now : Nat) (v : Word) (m : Mbx) : setBits now v m = forUpTo 32 (setStep now v m) m := rfl

theorem setSteps_out (now : Nat) (v : Word) (m : Mbx) (n : Nat) {j : Nat} (hj : j < 32) :
    (forUpTo n (setStep now v m) m).out.getLsbD j = (m.out.getLsbD j || (decide (j < n) && v.getLsbD j)) := by
  induction n with
  | zero => simp [forUpTo]
  | succ n ih =>
    rw [forUpTo, setStep]
    split
    next hset =>
      rw [setBit, BitVec.getLsbD_or, ih, BitVec.getLsbD_twoPow]
      simp only [Bool.and_eq_true, Bool.not_eq_true'] at hset
      obtain ⟨hv, -⟩ := hset
      by_cases hjn : n = j
      · subst hjn
        simp [hv, hj]
      · have hlt : (j < n + 1) ↔ (j < n) := by omega
        simp [hjn, hlt]
    next hkeep =>
      rw [ih]
      by_cases hjn : j = n
      · subst hjn
        cases hout : m.out.getLsbD j <;> simp_all
      · have hlt : (j < n + 1) ↔ (j < n) := by omega
        simp [hlt]

theorem setBits_out (now : Nat) (v : Word) (m : Mbx) : (setBits now v m).out = m.out ||| v := by
  refine BitVec.eq_of_getLsbD_eq fun j hj => ?_
  rw [setBits_steps, setSteps_out now v m 32 hj, BitVec.getLsbD_or]
  simp [hj]

/-- The bits from `n` on leave the slots of the bits below. -/
theorem setStep_slots_other (now : Nat) (v : Word) (m m' : Mbx) {k n : Nat} (h : k ≠ n) :
    tblGet 0 (setStep now v m n m').slots (4 * k + 2) = tblGet 0 m'.slots (4 * k + 2) := by
  unfold setStep setBit
  split
  · dsimp only
    split
    · exact tblGet_tblMod_other _ _ _ _ _ (by omega)
    · rfl
  · rfl

theorem setStep_stamps {now : Nat} {v : Word} {m : Mbx} (m' : Mbx) {k : Nat} (hk : k < 8) (hv : v.getLsbD k = true)
    (hfree : m.out.getLsbD k = false) : fld (tblGet 0 (setStep now v m k m').slots (4 * k + 2)).toNat 24 8 = m.gen % 256 := by
  have hstep : setStep now v m k m' = setBit now m.gen k m' := by simp [setStep, hv, hfree]
  rw [hstep, setBit, if_pos hk, tblGet_tblMod_same, BitVec.toNat_ofNat, fld]
  omega

theorem setSteps_stamp {now : Nat} {v : Word} {m : Mbx} {k n : Nat} (hk : k < 8) (hkn : k < n) (hv : v.getLsbD k = true)
    (hfree : m.out.getLsbD k = false) :
    fld (tblGet 0 (forUpTo n (setStep now v m) m).slots (4 * k + 2)).toNat 24 8 = m.gen % 256 := by
  induction n with
  | zero => omega
  | succ n ih =>
    rw [forUpTo]
    by_cases hn : k = n
    · subst hn
      exact setStep_stamps _ hk hv hfree
    · rw [setStep_slots_other _ _ _ _ hn]
      exact ih (by omega)

theorem asserted_frame {s u t : State} (h : OnlyAsserted u t) (hu : u = { s with imb := u.imb }) :
    t = { s with funcs := t.funcs, hlu := t.hlu, imb := t.imb, out := t.out } := by
  have hframe := h.frame
  rw [hu] at hframe
  exact hframe

/-- What a timeout writes before MBX_OUT is raised (R393). -/
def State.timedOut (s : State) (d : MbxSide) (k : Nat) : State :=
  ((s.reach (tblGet 0 (s.mbx (mbxKey d)).started k - 1 + (s.mbx (mbxKey d)).tmo * 1000)).modMbx (mbxKey d) fun m =>
    { m with tmoFlags := m.tmoFlags ||| BitVec.twoPow 32 k, started := tblSet 0 m.started k 0 }).modImb fun b =>
    { b with mbxTimeouts := sat32 b.mbxTimeouts 1 }

theorem timeoutOp_raises (d : MbxSide) (k : Nat) (s : State) : timeoutOp d k s = (s.timedOut d k).raiseMbxOut d := rfl

theorem timedOut_mbx (s : State) (d : MbxSide) (k : Nat) :
    (s.timedOut d k).mbx (mbxKey d)
      = { s.mbx (mbxKey d) with tmoFlags := (s.mbx (mbxKey d)).tmoFlags ||| BitVec.twoPow 32 k,
                                started := tblSet 0 (s.mbx (mbxKey d)).started k 0 } :=
  modMbx_mbx (s.reach _) (mbxKey d) fun m => { m with tmoFlags := m.tmoFlags ||| BitVec.twoPow 32 k, started := tblSet 0 m.started k 0 }

theorem timedOut_timeouts (s : State) (d : MbxSide) (k : Nat) : (s.timedOut d k).imb.mbxTimeouts = sat32 s.imb.mbxTimeouts 1 := rfl

theorem timedOut_frame (s : State) (d : MbxSide) (k : Nat) :
    s.timedOut d k = { s with time := (s.timedOut d k).time, aon := (s.timedOut d k).aon, imb := (s.timedOut d k).imb } := rfl

theorem asserted_frame_timed {s u t : State} (h : OnlyAsserted u t) (hu : u = { s with time := u.time, aon := u.aon, imb := u.imb }) :
    t = { s with time := t.time, aon := t.aon, funcs := t.funcs, hlu := t.hlu, imb := t.imb, out := t.out } := by
  have hframe := h.frame
  rw [hu] at hframe
  rw [hframe]

/-- Settles O10: what each command writes of the mailbox stays when the level or MBX_OUT is raised for it (`OnlyAsserted`). -/
theorem mailboxMessages : Obligations.MailboxMessages := by
  refine ⟨?write, ?busy, ?bell, ?deaf, ?consume, ?timeout⟩
  case write =>
    intro d k w v s hopen hk hw hfree
    refine ⟨_, exec_mbxOutSlot v hopen hk hw, ?_⟩
    rw [slotOp_writes hfree]
    exact ⟨tblGet_tblSet_same .., fun j hj => by rw [tblGet_tblSet, if_neg hj.symm], rfl, rfl⟩
  case busy =>
    intro d k w v s hopen hk hw hset
    refine ⟨_, exec_mbxOutSlot v hopen hk hw, ?_⟩
    rw [slotOp_busy hset]
    exact ⟨rfl, rfl, rfl⟩
  case bell =>
    intro d v s hopen hpeer
    have hop : outDbOp d v s = (s.modMbx (mbxKey d) (setBits s.time v)).settleMbx (mbxPeer d) := if_pos hpeer
    have hasserted := settleMbx_asserted (s.modMbx (mbxKey d) (setBits s.time v)) (mbxPeer d)
    have hmbx := (mbx_asserted hasserted (mbxKey d)).trans (modMbx_mbx ..)
    refine ⟨_, hop ▸ exec_mbxOutDb v hopen, ?_, fun k hk hv hfree => ?_, asserted_frame hasserted rfl⟩
    · rw [hmbx, setBits_out]
    · rw [hmbx, setBits_steps]
      exact setSteps_stamp hk (by omega) hv hfree
  case deaf =>
    intro d v s hopen hpeer
    have hop : outDbOp d v s = s := if_neg (by simp [hpeer])
    rw [exec_mbxOutDb v hopen, hop]
  case consume =>
    intro d v s hopen
    have hasserted := settleMbx_asserted (s.modMbx (mbxKey (mbxPeer d)) (consume v)) d
    have hmbx := (mbx_asserted hasserted (mbxKey (mbxPeer d))).trans (modMbx_mbx ..)
    exact ⟨_, exec_mbxInDb v hopen, congrArg (·.out) hmbx, asserted_frame hasserted rfl⟩
  case timeout =>
    intro d k s hup hvalid htimed
    have hasserted := raiseMbxOut_asserted (s.timedOut d k) d
    have hmbx := (mbx_asserted hasserted (mbxKey d)).trans (timedOut_mbx s d k)
    rw [← timeoutOp_raises] at hasserted hmbx
    exact ⟨_, exec_mbxTimeout hup hvalid htimed, congrArg (·.tmoFlags) hmbx, congrArg (·.out) hmbx, congrArg (·.slots) hmbx,
      hasserted.timeouts.trans (timedOut_timeouts s d k), asserted_frame_timed hasserted (timedOut_frame s d k)⟩

/-! ### Semaphores (R395, R396) -/

theorem exec_semAcquire {r n : Nat} {s : State} (hopen : s.semOpen r = true) (hn : n < 64) :
    exec (.semAcquire r n) s = .next (acquireOp r n s) := by
  have harm : exec (.semAcquire r n) s = execSemAcquire r n s := rfl
  rw [harm, execSemAcquire, if_pos (by simp [hopen, hn])]

theorem exec_semRelease {r n : Nat} {s : State} (v : Word) (hopen : s.semOpen r = true) (hn : n < 64) :
    exec (.semRelease r n v) s = .next (releaseOp r n v s) := by
  have harm : exec (.semRelease r n v) s = execSemRelease r n v s := rfl
  rw [harm, execSemRelease, onlyIf, if_pos (by simp [hopen, hn])]

/-- The word that a read of a free semaphore returns. -/
def takenWord (m : Sem) (r : Nat) : BitVec 64 := BitVec.ofNat 64 (2 ^ 31 + b2n m.abandoned * 2 ^ 30 + r)

theorem acquireOp_takes {r n : Nat} {s : State} (hperm : s.semPermitted r n = true) (hfree : (s.sem n).holder = none) :
    acquireOp r n s = (s.modSem n fun m => { m with holder := some r, abandoned := false }).withRdata (takenWord (s.sem n) r) := by
  rw [acquireOp, if_neg (by simp [hperm]), hfree]
  rfl

theorem acquireOp_shows {r n h : Nat} {s : State} (hperm : s.semPermitted r n = true) (hheld : (s.sem n).holder = some h) :
    acquireOp r n s = s.withRdata (BitVec.ofNat 64 (b2n (h == r) * 2 ^ 31 + b2n (s.sem n).abandoned * 2 ^ 30 + h)) := by
  rw [acquireOp, if_neg (by simp [hperm])]
  simp only [hheld, semWord, Option.getD_some]

theorem acquireOp_refuses {r n : Nat} {s : State} (hperm : s.semPermitted r n = false) :
    acquireOp r n s = (s.report 0x24 0xA6 (if r < 64 then some r else none) none 0 0 0).withRdata 0 := by
  rw [acquireOp, if_pos (by simp [hperm])]

theorem acquired {r n : Nat} {s : State} {word : BitVec 64} {o : Res}
    (h : o = .next ((s.modSem n fun m => { m with holder := some r, abandoned := false }).withRdata word)) :
    ∃ t, o = .next t ∧ (t.sem n).holder = some r ∧ (t.sem n).abandoned = false ∧ t.rdata = word
      ∧ (∀ m, m ≠ n → t.sem m = s.sem m) ∧ t = { s with imb := t.imb, rdata := t.rdata } := by
  have hsem := modSem_sem s n fun m => { m with holder := some r, abandoned := false }
  exact ⟨_, h, congrArg (·.holder) hsem, congrArg (·.abandoned) hsem, rfl, fun m hm => modSem_sem_other _ _ _ _ hm.symm, rfl⟩

theorem releaseOp_frees {r n : Nat} {v : Word} {s : State} (hperm : s.semPermitted r n = true) (hheld : (s.sem n).holder = some r)
    (hv : v.getLsbD 0 = true) : releaseOp r n v s = s.modSem n fun m => { m with holder := none } := by
  rw [releaseOp, if_pos (by simp [hperm, hheld]), if_pos hv]

theorem releaseOp_refuses {r n : Nat} {v : Word} {s : State} (hheld : (s.sem n).holder ≠ some r) (hv : v.getLsbD 0 = true) :
    releaseOp r n v s = s.report 0x24 0xA6 (if r < 64 then some r else none) none 0 0 0 := by
  rw [releaseOp, if_neg (by simp [hheld]), if_pos (by rw [hv, Bool.or_true])]

/-- Settles O11: `acquireOp_takes`, `_shows` and `_refuses` for a read, `releaseOp_frees` and `_refuses` for a write of 1. -/
theorem semaphoreOwnership : Obligations.SemaphoreOwnership := by
  refine ⟨?takes, ?shows, ?refused, ?frees, ?foreign⟩
  case takes =>
    intro r n s hopen hn hperm hfree
    exact acquired (acquireOp_takes hperm hfree ▸ exec_semAcquire hopen hn)
  case shows =>
    intro r n h s hopen hn hperm hheld
    rw [exec_semAcquire hopen hn, acquireOp_shows hperm hheld]
  case refused =>
    intro r n s hopen hn hperm
    exact ⟨_, acquireOp_refuses hperm ▸ exec_semAcquire hopen hn, rfl, ⟨_, rfl, rfl⟩, rfl⟩
  case frees =>
    intro r n v s hopen hn hperm hheld hv
    have hsem := modSem_sem s n fun m => { m with holder := none }
    exact ⟨_, releaseOp_frees hperm hheld hv ▸ exec_semRelease v hopen hn, congrArg (·.holder) hsem, congrArg (·.abandoned) hsem,
      fun m hm => modSem_sem_other _ _ _ _ hm.symm, rfl⟩
  case foreign =>
    intro r n v s hopen hn hheld hv
    exact ⟨_, releaseOp_refuses hheld hv ▸ exec_semRelease v hopen hn, ⟨_, rfl, rfl⟩, rfl⟩

end Sys2Proof.Machine
end

section
/-! PROOFS. The address map of the channels (R399): a page's bits 15:12 name the channel under a mask of the bits above. -/
namespace Sys2Proof.Machine

/-- The mask that R399 lays over a page's channel: the three nibbles above bit 15 of its address. -/
def channelMask (hi : Nat) : Nat := fld hi 0 4 ^^^ fld hi 4 4 ^^^ fld hi 8 4

theorem fld_lt (v lo w : Nat) : fld v lo w < 2 ^ w := Nat.mod_lt _ (by positivity)

theorem channelMask_lt (hi : Nat) : channelMask hi < 16 :=
  Nat.xor_lt_two_pow (n := 4) (Nat.xor_lt_two_pow (fld_lt ..) (fld_lt ..)) (fld_lt ..)

theorem channelOf_masked (a : Nat) : channelOf a = fld a 12 4 ^^^ channelMask (a / 65536) := by
  have hnibble : ∀ lo, fld (a / 65536) lo 4 = fld a (16 + lo) 4 := fun lo => by
    rw [fld, fld, Nat.div_div_eq_div_mul, show 65536 = 2 ^ 16 by norm_num, pow_add]
  simp only [channelOf, channelMask, hnibble, Nat.xor_assoc]

theorem addressOf_masked (k o : Nat) :
    addressOf k o = o / 4096 * 65536 + (k ^^^ channelMask (o / 4096)) * 4096 + o % 4096 := by
  simp only [addressOf, channelMask, Nat.xor_assoc]

theorem channelOf_lt (a : Nat) : channelOf a < 16 := by
  rw [channelOf_masked]
  exact Nat.xor_lt_two_pow (n := 4) (fld_lt ..) (channelMask_lt _)

/-- The parts of an address built of a block, a nibble and an offset within 4 KiB. -/
theorem parts_of_address {hi n r : Nat} (hn : n < 16) (hr : r < 4096) :
    (hi * 65536 + n * 4096 + r) / 65536 = hi ∧ fld (hi * 65536 + n * 4096 + r) 12 4 = n ∧ (hi * 65536 + n * 4096 + r) % 4096 = r := by
  simp only [fld]
  omega

/-- Settles O44: a mask applied twice is none. -/
theorem addressMap : Obligations.AddressMap := by
  constructor
  · intro k o hk
    have hn : k ^^^ channelMask (o / 4096) < 16 := Nat.xor_lt_two_pow (n := 4) hk (channelMask_lt _)
    obtain ⟨hhi, hnibble, hlow⟩ := parts_of_address (hi := o / 4096) hn (Nat.mod_lt o (by omega : 0 < 4096))
    rw [addressOf_masked]
    constructor
    · rw [channelOf_masked, hhi, hnibble, Nat.xor_xor_cancel_right]
    · rw [offsetOf, hhi, hlow]
      omega
  · intro a
    refine ⟨?_, channelOf_lt a⟩
    have hhi : offsetOf a / 4096 = a / 65536 := by
      unfold offsetOf
      omega
    have hlow : offsetOf a % 4096 = a % 4096 := by
      unfold offsetOf
      omega
    rw [addressOf_masked, hhi, hlow, channelOf_masked, Nat.xor_xor_cancel_right, fld]
    omega

end Sys2Proof.Machine
end

section
/-! PROOFS. The Fault Collector (R435, R436, R438, R444): what it accepts, counts and latches, and the entry to the safe state. -/
namespace Sys2Proof.Machine

/-! ### What the acceptance of a record tells -/

/-- The collector's records, counts and latch are kept; the safe state and ALIVE may have changed. -/
def KeepsRecords (f g : Fcl) : Prop := g = { f with inSafe := g.inSafe, safe := g.safe, aliveStopped := g.aliveStopped }

theorem keepsRecords_trans {f g h : Fcl} (k : KeepsRecords f g) (l : KeepsRecords g h) : KeepsRecords f h := by
  unfold KeepsRecords at *
  rw [l, k]

theorem settleAlert_fcl (s : State) : s.settleAlert.fcl = s.fcl := by rw [settleAlert_eq]

theorem stopAlive_fcl (s : State) : s.stopAlive.fcl = { s.fcl with aliveStopped := true } := settleAlert_fcl _

theorem stopAlive_alive (s : State) : s.stopAlive.pins.alive = false := by
  rw [State.stopAlive, settleAlert_eq]
  rfl

/-- What stands before ALIVE stops at the entry to the safe state. -/
def State.safeEntered (s : State) (c : Nat) : State := s.haltAll.modFcl fun f => { f with inSafe := true, safe := c }

theorem enterSafe_enters {s : State} (c : Nat) (h : s.fcl.inSafe = false) : s.enterSafe c = (s.safeEntered c).stopAlive := by
  rw [State.enterSafe, if_neg (by simp [h]), State.safeEntered]

theorem haltAll_fcl (s : State) : s.haltAll.fcl = s.fcl := by
  simp only [State.haltAll, modDmv_fcl, modRcu_fcl, modPcf_fcl, modMau_fcl, modDsc_fcl]

theorem safeEntered_fcl (s : State) (c : Nat) : (s.safeEntered c).fcl = { s.fcl with inSafe := true, safe := c } := by
  rw [← haltAll_fcl s]
  rfl

theorem enterSafe_records (s : State) (c : Nat) : KeepsRecords s.fcl (s.enterSafe c).fcl := by
  cases h : s.fcl.inSafe with
  | true =>
    rw [State.enterSafe, if_pos h]
    rfl
  | false =>
    rw [enterSafe_enters c h, stopAlive_fcl, safeEntered_fcl]
    rfl

/-- What a record tells before its class stops ALIVE or enters the safe state (R438). -/
def State.recordTold (s : State) (r : Rec) (seq : Word) (stored : Bool) : State :=
  let t := s.assertSource (if stored then 512 else 513)
  (if r.untold then t else t.event (r.fn.getD 0) 0x06 none 0 (r.session.getD 0) 0 0 seq.toNat).tellAer r

/-- ALIVE after a record: the policy's classes stop it (R446). -/
def State.aliveAfter (s : State) (cls : Nat) : State := if s.policy.aliveClasses.getLsbD cls then s.stopAlive else s

theorem tellHost_noted (s : State) (o : Out) : OnlyNoted s (s.tellHost o) := by
  unfold State.tellHost
  split
  · rfl
  · exact onlyNoted_refl s

theorem tellAer_noted (s : State) (r : Rec) : OnlyNoted s (s.tellAer r) := by
  unfold State.tellAer
  split
  · exact onlyNoted_refl s
  · split
    · exact tellHost_noted ..
    · exact tellHost_noted ..

theorem recordTold_noted (s : State) (r : Rec) (seq : Word) (stored : Bool) : OnlyNoted s (s.recordTold r seq stored) := by
  have hsource := assertSource_noted s (if stored then 512 else 513)
  unfold State.recordTold
  dsimp only
  refine onlyNoted_trans ?_ (tellAer_noted ..)
  split
  · exact hsource
  · exact onlyNoted_trans hsource (event_noted ..)

theorem onlyNoted_fcl {s t : State} (h : OnlyNoted s t) : t.fcl = s.fcl := by rw [h]

theorem onlyNoted_policy {s t : State} (h : OnlyNoted s t) : t.policy = s.policy := by
  rw [h]
  rfl

theorem tellRecord_told (s : State) (r : Rec) (seq : Word) (stored : Bool) :
    s.tellRecord r seq stored
      = if r.cls = 2 then ((s.recordTold r seq stored).aliveAfter r.cls).enterSafe 1 else (s.recordTold r seq stored).aliveAfter r.cls := by
  have hpolicy := onlyNoted_policy (recordTold_noted s r seq stored)
  simp only [State.tellRecord, State.aliveAfter, hpolicy, beq_iff_eq]
  rw [State.recordTold]

theorem aliveAfter_fcl (s : State) (cls : Nat) : (s.aliveAfter cls).fcl = { s.fcl with aliveStopped := (s.aliveAfter cls).fcl.aliveStopped } := by
  unfold State.aliveAfter
  split
  · rw [stopAlive_fcl]
  · rfl

theorem aliveAfter_frame (s : State) (cls : Nat) :
    s.aliveAfter cls = { s with fcl := (s.aliveAfter cls).fcl, pins := (s.aliveAfter cls).pins, out := (s.aliveAfter cls).out } := by
  unfold State.aliveAfter
  split
  · rw [State.stopAlive, settleAlert_eq]
    rfl
  · rfl

/-- The state with the oldest report accepted, before it is told. -/
def State.accepted (s : State) (r : Rec) (rest : List Rec) : State := s.modFcl fun f => { f.accept r with inbox := rest }

theorem exec_faultRecord {s : State} {r : Rec} {rest : List Rec} (hpower : s.pins.pwrgood = true) (hinbox : s.fcl.inbox = r :: rest) :
    exec .faultRecord s = .next ((s.accepted r rest).tellRecord r s.fcl.nextSeq (decide (s.fcl.fifo.length < 128))) := by
  have harm : exec .faultRecord s = execFaultRecord s := rfl
  rw [harm, execFaultRecord, onlyIf, if_pos hpower]
  simp only [faultRecordOp, hinbox]
  rfl

theorem accept_nextSeq (f : Fcl) (r : Rec) : (f.accept r).nextSeq = if f.nextSeq = 0xFFFFFFFF then 1 else f.nextSeq + 1 := by
  simp only [Fcl.accept, nextRecSeq, beq_iff_eq]

theorem accept_stores {f : Fcl} (r : Rec) (h : f.fifo.length < 128) : (f.accept r).fifo = f.fifo ++ [{ r with recSeq := f.nextSeq }] :=
  if_pos h

theorem accept_drops {f : Fcl} (r : Rec) (h : 128 ≤ f.fifo.length) :
    (f.accept r).fifo = f.fifo ∧ tblGet 0 (f.accept r).ovf r.cls = sat32 (tblGet 0 f.ovf r.cls) 1 := by
  have hfull : ¬ f.fifo.length < 128 := by omega
  refine ⟨if_neg hfull, ?_⟩
  simp only [Fcl.accept, if_neg hfull, tblGet_tblMod_same]

theorem accept_first (f : Fcl) (r : Rec) :
    (f.first = none → (f.accept r).first = some { r with recSeq := f.nextSeq }) ∧ ∀ x, f.first = some x → (f.accept r).first = some x := by
  constructor
  · intro h
    simp only [Fcl.accept, h]
  · intro x h
    simp only [Fcl.accept, h]

/-- What telling a record leaves of the collector, and what else it touches where the class is not F. -/
structure RecordTold (s t : State) (cls : Nat) : Prop where
  records : KeepsRecords s.fcl t.fcl
  fatal : cls = 2 → s.fcl.inSafe = false → t.fcl.inSafe = true ∧ t.fcl.safe = 1 ∧ t.pins.alive = false
  calm : cls ≠ 2 → t.fcl.inSafe = s.fcl.inSafe ∧ t.fcl.safe = s.fcl.safe
    ∧ t = { s with clusters := t.clusters, evq := t.evq, fcl := t.fcl, funcs := t.funcs, hlu := t.hlu, imb := t.imb, mem := t.mem,
                   out := t.out, pins := t.pins }

theorem enterSafe_fatal {s : State} (c : Nat) (h : s.fcl.inSafe = false) :
    (s.enterSafe c).fcl.inSafe = true ∧ (s.enterSafe c).fcl.safe = c ∧ (s.enterSafe c).pins.alive = false := by
  obtain ⟨hsafe, hcause, -⟩ := enterSafe_fcl s c
  refine ⟨hsafe, hcause h, ?_⟩
  rw [enterSafe_enters c h, stopAlive_alive]

theorem tellRecord_records (s : State) (r : Rec) (seq : Word) (stored : Bool) : RecordTold s (s.tellRecord r seq stored) r.cls := by
  have hnoted := recordTold_noted s r seq stored
  have halive := aliveAfter_fcl (s.recordTold r seq stored) r.cls
  have hframe := aliveAfter_frame (s.recordTold r seq stored) r.cls
  rw [onlyNoted_fcl hnoted] at halive
  rw [tellRecord_told]
  generalize (s.recordTold r seq stored).aliveAfter r.cls = u at halive hframe ⊢
  generalize s.recordTold r seq stored = v at hnoted hframe
  have hkept : KeepsRecords s.fcl u.fcl := by
    unfold KeepsRecords
    rw [halive]
  have hopen : u.fcl.inSafe = s.fcl.inSafe := by rw [halive]
  split
  next hfatal =>
    exact ⟨keepsRecords_trans hkept (enterSafe_records u 1), fun _ hin => enterSafe_fatal 1 (hopen.trans hin), fun h => absurd hfatal h⟩
  next hcalm =>
    refine ⟨hkept, fun h => absurd h hcalm, fun _ => ⟨hopen, by rw [halive], ?_⟩⟩
    rw [hframe, hnoted]

theorem exec_fclPop {s : State} (v : Word) (h : s.pf0Answers = true) : exec (.fclPop v) s = .next (fclPopOp v s) := by
  have harm : exec (.fclPop v) s = execFclPop v s := rfl
  rw [harm, execFclPop, onlyIf, if_pos h]

theorem exec_firstValidClear {s : State} (h : s.pf0Answers = true) : exec .firstValidClear s = .next (firstClearOp s) := by
  have harm : exec .firstValidClear s = execFirstValidClear s := rfl
  rw [harm, execFirstValidClear, onlyIf, if_pos h]

/-- Settles O56: `Fcl.accept` for what is stored, counted and latched, which telling the record leaves (`tellRecord_records`). -/
theorem faultRecords : Obligations.FaultRecords := by
  refine ⟨?accepts, ?pop, ?clear⟩
  case accepts =>
    intro r rest s hpower hinbox
    obtain ⟨hrecords, hfatal, hcalm⟩ := tellRecord_records (s.accepted r rest) r s.fcl.nextSeq (decide (s.fcl.fifo.length < 128))
    have hrun := exec_faultRecord hpower hinbox
    generalize (s.accepted r rest).tellRecord r s.fcl.nextSeq (decide (s.fcl.fifo.length < 128)) = t at hrecords hfatal hcalm hrun
    unfold KeepsRecords at hrecords
    obtain ⟨hlatch, hlatched⟩ := accept_first s.fcl r
    refine ⟨t, hrun, by rw [hrecords]; rfl, fun h => ?_, fun h => ?_, ?_, fun k hk => ?_, fun h => ?_, fun x h => ?_, ?_, hfatal, fun h => ?_⟩
    · rw [hrecords]
      exact accept_stores r h
    · rw [hrecords]
      exact accept_drops r h
    · rw [hrecords]
      exact tblGet_tblMod_same (0 : Word) s.fcl.count r.source fun w => sat32 w 1
    · rw [hrecords]
      exact tblGet_tblMod_other (0 : Word) s.fcl.count r.source k (fun w => sat32 w 1) hk.symm
    · rw [hrecords]
      exact hlatch h
    · rw [hrecords]
      exact hlatched x h
    · rw [hrecords]
      exact accept_nextSeq s.fcl r
    · exact hcalm h
  case pop =>
    intro v s h
    rw [exec_fclPop v h, fclPopOp]
    split <;> rfl
  case clear =>
    intro s h
    rw [exec_firstValidClear h]
    rfl

end Sys2Proof.Machine
end

section
/-! PROOFS. The safe state, ALIVE, the policy's windows and the management processors (R439, R444 to R446, R394, R396). -/
namespace Sys2Proof.Machine

/-! ### The entry to the safe state -/

theorem tblGet_map {α β : Type} (d : α) (e : β) (f : α → β) (hf : f d = e) (t : Tbl α) (i : Nat) :
    tblGet e (t.map fun p : Nat × α => (p.1, f p.2)) i = f (tblGet d t i) := by
  induction t with
  | nil => exact hf.symm
  | cons p t ih =>
    obtain ⟨k, v⟩ := p
    simp only [List.map_cons, tblGet]
    split
    · rfl
    · exact ih

theorem haltAll_halves (s : State) : s.haltAll.halves = s.halves.map fun p : Nat × Half => (p.1, haltHalf p.2) := by
  simp only [State.haltAll, modDmv_halves, modRcu_halves, modPcf_halves, modMau_halves, modDsc_halves]

theorem haltAll_half_unit (s : State) (h : Nat) : (s.haltAll.half h).unit = none := by
  have hhalf : ∀ t : State, t.half h = tblGet Half.init t.halves h := fun _ => rfl
  rw [hhalf, haltAll_halves]
  induction s.halves with
  | nil => rfl
  | cons p t ih =>
    obtain ⟨k, x⟩ := p
    simp only [List.map_cons, tblGet]
    split
    · rfl
    · exact ih

theorem haltAll_units (s : State) : s.haltAll.dsc.units = s.dsc.units.map haltUnit := by
  simp only [State.haltAll, modDmv_dsc, modRcu_dsc, modPcf_dsc, modMau_dsc, modDsc_dsc]

theorem haltAll_slots (s : State) : s.haltAll.dmv.slots = [] := by
  simp only [State.haltAll, modDmv_dmv]

theorem haltAll_cells (s : State) : s.haltAll.mem.cells = s.mem.cells := by
  simp only [State.haltAll, modDmv_mem, modRcu_mem, modPcf_mem, modMau_mem, modDsc_mem]

/-- What the entry to the safe state leaves as `haltAll` has it. -/
structure AsHalted (s t : State) : Prop where
  halves : t.halves = s.haltAll.halves
  dsc : t.dsc = s.haltAll.dsc
  dmv : t.dmv = s.haltAll.dmv
  mem : t.mem = s.haltAll.mem

theorem enterSafe_halted {s : State} (c : Nat) (h : s.fcl.inSafe = false) : AsHalted s (s.enterSafe c) := by
  rw [enterSafe_enters c h, State.stopAlive, settleAlert_eq]
  exact ⟨rfl, rfl, rfl, rfl⟩

theorem enterSafe_fifo (s : State) (c : Nat) : (s.enterSafe c).fcl.fifo = s.fcl.fifo := by
  have h := enterSafe_records s c
  unfold KeepsRecords at h
  rw [h]

theorem enterSafe_inbox (s : State) (c : Nat) : (s.enterSafe c).fcl.inbox = s.fcl.inbox := by
  have h := enterSafe_records s c
  unfold KeepsRecords at h
  rw [h]

theorem up_false_of_inSafe {s : State} (h : s.fcl.inSafe = true) : s.up = false := by simp [State.up, h]

theorem exec_fclParityError {s : State} (hpower : s.pins.pwrgood = true) : exec .fclParityError s = .next (s.enterSafe 3) := by
  have harm : exec .fclParityError s = execFclParityError s := rfl
  rw [harm, execFclParityError, onlyIf, if_pos hpower, fclParityOp]

/-! ### ALIVE_RESUME (R446) -/

/-- ALIVE toggling again, before TGT_ALERT_N follows. -/
def State.aliveAgain (s : State) : State :=
  (s.modFcl fun f => { f with aliveStopped := false }).modPins fun p => { p with alive := true }

theorem exec_aliveResume {s : State} (hup : s.up = true) (hanswers : s.pf0Answers = true) (hstopped : s.fcl.aliveStopped = true) :
    exec .aliveResume s = .next s.aliveAgain.settleAlert := by
  have harm : exec .aliveResume s = execAliveResume s := rfl
  rw [harm, execAliveResume, onlyIf, if_pos (by simp [hup, hanswers]), aliveResumeOp, if_pos hstopped, State.aliveAgain]

/-! ### The policy's windows (R439) -/

theorem exec_policyWindowEnd {s : State} (hour : Bool) (hup : s.up = true) :
    exec (.policyWindowEnd hour) s = .next (policyWindowOp hour s) := by
  have harm : exec (.policyWindowEnd hour) s = execPolicyWindowEnd hour s := rfl
  rw [harm, execPolicyWindowEnd, onlyIf, if_pos hup]

theorem halveTbl_one (e n : Nat) : tblGet 0 (halveTbl [(e, n)]) e = n / 2 := by
  by_cases h : n / 2 = 0
  · simp [halveTbl, h, tblGet]
  · simp [halveTbl, h, tblGet]

theorem halveTbl_two (a b : Nat) : tblGet 0 (halveTbl [(0, a), (1, b)]) 0 = a / 2 ∧ tblGet 0 (halveTbl [(0, a), (1, b)]) 1 = b / 2 := by
  by_cases ha : a / 2 = 0
  · by_cases hb : b / 2 = 0
    · simp [halveTbl, ha, hb, tblGet]
    · simp [halveTbl, ha, hb, tblGet]
  · by_cases hb : b / 2 = 0
    · simp [halveTbl, ha, hb, tblGet]
    · simp [halveTbl, ha, hb, tblGet]

/-- The machine-check window of one half at its end. -/
def State.windowHalved (h : Nat) (s : State) : State := s.modHalf h fun x => { x with mchkWindow := x.mchkWindow / 2 }

theorem windowsHalved_at (s : State) (n : Nat) {h : Nat} :
    ((forUpTo n State.windowHalved s).half h).mchkWindow = if h < n then (s.half h).mchkWindow / 2 else (s.half h).mchkWindow := by
  induction n with
  | zero => simp [forUpTo]
  | succ n ih =>
    rw [forUpTo, State.windowHalved]
    by_cases hn : h = n
    · subst hn
      rw [modHalf_half, ih, if_neg (by omega), if_pos (by omega)]
    · rw [modHalf_half_other _ _ _ _ (Ne.symm hn), ih]
      have hlt : h < n + 1 ↔ h < n := by omega
      simp only [hlt]

theorem windowsHalved_frame (s : State) (n : Nat) :
    forUpTo n State.windowHalved s = { s with halves := (forUpTo n State.windowHalved s).halves } := by
  refine forUpTo_induct (P := fun t => t = { s with halves := t.halves }) n (fun k t h => ?_) s rfl
  rw [State.windowHalved, h]
  rfl

/-- A day's window at its end: the counts of `n` halves, then the engines' and the pipes'. -/
def State.dayEnded (s : State) (n : Nat) : State :=
  ((forUpTo n State.windowHalved s).modMau fun m => { m with parity := halveTbl m.parity }).modPcf fun m => { m with parity := halveTbl m.parity }

theorem policyWindowOp_day (s : State) : policyWindowOp false s = s.dayEnded 128 := rfl

theorem policyWindowOp_hour (s : State) : policyWindowOp true s = s.modFcl fun f => { f with restarts := halveTbl f.restarts } := rfl

theorem dayEnded_half (s : State) {h n : Nat} (hh : h < n) : ((s.dayEnded n).half h).mchkWindow = (s.half h).mchkWindow / 2 :=
  (windowsHalved_at s n).trans (if_pos hh)

theorem dayEnded_parts (s : State) (n : Nat) :
    s.dayEnded n = { s with halves := (s.dayEnded n).halves, mau := { s.mau with parity := halveTbl s.mau.parity },
                            pcf := { s.pcf with parity := halveTbl s.pcf.parity } } := by
  unfold State.dayEnded
  have h := windowsHalved_frame s n
  generalize forUpTo n State.windowHalved s = t at h ⊢
  rw [h]
  rfl

/-! ### Management processors (Table 19-5, R394, R396) -/

theorem exec_lockstepMismatch {s : State} {p : Nat} (hup : s.up = true) (hp : p < 2) (hruns : s.fcl.mpDown.getLsbD p = false) :
    exec (.lockstepMismatch p) s = .next (lockstepOp p s) := by
  have harm : exec (.lockstepMismatch p) s = execLockstepMismatch p s := rfl
  rw [harm, execLockstepMismatch, onlyIf, if_pos (by simp only [hup, hp, hruns, decide_true, Bool.not_false, Bool.and_self])]

theorem exec_firmwareRestartDone {s : State} {p : Nat} (hup : s.up = true) (hp : p < 2) :
    exec (.firmwareRestartDone p) s = .next (restartDoneOp p s) := by
  have harm : exec (.firmwareRestartDone p) s = execFirmwareRestartDone p s := rfl
  rw [harm, execFirmwareRestartDone, onlyIf, if_pos (by simp [hup, hp])]

/-- A mismatch counted and recorded, and its pair stopped. -/
def State.mismatched (s : State) (p : Nat) : State :=
  (s.modFcl fun f => { f with
    restarts := tblSet 0 f.restarts p (tblGet 0 s.fcl.restarts p + 1)
    mpFenced := if decide (s.policy.mpLimit ≤ tblGet 0 s.fcl.restarts p) then f.mpFenced ||| BitVec.twoPow 2 p else f.mpFenced
    mpDown := f.mpDown ||| BitVec.twoPow 2 p }).report 0x0B (0xA8 + p) none none (tblGet 0 s.fcl.restarts p + 1) 0 0

/-- A pair stopped: the firmware's mailbox reset, and the semaphores of its two processors given up. -/
def State.pairStopped (s : State) (p : Nat) : State :=
  (((s.mismatched p).resetMbx .fw).abandonSems (64 + 2 * p)).abandonSems (65 + 2 * p)

theorem lockstepOp_stops (p : Nat) (s : State) :
    lockstepOp p s = if (s.pairStopped p).fcl.mpFenced == 3 then (s.pairStopped p).report 0x33 (0xA8 + p) none none (0xA8 + p) 0 0
      else s.pairStopped p := by
  rw [lockstepOp, State.pairStopped, State.mismatched]

theorem resetMbx_fw (s : State) :
    ∃ u : State, s.resetMbx .fw = u.raiseMbxOut .pf0 ∧ u = { s with imb := u.imb } ∧ (u.mbx 0).out = 0 ∧ u.imb.sems = s.imb.sems := by
  let t := s.modMbx 0 fun m => { m with out := 0, stale := 0, slots := [], started := [], rcvReset := true }
  let u := t.modMbx 128 fun m => { m with stale := m.out, started := [], gen := if m.gen == 255 then 1 else m.gen + 1 }
  have hother : u.mbx 0 = t.mbx 0 := modMbx_mbx_other _ _ _ _ (by decide)
  have hsame : t.mbx 0 = _ := modMbx_mbx ..
  exact ⟨u, rfl, rfl, by rw [hother, hsame], rfl⟩

/-- One semaphore given up by its holder `r`. -/
def State.giveUp (r k : Nat) (u : State) : State :=
  if (u.sem k).holder == some r then u.modSem k fun m => { m with holder := none, abandoned := true } else u

theorem abandonSems_steps (s : State) (r : Nat) : s.abandonSems r = forUpTo 64 (State.giveUp r) s := rfl

/-- A processor's semaphores after it gives them up: one that it held is free, any other as it was. -/
theorem giveUps_holder (s : State) (r n m : Nat) :
    ((forUpTo n (State.giveUp r) s).sem m).holder = if m < n ∧ (s.sem m).holder = some r then none else (s.sem m).holder := by
  induction n with
  | zero => simp [forUpTo]
  | succ n ih =>
    rw [forUpTo]
    generalize forUpTo n (State.giveUp r) s = u at ih ⊢
    unfold State.giveUp
    by_cases hm : m = n
    · subst hm
      rw [if_neg (by omega)] at ih
      split
      next hheld =>
        rw [modSem_sem]
        have hs : (s.sem m).holder = some r := ih.symm.trans (by simpa using hheld)
        rw [if_pos ⟨by omega, hs⟩]
      next hfree =>
        have hs : (s.sem m).holder ≠ some r := fun h => hfree (by simp [ih, h])
        rw [ih, if_neg (by simp [hs])]
    · have hlt : m < n + 1 ↔ m < n := by omega
      split
      · rw [modSem_sem_other _ _ _ _ (Ne.symm hm), ih]
        simp only [hlt]
      · rw [ih]
        simp only [hlt]

theorem abandonSems_holder (s : State) (r : Nat) {m : Nat} (hm : m < 64) :
    ((s.abandonSems r).sem m).holder = if (s.sem m).holder = some r then none else (s.sem m).holder := by
  rw [abandonSems_steps, giveUps_holder]
  simp only [hm, true_and]

/-- Nothing has changed but the semaphores. -/
def OnlySems (s t : State) : Prop := t = { s with imb := { s.imb with sems := t.imb.sems } }

theorem giveUp_sems {s t : State} (r k : Nat) (h : OnlySems s t) : OnlySems s (State.giveUp r k t) := by
  unfold State.giveUp
  split
  · unfold OnlySems at *
    rw [h]
    rfl
  · exact h

theorem abandonSems_sems (s : State) (r : Nat) : OnlySems s (s.abandonSems r) := by
  rw [abandonSems_steps]
  exact forUpTo_induct (P := OnlySems s) 64 (fun k t h => giveUp_sems r k h) s rfl

/-- Two holders that give up a semaphore in turn hold it no more. -/
theorem twice_given_up (o : Option Nat) (a b : Nat) :
    (if (if o = some a then none else o) = some b then none else (if o = some a then none else o)) ≠ some a
      ∧ (if (if o = some a then none else o) = some b then none else (if o = some a then none else o)) ≠ some b := by
  by_cases ha : o = some a
  · simp [ha]
  · by_cases hb : o = some b
    · simp [hb]
    · simp [ha, hb]

/-- What a pair that stops leaves: the collector as the mismatch wrote it, and what its mailbox and semaphores touch. -/
structure PairStops (s t : State) (p : Nat) : Prop where
  fcl : t.fcl = (s.mismatched p).fcl
  mailbox : (t.mbx 0).out = 0
  sems : ∀ n, n < 64 → (t.sem n).holder ≠ some (64 + 2 * p) ∧ (t.sem n).holder ≠ some (65 + 2 * p)
  frame : t = { s with fcl := t.fcl, funcs := t.funcs, hlu := t.hlu, imb := t.imb, out := t.out }

theorem pairStopped_stops (s : State) (p : Nat) : PairStops s (s.pairStopped p) p := by
  obtain ⟨u, hreset, hu, hout, -⟩ := resetMbx_fw (s.mismatched p)
  have hraised := raiseMbxOut_asserted u .pf0
  rw [← hreset] at hraised
  have hframe := asserted_frame hraised hu
  have hmbx := mbx_asserted hraised 0
  have hfirst := abandonSems_sems ((s.mismatched p).resetMbx .fw) (64 + 2 * p)
  have hsecond := abandonSems_sems (((s.mismatched p).resetMbx .fw).abandonSems (64 + 2 * p)) (65 + 2 * p)
  refine ⟨?_, ?_, fun n hn => ?_, ?_⟩
  case refine_3 =>
    rw [State.pairStopped, abandonSems_holder _ _ hn, abandonSems_holder _ _ hn]
    exact twice_given_up ..
  all_goals
    unfold State.pairStopped
    generalize (s.mismatched p).resetMbx .fw = v at *
    generalize v.abandonSems (64 + 2 * p) = w at *
    generalize w.abandonSems (65 + 2 * p) = x at *
    unfold OnlySems at hfirst hsecond
  · rw [hsecond, hfirst, hframe]
  · have hx : x.mbx 0 = v.mbx 0 := by
      rw [hsecond, hfirst]
      rfl
    rw [hx, hmbx, hout]
  · rw [hsecond, hfirst, hframe]
    rfl

theorem mismatched_inbox (s : State) (p : Nat) :
    ∃ r, (s.mismatched p).fcl.inbox = s.fcl.inbox ++ [r] ∧ r.code = 0x0B ∧ r.cls = s.reportClass 0x0B ∧ r.time = BitVec.ofNat 64 s.time :=
  ⟨_, rfl, rfl, rfl, rfl⟩

theorem mismatched_restarts (s : State) (p : Nat) : tblGet 0 (s.mismatched p).fcl.restarts p = tblGet 0 s.fcl.restarts p + 1 := by
  simp only [State.mismatched, State.report, modFcl_fcl, tblGet_tblSet_same]

theorem mismatched_fenced (s : State) (p : Nat) :
    (s.mismatched p).fcl.mpFenced
      = if s.policy.mpLimit ≤ tblGet 0 s.fcl.restarts p then s.fcl.mpFenced ||| BitVec.twoPow 2 p else s.fcl.mpFenced := by
  simp only [State.mismatched, State.report, modFcl_fcl, decide_eq_true_eq]

end Sys2Proof.Machine
end

section
/-! PROOFS. The reach of sessions that end (R35, R38, R39): entries, units and sessions that close touch no function but what is held for it,
and of a queue nothing but its entries. -/
namespace Sys2Proof.Machine

/-! ### What is kept -/

/-- A function is as it was but for what is held for it, and nothing more is held for it under an FLR (R372, R375). -/
def FuncKept (a b : Func) : Prop := b = { a with held := b.held } ∧ (a.flr = true → b = a)

theorem funcKept_refl (a : Func) : FuncKept a a := ⟨rfl, fun _ => rfl⟩

theorem funcKept_trans {a b c : Func} (h : FuncKept a b) (k : FuncKept b c) : FuncKept a c := by
  obtain ⟨hb, hflr⟩ := h
  obtain ⟨kb, kflr⟩ := k
  have hsame : b.flr = a.flr := by rw [hb]
  constructor
  · rw [kb, hb]
  · intro ha
    rw [kflr (hsame.trans ha), hflr ha]

/-- A queue is as it was but for its entries, and gets none. -/
def QueueKept (v w : WorkQ) : Prop := w = { v with entries := w.entries } ∧ (v.entries = [] → w.entries = [])

theorem queueKept_refl (w : WorkQ) : QueueKept w w := ⟨rfl, id⟩

theorem queueKept_trans {u v w : WorkQ} (h : QueueKept u v) (k : QueueKept v w) : QueueKept u w := by
  obtain ⟨hv, hnone⟩ := h
  obtain ⟨kv, knone⟩ := k
  exact ⟨by rw [kv, hv], fun hu => knone (hnone hu)⟩

theorem queueKept_map (w : WorkQ) (f : QEntry → QEntry) : QueueKept w { w with entries := w.entries.map f } :=
  ⟨rfl, fun h => by rw [h, List.map_nil]⟩

/-- The functions, the queues, and the VFs that the link has, but for what is held and for entries. -/
structure Bystanders (s t : State) : Prop where
  funcs : ∀ k, FuncKept (s.func k) (t.func k)
  queues : ∀ q, QueueKept (s.queue q) (t.queue q)
  vfs : t.hlu.vfEn = s.hlu.vfEn ∧ t.hlu.numVfs = s.hlu.numVfs

theorem bystanders_trans {s t u : State} (h : Bystanders s t) (k : Bystanders t u) : Bystanders s u where
  funcs := fun n => funcKept_trans (h.funcs n) (k.funcs n)
  queues := fun q => queueKept_trans (h.queues q) (k.queues q)
  vfs := ⟨k.vfs.1.trans h.vfs.1, k.vfs.2.trans h.vfs.2⟩

theorem bystanders_of_same {s t : State} (hfuncs : t.funcs = s.funcs) (hqueues : t.queues = s.queues) (hhlu : t.hlu = s.hlu) :
    Bystanders s t where
  funcs := fun k => by
    have h : t.func k = s.func k := congrArg (tblGet Func.init · k) hfuncs
    rw [h]
    exact funcKept_refl _
  queues := fun q => by
    have h : t.queue q = s.queue q := congrArg (tblGet WorkQ.init · q) hqueues
    rw [h]
    exact queueKept_refl _
  vfs := by rw [hhlu]; exact ⟨rfl, rfl⟩

/-- Only what entries, units and sessions that end touch has changed, and no way of the Electrum cache left service. -/
structure OnlyClosed (s t : State) : Prop where
  frame : t = { s with admq := t.admq, clusters := t.clusters, ctx := t.ctx, dmv := t.dmv, dsc := t.dsc, funcs := t.funcs, halves := t.halves,
                       hlu := t.hlu, mau := t.mau, mem := t.mem, out := t.out, pcf := t.pcf, queues := t.queues, sessions := t.sessions }
  ways : t.ctx.lostWays = s.ctx.lostWays
  by_ : Bystanders s t

theorem onlyClosed_trans {s t u : State} (h : OnlyClosed s t) (k : OnlyClosed t u) : OnlyClosed s u where
  frame := by
    have hframe := h.frame
    have kframe := k.frame
    rw [hframe] at kframe
    exact kframe
  ways := k.ways.trans h.ways
  by_ := bystanders_trans h.by_ k.by_

theorem onlyClosed_refl (s : State) : OnlyClosed s s := ⟨rfl, rfl, bystanders_of_same rfl rfl rfl⟩

theorem onlyClosed_of_moved {s t : State} (h : OnlyMoved s t) : OnlyClosed s t := by
  have hframe := h.frame
  exact ⟨by rw [hframe], by rw [hframe], bystanders_of_same (by rw [hframe]) (by rw [hframe]) (by rw [hframe])⟩

theorem modSess_closed (s : State) (n : Nat) (f : Session → Session) : OnlyClosed s (s.modSess n f) :=
  ⟨rfl, rfl, bystanders_of_same rfl rfl rfl⟩

theorem modDsc_closed (s : State) (f : Dsc → Dsc) : OnlyClosed s (s.modDsc f) := ⟨rfl, rfl, bystanders_of_same rfl rfl rfl⟩

theorem modDmv_closed (s : State) (f : Dmv → Dmv) : OnlyClosed s (s.modDmv f) := ⟨rfl, rfl, bystanders_of_same rfl rfl rfl⟩

theorem modAdmQ_closed (s : State) (fn : Nat) (f : AdmQ → AdmQ) : OnlyClosed s (s.modAdmQ fn f) := ⟨rfl, rfl, bystanders_of_same rfl rfl rfl⟩

theorem memWrite_closed (s : State) (a : Nat) (bs : List Byte) : OnlyClosed s (s.memWrite a bs) := ⟨rfl, rfl, bystanders_of_same rfl rfl rfl⟩

theorem dropLine_closed (s : State) (n : Nat) : OnlyClosed s (s.dropLine n) := ⟨rfl, rfl, bystanders_of_same rfl rfl rfl⟩

theorem modQueue_closed (s : State) (q : Nat) (f : QEntry → QEntry) :
    OnlyClosed s (s.modQueue q fun w => { w with entries := w.entries.map f }) where
  frame := rfl
  ways := rfl
  by_ := by
    refine ⟨fun k => funcKept_refl _, fun p => ?_, rfl, rfl⟩
    by_cases hp : q = p
    · subst hp
      rw [modQueue_queue]
      exact queueKept_map ..
    · rw [modQueue_queue_other _ _ _ _ hp]
      exact queueKept_refl _

theorem modEntry_closed (s : State) (q : Nat) (seq : Word) (f : QEntry → QEntry) : OnlyClosed s (s.modEntry q seq f) := modQueue_closed ..

theorem forEach_closed {β : Type} {f : β → State → State} (xs : List β) (hf : ∀ x t, OnlyClosed t (f x t)) (s : State) :
    OnlyClosed s (forEach xs f s) :=
  forEach_induct (P := OnlyClosed s) xs (fun x _ t ht => onlyClosed_trans ht (hf x t)) s (onlyClosed_refl s)

theorem forUpTo_closed {f : Nat → State → State} (n : Nat) (hf : ∀ k t, OnlyClosed t (f k t)) (s : State) : OnlyClosed s (forUpTo n f s) :=
  forUpTo_induct (P := OnlyClosed s) n (fun k t ht => onlyClosed_trans ht (hf k t)) s (onlyClosed_refl s)

/-! ### Writes for a function -/

theorem send_closed (s : State) (o : Out) : OnlyClosed s (s.send o) := by
  refine ⟨rfl, rfl, fun k => funcKept_refl _, fun q => queueKept_refl _, ?_⟩
  have hawake : ∀ h : Hlu, h.awake.vfEn = h.vfEn ∧ h.awake.numVfs = h.numVfs := fun h => by
    unfold Hlu.awake
    split <;> exact ⟨rfl, rfl⟩
  exact hawake s.hlu

theorem emitFor_closed (s : State) (fn : Nat) (o : Out) : OnlyClosed s (s.emitFor fn o) := by
  unfold State.emitFor
  split
  · exact onlyClosed_refl s
  next hopen =>
    split
    · refine ⟨rfl, rfl, fun k => ?_, fun q => queueKept_refl _, rfl, rfl⟩
      by_cases hk : fn = k
      · subst hk
        rw [modFunc_func]
        exact ⟨rfl, fun hflr => absurd hflr (by simp_all)⟩
      · rw [modFunc_func_other _ _ _ _ hk]
        exact funcKept_refl _
    · exact send_closed s o

theorem emitData_closed (s : State) (fn : Nat) (o : Out) : OnlyClosed s (s.emitData fn o) := by
  unfold State.emitData
  split
  · exact onlyClosed_refl s
  · exact send_closed s o

theorem modHlu_closed (s : State) (f : Hlu → Hlu) (hvfs : (f s.hlu).vfEn = s.hlu.vfEn ∧ (f s.hlu).numVfs = s.hlu.numVfs) :
    OnlyClosed s (s.modHlu f) := ⟨rfl, rfl, fun _ => funcKept_refl _, fun _ => queueKept_refl _, hvfs⟩

theorem issueSnoop_closed (s : State) (e : Nat × Bool) : OnlyClosed s (s.issueSnoop e) :=
  onlyClosed_trans (modHlu_closed s _ ⟨rfl, rfl⟩) (send_closed _ _)

theorem sendSnoop_closed (s : State) (l : Nat) (data : Bool) : OnlyClosed s (s.sendSnoop l data) := by
  unfold State.sendSnoop
  dsimp only
  split
  · exact onlyClosed_refl s
  · split
    · exact onlyClosed_trans (modHlu_closed s _ ⟨rfl, rfl⟩) (issueSnoop_closed _ _)
    · exact modHlu_closed s _ ⟨rfl, rfl⟩

theorem lineWrite_closed (s : State) (l a : Nat) (bs : List Byte) : OnlyClosed s (s.lineWrite l a bs) := by
  unfold State.lineWrite
  dsimp only
  split
  · split
    · exact onlyClosed_trans (modHlu_closed s _ ⟨rfl, rfl⟩) (send_closed _ _)
    · exact onlyClosed_trans (modHlu_closed s _ ⟨rfl, rfl⟩) (sendSnoop_closed _ _ _)
  · exact memWrite_closed ..

theorem devWrite_closed (s : State) (a : Nat) (bs : List Byte) : OnlyClosed s (s.devWrite a bs) := by
  unfold State.devWrite
  split
  · exact forEach_closed _ (fun l t => lineWrite_closed t l _ _) s
  · exact memWrite_closed ..

theorem putRecord_closed (s : State) (fn space a : Nat) (bs : List Byte) : OnlyClosed s (s.putRecord fn space a bs) := by
  unfold State.putRecord State.putBytes
  split
  · exact onlyClosed_refl s
  · split
    · exact emitFor_closed ..
    · exact devWrite_closed ..

theorem putData_closed (s : State) (fn space a : Nat) (bs : List Byte) : OnlyClosed s (s.putData fn space a bs) := by
  unfold State.putData
  split
  · exact emitData_closed ..
  · exact devWrite_closed ..

/-! ### Entries that end -/

theorem putResult_closed (s : State) (q : Nat) (seq : Word) : OnlyClosed s (s.putResult q seq) := by
  unfold State.putResult
  split
  · exact onlyClosed_refl s
  · dsimp only
    split
    · exact onlyClosed_trans (putRecord_closed ..) (modEntry_closed ..)
    · exact putRecord_closed ..

theorem noteEnd_closed (s : State) (q : Nat) (e : QEntry) : OnlyClosed s (s.noteEnd q e) := by
  unfold State.noteEnd
  dsimp only
  split
  · exact modSess_closed ..
  · exact onlyClosed_refl s

theorem finishEntry_closed (s : State) (q : Nat) (seq : Word) : OnlyClosed s (s.finishEntry q seq) := by
  unfold State.finishEntry
  split
  · exact onlyClosed_refl s
  · dsimp only
    split
    · exact onlyClosed_refl s
    · have hended : ∀ f e, OnlyClosed s (((s.modEntry q seq f).putResult q seq).noteEnd q e) := fun f e =>
        onlyClosed_trans (onlyClosed_trans (modEntry_closed ..) (putResult_closed ..)) (noteEnd_closed ..)
      split
      · exact onlyClosed_trans (hended ..)
          (forEach_closed _ (fun _ _ => onlyClosed_trans (onlyClosed_trans (modEntry_closed ..) (modDsc_closed ..)) (putResult_closed ..)) _)
      · exact hended ..

theorem settleEntry_closed (s : State) (q : Nat) (seq : Word) : OnlyClosed s (s.settleEntry q seq) := by
  unfold State.settleEntry
  split
  · split
    · exact finishEntry_closed ..
    · exact onlyClosed_refl s
  · exact onlyClosed_refl s

theorem closeEntry_closed (s : State) (q : Nat) (seq : Word) (c k : Nat) : OnlyClosed s (s.closeEntry q seq c k) :=
  onlyClosed_trans (modEntry_closed ..) (settleEntry_closed ..)

theorem settleLadders_closed (s : State) : OnlyClosed s s.settleLadders :=
  forEach_closed _ (fun _ _ => onlyClosed_trans (modEntry_closed ..) (settleEntry_closed ..)) s

theorem closeRends_closed (s : State) (n c k : Nat) : OnlyClosed s (s.closeRends n c k) :=
  onlyClosed_trans (forEach_closed _ (fun _ _ => modQueue_closed ..) s) (settleLadders_closed _)

theorem closeEntries_closed (s : State) (n c k : Nat) : OnlyClosed s (s.closeEntries n c k) :=
  onlyClosed_trans (closeRends_closed ..) (forEach_closed _ (fun _ _ => closeEntry_closed ..) _)

theorem writeDir_closed (s : State) (n : Nat) : OnlyClosed s (s.writeDir n) := by
  unfold State.writeDir
  split
  · exact memWrite_closed ..
  · exact onlyClosed_refl s

/-! ### Units and sessions that end -/

theorem freeSession_closed (s : State) (n : Nat) : OnlyClosed s (s.freeSession n) :=
  onlyClosed_trans (onlyClosed_trans (modSess_closed s n _) (dropLine_closed _ n)) (writeDir_closed _ n)

theorem finishAdm_closed (s : State) (fn : Nat) (tag : Word) (op c k r : Nat) : OnlyClosed s (s.finishAdm false fn tag op c k r) :=
  onlyClosed_trans (onlyClosed_trans (putRecord_closed ..) (modAdmQ_closed ..)) (putRecord_closed ..)

theorem settleDrain_closed (s : State) (n : Nat) : OnlyClosed s (s.settleDrain n) := by
  unfold State.settleDrain
  dsimp only
  split
  · split
    · split
      · exact onlyClosed_trans (freeSession_closed ..) (finishAdm_closed ..)
      · exact freeSession_closed ..
    · exact modSess_closed ..
  · exact onlyClosed_refl s

theorem discardUnit_closed (s : State) (u : WUnit) : OnlyClosed s (s.discardUnit u) := by
  have hgone : OnlyClosed s ((s.leftPlace u u.uid).dropUnit u.uid) := onlyClosed_of_moved (onlyMoved_trans (leftPlace_moved ..) (modDsc_moved ..))
  have hend : ∀ t, OnlyClosed s t → OnlyClosed s (((t.settleState u.session).settleEntry u.q u.seq).settleDrain u.session) := fun t ht =>
    onlyClosed_trans (onlyClosed_trans (onlyClosed_trans ht (onlyClosed_of_moved (settleState_moved ..))) (settleEntry_closed ..))
      (settleDrain_closed ..)
  unfold State.discardUnit
  dsimp only
  split
  · exact hend _ (onlyClosed_trans hgone (modEntry_closed ..))
  · exact hend _ hgone

theorem stopUnits_closed (s : State) (us : List WUnit) : OnlyClosed s (s.stopUnits us) := by
  refine forEach_closed us (fun u t => ?_) s
  unfold State.stopUnit
  split
  · exact discardUnit_closed ..
  · exact onlyClosed_of_moved (onlyMoved_trans (modDsc_moved ..) (sendReq_moved ..))

theorem rollback_closed (s : State) (n : Nat) : OnlyClosed s (s.rollback n) := by
  unfold State.rollback
  split
  · exact onlyClosed_refl s
  next u _ =>
    split
    · exact onlyClosed_trans (onlyClosed_of_moved (refund_moved ..)) (discardUnit_closed ..)
    · have hwoken := onlyMoved_trans (onlyMoved_trans (leftPlace_moved s u n) (refund_moved _ u (u.cost : Int))) (wake_moved _ u)
      exact onlyClosed_trans (onlyClosed_of_moved (onlyMoved_trans (onlyMoved_trans hwoken (modDsc_moved ..)) (settleState_moved ..)))
        (settleDrain_closed ..)

theorem dropOutputs_closed (s : State) (n : Nat) : OnlyClosed s (s.dropOutputs n) := by
  unfold State.dropOutputs
  dsimp only
  split
  · exact onlyClosed_refl s
  · exact modDmv_closed ..

theorem resetSession_closed (s : State) (n : Nat) : OnlyClosed s (s.resetSession n) := by
  unfold State.resetSession
  dsimp only
  split
  · exact onlyClosed_refl s
  · exact onlyClosed_trans (onlyClosed_trans (onlyClosed_trans (dropOutputs_closed ..) (modSess_closed ..)) (stopUnits_closed ..))
      (closeEntries_closed ..)

/-! ### Drains -/

theorem entryOut_closed (s : State) (q : Nat) (seq : Word) (fn space a : Nat) (bs : List Byte) : OnlyClosed s (s.entryOut q seq fn space a bs) :=
  onlyClosed_trans (putData_closed ..) (modEntry_closed ..)

theorem putField_closed (s : State) (q : Nat) (seq : Word) (fn space addr w : Nat) (a : AnaPic) :
    OnlyClosed s (s.putField q seq fn space addr w a) :=
  onlyClosed_trans (entryOut_closed ..) (forUpTo_closed _ (fun _ _ => entryOut_closed ..) _)

theorem finishAnalysis_closed (s : State) (q : Nat) (e : QEntry) : OnlyClosed s (s.finishAnalysis q e) := by
  unfold State.finishAnalysis
  split
  · dsimp only
    split
    · exact onlyClosed_trans (modSess_closed ..) (closeEntry_closed ..)
    · exact onlyClosed_trans (onlyClosed_trans (putField_closed ..) (modSess_closed ..)) (closeEntry_closed ..)
  · exact onlyClosed_refl s

theorem closeDrained_closed (s : State) (n : Nat) : OnlyClosed s (s.closeDrained n) := by
  have hrends : OnlyClosed s (s.drainRends n) := onlyClosed_trans (forEach_closed _ (fun _ _ => modQueue_closed ..) s) (settleLadders_closed _)
  refine onlyClosed_trans hrends (forEach_closed _ (fun p t => ?_) _)
  split
  · split
    · exact onlyClosed_trans (modSess_closed ..) (finishAnalysis_closed ..)
    · split
      · exact closeEntry_closed ..
      · exact modEntry_closed ..
  · exact onlyClosed_refl t

theorem drainSession_closed (s : State) (n : Nat) (destroy : Bool) : OnlyClosed s (s.drainSession n destroy) := by
  have hopen : ∀ t : State, OnlyClosed s t → OnlyClosed s ((((t.modSess n fun x => { x with state := .draining, destroyAfter := destroy }).stopUnits
      (s.dsc.units.filter fun u => u.session == n)).closeDrained n).modSess n fun x => { x with outq := if destroy then [] else x.outq }) := fun t ht =>
    onlyClosed_trans (onlyClosed_trans (onlyClosed_trans (onlyClosed_trans ht (modSess_closed ..)) (stopUnits_closed ..)) (closeDrained_closed ..))
      (modSess_closed ..)
  unfold State.drainSession
  dsimp only
  refine onlyClosed_trans (hopen _ ?_) (settleDrain_closed ..)
  split
  · exact dropOutputs_closed ..
  · exact onlyClosed_refl s

end Sys2Proof.Machine
end

section
/-! PROOFS. The resets that faults cause (R442, Table 19-5), and the statement about the safe state and the units' faults. -/
namespace Sys2Proof.Machine

/-! ### The reach of a reset that a fault causes -/

/-- Only what a session's reset with its event touches has changed, and no way of the Electrum cache left service. -/
structure OnlyDrained (s t : State) : Prop where
  frame : t = { s with admq := t.admq, clusters := t.clusters, ctx := t.ctx, dmv := t.dmv, dsc := t.dsc, evq := t.evq, funcs := t.funcs,
                       halves := t.halves, hlu := t.hlu, imb := t.imb, mau := t.mau, mem := t.mem, out := t.out, pcf := t.pcf,
                       queues := t.queues, sessions := t.sessions }
  ways : t.ctx.lostWays = s.ctx.lostWays

theorem onlyDrained_refl (s : State) : OnlyDrained s s := ⟨rfl, rfl⟩

theorem onlyDrained_trans {s t u : State} (h : OnlyDrained s t) (k : OnlyDrained t u) : OnlyDrained s u where
  frame := by
    have hframe := h.frame
    have kframe := k.frame
    rw [hframe] at kframe
    exact kframe
  ways := k.ways.trans h.ways

theorem onlyDrained_of_closed {s t : State} (h : OnlyClosed s t) : OnlyDrained s t := by
  have hframe := h.frame
  exact ⟨by rw [hframe], h.ways⟩

theorem onlyDrained_of_noted {s t : State} (h : OnlyNoted s t) : OnlyDrained s t := by
  unfold OnlyNoted at h
  exact ⟨by rw [h], by rw [h]⟩

theorem faultReset_drained (s : State) (n : Nat) (lines : List Nat) : OnlyDrained s (s.faultReset n lines) := by
  unfold State.faultReset
  split
  · exact onlyDrained_refl s
  · split
    · exact onlyDrained_of_closed (modSess_closed ..)
    · exact onlyDrained_trans (onlyDrained_of_closed (onlyClosed_trans (resetSession_closed ..) (modSess_closed ..)))
        (onlyDrained_of_noted (event_noted ..))

theorem onlyNoted_sess {s t : State} (h : OnlyNoted s t) (n : Nat) : t.sess n = s.sess n := by
  rw [h]
  rfl

theorem faultReset_state {s : State} {n : Nat} (lines : List Nat) (hfree : (s.sess n).state ≠ .free) (hdrain : (s.sess n).state ≠ .draining) :
    ((s.faultReset n lines).sess n).state = .sessionReset := by
  rw [State.faultReset, if_neg (by simp [hfree, hdrain])]
  split
  next hreset =>
    rw [modSess_sess]
    simpa using hreset
  next =>
    rw [State.sessionEvent, onlyNoted_sess (event_noted ..), modSess_sess]
    exact resetSession_state s n hfree hdrain

/-! ### Lines of the Electrum cache (Table 19-5) -/

theorem evict_ways (s : State) (v : Nat) : (s.evict v).ctx.lostWays = s.ctx.lostWays := by
  have hdir : ∀ (t : State) n, (t.writeDir n).ctx = t.ctx := fun t n => by
    unfold State.writeDir
    split <;> rfl
  have hhead : ∀ (t : State) n w, (t.writeHead n w).ctx = t.ctx := fun t n w => hdir ..
  have hset : ∀ (t : State) n ls, (t.setLines n ls).ctx.lostWays = t.ctx.lostWays := fun _ _ _ => rfl
  unfold State.evict
  dsimp only
  split
  · rw [hset, hhead]
  · rw [hset]

theorem allocLine_ways {s t : State} {n : Nat} {may : Nat → Bool} (h : s.allocLine n may = some t) : t.ctx.lostWays = s.ctx.lostWays := by
  unfold State.allocLine at h
  dsimp only at h
  split at h
  · cases h
    rfl
  · obtain ⟨v, -, hv⟩ := Option.map_eq_some_iff.1 h
    subst hv
    exact evict_ways s v

/-- A line that is lost, its way out of service, before the report. -/
def State.wayLost (s : State) (n : Nat) : State :=
  (s.dropLine n).modCtx fun c => { c with lostWays := tblMod 0 c.lostWays (n % 256) fun k => min 16 (k + 1) }

theorem wayLost_ways (s : State) (n : Nat) : tblGet 0 (s.wayLost n).ctx.lostWays (n % 256) = min 16 (tblGet 0 s.ctx.lostWays (n % 256) + 1) :=
  tblGet_tblMod_same (0 : Nat) s.ctx.lostWays (n % 256) fun k => min 16 (k + 1)

/-- The loss reported, with the code of a clean or a dirty line. -/
def State.headLost (s : State) (n code : Nat) : State :=
  (s.wayLost n).tookFree.report code 0xA1 (some (s.sess n).fn) (some n) (freeNow s 16).toNat 0 0

theorem headLost_frame (s : State) (n code : Nat) :
    s.headLost n code = { s with ctx := (s.wayLost n).ctx, fcl := (s.headLost n code).fcl, free := s.free + 1 } := rfl

theorem headLost_inbox (s : State) (n code : Nat) :
    ∃ r, (s.headLost n code).fcl.inbox = s.fcl.inbox ++ [r] ∧ r.code = code ∧ r.cls = s.reportClass code ∧ r.time = BitVec.ofNat 64 s.time :=
  ⟨_, rfl, rfl, rfl, rfl⟩

theorem exec_electrumLineError {s : State} (n : Nat) (hlive : s.live = true) : exec (.electrumLineError n) s = .next (electrumLineOp n s) := by
  have harm : exec (.electrumLineError n) s = execElectrumLineError n s := rfl
  rw [harm, execElectrumLineError, onlyIf, if_pos hlive]

theorem electrumLineOp_clean {s : State} {n : Nat} {l : CLine} (hline : (s.cacheSet n).find? (fun l => l.session == n) = some l)
    (hclean : l.dirty = false) :
    electrumLineOp n s = ((s.headLost n 0x01).allocLine n fun _ => true).getD (s.headLost n 0x01) := by
  simp only [electrumLineOp, hline, hclean, Bool.false_eq_true, if_false, State.headLost, State.wayLost]

theorem electrumLineOp_dirty {s : State} {n : Nat} {l : CLine} (hline : (s.cacheSet n).find? (fun l => l.session == n) = some l)
    (hdirty : l.dirty = true) : electrumLineOp n s = (s.headLost n 0x03).faultReset n [] := by
  simp only [electrumLineOp, hline, hdirty, if_true, State.headLost, State.wayLost]

/-- The line fetched again, or no line where all are pinned: nothing but heads and lines changes. -/
theorem refetched_head (s : State) (n : Nat) : OnlyHead s ((s.allocLine n fun _ => true).getD s)
    ∧ ((s.allocLine n fun _ => true).getD s).ctx.lostWays = s.ctx.lostWays := by
  cases h : s.allocLine n fun _ => true with
  | none => exact ⟨onlyHead_refl s, rfl⟩
  | some t => exact ⟨allocLine_head h, allocLine_ways h⟩

theorem report_fatal (s : State) (source : Nat) :
    ∃ r, (s.report 0x33 source none none source 0 0).fcl.inbox = s.fcl.inbox ++ [r] ∧ r.code = 0x33 ∧ r.cls = 2 := ⟨_, rfl, rfl, rfl⟩

/-- Settles O57: `enterSafe_halted` for the safe state, `dayEnded` for the windows, `pairStopped_stops` for a mismatch, and `headLost` with
`faultReset_drained` for the lines of the Electrum cache. -/
theorem safeStateAndFaults : Obligations.SafeStateAndFaults := by
  refine ⟨?parity, ?again, ?resume, ?day, ?hour, ?mismatch, ?fatal, ?restart, ?clean, ?dirty⟩
  case parity =>
    intro s hpower hin
    obtain ⟨hsafe, hcause, halive⟩ := enterSafe_fatal 3 hin
    obtain ⟨hhalves, hdsc, hdmv, hmem⟩ := enterSafe_halted 3 hin
    refine ⟨s.enterSafe 3, exec_fclParityError hpower, hsafe, hcause, halive, enterSafe_fifo s 3, enterSafe_inbox s 3, fun h => ?_,
      fun u hu => ?_, ?_, ?_, up_false_of_inSafe hsafe, enterSafe_stopped s 3⟩
    · have hhalf : (s.enterSafe 3).half h = s.haltAll.half h := congrArg (tblGet Half.init · h) hhalves
      rw [hhalf, haltAll_half_unit]
    · rw [hdsc, haltAll_units] at hu
      obtain ⟨w, -, rfl⟩ := List.mem_map.1 hu
      rfl
    · rw [hdmv, haltAll_slots]
    · rw [hmem, haltAll_cells]
  case again =>
    intro s hpower hin
    rw [exec_fclParityError hpower, State.enterSafe, if_pos hin]
  case resume =>
    intro s hup hanswers hstopped
    refine ⟨_, exec_aliveResume hup hanswers hstopped, ?_, ?_, settleAlert_tgtAlert .., ?_⟩
    · rw [settleAlert_eq]
      rfl
    · rw [settleAlert_eq]
      rfl
    · rw [settleAlert_eq]
      rfl
  case day =>
    intro s hup
    have hparts := dayEnded_parts s 128
    have hhalf : ∀ h, h < 128 → _ := fun h hh => dayEnded_half (n := 128) s hh
    have hrun := exec_policyWindowEnd false hup
    rw [policyWindowOp_day] at hrun
    generalize s.dayEnded 128 = t at hparts hhalf hrun
    refine ⟨t, hrun, hhalf, fun e n he => ?_, fun p n hp => ?_, ?_⟩
    · rw [hparts, he]
      exact halveTbl_one e n
    · rw [hparts, hp]
      exact halveTbl_one p n
    · rw [hparts]
  case hour =>
    intro a b s hup hcounts
    have hhalved : (s.modFcl fun f => { f with restarts := halveTbl f.restarts }).fcl.restarts = halveTbl [(0, a), (1, b)] := by
      rw [modFcl_fcl, hcounts]
    obtain ⟨ha, hb⟩ := halveTbl_two a b
    refine ⟨_, policyWindowOp_hour s ▸ exec_policyWindowEnd true hup, ?_, ?_, rfl⟩
    · rw [hhalved, ha]
    · rw [hhalved, hb]
  case mismatch =>
    intro p s hup hp hruns hcount hfenced
    obtain ⟨hfcl, hmailbox, hsems, hframe⟩ := pairStopped_stops s p
    have hmp : (s.mismatched p).fcl.mpFenced = s.fcl.mpFenced := by rw [mismatched_fenced, if_neg (by omega)]
    have hrun := exec_lockstepMismatch hup hp hruns
    rw [lockstepOp_stops, if_neg (by rw [hfcl, hmp]; simpa using hfenced)] at hrun
    refine ⟨_, hrun, ?_, ?_, ?_, ?_, hmailbox, hsems, hframe⟩
    · rw [hfcl, mismatched_restarts]
    · rw [hfcl]
      rfl
    · rw [hfcl, hmp]
    · unfold Records
      rw [hfcl]
      exact mismatched_inbox s p
  case fatal =>
    intro p s hup hp hruns hcount hfenced
    obtain ⟨hfcl, -, -, hframe⟩ := pairStopped_stops s p
    have hmp : (s.mismatched p).fcl.mpFenced = 3 := by rw [mismatched_fenced, if_pos hcount, hfenced]
    obtain ⟨a, hinbox, hcode, -, -⟩ := mismatched_inbox s p
    have hrun := exec_lockstepMismatch hup hp hruns
    rw [lockstepOp_stops, if_pos (by rw [hfcl, hmp]; rfl)] at hrun
    generalize s.pairStopped p = u at hfcl hframe hrun
    obtain ⟨b, hreport, hfatal, hclass⟩ := report_fatal u (0xA8 + p)
    refine ⟨_, hrun, ?_, ⟨a, b, ?_, hcode, hfatal, hclass⟩, ?_⟩
    · rw [State.report, modFcl_fcl, hfcl, hmp]
    · rw [hreport, hfcl, hinbox, List.append_assoc]
      rfl
    · rw [hframe]
      rfl
  case restart =>
    intro p s hup hp hfree
    rw [exec_firmwareRestartDone hup hp, restartDoneOp, if_neg (ne_true_of_eq_false hfree)]
    rfl
  case clean =>
    intro n l s hlive hline hclean
    obtain ⟨hhead, hways⟩ := refetched_head (s.headLost n 0x01) n
    obtain ⟨r, hinbox, hcode, hcls, htime⟩ := headLost_inbox s n 0x01
    have hlost := headLost_frame s n 0x01
    refine ⟨_, electrumLineOp_clean hline hclean ▸ exec_electrumLineError n hlive, ⟨r, ?_, hcode, hcls, htime⟩, ?_, ?_⟩
    · rw [hhead]
      exact hinbox
    · rw [hways]
      exact wayLost_ways s n
    · rw [hhead, hlost]
  case dirty =>
    intro n l s hlive hline hdirty hfree hdrain
    have hdrained := faultReset_drained (s.headLost n 0x03) n []
    have hframe := hdrained.frame
    have hlost := headLost_frame s n 0x03
    obtain ⟨r, hinbox, hcode, -, -⟩ := headLost_inbox s n 0x03
    have hstate := faultReset_state (s := s.headLost n 0x03) [] hfree hdrain
    refine ⟨_, electrumLineOp_dirty hline hdirty ▸ exec_electrumLineError n hlive, hstate, ⟨r, [], ?_, hcode⟩, ?_, ?_⟩
    · rw [hframe]
      exact hinbox
    · rw [hdrained.ways]
      exact wayLost_ways s n
    · generalize (s.headLost n 0x03).faultReset n [] = t at hframe ⊢
      rw [hlost] at hframe
      rw [hframe]

end Sys2Proof.Machine
end

section
/-! PROOFS. Reset inputs, supplies and references (R453, R499, R501 to R504), and what the boot steps keep (R460, R467). -/
namespace Sys2Proof.Machine

/-! ### What the boot steps keep -/

/-- What boot has found out and the boot steps before its end do not touch: what the ROM and the locked tables fix. -/
structure SameLocks (a b : Boot) : Prop where
  protLock : b.protLock = a.protLock
  regions : b.regions = a.regions
  functions : b.functions = a.functions
  fuses : b.fuses = a.fuses
  mode : b.mode = a.mode

theorem sameLocks_refl (a : Boot) : SameLocks a a := ⟨rfl, rfl, rfl, rfl, rfl⟩

theorem sameLocks_trans {a b c : Boot} (h : SameLocks a b) (k : SameLocks b c) : SameLocks a c :=
  ⟨k.protLock.trans h.protLock, k.regions.trans h.regions, k.functions.trans h.functions, k.fuses.trans h.fuses, k.mode.trans h.mode⟩

/-- Only what boot steps 1 to 4 touch has changed: what boot has found out, the halves, and the channels' training. -/
structure OnlyBooting (s t : State) : Prop where
  frame : t = { s with boot := t.boot, halves := t.halves, mem := { s.mem with chans := t.mem.chans, trained := t.mem.trained } }
  locks : SameLocks s.boot t.boot

theorem onlyBooting_refl (s : State) : OnlyBooting s s := ⟨rfl, sameLocks_refl _⟩

theorem onlyBooting_trans {s t u : State} (h : OnlyBooting s t) (k : OnlyBooting t u) : OnlyBooting s u where
  frame := by
    have hframe := h.frame
    have kframe := k.frame
    rw [hframe] at kframe
    exact kframe
  locks := sameLocks_trans h.locks k.locks

theorem forUpTo_booting {f : Nat → State → State} (n : Nat) (hf : ∀ k t, OnlyBooting t (f k t)) (s : State) : OnlyBooting s (forUpTo n f s) :=
  forUpTo_induct (P := OnlyBooting s) n (fun k t h => onlyBooting_trans h (hf k t)) s (onlyBooting_refl s)

theorem modBoot_booting (s : State) {f : Boot → Boot} (hf : SameLocks s.boot (f s.boot)) : OnlyBooting s (s.modBoot f) := ⟨rfl, hf⟩

theorem forUpTo_boot {f : Nat → State → State} (n : Nat) (hf : ∀ k t, (f k t).boot = t.boot) (s : State) : (forUpTo n f s).boot = s.boot := by
  induction n with
  | zero => rfl
  | succ n ih => rw [forUpTo, hf, ih]

theorem modTrained_booting (s : State) (x : Option (Nat × Nat × Nat × Nat)) : OnlyBooting s (s.modMem fun m => { m with trained := x }) :=
  ⟨rfl, sameLocks_refl _⟩

theorem modHalf_booting (s : State) (h : Nat) (f : Half → Half) : OnlyBooting s (s.modHalf h f) := ⟨rfl, sameLocks_refl _⟩

theorem modChn_booting (s : State) (k : Nat) (f : Chn → Chn) : OnlyBooting s (s.modChn k f) := ⟨rfl, sameLocks_refl _⟩

theorem allHalves_booting (s : State) (f : Half → Half) : OnlyBooting s (s.allHalves f) := by
  unfold State.allHalves
  exact forUpTo_booting 128 (fun h t => modHalf_booting t h f) s

theorem allHalves_boot (s : State) (f : Half → Half) : (s.allHalves f).boot = s.boot := by
  rw [State.allHalves, forUpTo_boot]
  exact fun _ _ => rfl

theorem bootFails_booting (s : State) (reason offset : Nat) : OnlyBooting s (s.bootFails reason offset) :=
  modBoot_booting s ⟨rfl, rfl, rfl, rfl, rfl⟩

theorem runsFw_booting (s : State) (c : FwCopy) (copy : Bool) : OnlyBooting s (s.runsFw c copy) := modBoot_booting s ⟨rfl, rfl, rfl, rfl, rfl⟩

theorem loadsPatch_booting (s : State) (raw : Option (List Byte)) : OnlyBooting s (s.loadsPatch raw) := by
  unfold State.loadsPatch
  dsimp only
  refine onlyBooting_trans (allHalves_booting ..) (modBoot_booting _ ?_)
  split <;> exact ⟨rfl, rfl, rfl, rfl, rfl⟩

theorem fillsStore_booting (s : State) (a : List Word) (b : List (BitVec 192)) (c : List (BitVec 13)) : OnlyBooting s (s.fillsStore a b c) := by
  unfold State.fillsStore
  exact allHalves_booting ..

theorem fillsStore_boot (s : State) (a : List Word) (b : List (BitVec 192)) (c : List (BitVec 13)) : (s.fillsStore a b c).boot = s.boot := by
  unfold State.fillsStore
  exact allHalves_boot ..

theorem loadsStore_booting (s : State) (f : Flash) : OnlyBooting s (s.loadsStore f) :=
  onlyBooting_trans (fillsStore_booting ..) (modBoot_booting _ ⟨rfl, rfl, rfl, rfl, rfl⟩)

theorem trains_booting (s : State) (ds : List Dimm) : OnlyBooting s (s.trains ds) := by
  unfold State.trains
  exact forUpTo_booting 16 (fun k t => modChn_booting t k _) s

theorem trains_boot (s : State) (ds : List Dimm) : (s.trains ds).boot = s.boot := by
  rw [State.trains, forUpTo_boot]
  exact fun _ _ => rfl

theorem loadsPatch_reason (s : State) (raw : Option (List Byte)) : (s.loadsPatch raw).boot.reason = s.boot.reason := by
  unfold State.loadsPatch
  dsimp only
  rw [modBoot_boot]
  split
  · rw [allHalves_boot]
  · rw [allHalves_boot]

theorem loadsStore_reason (s : State) (f : Flash) : (s.loadsStore f).boot.reason = s.boot.reason := by
  unfold State.loadsStore
  rw [modBoot_boot]
  rw [fillsStore_boot]

/-! ### What boot asks of the image that it takes -/

/-- An image comes into force only in a population that trains and with the locked tables (Table 20-3, R462, R467). -/
def Permits (s t : State) (b : Board) : Prop :=
  ∀ i, t.boot.image = some i → populationOk b.dimms = true ∧ (∀ d ∈ b.dimms, d.trains = true) ∧ s.rebuilds i = true ∧ t.boot.reason = 0

theorem permits_of_none {s t : State} (b : Board) (h : t.boot.image = none) : Permits s t b := fun i hi => by rw [h] at hi; cases hi

theorem rebuilds_booting {s t : State} (h : OnlyBooting s t) (i : Image) : t.rebuilds i = s.rebuilds i := by
  obtain ⟨hlock, hregions, hfunctions, -, -⟩ := h.locks
  simp only [State.rebuilds, hlock, hregions, hfunctions]

theorem checkCopy_rebuilds {s : State} {d : Dimm} {raw : List Byte} {i : Image} (h : s.checkCopy d raw = .inr i) : s.rebuilds i = true := by
  unfold State.checkCopy at h
  split at h
  · cases h
  · split at h
    · cases h
    · split at h
      · cases h
        assumption
      · cases h

theorem copyChecked_rebuilds {s : State} {d : Dimm} {c : Option (List Byte)} {i : Image}
    (h : (c.map fun b => s.checkCopy d b) = some (.inr i)) : s.rebuilds i = true := by
  obtain ⟨raw, -, hraw⟩ := Option.map_eq_some_iff.1 h
  exact checkCopy_rebuilds hraw

theorem chooseImage_rebuilds {s : State} {d : Dimm} {f : Flash} {i : Image} {copy : Bool} (h : s.chooseImage d f = .inr (i, copy)) :
    s.rebuilds i = true := by
  unfold State.chooseImage at h
  split at h
  · cases h
  · dsimp only at h
    split at h
    next hfirst =>
      cases h
      exact copyChecked_rebuilds hfirst
    next =>
      split at h
      next hsecond =>
        cases h
        exact copyChecked_rebuilds hsecond
      next => cases h
      next =>
        split at h
        · cases h
        · cases h

/-- What the boot steps do: they keep what is locked, and take an image only where boot permits it. -/
structure BootRuns (s t : State) (b : Board) : Prop where
  only : OnlyBooting s t
  permits : s.boot.reason = 0 → Permits s t b

theorem bootFails_runs {s t : State} (b : Board) (h : OnlyBooting s t) (reason offset : Nat) : BootRuns s (t.bootFails reason offset) b :=
  ⟨onlyBooting_trans h (bootFails_booting ..), fun _ => permits_of_none b rfl⟩

theorem bootMemory_runs {s t : State} (b : Board) (f : Flash) (h : OnlyBooting s t) (hreason : t.boot.reason = s.boot.reason) :
    BootRuns s (t.bootMemory b f) b := by
  unfold State.bootMemory
  split
  · exact bootFails_runs b h ..
  next d ds hdimms =>
    split
    · exact bootFails_runs b h ..
    next hpop =>
      have htrains := onlyBooting_trans h (trains_booting t b.dimms)
      dsimp only
      split
      · exact bootFails_runs b htrains ..
      next hall =>
        have hu : OnlyBooting s (((t.trains b.dimms).modBoot fun o => { o with step := 3 }).modMem fun m =>
            { m with trained := some (d.width, d.density, d.ranks, commonRate b.dimms) }) :=
          onlyBooting_trans (onlyBooting_trans htrains (modBoot_booting _ ⟨rfl, rfl, rfl, rfl, rfl⟩)) (modTrained_booting ..)
        split
        · exact bootFails_runs b hu ..
        next i copy himage =>
          refine ⟨onlyBooting_trans (onlyBooting_trans hu (modBoot_booting _ ⟨rfl, rfl, rfl, rfl, rfl⟩)) (modTrained_booting ..), fun h0 j hj => ?_⟩
          obtain rfl := Option.some.inj hj
          refine ⟨by simpa using hpop, by simpa using hall, ?_, ?_⟩
          · rw [← rebuilds_booting hu]
            exact chooseImage_rebuilds himage
          · simp only [modMem_boot, modBoot_boot, trains_boot]
            exact hreason.trans h0

theorem testMode_runs (s : State) (b : Board) (h : s.boot.image = none) : BootRuns s (s.testMode b.jtag) b :=
  ⟨fillsStore_booting .., fun _ => permits_of_none b ((congrArg Boot.image (fillsStore_boot ..)).trans h)⟩

theorem bootSteps_runs {s : State} (b : Board) (h : s.boot.image = none) : BootRuns s (s.bootSteps b) b := by
  have hfails : ∀ r o, BootRuns s (s.bootFails r o) b := bootFails_runs b (onlyBooting_refl s)
  unfold State.bootSteps
  dsimp only
  split
  · exact testMode_runs s b h
  · split
    · exact hfails ..
    next f _ =>
      split
      · split
        · exact hfails ..
        next c copy _ =>
          refine bootMemory_runs b f (onlyBooting_trans (runsFw_booting ..) (loadsPatch_booting ..)) ?_
          exact loadsPatch_reason ..
      · split
        · split
          · exact hfails ..
          next c _ =>
            refine bootMemory_runs b f (onlyBooting_trans (runsFw_booting ..) (loadsStore_booting ..)) ?_
            exact loadsStore_reason ..
        · exact hfails ..

/-- Straps 2 to 6 name no boot source: boot ends without an image (Table 20-1). -/
theorem bootSteps_strapped {s : State} (b : Board) (h : s.boot.mode.toNat ∈ [2, 3, 4, 5, 6]) : s.bootSteps b = s.bootFails 0x14 0 := by
  have hnot : ∀ m, m ∉ [2, 3, 4, 5, 6] → ∀ x : BitVec 3, x.toNat = m → (s.boot.mode == x) = false := fun m hm x hx => by
    rw [beq_eq_false_iff_ne]
    rintro heq
    rw [heq, hx] at h
    exact hm h
  have h0 := hnot 0 (by decide) 0 rfl
  have h1 := hnot 1 (by decide) 1 rfl
  have h7 := hnot 7 (by decide) 7 rfl
  simp only [State.bootSteps, h0, h1, h7, Bool.false_and, Bool.false_eq_true, if_false, Bool.or_self]
  split <;> rfl

/-! ### PERST#, PWRGOOD and the supplies -/

/-- The device as boot begins: its straps sampled, DEV_TIME at 0, ALIVE toggling, PF0 there. -/
def State.bootBegun (s : State) (b : Board) : State :=
  let t := s.atPerst
  let u := { t with
    pins := { t.pins with perst := false, alive := true }
    boot := { t.boot with mode := b.straps, flash := s.boot.flash.or b.flash, nonce := freeNow s 64 }
    funcs := tblSet Func.init [] 0 { Func.init with isThere := true, roEn := true, acs := some false } }
  u.tookFree

theorem bootOp_steps (b : Board) (s : State) : bootOp b s = ((s.bootBegun b).bootSteps b).settleAlert := rfl

/-- What the beginning of boot keeps of the state, and what it sets. -/
structure BootBegins (s t : State) (b : Board) : Prop where
  pins : t.pins.perst = false ∧ t.pins.alive = true
  func : t.func 0 = { Func.init with isThere := true, roEn := true, acs := some false }
  fresh : t.time = 0 ∧ t.queues = [] ∧ t.sessions = [] ∧ t.boot.mode = b.straps ∧ t.boot.image = none ∧ t.boot.reason = 0
  fcl : t.fcl.inSafe = false ∧ t.fcl.fifo = s.fcl.fifo ∧ t.fcl.first = s.fcl.first ∧ t.fcl.safe = s.fcl.safe
  locks : t.boot.protLock = s.boot.protLock ∧ t.boot.regions = s.boot.regions ∧ t.boot.functions = s.boot.functions
    ∧ t.boot.fuses = s.boot.fuses
  cells : t.mem.cells = s.mem.cells
  pending : t.pending = s.pending

theorem bootBegun_begins (s : State) (b : Board) : BootBegins s (s.bootBegun b) b :=
  ⟨⟨rfl, rfl⟩, rfl, ⟨rfl, rfl, rfl, rfl, rfl, rfl⟩, ⟨rfl, rfl, rfl, rfl⟩, ⟨rfl, rfl, rfl, rfl⟩, rfl, rfl⟩

theorem bootOp_booted (b : Board) (s : State) : booted s (bootOp b s) b := by
  have hbegins := bootBegun_begins s b
  rw [bootOp_steps]
  generalize s.bootBegun b = u at hbegins ⊢
  obtain ⟨⟨hperst, halive⟩, hfunc, ⟨htime, hqueues, hsessions, hmode, himage, hreason⟩, ⟨hsafe, hfifo, hfirst, hcause⟩,
    ⟨hlock, hregions, hfunctions, hfuses⟩, hcells, hpending⟩ := hbegins
  have hruns := bootSteps_runs b himage
  have hstraps : b.straps.toNat ∈ [2, 3, 4, 5, 6] → (u.bootSteps b).boot.image = none ∧ (u.bootSteps b).boot.reason = 0x14 := fun h => by
    rw [bootSteps_strapped b (hmode ▸ h)]
    exact ⟨rfl, rfl⟩
  obtain ⟨⟨hframe, hlocks⟩, hpermits⟩ := hruns
  generalize u.bootSteps b = t at hstraps hframe hlocks hpermits ⊢
  obtain ⟨kprot, kregions, -, kfuses, kmode⟩ := hlocks
  have hrebuilds : ∀ i, u.rebuilds i = s.rebuilds i := fun i => by simp only [State.rebuilds, hlock, hregions, hfunctions]
  have hthere : (t.func 0).isThere = true ∧ (t.func 0).ready = false := by
    have hf : t.func 0 = u.func 0 := by
      rw [hframe]
      rfl
    rw [hf, hfunc]
    exact ⟨rfl, rfl⟩
  unfold booted
  rw [settleAlert_eq]
  refine ⟨?_, ?_, kmode.trans hmode, ?_, hthere.1, hthere.2, ?_, ?_, ?_, ?_, kprot.trans hlock, kregions.trans hregions, kfuses.trans hfuses,
    ?_, ?_, ?_, ?_, fun i hi => ?_, hstraps⟩
  · rw [hframe]; exact hperst
  · rw [hframe]; exact halive
  · rw [hframe]; exact htime
  · rw [hframe]; exact hsafe
  · rw [hframe]; exact hfifo
  · rw [hframe]; exact hfirst
  · rw [hframe]; exact hcause
  · rw [hframe]; exact hcells
  · rw [hframe]; exact hqueues
  · rw [hframe]; exact hsessions
  · rw [hframe]; exact hpending
  · obtain ⟨hpop, htrains, hbuilt, hclear⟩ := hpermits hreason i hi
    exact ⟨hpop, htrains, (hrebuilds i) ▸ hbuilt, hclear⟩

theorem exec_perstAssert {s : State} (hperst : s.pins.perst = false) (hpower : s.pins.pwrgood = true) :
    exec .perstAssert s = .next s.atPerst.settleAlert := by
  have harm : exec .perstAssert s = execPerstAssert s := rfl
  rw [harm, execPerstAssert, if_neg (by simp [hperst]), if_pos hpower, perstOp]

theorem exec_perstDeassert {s : State} (b : Board) (hperst : s.pins.perst = true) :
    exec (.perstDeassert b) s = .next (perstDeassertOp b s) := by
  have harm : exec (.perstDeassert b) s = execPerstDeassert b s := rfl
  rw [harm, execPerstDeassert, onlyIf, if_pos hperst]

theorem exec_pwrgoodSettleTime {s : State} (b : Board) (hpower : s.pins.pwrgood = true) (hsettled : s.pins.settled = false) :
    exec (.pwrgoodSettleTime b) s = .next (settleTimeOp b s) := by
  have harm : exec (.pwrgoodSettleTime b) s = execPwrgoodSettleTime b s := rfl
  rw [harm, execPwrgoodSettleTime, onlyIf, if_pos (by simp [hpower, hsettled])]

/-- What PERST# leaves at its reset value, and what it keeps (R436, R453, R501). -/
structure PerstKeeps (s t : State) : Prop where
  pins : t.pins = { s.pins with perst := true, alive := false }
  stopped : t.queues = [] ∧ t.sessions = [] ∧ t.dsc.units = [] ∧ t.funcs = [] ∧ t.hlu.up = false ∧ t.boot.image = none
  boot : t.boot.protLock = s.boot.protLock ∧ t.boot.regions = s.boot.regions
  fcl : t.fcl.fifo = s.fcl.fifo ∧ t.fcl.first = s.fcl.first ∧ t.fcl.count = s.fcl.count ∧ t.fcl.safe = s.fcl.safe
  cells : t.mem.cells = s.mem.cells
  pending : t.pending = s.pending

theorem atPerst_keeps (s : State) : PerstKeeps s s.atPerst :=
  ⟨rfl, ⟨rfl, rfl, rfl, rfl, rfl, rfl⟩, ⟨rfl, rfl⟩, ⟨rfl, rfl, rfl, rfl⟩, rfl, rfl⟩

/-- A core's accumulated stress, which every reset but the removal of power keeps (R90). -/
def keepStress (s : State) (k : Nat) (t : Tbl Core) : Tbl Core := tblMod Core.init t k fun c => { c with stress := (s.core k).stress }

theorem keepStress_at (s : State) {k n : Nat} (h : k < n) : (tblGet Core.init (forUpTo n (keepStress s) []) k).stress = (s.core k).stress := by
  induction n with
  | zero => omega
  | succ n ih =>
    rw [forUpTo, keepStress]
    by_cases hk : k = n
    · subst hk
      rw [tblGet_tblMod_same]
    · rw [tblGet_tblMod_other _ _ _ _ _ (Ne.symm hk)]
      exact ih (by omega)

theorem atCold_cores (s : State) : s.atCold.cores = forUpTo 64 (keepStress s) [] := by
  unfold State.atCold keepStress
  dsimp only

theorem atCold_frame (s : State) :
    s.atCold = { State.reset with pending := s.pending, free := s.free, out := s.out, pins := s.atCold.pins, boot := s.atCold.boot,
                                  cores := s.atCold.cores } := by
  unfold State.atCold
  dsimp only

theorem atCold_stress (s : State) {k : Nat} (h : k < 64) : (s.atCold.core k).stress = (s.core k).stress := by
  have hcore : s.atCold.core k = tblGet Core.init s.atCold.cores k := rfl
  rw [hcore, atCold_cores, keepStress_at s h]

theorem exec_cold {s : State} {r : Rail} {ns xs : Nat} (hpower : s.pins.pwrgood = true) (hns : 5000 < ns) (hxs : 2000 ≤ xs) :
    ∀ c ∈ [Instr.pwrgoodFall, .railUndervoltage r ns, .xtalLoss xs], exec c s = .next s.atCold := by
  have hfall : exec .pwrgoodFall s = execPwrgoodFall s := rfl
  have hrail : exec (.railUndervoltage r ns) s = execRailUndervoltage r ns s := rfl
  have hxtal : exec (.xtalLoss xs) s = execXtalLoss xs s := rfl
  intro c hc
  simp only [List.mem_cons, List.not_mem_nil, or_false] at hc
  rcases hc with rfl | rfl | rfl
  · rw [hfall, execPwrgoodFall, onlyIf, if_pos hpower, coldOp]
  · rw [hrail, execRailUndervoltage, onlyIf, if_pos (by simp [hpower, hns]), railOp]
  · rw [hxtal, execXtalLoss, onlyIf, if_pos (by simp [hpower, hxs]), xtalOp]

/-- Settles O53: `atPerst_keeps` for PERST#, `bootOp_booted` for its deassertion, `atCold` for the supplies and the reference. -/
theorem resetInputs : Obligations.ResetInputs := by
  refine ⟨?perst, ?dark, ?boots, ?early, ?rise, ?held, ?settles, ?cold, ?dip⟩
  case perst =>
    intro s hperst hpower
    obtain ⟨hpins, ⟨hqueues, hsessions, hunits, hfuncs, hlink, himage⟩, ⟨hlock, hregions⟩, ⟨hfifo, hfirst, hcount, hcause⟩, hcells, hpending⟩ :=
      atPerst_keeps s
    refine ⟨_, exec_perstAssert hperst hpower, ?_⟩
    generalize s.atPerst = t at *
    have hasserted : t.pins.perst = true := by rw [hpins]
    rw [settleAlert_eq]
    refine ⟨hasserted, by rw [hpins], ?_, hqueues, hsessions, hunits, hfuncs, hlink, himage, hlock, hregions, hfifo, hfirst, hcount, hcause,
      hcells, hpending⟩
    simp [State.running, hasserted]
  case dark =>
    intro s hperst hpower
    have harm : exec .perstAssert s = execPerstAssert s := rfl
    rw [harm, execPerstAssert, if_neg (by simp [hperst]), if_neg (by simp [hpower])]
    rfl
  case boots =>
    intro b s hperst hpower hsettled
    refine ⟨_, exec_perstDeassert b hperst, ?_⟩
    rw [perstDeassertOp, if_pos (by simp [hpower, hsettled])]
    exact bootOp_booted b s
  case early =>
    intro b s hperst hpower hsettled
    rw [exec_perstDeassert b hperst, perstDeassertOp, if_neg (by simp [hsettled])]
    rfl
  case rise =>
    intro s hpower
    have harm : exec .pwrgoodRise s = execPwrgoodRise s := rfl
    rw [harm, execPwrgoodRise, onlyIf, if_pos (by simp [hpower]), pwrgoodRiseOp]
  case held =>
    intro b s hpower hsettled hperst
    rw [exec_pwrgoodSettleTime b hpower hsettled, settleTimeOp, if_pos hperst]
  case settles =>
    intro b s hpower hsettled hperst
    refine ⟨_, exec_pwrgoodSettleTime b hpower hsettled, ?_⟩
    rw [settleTimeOp, if_neg (by simp [hperst])]
    exact bootOp_booted b { s with aon := max s.aon 2000000, pins := { s.pins with settled := true } }
  case cold =>
    intro r ns xs s hpower hns hxs c hc
    exact ⟨_, exec_cold hpower hns hxs c hc, rfl, rfl, fun k hk => atCold_stress s hk, atCold_frame s⟩
  case dip =>
    intro r ns s hns
    have harm : exec (.railUndervoltage r ns) s = execRailUndervoltage r ns s := rfl
    have hdip : ¬ 5000 < ns := by omega
    simp [harm, execRailUndervoltage, onlyIf, hdip]

end Sys2Proof.Machine
end

section
/-! PROOFS. Boot's end, the watchdog and the anti-rollback counts (R370, R458, R460 to R462). -/
namespace Sys2Proof.Machine

/-! ### Boot's end -/

theorem modBoot_func (s : State) (f : Boot → Boot) (k : Nat) : (s.modBoot f).func k = s.func k := rfl

theorem modBoot_half (s : State) (f : Boot → Boot) (h : Nat) : (s.modBoot f).half h = s.half h := rfl

/-- Only what the tables of an image touch has changed. -/
def OnlyTables (s t : State) : Prop := t = { s with boot := t.boot, dsc := t.dsc, mem := t.mem }

theorem onlyTables_trans {s t u : State} (h : OnlyTables s t) (k : OnlyTables t u) : OnlyTables s u := by
  unfold OnlyTables at *
  rw [k, h]

theorem applyRecords_mem (s : State) : s.applyRecords = { s with mem := s.applyRecords.mem } := by
  unfold State.applyRecords
  split
  · refine forEach_induct (P := fun t => t = { s with mem := t.mem }) _ (fun r _ t h => ?_) s rfl
    rw [h]
    rfl
  · rfl

/-- The protection tables of an image locked, before the session directory is cleared (R460). -/
def State.tablesLocked (s : State) (i : Image) : State :=
  s.applyRecords.modBoot fun b =>
    if b.protLock then { b with step := 5 } else { b with step := 5, regions := i.regions, functions := i.fns.length, protLock := true }

theorem lockTables_locked (s : State) (i : Image) : s.lockTables i = { s.tablesLocked i with mem := (s.lockTables i).mem } := rfl

theorem tablesLocked_tables (s : State) (i : Image) : OnlyTables s (s.tablesLocked i) := by
  unfold OnlyTables State.tablesLocked
  rw [applyRecords_mem]
  rfl

theorem tablesLocked_boot (s : State) (i : Image) :
    (s.tablesLocked i).boot = if s.boot.protLock then { s.boot with step := 5 }
      else { s.boot with step := 5, regions := i.regions, functions := i.fns.length, protLock := true } := by
  unfold State.tablesLocked
  rw [applyRecords_mem]
  rfl

theorem lockTables_tables (s : State) (i : Image) : OnlyTables s (s.lockTables i) := by
  have h := tablesLocked_tables s i
  unfold OnlyTables at *
  rw [lockTables_locked, h]

theorem lockTables_boot (s : State) (i : Image) : (s.lockTables i).boot = (s.tablesLocked i).boot := rfl

theorem loadScheduler_tables (s : State) (i : Image) : OnlyTables s (s.loadScheduler i) := rfl

theorem loadScheduler_boot (s : State) (i : Image) : (s.loadScheduler i).boot = s.boot := rfl

/-- Every half changed by a function of its number. -/
theorem halvesMod_half (f : Nat → Half → Half) (s : State) (n k : Nat) :
    (forUpTo n (fun h v => v.modHalf h (f h)) s).half k = if k < n then f k (s.half k) else s.half k := by
  induction n with
  | zero => simp [forUpTo]
  | succ n ih =>
    rw [forUpTo]
    by_cases hk : k = n
    · subst hk
      rw [modHalf_half, ih, if_neg (by omega), if_pos (by omega)]
    · rw [modHalf_half_other _ _ _ _ (Ne.symm hk), ih]
      have hlt : k < n + 1 ↔ k < n := by omega
      simp only [hlt]

theorem halvesMod_frame (f : Nat → Half → Half) (s : State) (n : Nat) :
    forUpTo n (fun h v => v.modHalf h (f h)) s = { s with halves := (forUpTo n (fun h v => v.modHalf h (f h)) s).halves } := by
  refine forUpTo_induct (P := fun t => t = { s with halves := t.halves }) n (fun k t h => ?_) s rfl
  rw [h]
  rfl

/-- The halves of an image's clusters as boot leaves them. -/
def State.halvesBooted (s : State) (i : Image) : State := forUpTo 128 (fun h v => v.modHalf h (bootHalf (i.clusterEn.getLsbD (h / 16)))) s

theorem halvesBooted_half (s : State) (i : Image) {h : Nat} (hh : h < 128) :
    (s.halvesBooted i).half h = bootHalf (i.clusterEn.getLsbD (h / 16)) (s.half h) := by
  rw [State.halvesBooted, halvesMod_half fun h => bootHalf (i.clusterEn.getLsbD (h / 16)), if_pos hh]

theorem halvesBooted_frame (s : State) (i : Image) : s.halvesBooted i = { s with halves := (s.halvesBooted i).halves } := by
  rw [State.halvesBooted]
  exact halvesMod_frame (fun h => bootHalf (i.clusterEn.getLsbD (h / 16))) s 128

/-- PF0 ready, before Device Readiness Status goes out. -/
def State.pf0Ready (s : State) : State :=
  (s.modFunc 0 fun f => { f with isThere := true, ready := true }).modBoot fun b =>
    { b with burnAllowed := true, bootTime := BitVec.ofNat 32 (s.time / 1000) }

theorem tellHost_linked (s : State) (o : Out) :
    s.tellHost o = { s with hlu := (s.tellHost o).hlu, out := s.out ++ (if s.linkPasses then [o] else []) } := by
  unfold State.tellHost
  split
  · rfl
  · rw [List.append_nil]

/-- What PF0's readiness touches: its record, boot's, and what goes out. -/
structure Readies (s t : State) : Prop where
  ready : (t.func 0).ready = true
  boot : t.boot = { s.boot with burnAllowed := true, bootTime := t.boot.bootTime }
  out : t.out = s.out ++ (if s.linkPasses then [.drs] else [])
  frame : t = { s with boot := t.boot, funcs := t.funcs, hlu := t.hlu, out := t.out }

theorem becomesReady_readies (s : State) : Readies s s.becomesReady := by
  have hready : (s.pf0Ready.func 0).ready = true := by
    rw [State.pf0Ready, modBoot_func, modFunc_func]
  have hto : s.becomesReady = s.pf0Ready.tellHost .drs := rfl
  have hlink : s.pf0Ready.linkPasses = s.linkPasses := rfl
  rw [hto, tellHost_linked, hlink]
  exact ⟨hready, rfl, rfl, rfl⟩

theorem exec_bootComplete {s : State} (hrun : s.running = true) (hready : (s.func 0).ready = false) (hstep : s.boot.step ≠ 6) :
    exec .bootComplete s = .next (bootCompleteOp s) := by
  have harm : exec .bootComplete s = execBootComplete s := rfl
  rw [harm, execBootComplete, onlyIf, if_pos (by simp [hrun, hready, hstep])]

/-- Step 6 of boot with the tables of its image in force. -/
def State.imageBooted (s : State) (i : Image) : State := (((s.lockTables i).loadScheduler i).halvesBooted i).modBoot fun b => { b with step := 6 }

theorem bootCompleteOp_image {s : State} {i : Image} (hsafe : s.fcl.inSafe = false) (himage : s.boot.image = some i) :
    bootCompleteOp s = (s.imageBooted i).becomesReady := by
  rw [bootCompleteOp, if_neg (by simp [hsafe]), himage, State.imageBooted, State.halvesBooted]

theorem bootCompleteOp_none {s : State} (hsafe : s.fcl.inSafe = false) (himage : s.boot.image = none) :
    bootCompleteOp s = (s.modBoot fun b => { b with step := 6 }).becomesReady := by
  rw [bootCompleteOp, if_neg (by simp [hsafe]), himage]

/-- The state with the image's tables and its scheduler, the halves as they were. -/
def State.tablesLoaded (s : State) (i : Image) : State := (s.lockTables i).loadScheduler i

theorem tablesLoaded_tables (s : State) (i : Image) : OnlyTables s (s.tablesLoaded i) :=
  onlyTables_trans (lockTables_tables s i) (loadScheduler_tables (s.lockTables i) i)

theorem tablesLoaded_boot (s : State) (i : Image) : (s.tablesLoaded i).boot = (s.tablesLocked i).boot :=
  (loadScheduler_boot (s.lockTables i) i).trans (lockTables_boot s i)

/-- What boot with an image leaves before PF0 is ready. -/
structure ImageBoots (s t : State) (i : Image) : Prop where
  boot : t.boot = { (s.tablesLocked i).boot with step := 6 }
  half : ∀ h, h < 128 → t.half h = bootHalf (i.clusterEn.getLsbD (h / 16)) (s.half h)
  frame : t = { s with boot := t.boot, dsc := t.dsc, halves := t.halves, mem := t.mem }

theorem imageBooted_boots (s : State) (i : Image) : ImageBoots s (s.imageBooted i) i := by
  have htables := tablesLoaded_tables s i
  have hboot := tablesLoaded_boot s i
  have hframe := halvesBooted_frame (s.tablesLoaded i) i
  have hhalf : ∀ h, h < 128 → _ := fun h hh => halvesBooted_half (s.tablesLoaded i) i hh
  have hto : s.imageBooted i = ((s.tablesLoaded i).halvesBooted i).modBoot fun b => { b with step := 6 } := rfl
  rw [hto]
  generalize s.tablesLoaded i = u at *
  generalize u.halvesBooted i = v at *
  unfold OnlyTables at htables
  refine ⟨?_, fun h hh => ?_, ?_⟩
  · rw [modBoot_boot, hframe]
    exact congrArg (fun b : Boot => { b with step := 6 }) hboot
  · have hu : u.half h = s.half h := by
      rw [htables]
      rfl
    rw [modBoot_half, hhalf h hh, hu]
  · rw [hframe, htables]
    rfl

theorem bootHalf_enabled {h : Half} (hpatch : h.patchStatus < 2) : (bootHalf true h).fstate = .active := by
  rw [bootHalf, if_neg (by simp), if_pos hpatch]

theorem bootHalf_disabled (h : Half) : (bootHalf false h).fstate = .disabled := by
  rw [bootHalf, if_pos (by simp)]

/-! ### The watchdog and the fuses -/

theorem exec_bootTimeout {s : State} (hup : s.up = true) (hlock : s.boot.protLock = false) (hstep : s.boot.step < 5)
    (hready : (s.func 0).ready = false) (himage : s.boot.image.isSome = true) :
    exec .bootTimeout s = .next ((s.reach 1400000000).bootFails 0x13 0) := by
  have harm : exec .bootTimeout s = execBootTimeout s := rfl
  rw [harm, execBootTimeout, onlyIf, if_pos (by simp [hup, hlock, hstep, hready, himage]), bootTimeoutOp]

theorem exec_arbBurn {s : State} {k : ArbKind} (hup : s.up = true) (hburn : s.boot.burnAllowed = true)
    (hlevel : arbCount s.boot.fuses k < s.arbLevel k) :
    exec (.arbBurn k) s = .next (s.modBoot fun b => { b with fuses := burnOne k b.fuses }) := by
  have harm : exec (.arbBurn k) s = execArbBurn k s := rfl
  rw [harm, execArbBurn, onlyIf, if_pos (by simp [hup, hburn, hlevel]), arbBurnOp]

theorem arbCount_burnt (k : ArbKind) (f : Fuses) : arbCount (burnOne k f) k = arbCount f k + 1 := by
  cases k with
  | fw => rfl
  | patch => rfl
  | image => rfl

theorem arbCount_others {j k : ArbKind} (f : Fuses) (h : j ≠ k) : arbCount (burnOne k f) j = arbCount f j := by
  cases k with
  | fw => cases j with
    | fw => exact absurd rfl h
    | patch => rfl
    | image => rfl
  | patch => cases j with
    | fw => rfl
    | patch => exact absurd rfl h
    | image => rfl
  | image => cases j with
    | fw => rfl
    | patch => rfl
    | image => exact absurd rfl h

end Sys2Proof.Machine
end

section
/-! PROOFS. The firmware's requests (R459, R463 to R465), and the statement about boot's end and the firmware. -/
namespace Sys2Proof.Machine

/-! ### The answer to a request (R464) -/

theorem setLevel_out (s : State) (n : Nat) (l : Bool) : s.out <+: (s.setLevel n l).out := by
  unfold State.setLevel
  dsimp only
  split
  · exact assertSource_out (s.modSrc n fun c => { c with level := l }) n
  · exact List.prefix_rfl

theorem settleMbx_out (s : State) (d : MbxSide) : s.out <+: (s.settleMbx d).out := by
  unfold State.settleMbx
  split
  · exact setLevel_out ..
  · exact List.prefix_rfl

/-- The request consumed, and the response written over its block. -/
def State.requestTaken (s : State) (b : FwBlock) (resp : List Byte) : State :=
  (s.modMbx 0 (consume (BitVec.twoPow 32 b.slot))).emitFor 0 (.hostWrite 0 (s.reqAddr b.slot) resp false)

/-- The reply's slot: ADDR and LENGTH of the request, and its TYPE with bit 15 set. -/
def replySlot (s : State) (k : Nat) (old : Tbl Word) : Tbl Word :=
  tblSet 0 (tblSet 0 (tblSet 0 (tblSet 0 old (4 * k) (BitVec.ofNat 32 (s.reqWord k 0))) (4 * k + 1) (BitVec.ofNat 32 (s.reqWord k 1)))
    (4 * k + 2) (BitVec.ofNat 32 (fld (s.reqWord k 2) 0 24 ||| 0x8000))) (4 * k + 3) (BitVec.ofNat 32 (s.reqWord k 3))

/-- The firmware's mailbox with the reply posted. -/
def replyPosted (s : State) (now k : Nat) (m : Mbx) : Mbx := setBit now m.gen k { m with slots := replySlot s k m.slots }

theorem fwReply_posts (s : State) (b : FwBlock) (resp : List Byte) :
    s.fwReply b resp
      = ((s.requestTaken b resp).modMbx 128 (replyPosted s (s.requestTaken b resp).time b.slot)).settleMbx .pf0 := rfl

/-- Only what something sent for a function touches has changed. -/
def OnlySentFor (s t : State) : Prop := t = { s with funcs := t.funcs, hlu := t.hlu, out := t.out }

theorem emitFor_sentFor (s : State) (fn : Nat) (o : Out) : OnlySentFor s (s.emitFor fn o) := by
  unfold State.emitFor
  split
  · rfl
  · split
    · rfl
    · rfl

theorem emitFor_sends {s : State} {fn : Nat} (o : Out) (hflr : (s.func fn).flr = false) (hd3 : (s.func fn).d3 = false)
    (hlink : s.linkPasses = true) : s.emitFor fn o = s.send o := by
  simp [State.emitFor, hflr, hd3, hlink]

theorem replyPosted_out (s : State) (now k : Nat) (m : Mbx) : (replyPosted s now k m).out = m.out ||| BitVec.twoPow 32 k := rfl

theorem type_answered (w gen : Nat) : fld ((fld w 0 24 ||| 0x8000) % 2 ^ 32 % 2 ^ 24 + gen * 2 ^ 24) 0 16 = fld w 0 16 ||| 0x8000 := by
  have hmod : ∀ x, (x % 2 ^ 32 % 2 ^ 24 + gen * 2 ^ 24) % 2 ^ 16 = x % 2 ^ 16 := fun x => by omega
  simp only [fld_zero]
  rw [hmod, Nat.or_mod_two_pow, Nat.mod_mod_of_dvd _ (by norm_num : 2 ^ 16 ∣ 2 ^ 24)]

theorem replyPosted_type (s : State) (now : Nat) {k : Nat} (m : Mbx) (hk : k < 8) :
    fld (tblGet 0 (replyPosted s now k m).slots (4 * k + 2)).toNat 0 16 = fld (s.reqWord k 2) 0 16 ||| 0x8000 := by
  have hword : tblGet 0 (replySlot s k m.slots) (4 * k + 2) = BitVec.ofNat 32 (fld (s.reqWord k 2) 0 24 ||| 0x8000) := by
    rw [replySlot, tblGet_tblSet, if_neg (by omega), tblGet_tblSet_same]
  have hslots : (replyPosted s now k m).slots
      = tblMod 0 (replySlot s k m.slots) (4 * k + 2) fun w => BitVec.ofNat 32 (w.toNat % 2 ^ 24 + m.gen * 2 ^ 24) := if_pos hk
  rw [hslots, tblGet_tblMod_same, hword, BitVec.toNat_ofNat, BitVec.toNat_ofNat]
  have hlow : ∀ x, fld (x % 2 ^ 32) 0 16 = fld x 0 16 := fun x => by
    simp only [fld_zero]
    omega
  rw [hlow, type_answered]

/-- What an answer touches. -/
def OnlyAnswered (s t : State) : Prop := t = { s with funcs := t.funcs, hlu := t.hlu, imb := t.imb, out := t.out }

theorem fwReply_answers {s : State} {b : FwBlock} (resp : List Byte) (hslot : b.slot < 8) :
    fwAnswers s (s.fwReply b resp) b resp ∧ OnlyAnswered s (s.fwReply b resp) := by
  have hasserted := settleMbx_asserted ((s.requestTaken b resp).modMbx 128 (replyPosted s (s.requestTaken b resp).time b.slot)) .pf0
  have hout := settleMbx_out ((s.requestTaken b resp).modMbx 128 (replyPosted s (s.requestTaken b resp).time b.slot)) .pf0
  have hsent := emitFor_sentFor (s.modMbx 0 (consume (BitVec.twoPow 32 b.slot))) 0 (.hostWrite 0 (s.reqAddr b.slot) resp false)
  have hsends : (s.func 0).d3 = false → (s.func 0).flr = false → s.linkPasses = true →
      (s.requestTaken b resp).out = s.out ++ [.hostWrite 0 (s.reqAddr b.slot) resp false] := fun hd3 hflr hlink => by
    rw [State.requestTaken, emitFor_sends (s := s.modMbx 0 (consume (BitVec.twoPow 32 b.slot))) _ hflr hd3 hlink]
    rfl
  rw [← fwReply_posts] at hasserted hout
  have hzero := mbx_asserted hasserted 0
  have hreply := mbx_asserted hasserted 128
  rw [modMbx_mbx_other _ _ _ _ (by decide)] at hzero
  rw [modMbx_mbx] at hreply
  have hframe := hasserted.frame
  change OnlySentFor _ (s.requestTaken b resp) at hsent
  generalize s.fwReply b resp = t at *
  generalize s.requestTaken b resp = u at *
  unfold OnlySentFor at hsent
  have hm0 : u.mbx 0 = consume (BitVec.twoPow 32 b.slot) (s.mbx 0) := by
    rw [hsent]
    exact modMbx_mbx ..
  have hm128 : u.mbx 128 = s.mbx 128 := by
    rw [hsent]
    exact modMbx_mbx_other _ _ _ _ (by decide)
  refine ⟨⟨by rw [hzero, hm0]; rfl, by rw [hreply, replyPosted_out, hm128], ?_, fun hd3 hflr hlink => ?_⟩, ?_⟩
  · rw [hreply, replyPosted_type s _ _ hslot]
  · obtain ⟨os, hos⟩ := hout
    exact ⟨os, by rw [← hos, ← hsends hd3 hflr hlink]; rfl⟩
  · unfold OnlyAnswered
    rw [hsent] at hframe
    exact hframe

theorem fwTakes_slot {s : State} {b : FwBlock} {n : Nat} (h : s.fwTakes b n = true) : b.slot < 8 := by
  simp only [State.fwTakes, Bool.and_eq_true, decide_eq_true_eq] at h
  obtain ⟨⟨⟨⟨⟨-, hslot⟩, -⟩, -⟩, -⟩, -⟩ := h
  exact hslot

theorem reqBlock_length (s : State) (b : FwBlock) : (s.reqBlock b).length = s.reqLen b.slot := by
  simp only [State.reqBlock, fitBytes, List.length_append, List.length_take, List.length_replicate]
  omega

/-! ### The four requests -/

theorem exec_fwInfo {s : State} {b : FwBlock} (htakes : s.fwTakes b 1 = true) : exec (.fwInfo b) s = .next (fwInfoOp b s) := by
  have harm : exec (.fwInfo b) s = execFwInfo b s := rfl
  rw [harm, execFwInfo, onlyIf, if_pos htakes]

theorem exec_fwEnrollOwner {s : State} {b : FwBlock} (htakes : s.fwTakes b 2 = true) : exec (.fwEnrollOwner b) s = .next (fwEnrollOp b s) := by
  have harm : exec (.fwEnrollOwner b) s = execFwEnrollOwner b s := rfl
  rw [harm, execFwEnrollOwner, onlyIf, if_pos htakes]

theorem exec_fwFlashWrite {s : State} {b : FwBlock} (htakes : s.fwTakes b 3 = true) : exec (.fwFlashWrite b) s = .next (fwFlashOp b s) := by
  have harm : exec (.fwFlashWrite b) s = execFwFlashWrite b s := rfl
  rw [harm, execFwFlashWrite, onlyIf, if_pos htakes]

theorem exec_fwDebugUnlock {s : State} {b : FwBlock} (htakes : s.fwTakes b 4 = true) : exec (.fwDebugUnlock b) s = .next (fwDebugOp b s) := by
  have harm : exec (.fwDebugUnlock b) s = execFwDebugUnlock b s := rfl
  rw [harm, execFwDebugUnlock, onlyIf, if_pos htakes]

/-- What boot's registers say of an answer: written before it, and left by it. -/
theorem answered_boot {s t : State} (h : OnlyAnswered s t) : t.boot = s.boot := by
  unfold OnlyAnswered at h
  rw [h]

theorem fwEnrollOp_enrols {s : State} {b : FwBlock} (hok : s.reqOk b 100 = true) (hmagic : u32 (s.reqBlock b) 96 = 0x454E524C)
    (hopen : s.boot.fuses.ownerLock = false) (hbits : s.boot.fuses.ownerHash &&& ~~~ Config.sha384 ((s.reqBlock b).take 96) = 0) :
    fwEnrollOp b s = (s.modBoot fun o => { o with fuses := { o.fuses with
      ownerHash := Config.sha384 ((s.reqBlock b).take 96), ownerLock := true } }).fwReply b (leBytes 4 0) := by
  rw [fwEnrollOp, if_neg (by simp [hok, hmagic]), if_neg (by simp [hopen, hbits]), State.fwStatus]

theorem fwEnrollOp_locked {s : State} {b : FwBlock} (hok : s.reqOk b 100 = true) (hmagic : u32 (s.reqBlock b) 96 = 0x454E524C)
    (hlocked : s.boot.fuses.ownerLock = true) : fwEnrollOp b s = s.fwReply b (leBytes 4 4) := by
  rw [fwEnrollOp, if_neg (by simp [hok, hmagic]), if_pos (by simp [hlocked]), State.fwStatus]

theorem fwFlashOp_patch {s : State} {b : FwBlock} {f : Flash} {p : List Byte} (hflash : s.boot.flash = some f) (hok : s.reqOk b 8 = true)
    (hlen : s.reqLen b.slot ≤ 4104) (htype : u16 (s.reqBlock b) 0 = 2)
    (hpatch : checkPatch s.boot.fuses.patchArb ((s.reqBlock b).drop 8) = .inr p) :
    fwFlashOp b s = (s.modBoot fun o => { o with flash := some (putFlashPatch f ((s.reqBlock b).drop 8)) }).fwReply b (leBytes 4 0) := by
  have hlength := reqBlock_length s b
  have hfits : ¬ 4096 < ((s.reqBlock b).drop 8).length := by
    rw [List.length_drop]
    omega
  simp only [fwFlashOp, hflash, hok, htype, hpatch, State.fwStatus, if_neg hfits]
  rfl

theorem fwFlashOp_badImage {s : State} {b : FwBlock} {f : Flash} {r : Nat × Nat} (hflash : s.boot.flash = some f) (hok : s.reqOk b 8 = true)
    (hlen : s.reqLen b.slot ≤ 16777224) (htype : u16 (s.reqBlock b) 0 = 3)
    (himage : checkImage s.boot.fuses ((s.reqBlock b).drop 8) = .inl r) :
    fwFlashOp b s = (s.modBoot fun o => { o with chkReason := r.1, chkOffset := r.2 }).fwReply b (leBytes 5 (6 + put 4 0 r.1)) := by
  have hlength := reqBlock_length s b
  have hfits : ¬ 16777216 < ((s.reqBlock b).drop 8).length := by
    rw [List.length_drop]
    omega
  simp only [fwFlashOp, hflash, hok, htype, himage, if_neg hfits]
  rfl

/-- Settles O54: `imageBooted_boots` for boot's end, `fwReply_answers` for what firmware answers. -/
theorem bootAndFirmware : Obligations.BootAndFirmware := by
  refine ⟨?image, ?bare, ?watchdog, ?burn, ?info, ?enrol, ?locked, ?patch, ?badImage, ?debug⟩
  case image =>
    intro i s hrun hready hstep hsafe himage
    obtain ⟨hboot, hhalf, hframe⟩ := imageBooted_boots s i
    obtain ⟨kready, kboot, kout, kframe⟩ := becomesReady_readies (s.imageBooted i)
    have hlocked := tablesLocked_boot s i
    refine ⟨_, bootCompleteOp_image hsafe himage ▸ exec_bootComplete hrun hready hstep, ?_⟩
    generalize (s.imageBooted i).becomesReady = t at *
    generalize s.imageBooted i = u at *
    have hb : t.boot = { (s.tablesLocked i).boot with step := 6, burnAllowed := true, bootTime := t.boot.bootTime } := by rw [kboot, hboot]
    have hhalves : ∀ h, t.half h = u.half h := fun h => by
      rw [kframe]
      rfl
    refine ⟨?_, ?_, ?_, kready, fun hl => ?_, fun hl => ?_, fun h hh hen hpatch => ?_, fun h hh hen => ?_, ?_, ?_⟩
    · rw [hb, hlocked]
      split
      · assumption
      · rfl
    · rw [hb]
    · rw [hb, hlocked]
      split
      · exact himage
      · exact himage
    · rw [hb, hlocked, if_neg (by simp [hl])]
    · rw [hb, hlocked, if_pos hl]
    · rw [hhalves, hhalf h hh, hen, bootHalf_enabled hpatch]
    · rw [hhalves, hhalf h hh, hen, bootHalf_disabled]
    · rw [kout, hframe]
      rfl
    · rw [kframe, hframe]
  case bare =>
    intro s hrun hready hstep hsafe himage
    obtain ⟨kready, kboot, kout, kframe⟩ := becomesReady_readies (s.modBoot fun b => { b with step := 6 })
    refine ⟨_, bootCompleteOp_none hsafe himage ▸ exec_bootComplete hrun hready hstep, ?_, ?_, kready, kout, ?_⟩
    · rw [kboot]
      exact himage
    · rw [kboot]
      rfl
    · rw [kframe]
      rfl
  case watchdog =>
    intro s hup hlock hstep hready himage
    exact ⟨_, exec_bootTimeout hup hlock hstep hready himage, rfl, rfl, hlock, rfl⟩
  case burn =>
    intro k s hup hburn hlevel
    exact ⟨_, exec_arbBurn hup hburn hlevel, arbCount_burnt .., fun j hj => arbCount_others _ hj, rfl⟩
  case info =>
    intro b s htakes hok
    have hop : fwInfoOp b s = _ := if_neg (by simp [hok])
    obtain ⟨hans, honly⟩ := fwReply_answers (s := s) _ (fwTakes_slot htakes)
    exact ⟨_, hop ▸ exec_fwInfo htakes, hans, honly⟩
  case enrol =>
    intro b s htakes hok hmagic hopen hbits
    obtain ⟨hans, honly⟩ := fwReply_answers (s := s.modBoot fun o => { o with fuses := { o.fuses with
      ownerHash := Config.sha384 ((s.reqBlock b).take 96), ownerLock := true } }) (leBytes 4 0) (fwTakes_slot htakes)
    have hboot := answered_boot honly
    refine ⟨_, fwEnrollOp_enrols hok hmagic hopen hbits ▸ exec_fwEnrollOwner htakes, hans, ?_, ?_, ?_⟩
    · rw [hboot]
      rfl
    · rw [hboot]
      rfl
    · unfold OnlyAnswered at honly
      rw [honly]
      rfl
  case locked =>
    intro b s htakes hok hmagic hlocked
    obtain ⟨hans, honly⟩ := fwReply_answers (s := s) (leBytes 4 4) (fwTakes_slot htakes)
    exact ⟨_, fwEnrollOp_locked hok hmagic hlocked ▸ exec_fwEnrollOwner htakes, hans, honly⟩
  case patch =>
    intro b f p s htakes hflash hok hlen htype hpatch
    obtain ⟨hans, honly⟩ := fwReply_answers (s := s.modBoot fun o => { o with flash := some (putFlashPatch f ((s.reqBlock b).drop 8)) })
      (leBytes 4 0) (fwTakes_slot htakes)
    have hboot := answered_boot honly
    refine ⟨_, fwFlashOp_patch hflash hok hlen htype hpatch ▸ exec_fwFlashWrite htakes, hans, ?_, ?_⟩
    · rw [hboot]
      rfl
    · unfold OnlyAnswered at honly
      rw [honly]
      rfl
  case badImage =>
    intro b f r s htakes hflash hok hlen htype himage
    obtain ⟨hans, honly⟩ := fwReply_answers (s := s.modBoot fun o => { o with chkReason := r.1, chkOffset := r.2 })
      (leBytes 5 (6 + put 4 0 r.1)) (fwTakes_slot htakes)
    have hboot := answered_boot honly
    refine ⟨_, fwFlashOp_badImage hflash hok hlen htype himage ▸ exec_fwFlashWrite htakes, hans, ?_, ?_, ?_, ?_⟩
    · rw [hboot]
      rfl
    · rw [hboot]
      rfl
    · rw [hboot]
      rfl
    · unfold OnlyAnswered at honly
      rw [honly]
      rfl
  case debug =>
    intro b s htakes hok
    obtain ⟨hans, honly⟩ := fwReply_answers (s := s.tookFree.modBoot fun o => { o with
      nonce := freeNow s 64, debug := o.debug || s.tokenStatus (s.reqBlock b) == 0 })
      (leBytes 4 (s.tokenStatus (s.reqBlock b))) (fwTakes_slot htakes)
    have hboot := answered_boot honly
    have hop : fwDebugOp b s = (s.tookFree.modBoot fun o => { o with
        nonce := freeNow s 64, debug := o.debug || s.tokenStatus (s.reqBlock b) == 0 }).fwReply b (leBytes 4 (s.tokenStatus (s.reqBlock b))) := by
      rw [fwDebugOp, if_pos hok, State.fwStatus]
    refine ⟨_, hop ▸ exec_fwDebugUnlock htakes, hans, ?_, ?_, ?_⟩
    · rw [hboot]
      rfl
    · rw [hboot]
      rfl
    · unfold OnlyAnswered at honly
      rw [honly]
      rfl

end Sys2Proof.Machine
end

section
/-! PROOFS. Power states of functions and link (R375, R376). -/
namespace Sys2Proof.Machine

/-! ### D3hot -/

theorem exec_d3hotEntry {fn : Nat} {s : State} (hrun : s.running = true) (hthere : (s.func fn).isThere = true) (hready : (s.func fn).ready = true)
    (hflr : (s.func fn).flr = false) (hd3 : (s.func fn).d3 = false) : exec (.d3hotEntry fn) s = .next (d3Op fn s) := by
  have harm : exec (.d3hotEntry fn) s = execD3hotEntry fn s := rfl
  rw [harm, execD3hotEntry, onlyIf, if_pos (by simp [hrun, hthere, hready, hflr, hd3])]

theorem suspendUnit_closed (s : State) (u : WUnit) : OnlyClosed s (s.suspendUnit u) := by
  unfold State.suspendUnit
  split
  · split
    · exact onlyClosed_of_moved (sendReq_moved ..)
    · exact rollback_closed ..
  · exact onlyClosed_of_moved (unhint_moved ..)
  · exact onlyClosed_refl s

/-- The function in D3hot, its units not yet suspended. -/
def State.inD3 (s : State) (fn : Nat) : State := s.modFunc fn fun f => { f with d3 := true }

theorem d3Op_closed (fn : Nat) (s : State) : OnlyClosed (s.inD3 fn) (d3Op fn s) := forEach_closed _ (fun _ _ => suspendUnit_closed ..) _

theorem inD3_func (s : State) (fn : Nat) : (s.inD3 fn).func fn = { s.func fn with d3 := true } := modFunc_func ..

/-! ### The return to D0 -/

theorem exec_d0Return {fn : Nat} {s : State} (hrun : s.running = true) (hd3 : (s.func fn).d3 = true) : exec (.d0Return fn) s = .next (d0Op fn s) := by
  have harm : exec (.d0Return fn) s = execD0Return fn s := rfl
  rw [harm, execD0Return, onlyIf, if_pos (by simp [hrun, hd3])]

/-- The function in D0 again, nothing held for it. -/
def State.inD0 (s : State) (fn : Nat) : State := s.modFunc fn fun f => { f with d3 := false, held := [] }

/-- Only what a held write touches has changed, and no function. -/
def OnlyHeldSent (s t : State) : Prop := t = { s with hlu := t.hlu, imb := t.imb, out := t.out }

theorem sendHeld_sent (s : State) (o : Out) : OnlyHeldSent s (s.sendHeld o) ∧ (s.sendHeld o).out = s.out ++ [o] := by
  unfold State.sendHeld
  split <;> exact ⟨rfl, rfl⟩

theorem sendAll_sent (os : List Out) (s : State) :
    OnlyHeldSent s (forEach os (fun o t => t.sendHeld o) s) ∧ (forEach os (fun o t => t.sendHeld o) s).out = s.out ++ os := by
  induction os generalizing s with
  | nil => exact ⟨rfl, (List.append_nil _).symm⟩
  | cons o os ih =>
    obtain ⟨hframe, hout⟩ := sendHeld_sent s o
    obtain ⟨kframe, kout⟩ := ih (s.sendHeld o)
    rw [forEach]
    constructor
    · unfold OnlyHeldSent at *
      rw [kframe, hframe]
    · rw [kout, hout, List.append_assoc, List.singleton_append]

/-- What was held of a function, sent in order. -/
def State.heldSent (s : State) (fn : Nat) : State := forEach (s.func fn).held (fun o t => t.sendHeld o) (s.inD0 fn)

theorem d0Op_starts (fn : Nat) (s : State) :
    d0Op fn s = forEach ((tblKeys (s.heldSent fn).dmv.chans).filter fun g => (s.heldSent fn).fnOfChan g == fn)
      (fun g u => u.startDescs g) (s.heldSent fn) := rfl

/-- What goes out is only added to, and no function's power state changes. -/
structure Sends (s t : State) : Prop where
  out : s.out <+: t.out
  d3 : ∀ k, (t.func k).d3 = (s.func k).d3

theorem sends_refl (s : State) : Sends s s := ⟨List.prefix_rfl, fun _ => rfl⟩

theorem sends_trans {s t u : State} (h : Sends s t) (k : Sends t u) : Sends s u :=
  ⟨h.out.trans k.out, fun n => (k.d3 n).trans (h.d3 n)⟩

theorem message_d3 (s : State) (fn v k : Nat) : ((s.message fn v).func k).d3 = (s.func k).d3 := by
  unfold State.message
  split
  · rfl
  · split
    · rfl
    · split
      · have hheld : ∀ t : State, ∀ f : Func → Func, (∀ x, (f x).d3 = x.d3) → ((t.modFunc fn f).func k).d3 = (t.func k).d3 := fun t f hf => by
          by_cases hk : fn = k
          · subst hk
            rw [modFunc_func, hf]
          · rw [modFunc_func_other _ _ _ _ hk]
        exact hheld s (fun f => { f with held := f.held ++ [.msix fn v] }) fun _ => rfl
      · rfl

theorem settleSource_d3 (s : State) (n k : Nat) : ((s.settleSource n).func k).d3 = (s.func k).d3 := by
  have hmod : ∀ b, ((s.modSrc n fun c => { c with deliverable := b }).func k).d3 = (s.func k).d3 := fun _ => rfl
  unfold State.settleSource
  dsimp only
  split
  · split
    · split
      · rw [message_d3, hmod]
      · exact hmod (s.deliverable n)
    · exact hmod (s.deliverable n)
  · exact hmod (s.deliverable n)

theorem assertSource_sends (s : State) (n : Nat) : Sends s (s.assertSource n) := by
  refine ⟨assertSource_out s n, fun k => ?_⟩
  unfold State.assertSource
  split
  · rfl
  · rw [settleSource_d3]
    rfl

theorem sends_of_same {s t : State} (hout : t.out = s.out) (hfuncs : t.funcs = s.funcs) : Sends s t := by
  refine ⟨by rw [hout], fun k => ?_⟩
  have hfunc : t.func k = s.func k := congrArg (tblGet Func.init · k) hfuncs
  rw [hfunc]

theorem modChan_sends (s : State) (g : Nat) (f : Chan → Chan) : Sends s (s.modChan g f) := sends_of_same rfl rfl

theorem modPool_sends (s : State) (p : Nat) (f : Pool → Pool) : Sends s (s.modPool p f) := sends_of_same rfl rfl

theorem report_sends (s : State) (code source : Nat) (fn session : Option Nat) (info : Nat) (tag : BitVec 16) (a : Nat) :
    Sends s (s.report code source fn session info tag a) := sends_of_same rfl rfl

theorem chanFail_sends (s : State) (g cause : Nat) : Sends s (s.chanFail g cause) :=
  sends_trans (sends_trans (modChan_sends ..) (assertSource_sends ..)) (report_sends ..)

theorem askPool_sends (s : State) (g : Nat) : Sends s (s.askPool g) := by
  unfold State.askPool
  dsimp only
  split
  · exact sends_refl s
  · split
    · exact sends_trans (sends_trans (modChan_sends ..) (modChan_sends ..)) (chanFail_sends ..)
    · split
      · exact sends_refl s
      · exact sends_trans (modChan_sends ..) (modPool_sends ..)

theorem startDescs_sends (s : State) (g : Nat) : Sends s (s.startDescs g) := by
  unfold State.startDescs
  split
  · exact sends_refl s
  · split
    · exact askPool_sends ..
    · exact sends_trans (modChan_sends ..) (askPool_sends ..)

theorem forEach_same {β : Type} {f : β → State → State} {xs : List β} {s : State} (h : ∀ x ∈ xs, f x s = s) : forEach xs f s = s := by
  induction xs with
  | nil => rfl
  | cons x xs ih =>
    rw [forEach, h x (List.mem_cons_self ..)]
    exact ih fun y hy => h y (List.mem_cons_of_mem _ hy)

theorem heldSent_sent (s : State) (fn : Nat) : OnlyHeldSent (s.inD0 fn) (s.heldSent fn) ∧ (s.heldSent fn).out = s.out ++ (s.func fn).held :=
  sendAll_sent (s.func fn).held (s.inD0 fn)

theorem fnOfChan_congr {s t : State} (h : t.boot = s.boot) (g : Nat) : t.fnOfChan g = s.fnOfChan g := by
  have hbase : ∀ k, t.chanBase k = s.chanBase k := chanBase_congr h
  have hcount : t.fnCount = s.fnCount := by simp only [State.fnCount, h]
  simp only [State.fnOfChan, State.chanOwner, hbase, hcount]

/-! ### L2, L1 and L0p -/

theorem exec_pmeTurnOff {s : State} (hrun : s.running = true) : exec .pmeTurnOff s = .next (pmeOffOp s) := by
  have harm : exec .pmeTurnOff s = execPmeTurnOff s := rfl
  rw [harm, execPmeTurnOff, onlyIf, if_pos hrun]

/-- The device in L2, before TGT_ALERT_N follows. -/
def State.inL2 (s : State) : State :=
  ({ s.atPerst with pins := { s.atPerst.pins with perst := s.pins.perst } }).modHlu fun h => { h with l2 := true, wake := s.pmePending }

theorem pmeOffOp_settles (s : State) : pmeOffOp s = s.inL2.settleAlert := rfl

/-- What L2 leaves: the link in L2 with WAKE# as PME asks, and else what PERST# leaves. -/
structure Sleeps (s t : State) : Prop where
  link : t.hlu.l2 = true ∧ t.hlu.wake = s.pmePending
  stopped : t.queues = [] ∧ t.sessions = [] ∧ t.dsc.units = [] ∧ t.boot.image = none
  kept : t.mem.cells = s.mem.cells ∧ t.fcl.fifo = s.fcl.fifo ∧ t.pending = s.pending

theorem inL2_sleeps (s : State) : Sleeps s s.inL2 := ⟨⟨rfl, rfl⟩, ⟨rfl, rfl, rfl, rfl⟩, rfl, rfl, rfl⟩

theorem exec_aspmL1Entry {us : Nat} {s : State} (hrun : s.running = true) (hup : s.hlu.up = true) :
    exec (.aspmL1Entry us) s = .next (l1EntryOp us s) := by
  have harm : exec (.aspmL1Entry us) s = execAspmL1Entry us s := rfl
  rw [harm, execAspmL1Entry, onlyIf, if_pos (by simp [hrun, hup])]

theorem l1State_substate (s : State) : 2 ≤ s.l1State ∧ s.l1State ≤ 4 := by
  unfold State.l1State
  omega

theorem exec_l1Exit {s : State} (hrun : s.running = true) (hup : s.hlu.up = true) : exec .l1Exit s = .next (s.modHlu Hlu.awake) := by
  have harm : exec .l1Exit s = execL1Exit s := rfl
  rw [harm, execL1Exit, onlyIf, if_pos (by simp [hrun, hup]), l1ExitOp]

theorem exec_l0pReduce {percent ms : Nat} {s : State} (hrun : s.running = true) (hup : s.hlu.up = true) :
    exec (.l0pReduce percent ms) s = .next (s.modHlu (l0pReduceOp percent ms)) := by
  have harm : exec (.l0pReduce percent ms) s = execL0pReduce percent ms s := rfl
  rw [harm, execL0pReduce, onlyIf, if_pos (by simp [hrun, hup])]

theorem exec_l0pRestore {percent : Nat} {s : State} (hrun : s.running = true) (hup : s.hlu.up = true) :
    exec (.l0pRestore percent) s = .next (s.modHlu (l0pRestoreOp percent)) := by
  have harm : exec (.l0pRestore percent) s = execL0pRestore percent s := rfl
  rw [harm, execL0pRestore, onlyIf, if_pos (by simp [hrun, hup])]

end Sys2Proof.Machine
end

section
/-! PROOFS. The discipline of DEV_TIME (R377), and the statement about power states and time. -/
namespace Sys2Proof.Machine

theorem exec_ptmRequest {s : State} (hrun : s.running = true) (hup : s.hlu.up = true) (hen : s.hlu.ptmCtrl.getLsbD 31 = true) :
    exec .ptmRequest s = .next (ptmRequestOp s) := by
  have harm : exec .ptmRequest s = execPtmRequest s := rfl
  have hdisc : s.hlu.disciplined = true := hen
  rw [harm, execPtmRequest, onlyIf, if_pos (by simp [hrun, hup, hdisc])]

theorem exec_ptmResponse {root : DWord} {s : State} (hrun : s.running = true) (hup : s.hlu.up = true) (hen : s.hlu.ptmCtrl.getLsbD 31 = true)
    (hlink : s.linkPasses = true) : exec (.ptmResponse root) s = .next (ptmResponseOp root s) := by
  have harm : exec (.ptmResponse root) s = execPtmResponse root s := rfl
  have hdisc : s.hlu.disciplined = true := hen
  rw [harm, execPtmResponse, onlyIf, if_pos (by simp [hrun, hup, hdisc, hlink])]

/-- The request sent at its instant. -/
def State.asksTime (s : State) : State :=
  (s.reach (s.hlu.ptmAsked + s.hlu.interval * 1000000)).modHlu fun h =>
    { h with ptmAsked := (s.reach (s.hlu.ptmAsked + s.hlu.interval * 1000000)).time }

theorem ptmRequestOp_sends (s : State) : ptmRequestOp s = s.asksTime.tellHost .ptmReq := rfl

/-- The offset of the root's time, kept (R377). -/
def State.offsetKept (s : State) (off : Int) : State := s.modHlu fun h => { h with ptmOffset := BitVec.ofInt 64 off, synced := true }

theorem ptmResponseOp_ahead {root : DWord} {s : State} (htime : s.time < 2 ^ 64) (hahead : s.time + 1000000 < root.toNat) :
    ptmResponseOp root s
      = (((s.offsetKept ((root.toNat : Int) - s.time)).stepTo root.toNat).modHlu fun h => { h with stepped := true, slew := 0 }).modHlu fun h =>
          { h with ptmGot := ((s.offsetKept ((root.toNat : Int) - s.time)).stepTo root.toNat).time } := by
  have hnow : s.time % 2 ^ 64 = s.time := Nat.mod_eq_of_lt htime
  have hto : s.time + ((root.toNat : Int) - s.time).toNat = root.toNat := by omega
  rw [ptmResponseOp]
  simp only [hnow]
  rw [if_pos (by omega), hto, State.offsetKept, modHlu_time]

theorem ptmResponseOp_near {root : DWord} {s : State} (htime : s.time < 2 ^ 64) (hnear : root.toNat ≤ s.time + 1000000) :
    ptmResponseOp root s
      = ((s.offsetKept ((root.toNat : Int) - s.time)).tookFree.modHlu fun h =>
          { h with slew := slewFor ((root.toNat : Int) - s.time) (freeNow s 8).toNat }).modHlu fun h => { h with ptmGot := s.time } := by
  have hnow : s.time % 2 ^ 64 = s.time := Nat.mod_eq_of_lt htime
  rw [ptmResponseOp]
  simp only [hnow]
  rw [if_neg (by omega)]
  rfl

/-- A step forward to `now` lies there, and touches the lanes alone. -/
structure Steps (s t : State) (now : Nat) : Prop where
  time : t.time = now
  hlu : t.hlu = s.hlu
  frame : t = { s with time := t.time, aon := t.aon, dsc := t.dsc }

theorem gateSwitchOp_steps {s t : State} {now l at_ : Nat} {g : GateList} (h : Steps s t now) (hnext : (t.lane l).next = some (g, at_))
    (hpassed : at_ ≤ now) : Steps s (gateSwitchOp l t) now := by
  obtain ⟨htime, hhlu, hframe⟩ := h
  unfold gateSwitchOp
  rw [hnext]
  refine ⟨?_, hhlu, ?_⟩
  · have hreach : (t.reach at_).time = max t.time at_ := rfl
    exact hreach.trans (by rw [htime]; omega)
  · rw [hframe]
    rfl

/-- What a step forward to `now` does to a lane: its claims lapse, and a switchover that the step passes takes effect. -/
def State.laneStep (now l : Nat) (u : State) : State :=
  let v := u.modLane l (Lane.skipTo now)
  match (v.lane l).next with
  | some (_, at_) => if at_ ≤ now then gateSwitchOp l v else v
  | none => v

theorem stepTo_lanes (s : State) (now : Nat) : s.stepTo now = forUpTo 8 (State.laneStep now) { s with time := now } := rfl

theorem laneStep_steps {s t : State} {now : Nat} (l : Nat) (h : Steps s t now) : Steps s (State.laneStep now l t) now := by
  obtain ⟨htime, hhlu, hframe⟩ := h
  have hskip : Steps s (t.modLane l (Lane.skipTo now)) now := ⟨htime, hhlu, by rw [hframe]; rfl⟩
  unfold State.laneStep
  dsimp only
  split
  next g at_ hnext =>
    split
    next hpassed => exact gateSwitchOp_steps hskip hnext hpassed
    next => exact hskip
  next => exact hskip

theorem lanesStep_steps (s : State) (now n : Nat) : Steps s (forUpTo n (State.laneStep now) { s with time := now }) now := by
  induction n with
  | zero => exact ⟨rfl, rfl, rfl⟩
  | succ n ih => exact laneStep_steps n ih

theorem stepTo_steps (s : State) (now : Nat) : Steps s (s.stepTo now) now := by
  rw [stepTo_lanes]
  exact lanesStep_steps s now 8

theorem ofInt_offset {a b : Nat} (h : b ≤ a) : BitVec.ofInt 64 ((a : Int) - b) = BitVec.ofNat 64 (a - b) := by
  have hsub : (a : Int) - b = ((a - b : Nat) : Int) := by omega
  rw [hsub, BitVec.ofInt_natCast]

theorem ofInt_sub_time (root : DWord) (time : Nat) : BitVec.ofInt 64 ((root.toNat : Int) - time) = root - BitVec.ofNat 64 time := by
  refine BitVec.eq_of_toNat_eq ?_
  rw [BitVec.toNat_ofInt, BitVec.toNat_sub, BitVec.toNat_ofNat]
  omega

theorem slewFor_ahead {off : Int} (r : Nat) (h : 0 < off) : 1 ≤ slewFor off r ∧ slewFor off r ≤ 200 := by
  have hne : (off == 0) = false := by rw [beq_eq_false_iff_ne]; omega
  rw [slewFor, if_neg (by simp [hne]), if_pos h, Int.ofNat_eq_natCast]
  omega

theorem slewFor_behind {off : Int} (r : Nat) (h : off < 0) : -200 ≤ slewFor off r ∧ slewFor off r ≤ -1 := by
  have hne : (off == 0) = false := by rw [beq_eq_false_iff_ne]; omega
  rw [slewFor, if_neg (by simp [hne]), if_neg (by omega), Int.ofNat_eq_natCast]
  omega

theorem slewFor_zero (r : Nat) : slewFor 0 r = 0 := rfl

/-- Settles O50: `d3Op_closed` and `heldSent_sent` for the functions' power states, `stepTo_steps` and `slewFor_ahead` for DEV_TIME. -/
theorem powerAndTime : Obligations.PowerAndTime := by
  refine ⟨?d3, ?d0, ?quiet, ?l2, ?l1, ?exit, ?reduce, ?restore, ?ask, ?ahead, ?near⟩
  case d3 =>
    intro fn s hrun hthere hready hflr hd3
    have hclosed := d3Op_closed fn s
    obtain ⟨hfunc, -⟩ := hclosed.by_.funcs fn
    rw [inD3_func] at hfunc
    have hframe := hclosed.frame
    refine ⟨_, exec_d3hotEntry hrun hthere hready hflr hd3, ?_⟩
    generalize d3Op fn s = t at *
    refine ⟨?_, ?_, ?_, ?_⟩
    · rw [hfunc]
    · rw [hfunc]
      exact hready
    · rw [hfunc]
      exact hflr
    · rw [hframe]
      rfl
  case d0 =>
    intro fn s hrun hd3
    obtain ⟨hframe, hout⟩ := heldSent_sent s fn
    have hsends : Sends (s.heldSent fn) (d0Op fn s) := by
      rw [d0Op_starts]
      exact forEach_induct (P := Sends (s.heldSent fn)) _ (fun g _ t h => sends_trans h (startDescs_sends t g)) _ (sends_refl _)
    obtain ⟨os, hos⟩ := hsends.out
    have hpower : ((s.heldSent fn).func fn).d3 = false := by
      have hfuncs : (s.heldSent fn).func fn = (s.inD0 fn).func fn := by
        rw [hframe]
        rfl
      rw [hfuncs, State.inD0, modFunc_func]
    exact ⟨d0Op fn s, os, exec_d0Return hrun hd3, (hsends.d3 fn).trans hpower, by rw [← hos, hout]⟩
  case quiet =>
    intro fn s hrun hd3 hdisabled
    obtain ⟨hframe, hout⟩ := heldSent_sent s fn
    have hop : d0Op fn s = s.heldSent fn := by
      rw [d0Op_starts]
      refine forEach_same fun g hg => ?_
      obtain ⟨-, hfn⟩ := List.mem_filter.1 hg
      have hboot : (s.heldSent fn).boot = s.boot := by
        rw [hframe]
        rfl
      have hchan : (s.heldSent fn).chan g = s.chan g := by
        rw [hframe]
        rfl
      rw [fnOfChan_congr hboot, beq_iff_eq] at hfn
      rw [State.startDescs, if_pos (by rw [hchan, hdisabled g hfn]; rfl)]
    refine ⟨_, hop ▸ exec_d0Return hrun hd3, ?_, hout, fun k hk => ?_, ?_⟩
    · have hfuncs : (s.heldSent fn).func fn = (s.inD0 fn).func fn := by
        rw [hframe]
        rfl
      rw [hfuncs, State.inD0, modFunc_func]
    · have hfuncs : (s.heldSent fn).func k = (s.inD0 fn).func k := by
        rw [hframe]
        rfl
      rw [hfuncs, State.inD0, modFunc_func_other _ _ _ _ hk.symm]
    · unfold OnlyHeldSent at hframe
      rw [hframe]
      rfl
  case l2 =>
    intro s hrun
    obtain ⟨⟨hl2, hwake⟩, ⟨hqueues, hsessions, hunits, himage⟩, hcells, hfifo, hpending⟩ := inL2_sleeps s
    refine ⟨_, pmeOffOp_settles s ▸ exec_pmeTurnOff hrun, ?_⟩
    rw [settleAlert_eq]
    generalize s.inL2 = t at *
    refine ⟨hl2, ?_, hwake, hqueues, hsessions, hunits, himage, hcells, hfifo, hpending⟩
    simp [State.running, hl2]
  case l1 =>
    intro us s hrun hup hidle hstate
    obtain ⟨h2, h4⟩ := l1State_substate s
    have hop : l1EntryOp us s = s.tookFree.modHlu fun h => { h with lstate := s.l1State } := if_pos ⟨hidle, hstate⟩
    exact ⟨s.l1State, h2, h4, by rw [exec_aspmL1Entry hrun hup, hop]; rfl⟩
  case exit =>
    intro s hrun hup h2 h4
    have hawake : s.hlu.awake = { s.hlu with lstate := if s.hlu.activeWidth < s.hlu.mode.width then 1 else 0 } := if_pos ⟨h2, h4⟩
    rw [exec_l1Exit hrun hup, State.modHlu, hawake]
  case reduce =>
    intro percent ms s hrun hup hen hflit hlow hhold hstate
    have hlow' : percent < s.hlu.l0pLow := hlow
    have hhold' : s.hlu.l0pHold ≤ ms := hhold
    rw [exec_l0pReduce hrun hup, State.modHlu, l0pReduceOp]
    simp only [hen, hflit, hlow', hhold', hstate, decide_true, Bool.true_and, decide_eq_true_eq]
    split <;> rfl
  case restore =>
    intro percent s hrun hup hstate hqueue
    have hfull : l0pRestoreOp percent s.hlu = { s.hlu with activeWidth := s.hlu.mode.width, lstate := 0 } :=
      if_pos (by simp [hstate, hqueue])
    rw [exec_l0pRestore hrun hup, State.modHlu, hfull]
  case ask =>
    intro s hrun hup hen
    refine ⟨_, ptmRequestOp_sends s ▸ exec_ptmRequest hrun hup hen, ?_⟩
    rw [tellHost_linked]
    have hlink : s.asksTime.linkPasses = s.linkPasses := rfl
    have hasked : (s.asksTime.tellHost .ptmReq).hlu.ptmAsked = s.asksTime.time := by
      have hawake : ∀ h : Hlu, h.awake.ptmAsked = h.ptmAsked := fun h => by
        unfold Hlu.awake
        split <;> rfl
      unfold State.tellHost
      split
      · exact hawake s.asksTime.hlu
      · rfl
    exact ⟨rfl, hasked, by rw [hlink]; rfl, rfl⟩
  case ahead =>
    intro root s hrun hup hen hlink htime hahead
    obtain ⟨kt, khlu, kframe⟩ := stepTo_steps (s.offsetKept ((root.toNat : Int) - s.time)) root.toNat
    have hoffset := ofInt_offset (a := root.toNat) (b := s.time) (by omega)
    refine ⟨_, ptmResponseOp_ahead htime hahead ▸ exec_ptmResponse hrun hup hen hlink, ?_⟩
    generalize (s.offsetKept ((root.toNat : Int) - s.time)).stepTo root.toNat = u at *
    refine ⟨kt, rfl, rfl, ?_, ?_, ?_⟩
    · rw [modHlu_hlu, modHlu_hlu, khlu]
      rfl
    · rw [modHlu_hlu, modHlu_hlu, khlu]
      exact hoffset
    · rw [kframe]
      rfl
  case near =>
    intro root s hrun hup hen hlink htime hnear
    have hans := exec_ptmResponse (root := root) hrun hup hen hlink
    rw [ptmResponseOp_near htime hnear] at hans
    refine ⟨_, hans, rfl, rfl, ofInt_sub_time root s.time, fun h => ?_, fun h => ?_, fun h => ?_, rfl⟩
    · exact slewFor_ahead (freeNow s 8).toNat (by omega)
    · exact slewFor_behind (freeNow s 8).toNat (by omega)
    · have hzero : (root.toNat : Int) - s.time = 0 := by omega
      rw [hzero]
      exact slewFor_zero (freeNow s 8).toNat

end Sys2Proof.Machine
end

section
/-! PROOFS. Host-managed device memory (R362 to R366). -/
namespace Sys2Proof.Machine

theorem exec_hdmDecoderCommit {d host dev size : Nat} {s : State} (hup : s.up = true) (hans : s.pf0Answers = true) (hd : d < 4) :
    exec (.hdmDecoderCommit d host dev size) s = .next (hdmCommitOp d host dev size s) := by
  have harm : exec (.hdmDecoderCommit d host dev size) s = execHdmDecoderCommit d host dev size s := rfl
  rw [harm, execHdmDecoderCommit, onlyIf, if_pos (by simp [hup, hans, hd])]

theorem exec_cxlMemRead {s : State} (a : Nat) (caches : Bool) (hopen : s.cxlMemOpen = true) :
    exec (.cxlMemRead a caches) s = .next (cxlReadOp a caches s) := by
  have harm : exec (.cxlMemRead a caches) s = execCxlMemRead a caches s := rfl
  rw [harm, execCxlMemRead, onlyIf, if_pos hopen]

theorem exec_cxlMemWrite {s : State} (a : Nat) (bs : List Byte) (p : Bool) (hopen : s.cxlMemOpen = true) :
    exec (.cxlMemWrite a bs p) s = .next (cxlWriteOp a bs p s) := by
  have harm : exec (.cxlMemWrite a bs p) s = execCxlMemWrite a bs p s := rfl
  rw [harm, execCxlMemWrite, onlyIf, if_pos hopen]

theorem exec_bar4Access {s : State} (off : Nat) (write : Bool) (len : Nat) (data : Block) (hans : s.pf0Answers = true)
    (hsafe : s.fcl.inSafe = false) : exec (.bar4Access off write len data) s = .next (bar4Op off write len data.bytes (!data.ok) s) := by
  have harm : exec (.bar4Access off write len data) s = execBar4Access off write len data s := rfl
  rw [harm, execBar4Access, onlyIf, if_pos hans, if_neg (by simp [hsafe])]

theorem cxlMemOpen_linked {s : State} (h : s.cxlMemOpen = true) : s.linkPasses = true := by
  unfold State.cxlMemOpen at h
  exact (Bool.and_eq_true_iff.1 h).2

theorem pf0Answers_linked {s : State} (h : s.pf0Answers = true) : s.linkPasses = true := by
  unfold State.pf0Answers at h
  exact (Bool.and_eq_true_iff.1 h).2

theorem linkPasses_congr {s t : State} (h : t.hlu.ide = s.hlu.ide) : t.linkPasses = s.linkPasses := by rw [State.linkPasses, h, State.linkPasses]

/-- The device sends over the link: what the link keeps beside its state of power, and what it sends, stand. -/
theorem send_hlu (s : State) (o : Out) : (s.send o).hlu = { s.hlu with lstate := (s.send o).hlu.lstate } := by
  have h : (s.send o).hlu = Hlu.awake s.hlu := rfl
  rw [h, Hlu.awake]
  split <;> rfl

theorem tellHost_sends {s : State} (o : Out) (h : s.linkPasses = true) : s.tellHost o = s.send o := if_pos h

theorem strayAccess_records (s : State) (a : Nat) : Records s (s.strayAccess a) 0x20 3 := ⟨_, rfl, rfl, rfl, rfl⟩

/-! ### The tracker of lines that the host holds (R364) -/

/-- Only the link's own state and what it sends have changed; among the link's: no key, no count of poison. -/
structure OnlySnooped (s t : State) : Prop where
  ide : t.hlu.ide = s.hlu.ide
  poisonRd : t.hlu.poisonRd = s.hlu.poisonRd
  track : t.hlu.track = s.hlu.track
  frame : t = { s with hlu := t.hlu, out := t.out }

theorem onlySnooped_trans {s t u : State} (h : OnlySnooped s t) (k : OnlySnooped t u) : OnlySnooped s u :=
  ⟨k.ide.trans h.ide, k.poisonRd.trans h.poisonRd, k.track.trans h.track, by rw [k.frame, h.frame]⟩

theorem send_snooped (s : State) (o : Out) : OnlySnooped s (s.send o) := by
  have h := send_hlu s o
  exact ⟨by rw [h], by rw [h], by rw [h], rfl⟩

theorem issueSnoop_snooped (s : State) (e : Nat × Bool) : OnlySnooped s (s.issueSnoop e) :=
  onlySnooped_trans (t := s.modHlu fun h => { h with biCount := sat32 h.biCount 1 }) ⟨rfl, rfl, rfl, rfl⟩ (send_snooped ..)

theorem sendSnoop_snooped (s : State) (l : Nat) (data : Bool) : OnlySnooped s (s.sendSnoop l data) := by
  have hwaits : OnlySnooped s (s.modHlu fun h => { h with snoops := h.snoops ++ [(l, data)] }) := ⟨rfl, rfl, rfl, rfl⟩
  unfold State.sendSnoop
  split
  next => exact ⟨rfl, rfl, rfl, rfl⟩
  next =>
    dsimp only
    split
    next => exact onlySnooped_trans hwaits (issueSnoop_snooped ..)
    next => exact hwaits

theorem tracked_congr {s t : State} (h : t.hlu.track = s.hlu.track) (l : Nat) : t.tracked l = s.tracked l := by
  rw [State.tracked, h, State.tracked]

/-- What a read for the host's cache leaves: the line tracked, the keys and the count of poison as they were. -/
structure Tracks (s t : State) (l : Nat) : Prop where
  tracked : t.tracked l = true
  ide : t.hlu.ide = s.hlu.ide
  poisonRd : t.hlu.poisonRd = s.hlu.poisonRd
  frame : t = { s with hlu := t.hlu, out := t.out }

/-- The line marked in its set as possibly modified. -/
def State.trackMarked (s : State) (l : Nat) : State :=
  s.modHlu fun h => { h with track := tblMod [] h.track (trackSet l) fun es => es.map fun e => if e.1 == l then (l, true) else e }

/-- The line entered in its set as possibly modified. -/
def State.trackEntered (s : State) (l : Nat) : State :=
  s.modHlu fun h => { h with track := tblMod [] h.track (trackSet l) fun es => es ++ [(l, true)] }

theorem trackMarked_tracks {s : State} {l : Nat} (h : s.tracked l = true) : Tracks s (s.trackMarked l) l := by
  refine ⟨?_, rfl, rfl, rfl⟩
  unfold State.tracked at h ⊢
  rw [List.any_eq_true] at h
  obtain ⟨e, he, hline⟩ := h
  have hset : tblGet [] (s.trackMarked l).hlu.track (trackSet l)
      = (tblGet [] s.hlu.track (trackSet l)).map fun e => if e.1 == l then (l, true) else e := tblGet_tblMod_same ..
  rw [hset, List.any_map, List.any_eq_true]
  refine ⟨e, he, ?_⟩
  rw [Function.comp_apply, if_pos hline]
  exact beq_self_eq_true l

theorem trackEntered_tracks (s : State) (l : Nat) : Tracks s (s.trackEntered l) l := by
  refine ⟨?_, rfl, rfl, rfl⟩
  have hset : tblGet [] (s.trackEntered l).hlu.track (trackSet l) = tblGet [] s.hlu.track (trackSet l) ++ [(l, true)] :=
    tblGet_tblMod_same [] s.hlu.track (trackSet l) fun es => es ++ [(l, true)]
  rw [State.tracked, hset]
  simp

theorem tracks_snooped {s t u : State} {l : Nat} (h : Tracks s t l) (k : OnlySnooped t u) : Tracks s u l :=
  ⟨(tracked_congr k.track l).trans h.tracked, k.ide.trans h.ide, k.poisonRd.trans h.poisonRd, by rw [k.frame, h.frame]⟩

theorem trackLine_tracks (s : State) (l : Nat) : Tracks s (s.trackLine l) l := by
  unfold State.trackLine
  split
  next h => exact trackMarked_tracks h
  next =>
    have henters := trackEntered_tracks s l
    dsimp only
    split
    next =>
      split
      next => exact tracks_snooped henters (sendSnoop_snooped ..)
      next => exact henters
    next => exact henters

/-! ### Reads and writes of lines -/

/-- The state once a read has met poison, or as it was (R366). -/
def State.poisonMet (s : State) (l : Nat) : State := if s.poisoned l 64 then s.poisonedRead l else s

/-- The state once the line's read is tracked where the host's cache takes it. -/
def State.readTracked (s : State) (l : Nat) (caches : Bool) : State :=
  if caches && s.hdmDb then (s.poisonMet l).trackLine l else s.poisonMet l

theorem cxlReadOp_reads {s : State} {a d : Nat} (caches : Bool) (haddr : s.hdmAddr a = some d) (hsnoop : s.snooping (lineOf d) = false) :
    cxlReadOp a caches s
      = (s.readTracked (lineOf d) caches).tellHost (.cxlData (lineOf a) (s.memRead (lineOf d) 64) (s.poisoned (lineOf d) 64)) := by
  unfold cxlReadOp
  rw [haddr]
  dsimp only
  rw [hsnoop]
  rfl

/-- What a read of a line does before its bytes go out. -/
structure Meets (s t : State) (l : Nat) : Prop where
  ide : t.hlu.ide = s.hlu.ide
  poisonRd : t.hlu.poisonRd = if s.poisoned l 64 then sat32 s.hlu.poisonRd 1 else s.hlu.poisonRd
  inbox : s.poisoned l 64 = true → ∃ r, t.fcl.inbox = s.fcl.inbox ++ [r] ∧ r.code = 0x0E
  frame : t = { s with fcl := t.fcl, hlu := t.hlu, out := t.out }

theorem poisonMet_meets (s : State) (l : Nat) : Meets s (s.poisonMet l) l := by
  unfold State.poisonMet
  split
  next h => exact ⟨rfl, by rw [if_pos h]; rfl, fun _ => ⟨_, rfl, rfl⟩, rfl⟩
  next h => exact ⟨rfl, by rw [if_neg h], fun k => absurd k h, rfl⟩

theorem readTracked_meets (s : State) (l : Nat) (caches : Bool) : Meets s (s.readTracked l caches) l := by
  obtain ⟨hide, hcount, hinbox, hframe⟩ := poisonMet_meets s l
  unfold State.readTracked
  split
  next =>
    obtain ⟨-, kide, kcount, kframe⟩ := trackLine_tracks (s.poisonMet l) l
    generalize (s.poisonMet l).trackLine l = t at *
    refine ⟨kide.trans hide, kcount.trans hcount, fun h => ?_, ?_⟩
    · rw [kframe]
      exact hinbox h
    · rw [kframe, hframe]
  next => exact ⟨hide, hcount, hinbox, hframe⟩

theorem readTracked_tracked {s : State} {l : Nat} (hdb : s.hdmDb = true) : (s.readTracked l true).tracked l = true := by
  rw [State.readTracked, if_pos (by simp [hdb])]
  exact (trackLine_tracks (s.poisonMet l) l).tracked

theorem linesOf_self {l : Nat} (h : lineOf l = l) : linesOf l 64 = [l] := by
  have hline : l / 64 * 64 = l := h
  have hlast : (l + 64 - 1) / 64 - l / 64 + 1 = 1 := by omega
  rw [linesOf, hlast]
  simp [hline]

theorem lineOf_linesOf {a n l : Nat} (h : l ∈ linesOf a n) : lineOf l = l := by
  unfold linesOf at h
  split at h
  · cases h
  · obtain ⟨i, -, rfl⟩ := List.mem_map.1 h
    unfold lineOf
    omega

theorem poisoned_line {s : State} {l : Nat} (hline : lineOf l = l) (h : tblGet false s.mem.poison l = true) : s.poisoned l 64 = true := by
  rw [State.poisoned, linesOf_self hline]
  simp [h]

/-- Only poison marks have changed, and none went away. -/
structure Poisons (s t : State) (ls : List Nat) : Prop where
  marked : ∀ l ∈ ls, tblGet false t.mem.poison (lineOf l) = true
  stays : ∀ k, tblGet false s.mem.poison k = true → tblGet false t.mem.poison k = true
  frame : t = { s with mem := { s.mem with poison := t.mem.poison } }

theorem poisonLine_poison (s : State) (l k : Nat) :
    tblGet false (s.poisonLine l).mem.poison k = if k = lineOf l then true else tblGet false s.mem.poison k :=
  (tblGet_tblSet false s.mem.poison (lineOf l) k true).trans (by simp only [eq_comm])

theorem poisonLines_poisons (ls : List Nat) (s : State) : Poisons s (forEach ls (fun l t => t.poisonLine l) s) ls := by
  induction ls generalizing s with
  | nil => exact ⟨fun _ h => absurd h List.not_mem_nil, fun _ h => h, rfl⟩
  | cons l ls ih =>
    obtain ⟨hmarked, hstays, hframe⟩ := ih (s.poisonLine l)
    rw [forEach]
    refine ⟨fun k hk => ?_, fun k hk => hstays k ?_, ?_⟩
    · rcases List.mem_cons.1 hk with rfl | hk
      · exact hstays _ (by rw [poisonLine_poison, if_pos rfl])
      · exact hmarked k hk
    · rw [poisonLine_poison, hk, ite_self]
    · generalize forEach ls (fun l t => t.poisonLine l) (s.poisonLine l) = t at *
      rw [hframe]
      rfl

/-- Every line that an access through BAR 4 touches is exposed. -/
theorem allExposed_iff {s : State} {off len : Nat} :
    ((linesOf off len).all fun l => s.exposed l 64) = true ↔ ∀ l ∈ linesOf off len, s.exposed l 64 = true := List.all_eq_true

theorem notAllExposed {s : State} {off len : Nat} (h : ∃ l ∈ linesOf off len, s.exposed l 64 = false) :
    ¬ ((linesOf off len).all fun l => s.exposed l 64) = true := by
  obtain ⟨l, hl, hhidden⟩ := h
  intro hall
  rw [allExposed_iff.1 hall l hl] at hhidden
  cases hhidden

theorem bar4Op_poisoned {s : State} {off len : Nat} (bs : List Byte) (hall : ((linesOf off len).all fun l => s.exposed l 64) = true) :
    bar4Op off true len bs true s = forEach (linesOf off len) (fun l t => t.poisonLine l) (s.memWrite off (fitBytes len bs)) := by
  rw [bar4Op, if_pos hall, if_pos rfl, if_pos rfl]

section
variable {s : State} {off : Nat} (len : Nat) (bs : List Byte) (hans : s.pf0Answers = true) (hsafe : s.fcl.inSafe = false)
  (hall : ((linesOf off len).all fun l => s.exposed l 64) = true)
include hans hsafe hall

theorem bar4_stores : exec (.bar4Access off true len ⟨true, bs⟩) s = .next (s.memWrite off (fitBytes len bs)) := by
  rw [exec_bar4Access off true len ⟨true, bs⟩ hans hsafe, bar4Op, if_pos hall, if_pos rfl]
  rfl

theorem bar4_poisons : ∃ t, exec (.bar4Access off true len ⟨false, bs⟩) s = .next t ∧ (∀ l ∈ linesOf off len, t.poisoned l 64 = true)
    ∧ (∀ j, t.byteAt j = (s.memWrite off (fitBytes len bs)).byteAt j) ∧ t = { s with clusters := t.clusters, mem := t.mem } := by
  have hrun : exec (.bar4Access off true len ⟨false, bs⟩) s = .next (bar4Op off true len bs true s) := exec_bar4Access _ _ _ _ hans hsafe
  rw [bar4Op_poisoned _ hall] at hrun
  obtain ⟨hmarked, -, hframe⟩ := poisonLines_poisons (linesOf off len) (s.memWrite off (fitBytes len bs))
  generalize forEach (linesOf off len) (fun l t => t.poisonLine l) (s.memWrite off (fitBytes len bs)) = t at *
  refine ⟨t, hrun, fun l hl => poisoned_line (lineOf_linesOf hl) ?_, fun j => ?_, ?_⟩
  · have hmark := hmarked l hl
    rwa [lineOf_linesOf hl] at hmark
  · rw [hframe]
    rfl
  · rw [hframe]
    rfl

variable {len} (p : Bool)

theorem bar4_reads (hgood : s.poisoned off len = false) : ∃ t, exec (.bar4Access off false len ⟨p, bs⟩) s = .next t
    ∧ t.out = s.out ++ [.readData (s.memRead off len)] ∧ t = { s with hlu := t.hlu, out := t.out } := by
  have hrun := exec_bar4Access off false len ⟨p, bs⟩ hans hsafe
  rw [bar4Op, if_pos hall, if_neg Bool.false_ne_true, if_neg (by simp [hgood]), tellHost_sends _ (pf0Answers_linked hans)] at hrun
  exact ⟨_, hrun, rfl, rfl⟩

theorem bar4_readsPoison (hbad : s.poisoned off len = true) : ∃ t, exec (.bar4Access off false len ⟨p, bs⟩) s = .next t
    ∧ t.out = s.out ++ [.cxlData off (s.memRead off len) true] ∧ t.hlu.poisonRd = sat32 s.hlu.poisonRd 1
    ∧ t = { s with fcl := t.fcl, hlu := t.hlu, out := t.out } := by
  have hrun := exec_bar4Access off false len ⟨p, bs⟩ hans hsafe
  have hlink : (s.poisonedRead off).linkPasses = true := pf0Answers_linked hans
  generalize ho : Out.cxlData off (s.memRead off len) true = o
  rw [bar4Op, if_pos hall, if_neg Bool.false_ne_true, if_pos hbad, tellHost_sends _ hlink, ho] at hrun
  have hmet : s.poisonedRead off = { s with fcl := (s.poisonedRead off).fcl, hlu := (s.poisonedRead off).hlu } := rfl
  have hcount : (s.poisonedRead off).hlu.poisonRd = sat32 s.hlu.poisonRd 1 := rfl
  generalize s.poisonedRead off = u at *
  refine ⟨_, hrun, ?_, (send_snooped u o).poisonRd.trans hcount, ?_⟩ <;> rw [hmet] <;> rfl

end

/-- Settles O51: `readTracked_meets` for what a read does before its bytes go out, `poisonLines_poisons` for poisoned writes. -/
theorem hostMemory : Obligations.HostMemory := by
  refine ⟨?commit, ?read, ?stray, ?write, ?lost, ?bar, ?hidden⟩
  case commit =>
    intro d host dev size s hup hans hd
    exact ⟨_, exec_hdmDecoderCommit hup hans hd, tblGet_tblSet_same .., fun k hk => (tblGet_tblSet ..).trans (if_neg hk.symm), rfl⟩
  case read =>
    intro a d caches s hopen haddr hsnoop
    have hrun := exec_cxlMemRead a caches hopen
    obtain ⟨hide, hcount, hinbox, hframe⟩ := readTracked_meets s (lineOf d) caches
    have htracked : caches = true → s.hdmDb = true → (s.readTracked (lineOf d) caches).tracked (lineOf d) = true := by
      rintro rfl hdb
      exact readTracked_tracked hdb
    rw [cxlReadOp_reads caches haddr hsnoop] at hrun
    generalize s.readTracked (lineOf d) caches = t at *
    rw [tellHost_sends _ ((linkPasses_congr hide).trans (cxlMemOpen_linked hopen))] at hrun
    have hsent := send_snooped t (.cxlData (lineOf a) (s.memRead (lineOf d) 64) (s.poisoned (lineOf d) 64))
    refine ⟨_, hrun, List.getLast?_concat, hsent.poisonRd.trans hcount, hinbox, fun h k => ?_, ?_⟩
    · rw [tracked_congr hsent.track]
      exact htracked h k
    · rw [hframe]
      rfl
  case stray =>
    intro a caches s hopen haddr
    have hrun := exec_cxlMemRead a caches hopen
    rw [cxlReadOp, haddr] at hrun
    dsimp only at hrun
    rw [tellHost_sends _ (cxlMemOpen_linked (s := s.strayAccess a) hopen)] at hrun
    exact ⟨_, hrun, rfl, strayAccess_records s a, rfl⟩
  case write =>
    intro a d bs p s hopen haddr
    rw [exec_cxlMemWrite a bs p hopen, cxlWriteOp, haddr]
  case lost =>
    intro a bs p s hopen haddr
    have hrun := exec_cxlMemWrite a bs p hopen
    rw [cxlWriteOp, haddr] at hrun
    exact ⟨_, hrun, strayAccess_records s a, rfl⟩
  case bar =>
    intro off len bs p s hans hsafe hexp
    have hall := allExposed_iff.2 hexp
    exact ⟨bar4_stores len bs hans hsafe hall, bar4_poisons len bs hans hsafe hall, fun h => bar4_reads bs hans hsafe hall p h,
      fun h => bar4_readsPoison bs hans hsafe hall p h⟩
  case hidden =>
    intro off len bs p s hans hsafe hexp
    have hlink := pf0Answers_linked hans
    constructor
    · have hrun := exec_bar4Access off true len ⟨p, bs⟩ hans hsafe
      rw [bar4Op, if_neg (notAllExposed hexp), if_pos rfl] at hrun
      exact ⟨_, hrun, strayAccess_records s off, rfl⟩
    · have hrun := exec_bar4Access off false len ⟨p, bs⟩ hans hsafe
      rw [bar4Op, if_neg (notAllExposed hexp), if_neg Bool.false_ne_true, tellHost_sends (s := s.strayAccess off) _ hlink] at hrun
      exact ⟨_, hrun, strayAccess_records s off, rfl, rfl⟩

end Sys2Proof.Machine
end

section
/-! PROOFS. Answers of the host to back-invalidates and bias requests (R364, R365), snoops (R357), link security (R378, R379). -/
namespace Sys2Proof.Machine

theorem exec_bisnpResponse {l : Nat} {s : State} (data : Option (List Byte)) (hup : s.up = true) (hsnoop : s.hlu.snoops = [(l, false)]) :
    exec (.bisnpResponse l data) s = .next (bisnpOp l data s) := by
  have harm : exec (.bisnpResponse l data) s = execBisnpResponse l data s := rfl
  rw [harm, execBisnpResponse, onlyIf, if_pos (by simp [hup, hsnoop])]

theorem exec_hostBiasResponse {s : State} (l : Nat) (data : Option (List Byte)) (hup : s.up = true) (hd : s.hdmD = true) :
    exec (.hostBiasResponse l data) s = .next (biasOp l data s) := by
  have harm : exec (.hostBiasResponse l data) s = execHostBiasResponse l data s := rfl
  rw [harm, execHostBiasResponse, onlyIf, if_pos (by simp [hup, hd])]

theorem exec_snoopReceived {s : State} (a : Nat) (hrun : s.running = true) (hup : s.hlu.up = true) (hcxl : s.hlu.mode.protocol ≠ 0)
    (hlink : s.linkPasses = true) : exec (.snoopReceived a) s = .next (snoopOp a s) := by
  have harm : exec (.snoopReceived a) s = execSnoopReceived a s := rfl
  rw [harm, execSnoopReceived, onlyIf, if_pos (by simp [hrun, hup, hcxl, hlink])]

theorem exec_ideIntegrityFail {n : Nat} {s : State} (hrun : s.running = true) (hup : s.hlu.up = true) (hn : n < 5)
    (hsecure : s.hlu.ide.getLsbD n = false) : exec (.ideIntegrityFail n) s = .next (ideFailOp n s) := by
  have harm : exec (.ideIntegrityFail n) s = execIdeIntegrityFail n s := rfl
  rw [harm, execIdeIntegrityFail, onlyIf, if_pos (by rw [hrun, hup, hsecure, decide_eq_true hn]; rfl)]

theorem exec_ideKeyProgram {n : Nat} {s : State} (hrun : s.running = true) (hup : s.hlu.up = true) (hn : n < 5) :
    exec (.ideKeyProgram n) s = .next (ideKeyOp n s) := by
  have harm : exec (.ideKeyProgram n) s = execIdeKeyProgram n s := rfl
  rw [harm, execIdeKeyProgram, onlyIf, if_pos (by simp [hrun, hup, hn])]

theorem exec_spdmRequest {s : State} (code param : Nat) (secured : Bool) (hrun : s.running = true) (hready : (s.func 0).ready = true)
    (hflr : (s.func 0).flr = false) (hmp : s.fcl.mpFenced ≠ 3) : exec (.spdmRequest code param secured) s = .next (spdmOp code param s) := by
  have harm : exec (.spdmRequest code param secured) s = execSpdmRequest code param secured s := rfl
  rw [harm, execSpdmRequest, onlyIf, if_pos (by rw [hrun, hready, hflr, bne_iff_ne.2 hmp]; rfl)]

/-- Only device memory with its copies, and what the link keeps, have changed. -/
def OnlyHeldStored (s t : State) : Prop := t = { s with clusters := t.clusters, hlu := t.hlu, mem := t.mem }

theorem onlyHeldStored_trans {s t u : State} (h : OnlyHeldStored s t) (k : OnlyHeldStored t u) : OnlyHeldStored s u := by
  unfold OnlyHeldStored at *
  rw [k, h]

theorem onlyHeldStored_out {s t : State} (h : OnlyHeldStored s t) : t.out = s.out := by rw [h]

theorem memWrite_heldStored (s : State) (a : Nat) (bs : List Byte) : OnlyHeldStored s (s.memWrite a bs) := rfl

theorem modHlu_heldStored (s : State) (f : Hlu → Hlu) : OnlyHeldStored s (s.modHlu f) := rfl

/-! ### A back-invalidate's response -/

/-- The back-invalidate of the one line that has one is over, and what the host held of the line is stored. -/
def State.snoopEnded (s : State) (l : Nat) (data : Option (List Byte)) : State :=
  match data with
  | some bs => (s.modHlu fun h => { h with snoops := [] }).memWrite l (fitBytes 64 bs)
  | none => s.modHlu fun h => { h with snoops := [] }

theorem snoopEnded_heldStored (s : State) (l : Nat) (data : Option (List Byte)) : OnlyHeldStored s (s.snoopEnded l data) := by
  unfold State.snoopEnded
  split
  · exact onlyHeldStored_trans (modHlu_heldStored ..) (memWrite_heldStored ..)
  · exact modHlu_heldStored ..

theorem bisnpOp_inv {l : Nat} {s : State} (data : Option (List Byte)) (hsnoop : s.hlu.snoops = [(l, false)]) :
    bisnpOp l data s = ((s.snoopEnded l data).untrack l).storeHeld l := by
  have hfirst : s.hlu.snoops.find? (fun e => e.1 == l) = some (l, false) := by rw [hsnoop]; simp
  have hnext : s.hlu.snoops[256]? = none := by rw [hsnoop]; rfl
  have hend : (s.modHlu fun h => { h with snoops := h.snoops.erase (l, false) }) = s.modHlu fun h => { h with snoops := [] } := by
    rw [State.modHlu, State.modHlu, hsnoop, List.erase_cons_head]
  unfold bisnpOp
  rw [hfirst, hnext]
  dsimp only
  rw [if_neg Bool.false_ne_true, hend]
  rfl

theorem untrack_heldStored (s : State) (l : Nat) : OnlyHeldStored s (s.untrack l) := modHlu_heldStored ..

theorem untrack_tracked (s : State) (l : Nat) : (s.untrack l).tracked l = false := by
  have hset : tblGet [] (s.untrack l).hlu.track (trackSet l) = (tblGet [] s.hlu.track (trackSet l)).filter fun e => e.1 != l :=
    tblGet_tblMod_same [] s.hlu.track (trackSet l) fun es => es.filter fun e => e.1 != l
  rw [State.tracked, hset, List.any_eq_false]
  intro e he
  simpa using (List.mem_filter.1 he).2

/-- The writes held for the line, no longer waiting. -/
def State.heldFreed (s : State) (l : Nat) : State :=
  s.modHlu fun h => { h with bias := h.bias.filter fun b => !(b.write && b.line == l) }

theorem heldFreed_heldStored (s : State) (l : Nat) : OnlyHeldStored s (s.heldFreed l) := modHlu_heldStored ..

theorem heldFreed_tracked (s : State) (l : Nat) : (s.heldFreed l).tracked l = s.tracked l := tracked_congr rfl l

theorem memWrite_tracked (s : State) (a : Nat) (bs : List Byte) (l : Nat) : (s.memWrite a bs).tracked l = s.tracked l := tracked_congr rfl l

theorem storeHeld_none {s : State} {l : Nat} (h : ∀ b ∈ s.hlu.bias, ¬ (b.write = true ∧ b.line = l)) : s.storeHeld l = s.heldFreed l := by
  have hheld : s.hlu.bias.filter (fun b => b.write && b.line == l) = [] := by
    rw [List.filter_eq_nil_iff]
    intro b hb
    simpa using h b hb
  rw [State.storeHeld, hheld]
  rfl

theorem storeHeld_one {s : State} {l a : Nat} {bs : List Byte} (h : s.hlu.bias = [⟨l, true, a, bs⟩]) :
    s.storeHeld l = (s.heldFreed l).memWrite a bs := by
  have hheld : s.hlu.bias.filter (fun b => b.write && b.line == l) = [⟨l, true, a, bs⟩] := by rw [h]; simp
  rw [State.storeHeld, hheld]
  rfl

/-! ### The host's answer to a bias request -/

theorem biasOp_first {l : Nat} {b : BiasReq} {rest : List BiasReq} {s : State} (h : s.hlu.bias = b :: rest) (hline : b.line = l) :
    s.hlu.bias.find? (fun b => b.line == l) = some b := by
  rw [h]
  simp [hline]

/-- The oldest request, answered. -/
def State.biasAnswered (s : State) (rest : List BiasReq) : State := s.modHlu fun h => { h with bias := rest }

theorem biasErased {b : BiasReq} {rest : List BiasReq} {s : State} (h : s.hlu.bias = b :: rest) :
    (s.modHlu fun h => { h with bias := h.bias.erase b }) = s.biasAnswered rest := by
  rw [State.modHlu, h, List.erase_cons_head]
  rfl

theorem biasOp_own {l a : Nat} {bs : List Byte} {rest : List BiasReq} {s : State} (data : Option (List Byte))
    (hbias : s.hlu.bias = ⟨l, true, a, bs⟩ :: rest) (hbytes : bs ≠ []) : biasOp l data s = (s.biasAnswered rest).memWrite a bs := by
  unfold biasOp
  rw [biasOp_first hbias rfl]
  dsimp only
  rw [biasErased hbias, if_pos (by simp [hbytes])]

/-- The lines whose access may proceed, with `l` among them. -/
def biasKnown (ls : List Nat) (l : Nat) : List Nat := if ls.contains l then ls else ls ++ [l]

theorem biasKnown_mem (ls : List Nat) (l : Nat) : l ∈ biasKnown ls l := by
  unfold biasKnown
  split
  next h => exact List.contains_iff_mem.1 h
  next => exact List.mem_append_right _ List.mem_cons_self

theorem biasOp_copy {l a : Nat} {rest : List BiasReq} {s : State} (bs : List Byte) (hbias : s.hlu.bias = ⟨l, false, a, []⟩ :: rest) :
    biasOp l (some bs) s
      = ((s.biasAnswered rest).memWrite l (fitBytes 64 bs)).modHlu fun h => { h with biasOk := biasKnown h.biasOk l } := by
  unfold biasOp
  rw [biasOp_first hbias rfl]
  dsimp only
  rw [biasErased hbias, if_neg (by simp), if_neg Bool.false_ne_true]
  rfl

/-! ### Streams of the link (R378) -/

theorem keyed_bit (ide : BitVec 5) (n : Nat) : (ide &&& ~~~ BitVec.twoPow 5 n).getLsbD n = false := by
  simp

theorem keyed_other (ide : BitVec 5) {k n : Nat} (h : k ≠ n) : (ide &&& ~~~ BitVec.twoPow 5 n).getLsbD k = ide.getLsbD k := by
  by_cases hk : k < 5
  · simpa [hk] using fun _ => h
  · rw [BitVec.getLsbD_of_ge _ _ (by omega), BitVec.getLsbD_of_ge _ _ (by omega)]

/-! ### SPDM (R379, R468) -/

theorem measuresAsked_other {code : Nat} (param : Nat) (h : code ≠ 0xE0) : measuresAsked code param = [] := if_neg (by simp [h])

theorem measuresAsked_one {param : Nat} (h : param ≤ 6) : measuresAsked 0xE0 param = [param] := by
  have hone : param ≠ 0xFF := by omega
  simp [measuresAsked, hone]

theorem measurement_length {s : State} {i : Nat} (hlow : 1 ≤ i) (hhigh : i ≤ 6) :
    ∃ v, s.measurement i = some v ∧ v.length = if i = 6 then 8 else 48 := by
  have hcases : i = 1 ∨ i = 2 ∨ i = 3 ∨ i = 4 ∨ i = 5 ∨ i = 6 := by omega
  rcases hcases with rfl | rfl | rfl | rfl | rfl | rfl <;> exact ⟨_, rfl, leBytes_length ..⟩

/-- Settles O52: `bisnpOp_inv` for the response to BISnpInv; `measurement_length` for what SPDM returns. -/
theorem coherenceAndSecurity : Obligations.CoherenceAndSecurity := by
  refine ⟨?dirty, ?held, ?own, ?copy, ?miss, ?fail, ?key, ?spdm⟩
  case dirty =>
    intro l bs s hup hsnoop hbias
    have hrun := exec_bisnpResponse (some bs) hup hsnoop
    rw [bisnpOp_inv (some bs) hsnoop, storeHeld_none (s := (s.snoopEnded l (some bs)).untrack l) hbias] at hrun
    have hgone := (heldFreed_tracked ((s.snoopEnded l (some bs)).untrack l) l).trans (untrack_tracked ..)
    have hframe := onlyHeldStored_trans (snoopEnded_heldStored s l (some bs)) (untrack_heldStored _ l)
    have hall := onlyHeldStored_trans hframe (heldFreed_heldStored _ l)
    exact ⟨_, hrun, rfl, rfl, hgone, onlyHeldStored_out hall, hall⟩
  case held =>
    intro l a bs s hup hsnoop hbias
    have hrun := exec_bisnpResponse none hup hsnoop
    rw [bisnpOp_inv none hsnoop, storeHeld_one (s := (s.snoopEnded l none).untrack l) hbias] at hrun
    have hgone := (heldFreed_tracked ((s.snoopEnded l none).untrack l) l).trans (untrack_tracked ..)
    have hbytes := memWrite_tracked (((s.snoopEnded l none).untrack l).heldFreed l) a bs l
    have hframe := onlyHeldStored_trans (snoopEnded_heldStored s l none) (untrack_heldStored _ l)
    refine ⟨_, hrun, rfl, rfl, ?_, hbytes.trans hgone, onlyHeldStored_trans hframe (onlyHeldStored_trans (modHlu_heldStored ..) (memWrite_heldStored ..))⟩
    have hfreed : ((s.snoopEnded l none).untrack l).hlu.bias = [⟨l, true, a, bs⟩] := hbias
    show (((s.snoopEnded l none).untrack l).hlu.bias.filter fun b => !(b.write && b.line == l)) = []
    rw [hfreed]
    simp
  case own =>
    intro l a bs rest data s hup hd hbias hbytes
    have hrun := exec_hostBiasResponse l data hup hd
    rw [biasOp_own data hbias hbytes] at hrun
    exact ⟨_, hrun, rfl, rfl, onlyHeldStored_trans (modHlu_heldStored ..) (memWrite_heldStored ..)⟩
  case copy =>
    intro l a bs rest s hup hd hbias
    have hrun := exec_hostBiasResponse l (some bs) hup hd
    rw [biasOp_copy bs hbias] at hrun
    exact ⟨_, hrun, rfl, rfl, biasKnown_mem s.hlu.biasOk l, rfl⟩
  case miss =>
    intro a s hrun hup hcxl hlink
    exact ⟨_, exec_snoopReceived a hrun hup hcxl hlink, rfl, rfl⟩
  case fail =>
    intro n s hrun hup hn hsecure
    exact ⟨_, exec_ideIntegrityFail hrun hup hn hsecure, rfl, ⟨_, rfl, rfl, rfl, rfl⟩, rfl⟩
  case key =>
    intro n s hrun hup hn
    refine ⟨_, exec_ideKeyProgram hrun hup hn, ?_, fun k hk => ?_, rfl⟩
    · exact keyed_bit s.hlu.ide n
    · exact keyed_other s.hlu.ide hk
  case spdm =>
    intro code param secured s hrun hready hflr hmp hlink
    have hans := exec_spdmRequest code param secured hrun hready hflr hmp
    rw [spdmOp, tellHost_sends _ hlink] at hans
    refine ⟨_, hans, fun h => ?_, fun h hlow hhigh => ?_, rfl⟩
    · rw [measuresAsked_other param h]
      rfl
    · obtain ⟨v, hv, hlen⟩ := measurement_length (s := s) hlow hhigh
      refine ⟨v, hv, hlen, ?_⟩
      rw [h, measuresAsked_one hhigh, List.filterMap_cons, hv]
      rfl

end Sys2Proof.Machine
end

section
/-! PROOFS. What a channel's operations change: its own record alone, and of that the in-order modes, the drain and the state when it settles. -/
namespace Sys2Proof.Machine

/-! ### Tables changed key by key -/

/-- A pass over the keys below `n` changes each of them once. -/
theorem tblGet_forUpTo {α : Type} [DecidableEq α] (d : α) (f : Nat → α → α) (t : Tbl α) (n k : Nat) :
    tblGet d (forUpTo n (fun p u => tblMod d u p (f p)) t) k = if k < n then f k (tblGet d t k) else tblGet d t k := by
  induction n with
  | zero => rfl
  | succ n ih =>
    rw [forUpTo]
    by_cases hk : n = k
    · subst hk
      rw [tblGet_tblMod_same, ih, if_neg (Nat.lt_irrefl n), if_pos (Nat.lt_succ_self n)]
    · rw [tblGet_tblMod_other _ _ _ _ _ hk, ih]
      simp only [show k < n ↔ k < n + 1 by omega]

/-- Without the keys that fail `p`, a table reads its default there and is unchanged elsewhere. -/
theorem tblGet_filter {α : Type} (d : α) (p : Nat → Bool) (t : Tbl α) (k : Nat) :
    tblGet d (t.filter fun e => p e.1) k = if p k then tblGet d t k else d := by
  induction t with
  | nil => exact (ite_self d).symm
  | cons e t ih =>
    obtain ⟨j, v⟩ := e
    by_cases hk : j = k
    · subst hk
      by_cases hp : p j = true
      · rw [List.filter_cons_of_pos (by exact hp), tblGet, tblGet, if_pos rfl, if_pos rfl, if_pos hp]
      · rw [List.filter_cons_of_neg (by exact hp), ih, if_neg hp, if_neg hp]
    · by_cases hp : p j = true
      · rw [List.filter_cons_of_pos (by exact hp), tblGet, tblGet, if_neg hk, if_neg hk, ih]
      · rw [List.filter_cons_of_neg (by exact hp), ih, tblGet, if_neg hk]

/-! ### One channel's record -/

/-- Of device memory's state, and of the whole, only the record of channel `k` and the count of backoffs have changed. -/
structure OnlyChn (k : Nat) (s t : State) : Prop where
  others : ∀ j, j ≠ k → t.chn j = s.chn j
  frame : t = { s with mem := t.mem }

theorem onlyChn_refl (k : Nat) (s : State) : OnlyChn k s s := ⟨fun _ _ => rfl, rfl⟩

theorem onlyChn_trans {k : Nat} {s t u : State} (h : OnlyChn k s t) (l : OnlyChn k t u) : OnlyChn k s u :=
  ⟨fun j hj => (l.others j hj).trans (h.others j hj), by rw [l.frame, h.frame]⟩

theorem modChn_only (s : State) (k : Nat) (f : Chn → Chn) : OnlyChn k s (s.modChn k f) :=
  ⟨fun j hj => modChn_chn_other s k j f hj.symm, rfl⟩

theorem settleChn_only (s : State) (k : Nat) : OnlyChn k s (s.settleChn k) := modChn_only ..

/-- What settling changes of a channel: in-order modes, the drain and the state, which a calibration changes once the queue is empty. -/
structure Settles (c d : Chn) : Prop where
  state : d.state = if c.calPend && c.state == 1 && c.queue.isEmpty then 2 else c.state
  frame : d = { c with inOrder := d.inOrder, inorderN := d.inorderN, drain := d.drain, state := d.state }

/-- A channel whose in-order modes alone have changed. -/
def OnlyOrdered (c d : Chn) : Prop := d = { c with inOrder := d.inOrder, inorderN := d.inorderN }

theorem settleBank_ordered (s : State) (b : Nat) (c : Chn) : OnlyOrdered c (s.settleBank b c) := by
  unfold State.settleBank
  dsimp only
  split
  · split <;> rfl
  · split <;> rfl

theorem settleBanks_ordered (s : State) (bs : List Nat) (c : Chn) : OnlyOrdered c (forEach bs (fun b x => s.settleBank b x) c) := by
  refine forEach_induct (P := OnlyOrdered c) bs (fun b _ d hd => ?_) c rfl
  have hb := settleBank_ordered s b d
  unfold OnlyOrdered at *
  rw [hb, hd]

theorem settleChn_settles (s : State) (k : Nat) : Settles (s.chn k) ((s.settleChn k).chn k) := by
  rw [State.settleChn, modChn_chn]
  dsimp only
  have hbanks := settleBanks_ordered s (s.busyBanks (s.chn k)) (s.chn k)
  generalize forEach (s.busyBanks (s.chn k)) (fun b x => s.settleBank b x) (s.chn k) = d at *
  unfold OnlyOrdered at hbanks
  rw [hbanks]
  exact ⟨rfl, rfl⟩

end Sys2Proof.Machine
end

section
/-! PROOFS. The arbiters of the cluster ports and of the channels' ingress (R404, R406 to R408, R410). -/
namespace Sys2Proof.Machine

/-! ### A cluster port's grant (R404) -/

theorem mem_sortBy {α : Type} {key : α → Int} {xs : List α} {y : α} : y ∈ sortBy key xs ↔ y ∈ xs := by
  induction xs with
  | nil => exact Iff.rfl
  | cons x xs ih =>
    rw [sortBy, List.mem_append, List.mem_cons, List.mem_filter, List.mem_filter, ih, List.mem_cons, decide_eq_true_iff, decide_eq_true_iff]
    tauto

theorem sortBy_pairwise {α : Type} (key : α → Int) (xs : List α) : (sortBy key xs).Pairwise fun a b => key a ≤ key b := by
  induction xs with
  | nil => exact List.Pairwise.nil
  | cons x xs ih =>
    rw [sortBy, List.pairwise_append, List.pairwise_cons]
    refine ⟨ih.filter _, ⟨fun y hy => ?_, ih.filter _⟩, fun y hy z hz => ?_⟩
    · exact Int.not_lt.1 (of_decide_eq_true (List.mem_filter.1 hy).2)
    · have hlow : key y < key x := of_decide_eq_true (List.mem_filter.1 hy).2
      rcases List.mem_cons.1 hz with rfl | hz
      · exact Int.le_of_lt hlow
      · exact (Int.le_of_lt hlow).trans (Int.not_lt.1 (of_decide_eq_true (List.mem_filter.1 hz).2))

/-- The first of a list sorted by a key is of the list, and none of the list has a lesser key. -/
theorem sortBy_head {α : Type} {key : α → Int} {xs ys : List α} {w : α} (h : sortBy key xs = w :: ys) :
    w ∈ xs ∧ ∀ y ∈ xs, key w ≤ key y := by
  have hsorted := sortBy_pairwise key xs
  rw [h] at hsorted
  refine ⟨mem_sortBy.1 (h ▸ List.mem_cons_self), fun y hy => ?_⟩
  have hin : y ∈ w :: ys := h ▸ mem_sortBy.2 hy
  rcases List.mem_cons.1 hin with rfl | hrest
  · exact Int.le_refl _
  · exact List.rel_of_pairwise_cons hsorted hrest

theorem exec_portGrant {c : Nat} {reqs : List (Nat × Txn)} {s : State} (hlive : s.live = true) (hc : c < 8)
    (haddr : ∀ r ∈ reqs, r.2.addr < s.memSize) : exec (.portGrant c reqs) s = .next (portGrantOp c reqs s) := by
  have harm : exec (.portGrant c reqs) s = execPortGrant c reqs s := rfl
  have hall : reqs.find? (fun r => decide (s.memSize ≤ r.2.addr)) = none :=
    List.find?_eq_none.2 fun r hr h => absurd (of_decide_eq_true h) (Nat.not_le.2 (haddr r hr))
  rw [harm, execPortGrant, hall, onlyIf, if_pos (by simp [hlive, hc])]

/-- The requester that a cluster port grants. -/
theorem order_head {c : Cluster} {reqs rest : List (Nat × Txn)} {w : Nat × Txn}
    (h : c.order (reqs.filter fun r => decide (r.1 < 17)) = w :: rest) :
    w ∈ reqs ∧ w.1 < 17 ∧ ∀ r ∈ reqs, r.1 < 17 → tblGet 0 c.credits r.1 < tblGet 0 c.credits w.1
      ∨ (tblGet 0 c.credits r.1 = tblGet 0 c.credits w.1 ∧ w.1 ≤ r.1) := by
  obtain ⟨hmem, hleast⟩ := sortBy_head h
  obtain ⟨hreq, hlow⟩ := List.mem_filter.1 hmem
  have hw : w.1 < 17 := of_decide_eq_true hlow
  refine ⟨hreq, hw, fun r hr hport => ?_⟩
  have hkey := hleast r (List.mem_filter.2 ⟨hr, decide_eq_true hport⟩)
  omega

theorem portGrantOp_grants {c : Nat} {reqs rest : List (Nat × Txn)} {w : Nat × Txn} {s : State}
    (h : (s.cluster c).order (reqs.filter fun r => decide (r.1 < 17)) = w :: rest) :
    portGrantOp c reqs s = s.modCluster c fun k =>
      { k with credits := tblMod 0 k.credits w.1 fun x => clampCredit 16 (x - (w.2.granules : Int))
               hints := s.hintLosers c w.2.granules rest (tblSet 0 k.hints w.1 0) } := by
  rw [portGrantOp, h]

theorem order_exists {c : Cluster} {reqs : List (Nat × Txn)} (h : ∃ r ∈ reqs, r.1 < 17) :
    ∃ w rest, c.order (reqs.filter fun r => decide (r.1 < 17)) = w :: rest := by
  obtain ⟨r, hr, hport⟩ := h
  have hin : r ∈ c.order (reqs.filter fun r => decide (r.1 < 17)) := mem_sortBy.2 (List.mem_filter.2 ⟨hr, decide_eq_true hport⟩)
  exact List.exists_cons_of_ne_nil (List.ne_nil_of_mem hin)

/-! ### A channel's ingress point (R406 to R408) -/

theorem exec_ingressGrant {k : Nat} {x : Txn} {s : State} (hlive : s.live = true) (hk : k < 16) (haddr : x.addr < s.memSize) :
    exec (.ingressGrant k [x]) s = .next (ingressOp k [x] s) := by
  have harm : exec (.ingressGrant k [x]) s = execIngressGrant k [x] s := rfl
  have hall : [x].find? (fun t => decide (s.memSize ≤ t.addr)) = none :=
    List.find?_eq_none.2 fun t ht h => absurd (of_decide_eq_true h) (Nat.not_le.2 (List.mem_singleton.1 ht ▸ haddr))
  rw [harm, execIngressGrant, hall, onlyIf, if_pos (by simp [hlive, hk])]

/-- One requester asks an active channel that does not drain, and its backoff is over. -/
structure Asks (s : State) (k : Nat) (x : Txn) : Prop where
  port : x.port < 14
  channel : channelOf x.addr = k
  rested : tblGet 0 (s.chn k).waitTill x.port = 0
  active : (s.chn k).state = 1
  undrained : (s.chn k).calPend = false

/-- The one requester is refused. -/
def State.refused (s : State) (k : Nat) (x : Txn) : State :=
  (s.modChn k (Chn.refuse s.time x.port)).modMem fun m => { m with backoffs := sat32 m.backoffs 1 }

/-- The one requester is granted. -/
def State.granted1 (s : State) (k : Nat) (x : Txn) : State := (s.modChn k (Chn.take s.time x)).settleChn k

theorem ingressOp_one {k : Nat} {x : Txn} {s : State} (h : Asks s k x) :
    ingressOp k [x] s = if (s.chn k).refuses x.port then s.refused k x
      else match (s.chn k).winner [x] with
        | none => s
        | some t => s.granted1 k t := by
  obtain ⟨hport, hchannel, hrested, hactive, hundrained⟩ := h
  have hts : [x].filter (fun t => decide (t.port < 14) && channelOf t.addr == k && tblGet 0 (s.chn k).waitTill t.port == 0) = [x] := by
    rw [List.filter_cons_of_pos (by simp [hport, hchannel, hrested]), List.filter_nil]
  have hstays : ¬ ((s.chn k).state == 3) = true := by rw [hactive]; decide
  have hopen : ¬ ((s.chn k).state != 1 || (s.chn k).calPend) = true := by rw [hactive, hundrained]; decide
  simp only [ingressOp, hts, List.isEmpty_cons, Bool.false_eq_true, if_false, if_neg hstays, if_neg hopen]
  by_cases h : (s.chn k).refuses x.port = true
  · have hno : (s.chn k).winner [] = none := rfl
    rw [if_pos h, List.filter_cons_of_neg (by simp [h]), List.filter_nil, List.filter_cons_of_pos (by exact h), List.filter_nil, hno]
    rfl
  · rw [if_neg h, List.filter_cons_of_pos (by simp [h]), List.filter_nil, List.filter_cons_of_neg (by exact h), List.filter_nil]
    rfl

theorem winner_foreground {c : Chn} {x : Txn} (h : x.port < 12) : c.winner [x] = some x := by
  have hscrub : ((x.port == 12) = false) ∧ ((x.port == 13) = false) := by
    constructor <;> rw [beq_eq_false_iff_ne] <;> omega
  have hbest : c.fgWinner [x] = some x := by
    unfold Chn.fgWinner
    rw [List.filter_cons_of_pos (by simp [h]), List.filter_nil]
    dsimp only
    by_cases hf : c.floored x.port = true
    · rw [List.filter_cons_of_neg (by simp [hf])]
      rfl
    · rw [List.filter_cons_of_pos (by simp [hf])]
      rfl
  rw [Chn.winner, List.filter_cons_of_neg (by simp [hscrub.1]), List.filter_cons_of_neg (by simp [hscrub.2])]
  exact hbest

theorem winner_background {c : Chn} {x : Txn} (hport : x.port = 12 ∨ x.port = 13) (hcover : (x.granules : Int) ≤ tblGet 0 c.bgCredit (x.port - 12)) :
    c.winner [x] = some x := by
  have helig : c.bgEligible x = true := by
    rw [Chn.bgEligible, Bool.and_eq_true, decide_eq_true_iff, decide_eq_true_iff]
    exact ⟨by omega, hcover⟩
  rcases hport with h | h
  · rw [Chn.winner, List.filter_cons_of_pos (by rw [h, helig]; rfl)]
    rfl
  · rw [Chn.winner, List.filter_cons_of_neg (by simp [h]), List.filter_cons_of_pos (by rw [h, helig]; rfl)]
    rfl

/-- What a grant leaves of its channel, which settles after it. -/
structure Granted (c d : Chn) (now : Nat) (x : Txn) : Prop where
  queue : d.queue = (c.take now x).queue
  credits : d.credits = (c.take now x).credits
  bgCredit : d.bgCredit = (c.take now x).bgCredit
  served : d.served = (c.take now x).served
  backoff : d.backoff = (c.take now x).backoff

theorem granted1_grants (s : State) (k : Nat) (x : Txn) : OnlyChn k s (s.granted1 k x) ∧ Granted (s.chn k) ((s.granted1 k x).chn k) s.time x := by
  have hsettles := (settleChn_settles (s.modChn k (Chn.take s.time x)) k).frame
  rw [modChn_chn] at hsettles
  refine ⟨onlyChn_trans (modChn_only ..) (settleChn_only ..), ?_⟩
  unfold State.granted1
  generalize ((s.modChn k (Chn.take s.time x)).settleChn k).chn k = d at *
  rw [hsettles]
  exact ⟨rfl, rfl, rfl, rfl, rfl⟩

theorem refused_only (s : State) (k : Nat) (x : Txn) : OnlyChn k s (s.refused k x) :=
  onlyChn_trans (modChn_only s k (Chn.refuse s.time x.port)) ⟨fun _ _ => rfl, rfl⟩

theorem refused_chn (s : State) (k : Nat) (x : Txn) : (s.refused k x).chn k = (s.chn k).refuse s.time x.port := modChn_chn ..

/-! ### Backoffs, refills and weights (R406, R408, R410) -/

theorem exec_backoffExpiry {k p : Nat} {s : State} (hlive : s.live = true) (hk : k < 16) (hwait : tblGet 0 (s.chn k).waitTill p ≠ 0) :
    exec (.backoffExpiry k p) s
      = .next ((s.reach (ceilDiv (tblGet 0 (s.chn k).waitTill p - 1) 2)).modChn k fun c => { c with waitTill := tblSet 0 c.waitTill p 0 }) := by
  have harm : exec (.backoffExpiry k p) s = execBackoffExpiry k p s := rfl
  rw [harm, execBackoffExpiry, onlyIf, if_pos (by simp [hlive, hk]), backoffOp, if_neg (by simpa using hwait)]

theorem exec_creditRefill {k : Nat} {s : State} (hlive : s.live = true) (hk : k < 16) :
    exec (.creditRefill k) s = .next (s.refillChn k) := by
  have harm : exec (.creditRefill k) s = execCreditRefill k s := rfl
  rw [harm, execCreditRefill, onlyIf, if_pos hlive, refillOp, if_pos hk]

theorem exec_mfxWeightWrite {k p : Nat} {s : State} (v : Word) (hlive : s.fnLive 0 = true) (hk : k < 16) (hp : p < 12) :
    exec (.mfxWeightWrite k p v) s = .next (weightOp k p v s) := by
  have harm : exec (.mfxWeightWrite k p v) s = execMfxWeightWrite k p v s := rfl
  rw [harm, execMfxWeightWrite, onlyIf, if_pos (by simp [hlive, hk, hp])]

/-- The channel with the weight of a port as written. -/
def Chn.weighed (c : Chn) (p w : Nat) : Chn := { c with weights := tblSet 0 c.weights p (w + 1) }

theorem weighed_weightOf (c : Chn) (p w : Nat) : (c.weighed p w).weightOf p = w := by
  have hkey : tblGet 0 (c.weighed p w).weights p = w + 1 := tblGet_tblSet_same 0 c.weights p (w + 1)
  rw [Chn.weightOf, hkey]
  rfl

theorem weighed_weightOf_other (c : Chn) {p r : Nat} (w : Nat) (h : r ≠ p) : (c.weighed p w).weightOf r = c.weightOf r := by
  have hkey : tblGet 0 (c.weighed p w).weights r = tblGet 0 c.weights r :=
    (tblGet_tblSet 0 c.weights p r (w + 1)).trans (if_neg h.symm)
  rw [Chn.weightOf, hkey, Chn.weightOf]

theorem weightOp_chn (k p : Nat) (v : Word) (s : State) :
    (weightOp k p v s).chn k
      = { (s.chn k).weighed p (max 1 (v.toNat % 1024)) with
          credits := tblMod 0 (s.chn k).credits p (clampCredit ((s.chn k).inForce (max 1 (v.toNat % 1024)))) } := by
  have hlow : fld v.toNat 0 10 = v.toNat % 1024 := fld_zero v.toNat 10
  have hweight := weighed_weightOf (s.chn k) p (max 1 (v.toNat % 1024))
  rw [weightOp, modChn_chn, hlow]
  unfold Chn.weighed at hweight
  dsimp only
  rw [hweight]
  rfl

/-- Settles O39: `sortBy_head` for the port's grant, `ingressOp_one` with `granted1_grants` for the channel's, `tblGet_forUpTo` for refills. -/
theorem fabricArbitration : Obligations.FabricArbitration := by
  refine ⟨?port, ?grant, ?refuse, ?background, ?rested, ?refill, ?weight⟩
  case port =>
    intro c reqs s hlive hc haddr hsome
    obtain ⟨w, rest, horder⟩ := order_exists (c := s.cluster c) hsome
    obtain ⟨hmem, hport, hfirst⟩ := order_head horder
    have hrun := exec_portGrant hlive hc haddr
    rw [portGrantOp_grants horder] at hrun
    refine ⟨_, w, hrun, hmem, hport, hfirst, ?_, fun p hp => ?_, fun d hd => modCluster_cluster_other s c d _ hd.symm, rfl⟩
    · rw [modCluster_cluster]
      dsimp only
      rw [tblGet_tblMod_same]
    · rw [modCluster_cluster]
      dsimp only
      rw [tblGet_tblMod_other _ _ _ _ _ hp.symm]
  case grant =>
    intro k x s hlive hk haddr hport hchannel hrested hactive hundrained hroom
    have hrun := exec_ingressGrant hlive hk haddr
    rw [ingressOp_one ⟨by omega, hchannel, hrested, hactive, hundrained⟩, if_neg (by simp [hroom]), winner_foreground hport] at hrun
    obtain ⟨⟨hothers, hframe⟩, hqueue, hcredits, -, -, hbackoff⟩ := granted1_grants s k x
    have hcharge : ((s.chn k).take s.time x).credits = tblMod 0 (s.chn k).credits x.port fun n =>
        clampCredit ((s.chn k).inForce ((s.chn k).weightOf x.port)) (n - (x.granules : Int)) := if_pos hport
    refine ⟨_, hrun, ⟨_, hqueue, rfl, rfl, rfl, rfl, rfl⟩, ?_, fun p hp => ?_, ?_, hothers, hframe⟩
    · rw [hcredits, hcharge]
      exact tblGet_tblMod_same ..
    · rw [hcredits, hcharge]
      exact tblGet_tblMod_other _ _ _ _ _ hp.symm
    · rw [hbackoff]
      exact tblGet_tblSet_same 0 (s.chn k).backoff x.port 0
  case refuse =>
    intro k x s hlive hk haddr hport hchannel hrested hactive hundrained hfull
    have hrun := exec_ingressGrant hlive hk haddr
    rw [ingressOp_one ⟨by omega, hchannel, hrested, hactive, hundrained⟩, if_pos hfull] at hrun
    obtain ⟨hothers, hframe⟩ := refused_only s k x
    refine ⟨_, hrun, ?_, ?_, rfl, hothers, hframe⟩
    · rw [refused_chn]
      rfl
    · rw [refused_chn]
      have hlen : tblGet 0 ((s.chn k).refuse s.time x.port).backoff x.port
          = if tblGet 0 (s.chn k).backoff x.port == 0 then 8 else min 1024 (2 * tblGet 0 (s.chn k).backoff x.port) := tblGet_tblSet_same ..
      rw [hlen]
      simp only [beq_iff_eq]
  case background =>
    intro k x s hlive hk haddr hport hchannel hrested hactive hundrained hroom hcover
    have hrun := exec_ingressGrant hlive hk haddr
    rw [ingressOp_one ⟨by omega, hchannel, hrested, hactive, hundrained⟩, if_neg (by simp [hroom]), winner_background hport hcover] at hrun
    obtain ⟨⟨hothers, hframe⟩, hqueue, hcredits, hbg, hserved, -⟩ := granted1_grants s k x
    have hback : 12 ≤ x.port := by omega
    have hfront : ¬ x.port < 12 := by omega
    have hcharge : ((s.chn k).take s.time x).bgCredit = tblMod 0 (s.chn k).bgCredit (x.port - 12) fun n => max 0 (n - (x.granules : Int)) :=
      if_pos hback
    have hmoved : ((s.chn k).take s.time x).served = tblMod 0 (s.chn k).served (x.port - 12) (· + x.granules) := if_pos hback
    have hkept : ((s.chn k).take s.time x).credits = (s.chn k).credits := if_neg hfront
    refine ⟨_, hrun, ⟨_, hqueue, rfl, rfl, rfl, rfl, rfl⟩, ?_, ?_, hcredits.trans hkept, hothers, hframe⟩
    · rw [hbg, hcharge, tblGet_tblMod_same]
      exact max_eq_right (by omega)
    · rw [hserved, hmoved]
      exact tblGet_tblMod_same ..
  case rested =>
    intro k p s hlive hk hwait
    have hrun := exec_backoffExpiry hlive hk hwait
    obtain ⟨hothers, -⟩ := modChn_only (s.reach (ceilDiv (tblGet 0 (s.chn k).waitTill p - 1) 2)) k fun c =>
      { c with waitTill := tblSet 0 c.waitTill p 0 }
    refine ⟨_, hrun, ?_, rfl, ?_, hothers, rfl⟩
    · rw [modChn_chn]
      dsimp only
      rw [tblGet_tblSet_same]
    · rw [modChn_chn]
      rfl
  case refill =>
    intro k s hlive hk
    have hrun := exec_creditRefill hlive hk
    refine ⟨_, hrun, fun p hp => ?_, ?_, (modChn_only s k _).others, rfl⟩
    · rw [State.refillChn, modChn_chn]
      dsimp only
      rw [tblGet_forUpTo 0 _ (s.chn k).credits 12 p, if_pos hp]
    · rw [State.refillChn, modChn_chn]
  case weight =>
    intro k p v s hlive hk hp
    have hrun := exec_mfxWeightWrite v hlive hk hp
    have hchn := weightOp_chn k p v s
    refine ⟨_, hrun, ?_, fun r hr => ?_, ?_, (modChn_only s k _).others, rfl⟩
    · rw [hchn]
      exact weighed_weightOf ..
    · rw [hchn]
      exact weighed_weightOf_other _ _ hr
    · rw [hchn]
      exact tblGet_tblMod_same ..

end Sys2Proof.Machine
end

section
/-! PROOFS. DRAM commands, read errors and the patrol scrub (R411 to R413, R418, R421, R422, R426). -/
namespace Sys2Proof.Machine

/-! ### The command scheduler (R411, R412, R418) -/

theorem exec_dramCommand {k : Nat} {s : State} (hlive : s.live = true) (hk : k < 16) (hissues : (s.chn k).issues = true) :
    exec (.dramCommand k) s = .next (commandOp k s) := by
  have harm : exec (.dramCommand k) s = execDramCommand k s := rfl
  rw [harm, execDramCommand, onlyIf, if_pos (by simp [hlive, hk, hissues])]

/-- The rank of the transaction leaves power-down. -/
def State.rankWoken (s : State) (k r : Nat) : State := s.modChn k fun c => { c with pdown := without c.pdown r }

/-- The transaction leaves the queue with its column command. -/
def State.columnIssued (s : State) (k : Nat) (x : QTxn) : State :=
  s.modChn k fun c => { c with queue := c.queue.filter fun u => u.arrived != x.arrived, grant := none }

/-- The row of the transaction opens. -/
def State.rowOpened (s : State) (k : Nat) (x : QTxn) : State :=
  s.modChn k fun c => { c with openRow := tblSet 0 c.openRow (s.bankOf x.addr) (rowOf x.addr + 1), grant := some x.arrived }

theorem commandOp_picks {k : Nat} {x : QTxn} {s : State} (hpick : s.pick (s.chn k) = some x) :
    commandOp k s = if (s.chn k).pdown.contains (bankRank (s.bankOf x.addr)) then s.rankWoken k (bankRank (s.bankOf x.addr))
      else if s.rowOpen (s.chn k) x then (s.columnIssued k x).settleChn k else (s.rowOpened k x).settleChn k := by
  rw [commandOp, hpick]
  rfl

theorem settleChn_openRow (s : State) (k : Nat) : ((s.settleChn k).chn k).openRow = (s.chn k).openRow := by
  rw [(settleChn_settles s k).frame]

theorem settleChn_queue (s : State) (k : Nat) : ((s.settleChn k).chn k).queue = (s.chn k).queue := by
  rw [(settleChn_settles s k).frame]

theorem without_not_mem (xs : List Nat) (x : Nat) : x ∉ without xs x := by simp [without]

/-! ### Read data (R413, R422, R426) -/

theorem exec_dramReadData {k a : Nat} {r : EccResult} {s : State} (ha : a < s.memSize) :
    exec (.dramReadData k a r) s = .next (onlyIf (s.live && channelOf a == k) (readDataOp k a r) s) := by
  have harm : exec (.dramReadData k a r) s = execDramReadData k a r s := rfl
  rw [harm, execDramReadData, if_neg (Nat.not_le.2 ha)]

theorem exec_dramReadData_live {a : Nat} {r : EccResult} {s : State} (hlive : s.live = true) (ha : a < s.memSize) :
    exec (.dramReadData (channelOf a) a r) s = .next (readDataOp (channelOf a) a r s) := by
  rw [exec_dramReadData ha, onlyIf, if_pos (by simp [hlive])]

/-- A corrected error of rank `r`, counted and recorded. -/
def State.correctedNoted (s : State) (k r a : Nat) : State :=
  (s.modChn k fun c => { c with ce := tblMod 0 c.ce r fun n => min 65535 (n + 1) }).report 0x06 (0xB0 + k) none none r 0 a

theorem correctedNoted_chn (s : State) (k r a : Nat) :
    (s.correctedNoted k r a).chn k = { s.chn k with ce := tblMod 0 (s.chn k).ce r fun n => min 65535 (n + 1) } := modChn_chn ..

theorem correctedNoted_ce (s : State) (k r a : Nat) :
    tblGet 0 ((s.correctedNoted k r a).chn k).ce r = min 65535 (tblGet 0 (s.chn k).ce r + 1) := by
  rw [correctedNoted_chn]
  dsimp only
  rw [tblGet_tblMod_same]

theorem correctedOn_below {k r : Nat} {s : State} (a : Nat) (hlow : min 65535 (tblGet 0 (s.chn k).ce r + 1) < (s.chn k).thresh) :
    s.correctedOn k r a = s.correctedNoted k r a := by
  have hthresh : ((s.correctedNoted k r a).chn k).thresh = (s.chn k).thresh := by rw [correctedNoted_chn]
  have hbelow : ¬ ((s.correctedNoted k r a).chn k).thresh ≤ tblGet 0 ((s.correctedNoted k r a).chn k).ce r := by
    rw [hthresh, correctedNoted_ce]
    exact Nat.not_le.2 hlow
  exact if_neg hbelow

/-! #### What an uncorrectable error sets going only adds fault reports -/

/-- The fault reports that waited still wait. -/
def KeepsReports (s t : State) : Prop := s.fcl.inbox <+: t.fcl.inbox

theorem keepsReports_trans {s t u : State} (h : KeepsReports s t) (k : KeepsReports t u) : KeepsReports s u := List.IsPrefix.trans h k

theorem keepsReports_of_same {s t : State} (h : t.fcl = s.fcl) : KeepsReports s t := by
  unfold KeepsReports
  rw [h]

theorem report_keepsReports (s : State) (code source : Nat) (fn session : Option Nat) (info : Nat) (tag : BitVec 16) (a : Nat) :
    KeepsReports s (s.report code source fn session info tag a) := List.prefix_append ..

theorem forEach_keepsReports {β : Type} {f : β → State → State} (xs : List β) (hf : ∀ x t, KeepsReports t (f x t)) (s : State) :
    KeepsReports s (forEach xs f s) :=
  forEach_induct (P := KeepsReports s) xs (fun x _ t h => keepsReports_trans h (hf x t)) s (keepsReports_of_same rfl)

theorem forUpTo_keepsReports {f : Nat → State → State} (n : Nat) (hf : ∀ k t, KeepsReports t (f k t)) (s : State) :
    KeepsReports s (forUpTo n f s) :=
  forUpTo_induct (P := KeepsReports s) n (fun k t h => keepsReports_trans h (hf k t)) s (keepsReports_of_same rfl)

theorem faultReset_fcl (s : State) (n : Nat) (lines : List Nat) : (s.faultReset n lines).fcl = s.fcl := by
  rw [(faultReset_drained s n lines).frame]

theorem writeDir_keepsReports (s : State) (n : Nat) : KeepsReports s (s.writeDir n) :=
  keepsReports_of_same (by rw [(writeDir_closed s n).frame])

theorem modSess_keepsReports (s : State) (n : Nat) (f : Session → Session) : KeepsReports s (s.modSess n f) := keepsReports_of_same rfl

theorem modMem_keepsReports (s : State) (f : Mem → Mem) : KeepsReports s (s.modMem f) := keepsReports_of_same rfl

theorem modChn_keepsReports (s : State) (k : Nat) (f : Chn → Chn) : KeepsReports s (s.modChn k f) := keepsReports_of_same rfl

theorem modPool_keepsReports (s : State) (p : Nat) (f : Pool → Pool) : KeepsReports s (s.modPool p f) := keepsReports_of_same rfl

theorem faultReset_keepsReports (s : State) (n : Nat) (lines : List Nat) : KeepsReports s (s.faultReset n lines) :=
  keepsReports_of_same (faultReset_fcl s n lines)

theorem rebuildSession_keepsReports (s : State) (n : Nat) : KeepsReports s (s.rebuildSession n) := by
  unfold State.rebuildSession
  split
  · exact keepsReports_of_same rfl
  · exact keepsReports_trans (keepsReports_trans (faultReset_keepsReports s n []) (modSess_keepsReports ..)) (writeDir_keepsReports ..)

theorem loseContext_keepsReports (s : State) (base l : Nat) : KeepsReports s (s.loseContext base l) := by
  unfold State.loseContext
  dsimp only
  split
  · exact keepsReports_of_same rfl
  · exact faultReset_keepsReports ..

theorem loseLine_keepsReports (s : State) (a : Nat) : KeepsReports s (s.loseLine a) := by
  unfold State.loseLine
  dsimp only
  split
  · exact keepsReports_of_same rfl
  · split
    · exact loseContext_keepsReports ..
    · split
      · exact keepsReports_trans (forUpTo_keepsReports 8 (fun _ t => rebuildSession_keepsReports t _) s) (modMem_keepsReports ..)
      · split
        · exact forEach_keepsReports _ (fun p t => modPool_keepsReports t p _) s
        · exact forEach_keepsReports _ (fun n t => faultReset_keepsReports t n _) s

theorem capacity_keepsReports (s : State) (k cause arg : Nat) : KeepsReports s (s.capacity k cause arg) :=
  keepsReports_trans (keepsReports_of_same (onlyNoted_fcl (event_noted ..))) (report_keepsReports ..)

theorem retireSession_keepsReports (s : State) (n : Nat) : KeepsReports s (s.retireSession n) := by
  unfold State.retireSession
  dsimp only
  split
  · exact keepsReports_trans (faultReset_keepsReports s n []) (modSess_keepsReports ..)
  · exact keepsReports_of_same rfl

theorem retirePool_keepsReports (s : State) (p : Nat) : KeepsReports s (s.retirePool p) := modPool_keepsReports ..

/-- The stripe retired and its rank out of service, before that is told. -/
def State.stripeMarked (s : State) (k r st : Nat) : State :=
  (s.modChn k fun c => { c with retired := c.retired ||| BitVec.twoPow 4 st, outRanks := c.outRanks ||| BitVec.twoPow 4 r }).modMem fun m =>
    { m with pendRec := m.pendRec ++ [(k, st, r, true)] }

theorem retireStripe_keepsReports (s : State) (k r st : Nat) : KeepsReports s (s.retireStripe k r st) := by
  unfold State.retireStripe
  split
  · exact report_keepsReports ..
  · have htold := capacity_keepsReports (s.stripeMarked k r st) k 4 (k + r * 16 + s.rankSize / 4096 * 256)
    have hmarked := keepsReports_trans (keepsReports_of_same (s := s) (t := s.stripeMarked k r st) rfl) htold
    exact keepsReports_trans (keepsReports_trans hmarked (forEach_keepsReports _ (fun n t => retireSession_keepsReports t n) _))
      (forEach_keepsReports _ (fun p t => retirePool_keepsReports t p) _)

theorem beginMigration_keepsReports (s : State) (k r st : Nat) : KeepsReports s (s.beginMigration k r st) :=
  keepsReports_trans (modChn_keepsReports ..) (capacity_keepsReports ..)

theorem stopMigration_keepsReports (s : State) (k : Nat) (m : Mig) : KeepsReports s (s.stopMigration k m) :=
  keepsReports_trans (keepsReports_trans (modChn_keepsReports ..) (capacity_keepsReports ..)) (retireStripe_keepsReports ..)

theorem rankOut_keepsReports (s : State) (k r : Nat) (migrate : Bool) : KeepsReports s (s.rankOut k r migrate) := by
  unfold State.rankOut
  split
  · split
    · exact keepsReports_of_same rfl
    · split
      · exact stopMigration_keepsReports ..
      · split
        · exact retireStripe_keepsReports ..
        · exact keepsReports_of_same rfl
  · split
    · split
      · exact beginMigration_keepsReports ..
      · exact retireStripe_keepsReports ..
    · exact modChn_keepsReports ..

/-- The line poisoned and its loss recorded. -/
def State.lossNoted (s : State) (k r a : Nat) : State :=
  ((s.poisonLine a).modChn k fun c => { c with uc := tblMod 0 c.uc r fun n => sat32 n 1 }).report 0x07 (0xB0 + k) none none r 0 (lineOf a)

theorem lossNoted_records (s : State) (k r a : Nat) :
    ∃ x, x ∈ (s.lossNoted k r a).fcl.inbox ∧ x.code = 0x07 ∧ x.source = 0xB0 + k :=
  ⟨_, List.mem_append_right _ List.mem_cons_self, rfl, rfl⟩

theorem lostOut_keepsReports (s : State) (k r a : Nat) (migrate : Bool) :
    KeepsReports (s.lossNoted k r a) ((s.lineLost k r a).rankOut k r migrate) :=
  keepsReports_trans (loseLine_keepsReports (s.lossNoted k r a) a) (rankOut_keepsReports ..)

/-! ### The patrol scrub (R421) -/

theorem exec_patrolScrubRead {k : Nat} {r : EccResult} {s : State} (hlive : s.live = true) (hk : k < 16) (hen : (s.chn k).scrubEn = true)
    (hactive : (s.chn k).state = 1) (htrained : s.mem.trained.isSome = true) (hserved : (s.chn k).hasServed 0 1 = true) :
    exec (.patrolScrubRead k r) s = .next (scrubOp k r s) := by
  have harm : exec (.patrolScrubRead k r) s = execPatrolScrubRead k r s := rfl
  rw [harm, execPatrolScrubRead, onlyIf, if_pos (by simp [hlive, hk, hen, hactive, htrained, hserved])]

theorem scrubRead_clean (s : State) (k pos : Nat) : s.scrubRead k pos .clean = s := by
  unfold State.scrubRead
  dsimp only
  split <;> rfl

/-- Where the next scrubbed line lies depends on which ranks hold a stripe. -/
theorem scrubNext_congr {s t : State} {k : Nat} (hsize : t.rankSize = s.rankSize) (hranks : t.physRanks = s.physRanks)
    (hscrub : ∀ r, t.scrubbed k r = s.scrubbed k r) (n pos : Nat) : t.scrubNext k n pos = s.scrubNext k n pos := by
  induction n generalizing pos with
  | zero => rfl
  | succ n ih =>
    unfold State.scrubNext
    rw [hsize, hranks, hscrub, ih]

theorem spend_chn (s : State) (k b n : Nat) : (s.spend k b n).chn k = { s.chn k with served := tblMod 0 (s.chn k).served b (· - n) } := modChn_chn ..

theorem spend_trained (s : State) (k b n : Nat) : (s.spend k b n).mem.trained = s.mem.trained := rfl

theorem rankSize_congr {s t : State} (h : t.mem.trained = s.mem.trained) : t.rankSize = s.rankSize := by
  unfold State.rankSize
  rw [h]

theorem spend_scrubbed (s : State) (k b n r : Nat) : (s.spend k b n).scrubbed k r = s.scrubbed k r := by
  have hspare : (s.spend k b n).spareConf = s.spareConf := rfl
  have hranks : (s.spend k b n).physRanks = s.physRanks := rfl
  have hstripes : (s.spend k b n).stripes = s.stripes := rfl
  simp only [State.scrubbed, State.stripeOfRank, spend_chn, hspare, hranks, hstripes]

theorem scrubOp_clean {k pos q : Nat} {s : State} (hpos : s.scrubNext k 5 (s.chn k).scrubPos = some pos)
    (hnext : s.scrubNext k 5 (pos + 64) = some q) :
    scrubOp k .clean s = (s.spend k 0 1).modChn k fun c => { c with scrubPos := q } := by
  have hthen : (s.spend k 0 1).scrubNext k 5 (pos + 64) = some q := by
    rw [scrubNext_congr (rankSize_congr (s := s) (spend_trained s k 0 1)) rfl (spend_scrubbed s k 0 1), hnext]
  rw [scrubOp, hpos]
  dsimp only
  rw [scrubRead_clean, State.scrubStep, hthen]

/-! ### The end of a window of correctable errors (R422) -/

/-- A channel with its correctable counts halved. -/
def Chn.ceHalved (c : Chn) : Chn := { c with ce := forUpTo 4 (fun r u => tblMod 0 u r (· / 2)) c.ce }

theorem ceHalved_ce (c : Chn) {r : Nat} (hr : r < 4) : tblGet 0 c.ceHalved.ce r = tblGet 0 c.ce r / 2 := by
  have hpass := tblGet_forUpTo (0 : Nat) (fun _ n => n / 2) c.ce 4 r
  rwa [if_pos hr] at hpass

/-- A pass over the channels below `n` changes each of them once. -/
theorem forUpTo_chn (f : Chn → Chn) (s : State) (n k : Nat) :
    (forUpTo n (fun k t => t.modChn k f) s).chn k = if k < n then f (s.chn k) else s.chn k := by
  induction n with
  | zero => rfl
  | succ n ih =>
    rw [forUpTo]
    by_cases hk : n = k
    · subst hk
      rw [modChn_chn, ih, if_neg (Nat.lt_irrefl n), if_pos (Nat.lt_succ_self n)]
    · rw [modChn_chn_other _ _ _ _ hk, ih]
      simp only [show k < n ↔ k < n + 1 by omega]

/-- Only device memory's state has changed. -/
theorem forUpTo_chn_frame (f : Chn → Chn) (s : State) (n : Nat) :
    forUpTo n (fun k t => t.modChn k f) s = { s with mem := (forUpTo n (fun k t => t.modChn k f) s).mem } := by
  refine forUpTo_induct (P := fun t => t = { s with mem := t.mem }) n (fun k t h => ?_) s rfl
  rw [h]
  rfl

theorem exec_ceWindowEnd {s : State} (hup : s.up = true) : exec .ceWindowEnd s = .next (forUpTo 16 (fun k t => t.modChn k Chn.ceHalved) s) := by
  have harm : exec .ceWindowEnd s = execCeWindowEnd s := rfl
  rw [harm, execCeWindowEnd, onlyIf, if_pos hup]
  rfl

/-- Settles O41: `commandOp_picks` for the scheduler, `correctedOn_below` and `lostOut_keepsReports` for errors, `scrubOp_clean` for the scrub. -/
theorem dramTransactions : Obligations.DramTransactions := by
  refine ⟨?command, ?clean, ?corrected, ?retired, ?lost, ?outside, ?scrub, ?window⟩
  case command =>
    intro k x s hlive hk hissues hpick
    have hrun := exec_dramCommand hlive hk hissues
    rw [commandOp_picks hpick] at hrun
    refine ⟨fun hdown => ?wakes, fun hup hopen => ?column, fun hup hclosed => ?row⟩
    case wakes =>
      rw [if_pos (by simpa using hdown)] at hrun
      obtain ⟨hothers, hframe⟩ := modChn_only s k fun c => { c with pdown := without c.pdown (bankRank (s.bankOf x.addr)) }
      refine ⟨_, hrun, ?_, ?_, hothers, hframe⟩
      · rw [State.rankWoken, modChn_chn]
        exact without_not_mem _ _
      · rw [State.rankWoken, modChn_chn]
    case column =>
      rw [if_neg (by simpa using hup), if_pos hopen] at hrun
      obtain ⟨hothers, hframe⟩ := onlyChn_trans (t := s.columnIssued k x) (modChn_only ..) (settleChn_only _ k)
      refine ⟨_, hrun, ?_, ?_, hothers, hframe⟩
      · rw [settleChn_queue, State.columnIssued, modChn_chn]
      · rw [settleChn_openRow, State.columnIssued, modChn_chn]
    case row =>
      rw [if_neg (by simpa using hup), if_neg (by simp [hclosed])] at hrun
      obtain ⟨hothers, hframe⟩ := onlyChn_trans (t := s.rowOpened k x) (modChn_only ..) (settleChn_only _ k)
      refine ⟨_, hrun, ?_, ?_, hothers, hframe⟩
      · rw [settleChn_openRow, State.rowOpened, modChn_chn]
        dsimp only
        rw [tblGet_tblSet_same]
      · rw [settleChn_queue, State.rowOpened, modChn_chn]
  case clean =>
    intro k a s ha hgood
    have hnone : readDataOp k a .clean s = s := if_neg (by simp [hgood])
    rw [exec_dramReadData ha, onlyIf]
    split
    · rw [hnone]
    · rfl
  case corrected =>
    intro a s hlive ha hgood hlow
    have hrun := exec_dramReadData_live (r := .corrected) hlive ha
    have hread : readDataOp (channelOf a) a .corrected s = s.correctedOn (channelOf a) (s.servingRank a) (lineOf a) := if_neg (by simp [hgood])
    rw [hread, correctedOn_below _ hlow] at hrun
    obtain ⟨hothers, -⟩ := modChn_only s (channelOf a) fun c => { c with ce := tblMod 0 c.ce (s.servingRank a) fun n => min 65535 (n + 1) }
    exact ⟨_, hrun, ⟨_, rfl, rfl, rfl, rfl⟩, correctedNoted_ce .., hothers, rfl⟩
  case retired =>
    intro a r s hlive ha hbad
    have hrun := exec_dramReadData_live (r := r) hlive ha
    have hread : readDataOp (channelOf a) a r s = s.report 0x07 (0xB0 + channelOf a) none none (s.servingRank a) 0 (lineOf a) := if_pos hbad
    rw [hread] at hrun
    exact ⟨_, hrun, ⟨_, rfl, rfl, rfl, rfl⟩, rfl⟩
  case lost =>
    intro a s hlive ha hgood
    have hrun := exec_dramReadData_live (r := .uncorrectable) hlive ha
    have hread : readDataOp (channelOf a) a .uncorrectable s
        = (s.lineLost (channelOf a) (s.servingRank a) a).rankOut (channelOf a) (s.servingRank a) s.policy.autoMigrate := if_neg (by simp [hgood])
    rw [hread] at hrun
    obtain ⟨x, hmem, hcode, hsource⟩ := lossNoted_records s (channelOf a) (s.servingRank a) a
    exact ⟨_, x, hrun, (lostOut_keepsReports ..).subset hmem, hcode, hsource⟩
  case outside =>
    intro k a r s ha
    have harm : exec (.dramReadData k a r) s = execDramReadData k a r s := rfl
    rw [harm, execDramReadData, if_pos ha]
  case scrub =>
    intro k pos q s hlive hk hen hactive htrained hserved hpos hnext
    have hrun := exec_patrolScrubRead (r := .clean) hlive hk hen hactive htrained hserved
    rw [scrubOp_clean hpos hnext] at hrun
    obtain ⟨hothers, hframe⟩ := onlyChn_trans (t := s.spend k 0 1) (modChn_only ..) (modChn_only _ k fun c => { c with scrubPos := q })
    refine ⟨_, hrun, ?_, ?_, hothers, hframe⟩
    · rw [modChn_chn, spend_chn]
    · rw [modChn_chn, spend_chn]
      dsimp only
      rw [tblGet_tblMod_same]
  case window =>
    intro s hup
    refine ⟨_, exec_ceWindowEnd hup, fun k r hk hr => ?_, forUpTo_chn_frame ..⟩
    rw [forUpTo_chn, if_pos hk, ceHalved_ce _ hr]

end Sys2Proof.Machine
end

section
/-! PROOFS. Refresh, calibration, heat and low-power states of the DRAM channels (R415 to R420). -/
namespace Sys2Proof.Machine

/-! ### Refresh (R416) -/

theorem exec_refreshDue {k r : Nat} {s : State} (hlive : s.live = true) (hk : k < 16) (hr : r < s.physRanks) (hissues : (s.chn k).issues = true) :
    exec (.refreshDue k r) s = .next (refreshOp k r s) := by
  have harm : exec (.refreshDue k r) s = execRefreshDue k r s := rfl
  rw [harm, execRefreshDue, onlyIf, if_pos (by simp [hlive, hk, hr, hissues])]

theorem refreshOp_postpones {k r : Nat} {s : State} (hbusy : s.rankBusy (s.chn k) r = true) (howed : tblGet 0 (s.chn k).owed r < 3) :
    refreshOp k r s = s.modChn k fun c => { c with owed := tblMod 0 c.owed r (· + 1) } := if_pos (by simp [hbusy, howed])

theorem refreshOp_issues {k r : Nat} {s : State} (h : s.rankBusy (s.chn k) r = false ∨ 3 ≤ tblGet 0 (s.chn k).owed r) :
    refreshOp k r s = ((s.revoke k r).modChn k (issueRefresh r)).settleChn k := by
  refine if_neg ?_
  rw [Bool.and_eq_true, decide_eq_true_iff]
  rcases h with hidle | howed
  · simp [hidle]
  · omega

/-- A grant taken away changes nothing of its channel but the grant. -/
theorem revoke_grant (s : State) (k r : Nat) :
    OnlyChn k s (s.revoke k r) ∧ (s.revoke k r).chn k = { s.chn k with grant := ((s.revoke k r).chn k).grant } := by
  have hgone : OnlyChn k s ((s.modChn k fun c => { c with grant := none }).modMem fun m => { m with revokes := sat32 m.revokes 1 }) :=
    onlyChn_trans (modChn_only s k fun c => { c with grant := none }) ⟨fun _ _ => rfl, rfl⟩
  have hchn : ((s.modChn k fun c => { c with grant := none }).modMem fun m => { m with revokes := sat32 m.revokes 1 }).chn k
      = { s.chn k with grant := none } := modChn_chn s k fun c => { c with grant := none }
  unfold State.revoke
  dsimp only
  split
  · exact ⟨onlyChn_refl k s, rfl⟩
  · split
    · exact ⟨hgone, by rw [hchn]⟩
    · exact ⟨onlyChn_refl k s, rfl⟩

/-! ### Calibration (R415) -/

theorem exec_calibrationDue {k : Nat} {s : State} (hlive : s.live = true) (hk : k < 16) (hstate : (s.chn k).state ≠ 2) :
    exec (.calibrationDue k) s = .next (calibrationOp k s) := by
  have harm : exec (.calibrationDue k) s = execCalibrationDue k s := rfl
  rw [harm, execCalibrationDue, onlyIf, if_pos (by simp [hlive, hk, hstate])]

theorem exec_calibrationDone {k : Nat} {s : State} (hlive : s.live = true) (hstate : (s.chn k).state = 2) :
    exec (.calibrationDone k) s = .next (s.modChn k fun c => { c with state := 1, calPend := false }) := by
  have harm : exec (.calibrationDone k) s = execCalibrationDone k s := rfl
  rw [harm, execCalibrationDone, onlyIf, if_pos (by simp [hlive, hstate])]

/-- The channel whose period has come round at its instant, before it settles. -/
def State.calibrationAsked (s : State) (k : Nat) : State :=
  (s.reach (max (s.chn k).calNext (k * 16000000))).modChn k fun c =>
    { c with calPend := true, calNext := max c.calNext (k * 16000000) + 256000000 }

theorem calibrationAsked_chn (s : State) (k : Nat) :
    (s.calibrationAsked k).chn k = { s.chn k with calPend := true, calNext := max (s.chn k).calNext (k * 16000000) + 256000000 } :=
  modChn_chn ..

/-! ### Temperature (R417) -/

theorem exec_dimmThermalRead {k : Nat} (temp : Int) {s : State} (hlive : s.live = true) (hk : k < 16) :
    exec (.dimmThermalRead k temp) s = .next (thermalOp k temp s) := by
  have harm : exec (.dimmThermalRead k temp) s = execDimmThermalRead k temp s := rfl
  rw [harm, execDimmThermalRead, onlyIf, if_pos (by simp [hlive, hk])]

/-- The channel is throttled after a reading. -/
def Chn.throttledAt (c : Chn) (temp : Int) : Bool := if temp > 95 then true else if temp ≤ 90 then false else c.throttled

/-- The channel with a reading of its sensors. -/
def State.sensed (s : State) (k : Nat) (temp : Int) : State :=
  s.modChn k fun c =>
    s.clampBg ({ c with temp := temp, hot := decide (temp > 85), throttled := (s.chn k).throttledAt temp } : Chn).clampAll

theorem thermalOp_senses (k : Nat) (temp : Int) (s : State) :
    thermalOp k temp s = if (s.chn k).throttledAt temp && !(s.chn k).throttled then
        (s.sensed k temp).report 0x0C (0xB0 + k) none none (twosOf 8 temp) 0 0
      else s.sensed k temp := rfl

/-- What a reading says of its channel. -/
structure Senses (c d : Chn) (reading : Int) : Prop where
  temp : d.temp = reading
  hot : d.hot = decide (85 < reading)
  throttled : d.throttled = c.throttledAt reading

theorem sensed_senses (s : State) (k : Nat) (temp : Int) : Senses (s.chn k) ((s.sensed k temp).chn k) temp := by
  rw [State.sensed, modChn_chn]
  exact ⟨rfl, rfl, rfl⟩

/-! ### Power-down and self-refresh (R418 to R420) -/

theorem exec_powerDownEntry {k r : Nat} {s : State} (hlive : s.live = true) (hk : k < 16) (hr : r < s.physRanks) (hactive : (s.chn k).state = 1) :
    exec (.powerDownEntry k r) s = .next (powerDownOp k r s) := by
  have harm : exec (.powerDownEntry k r) s = execPowerDownEntry k r s := rfl
  rw [harm, execPowerDownEntry, onlyIf, if_pos (by simp [hlive, hk, hr, hactive])]

theorem powerDownOp_chn {k r : Nat} {s : State} (hen : (s.chn k).pdIdle ≠ 0) (hidle : s.rankBusy (s.chn k) r = false) (hup : r ∉ (s.chn k).pdown) :
    (powerDownOp k r s).chn k
      = { s.chn k with pdown := (s.chn k).pdown ++ [r], openRow := (s.chn k).openRow.filter fun p => bankRank p.1 != r } := by
  rw [powerDownOp, modChn_chn, if_neg (by simp [hen, hidle, hup])]

theorem exec_selfRefreshEntry {k : Nat} {s : State} (hlive : s.live = true) (hk : k < 16) :
    exec (.selfRefreshEntry k) s = .next (selfRefreshOp k s) := by
  have harm : exec (.selfRefreshEntry k) s = execSelfRefreshEntry k s := rfl
  rw [harm, execSelfRefreshEntry, onlyIf, if_pos (by simp [hlive, hk])]

theorem exec_selfRefreshExit {k : Nat} {s : State} (hlive : s.live = true) (hk : k < 16) :
    exec (.selfRefreshExit k) s = .next (selfRefreshExitOp k s) := by
  have harm : exec (.selfRefreshExit k) s = execSelfRefreshExit k s := rfl
  rw [harm, execSelfRefreshExit, onlyIf, if_pos (by simp [hlive, hk])]

/-- The rows of a rank are closed, those of the others as they were. -/
theorem closedRows (rows : Tbl Nat) (r b : Nat) :
    tblGet 0 (rows.filter fun p => bankRank p.1 != r) b = if bankRank b = r then 0 else tblGet 0 rows b := by
  rw [tblGet_filter 0 (fun k => bankRank k != r) rows b]
  by_cases h : bankRank b = r <;> simp [h]

/-- Settles O42: `settleChn_settles` for what follows a change of the queue, `thermalOp_senses` for the sensors. -/
theorem dramUpkeep : Obligations.DramUpkeep := by
  refine ⟨?postpones, ?issues, ?due, ?done, ?heat, ?down, ?drains, ?enters, ?abandons, ?leaves⟩
  case postpones =>
    intro k r s hlive hk hr hissues hbusy howed
    have hrun := exec_refreshDue hlive hk hr hissues
    rw [refreshOp_postpones hbusy howed] at hrun
    refine ⟨_, hrun, ?_, ?_, (modChn_only ..).others, rfl⟩
    · rw [modChn_chn]
      dsimp only
      rw [tblGet_tblMod_same]
    · rw [modChn_chn]
  case issues =>
    intro k r s hlive hk hr hissues h
    have hrun := exec_refreshDue hlive hk hr hissues
    rw [refreshOp_issues h] at hrun
    obtain ⟨hrevoked, hgrant⟩ := revoke_grant s k r
    have hissued := onlyChn_trans hrevoked (modChn_only (s.revoke k r) k (issueRefresh r))
    obtain ⟨hothers, hframe⟩ := onlyChn_trans hissued (settleChn_only _ k)
    have hsettled := (settleChn_settles ((s.revoke k r).modChn k (issueRefresh r)) k).frame
    rw [modChn_chn, hgrant] at hsettled
    refine ⟨_, hrun, ?_, fun b hb => ?_, ?_, hothers, hframe⟩
    · rw [hsettled]
      exact tblGet_tblSet_same 0 (s.chn k).owed r 0
    · rw [hsettled]
      exact (closedRows (s.chn k).openRow r b).trans (if_pos hb)
    · rw [hsettled]
      rfl
  case due =>
    intro k s hlive hk hstate
    have hrun : exec (.calibrationDue k) s = .next ((s.calibrationAsked k).settleChn k) := exec_calibrationDue hlive hk hstate
    obtain ⟨hasked, -⟩ := modChn_only (s.reach (max (s.chn k).calNext (k * 16000000))) k fun c =>
      { c with calPend := true, calNext := max c.calNext (k * 16000000) + 256000000 }
    obtain ⟨hothers, -⟩ := settleChn_only (s.calibrationAsked k) k
    obtain ⟨hnow, hsettled⟩ := settleChn_settles (s.calibrationAsked k) k
    rw [calibrationAsked_chn] at hnow hsettled
    refine ⟨_, hrun, ?_, ?_, rfl, fun j hj => (hothers j hj).trans (hasked j hj), rfl⟩
    · rw [hsettled]
    · rw [hnow]
      simp
  case done =>
    intro k s hlive hstate
    exact ⟨_, exec_calibrationDone hlive hstate, modChn_chn .., (modChn_only ..).others, rfl⟩
  case heat =>
    intro k temp s hlive hk
    have hrun := exec_dimmThermalRead temp hlive hk
    obtain ⟨htemp, hhot, hthrottled⟩ := sensed_senses s k temp
    obtain ⟨hothers, hframe⟩ : OnlyChn k s (s.sensed k temp) := modChn_only ..
    rw [thermalOp_senses] at hrun
    by_cases hexcursion : ((s.chn k).throttledAt temp && !(s.chn k).throttled) = true
    · rw [if_pos hexcursion] at hrun
      obtain ⟨hnow, hwas⟩ := Bool.and_eq_true_iff.1 hexcursion
      have hcool : (s.chn k).throttled = false := by simpa using hwas
      refine ⟨_, hrun, htemp, hhot, hthrottled, fun _ _ => ⟨_, rfl, rfl, rfl, rfl⟩, fun h => ?_, hothers, rfl⟩
      have hhigh : ((s.sensed k temp).chn k).throttled = true := hthrottled.trans hnow
      rcases h with h | h
      · exact absurd (hhigh.symm.trans (h.trans hcool)) Bool.noConfusion
      · exact absurd (hhigh.symm.trans h) Bool.noConfusion
    · rw [if_neg hexcursion] at hrun
      refine ⟨_, hrun, htemp, hhot, hthrottled, fun h hcool => ?_, fun _ => rfl, hothers, rfl⟩
      exact absurd (Bool.and_eq_true_iff.2 ⟨hthrottled.symm.trans h, by rw [hcool]; rfl⟩) hexcursion
  case down =>
    intro k r s hlive hk hr hactive hen hidle hup
    have hrun := exec_powerDownEntry hlive hk hr hactive
    have hchn := powerDownOp_chn hen hidle hup
    refine ⟨_, hrun, ?_, fun b hb => ?_, fun b hb => ?_, (modChn_only ..).others, rfl⟩
    · rw [hchn]
    · rw [hchn]
      exact (closedRows (s.chn k).openRow r b).trans (if_pos hb)
    · rw [hchn]
      exact (closedRows (s.chn k).openRow r b).trans (if_neg hb)
  case drains =>
    intro k s hlive hk hactive hasleep hcal
    have hrun := exec_selfRefreshEntry hlive hk
    rw [selfRefreshOp, if_pos (by rw [hactive]; rfl), if_pos (by simp [hasleep, hcal])] at hrun
    exact ⟨_, hrun, modChn_chn .., rfl, (modChn_only (s.reach ((s.chn k).lastAt + 10000)) k _).others, rfl⟩
  case enters =>
    intro k s hlive hk hstate hqueue
    have hrun := exec_selfRefreshEntry hlive hk
    rw [selfRefreshOp, if_neg (by rw [hstate]; decide), if_pos (by rw [hstate, hqueue]; rfl)] at hrun
    exact ⟨_, hrun, modChn_chn .., (modChn_only ..).others, rfl⟩
  case abandons =>
    intro k s hlive hk hstate
    have hrun := exec_selfRefreshExit hlive hk
    rw [selfRefreshExitOp, if_pos (by rw [hstate]; rfl)] at hrun
    exact ⟨_, hrun, modChn_chn .., (modChn_only ..).others, rfl⟩
  case leaves =>
    intro k s hlive hk hstate
    have hrun := exec_selfRefreshExit hlive hk
    rw [selfRefreshExitOp, if_neg (by rw [hstate]; decide), if_pos (by rw [hstate]; rfl)] at hrun
    have hlater : (s.chn k).srAt ≤ max s.time ((s.chn k).srAt + Config.srResidence) := (Nat.le_add_right ..).trans (Nat.le_max_right ..)
    exact ⟨_, hrun, modChn_chn .., hlater, (modChn_only (s.reach ((s.chn k).srAt + Config.srResidence)) k _).others, rfl⟩

end Sys2Proof.Machine
end

section
/-! PROOFS. Migration (R423 to R425, R428). -/
namespace Sys2Proof.Machine

/-! ### What a record written to device memory does to a channel: at most the mask of a migration's block (R424) -/

/-- A migration but for the mask of its block. -/
def Mig.unmasked (m : Mig) : Mig := { m with mask := 0 }

/-- The channels are as they were but for the masks of migrations, and the records for the boot flash wait as they did. -/
structure OnlyMasks (s t : State) : Prop where
  pendRec : t.mem.pendRec = s.mem.pendRec
  chn : ∀ k, t.chn k = { s.chn k with mig := (t.chn k).mig }
  mig : ∀ k, (t.chn k).mig.map Mig.unmasked = (s.chn k).mig.map Mig.unmasked

theorem onlyMasks_of_mem {s t : State} (h : t.mem = s.mem) : OnlyMasks s t := by
  have hchn : ∀ k, t.chn k = s.chn k := fun k => by rw [State.chn, h, State.chn]
  exact ⟨by rw [h], fun k => by rw [hchn], fun k => by rw [hchn]⟩

theorem onlyMasks_trans {s t u : State} (h : OnlyMasks s t) (l : OnlyMasks t u) : OnlyMasks s u where
  pendRec := l.pendRec.trans h.pendRec
  chn := fun k => by
    have hk := h.chn k
    have lk := l.chn k
    rw [hk] at lk
    exact lk
  mig := fun k => (l.mig k).trans (h.mig k)

theorem onlyMasks_none {s t : State} {k : Nat} (h : OnlyMasks s t) (hnone : (s.chn k).mig = none) : (t.chn k).mig = none := by
  have hmig := h.mig k
  rw [hnone] at hmig
  exact Option.map_eq_none_iff.mp hmig

/-- A migration stands where it stood. -/
theorem onlyMasks_some {s t : State} {k : Nat} {m : Mig} (h : OnlyMasks s t) (hsome : (s.chn k).mig = some m) :
    ∃ n, (t.chn k).mig = some n ∧ n.rank = m.rank ∧ n.stripe = m.stripe ∧ n.p = m.p := by
  have hmig := h.mig k
  rw [hsome] at hmig
  obtain ⟨n, hn, heq⟩ := Option.map_eq_some_iff.mp hmig
  rw [Mig.unmasked, Mig.unmasked, Mig.mk.injEq] at heq
  obtain ⟨hrank, hstripe, hp, -⟩ := heq
  exact ⟨n, hn, hrank, hstripe, hp⟩

theorem markCopy_masks (s : State) (l : Nat) (c : Chn) :
    markCopy s l c = { c with mig := (markCopy s l c).mig } ∧ (markCopy s l c).mig.map Mig.unmasked = c.mig.map Mig.unmasked := by
  unfold markCopy
  split
  next => exact ⟨rfl, rfl⟩
  next m h =>
    split
    · exact ⟨rfl, by rw [h]; rfl⟩
    · exact ⟨rfl, rfl⟩

/-- The channels after lines are marked in the masks. -/
def State.linesMarked (s : State) (ls : List Nat) : Tbl Chn :=
  forEach ls (fun l t => tblMod Chn.init t (channelOf l) (markCopy s l)) s.mem.chans

theorem linesMarked_masks (s : State) (ls : List Nat) (k : Nat) :
    tblGet Chn.init (s.linesMarked ls) k = { s.chn k with mig := (tblGet Chn.init (s.linesMarked ls) k).mig }
      ∧ (tblGet Chn.init (s.linesMarked ls) k).mig.map Mig.unmasked = (s.chn k).mig.map Mig.unmasked := by
  refine forEach_induct (P := fun t => tblGet Chn.init t k = { s.chn k with mig := (tblGet Chn.init t k).mig }
    ∧ (tblGet Chn.init t k).mig.map Mig.unmasked = (s.chn k).mig.map Mig.unmasked) ls (fun l _ t ht => ?_) s.mem.chans ⟨rfl, rfl⟩
  obtain ⟨hchn, hmig⟩ := ht
  by_cases hl : channelOf l = k
  · subst hl
    obtain ⟨kchn, kmig⟩ := markCopy_masks s l (tblGet Chn.init t (channelOf l))
    rw [tblGet_tblMod_same]
    refine ⟨?_, kmig.trans hmig⟩
    rw [hchn] at kchn
    rw [hchn]
    exact kchn
  · rw [tblGet_tblMod_other _ _ _ _ _ hl]
    exact ⟨hchn, hmig⟩

theorem memWrite_masks (s : State) (a : Nat) (bs : List Byte) : OnlyMasks s (s.memWrite a bs) :=
  ⟨rfl, fun k => (linesMarked_masks s (linesOf a bs.length) k).1, fun k => (linesMarked_masks s (linesOf a bs.length) k).2⟩

theorem lineWrite_masks (s : State) (l a : Nat) (bs : List Byte) : OnlyMasks s (s.lineWrite l a bs) := by
  unfold State.lineWrite
  dsimp only
  split
  · split
    · exact onlyMasks_of_mem rfl
    · refine onlyMasks_of_mem ?_
      rw [(sendSnoop_snooped _ l false).frame]
      rfl
  · exact memWrite_masks ..

theorem devWrite_masks (s : State) (a : Nat) (bs : List Byte) : OnlyMasks s (s.devWrite a bs) := by
  unfold State.devWrite
  split
  · exact forEach_induct (P := OnlyMasks s) _ (fun l _ t h => onlyMasks_trans h (lineWrite_masks t l _ _)) s (onlyMasks_of_mem rfl)
  · exact memWrite_masks ..

theorem emitFor_mem (s : State) (fn : Nat) (o : Out) : (s.emitFor fn o).mem = s.mem := by
  rw [emitFor_sentFor s fn o]

theorem putRecord_masks (s : State) (fn space a : Nat) (bs : List Byte) : OnlyMasks s (s.putRecord fn space a bs) := by
  unfold State.putRecord State.putBytes
  split
  · exact onlyMasks_of_mem rfl
  · split
    · exact onlyMasks_of_mem (emitFor_mem ..)
    · exact devWrite_masks ..

theorem tellRing_masks (s : State) (fn : Nat) (f : EvRing → EvRing) : OnlyMasks s ((s.modRing fn f).putEventWord fn) :=
  onlyMasks_trans (onlyMasks_of_mem (t := s.modRing fn f) rfl) (putRecord_masks ..)

theorem assertSource_masks (s : State) (n : Nat) : OnlyMasks s (s.assertSource n) := by
  refine onlyMasks_of_mem ?_
  unfold State.assertSource
  split
  · rfl
  · rw [(settleSource_told ..).frame]
    rfl

theorem event_masks (s : State) (fn type : Nat) (queue : Option Nat) (cause session : Nat) (seq tag : Word) (arg : Nat) :
    OnlyMasks s (s.event fn type queue cause session seq tag arg) := by
  unfold State.event
  dsimp only
  split
  · exact onlyMasks_of_mem rfl
  · split
    · exact tellRing_masks ..
    · exact onlyMasks_trans (onlyMasks_trans (putRecord_masks ..) (tellRing_masks ..)) (assertSource_masks ..)

/-! ### A capacity event (R429) -/

theorem capacity_masks (s : State) (k cause arg : Nat) : OnlyMasks s (s.capacity k cause arg) :=
  onlyMasks_trans (event_masks s 0 0x07 none cause 0 0 0 arg) (onlyMasks_of_mem rfl)

theorem capacity_records (s : State) (k cause arg : Nat) : Records s (s.capacity k cause arg) 0x0A 0 := by
  have hnoted := event_noted s 0 0x07 none cause 0 0 0 arg
  unfold State.capacity
  generalize s.event 0 0x07 none cause 0 0 0 arg = t at *
  unfold OnlyNoted at hnoted
  rw [hnoted]
  exact ⟨_, rfl, rfl, rfl, rfl⟩

/-- Only what an event touches has changed, and the fault reports that wait. -/
def OnlyReported (s t : State) : Prop :=
  t = { s with clusters := t.clusters, evq := t.evq, fcl := t.fcl, funcs := t.funcs, hlu := t.hlu, imb := t.imb, mem := t.mem, out := t.out }

theorem capacity_reported (s : State) (k cause arg : Nat) : OnlyReported s (s.capacity k cause arg) := by
  have hnoted := event_noted s 0 0x07 none cause 0 0 0 arg
  unfold State.capacity
  generalize s.event 0 0x07 none cause 0 0 0 arg = t at *
  unfold OnlyNoted at hnoted
  rw [hnoted]
  rfl

theorem onlyReported_trans {s t u : State} (h : OnlyReported s t) (l : OnlyReported t u) : OnlyReported s u := by
  unfold OnlyReported at *
  rw [l, h]

theorem onlyReported_of_mem {s t : State} (h : t = { s with mem := t.mem }) : OnlyReported s t := by
  unfold OnlyReported
  rw [h]

theorem records_after {s s' t : State} {code cls : Nat} (hfcl : s'.fcl = s.fcl) (htime : s'.time = s.time) (h : Records s' t code cls) :
    Records s t code cls := by
  unfold Records at *
  rwa [hfcl, htime] at h

/-! ### A block's copy (R423, R425) -/

theorem exec_migrationCopy {k : Nat} (bad : BitVec 64) (r : EccResult) {s : State} (hlive : s.live = true) (hk : k < 16)
    (hactive : (s.chn k).state = 1) (hcal : (s.chn k).calPend = false) (hserved : (s.chn k).hasServed 1 128 = true) :
    exec (.migrationCopy k bad r) s = .next (copyBlockOp k bad r (s.spend k 1 128)) := by
  have harm : exec (.migrationCopy k bad r) s = execMigrationCopy k bad r s := rfl
  rw [harm, execMigrationCopy, onlyIf, if_pos (by simp [hlive, hk, hactive, hcal, hserved]), migrationOp]

theorem copyLost_none (s : State) (k : Nat) (m : Mig) : s.copyLost k m 0 = s := by
  unfold State.copyLost
  refine forUpTo_induct (P := fun t => t = s) 64 (fun i t h => ?_) s rfl
  rw [if_neg (by simp)]
  exact h

/-- The block's granules spent, and P past it. -/
def State.blockCopied (s : State) (k : Nat) : State :=
  (s.spend k 1 128).modChn k fun c => { c with mig := c.mig.map fun m => { m with p := m.p + 4096, mask := 0 } }

theorem blockCopied_only (s : State) (k : Nat) : OnlyChn k s (s.blockCopied k) :=
  onlyChn_trans (t := s.spend k 1 128) (modChn_only ..) (modChn_only ..)

theorem blockCopied_chn {k : Nat} {m : Mig} {s : State} (hmig : (s.chn k).mig = some m) :
    (s.blockCopied k).chn k
      = { s.chn k with mig := some { m with p := m.p + 4096, mask := 0 }, served := tblMod 0 (s.chn k).served 1 (· - 128) } := by
  rw [State.blockCopied, modChn_chn, spend_chn]
  dsimp only
  rw [hmig, Option.map_some]

theorem copyBlockOp_clean {k : Nat} {m : Mig} {s : State} (hmig : (s.chn k).mig = some m) :
    copyBlockOp k 0 .clean (s.spend k 1 128)
      = if s.rankSize ≤ m.p + 4096 then (s.blockCopied k).endMigration k m else s.blockCopied k := by
  have hspent : ((s.spend k 1 128).chn k).mig = some m := by rw [spend_chn, hmig]
  have hleft : ((s.blockCopied k).chn k).mig.isSome = true := by rw [blockCopied_chn hmig]; rfl
  have hsize : (s.spend k 1 128).rankSize = s.rankSize := rankSize_congr (spend_trained ..)
  have hclean : ¬ (EccResult.clean == EccResult.corrected) = true := by decide
  unfold State.blockCopied at hleft
  unfold copyBlockOp
  rw [hspent]
  dsimp only
  rw [copyLost_none, if_neg hclean, hleft, hsize, Bool.and_true]
  simp only [decide_eq_true_iff]
  rfl

/-- The end of a migration before its event: the spare holds the stripe, the failing rank is out of service, a record waits (R425, R428). -/
def State.migrationEnded (s : State) (k : Nat) (m : Mig) : State :=
  (s.modChn k fun c => { c with mig := none, onSpare := some m.stripe, spareUsed := true, outRanks := c.outRanks ||| BitVec.twoPow 4 m.rank }).modMem
    fun x => { x with pendRec := x.pendRec ++ [(k, m.stripe, s.physRanks - 1, false)] }

theorem endMigration_tells (s : State) (k : Nat) (m : Mig) :
    s.endMigration k m = (s.migrationEnded k m).capacity k 2 (s.migArg k m.rank) := rfl

theorem migrationEnded_chn (s : State) (k : Nat) (m : Mig) :
    (s.migrationEnded k m).chn k = { s.chn k with mig := none, onSpare := some m.stripe, spareUsed := true,
                                                  outRanks := (s.chn k).outRanks ||| BitVec.twoPow 4 m.rank } :=
  modChn_chn s k fun c => { c with mig := none, onSpare := some m.stripe, spareUsed := true, outRanks := c.outRanks ||| BitVec.twoPow 4 m.rank }

theorem migrationEnded_frame (s : State) (k : Nat) (m : Mig) : s.migrationEnded k m = { s with mem := (s.migrationEnded k m).mem } := rfl

theorem migrationEnded_pendRec (s : State) (k : Nat) (m : Mig) :
    (s.migrationEnded k m).mem.pendRec = s.mem.pendRec ++ [(k, m.stripe, s.physRanks - 1, false)] := rfl

theorem blockCopied_pendRec (s : State) (k : Nat) : (s.blockCopied k).mem.pendRec = s.mem.pendRec := rfl

/-- A migration's end: of device memory's state and of the whole, what its event does not touch. -/
structure MigrationEnds (s t : State) (k : Nat) (m : Mig) : Prop where
  chn : t.chn k = { s.chn k with mig := none, onSpare := some m.stripe, spareUsed := true, outRanks := (s.chn k).outRanks ||| BitVec.twoPow 4 m.rank }
  pendRec : t.mem.pendRec = s.mem.pendRec ++ [(k, m.stripe, s.physRanks - 1, false)]
  records : Records s t 0x0A 0
  frame : OnlyReported s t

theorem endMigration_ends (s : State) (k : Nat) (m : Mig) : MigrationEnds s (s.endMigration k m) k m := by
  have hended := migrationEnded_frame s k m
  have hchn := migrationEnded_chn s k m
  have hpend := migrationEnded_pendRec s k m
  rw [endMigration_tells]
  have kmasks := capacity_masks (s.migrationEnded k m) k 2 (s.migArg k m.rank)
  have krecords := capacity_records (s.migrationEnded k m) k 2 (s.migArg k m.rank)
  have kreported := capacity_reported (s.migrationEnded k m) k 2 (s.migArg k m.rank)
  have kmig := onlyMasks_none kmasks (k := k) (by rw [hchn])
  have kchn := kmasks.chn k
  have kpend := kmasks.pendRec
  rw [kmig, hchn] at kchn
  generalize s.migrationEnded k m = t at *
  exact ⟨kchn, kpend.trans hpend, records_after (by rw [hended]) (by rw [hended]) krecords,
    onlyReported_trans (onlyReported_of_mem hended) kreported⟩

/-- Settles O43: `copyBlockOp_clean` for the copy, `endMigration_ends` for its end, whose event leaves the channel (`capacity_masks`). -/
theorem migration : Obligations.Migration := by
  refine ⟨?copies, ?ends, ?writes⟩
  case copies =>
    intro k m s hlive hk hactive hcal hmig hserved hmore
    have hrun := exec_migrationCopy 0 .clean hlive hk hactive hcal hserved
    rw [copyBlockOp_clean hmig, if_neg (Nat.not_le.2 hmore)] at hrun
    obtain ⟨hothers, hframe⟩ := blockCopied_only s k
    refine ⟨_, hrun, ?_, ?_, hothers, hframe⟩
    · rw [blockCopied_chn hmig]
    · rw [blockCopied_chn hmig]
      dsimp only
      rw [tblGet_tblMod_same]
  case ends =>
    intro k m s hlive hk hactive hcal hmig hserved hlast
    have hrun := exec_migrationCopy 0 .clean hlive hk hactive hcal hserved
    rw [copyBlockOp_clean hmig, if_pos hlast] at hrun
    obtain ⟨-, hframe⟩ := blockCopied_only s k
    have hcopied := blockCopied_chn hmig
    have hwaits := blockCopied_pendRec s k
    have hranks : (s.blockCopied k).physRanks = s.physRanks := rfl
    obtain ⟨kchn, kpend, krecords, kreported⟩ := endMigration_ends (s.blockCopied k) k m
    generalize s.blockCopied k = u at *
    rw [hcopied] at kchn
    rw [hwaits, hranks] at kpend
    have hrecords := records_after (s := s) (by rw [hframe]) (by rw [hframe]) krecords
    have hreported := onlyReported_trans (onlyReported_of_mem hframe) kreported
    refine ⟨_, hrun, ?_, ?_, ?_, ?_, kpend, hrecords, hreported⟩ <;> rw [kchn]
  case writes =>
    intro f s hup hmp hflash
    have harm : exec .rankRecordWrite s = execRankRecordWrite s := rfl
    rw [harm, execRankRecordWrite, onlyIf, if_pos (by rw [hup, bne_iff_ne.2 hmp]; rfl), rankRecordOp, hflash]
    rfl

end Sys2Proof.Machine
end

section
/-! PROOFS. Channel registers, descriptor reads and write-backs (R342, R343, R345 to R348). -/
namespace Sys2Proof.Machine

/-! ### One channel -/

/-- Of the Data Mover only channel `g` has changed, and beside it nothing. -/
structure OnlyChan (g : Nat) (s t : State) : Prop where
  others : ∀ k, k ≠ g → t.chan k = s.chan k
  frame : t = { s with dmv := t.dmv }

theorem onlyChan_refl (g : Nat) (s : State) : OnlyChan g s s := ⟨fun _ _ => rfl, rfl⟩

theorem onlyChan_trans {g : Nat} {s t u : State} (h : OnlyChan g s t) (l : OnlyChan g t u) : OnlyChan g s u :=
  ⟨fun k hk => (l.others k hk).trans (h.others k hk), by rw [l.frame, h.frame]⟩

theorem modChan_only (s : State) (g : Nat) (f : Chan → Chan) : OnlyChan g s (s.modChan g f) :=
  ⟨fun k hk => modChan_chan_other s g k f hk.symm, rfl⟩

/-! ### DMV_CH_CTRL (Tables 15-3, 15-8 and 15-9) -/

theorem exec_channelEnable {fn l : Nat} (v : Word) {s : State} (hlive : s.chanLive fn l = true) :
    exec (.channelEnable fn l v) s = .next (ctrlOp fn l v s) := by
  have harm : exec (.channelEnable fn l v) s = execChannelEnable fn l v s := rfl
  rw [harm, execChannelEnable, onlyIf, if_pos hlive]

theorem exec_channelDisable {fn l : Nat} (v : Word) {s : State} (hlive : s.chanLive fn l = true) :
    exec (.channelDisable fn l v) s = .next (ctrlOp fn l v s) := by
  have harm : exec (.channelDisable fn l v) s = execChannelDisable fn l v s := rfl
  rw [harm, execChannelDisable, onlyIf, if_pos hlive]

theorem vectorField (v : Word) : fld v.toNat 0 11 = v.toNat % 2048 := fld_zero v.toNat 11

theorem ctrlOp_takes {fn l : Nat} {v : Word} {s : State} (h : v.toNat % 2048 < (s.fnRec fn).vectors) :
    ctrlOp fn l v s = s.modChan (s.chanOf fn l) fun c => (c.setCtrl v.toNat).setEnable (bitAt v.toNat 31) :=
  if_neg (by rw [vectorField]; omega)

theorem ctrlOp_refuses {fn l : Nat} {v : Word} {s : State} (h : (s.fnRec fn).vectors ≤ v.toNat % 2048) :
    ctrlOp fn l v s = s.reportAccess fn (chanOff fn l 8) := if_pos (by rwa [vectorField])

/-- The fields that a channel takes while ENABLE is 0. -/
theorem setCtrl_open {c : Chan} (v : Nat) (h : c.enable = false) :
    c.setCtrl v = { c with stopOnFail := bitAt v 30, vector := fld v 0 11, depthLog := clampNat 4 16 (fld v 25 5), space := BitVec.ofNat 8 (fld v 16 8),
                           next := if clampNat 4 16 (fld v 25 5) == c.depthLog then c.next else 0 } := if_neg (by simp [h])

theorem setCtrl_kept (c : Chan) (v : Nat) : (c.setCtrl v).state = c.state ∧ (c.setCtrl v).inprog = c.inprog := by
  unfold Chan.setCtrl
  dsimp only
  split <;> exact ⟨rfl, rfl⟩

theorem setEnable_on {c : Chan} (h : c.state = .disabled) : c.setEnable true = { c with state := .running, enable := true, cause := 0 } := by
  unfold Chan.setEnable
  rw [h]
  rfl

/-- The channel as a disable leaves it before it settles. -/
def Chan.stopped (c : Chan) : Chan := { c.dropWaiting with state := .stopping, enable := false, cause := 0, bell := false }

theorem setEnable_off {c : Chan} (h : c.state = .running ∨ c.state = .idle) : c.setEnable false = c.stopped.settle := by
  unfold Chan.setEnable
  rcases h with h | h <;> rw [h] <;> rfl

theorem dropWaiting_inprog (c : Chan) : c.dropWaiting.inprog = c.inprog.filter fun d => d.started := by
  unfold Chan.dropWaiting
  split
  next h =>
    rw [List.find?_eq_none] at h
    exact (List.filter_eq_self.2 fun d hd => by simpa using h d hd).symm
  next => rfl

/-- What a channel that stops keeps: its started descriptors, and STOPPING until they are gone. -/
structure Stops (c d : Chan) : Prop where
  enable : d.enable = false
  inprog : d.inprog = c.inprog.filter fun e => e.started
  state : d.state = if c.inprog.any fun e => e.started then .stopping else .disabled

theorem filter_isEmpty_eq {α : Type} (p : α → Bool) (xs : List α) : (xs.filter p).isEmpty = !xs.any p := by
  induction xs with
  | nil => rfl
  | cons x xs ih => by_cases h : p x = true <;> simp [h, ih]

theorem stopped_settle (c : Chan) : Stops c c.stopped.settle := by
  have hleft : c.stopped.inprog.isEmpty = !c.inprog.any fun e => e.started := by
    rw [← filter_isEmpty_eq, ← dropWaiting_inprog]
    rfl
  have hinprog : c.stopped.inprog = c.inprog.filter fun e => e.started := dropWaiting_inprog c
  have hstate : (c.stopped.state == ChState.stopping) = true := rfl
  unfold Chan.settle
  rw [hleft, hstate, Bool.true_and]
  by_cases hany : (c.inprog.any fun e => e.started) = true
  · exact ⟨by rw [hany]; rfl, by rw [hany]; exact hinprog, by rw [hany]; rfl⟩
  · rw [Bool.not_eq_true] at hany
    exact ⟨by rw [hany]; rfl, by rw [hany]; exact hinprog, by rw [hany]; rfl⟩

/-! ### DMV_CH_BASE and doorbells (R342, R343) -/

theorem exec_dmvChBaseWrite {fn l : Nat} (v : DWord) {s : State} (hlive : s.chanLive fn l = true) :
    exec (.dmvChBaseWrite fn l v) s = .next (chBaseWide fn l v s) := by
  have harm : exec (.dmvChBaseWrite fn l v) s = execDmvChBaseWrite fn l v s := rfl
  rw [harm, execDmvChBaseWrite, onlyIf, if_pos hlive]

theorem exec_dmvChDb {fn l : Nat} (v : Word) {s : State} (hlive : s.chanLive fn l = true) :
    exec (.dmvChDb fn l v) s = .next (chDbOp fn l s) := by
  have harm : exec (.dmvChDb fn l v) s = execDmvChDb fn l v s := rfl
  rw [harm, execDmvChDb, onlyIf, if_pos hlive]

/-- What a doorbell does to a channel. -/
def Chan.rung (c : Chan) : Chan :=
  if c.state = .idle then { c with state := .running } else if c.state = .running then { c with bell := true } else c

theorem chDbOp_rings (fn l : Nat) (s : State) : chDbOp fn l s = s.modChan (s.chanOf fn l) Chan.rung := by
  unfold chDbOp
  refine congrArg (s.modChan (s.chanOf fn l)) (funext fun c => ?_)
  unfold Chan.rung
  cases c.state <;> rfl

theorem rung_state (c : Chan) : c.rung.state = if c.state = .idle then .running else c.state := by
  unfold Chan.rung
  split
  · rfl
  · split <;> rfl

theorem rung_inprog (c : Chan) : c.rung.inprog = c.inprog := by
  unfold Chan.rung
  split
  · rfl
  · split <;> rfl

/-! ### Descriptor reads (R345 to R347) -/

theorem exec_descriptorRead {g : Nat} (ok : Bool) (ds : List (BitVec 256)) {s : State} (hactive : s.chanActive g = true)
    (hrun : (s.chan g).state = .running) (hempty : (s.chan g).inprog = []) :
    exec (.descriptorRead g ok ds) s = .next (descReadOp g ok ds s) := by
  have harm : exec (.descriptorRead g ok ds) s = execDescriptorRead g ok ds s := rfl
  rw [harm, execDescriptorRead, onlyIf, if_pos (by simp [hactive, hrun, hempty])]

/-- What a channel's failure touches: its state with its cause, its interrupt source, and a class U record. -/
structure ChanFails (g cause : Nat) (s t : State) : Prop where
  chan : t.chan g = { s.chan g with state := .error, cause := cause }
  others : ∀ k, k ≠ g → t.chan k = s.chan k
  records : Records s t 0x21 3
  frame : t = { s with dmv := t.dmv, fcl := t.fcl, funcs := t.funcs, hlu := t.hlu, imb := t.imb, out := t.out }

theorem chanFail_fails (s : State) (g cause : Nat) : ChanFails g cause s (s.chanFail g cause) := by
  have hasserted := (assertSource_asserted (s.modChan g fun c => { c with state := .error, cause := cause }) (192 + g)).frame
  have hchan := modChan_chan s g fun c => { c with state := .error, cause := cause }
  have hothers := (modChan_only s g fun c => { c with state := .error, cause := cause }).others
  have hframe : (s.modChan g fun c => { c with state := .error, cause := cause })
      = { s with dmv := (s.modChan g fun c => { c with state := .error, cause := cause }).dmv } := rfl
  unfold State.chanFail
  generalize (s.modChan g fun c => { c with state := .error, cause := cause }) = u at *
  generalize u.assertSource (192 + g) = t at *
  rw [hasserted]
  exact ⟨hchan, hothers, ⟨_, by rw [hframe]; rfl, rfl, rfl, by rw [hframe]⟩, by rw [hframe]; rfl⟩

theorem askPool_none {g : Nat} {s : State} (h : ((s.chan g).inprog.find? fun d => d.started && d.alloc) = none) : s.askPool g = s := by
  unfold State.askPool
  rw [h]

/-- A channel without descriptors in progress starts none. -/
theorem startDescs_empty {g : Nat} {s : State} (h : (s.chan g).inprog = []) :
    (∀ k, (s.startDescs g).chan k = s.chan k) ∧ s.startDescs g = { s with dmv := (s.startDescs g).dmv } := by
  have hrun : s.startRun (s.fnOfChan g) true (s.chan g).inprog = (s.chan g).inprog := by rw [h]; rfl
  have hsame : { s.chan g with inprog := s.startRun (s.fnOfChan g) true (s.chan g).inprog } = s.chan g := by rw [hrun]
  have hkeep : ∀ k, (s.modChan g fun c => { c with inprog := s.startRun (s.fnOfChan g) true c.inprog }).chan k = s.chan k := by
    intro k
    by_cases hk : g = k
    · subst hk
      rw [modChan_chan]
      exact hsame
    · exact modChan_chan_other _ _ _ _ hk
  unfold State.startDescs
  split
  · exact ⟨fun _ => rfl, rfl⟩
  · split
    · rw [askPool_none (by rw [h]; rfl)]
      exact ⟨fun _ => rfl, rfl⟩
    · rw [askPool_none (by rw [hkeep, h]; rfl)]
      exact ⟨hkeep, rfl⟩

theorem dfld_bit (d : BitVec 256) (n : Nat) : (dfld d 0 n 1 == 1) = d.getLsbD n := by
  simp only [dfld, fld, BitVec.getLsbD, Nat.testBit_eq_decide_div_mod_eq, pow_one, Nat.mul_zero, Nat.zero_add]
  rfl

theorem dfld_bit_zero (d : BitVec 256) (n : Nat) : (dfld d 0 n 1 == 0) = !d.getLsbD n := by
  rw [← dfld_bit]
  have hbit : dfld d 0 n 1 < 2 := Nat.mod_lt _ (by decide)
  have hcases : dfld d 0 n 1 = 0 ∨ dfld d 0 n 1 = 1 := by omega
  rcases hcases with h | h <;> rw [h] <;> rfl

/-- A descriptor read of a ring in host memory takes what the host returned. -/
theorem descReadOp_host {g : Nat} {s : State} (ok : Bool) (d : BitVec 256) (hspace : (s.chan g).space = 0) :
    descReadOp g ok [d] s = if ok then (takeDescs g (s.fnOfChan g) [d] s).startDescs g else s.chanFail g 6 := by
  have hread : s.readDescs (s.chan g) ok [d] = (ok, [d]) := by
    rw [State.readDescs, hspace]
    rfl
  unfold descReadOp
  rw [hread]
  cases ok <;> rfl

/-- The channel with the descriptor accepted. -/
def State.descTaken (s : State) (g : Nat) (d : BitVec 256) : State :=
  s.modChan g fun c => { c with inprog := c.inprog ++ [newDesc d c.next], next := ringNext c.next c.depth }

/-- The channel that met a descriptor that the device does not own. -/
def Chan.stalled (c : Chan) : Chan := if c.bell then { c with bell := false } else { c with state := .idle }

theorem stalled_unrung {c : Chan} (h : c.bell = false) : c.stalled = { c with state := .idle } := if_neg (by simp [h])

section
variable {g fn : Nat} {d : BitVec 256} {s : State} (hempty : (s.chan g).inprog = [])
include hempty

theorem takeDescs_unowned (hfree : d.getLsbD 0 = false) : takeDescs g fn [d] s = s.modChan g Chan.stalled := by
  rw [takeDescs, if_neg (by rw [hempty]; decide), dfld_bit_zero, hfree]
  rfl

theorem takeDescs_malformed {k : Nat} (hown : d.getLsbD 0 = true) (hcause : s.descCause fn d = some k) : takeDescs g fn [d] s = s.chanFail g k := by
  rw [takeDescs, if_neg (by rw [hempty]; decide), dfld_bit_zero, hown, hcause]
  rfl

theorem takeDescs_accepted (hown : d.getLsbD 0 = true) (hgood : s.descCause fn d = none) : takeDescs g fn [d] s = s.descTaken g d := by
  rw [takeDescs, if_neg (by rw [hempty]; decide), dfld_bit_zero, hown, hgood]
  rfl

end

theorem descTaken_chan {g : Nat} {s : State} (d : BitVec 256) (hempty : (s.chan g).inprog = []) :
    (s.descTaken g d).chan g
      = { s.chan g with inprog := [newDesc d (s.chan g).next], next := ringNext (s.chan g).next (s.chan g).depth } := by
  rw [State.descTaken, modChan_chan, hempty, List.nil_append]

theorem startRun_one (s : State) (fn : Nat) {d : Desc} (h : d.started = false) : s.startRun fn true [d] = [s.startDesc fn d] := by
  rw [State.startRun, if_neg (by simp [h]), if_neg (by simp)]
  rfl

/-- What the start of a descriptor says of its grant (R347). -/
structure Starts (s : State) (fn : Nat) (d e : Desc) : Prop where
  raw : e.raw = d.raw
  slot : e.slot = d.slot
  rdDone : e.rdDone = d.rdDone
  started : e.started = true
  alloc : e.alloc = false
  refused : s.descGranted fn d = false → e.failed = true ∧ e.status = 0x11 ∧ e.cause = 0x23
  granted : s.descGranted fn d = true → e.failed = d.failed
  asGranted : s.descGranted fn e = s.descGranted fn d

theorem startDesc_starts {s : State} {fn : Nat} {d : Desc} (halloc : d.alloc = false) : Starts s fn d (s.startDesc fn d) := by
  have hgrant : ∀ e : Desc, e.raw = d.raw → e.dst = d.dst → e.alloc = false → s.descGranted fn e = s.descGranted fn d := by
    intro e hraw hdst hal
    simp only [State.descGranted, Desc.srcSpace, Desc.src, Desc.len, Desc.dstSpace, hraw, hdst, hal, halloc]
  unfold State.startDesc
  split
  next h => exact ⟨rfl, rfl, rfl, rfl, halloc, fun hno => absurd (h.symm.trans hno) Bool.noConfusion, fun _ => rfl, hgrant _ rfl rfl halloc⟩
  next h => exact ⟨rfl, rfl, rfl, rfl, rfl, fun _ => ⟨rfl, rfl, rfl⟩, fun hyes => absurd hyes h, hgrant _ rfl rfl rfl⟩

/-- A descriptor without an allocation, taken by an empty channel whose function is not suspended, starts. -/
theorem descTaken_starts {g : Nat} {s : State} {d : BitVec 256} (hempty : (s.chan g).inprog = []) (hrun : (s.chan g).state = .running)
    (halloc : d.getLsbD 3 = false) (hd3 : (s.func (s.fnOfChan g)).d3 = false) :
    ((s.descTaken g d).startDescs g).chan g
      = { s.chan g with inprog := [s.startDesc (s.fnOfChan g) (newDesc d (s.chan g).next)], next := ringNext (s.chan g).next (s.chan g).depth }
      ∧ OnlyChan g s ((s.descTaken g d).startDescs g) := by
  have hchan := descTaken_chan d hempty
  have hfn : (s.descTaken g d).fnOfChan g = s.fnOfChan g := fnOfChan_congr (s := s) (t := s.descTaken g d) rfl g
  have hnew : (newDesc d (s.chan g).next).alloc = false := (dfld_bit d 3).trans halloc
  have hstart : ∀ x, (s.descTaken g d).startDesc (s.fnOfChan g) x = s.startDesc (s.fnOfChan g) x := fun _ => rfl
  have hon : ((s.descTaken g d).chan g).state = .running := by rw [hchan, hrun]
  have hawake : ((s.descTaken g d).func (s.fnOfChan g)).d3 = false := hd3
  have hbegun : ((s.descTaken g d).modChan g fun c => { c with inprog := (s.descTaken g d).startRun (s.fnOfChan g) true c.inprog }).chan g
      = { s.chan g with inprog := [s.startDesc (s.fnOfChan g) (newDesc d (s.chan g).next)], next := ringNext (s.chan g).next (s.chan g).depth } := by
    rw [modChan_chan, hchan]
    dsimp only
    rw [startRun_one _ _ rfl, hstart]
  have hquiet : (([s.startDesc (s.fnOfChan g) (newDesc d (s.chan g).next)] : List Desc).find? fun e => e.started && e.alloc) = none := by
    rw [List.find?_eq_none]
    intro e he
    rw [List.mem_singleton.1 he, (startDesc_starts hnew).alloc]
    simp
  unfold State.startDescs
  rw [hon, hfn, hawake, if_neg (by decide), if_neg Bool.false_ne_true, askPool_none (by rw [hbegun]; exact hquiet)]
  exact ⟨hbegun, onlyChan_trans (t := s.descTaken g d) (modChan_only ..) (modChan_only ..)⟩

/-! ### Write-backs (R345, R347) -/

theorem exec_descriptorWriteback (g : Nat) {s : State} (hlive : s.live = true) : exec (.descriptorWriteback g) s = .next (writebackOp g s) := by
  have harm : exec (.descriptorWriteback g) s = execDescriptorWriteback g s := rfl
  rw [harm, execDescriptorWriteback, onlyIf, if_pos (by simp [live_up hlive, hlive])]

theorem putRecord_sends {s : State} {fn : Nat} (a : Nat) (bs : List Byte) (hflr : (s.func fn).flr = false) (hd3 : (s.func fn).d3 = false)
    (hlink : s.linkPasses = true) : s.putRecord fn 0 a bs = s.send (.hostWrite fn a bs false) := by
  rw [State.putRecord, if_neg (by simp [hflr]), State.putBytes, if_pos (by rfl), emitFor_sends _ hflr hd3 hlink]

/-- The write-back of the channel's oldest descriptor has gone out. -/
def State.descReturned (s : State) (g : Nat) (d : Desc) : State :=
  s.send (.hostWrite (s.fnOfChan g) ((s.chan g).slotAddr d.slot) d.written false)

/-- A channel without its oldest descriptor, which it counts. -/
def Chan.returned (c : Chan) (ds : List Desc) : Chan := { c with inprog := ds, done := c.done + 1 }

theorem writebackOp_plain {g : Nat} {d : Desc} {s : State} (hone : (s.chan g).inprog = [d]) (hready : s.descReady d = true)
    (hgood : d.failed = false) (hquiet : d.intr = false) (hspace : (s.chan g).space = 0) (hflr : (s.func (s.fnOfChan g)).flr = false)
    (hd3 : (s.func (s.fnOfChan g)).d3 = false) (hlink : s.linkPasses = true) (hstrict : s.relaxedFor (s.fnOfChan g) = false) :
    writebackOp g s = (((s.descReturned g d).modChan g fun c => c.returned []).modChan g Chan.settle).startDescs g := by
  have hzero : (s.chan g).space.toNat = 0 := by rw [hspace]; rfl
  have hflush : ∀ a, s.flushFor (s.fnOfChan g) 0 a = s := fun a => if_neg (by simp [hstrict])
  unfold writebackOp
  rw [hone]
  dsimp only
  rw [hready, hgood, hquiet, hzero, hflush, putRecord_sends _ _ hflr hd3 hlink]
  simp only [Bool.not_true, Bool.false_eq_true, if_false, Bool.false_and, State.descReturned, Chan.returned]

theorem settle_kept (c : Chan) : c.settle.inprog = c.inprog ∧ c.settle.done = c.done := by
  unfold Chan.settle
  split <;> exact ⟨rfl, rfl⟩

/-- What a plain write-back leaves. -/
structure Returns (g : Nat) (s t : State) (o : Out) : Prop where
  inprog : (t.chan g).inprog = []
  done : (t.chan g).done = (s.chan g).done + 1
  out : t.out = s.out ++ [o]
  others : ∀ k, k ≠ g → t.chan k = s.chan k
  frame : t = { s with dmv := t.dmv, hlu := t.hlu, out := t.out }

theorem returned_returns (s : State) (g : Nat) (o : Out) :
    Returns g s ((((s.send o).modChan g fun c => c.returned []).modChan g Chan.settle).startDescs g) o := by
  have hsent : (s.send o) = { s with hlu := (s.send o).hlu, out := s.out ++ [o] } := rfl
  have hkept : ∀ k, (s.send o).chan k = s.chan k := fun _ => rfl
  generalize s.send o = r at *
  obtain ⟨hothers, hframe⟩ := onlyChan_trans (modChan_only r g fun c => c.returned []) (modChan_only _ g Chan.settle)
  have hchan : ((r.modChan g fun c => c.returned []).modChan g Chan.settle).chan g = ((s.chan g).returned []).settle := by
    rw [modChan_chan, modChan_chan, hkept]
  obtain ⟨hinprog, hdone⟩ := settle_kept ((s.chan g).returned [])
  generalize (r.modChan g fun c => c.returned []).modChan g Chan.settle = u at *
  have hempty : (u.chan g).inprog = [] := by rw [hchan, hinprog]; rfl
  obtain ⟨ksame, kframe⟩ := startDescs_empty hempty
  generalize u.startDescs g = t at *
  refine ⟨(congrArg Chan.inprog (ksame g)).trans hempty, ?_, ?_, fun k hk => ?_, ?_⟩
  · rw [ksame, hchan, hdone]
    rfl
  · rw [kframe, hframe, hsent]
  · rw [ksame, hothers k hk, hkept]
  · rw [kframe, hframe, hsent]

/-- Settles O45: `stopped_settle` for a disable, `descTaken_starts` for a read, `returned_returns` for a write-back. -/
theorem channelDescriptors : Obligations.ChannelDescriptors := by
  refine ⟨?enable, ?disable, ?vector, ?base, ?bell, ?read, ?back⟩
  case enable =>
    intro fn l v s hlive hbit hvec hstate hclosed
    have hrun := exec_channelEnable v hlive
    obtain ⟨hothers, hframe⟩ := modChan_only s (s.chanOf fn l) fun c => (c.setCtrl v.toNat).setEnable (bitAt v.toNat 31)
    have hchan := modChan_chan s (s.chanOf fn l) fun c => (c.setCtrl v.toNat).setEnable (bitAt v.toNat 31)
    rw [ctrlOp_takes hvec] at hrun
    generalize (s.modChan (s.chanOf fn l) fun c => (c.setCtrl v.toNat).setEnable (bitAt v.toNat 31)) = t at *
    rw [bitAt_toNat, hbit, setEnable_on ((setCtrl_kept ..).1.trans hstate), setCtrl_open _ hclosed] at hchan
    refine ⟨t, hrun, ?_, ?_, ?_, ?_, ?_, ?_, ?_, hothers, hframe⟩ <;> rw [hchan]
    · exact vectorField v
    · exact bitAt_toNat v 30
    · rfl
  case disable =>
    intro fn l v s hlive hbit hvec hstate
    have hrun := exec_channelDisable v hlive
    obtain ⟨hothers, hframe⟩ := modChan_only s (s.chanOf fn l) fun c => (c.setCtrl v.toNat).setEnable (bitAt v.toNat 31)
    have hchan := modChan_chan s (s.chanOf fn l) fun c => (c.setCtrl v.toNat).setEnable (bitAt v.toNat 31)
    rw [ctrlOp_takes hvec] at hrun
    generalize (s.modChan (s.chanOf fn l) fun c => (c.setCtrl v.toNat).setEnable (bitAt v.toNat 31)) = t at *
    obtain ⟨hkept, hdescs⟩ := setCtrl_kept (s.chan (s.chanOf fn l)) v.toNat
    rw [bitAt_toNat, hbit, setEnable_off (by rwa [hkept])] at hchan
    obtain ⟨henable, hinprog, hends⟩ := stopped_settle ((s.chan (s.chanOf fn l)).setCtrl v.toNat)
    rw [← hchan, hdescs] at hinprog hends
    rw [← hchan] at henable
    refine ⟨t, hrun, henable, fun d hd => ?_, hends, hothers, hframe⟩
    rw [hinprog] at hd
    exact (List.mem_filter.1 hd).2
  case vector =>
    intro fn l v c s hlive hvec hc
    have hrun : exec c s = .next (s.reportAccess fn (chanOff fn l 8)) := by
      rw [← ctrlOp_refuses hvec]
      rcases hc with rfl | rfl
      · exact exec_channelEnable v hlive
      · exact exec_channelDisable v hlive
    exact ⟨_, hrun, reportAccess_records .., rfl⟩
  case base =>
    intro fn l v s hlive
    have hrun := exec_dmvChBaseWrite v hlive
    obtain ⟨hothers, hframe⟩ := modChan_only s (s.chanOf fn l) fun c => if c.enable then c else { c with base := v, next := 0 }
    refine ⟨_, hrun, modChan_chan .., hothers, ?_, rfl⟩
    exact tblGet_tblSet_same false s.heldV (pairKey fn (pageBase fn 0x2400000 0x22000 + 0x400 + 0x20 * l)) false
  case bell =>
    intro fn l v s hlive
    have hrun := exec_dmvChDb v hlive
    rw [chDbOp_rings] at hrun
    obtain ⟨hothers, hframe⟩ := modChan_only s (s.chanOf fn l) Chan.rung
    refine ⟨_, hrun, ?_, ?_, hothers, hframe⟩
    · rw [modChan_chan, rung_state]
    · rw [modChan_chan, rung_inprog]
  case read =>
    intro g d s hactive hrunning hempty hspace
    refine ⟨?lost, fun hfree hbell => ?idle, fun k hown hcause => ?bad, fun hown halloc hgood => ?takes⟩
    case lost =>
      have hrun := exec_descriptorRead false [d] hactive hrunning hempty
      rw [descReadOp_host false d hspace, if_neg Bool.false_ne_true] at hrun
      obtain ⟨hchan, hothers, hrecords, hframe⟩ := chanFail_fails s g 6
      exact ⟨_, hrun, by rw [hchan], by rw [hchan], hrecords, hothers, hframe⟩
    case idle =>
      have hrun := exec_descriptorRead true [d] hactive hrunning hempty
      rw [descReadOp_host true d hspace, if_pos rfl, takeDescs_unowned hempty hfree] at hrun
      obtain ⟨hothers, hframe⟩ := modChan_only s g Chan.stalled
      have hchan := modChan_chan s g Chan.stalled
      rw [stalled_unrung hbell] at hchan
      generalize s.modChan g Chan.stalled = u at *
      obtain ⟨ksame, kframe⟩ := startDescs_empty (g := g) (s := u) (by rw [hchan]; exact hempty)
      exact ⟨_, hrun, (ksame g).trans hchan, fun k hk => (ksame k).trans (hothers k hk), by rw [kframe, hframe]⟩
    case bad =>
      have hrun := exec_descriptorRead true [d] hactive hrunning hempty
      rw [descReadOp_host true d hspace, if_pos rfl, takeDescs_malformed hempty hown hcause] at hrun
      obtain ⟨hchan, -, hrecords, hframe⟩ := chanFail_fails s g k
      generalize s.chanFail g k = u at *
      obtain ⟨ksame, kframe⟩ := startDescs_empty (g := g) (s := u) (by rw [hchan]; exact hempty)
      have kchan := (ksame g).trans hchan
      refine ⟨_, hrun, by rw [kchan], by rw [kchan], by rw [kchan]; exact hempty, by rw [kchan], ?_, by rw [kframe, hframe]⟩
      exact records_congr (by rw [kframe]) hrecords
    case takes =>
      have hrun := exec_descriptorRead true [d] hactive hrunning hempty
      rw [descReadOp_host true d hspace, if_pos rfl, takeDescs_accepted hempty hown hgood] at hrun
      have hd3 : (s.func (s.fnOfChan g)).d3 = false := by
        have hawake := (Bool.and_eq_true_iff.1 hactive).2
        simpa using hawake
      obtain ⟨hchan, hothers, hframe⟩ := descTaken_starts hempty hrunning halloc hd3
      have hnew : (newDesc d (s.chan g).next).alloc = false := (dfld_bit d 3).trans halloc
      obtain ⟨hraw, hslot, hread, hstarted, -, hrefused, hgranted, hsame⟩ := startDesc_starts (s := s) (fn := s.fnOfChan g) hnew
      refine ⟨_, hrun, ⟨_, by rw [hchan], hraw, hslot, hstarted, hread, fun h => hrefused (hsame.symm.trans h), fun h => hgranted (hsame.symm.trans h)⟩,
        by rw [hchan]; rfl, by rw [hchan]; exact hrunning, hothers, hframe⟩
  case back =>
    intro g d s hlive hone hready hgood hquiet hspace hflr hd3 hlink hstrict
    have hrun := exec_descriptorWriteback g hlive
    rw [writebackOp_plain hone hready hgood hquiet hspace hflr hd3 hlink hstrict] at hrun
    obtain ⟨hinprog, hdone, hout, hothers, hframe⟩ := returned_returns s g
      (.hostWrite (s.fnOfChan g) ((s.chan g).slotAddr d.slot) d.written false)
    exact ⟨_, hrun, hinprog, hdone, hout, hothers, hframe⟩

end Sys2Proof.Machine
end

section
/-! PROOFS. Read bursts and write requests of the Data Mover (R337, R347, R349). -/
namespace Sys2Proof.Machine

/-! ### The read engine (R337, R340) -/

/-- A slot that a read burst has just taken. -/
def Slot.fresh (x : Slot) : Prop := x.waiting = true ∧ x.reread = false ∧ x.src % 4096 + x.bytes.length ≤ 4096

/-- What the read engine changes when it takes bursts: its turn, how far sources are read, and the slots, to which it adds fresh ones. -/
structure Takes (s t : State) : Prop where
  slots : ∃ xs, t.dmv.slots = s.dmv.slots ++ xs ∧ ∀ x ∈ xs, x.fresh
  bytesRd : t.dmv.bytesRd = s.dmv.bytesRd
  frame : t = { s with dmv := t.dmv }

theorem takes_refl (s : State) : Takes s s := ⟨⟨[], (List.append_nil _).symm, fun _ h => absurd h List.not_mem_nil⟩, rfl, rfl⟩

theorem takes_trans {s t u : State} (h : Takes s t) (k : Takes t u) : Takes s u := by
  obtain ⟨⟨xs, hxs, hfresh⟩, hbytes, hframe⟩ := h
  obtain ⟨⟨ys, hys, kfresh⟩, kbytes, kframe⟩ := k
  refine ⟨⟨xs ++ ys, by rw [hys, hxs, List.append_assoc], fun x hx => ?_⟩, kbytes.trans hbytes, by rw [kframe, hframe]⟩
  exact (List.mem_append.1 hx).elim (hfresh x) (kfresh x)

theorem burstLen_block (a left : Nat) : a % 4096 + burstLen a left ≤ 4096 := by
  unfold burstLen
  omega

/-- A burst lies within one 4 KiB block of its source. -/
theorem nextBurst_block {s : State} {u : DmvUser} {b : Burst} (h : s.nextBurst u = some b) : b.src % 4096 + b.n ≤ 4096 := by
  cases u with
  | channel g =>
    obtain ⟨d, -, rfl⟩ := Option.map_eq_some_iff.1 h
    exact burstLen_block ..
  | copy q seq =>
    obtain ⟨c, -, rfl⟩ := Option.map_eq_some_iff.1 h
    exact burstLen_block ..
  | demand n => cases h

theorem addRead_takes (s : State) (u : DmvUser) (desc n : Nat) : Takes s (s.addRead u desc n) := by
  have hnone : ∃ xs, s.dmv.slots = s.dmv.slots ++ xs ∧ ∀ x ∈ xs, x.fresh := (takes_refl s).slots
  cases u <;> exact ⟨hnone, rfl, rfl⟩

theorem takeBurst_takes {s : State} {u : DmvUser} {b : Burst} (k : Nat) (h : b.src % 4096 + b.n ≤ 4096) : Takes s (s.takeBurst k u b) := by
  refine takes_trans (addRead_takes s u b.desc b.n) ⟨⟨_, rfl, fun x hx => ?_⟩, rfl, rfl⟩
  rw [List.mem_singleton.1 hx]
  exact ⟨rfl, rfl, by simpa using h⟩

theorem takeBursts_takes (n : Nat) (s : State) : Takes s (s.takeBursts n) := by
  induction n generalizing s with
  | zero => exact takes_refl s
  | succ n ih =>
    unfold State.takeBursts
    split
    · exact takes_refl s
    · split
      · exact takes_refl s
      next b hb => exact takes_trans (takeBurst_takes _ (nextBurst_block hb)) (ih _)

/-! ### A burst returns (R337, R347) -/

theorem exec_readBurstDone (u : DmvUser) (poisoned : Bool) (data : List Byte) {s : State} (hlive : s.live = true) :
    exec (.readBurstDone u poisoned data) s = .next (burstOp u poisoned data s) := by
  have harm : exec (.readBurstDone u poisoned data) s = execReadBurstDone u poisoned data s := rfl
  rw [harm, execReadBurstDone, onlyIf, if_pos hlive]

/-- A burst of host memory fills the oldest slot that waits of its channel. -/
theorem burstOp_fills {g : Nat} {x : Slot} {s : State} (poisoned : Bool) (data : List Byte)
    (holdest : (((s.takeBursts 384).slotsOf (.channel g)).find? fun y => y.waiting) = some x) (hspace : x.srcSpace = 0) :
    burstOp (.channel g) poisoned data s = (s.takeBursts 384).fillSlot (.channel g) x poisoned data := by
  unfold burstOp
  dsimp only
  rw [holdest]
  dsimp only
  rw [hspace]
  rfl

/-- The bytes of a slot counted as read. -/
def State.bytesCounted (s : State) (n : Nat) : State := s.modDmv fun d => { d with bytesRd := sat64 d.bytesRd n }

/-- The slot with its bytes. -/
def Slot.filled (x : Slot) (data : List Byte) : Slot := { x with waiting := false, bytes := data }

theorem fillSlot_host {u : DmvUser} {x : Slot} {s : State} (poisoned : Bool) (data : List Byte) (hspace : x.srcSpace = 0) :
    s.fillSlot u x poisoned data = if poisoned then (s.bytesCounted x.bytes.length).failTransfer u x.desc
      else (s.bytesCounted x.bytes.length).modDmv fun d =>
        { d with slots := d.slots.map fun y => if y == x then y.filled (fitBytes x.bytes.length data) else y } := by
  unfold State.fillSlot
  rw [hspace]
  cases poisoned <;> rfl

theorem fitBytes_exact {n : Nat} {bs : List Byte} (h : bs.length = n) : fitBytes n bs = bs := by
  rw [fitBytes, List.take_of_length_le (by omega), h, Nat.sub_self, List.replicate_zero, List.append_nil]

/-- The descriptor of ring slot `n` has failed on poison. -/
def Chan.burstFailed (c : Chan) (n : Nat) : Chan :=
  { c with inprog := c.inprog.map fun d => if d.slot == n then { d with failed := true, status := 0xF0, cause := 0x30 } else d }

theorem burstFailed_inprog {c : Chan} {n : Nat} {d : Desc} (h : d ∈ (c.burstFailed n).inprog) (hslot : d.slot = n) :
    d.failed = true ∧ d.status = 0xF0 ∧ d.cause = 0x30 := by
  obtain ⟨e, -, rfl⟩ := List.mem_map.1 h
  split at hslot
  next he => exact if_pos he ▸ ⟨rfl, rfl, rfl⟩
  next he => exact absurd hslot (by simpa using he)

theorem failTransfer_channel (s : State) (g desc : Nat) :
    s.failTransfer (.channel g) desc = (s.modChan g fun c => c.burstFailed desc).modDmv fun d =>
      { d with slots := d.slots.filter fun x => !(x.user == .channel g && x.desc == desc) } := rfl

/-- What the failure of a channel's transfer leaves: its descriptor failed, its slots gone. -/
structure TransferFails (g desc : Nat) (s t : State) : Prop where
  descs : ∀ d ∈ (t.chan g).inprog, d.slot = desc → d.failed = true ∧ d.status = 0xF0 ∧ d.cause = 0x30
  slots : ∀ y ∈ t.dmv.slots, y.user = .channel g → y.desc ≠ desc
  lostSlots : t.dmv.lostSlots = s.dmv.lostSlots
  frame : t = { s with dmv := t.dmv }

theorem failTransfer_fails (s : State) (g desc : Nat) : TransferFails g desc s (s.failTransfer (.channel g) desc) := by
  rw [failTransfer_channel]
  have hchan : ((s.modChan g fun c => c.burstFailed desc).modDmv fun d =>
      { d with slots := d.slots.filter fun x => !(x.user == .channel g && x.desc == desc) }).chan g = (s.chan g).burstFailed desc :=
    modChan_chan s g fun c => c.burstFailed desc
  refine ⟨fun d hd hslot => ?_, fun y hy huser => ?_, rfl, rfl⟩
  · rw [hchan] at hd
    exact burstFailed_inprog hd hslot
  · have hkept := (List.mem_filter.1 hy).2
    simpa [huser] using hkept

/-! ### Write requests (R337) -/

theorem exec_writeRequestIssue (u : DmvUser) {s : State} (hlive : s.live = true) :
    exec (.writeRequestIssue u) s = .next (writeReqOp u s) := by
  have harm : exec (.writeRequestIssue u) s = execWriteRequestIssue u s := rfl
  rw [harm, execWriteRequestIssue, onlyIf, if_pos hlive]

theorem slotsOf_user {s : State} {u : DmvUser} {x : Slot} {xs : List Slot} (h : s.slotsOf u = x :: xs) : x.user = u := by
  have hmem : x ∈ s.slotsOf u := h ▸ List.mem_cons_self
  simpa using (List.mem_filter.1 hmem).2

theorem putData_sends {s : State} {fn : Nat} (a : Nat) (bs : List Byte) (hflr : (s.func fn).flr = false) (hlink : s.linkPasses = true) :
    s.putData fn 0 a bs = s.send (.hostWrite fn a bs (s.relaxedFor fn)) := by
  rw [State.putData, if_pos (by rfl), State.emitData, if_neg (by simp [hflr, hlink])]

theorem requestMax_host (s : State) : s.requestMax 0 = min 512 (max 128 s.hlu.mode.payload) := rfl

theorem relaxedFor_bit (s : State) (fn : Nat) : s.relaxedFor fn = ((s.func fn).roEn && s.hlu.ctrl.getLsbD 0) := by
  rw [State.relaxedFor, bitAt_toNat]

/-- A write request of `n` bytes taken from a slot, in the Data Mover. -/
def State.slotEmptied (s : State) (x : Slot) (n : Nat) : State :=
  (s.modDmv fun d => { d with bytesWr := sat64 d.bytesWr n,
                              slots := if x.bytes.length ≤ n then d.slots.erase x else d.slots.map fun y => if y == x then x.drop n else y }).addWritten
    x.user x.desc n

theorem slotEmptied_channel {g n : Nat} {x : Slot} {s : State} (huser : x.user = .channel g) :
    OnlyChan g s (s.slotEmptied x n) ∧ (s.slotEmptied x n).dmv.bytesWr = sat64 s.dmv.bytesWr n := by
  unfold State.slotEmptied
  rw [huser]
  exact ⟨onlyChan_trans (t := s.modDmv _) ⟨fun _ _ => rfl, rfl⟩ (modChan_only ..), rfl⟩

theorem writeReqOp_host {g : Nat} {x : Slot} {xs : List Slot} {s : State} (hslots : s.slotsOf (.channel g) = x :: xs) (hfull : x.waiting = false)
    (hspace : x.space = 0) (hflr : (s.func (s.fnOfChan g)).flr = false) (hlink : s.linkPasses = true) :
    writeReqOp (.channel g) s
      = (s.send (.hostWrite (s.fnOfChan g) x.addr (x.bytes.take (requestLen (s.requestMax 0) x.addr x.bytes.length)) (s.relaxedFor (s.fnOfChan g)))).slotEmptied
          x (requestLen (s.requestMax 0) x.addr x.bytes.length) := by
  have hfn : s.fnOfUser x.user = s.fnOfChan g := by rw [slotsOf_user hslots]; rfl
  unfold writeReqOp
  dsimp only
  rw [hslots]
  dsimp only
  rw [hfull, if_neg Bool.false_ne_true]
  unfold State.issueFrom
  dsimp only
  rw [hspace, hfn, putData_sends _ _ hflr hlink]
  rfl

/-- Settles O46: `takeBursts_takes` for the read engine, `fillSlot_host` with `failTransfer_fails` for what returns, `writeReqOp_host`. -/
theorem bursts : Obligations.Bursts := by
  refine ⟨?takes, ?fills, ?poisoned, ?issues, ?idle⟩
  case takes => exact fun n s => (takeBursts_takes n s).slots
  case fills =>
    intro g x data s hlive holdest hspace hlen
    have hrun := exec_readBurstDone (.channel g) false data hlive
    rw [burstOp_fills false data holdest hspace, fillSlot_host false data hspace, if_neg Bool.false_ne_true, fitBytes_exact hlen] at hrun
    obtain ⟨-, hbytes, hframe⟩ := takeBursts_takes 384 s
    generalize s.takeBursts 384 = u at *
    refine ⟨_, hrun, ?_, ?_, ?_⟩
    · exact List.map_congr_left fun y _ => by simp only [beq_iff_eq]; rfl
    · rw [hlen, ← hbytes]
      rfl
    · rw [hframe]
      rfl
  case poisoned =>
    intro g x data s hlive holdest hspace
    have hrun := exec_readBurstDone (.channel g) true data hlive
    rw [burstOp_fills true data holdest hspace, fillSlot_host true data hspace, if_pos rfl] at hrun
    obtain ⟨-, -, hframe⟩ := takeBursts_takes 384 s
    generalize s.takeBursts 384 = u at *
    obtain ⟨hdescs, hslots, -, kframe⟩ := failTransfer_fails (u.bytesCounted x.bytes.length) g x.desc
    refine ⟨_, hrun, hdescs, hslots, ?_⟩
    rw [kframe, hframe]
    rfl
  case issues =>
    intro g m n x xs s hlive hslots hfull hspace hflr hd3 hlink hm hn
    have hrun := exec_writeRequestIssue (.channel g) hlive
    have hlen : requestLen (s.requestMax 0) x.addr x.bytes.length = n := by rw [requestMax_host, ← hm, hn, requestLen]
    rw [writeReqOp_host hslots hfull hspace hflr hlink, hlen, relaxedFor_bit] at hrun
    obtain ⟨⟨hothers, hframe⟩, hbytes⟩ := slotEmptied_channel (n := n)
      (s := s.send (.hostWrite (s.fnOfChan g) x.addr (x.bytes.take n) ((s.func (s.fnOfChan g)).roEn && s.hlu.ctrl.getLsbD 0))) (slotsOf_user hslots)
    refine ⟨_, hrun, ?_, hbytes, hothers, ?_⟩
    · rw [hframe]
      rfl
    · rw [hframe]
      rfl
  case idle =>
    intro g s hnone
    have harm : exec (.writeRequestIssue (.channel g)) s = .next (onlyIf s.live (writeReqOp (.channel g)) s) := rfl
    have hkeep : writeReqOp (.channel g) s = s := by
      unfold writeReqOp
      dsimp only
      rw [hnone]
    rw [harm, onlyIf, hkeep, ite_self]

end Sys2Proof.Machine
end

section
/-! PROOFS. Demand requests of units and the parity of the data buffer (R76, R349, R440). -/
namespace Sys2Proof.Machine

/-! ### A unit's accesses -/

theorem exec_demandRead {h space n : Nat} (a : Nat) {s : State} (hlive : s.live = true) (hhalf : isHalf h = true) (hlow : 64 ≤ n) (hhigh : n ≤ 4096)
    (hspace : space ≤ 1) : exec (.demandRead h space a n) s = .next (unitReadOp h space a n s) := by
  have harm : exec (.demandRead h space a n) s = execDemandRead h space a n s := rfl
  rw [harm, execDemandRead, onlyIf, if_pos (by simp [hlive, hhalf, hlow, hhigh, hspace])]

theorem exec_demandWrite {h w : Nat} (a : Nat) {bs : List Byte} {s : State} (hlive : s.live = true) (hhalf : isHalf h = true) (hw : w < 16)
    (hsome : 0 < bs.length) (hhigh : bs.length ≤ 64) : exec (.demandWrite h w a bs) s = .next (unitWriteOp h w a bs s) := by
  have harm : exec (.demandWrite h w a bs) s = execDemandWrite h w a bs s := rfl
  rw [harm, execDemandWrite, onlyIf, if_pos (by simp [hlive, hhalf, hw, hhigh, hsome])]

theorem exec_demandWriteHold (h : Nat) {s : State} (hlive : s.live = true) : exec (.demandWriteHold h) s = .next (s.issueDemand h) := by
  have harm : exec (.demandWriteHold h) s = execDemandWriteHold h s := rfl
  rw [harm, execDemandWriteHold, onlyIf, if_pos hlive]

theorem exec_dmvBufferParity (u : DmvUser) {s : State} (hlive : s.live = true) : exec (.dmvBufferParity u) s = .next (bufParityOp u s) := by
  have harm : exec (.dmvBufferParity u) s = execDmvBufferParity u s := rfl
  rw [harm, execDmvBufferParity, onlyIf, if_pos hlive]

/-- One of the unit's windows admits the read. -/
def State.readAdmitted (s : State) (u : WUnit) (space a n : Nat) : Bool :=
  (List.range 16).any fun i => (s.demandWindow u i a).space == space && (s.demandWindow u i a).admits false a n

theorem unitReadOp_running {h space a n : Nat} {u : WUnit} {s : State} (hunit : s.running? h = some u) :
    unitReadOp h space a n s = if s.readAdmitted u space a n then demandReadOp h space a n s
      else if readsEnd (s.parOf u).encode u space a then s else s.violate u h u.done := by
  unfold unitReadOp
  rw [hunit]
  rfl

theorem readAdmitted_of_window {s : State} {u : WUnit} {space a n i : Nat} (hi : i < 16) (hspace : (s.demandWindow u i a).space = space)
    (hadmits : (s.demandWindow u i a).admits false a n = true) : s.readAdmitted u space a n = true := by
  rw [State.readAdmitted, List.any_eq_true]
  exact ⟨i, List.mem_range.2 hi, by simp [hspace, hadmits]⟩

theorem readAdmitted_none {s : State} {u : WUnit} {space a n : Nat}
    (h : ∀ i, i < 16 → (s.demandWindow u i a).space ≠ space ∨ (s.demandWindow u i a).admits false a n = false) :
    s.readAdmitted u space a n = false := by
  rw [State.readAdmitted, List.any_eq_false]
  intro i hi
  rcases h i (List.mem_range.1 hi) with hspace | hadmits
  · simp [hspace]
  · simp [hadmits]

theorem unitWriteOp_admitted {h w a : Nat} {bs : List Byte} {u : WUnit} {s : State} (hunit : s.running? h = some u)
    (hspace : (s.demandWindow u w a).space = 0) (hadmits : (s.demandWindow u w a).admits true a bs.length = true) (hbar : s.barred u = false) :
    unitWriteOp h w a bs s = demandWriteOp h w a bs s := by
  unfold unitWriteOp
  rw [hunit]
  dsimp only
  rw [hspace, hadmits, hbar]
  rfl

theorem unitWriteOp_refused {h w a : Nat} {bs : List Byte} {u : WUnit} {s : State} (hunit : s.running? h = some u)
    (hno : (s.demandWindow u w a).space ≠ 0 ∨ (s.demandWindow u w a).admits true a bs.length = false) :
    unitWriteOp h w a bs s = s.violate u h u.done := by
  unfold unitWriteOp
  rw [hunit]
  dsimp only
  rw [if_pos (by rcases hno with hspace | hadmits <;> simp [*])]

/-! ### A refused access (R76, R102) -/

/-- What a refused access touches: its half, whose count rises, and its unit's session. -/
structure Violates (u : WUnit) (h : Nat) (s t : State) : Prop where
  count : (t.half h).winViol = sat32 (s.half h).winViol 1
  halves : ∀ j, j ≠ h → t.half j = s.half j
  sessions : ∀ n, n ≠ u.session → t.sess n = s.sess n
  frame : t = { s with halves := t.halves, sessions := t.sessions }

theorem violate_violates (s : State) (u : WUnit) (h ctu : Nat) : Violates u h s (s.violate u h ctu) := by
  have hcount : ((s.modHalf h fun x => { x with winViol := sat32 x.winViol 1 }).half h).winViol = sat32 (s.half h).winViol 1 := by
    rw [modHalf_half]
  have hothers := fun j (hj : j ≠ h) => modHalf_half_other s h j (fun x => { x with winViol := sat32 x.winViol 1 }) hj.symm
  unfold State.violate
  dsimp only
  split
  · refine ⟨?_, fun j hj => ?_, fun _ _ => rfl, rfl⟩
    · rw [modHalf_half]
      exact hcount
    · rw [modHalf_half_other _ _ _ _ hj.symm]
      exact hothers j hj
  · exact ⟨hcount, hothers, fun n hn => modSess_sess_other _ _ _ _ hn.symm, rfl⟩

/-! ### Held writes (R337, R349) -/

/-- A granule of a window of which nothing is held. -/
theorem demandWriteOp_new {h w : Nat} (a : Nat) (bs : List Byte) {s : State} (hnone : ∀ x ∈ s.dmv.demand, x.1 ≠ h ∨ x.2.1 ≠ w) :
    demandWriteOp h w a bs s = { s with dmv := { s.dmv with demand := s.dmv.demand ++ [(h, w, a, bs, s.time)] } } := by
  have hfind : s.dmv.demand.find? (fun x => x.1 == h && x.2.1 == w) = none := by
    rw [List.find?_eq_none]
    intro x hx
    rcases hnone x hx with hne | hne <;> simp [hne]
  unfold demandWriteOp
  rw [hfind]
  rfl

/-- A granule that continues what is held of its window, within one block. -/
theorem demandWriteOp_merges {h w b a at_ : Nat} {held : List Byte} (bs : List Byte) {s : State} (hheld : s.dmv.demand = [(h, w, b, held, at_)])
    (hnext : b + held.length = a) (hblock : b / s.requestMax 0 = (a + bs.length - 1) / s.requestMax 0) :
    demandWriteOp h w a bs s = { s with dmv := { s.dmv with demand := [(h, w, b, held ++ bs, at_)] } } := by
  have hfind : s.dmv.demand.find? (fun x => x.1 == h && x.2.1 == w) = some (h, w, b, held, at_) := by
    rw [hheld, List.find?_cons_of_pos (by simp)]
  unfold demandWriteOp
  rw [hfind]
  dsimp only
  rw [if_pos (by rw [hnext, decide_eq_true hblock, beq_self_eq_true]; rfl), State.modDmv, hheld]
  simp

/-- The oldest write that a half holds issues. -/
theorem issueDemand_first {h w a at_ : Nat} {bs : List Byte} {rest : List (Nat × Nat × Nat × List Byte × Nat)} {s : State}
    (hheld : s.dmv.demand = (h, w, a, bs, at_) :: rest) (hflr : (s.func (s.fnOfUser (.demand h))).flr = false) (hlink : s.linkPasses = true) :
    s.issueDemand h = (s.send (.hostWrite (s.fnOfUser (.demand h)) a bs (s.relaxedFor (s.fnOfUser (.demand h))))).modDmv fun d =>
      { d with demand := d.demand.erase (h, w, a, bs, at_), bytesWr := sat64 d.bytesWr bs.length } := by
  have hfind : s.dmv.demand.find? (fun x => x.1 == h) = some (h, w, a, bs, at_) := by rw [hheld, List.find?_cons_of_pos (by simp)]
  unfold State.issueDemand
  rw [hfind]
  dsimp only
  rw [putData_sends _ _ hflr hlink]

/-! ### Parity of the data buffer (R440) -/

/-- The error recorded. -/
def State.parityTold (s : State) (u : DmvUser) : State := s.report 0x03 0xA4 (some (s.fnOfUser u)) none 0 0 0

/-- The slot after one error, which waits for its bytes where they come from the host. -/
def Slot.readAgain (x : Slot) (again : List Byte) : Slot :=
  { x with reread := true, waiting := x.srcSpace == 0, bytes := if x.srcSpace == 1 then again else x.bytes }

theorem reread_slots (s : State) (x : Slot) :
    (s.reread x).dmv.slots = s.dmv.slots.map fun y => if y == x then y.readAgain (s.memRead y.src y.bytes.length) else y := rfl

theorem bufParityOp_filled {u : DmvUser} {x : Slot} {xs : List Slot} {s : State} (hslots : s.slotsOf u = x :: xs) (hfull : x.waiting = false) :
    bufParityOp u s = if x.reread then
        ((s.parityTold u).modDmv fun d => { d with lostSlots := d.lostSlots + 1, slots := d.slots.erase x }).failTransfer u x.desc
      else (s.parityTold u).reread x := by
  have hfirst : (s.slotsOf u).filter (fun x => !x.waiting || isDemand u) = x :: xs.filter (fun x => !x.waiting || isDemand u) := by
    rw [hslots, List.filter_cons_of_pos (by simp [hfull])]
  unfold bufParityOp
  rw [hfirst]
  rfl

/-- Settles O47: `unitReadOp_running` and `unitWriteOp_admitted` for accesses, `violate_violates` for those refused, `bufParityOp_filled`. -/
theorem demandRequests : Obligations.DemandRequests := by
  refine ⟨?read, ?write, ?merge, ?refusedWrite, ?refusedRead, ?hold, ?once, ?twice⟩
  case read =>
    intro h space a n i u s hlive hhalf hunit hlow hhigh hspace hi hwin hadmits hfree
    rw [exec_demandRead a hlive hhalf hlow hhigh hspace, unitReadOp_running hunit, if_pos (readAdmitted_of_window hi hwin hadmits), demandReadOp,
      if_pos hfree]
    rfl
  case write =>
    intro h w a bs u s hlive hhalf hunit hw hsome hhigh hspace hadmits hbar hnone
    rw [exec_demandWrite a hlive hhalf hw hsome hhigh, unitWriteOp_admitted hunit hspace hadmits hbar, demandWriteOp_new a bs hnone]
  case merge =>
    intro h w b a m held bs at_ u s hlive hhalf hunit hw hsome hhigh hspace hadmits hbar hheld hnext hm hblock
    have hmax : s.requestMax 0 = m := (requestMax_host s).trans hm.symm
    rw [exec_demandWrite a hlive hhalf hw hsome hhigh, unitWriteOp_admitted hunit hspace hadmits hbar,
      demandWriteOp_merges bs hheld hnext (by rw [hmax]; exact hblock)]
  case refusedWrite =>
    intro h w a bs u s hlive hhalf hunit hw hsome hhigh hno
    have hrun := exec_demandWrite a hlive hhalf hw hsome hhigh
    rw [unitWriteOp_refused hunit hno] at hrun
    obtain ⟨hcount, hhalves, hsessions, hframe⟩ := violate_violates s u h u.done
    exact ⟨_, hrun, hcount, hhalves, hsessions, hframe⟩
  case refusedRead =>
    intro h space a n u s hlive hhalf hunit hlow hhigh hspace hno hend
    have hrun := exec_demandRead a hlive hhalf hlow hhigh hspace
    rw [unitReadOp_running hunit, readAdmitted_none hno, if_neg Bool.false_ne_true, hend, if_neg Bool.false_ne_true] at hrun
    obtain ⟨hcount, hhalves, hsessions, hframe⟩ := violate_violates s u h u.done
    exact ⟨_, hrun, hcount, hhalves, hsessions, hframe⟩
  case hold =>
    intro h w a at_ bs rest s hlive hheld hflr hd3 hlink
    have hrun := exec_demandWriteHold h hlive
    rw [issueDemand_first hheld hflr hlink] at hrun
    refine ⟨_, hrun, ?_, rfl, ⟨_, rfl⟩, rfl⟩
    have herase : s.dmv.demand.erase (h, w, a, bs, at_) = rest := by rw [hheld, List.erase_cons_head]
    exact herase
  case once =>
    intro u x xs s hlive hslots hfull hfirst
    have hrun := exec_dmvBufferParity u hlive
    rw [bufParityOp_filled hslots hfull, if_neg (by simp [hfirst])] at hrun
    have huser : x.user = u := slotsOf_user hslots
    have hmem : x ∈ s.dmv.slots := (List.mem_filter.1 (hslots ▸ List.mem_cons_self : x ∈ s.slotsOf u)).1
    refine ⟨_, hrun, ⟨_, rfl, rfl, rfl, rfl⟩, rfl, ⟨x.readAgain ((s.parityTold u).memRead x.src x.bytes.length), ?_, rfl, huser, rfl⟩, rfl⟩
    rw [reread_slots]
    exact List.mem_map.2 ⟨x, hmem, if_pos (beq_self_eq_true x)⟩
  case twice =>
    intro g x xs s hlive hslots hfull hsecond
    have hrun := exec_dmvBufferParity (.channel g) hlive
    rw [bufParityOp_filled hslots hfull, if_pos hsecond] at hrun
    obtain ⟨hdescs, -, hlost, hframe⟩ := failTransfer_fails
      ((s.parityTold (.channel g)).modDmv fun d => { d with lostSlots := d.lostSlots + 1, slots := d.slots.erase x }) g x.desc
    refine ⟨_, hrun, records_congr (t := s.parityTold (.channel g)) ?_ ⟨_, rfl, rfl, rfl, rfl⟩, hlost, hdescs, ?_⟩
    · rw [hframe]
      rfl
    · rw [hframe]
      rfl

end Sys2Proof.Machine
end

section
/-! PROOFS. The Buffer Pool Manager's state: pools and register paths (R351 to R355). -/
namespace Sys2Proof.Machine

/-! ### Pools -/

theorem setPool_pool (s : State) (k m : Nat) (v : Option Pool) : (s.setPool k v).pool? m = if k = m then v else s.pool? m := tblGet_tblSet ..

theorem modPool_pool (s : State) (k m : Nat) (f : Pool → Pool) : (s.modPool k f).pool? m = if k = m then (s.pool? k).map f else s.pool? m :=
  setPool_pool ..

theorem modPool_pool_same {s : State} {k : Nat} {p : Pool} (f : Pool → Pool) (h : s.pool? k = some p) : (s.modPool k f).pool? k = some (f p) := by
  rw [modPool_pool, if_pos rfl, h, Option.map_some]

theorem modPool_pool_other (s : State) {k m : Nat} (f : Pool → Pool) (h : m ≠ k) : (s.modPool k f).pool? m = s.pool? m := by
  rw [modPool_pool, if_neg h.symm]

theorem setPool_path (s : State) (k fn : Nat) (v : Option Pool) : (s.setPool k v).path fn = s.path fn := rfl

theorem modPool_path (s : State) (k fn : Nat) (f : Pool → Pool) : (s.modPool k f).path fn = s.path fn := rfl

theorem modPath_pool (s : State) (fn k : Nat) (f : RegPath → RegPath) : (s.modPath fn f).pool? k = s.pool? k := rfl

/-- A change of pools that a second time changes nothing, made at several of them. -/
theorem forEachPool_pool {f : Pool → Pool} (hf : ∀ p, f (f p) = f p) (ks : List Nat) (s : State) (k : Nat) :
    (forEach ks (fun p t => t.modPool p f) s).pool? k = if k ∈ ks then (s.pool? k).map f else s.pool? k := by
  induction ks generalizing s with
  | nil => rfl
  | cons j ks ih =>
    rw [forEach, ih]
    by_cases hj : k = j
    · subst hj
      rw [modPool_pool, if_pos rfl, if_pos List.mem_cons_self]
      cases s.pool? k <;> simp [hf]
    · rw [modPool_pool_other _ _ hj]
      simp only [List.mem_cons, hj, false_or]

/-- Every pool changed, each once. -/
theorem allPools_pool {f : Pool → Pool} (hf : ∀ p, f (f p) = f p) (s : State) (k : Nat) :
    (forEach (tblKeys s.bpm.pools) (fun p t => t.modPool p f) s).pool? k = (s.pool? k).map f := by
  rw [forEachPool_pool hf]
  split
  · rfl
  next h =>
    have hnone : s.pool? k = none := Decidable.not_not.1 fun hsome => h (mem_tblKeys_of_ne hsome)
    rw [hnone, Option.map_none]

/-- Only pools have changed. -/
structure OnlyPools (s t : State) : Prop where
  paths : t.bpm.paths = s.bpm.paths
  counts : t.bpm.empty = s.bpm.empty ∧ t.bpm.usage = s.bpm.usage
  frame : t = { s with bpm := t.bpm }

theorem onlyPools_trans {s t u : State} (h : OnlyPools s t) (l : OnlyPools t u) : OnlyPools s u :=
  ⟨l.paths.trans h.paths, ⟨l.counts.1.trans h.counts.1, l.counts.2.trans h.counts.2⟩, by rw [l.frame, h.frame]⟩

theorem modPool_only (s : State) (k : Nat) (f : Pool → Pool) : OnlyPools s (s.modPool k f) := ⟨rfl, ⟨rfl, rfl⟩, rfl⟩

theorem forEachPool_only (f : Pool → Pool) (ks : List Nat) (s : State) : OnlyPools s (forEach ks (fun p t => t.modPool p f) s) :=
  forEach_induct (P := OnlyPools s) ks (fun k _ t h => onlyPools_trans h (modPool_only t k f)) s ⟨rfl, ⟨rfl, rfl⟩, rfl⟩

/-! ### Requests that are given up (R355) -/

/-- A pool without the requests of one kind that a function's register path made. -/
def Pool.unpathed (p : Pool) (fn : Nat) (isFree : Bool) : Pool := { p with reqs := p.reqs.filter fun r => !(r.port == fn && r.isFree == isFree) }

theorem unpathed_twice (fn : Nat) (isFree : Bool) (p : Pool) : (p.unpathed fn isFree).unpathed fn isFree = p.unpathed fn isFree := by
  simp only [Pool.unpathed, List.filter_filter, Bool.and_self]

theorem dropPath_pool (s : State) (fn : Nat) (isFree : Bool) (k : Nat) :
    (s.dropPath fn isFree).pool? k = (s.pool? k).map fun p => p.unpathed fn isFree := allPools_pool (unpathed_twice fn isFree) s k

theorem dropPath_only (s : State) (fn : Nat) (isFree : Bool) : OnlyPools s (s.dropPath fn isFree) := forEachPool_only ..

theorem ownPool_pool {s : State} {fn k : Nat} {p : Pool} (h : s.ownPool fn k = some p) : s.pool? k = some p ∧ p.fn = fn := by
  unfold State.ownPool at h
  split at h
  next q hq =>
    split at h
    next hfn =>
      cases h
      exact ⟨hq, by simpa using hfn⟩
    next => cases h
  next => cases h

/-! ### Requests (R352, R354) -/

theorem exec_bpmAllocReq {fn : Nat} (v : Word) {s : State} (hlive : s.fnLive fn = true) : exec (.bpmAllocReq fn v) s = .next (allocReqOp fn v s) := by
  have harm : exec (.bpmAllocReq fn v) s = execBpmAllocReq fn v s := rfl
  rw [harm, execBpmAllocReq, onlyIf, if_pos hlive]

theorem exec_bpmFree {fn : Nat} (v : Word) {s : State} (hlive : s.fnLive fn = true) : exec (.bpmFree fn v) s = .next (freeOp fn v s) := by
  have harm : exec (.bpmFree fn v) s = execBpmFree fn v s := rfl
  rw [harm, execBpmFree, onlyIf, if_pos hlive]

/-- The function's register path ready for a new allocation. -/
def State.allocCleared (s : State) (fn : Nat) : State := (s.dropPath fn false).modPath fn fun p => { p with allocLo := 0, allocHi := 0 }

theorem poolField (v : Word) : fld v.toNat 0 8 = v.toNat % 256 := fld_zero v.toNat 8

theorem allocReqOp_asks {fn : Nat} {v : Word} {p : Pool} {s : State} (hown : s.ownPool fn (v.toNat % 256) = some p) :
    allocReqOp fn v s = (s.allocCleared fn).modPool (v.toNat % 256) fun q =>
      { q with reqs := q.reqs ++ [{ port := fn, isFree := false, owner := fld v.toNat 8 10, addr := 0 }] } := by
  unfold allocReqOp
  dsimp only
  rw [poolField, hown]
  rfl

theorem allocReqOp_rejects {fn : Nat} {v : Word} {s : State} (hown : s.ownPool fn (v.toNat % 256) = none) :
    allocReqOp fn v s = (s.allocCleared fn).allocDone fn 0 5 := by
  unfold allocReqOp
  dsimp only
  rw [poolField, hown]
  rfl

theorem allocDone_path (s : State) (fn a flags : Nat) :
    ((s.allocDone fn a flags).path fn).allocLo = BitVec.ofNat 32 (a % 2 ^ 32 / 4096 * 4096 + flags)
      ∧ ((s.allocDone fn a flags).path fn).allocHi = BitVec.ofNat 32 (a / 2 ^ 32 % 65536) := by
  rw [State.allocDone, modPath_path]
  exact ⟨rfl, rfl⟩

/-- The function's register path with the address of a free. -/
def State.freePresented (s : State) (fn : Nat) : State :=
  ((s.dropPath fn true).dropHeld fn (freeOff fn)).modPath fn fun p =>
    { p with freeLo := (s.heldLow fn (freeOff fn)).getD (s.path fn).freeLo, freeStatus := 0 }

/-- The address that a write of BPM_FREE high makes. -/
def State.freeAddr (s : State) (fn : Nat) (v : Word) : Nat := v.toNat % 65536 * 2 ^ 32 + ((s.heldLow fn (freeOff fn)).getD (s.path fn).freeLo).toNat

theorem addressField (v : Word) : fld v.toNat 0 16 = v.toNat % 65536 := fld_zero v.toNat 16

theorem freeOp_refuses {fn : Nat} {v : Word} {s : State} (hnone : s.poolAt fn (s.freeAddr fn v) = none) :
    freeOp fn v s = ((s.freePresented fn).poolEvent fn 3 256).freeDone fn 3 := by
  unfold State.freeAddr at hnone
  unfold freeOp
  dsimp only
  rw [addressField, hnone]
  rfl

theorem freeOp_asks {fn k : Nat} {v : Word} {s : State} (hat : s.poolAt fn (s.freeAddr fn v) = some k) :
    freeOp fn v s = (s.freePresented fn).modPool k fun q =>
      { q with reqs := q.reqs ++ [{ port := fn, isFree := true, owner := fld v.toNat 16 10, addr := s.freeAddr fn v }] } := by
  unfold State.freeAddr at *
  unfold freeOp
  dsimp only
  rw [addressField, hat]
  rfl

/-- What the refusal of a free touches. -/
structure PoolTold (s t : State) : Prop where
  pools : t.bpm = { s.bpm with usage := sat32 s.bpm.usage 1 }
  records : Records s t 0x23 3
  heldV : t.heldV = s.heldV
  frame : t = { s with bpm := t.bpm, clusters := t.clusters, evq := t.evq, fcl := t.fcl, funcs := t.funcs, hlu := t.hlu, imb := t.imb,
                       mem := t.mem, out := t.out }

theorem poolEvent_told (s : State) (fn code arg : Nat) : PoolTold s (s.poolEvent fn code arg) := by
  have hnoted := event_noted s fn 0x08 none code 0 0 0 arg
  unfold State.poolEvent
  generalize s.event fn 0x08 none code 0 0 0 arg = t at *
  unfold OnlyNoted at hnoted
  rw [hnoted]
  exact ⟨rfl, ⟨_, rfl, rfl, rfl, rfl⟩, rfl, rfl⟩

theorem freeDone_status (s : State) (fn code : Nat) : ((s.freeDone fn code).path fn).freeStatus = BitVec.ofNat 32 (2 ^ 31 + code) := by
  rw [State.freeDone, modPath_path]

end Sys2Proof.Machine
end

section
/-! PROOFS. How pools serve their requests (R352 to R354), and the statement about pool service. -/
namespace Sys2Proof.Machine

/-! ### Arbitration (R352) -/

theorem exec_poolArbitration {k : Nat} {s : State} (hlive : s.live = true) (hk : k < 256) :
    exec (.poolArbitration k) s = .next (arbitrateOp k s) := by
  have harm : exec (.poolArbitration k) s = execPoolArbitration k s := rfl
  rw [harm, execPoolArbitration, onlyIf, if_pos (by simp [hlive, hk])]

section
variable {k : Nat} {p : Pool} {r : PoolReq} {s : State} (hpool : s.pool? k = some p) (hone : p.reqs = [r])
include hpool hone

theorem arbitrateOp_alloc (hkind : r.isFree = false) : arbitrateOp k s = s.serveAlloc k p r := by
  unfold arbitrateOp
  rw [hpool]
  dsimp only
  rw [hone, List.filter_cons_of_neg (by simp [hkind])]
  rfl

theorem arbitrateOp_free (hkind : r.isFree = true) : arbitrateOp k s = s.serveFree k p r := by
  unfold arbitrateOp
  rw [hpool]
  dsimp only
  rw [hone, List.filter_cons_of_pos hkind]
  rfl

end

/-! ### The owner table (R351) -/

/-- Pools have changed, and device memory with its copies. -/
structure OnlyPooled (s t : State) : Prop where
  paths : t.bpm.paths = s.bpm.paths
  frame : t = { s with bpm := t.bpm, clusters := t.clusters, mem := t.mem }

theorem onlyPooled_trans {s t u : State} (h : OnlyPooled s t) (l : OnlyPooled t u) : OnlyPooled s u :=
  ⟨l.paths.trans h.paths, by rw [l.frame, h.frame]⟩

theorem onlyPooled_of_pools {s t : State} (h : OnlyPools s t) : OnlyPooled s t := ⟨h.paths, by rw [h.frame]⟩

theorem setPool_pooled (s : State) (k : Nat) (v : Option Pool) : OnlyPooled s (s.setPool k v) := ⟨rfl, rfl⟩

theorem modPool_pooled (s : State) (k : Nat) (f : Pool → Pool) : OnlyPooled s (s.modPool k f) := ⟨rfl, rfl⟩

/-- The pool with the owner of one buffer. -/
def Pool.owned (p : Pool) (i v : Nat) : Pool := { p with owners := tblSet 0 p.owners i v }

theorem owned_at (p : Pool) (i v : Nat) : tblGet 0 (p.owned i v).owners i = v := tblGet_tblSet_same 0 p.owners i v

theorem owned_other (p : Pool) {i j : Nat} (v : Nat) (h : j ≠ i) : tblGet 0 (p.owned i v).owners j = tblGet 0 p.owners j :=
  (tblGet_tblSet 0 p.owners i j v).trans (if_neg h.symm)

theorem setOwner_pool (s : State) (k i v m : Nat) :
    (s.setOwner k i v).pool? m = if k = m then (s.pool? k).map fun p => p.owned i v else s.pool? m := by
  rw [← modPool_pool]
  unfold State.setOwner
  dsimp only
  split <;> rfl

theorem setOwner_pooled (s : State) (k i v : Nat) : OnlyPooled s (s.setOwner k i v) := by
  unfold State.setOwner
  dsimp only
  split <;> exact ⟨rfl, rfl⟩

/-! ### Allocations (R352, R353) -/

theorem ready_filled {p : Pool} (n : Nat) (h : p.cache ≠ []) : p.ready (n + 1) = p := if_neg (by simp [h])

theorem ready_drained {p : Pool} (n : Nat) (h : p.ring = []) : p.ready (n + 1) = p := if_neg (by simp [h])

/-- The pool with the request served, and a cache of `cache`. -/
def Pool.allocServed (p : Pool) (r : PoolReq) (cache : List Nat) : Pool :=
  { p with cache := cache, reqs := p.reqs.erase r, rotate := (r.port + 1) % 320 }

/-- The allocation of the buffer placed last in the cache, before it is told. -/
def State.bufferTaken (s : State) (k : Nat) (p : Pool) (r : PoolReq) (i : Nat) (rest : List Nat) : State :=
  (s.setPool k (some (p.allocServed r rest))).setOwner k i (r.owner + 1)

theorem serveAlloc_takes {k i : Nat} {rest : List Nat} {p : Pool} {r : PoolReq} {s : State} (hport : r.port < 64) (hcache : p.cache = i :: rest) :
    s.serveAlloc k p r = (s.bufferTaken k p r i rest).allocDone r.port (p.bufAddr i) 1 := by
  have hready : p.ready (p.ring.length + 1) = p := ready_filled _ (by simp [hcache])
  unfold State.serveAlloc
  dsimp only
  rw [hready, hcache]
  dsimp only
  rw [State.giveBuffer, if_pos hport]
  rfl

theorem serveAlloc_empty {k : Nat} {p : Pool} {r : PoolReq} {s : State} (hport : r.port < 64) (hcache : p.cache = []) (hring : p.ring = []) :
    s.serveAlloc k p r
      = ((s.setPool k (some { p with reqs := p.reqs.erase r, rotate := (r.port + 1) % 320 })).modBpm fun b => { b with empty := sat32 b.empty 1 }).allocDone
          r.port 0 3 := by
  have hready : p.ready (p.ring.length + 1) = p := ready_drained _ hring
  unfold State.serveAlloc
  dsimp only
  rw [hready, hcache]
  dsimp only
  rw [State.sayEmpty, if_pos hport]

theorem bufferTaken_pool (s : State) (k : Nat) (p : Pool) (r : PoolReq) (i : Nat) (rest : List Nat) :
    (s.bufferTaken k p r i rest).pool? k = some ((p.allocServed r rest).owned i (r.owner + 1)) := by
  rw [State.bufferTaken, setOwner_pool, if_pos rfl, setPool_pool, if_pos rfl, Option.map_some]

theorem bufferTaken_other (s : State) {k m : Nat} (p : Pool) (r : PoolReq) (i : Nat) (rest : List Nat) (h : m ≠ k) :
    (s.bufferTaken k p r i rest).pool? m = s.pool? m := by
  rw [State.bufferTaken, setOwner_pool, if_neg h.symm, setPool_pool, if_neg h.symm]

theorem bufferTaken_pooled (s : State) (k : Nat) (p : Pool) (r : PoolReq) (i : Nat) (rest : List Nat) : OnlyPooled s (s.bufferTaken k p r i rest) :=
  onlyPooled_trans (setPool_pooled ..) (setOwner_pooled ..)

theorem modPath_pooled_frame {s t : State} (fn : Nat) (f : RegPath → RegPath) (h : t = { s with bpm := t.bpm, clusters := t.clusters, mem := t.mem }) :
    t.modPath fn f = { s with bpm := (t.modPath fn f).bpm, clusters := (t.modPath fn f).clusters, mem := (t.modPath fn f).mem } := by
  rw [h]
  rfl

/-! ### Frees (R354) -/

/-- The pool without the request. -/
def Pool.unasked (p : Pool) (r : PoolReq) : Pool := { p with reqs := p.reqs.erase r }

/-- The pool with an index placed in its cache. -/
def Pool.placed (p : Pool) (i : Nat) : Pool := if p.barred.contains i then p else { p with cache := i :: p.cache }

/-- Where a free's address lies in its pool. -/
def Pool.indexOf (p : Pool) (r : PoolReq) : Nat := (r.addr - p.base) / 2 ^ p.bufLog

/-- The buffer freed, before that is told. -/
def State.bufferFreed (s : State) (k : Nat) (p : Pool) (r : PoolReq) : State :=
  ((s.modPool k fun q => q.unasked r).setOwner k (p.indexOf r) 0).modPool k fun q => q.placed (p.indexOf r)

theorem serveFree_frees {k : Nat} {p : Pool} {r : PoolReq} {s : State} (hcode : p.freeCode r = 0) (hloose : p.indexOf r ∉ p.loose)
    (hroom : p.cache.length < 64) : s.serveFree k p r = (s.bufferFreed k p r).freeDone r.port 0 := by
  have hkept : ¬ p.loose.contains ((r.addr - p.base) / 2 ^ p.bufLog) = true := by
    rw [List.contains_iff_mem]
    exact hloose
  unfold State.serveFree State.takeFree
  dsimp only
  rw [hcode, if_pos (by rfl), if_neg hkept, if_neg (by omega)]
  rfl

theorem serveFree_rejects {k : Nat} {p : Pool} {r : PoolReq} {s : State} (hcode : p.freeCode r ≠ 0) :
    s.serveFree k p r = ((s.modPool k fun q => q.unasked r).poolEvent r.port (p.freeCode r) k).freeDone r.port (p.freeCode r) := by
  unfold State.serveFree
  dsimp only
  rw [if_neg (by simpa using hcode)]
  rfl

theorem bufferFreed_pool {k : Nat} {p : Pool} (r : PoolReq) {s : State} (hpool : s.pool? k = some p) :
    (s.bufferFreed k p r).pool? k = some (((p.unasked r).owned (p.indexOf r) 0).placed (p.indexOf r)) := by
  rw [State.bufferFreed, modPool_pool, if_pos rfl, setOwner_pool, if_pos rfl, modPool_pool_same _ hpool, Option.map_some, Option.map_some]

theorem bufferFreed_other (s : State) {k m : Nat} (p : Pool) (r : PoolReq) (h : m ≠ k) : (s.bufferFreed k p r).pool? m = s.pool? m := by
  rw [State.bufferFreed, modPool_pool_other _ _ h, setOwner_pool, if_neg h.symm, modPool_pool_other _ _ h]

theorem bufferFreed_pooled (s : State) (k : Nat) (p : Pool) (r : PoolReq) : OnlyPooled s (s.bufferFreed k p r) :=
  onlyPooled_trans (onlyPooled_trans (modPool_pooled ..) (setOwner_pooled ..)) (modPool_pooled ..)

/-! ### Cache and ring (R353) -/

theorem exec_poolCacheRefill (k : Nat) {s : State} (hlive : s.live = true) : exec (.poolCacheRefill k) s = .next (poolRefillOp k s) := by
  have harm : exec (.poolCacheRefill k) s = execPoolCacheRefill k s := rfl
  rw [harm, execPoolCacheRefill, onlyIf, if_pos hlive]

theorem exec_poolCacheSpill (k : Nat) {s : State} (hlive : s.live = true) : exec (.poolCacheSpill k) s = .next (poolSpillOp k s) := by
  have harm : exec (.poolCacheSpill k) s = execPoolCacheSpill k s := rfl
  rw [harm, execPoolCacheSpill, onlyIf, if_pos hlive]

theorem refill_cache (p : Pool) (i : Nat) : i ∈ p.refill.cache ↔ i ∈ p.cache ∨ (i ∈ p.ring.take 16 ∧ i ∉ p.barred) := by
  have hcache : p.refill.cache = ((p.ring.take 16).reverse.filter fun i => !p.barred.contains i) ++ p.cache := rfl
  rw [hcache, List.mem_append, List.mem_filter, List.mem_reverse, or_comm, Bool.not_eq_true', ← Bool.not_eq_true, List.contains_iff_mem]

/-- What a spill moves is the end of the cache, to the end of the ring. -/
structure Spills (p q : Pool) : Prop where
  cache : q.cache.length = p.cache.length - 16
  ring : q.ring.length = p.ring.length + 16
  all : ∀ i, i ∈ q.cache ∨ i ∈ q.ring ↔ i ∈ p.cache ∨ i ∈ p.ring

theorem spill_spills {p : Pool} (h : 48 < p.cache.length) : Spills p p.spill := by
  have hcache : p.spill.cache = p.cache.take (p.cache.length - 16) := rfl
  have hring : p.spill.ring = p.ring ++ (p.cache.drop (p.cache.length - 16)).reverse := rfl
  refine ⟨?_, ?_, fun i => ?_⟩
  · rw [hcache, List.length_take]
    omega
  · rw [hring, List.length_append, List.length_reverse, List.length_drop]
    omega
  · have hwhole : i ∈ p.cache ↔ i ∈ p.cache.take (p.cache.length - 16) ∨ i ∈ p.cache.drop (p.cache.length - 16) := by
      rw [← List.mem_append, List.take_append_drop]
    rw [hcache, hring, List.mem_append, List.mem_reverse, hwhole]
    tauto

theorem poolSpillOp_spills {k : Nat} {p : Pool} {s : State} (hpool : s.pool? k = some p) (hhigh : 48 < p.cache.length) :
    poolSpillOp k s = (s.setPool k (some p.spill)).writeRing k 16 := by
  unfold poolSpillOp
  rw [hpool]
  exact if_pos hhigh

theorem writeRing_writes (s : State) (k n : Nat) :
    (s.writeRing k n).bpm = s.bpm ∧ s.writeRing k n = { s with clusters := (s.writeRing k n).clusters, mem := (s.writeRing k n).mem } := by
  unfold State.writeRing
  split
  · exact ⟨rfl, rfl⟩
  next p hp =>
    refine forEach_induct (P := fun t => t.bpm = s.bpm ∧ t = { s with clusters := t.clusters, mem := t.mem }) _ (fun x _ t h => ?_) s ⟨rfl, rfl⟩
    obtain ⟨hbpm, hframe⟩ := h
    exact ⟨hbpm, by rw [hframe]; rfl⟩

/-! ### Channels that wait for a buffer (R352) -/

/-- The channel's backoff over at its instant. -/
def State.backoffEnded (s : State) (g : Nat) : State := (s.reach ((s.chan g).askAt - 1)).modChan g fun c => { c with askAt := 0 }

theorem exec_allocBackoff {g : Nat} {s : State} (hlive : s.live = true) (hask : (s.chan g).askAt ≠ 0) :
    exec (.allocBackoff g) s = .next ((s.backoffEnded g).askPool g) := by
  have harm : exec (.allocBackoff g) s = execAllocBackoff g s := rfl
  rw [harm, execAllocBackoff, onlyIf, if_pos hlive, allocBackoffOp]
  exact congrArg _ (if_neg (by simpa using hask))

/-- The request that a channel makes of a pool. -/
def Pool.askedBy (p : Pool) (g : Nat) (d : Desc) : Pool := { p with reqs := p.reqs ++ [{ port := 64 + g, isFree := false, owner := d.owner, addr := 0 }] }

theorem askPool_asks {g : Nat} {d : Desc} {p : Pool} {s : State} (hfirst : ((s.chan g).inprog.find? fun e => e.started && e.alloc) = some d)
    (hown : s.ownPool (s.fnOfChan g) d.pool = some p) (hasking : (s.chan g).asking = false) (hrested : (s.chan g).askAt = 0) :
    s.askPool g = (s.modChan g fun c => { c with asking := true }).modPool d.pool fun q => q.askedBy g d := by
  unfold State.askPool
  rw [hfirst]
  dsimp only
  rw [hown]
  dsimp only
  rw [hasking, hrested]
  rfl

/-- Descriptors of a channel that were there before, with what failed of them as it was. -/
def SameFailures (c d : Chan) : Prop :=
  ∀ e ∈ d.inprog, ∃ o ∈ c.inprog, e.slot = o.slot ∧ e.failed = o.failed ∧ e.status = o.status ∧ e.cause = o.cause

theorem sameFailures_refl (c : Chan) : SameFailures c c := fun e he => ⟨e, he, rfl, rfl, rfl, rfl⟩

theorem sameFailures_trans {c d e : Chan} (h : SameFailures c d) (l : SameFailures d e) : SameFailures c e := by
  intro x hx
  obtain ⟨y, hy, hslot, hfailed, hstatus, hcause⟩ := l x hx
  obtain ⟨z, hz, kslot, kfailed, kstatus, kcause⟩ := h y hy
  exact ⟨z, hz, hslot.trans kslot, hfailed.trans kfailed, hstatus.trans kstatus, hcause.trans kcause⟩

/-- The channel whose descriptor of ring slot `n` is no longer started. -/
def Chan.unstarted (c : Chan) (n : Nat) : Chan := { c with inprog := c.inprog.map fun e => if e.slot == n then { e with started := false } else e }

theorem unstarted_failures (c : Chan) (n : Nat) : SameFailures c (c.unstarted n) := by
  intro e he
  obtain ⟨o, ho, rfl⟩ := List.mem_map.1 he
  refine ⟨o, ho, ?_⟩
  split <;> exact ⟨rfl, rfl, rfl, rfl⟩

theorem dropWaiting_failures (c : Chan) : SameFailures c c.dropWaiting := by
  intro e he
  rw [dropWaiting_inprog] at he
  exact ⟨e, (List.mem_filter.1 he).1, rfl, rfl, rfl, rfl⟩

theorem dropWaiting_waited (c : Chan) : c.dropWaiting.waited = c.waited := by
  unfold Chan.dropWaiting
  split <;> rfl

/-- What a channel's turn to its pool touches. -/
structure TurnsToPool (g : Nat) (s t : State) : Prop where
  failures : SameFailures (s.chan g) (t.chan g)
  waited : (t.chan g).waited = (s.chan g).waited
  others : ∀ k, k ≠ g → t.chan k = s.chan k
  frame : t = { s with bpm := t.bpm, dmv := t.dmv, fcl := t.fcl, funcs := t.funcs, hlu := t.hlu, imb := t.imb, out := t.out }

/-- The channel whose pool is not its function's, before it fails. -/
def State.poolMissed (s : State) (g n : Nat) : State := (s.modChan g fun c => c.unstarted n).modChan g Chan.dropWaiting

theorem poolMissed_turns (s : State) (g n : Nat) : TurnsToPool g s ((s.poolMissed g n).chanFail g 5) := by
  obtain ⟨hothers, hframe⟩ : OnlyChan g s (s.poolMissed g n) := onlyChan_trans (modChan_only ..) (modChan_only ..)
  have hchan : (s.poolMissed g n).chan g = ((s.chan g).unstarted n).dropWaiting := by
    rw [State.poolMissed, modChan_chan, modChan_chan]
  obtain ⟨kchan, kothers, -, kframe⟩ := chanFail_fails (s.poolMissed g n) g 5
  generalize s.poolMissed g n = u at *
  generalize u.chanFail g 5 = t at *
  refine ⟨?_, ?_, fun k hk => (kothers k hk).trans (hothers k hk), by rw [kframe, hframe]⟩
  · rw [kchan, hchan]
    exact sameFailures_trans (unstarted_failures (s.chan g) n) (dropWaiting_failures _)
  · rw [kchan, hchan]
    exact dropWaiting_waited _

theorem askPool_turns (s : State) (g : Nat) : TurnsToPool g s (s.askPool g) := by
  unfold State.askPool
  split
  · exact ⟨sameFailures_refl _, rfl, fun _ _ => rfl, rfl⟩
  next d hd =>
    split
    · exact poolMissed_turns s g d.slot
    next p hp =>
      split
      · exact ⟨sameFailures_refl _, rfl, fun _ _ => rfl, rfl⟩
      · have hchan := modChan_chan s g fun c => { c with asking := true }
        obtain ⟨hothers, -⟩ := modChan_only s g fun c => { c with asking := true }
        have hkeep : ∀ k f, ((s.modChan g fun c => { c with asking := true }).modPool d.pool f).chan k
            = (s.modChan g fun c => { c with asking := true }).chan k := fun _ _ => rfl
        refine ⟨?_, ?_, fun k hk => (hkeep ..).trans (hothers k hk), rfl⟩
        · rw [hkeep, hchan]
          exact sameFailures_refl _
        · rw [hkeep, hchan]

/-- The channel whose descriptor of ring slot `n` has failed for want of a buffer. -/
def Chan.allocFailed (c : Chan) (n : Nat) : Chan :=
  { c with asking := false, askAt := 0, waited := 0, backoff := 8,
           inprog := c.inprog.map fun d => if d.slot == n then { d with alloc := false, failed := true, status := 0x41, cause := 0x60 } else d }

theorem allocFailed_inprog {c : Chan} {n : Nat} {d : Desc} (h : d ∈ (c.allocFailed n).inprog) (hslot : d.slot = n) :
    d.failed = true ∧ d.status = 0x41 ∧ d.cause = 0x60 := by
  obtain ⟨e, -, rfl⟩ := List.mem_map.1 h
  split at hslot
  next he => exact if_pos he ▸ ⟨rfl, rfl, rfl⟩
  next he => exact absurd hslot (by simpa using he)

/-- The channel's wait over at its instant. -/
def State.waitEnded (s : State) (g n : Nat) : State :=
  ((s.reach ((s.chan g).waited - 1 + (s.chan g).allocw * 1000)).unask g).modChan g fun c => c.allocFailed n

theorem exec_allocWaitExpiry {g : Nat} {d : Desc} {s : State} (hlive : s.live = true) (hwait : (s.chan g).waited ≠ 0)
    (hfirst : ((s.chan g).inprog.find? fun e => e.started && e.alloc) = some d) :
    exec (.allocWaitExpiry g) s = .next ((s.waitEnded g d.slot).askPool g) := by
  have harm : exec (.allocWaitExpiry g) s = execAllocWaitExpiry g s := rfl
  rw [harm, execAllocWaitExpiry, onlyIf, if_pos hlive]
  unfold allocWaitOp
  dsimp only
  rw [if_neg (by simpa using hwait), hfirst]
  rfl

theorem unask_only (s : State) (g : Nat) : OnlyPools s (s.unask g) := forEachPool_only ..

/-- What the end of a channel's wait changes before the channel turns to its pool again. -/
structure WaitEnds (g n : Nat) (s t : State) : Prop where
  chan : t.chan g = (s.chan g).allocFailed n
  others : ∀ k, k ≠ g → t.chan k = s.chan k
  time : t.time = max s.time ((s.chan g).waited - 1 + (s.chan g).allocw * 1000)
  frame : t = { s with aon := t.aon, bpm := t.bpm, dmv := t.dmv, time := t.time }

theorem waitEnded_ends (s : State) (g n : Nat) : WaitEnds g n s (s.waitEnded g n) := by
  have hreach : s.reach ((s.chan g).waited - 1 + (s.chan g).allocw * 1000)
      = { s with time := max s.time ((s.chan g).waited - 1 + (s.chan g).allocw * 1000),
                 aon := s.aon + ((s.chan g).waited - 1 + (s.chan g).allocw * 1000 - s.time) } := rfl
  obtain ⟨-, -, hframe⟩ := unask_only (s.reach ((s.chan g).waited - 1 + (s.chan g).allocw * 1000)) g
  unfold State.waitEnded
  generalize (s.reach ((s.chan g).waited - 1 + (s.chan g).allocw * 1000)).unask g = u at *
  have hkeep : ∀ k, u.chan k = s.chan k := fun k => by
    rw [hframe]
    rfl
  obtain ⟨kothers, kframe⟩ := modChan_only u g fun c => c.allocFailed n
  refine ⟨?_, fun k hk => (kothers k hk).trans (hkeep k), ?_, ?_⟩
  · rw [modChan_chan, hkeep]
  · rw [kframe, hframe]
    rfl
  · rw [kframe, hframe]
    rfl

/-! ### The register path of a free (R354) -/

theorem freePresented_frame (s : State) (fn : Nat) :
    s.freePresented fn = { s with bpm := (s.freePresented fn).bpm, heldV := (s.freePresented fn).heldV, heldW := (s.freePresented fn).heldW } := by
  have hframe := (dropPath_only s fn true).frame
  unfold State.freePresented
  rw [hframe]
  rfl

theorem freePresented_heldV (s : State) (fn : Nat) : tblGet false (s.freePresented fn).heldV (pairKey fn (freeOff fn)) = false :=
  tblGet_tblSet_same false (s.dropPath fn true).heldV (pairKey fn (freeOff fn)) false

theorem freePresented_usage (s : State) (fn : Nat) : (s.freePresented fn).bpm.usage = s.bpm.usage := (dropPath_only s fn true).counts.2

theorem freePresented_status (s : State) (fn : Nat) : ((s.freePresented fn).path fn).freeStatus = 0 := by
  rw [State.freePresented, modPath_path]

theorem freePresented_pool (s : State) (fn k : Nat) : (s.freePresented fn).pool? k = (s.pool? k).map fun p => p.unpathed fn true :=
  dropPath_pool s fn true k

theorem poolTold_pool {s t : State} (h : PoolTold s t) (k : Nat) : t.pool? k = s.pool? k := by
  rw [State.pool?, h.pools, State.pool?]

/-- What the refusal of a free leaves of its register path, its pools and the rest. -/
structure FreeRefused (fn code : Nat) (s t : State) : Prop where
  status : (t.path fn).freeStatus = BitVec.ofNat 32 (2 ^ 31 + code)
  usage : t.bpm.usage = sat32 s.bpm.usage 1
  pools : ∀ k, t.pool? k = s.pool? k
  records : Records s t 0x23 3
  heldV : t.heldV = s.heldV
  frame : t = { s with bpm := t.bpm, clusters := t.clusters, evq := t.evq, fcl := t.fcl, funcs := t.funcs, hlu := t.hlu, imb := t.imb,
                       mem := t.mem, out := t.out }

theorem poolEvent_refused (s : State) (fn code arg : Nat) : FreeRefused fn code s ((s.poolEvent fn code arg).freeDone fn code) := by
  have htold := poolEvent_told s fn code arg
  have hpool := poolTold_pool htold
  obtain ⟨hbpm, hrecords, hheld, hframe⟩ := htold
  generalize s.poolEvent fn code arg = t at *
  have husage : (t.freeDone fn code).bpm.usage = t.bpm.usage := rfl
  refine ⟨freeDone_status .., by rw [husage, hbpm], hpool, records_congr rfl hrecords, hheld, ?_⟩
  rw [hframe]
  rfl

/-- Settles O48: `dropPath_pool` for what a register path gives up, `serveAlloc_takes` and `serveFree_frees` for the pools, `askPool_turns` for
channels. -/
theorem poolService : Obligations.PoolService := by
  refine ⟨?asks, ?rejected, ?lost, ?presents, ?gives, ?empty, ?frees, ?keeps, ?refills, ?spills, ?again, ?gaveUp⟩
  case asks =>
    intro fn v p s hlive hown
    have hrun := exec_bpmAllocReq v hlive
    rw [allocReqOp_asks hown] at hrun
    obtain ⟨hpool, -⟩ := ownPool_pool hown
    obtain ⟨-, -, hframe⟩ := dropPath_only s fn false
    have hcleared : (s.allocCleared fn).pool? (v.toNat % 256) = some (p.unpathed fn false) := by
      rw [State.allocCleared, modPath_pool, dropPath_pool, hpool, Option.map_some]
    have hpath : ((s.allocCleared fn).path fn).allocLo = 0 := by rw [State.allocCleared, modPath_path]
    refine ⟨_, _, hrun, modPool_pool_same _ hcleared, rfl, rfl, rfl, hpath, ?_⟩
    rw [State.allocCleared, hframe]
    rfl
  case rejected =>
    intro fn v s hlive hown
    have hrun := exec_bpmAllocReq v hlive
    rw [allocReqOp_rejects hown] at hrun
    obtain ⟨hlow, hhigh⟩ := allocDone_path (s.allocCleared fn) fn 0 5
    obtain ⟨-, -, hframe⟩ := dropPath_only s fn false
    refine ⟨_, hrun, hlow, hhigh, ?_⟩
    rw [State.allocCleared, hframe]
    rfl
  case lost =>
    intro fn a v s hlive haddr hnone
    have hrun := exec_bpmFree v hlive
    subst haddr
    rw [freeOp_refuses hnone] at hrun
    have husage := freePresented_usage s fn
    have hheld := freePresented_heldV s fn
    have hframe := freePresented_frame s fn
    obtain ⟨kstatus, kusage, -, krecords, kheld, kframe⟩ := poolEvent_refused (s.freePresented fn) fn 3 256
    generalize s.freePresented fn = u at *
    refine ⟨_, hrun, kstatus, by rw [kusage, husage], records_after (by rw [hframe]) (by rw [hframe]) krecords, by rw [kheld, hheld], ?_⟩
    rw [kframe, hframe]
  case presents =>
    intro fn a k v p s hlive haddr hat hpool
    have hrun := exec_bpmFree v hlive
    subst haddr
    rw [freeOp_asks hat] at hrun
    have hstatus := freePresented_status s fn
    have hframe := freePresented_frame s fn
    have hasked := freePresented_pool s fn k
    rw [hpool, Option.map_some] at hasked
    generalize s.freePresented fn = u at *
    refine ⟨_, _, hrun, modPool_pool_same _ hasked, rfl, hstatus, ?_⟩
    rw [hframe]
    rfl
  case gives =>
    intro k i rest p r s hlive hk hpool hone hkind hport hcache
    have hrun := exec_poolArbitration hlive hk
    rw [arbitrateOp_alloc hpool hone hkind, serveAlloc_takes hport hcache] at hrun
    obtain ⟨hlow, hhigh⟩ := allocDone_path (s.bufferTaken k p r i rest) r.port (p.bufAddr i) 1
    have htaken := bufferTaken_pool s k p r i rest
    refine ⟨_, _, hrun, htaken, rfl, owned_at .., ?_, rfl, fun j hj => owned_other _ _ hj, hlow, hhigh, fun m hm => bufferTaken_other s p r i rest hm,
      modPath_pooled_frame _ _ (bufferTaken_pooled ..).frame⟩
    show p.reqs.erase r = []
    rw [hone, List.erase_cons_head]
  case empty =>
    intro k p r s hlive hk hpool hone hkind hport hcache hring
    have hrun := exec_poolArbitration hlive hk
    rw [arbitrateOp_alloc hpool hone hkind, serveAlloc_empty hport hcache hring] at hrun
    exact ⟨_, hrun, (allocDone_path _ r.port 0 3).1, rfl, rfl⟩
  case frees =>
    intro k i p r s hlive hk hpool hone hkind hcode hi hloose hbarred hroom
    have hrun := exec_poolArbitration hlive hk
    subst hi
    rw [arbitrateOp_free hpool hone hkind, serveFree_frees hcode hloose hroom] at hrun
    have hplaced : ((p.unasked r).owned (p.indexOf r) 0).placed (p.indexOf r)
        = { (p.unasked r).owned (p.indexOf r) 0 with cache := p.indexOf r :: p.cache } := if_neg (by rw [List.contains_iff_mem]; exact hbarred)
    have hfreed := bufferFreed_pool r hpool
    rw [hplaced] at hfreed
    refine ⟨_, _, hrun, hfreed, rfl, owned_at (p.unasked r) (p.indexOf r) 0, ?_, fun j hj => owned_other (p.unasked r) 0 hj, freeDone_status ..,
      fun m hm => bufferFreed_other s p r hm, modPath_pooled_frame _ _ (bufferFreed_pooled ..).frame⟩
    show p.reqs.erase r = []
    rw [hone, List.erase_cons_head]
  case keeps =>
    intro k p r s hlive hk hpool hone hkind hcode
    have hrun := exec_poolArbitration hlive hk
    rw [arbitrateOp_free hpool hone hkind, serveFree_rejects hcode] at hrun
    obtain ⟨kstatus, -, kpool, krecords, -, -⟩ := poolEvent_refused (s.modPool k fun q => q.unasked r) r.port (p.freeCode r) k
    refine ⟨_, _, hrun, (kpool k).trans (modPool_pool_same _ hpool), rfl, rfl, ?_, kstatus, krecords⟩
    show p.reqs.erase r = []
    rw [hone, List.erase_cons_head]
  case refills =>
    intro k p s hlive hpool hlow
    have hrun := exec_poolCacheRefill k hlive
    have hrefill := modPool_pool_same (fun p => if p.cache.length < 16 then p.refill else p) hpool
    rw [if_pos hlow] at hrefill
    exact ⟨_, _, hrun, hrefill, rfl, rfl, refill_cache p, fun m hm => modPool_pool_other _ _ hm, rfl⟩
  case spills =>
    intro k p s hlive hpool hhigh
    have hrun := exec_poolCacheSpill k hlive
    rw [poolSpillOp_spills hpool hhigh] at hrun
    obtain ⟨hcache, hring, hall⟩ := spill_spills hhigh
    obtain ⟨hbpm, hframe⟩ := writeRing_writes (s.setPool k (some p.spill)) k 16
    have hpools : ∀ m, ((s.setPool k (some p.spill)).writeRing k 16).pool? m = (s.setPool k (some p.spill)).pool? m := fun m => by
      rw [State.pool?, hbpm, State.pool?]
    refine ⟨_, _, hrun, (hpools k).trans (setPool_pool .. |>.trans (if_pos rfl)), hcache, hring, hall, fun m hm => ?_, ?_⟩
    · exact (hpools m).trans ((setPool_pool ..).trans (if_neg hm.symm))
    · rw [hframe]
      rfl
  case again =>
    intro g d p s hlive hask hasking hfirst hown
    have hrun := exec_allocBackoff hlive hask
    obtain ⟨hothers, -⟩ := modChan_only (s.reach ((s.chan g).askAt - 1)) g fun c => { c with askAt := 0 }
    have hrested : (s.backoffEnded g).chan g = { s.chan g with askAt := 0 } := modChan_chan ..
    have hsame : (s.backoffEnded g).ownPool ((s.backoffEnded g).fnOfChan g) d.pool = some p := by
      rw [fnOfChan_congr (s := s) (t := s.backoffEnded g) rfl g]
      exact hown
    have hasks := askPool_asks (s := s.backoffEnded g) (by rw [hrested]; exact hfirst) hsame (by rw [hrested]; exact hasking) (by rw [hrested])
    have hchan := modChan_chan (s.backoffEnded g) g fun c => { c with asking := true }
    obtain ⟨kothers, -⟩ := modChan_only (s.backoffEnded g) g fun c => { c with asking := true }
    have hpool : ((s.backoffEnded g).modChan g fun c => { c with asking := true }).pool? d.pool = some p := (ownPool_pool hown).1
    refine ⟨_, _, hrun.trans (congrArg _ hasks), ?_, ?_, modPool_pool_same _ hpool, rfl, rfl, fun k hk => ?_, rfl⟩
    · exact congrArg Chan.asking hchan
    · refine (congrArg Chan.askAt hchan).trans ?_
      rw [hrested]
    · exact (kothers k hk).trans (hothers k hk)
  case gaveUp =>
    intro g d s hlive hwait hfirst
    have hrun := exec_allocWaitExpiry hlive hwait hfirst
    obtain ⟨hchan, hothers, htime, hframe⟩ := waitEnded_ends s g d.slot
    obtain ⟨kfailures, kwaited, kothers, kframe⟩ := askPool_turns (s.waitEnded g d.slot) g
    generalize s.waitEnded g d.slot = u at *
    refine ⟨_, hrun, fun e he hslot => ?_, ?_, ?_, fun k hk => (kothers k hk).trans (hothers k hk), ?_⟩
    · obtain ⟨o, ho, kslot, kfailed, kstatus, kcause⟩ := kfailures e he
      rw [hchan] at ho
      obtain ⟨hfailed, hstatus, hcause⟩ := allocFailed_inprog ho (kslot.symm.trans hslot)
      exact ⟨kfailed.trans hfailed, kstatus.trans hstatus, kcause.trans hcause⟩
    · rw [kwaited, hchan]
      rfl
    · rw [kframe]
      exact htime
    · rw [kframe, hframe]

end Sys2Proof.Machine
end

section
/-! PROOFS. The admin commands of pools and event rings (R330, R351, Table 14-7). -/
namespace Sys2Proof.Machine

/-! ### Effects on pools and event rings -/

/-- A command that is done at once, on a state which has its function's queue and reachability as they were. -/
theorem admCmd_done {s t : State} {fn op r : Nat} {e x : Entry} {f : State → Entry → AdmEnd} (h : s.admTakes false fn op e x)
    (hf : f s x = admDone t r) (hsame : SameAdm fn s t) :
    ∃ u, admCmd fn op e f s = .next u ∧ admEnds s u false fn x 0 0 r ∧ OnlyAdm t u :=
  ⟨_, admCmd_ends h hf, finishAdm_ends 0 0 r hsame (admTakes_reachable h), finishAdm_onlyAdm ..⟩

/-- A pool that is made, with its free ring and its owner table in device memory. -/
def State.laysPool (s : State) (n : Nat) (p : Pool) : State := ((s.setPool n (some p)).tookFree).writePool p

theorem laysPool_frame (s : State) (n : Nat) (p : Pool) :
    s.laysPool n p = { s with bpm := (s.setPool n (some p)).bpm, clusters := (s.laysPool n p).clusters, free := s.free + 1,
                              mem := (s.laysPool n p).mem } := rfl

theorem laysPool_sameAdm (fn n : Nat) (s : State) (p : Pool) : SameAdm fn s (s.laysPool n p) := ⟨rfl, rfl, rfl, List.prefix_refl _⟩

/-- A pool of which no buffer is allocated and for which nothing waits goes away. -/
theorem dropPool_idle {s : State} {k : Nat} {p : Pool} (h : s.pool? k = some p) (hreqs : p.reqs = []) : s.dropPool k = s.setPool k none := by
  rw [State.dropPool, h]
  dsimp only
  rw [hreqs]
  rfl

theorem pool?_congr {s t : State} (h : t.bpm = s.bpm) (m : Nat) : t.pool? m = s.pool? m := by rw [State.pool?, State.pool?, h]

theorem ring_congr {s t : State} (h : t.evq = s.evq) (f : Nat) : t.ring f = s.ring f := by rw [State.ring, State.ring, h]

/-! ### Where the commands' checks pass -/

theorem createPoolCmd_lays {fn n a : Nat} {r : Region} {x : Entry} {s : State}
    (hregion : (s.boot.regions.find? fun g => g.kind == 5 && g.id == e8 x 8 && g.grant.getLsbD fn) = some r)
    (hlow : 12 ≤ efld x 8 8 5) (hhigh : efld x 8 8 5 ≤ 30) (hnone : efld x 12 0 25 ≠ 0) (hmany : efld x 12 0 25 ≤ 16777216)
    (hquota : (s.poolsOf fn).length < (s.fnRec fn).pools) (hnum : s.pickFree (tblKeys s.bpm.pools) 256 = some n)
    (hplace : s.poolPlace r (efld x 8 8 5) (newPool fn r.id (efld x 8 8 5) (efld x 12 0 25) 0).limit = some a) :
    createPoolCmd fn s x = admDone (s.laysPool n (newPool fn r.id (efld x 8 8 5) (efld x 12 0 25) a)) (put 12 0 n + put 16 0 a) := by
  have hlog : (decide (efld x 8 8 5 < 12) || decide (30 < efld x 8 8 5)) = false := by simp [hlow, hhigh]
  have hcount : (efld x 12 0 25 == 0 || decide (16777216 < efld x 12 0 25)) = false := by simp [hnone, hmany]
  simp only [createPoolCmd, hregion, hlog, hcount, Bool.false_eq_true, if_false, Nat.not_le.mpr hquota, hnum, hplace]
  rfl

theorem destroyPoolCmd_drops {fn : Nat} {p : Pool} {x : Entry} {s : State} (hpool : s.ownPool fn (e8 x 8) = some p) (howners : p.owners = []) :
    destroyPoolCmd fn s x = admDone (s.dropPool (e8 x 8)) 0 := by
  simp only [destroyPoolCmd, hpool, howners, List.isEmpty_nil, if_true]

theorem destroyPoolCmd_held {fn : Nat} {p : Pool} {x : Entry} {s : State} (hpool : s.ownPool fn (e8 x 8) = some p) (howners : p.owners ≠ []) :
    destroyPoolCmd fn s x = (none, some (0x40, 0x51, 0)) := by
  have hheld : p.owners.isEmpty = false := List.isEmpty_eq_false_iff.mpr howners
  simp only [destroyPoolCmd, hpool, hheld, Bool.false_eq_true, if_false]
  rfl

theorem createEventRingCmd_makes {fn : Nat} {x : Entry} {s : State} (hgood : firstBad (ringChecks x) = none)
    (hnew : (s.ring fn).isThere = false) : createEventRingCmd fn s x = admDone (s.modRing fn (newRing x)) 0 := by
  simp only [createEventRingCmd, hgood, hnew, Bool.false_eq_true, if_false]

/-- An event ring that is gone, with what it had not written. -/
def EvRing.gone (r : EvRing) : EvRing := { r with isThere := false, pend := 0, overflow := false }

theorem destroyEventRingCmd_ends {fn : Nat} {s : State} (x : Entry) (hthere : (s.ring fn).isThere = true) :
    destroyEventRingCmd fn s x = admDone (s.modRing fn EvRing.gone) 0 := if_pos hthere

theorem destroyEventRingCmd_absent {fn : Nat} {s : State} (x : Entry) (hthere : (s.ring fn).isThere = false) :
    destroyEventRingCmd fn s x = (none, some (0x40, 0x52, 0)) := if_neg (by simp [hthere])

/-! ### The commands -/

/-- CREATE_POOL lays the pool it numbers, with every buffer free (R330, R351). -/
theorem createPool_lays {fn n a : Nat} {r : Region} {e x : Entry} {s : State} (h : s.admTakes false fn 0x20 e x)
    (hcmd : createPoolCmd fn s x = admDone (s.laysPool n (newPool fn r.id (efld x 8 8 5) (efld x 12 0 25) a)) (put 12 0 n + put 16 0 a)) :
    ∃ t, exec (.createPool fn e) s = .next t ∧ admEnds s t false fn x 0 0 (put 12 0 n + put 16 0 a)
      ∧ (∃ p, t.pool? n = some p ∧ p.fn = fn ∧ p.base = a ∧ p.count = efld x 12 0 25 ∧ p.owners = [] ∧ p.ring = List.range (efld x 12 0 25))
      ∧ (∀ m, m ≠ n → t.pool? m = s.pool? m)
      ∧ t = { s with admq := t.admq, bpm := t.bpm, clusters := t.clusters, free := s.free + 1, funcs := t.funcs, hlu := t.hlu, mem := t.mem,
                     out := t.out } := by
  obtain ⟨t, hexec, hends, honly⟩ := admCmd_done h hcmd (laysPool_sameAdm ..)
  have hbpm : t.bpm = (s.setPool n (some (newPool fn r.id (efld x 8 8 5) (efld x 12 0 25) a))).bpm := by
    rw [honly]
    rfl
  have hpool := pool?_congr hbpm
  refine ⟨t, hexec, hends, ⟨newPool fn r.id (efld x 8 8 5) (efld x 12 0 25) a, (hpool n).trans ?_, rfl, rfl, rfl, rfl, rfl⟩,
    fun m hm => (hpool m).trans ?_, ?_⟩
  · rw [setPool_pool, if_pos rfl]
  · rw [setPool_pool, if_neg hm.symm]
  · unfold OnlyAdm at honly
    rw [honly, laysPool_frame]

/-- DESTROY_POOL of a pool without an allocated buffer frees it. -/
theorem destroyPool_frees {fn : Nat} {p : Pool} {e x : Entry} {s : State} (h : s.admTakes false fn 0x21 e x)
    (hpool : s.ownPool fn (e8 x 8) = some p) (howners : p.owners = []) (hreqs : p.reqs = []) :
    ∃ t, exec (.destroyPool fn e) s = .next t ∧ admEnds s t false fn x 0 0 0 ∧ t.pool? (e8 x 8) = none
      ∧ (∀ m, m ≠ e8 x 8 → t.pool? m = s.pool? m)
      ∧ t = { s with admq := t.admq, bpm := t.bpm, clusters := t.clusters, funcs := t.funcs, hlu := t.hlu, mem := t.mem, out := t.out } := by
  have hcmd := destroyPoolCmd_drops hpool howners
  rw [dropPool_idle (ownPool_pool hpool).1 hreqs] at hcmd
  obtain ⟨t, hexec, hends, honly⟩ := admCmd_done h hcmd ⟨rfl, rfl, rfl, List.prefix_refl _⟩
  have hbpm : t.bpm = (s.setPool (e8 x 8) none).bpm := by rw [honly]
  have hall := pool?_congr hbpm
  refine ⟨t, hexec, hends, (hall _).trans ?_, fun m hm => (hall m).trans ?_, ?_⟩
  · rw [setPool_pool, if_pos rfl]
  · rw [setPool_pool, if_neg hm.symm]
  · unfold OnlyAdm at honly
    rw [honly]
    rfl

/-- A command that leaves its function's event ring as `f` makes it. -/
theorem admCmd_ring {fn op : Nat} {e x : Entry} {s : State} {cmd : State → Entry → AdmEnd} {f : EvRing → EvRing}
    (h : s.admTakes false fn op e x) (hcmd : cmd s x = admDone (s.modRing fn f) 0) :
    ∃ t, admCmd fn op e cmd s = .next t ∧ admEnds s t false fn x 0 0 0 ∧ t.ring fn = f (s.ring fn) ∧ (∀ k, k ≠ fn → t.ring k = s.ring k)
      ∧ t = { s with admq := t.admq, clusters := t.clusters, evq := t.evq, funcs := t.funcs, hlu := t.hlu, mem := t.mem, out := t.out } := by
  obtain ⟨t, hexec, hends, honly⟩ := admCmd_done h hcmd ⟨rfl, rfl, rfl, List.prefix_refl _⟩
  have hevq : t.evq = (s.modRing fn f).evq := by rw [honly]
  have hall := ring_congr hevq
  refine ⟨t, hexec, hends, (hall fn).trans (modRing_ring ..), fun k hk => (hall k).trans (modRing_ring_other _ _ _ _ hk.symm), ?_⟩
  unfold OnlyAdm at honly
  rw [honly]
  rfl

/-- Settles O23: each command's effect where its checks pass, and the end of an admin command on the state that it leaves. -/
theorem poolAndRingCommands : Obligations.PoolAndRingCommands := by
  refine ⟨?lays, ?frees, ?held, ?makes, ?goes, ?absent⟩
  case lays =>
    intro fn n a r e x s h hregion hlow hhigh hnone hmany hquota hnum hplace
    exact createPool_lays h (createPoolCmd_lays hregion hlow hhigh hnone hmany hquota hnum hplace)
  case frees =>
    intro fn p e x s h hpool howners hreqs
    exact destroyPool_frees h hpool howners hreqs
  case held =>
    intro fn p e x s h hpool howners
    obtain ⟨t, hexec, hends, honly⟩ := admCmd_fails h (destroyPoolCmd_held hpool howners)
    exact ⟨t, hexec, hends, by rw [honly]⟩
  case makes =>
    intro fn e x s h hgood hnew
    obtain ⟨t, hexec, hends, hring, hother, honly⟩ := admCmd_ring h (createEventRingCmd_makes hgood hnew)
    refine ⟨t, hexec, hends, ?_⟩
    rw [hring]
    exact ⟨rfl, rfl, rfl, rfl, rfl, rfl, rfl, hother, honly⟩
  case goes =>
    intro fn e x s h hthere
    obtain ⟨t, hexec, hends, hring, hother, honly⟩ := admCmd_ring h (destroyEventRingCmd_ends x hthere)
    refine ⟨t, hexec, hends, ?_⟩
    rw [hring]
    exact ⟨rfl, rfl, hother, honly⟩
  case absent =>
    intro fn e x s h hthere
    obtain ⟨t, hexec, hends, honly⟩ := admCmd_fails h (destroyEventRingCmd_absent x hthere)
    exact ⟨t, hexec, hends, by rw [honly]⟩

end Sys2Proof.Machine
end

section
/-! PROOFS. Configuration commands (R324 to R326, R334): how one ends, and what the end of it leaves as it was. -/
namespace Sys2Proof.Machine

/-! ### The end of a configuration command -/

/-- What the end of a configuration command reads, and what is sent before it. -/
structure SameCfg (s t : State) : Prop where
  cfg : t.cfgq = s.cfgq
  func : t.func 0 = s.func 0
  link : t.linkPasses = s.linkPasses
  out : s.out <+: t.out

theorem sameCfg_refl (s : State) : SameCfg s s := ⟨rfl, rfl, rfl, List.prefix_refl _⟩

/-- Only the configuration queue and what a write for a function touches have changed. -/
def OnlyCfg (s t : State) : Prop :=
  t = { s with cfgq := t.cfgq, clusters := t.clusters, funcs := t.funcs, hlu := t.hlu, mem := t.mem, out := t.out }

theorem onlyCfg_trans {s t u : State} (h : OnlyCfg s t) (k : OnlyCfg t u) : OnlyCfg s u := by
  unfold OnlyCfg at *
  rw [k, h]

theorem onlyCfg_of_put {s t : State} (h : OnlyPut s t) : OnlyCfg s t := by
  unfold OnlyPut OnlyCfg at *
  rw [h]

/-- The state with a command's result record written, and the configuration queue moved past it. -/
def State.cfgPassed (s : State) (bs : List Byte) : State :=
  (s.putRecord 0 s.cfgq.space.toNat (s.cfgq.res.toNat + s.cfgq.seq.toNat % s.cfgq.depth * 128) bs).modCfgQ AdmQ.passed

/-- The bytes of a result record (Table 13-11). -/
def resultBytes (a : AdmQ) (tag : Word) (op c k r : Nat) : List Byte :=
  leBytes 128 (put 0 0 a.seq.toNat + put 4 0 tag.toNat + put 8 0 c + put 8 8 k + put 8 16 op + r)

theorem resultBytes_record (a : AdmQ) (x : Entry) (c k r : Nat) :
    resultBytes a (BitVec.ofNat 32 (e32 x 4)) (eOp x) c k r = admRecord a x c k r := by rw [resultBytes, toNat_tag, admRecord]

theorem finishCfg_eq (s : State) (tag : Word) (op c k r : Nat) :
    s.finishAdm true 0 tag op c k r = (s.cfgPassed (resultBytes s.cfgq tag op c k r)).putAdmStatus true 0 := rfl

theorem cfgPassed_only (s : State) (bs : List Byte) : OnlyCfg s (s.cfgPassed bs) :=
  onlyCfg_trans (onlyCfg_of_put (putRecord_put ..)) (u := s.cfgPassed bs) rfl

theorem cfgPassed_cfgq (s : State) (bs : List Byte) : (s.cfgPassed bs).cfgq = s.cfgq.passed := by
  have hput := putRecord_put s 0 s.cfgq.space.toNat (s.cfgq.res.toNat + s.cfgq.seq.toNat % s.cfgq.depth * 128) bs
  rw [State.cfgPassed, modCfgQ_cfgq, hput]

theorem finishCfg_only (s : State) (tag : Word) (op c k r : Nat) : OnlyCfg s (s.finishAdm true 0 tag op c k r) :=
  onlyCfg_trans (cfgPassed_only ..) (onlyCfg_of_put (putAdmStatus_put ..))

theorem finishCfg_cfgq (s : State) (tag : Word) (op c k r : Nat) : (s.finishAdm true 0 tag op c k r).cfgq = s.cfgq.passed := by
  rw [finishCfg_eq, putAdmStatus_put, cfgPassed_cfgq]

/-- The configuration queue's rings lie in host memory, and what is sent for PF0 goes out at once. -/
structure SendsCfg (s : State) : Prop where
  space : s.cfgq.space = 0
  flr : (s.func 0).flr = false
  d3 : (s.func 0).d3 = false
  link : s.linkPasses = true

theorem putRecord_sendsCfg {s : State} (a : Nat) (bs : List Byte) (h : SendsCfg s) :
    s.putRecord 0 s.cfgq.space.toNat a bs = s.send (.hostWrite 0 a bs false) := by
  have hzero : s.cfgq.space.toNat = 0 := congrArg BitVec.toNat h.space
  rw [hzero, putRecord_sent s 0 _ _ h.flr h.d3 h.link]

theorem cfgPassed_sent {s : State} (bs : List Byte) (h : SendsCfg s) :
    s.cfgPassed bs = (s.send (.hostWrite 0 (s.cfgq.res.toNat + s.cfgq.seq.toNat % s.cfgq.depth * 128) bs false)).modCfgQ AdmQ.passed := by
  rw [State.cfgPassed, putRecord_sendsCfg _ _ h]

theorem modCfgQ_linkPasses (s : State) (f : AdmQ → AdmQ) : (s.modCfgQ f).linkPasses = s.linkPasses := rfl

theorem cfgPassed_sends {s : State} (bs : List Byte) (h : SendsCfg s) : SendsCfg (s.cfgPassed bs) where
  space := by
    rw [cfgPassed_cfgq]
    exact h.space
  flr := by
    rw [cfgPassed_sent bs h]
    exact h.flr
  d3 := by
    rw [cfgPassed_sent bs h]
    exact h.d3
  link := by
    rw [cfgPassed_sent bs h, modCfgQ_linkPasses, send_linkPasses]
    exact h.link

theorem putCfgStatus_sent {s : State} (h : SendsCfg s) :
    (s.putAdmStatus true 0).out = s.out ++ [.hostWrite 0 s.cfgq.sb.toNat (s.cfgq.status s.time) false] := by
  have hput : s.putAdmStatus true 0 = s.putRecord 0 s.cfgq.space.toNat s.cfgq.sb.toNat (s.cfgq.status s.time) := rfl
  rw [hput, putRecord_sendsCfg _ _ h, send_out]

/-- Where the rings lie in host memory and PF0 is reachable, the record and then the status block go out. -/
theorem finishCfg_out {s : State} (x : Entry) (c k r : Nat) (h : SendsCfg s) :
    ∃ bs, (s.finishAdm true 0 (BitVec.ofNat 32 (e32 x 4)) (eOp x) c k r).out = s.out ++
      [.hostWrite 0 (s.cfgq.res.toNat + s.cfgq.seq.toNat % s.cfgq.depth * 128) (admRecord s.cfgq x c k r) false,
        .hostWrite 0 s.cfgq.sb.toNat bs false] := by
  have hout : (s.cfgPassed (admRecord s.cfgq x c k r)).out = s.out ++ [.hostWrite 0
      (s.cfgq.res.toNat + s.cfgq.seq.toNat % s.cfgq.depth * 128) (admRecord s.cfgq x c k r) false] := by
    rw [cfgPassed_sent _ h]
    rfl
  rw [finishCfg_eq, resultBytes_record, putCfgStatus_sent (cfgPassed_sends _ h), cfgPassed_cfgq, hout, List.append_assoc]
  exact ⟨_, rfl⟩

/-- A command that ends on a state which has the configuration queue and PF0's reachability as they were completes (R324, R326). -/
theorem finishCfg_ends {s t : State} {x : Entry} (c k r : Nat) (h : SameCfg s t) (hd3 : (s.func 0).d3 = false) :
    admEnds s (t.finishAdm true 0 (BitVec.ofNat 32 (e32 x 4)) (eOp x) c k r) true 0 x c k r := by
  have hadm : (t.finishAdm true 0 (BitVec.ofNat 32 (e32 x 4)) (eOp x) c k r).adm true 0 = s.cfgq.passed := by
    rw [← h.cfg]
    exact finishCfg_cfgq ..
  unfold admEnds
  rw [hadm]
  refine ⟨rfl, rfl, rfl, rfl, fun hspace hlink hflr => ?_⟩
  have ha : s.adm true 0 = t.cfgq := h.cfg.symm
  obtain ⟨bs, hbs⟩ := finishCfg_out x c k r ⟨ha ▸ hspace, h.func ▸ hflr, h.func ▸ hd3, h.link ▸ hlink⟩
  obtain ⟨os, hos⟩ := h.out
  refine ⟨os, bs, ?_⟩
  rw [hbs, ← hos, ha]

/-! ### Running a configuration command -/

theorem cfgTakes_reachable {s : State} {op : Nat} {e x : Entry} (h : s.admTakes true 0 op e x) : (s.func 0).d3 = false := by
  obtain ⟨hready, -⟩ := h
  simp only [State.admReady, Bool.and_eq_true, Bool.not_eq_true'] at hready
  tauto

/-- The state that the effect of a configuration command leaves: its result follows now, or later. -/
def State.endCfg (s : State) (x : Entry) : AdmEnd → State
  | (t, some (c, k, r)) => (t.getD s).finishAdm true 0 (BitVec.ofNat 32 (e32 x 4)) (eOp x) c k r
  | (t, none) => t.getD s

/-- A well-formed command that the configuration queue may execute ends as its effect says. -/
theorem cfgCmd_takes {s : State} {op : Nat} {e x : Entry} (f : State → Entry → AdmEnd) (h : s.admTakes true 0 op e x) :
    cfgCmd op e f s = .next (s.endCfg x (f s x)) := by
  obtain ⟨hready, hspace, hentry, hcause, hop⟩ := h
  have hnot : ¬ 1 < (s.adm true 0).space.toNat := by omega
  subst hop
  rw [cfgCmd, onlyIf, if_pos hready, State.runAdm]
  simp [hnot, hentry, hcause]
  rfl

/-- A command that is done at once, on a state which has the configuration queue and PF0's reachability as they were. -/
theorem cfgCmd_ends {s t : State} {op c k r : Nat} {e x : Entry} {f : State → Entry → AdmEnd} (h : s.admTakes true 0 op e x)
    (hf : f s x = (some t, some (c, k, r))) (hsame : SameCfg s t) :
    ∃ u, cfgCmd op e f s = .next u ∧ admEnds s u true 0 x c k r ∧ OnlyCfg t u := by
  have hrun := cfgCmd_takes f h
  rw [hf] at hrun
  exact ⟨_, hrun, finishCfg_ends c k r hsame (cfgTakes_reachable h), finishCfg_only ..⟩

/-- A command that fails changes nothing but its queue. -/
theorem cfgCmd_fails {s : State} {op c k r : Nat} {e x : Entry} {f : State → Entry → AdmEnd} (h : s.admTakes true 0 op e x)
    (hf : f s x = (none, some (c, k, r))) :
    ∃ t, cfgCmd op e f s = .next t ∧ admEnds s t true 0 x c k r ∧ OnlyCfg s t := by
  have hrun := cfgCmd_takes f h
  rw [hf] at hrun
  exact ⟨_, hrun, finishCfg_ends c k r (sameCfg_refl s) (cfgTakes_reachable h), finishCfg_only ..⟩

end Sys2Proof.Machine
end

section
/-! PROOFS. RESTRUCTURE (R334, R480): what draining the device leaves of the boot state. -/
namespace Sys2Proof.Machine

/-! ### Drains leave the boot state -/

theorem forEach_boot {α : Type} (xs : List α) {f : α → State → State} (hf : ∀ x t, (f x t).boot = t.boot) (s : State) :
    (forEach xs f s).boot = s.boot :=
  forEach_induct (P := fun t => t.boot = s.boot) xs (fun x _ t ht => (hf x t).trans ht) s rfl

theorem settleState_boot (s : State) (n : Nat) : (s.settleState n).boot = s.boot := by
  unfold State.settleState
  split <;> rfl

theorem takeBack_boot (s : State) (q : Nat) (e : QEntry) : (s.takeBack q e).boot = s.boot := by
  unfold State.takeBack
  refine (forEach_boot _ (fun (u : WUnit) t => settleState_boot t u.session) _).trans ?_
  split
  · rfl
  · split <;> rfl

theorem disableQueue_boot (s : State) (q : Nat) : (s.disableQueue q).boot = s.boot :=
  forEach_boot _ (fun e t => takeBack_boot t q e) _

theorem settleQueue_boot (s : State) (q : Nat) : (s.settleQueue q).boot = s.boot := by
  unfold State.settleQueue
  dsimp only
  split
  · split
    · rfl
    · have hmoderated (t : State) : OnlyModerated q t (((t.putStatus q).queueEvent q 0x03 0 ((t.putStatus q).queue q).head).queueMessage q) :=
        onlyModerated_trans (onlyModerated_trans (putStatus_moderated ..) (queueEvent_moderated ..)) (queueMessage_moderated ..)
      rw [(hmoderated _).frame]
      rfl
  · rfl

theorem drainSession_boot (s : State) (n : Nat) (destroy : Bool) : (s.drainSession n destroy).boot = s.boot := by
  rw [(drainSession_closed s n destroy).frame]

/-! ### A restructure begins -/

/-- The image waits, with the queues that the restructure disables. -/
def State.restructWaits (s : State) (i : Image) (tag : Word) : State :=
  s.modBoot fun b => { b with restruct := some i, restrTag := tag, stopped := s.runningQueues }

theorem beginRestructure_boot (s : State) (i : Image) (tag : Word) : (s.beginRestructure i tag).boot = (s.restructWaits i tag).boot := by
  unfold State.beginRestructure
  dsimp only
  rw [forEach_boot _ (fun n v => drainSession_boot v n false), forEach_boot _ fun q v => (settleQueue_boot ..).trans (disableQueue_boot v q)]
  rfl

/-- An image that passes its check (R480). -/
def State.checkPassed (s : State) : State := s.modBoot fun o => { o with chkReason := 0, chkOffset := 0 }

/-- An image that fails its check, at an offset. -/
def State.checkFailed (s : State) (r : Nat × Nat) : State := s.modBoot fun o => { o with chkReason := r.1, chkOffset := r.2 }

section
variable {b : Block} {x : Entry} {bs : List Byte} {s : State} (hread : s.blockBytes 0 (e8 x 12) (e64 x 16) (e32 x 8) b = some bs)
  (hnone : e32 x 8 ≠ 0) (hsize : e32 x 8 ≤ 16777216)
include hread hnone hsize

theorem restructureCmd_fits {i : Image} (hcheck : checkImage s.boot.fuses bs = .inr i) (hrow : s.badRow i = 0) :
    restructureCmd b s x = (some (s.checkPassed.beginRestructure i (BitVec.ofNat 32 (e32 x 4))), none) := by
  have hlen : (e32 x 8 == 0 || decide (16777216 < e32 x 8)) = false := by simp [hnone, hsize]
  simp only [restructureCmd, hread, hlen, hcheck, hrow, Bool.false_eq_true, if_false]
  rfl

theorem restructureCmd_fails {r : Nat × Nat} (hcheck : checkImage s.boot.fuses bs = .inl r) :
    restructureCmd b s x = (some (s.checkFailed r), some (0x40, 0x58, put 12 0 r.1)) := by
  have hlen : (e32 x 8 == 0 || decide (16777216 < e32 x 8)) = false := by simp [hnone, hsize]
  simp only [restructureCmd, hread, hlen, hcheck, Bool.false_eq_true, if_false]
  rfl

end

theorem exec_restructure (e : Entry) (b : Block) {s : State} (h : ∀ n, (s.sess n).destroyer = none) :
    exec (.restructure e b) s = cfgCmd 0x80 e (restructureCmd b) s := by
  have harm : exec (.restructure e b) s = execRestructure e b s := rfl
  rw [harm, execRestructure, if_neg (by simp [h])]

/-! ### The image is in force -/

/-- What is told of a queue once the image is in force: its status block, QUEUE_STOPPED and a message. -/
def State.toldStopped (s : State) (q : Nat) : State :=
  ((s.putStatus q).queueEvent q 0x03 0 ((s.putStatus q).queue q).head).queueMessage q

theorem toldStopped_moderated (s : State) (q : Nat) : OnlyModerated q s (s.toldStopped q) :=
  onlyModerated_trans (onlyModerated_trans (putStatus_moderated ..) (queueEvent_moderated ..)) (queueMessage_moderated ..)

/-- Only what the telling of queues touches has changed. -/
def OnlyQueuesTold (s t : State) : Prop :=
  t = { s with clusters := t.clusters, evq := t.evq, funcs := t.funcs, hlu := t.hlu, imb := t.imb, mem := t.mem, out := t.out, queues := t.queues }

theorem onlyQueuesTold_trans {s t u : State} (h : OnlyQueuesTold s t) (k : OnlyQueuesTold t u) : OnlyQueuesTold s u := by
  unfold OnlyQueuesTold at *
  rw [k, h]

theorem toldQueues_only (qs : List Nat) (s : State) : OnlyQueuesTold s (forEach qs (fun q v => v.toldStopped q) s) :=
  forEach_induct (P := OnlyQueuesTold s) qs (fun q _ t ht => onlyQueuesTold_trans ht (toldStopped_moderated t q).frame) s rfl

/-- The image is in force, and no queue stays stopped for it. -/
def State.imageInForce (s : State) (i : Image) : State := (s.putInForce i).modBoot fun b => { b with stopped := [] }

/-- Only the boot state, the scheduler and the sessions have changed. -/
def OnlyLoadedImage (s t : State) : Prop := t = { s with boot := t.boot, dsc := t.dsc, sessions := t.sessions }

/-- The image is loaded: the scheduler starts from it. -/
def State.imageLoaded (s : State) (i : Image) : State :=
  (s.modBoot fun b => { b with image := some i, restruct := none, imgFromFlash := false, debug := b.debug && i.permit.getLsbD 0 }).loadScheduler i

theorem imageLoaded_only (s : State) (i : Image) : OnlyLoadedImage s (s.imageLoaded i) := rfl

theorem putInForce_boot (s : State) (i : Image) :
    (s.putInForce i).boot.image = some i ∧ (s.putInForce i).boot.restruct = none ∧ OnlyLoadedImage s (s.putInForce i) :=
  forEach_induct (P := fun t => t.boot.image = some i ∧ t.boot.restruct = none ∧ OnlyLoadedImage s t) _
    (fun n _ t ht => by
      obtain ⟨himage, hrestruct, honly⟩ := ht
      refine ⟨himage, hrestruct, ?_⟩
      unfold OnlyLoadedImage at *
      rw [honly]
      rfl) (s.imageLoaded i) ⟨rfl, rfl, imageLoaded_only s i⟩

theorem imageInForce_boot (s : State) (i : Image) :
    (s.imageInForce i).boot.image = some i ∧ (s.imageInForce i).boot.restruct = none ∧ (s.imageInForce i).boot.stopped = []
      ∧ OnlyLoadedImage s (s.imageInForce i) := by
  obtain ⟨himage, hrestruct, honly⟩ := putInForce_boot s i
  refine ⟨himage, hrestruct, rfl, ?_⟩
  unfold State.imageInForce OnlyLoadedImage at *
  rw [honly]
  rfl

theorem inForceOp_eq {s : State} {i : Image} (h : s.boot.restruct = some i) :
    inForceOp s = (forEach (s.boot.stopped.filter fun q => (s.queue q).state != .free) (fun q v => v.toldStopped q) (s.imageInForce i)).finishAdm
      true 0 s.boot.restrTag 0x80 0 0 0 := by
  rw [inForceOp, h]
  rfl

/-- A held image comes into force once the device is drained (R334, steps 5 and 6). -/
theorem restructureInForce_loads {i : Image} {s : State} (hlive : s.live = true) (hdrained : s.drained = true) (h : s.boot.restruct = some i) :
    ∃ t, exec .restructureInForce s = .next t ∧ t.boot.image = some i ∧ t.boot.restruct = none ∧ t.boot.stopped = []
      ∧ t.cfgq.head = (s.cfgq.head + 1) % (2 * s.cfgq.depth) ∧ t.cfgq.seq = s.cfgq.seq + 1
      ∧ t = { s with boot := t.boot, cfgq := t.cfgq, clusters := t.clusters, dsc := t.dsc, evq := t.evq, funcs := t.funcs, hlu := t.hlu,
                     imb := t.imb, mem := t.mem, out := t.out, queues := t.queues, sessions := t.sessions } := by
  have harm : exec .restructureInForce s = execRestructureInForce s := rfl
  have hrun : exec .restructureInForce s = .next (inForceOp s) := by rw [harm, execRestructureInForce, onlyIf, if_pos (by simp [hlive, hdrained])]
  refine ⟨_, hrun, ?_⟩
  rw [inForceOp_eq h]
  obtain ⟨himage, hrestruct, hstopped, hloaded⟩ := imageInForce_boot s i
  have htold := toldQueues_only (s.boot.stopped.filter fun q => (s.queue q).state != .free) (s.imageInForce i)
  generalize forEach (s.boot.stopped.filter fun q => (s.queue q).state != .free) (fun q v => v.toldStopped q) (s.imageInForce i) = u at *
  generalize s.imageInForce i = v at *
  have hcfg := finishCfg_cfgq u s.boot.restrTag 0x80 0 0 0
  have honly := finishCfg_only u s.boot.restrTag 0x80 0 0 0
  generalize u.finishAdm true 0 s.boot.restrTag 0x80 0 0 0 = t at *
  unfold OnlyLoadedImage at hloaded
  unfold OnlyQueuesTold at htold
  unfold OnlyCfg at honly
  have hcfgs : t.cfgq = s.cfgq.passed := by rw [hcfg, htold, hloaded]
  have hboot : t.boot = v.boot := by rw [honly, htold]
  rw [hboot, hcfgs]
  refine ⟨himage, hrestruct, hstopped, rfl, rfl, ?_⟩
  rw [← hboot, ← hcfgs, honly, htold, hloaded]

end Sys2Proof.Machine
end

section
/-! PROOFS. The configuration commands (R334, R335, Table 14-10). -/
namespace Sys2Proof.Machine

/-! ### SPARE_RANK and RETIRE_RANK -/

theorem spareRankCmd_begins {x : Entry} {st : Nat} {s : State} (hstripe : s.stripeOfRank (efld x 8 0 4) (efld x 8 8 2) = some st)
    (hspare : s.spareFree (efld x 8 0 4) = true) (hrank : efld x 8 8 2 ≠ s.physRanks - 1) :
    spareRankCmd s x = admDone (s.beginMigration (efld x 8 0 4) (efld x 8 8 2) st) 0 := by
  simp only [spareRankCmd, hstripe, hspare, bne_iff_ne.2 hrank, Bool.and_true, if_true]

theorem spareRankCmd_fails {x : Entry} {s : State}
    (h : s.stripeOfRank (efld x 8 0 4) (efld x 8 8 2) = none ∨ s.spareFree (efld x 8 0 4) = false) :
    spareRankCmd s x = failState (s.chn (efld x 8 0 4)).state := by
  unfold spareRankCmd
  dsimp only
  split
  next st hstripe =>
    have hspare : s.spareFree (efld x 8 0 4) = false := h.resolve_left (by simp [hstripe])
    rw [hspare]
    rfl
  next => rfl

/-- A migration that begins: it stands at the rank's start, and its event is recorded (R423, R429). -/
theorem beginMigration_begins (s : State) (k r st : Nat) :
    (∃ m, ((s.beginMigration k r st).chn k).mig = some m ∧ m.rank = r ∧ m.stripe = st ∧ m.p = 0) ∧ Records s (s.beginMigration k r st) 0x0A 0
      ∧ OnlyReported s (s.beginMigration k r st) := by
  unfold State.beginMigration
  have hchn : ((s.modChn k fun c => { c with mig := some { rank := r, stripe := st, p := 0, mask := 0 } }).chn k).mig =
      some { rank := r, stripe := st, p := 0, mask := 0 } := congrArg Chn.mig (modChn_chn s k _)
  have hframe : (s.modChn k fun c => { c with mig := some { rank := r, stripe := st, p := 0, mask := 0 } }) =
      { s with mem := (s.modChn k fun c => { c with mig := some { rank := r, stripe := st, p := 0, mask := 0 } }).mem } := rfl
  generalize (s.modChn k fun c => { c with mig := some { rank := r, stripe := st, p := 0, mask := 0 } }) = t at *
  refine ⟨onlyMasks_some (capacity_masks ..) hchn, ?_, onlyReported_trans (onlyReported_of_mem hframe) (capacity_reported ..)⟩
  exact records_after (by rw [hframe]) (by rw [hframe]) (capacity_records ..)

theorem finishCfg_masks (s : State) (tag : Word) (op c k r : Nat) : OnlyMasks s (s.finishAdm true 0 tag op c k r) :=
  onlyMasks_trans (onlyMasks_trans (putRecord_masks ..) (onlyMasks_of_mem (t := s.cfgPassed (resultBytes s.cfgq tag op c k r)) rfl))
    (putRecord_masks ..)

/-- SPARE_RANK of a rank that holds a stripe, with the spare free, begins a migration (R335, R423). -/
theorem spareRank_begins {e x : Entry} {st : Nat} {s : State} (h : s.admTakes true 0 0x81 e x)
    (hcmd : spareRankCmd s x = admDone (s.beginMigration (efld x 8 0 4) (efld x 8 8 2) st) 0) :
    ∃ t, exec (.spareRank e) s = .next t ∧ (∃ m, (t.chn (efld x 8 0 4)).mig = some m ∧ m.rank = efld x 8 8 2 ∧ m.stripe = st ∧ m.p = 0)
      ∧ Records s t 0x0A 0 ∧ t.cfgq.head = (s.cfgq.head + 1) % (2 * s.cfgq.depth)
      ∧ t = { s with cfgq := t.cfgq, clusters := t.clusters, evq := t.evq, fcl := t.fcl, funcs := t.funcs, hlu := t.hlu, imb := t.imb,
                     mem := t.mem, out := t.out } := by
  have hrun := cfgCmd_takes spareRankCmd h
  rw [hcmd] at hrun
  refine ⟨_, hrun, ?_⟩
  rw [admDone, State.endCfg, Option.getD_some]
  obtain ⟨⟨m, hmig, hrank, hstripe, hp⟩, hrecords, hreported⟩ := beginMigration_begins s (efld x 8 0 4) (efld x 8 8 2) st
  generalize s.beginMigration (efld x 8 0 4) (efld x 8 8 2) st = u at *
  obtain ⟨n, hn, nrank, nstripe, np⟩ := onlyMasks_some (finishCfg_masks u (BitVec.ofNat 32 (e32 x 4)) (eOp x) 0 0 0) hmig
  have hcfg := finishCfg_cfgq u (BitVec.ofNat 32 (e32 x 4)) (eOp x) 0 0 0
  have honly := finishCfg_only u (BitVec.ofNat 32 (e32 x 4)) (eOp x) 0 0 0
  generalize u.finishAdm true 0 (BitVec.ofNat 32 (e32 x 4)) (eOp x) 0 0 0 = t at *
  unfold OnlyReported at hreported
  unfold OnlyCfg at honly
  have hcfgs : t.cfgq = s.cfgq.passed := by rw [hcfg, hreported]
  refine ⟨⟨n, hn, nrank.trans hrank, nstripe.trans hstripe, np.trans hp⟩, records_congr (by rw [honly]) hrecords, ?_, ?_⟩
  · rw [hcfgs]
    rfl
  · rw [honly, hreported]

theorem retireRankCmd_fails {x : Entry} {s : State} (h : s.rankServes (efld x 8 0 4) (efld x 8 8 2) = false) :
    retireRankCmd s x = failState (s.chn (efld x 8 0 4)).state := by
  unfold retireRankCmd
  dsimp only
  rw [h]
  rfl

theorem retireRankCmd_retires {x : Entry} {s : State} (h : s.rankServes (efld x 8 0 4) (efld x 8 8 2) = true)
    (hctx : (s.stripeOfRank (efld x 8 0 4) (efld x 8 8 2)).any s.holdsContext = false) :
    retireRankCmd s x = admDone (s.retireRank (efld x 8 0 4) (efld x 8 8 2)) 0 := by
  unfold retireRankCmd
  dsimp only
  rw [h, hctx]
  rfl

theorem queryImageCmd_tells {x : Entry} {i : Image} {s : State} (h : s.boot.image = some i) :
    queryImageCmd s x = admDone s (put 12 0 i.version.toNat + put 16 0 i.permit.toNat + put 32 0 i.digest.toNat) := by
  rw [queryImageCmd, h]

/-- Settles O25: what each command's effect is where its checks pass or fail, the end of a configuration command on the state that it leaves, and
for a held image `restructureInForce_loads`. -/
theorem configurationCommands : Obligations.ConfigurationCommands := by
  refine ⟨?holds, ?fails, ?inForce, ?spares, ?spareFails, ?retireFails, ?retires, ?queries⟩
  case holds =>
    intro e x b bs i s h hnone hread hlen hsize hcheck hrow
    have hrun := cfgCmd_takes (restructureCmd b) h
    rw [restructureCmd_fits hread hlen hsize hcheck hrow, ← exec_restructure e b hnone] at hrun
    have hboot := beginRestructure_boot s.checkPassed i (BitVec.ofNat 32 (e32 x 4))
    refine ⟨_, hrun, ?_⟩
    rw [State.endCfg, Option.getD_some, hboot]
    exact ⟨rfl, rfl, rfl⟩
  case fails =>
    intro e x b bs r s h hnone hread hlen hsize hcheck
    obtain ⟨t, hrun, hends, honly⟩ := cfgCmd_ends h (restructureCmd_fails hread hlen hsize hcheck) ⟨rfl, rfl, rfl, List.prefix_refl _⟩
    rw [← exec_restructure e b hnone] at hrun
    unfold OnlyCfg at honly
    have hboot : t.boot = (s.checkFailed r).boot := by rw [honly]
    refine ⟨t, hrun, hends, ?_, ?_, ?_, ?_⟩
    · rw [hboot]
      rfl
    · rw [hboot]
      rfl
    · rw [hboot]
      rfl
    · rw [honly]
      rfl
  case inForce => exact fun i s hlive hdrained hheld => restructureInForce_loads hlive hdrained hheld
  case spares => exact fun e x st s h hstripe hspare hrank => spareRank_begins h (spareRankCmd_begins hstripe hspare hrank)
  case spareFails => exact fun e x s h hnot => cfgCmd_fails h (spareRankCmd_fails hnot)
  case retireFails => exact fun e x s h hnot => cfgCmd_fails h (retireRankCmd_fails hnot)
  case retires =>
    intro e x s h hserves hctx
    have hrun := cfgCmd_takes retireRankCmd h
    obtain ⟨-, -, -, -, hop⟩ := h
    rw [retireRankCmd_retires hserves hctx, admDone, State.endCfg, Option.getD_some, hop] at hrun
    exact hrun
  case queries => exact fun e x i s h hi => cfgCmd_ends h (queryImageCmd_tells hi) (sameCfg_refl s)

end Sys2Proof.Machine
end

section
/-! PROOFS. What messages do of a per-function reset (R372, R388): of a function they change only what is held for it, and nothing under an FLR. -/
namespace Sys2Proof.Machine

/-- Only interrupt state, mailboxes and what a message touches have changed; of a function only what is held for it, and nothing under an FLR. -/
structure OnlySignalled (s t : State) : Prop where
  frame : t = { s with funcs := t.funcs, hlu := t.hlu, imb := t.imb, out := t.out }
  funcs : ∀ k, FuncKept (s.func k) (t.func k)
  vfs : t.hlu.vfEn = s.hlu.vfEn ∧ t.hlu.numVfs = s.hlu.numVfs

theorem onlySignalled_trans {s t u : State} (h : OnlySignalled s t) (k : OnlySignalled t u) : OnlySignalled s u where
  frame := by
    have hframe := h.frame
    have kframe := k.frame
    rw [hframe] at kframe
    exact kframe
  funcs := fun n => funcKept_trans (h.funcs n) (k.funcs n)
  vfs := ⟨k.vfs.1.trans h.vfs.1, k.vfs.2.trans h.vfs.2⟩

theorem modImb_signalled (s : State) (f : Imb → Imb) : OnlySignalled s (s.modImb f) := ⟨rfl, fun _ => funcKept_refl _, rfl, rfl⟩

theorem onlySignalled_refl (s : State) : OnlySignalled s s := ⟨rfl, fun _ => funcKept_refl _, rfl, rfl⟩

theorem emit_signalled (s : State) (o : Out) : OnlySignalled s (s.emit o) := ⟨rfl, fun _ => funcKept_refl _, rfl, rfl⟩

theorem send_signalled (s : State) (o : Out) : OnlySignalled s (s.send o) := ⟨rfl, (send_closed s o).by_.funcs, (send_closed s o).by_.vfs⟩

theorem hold_signalled {s : State} {fn : Nat} (o : Out) (h : (s.func fn).flr = false) :
    OnlySignalled s (s.modFunc fn fun f => { f with held := f.held ++ [o] }) := by
  refine ⟨rfl, fun k => ?_, rfl, rfl⟩
  by_cases hk : fn = k
  · subst hk
    rw [modFunc_func]
    exact ⟨rfl, fun hflr => absurd (h.symm.trans hflr) Bool.false_ne_true⟩
  · rw [modFunc_func_other _ _ _ _ hk]
    exact funcKept_refl _

theorem message_signalled (s : State) (fn v : Nat) : OnlySignalled s (s.message fn v) := by
  unfold State.message
  split
  · exact onlySignalled_refl s
  next hopen =>
    have hflr : (s.func fn).flr = false := by
      simp only [Bool.or_eq_true, not_or, Bool.not_eq_true] at hopen
      tauto
    split
    · exact modImb_signalled ..
    · split
      · exact onlySignalled_trans (hold_signalled (.msix fn v) hflr) (send_signalled ..)
      · exact onlySignalled_trans (modImb_signalled ..) (send_signalled ..)

theorem settleSource_signalled (s : State) (n : Nat) : OnlySignalled s (s.settleSource n) := by
  have hset : OnlySignalled s (s.modSrc n fun c => { c with deliverable := s.deliverable n }) := modImb_signalled ..
  unfold State.settleSource
  dsimp only
  split
  · split
    · split
      · exact onlySignalled_trans hset (message_signalled ..)
      · exact onlySignalled_trans hset (emit_signalled ..)
    · exact hset
  · exact hset

theorem assertSource_signalled (s : State) (n : Nat) : OnlySignalled s (s.assertSource n) := by
  unfold State.assertSource
  split
  · exact onlySignalled_refl s
  · exact onlySignalled_trans (modImb_signalled ..) (settleSource_signalled ..)

theorem setLevel_signalled (s : State) (n : Nat) (l : Bool) : OnlySignalled s (s.setLevel n l) := by
  have hset : OnlySignalled s (s.modSrc n fun c => { c with level := l }) := modImb_signalled ..
  unfold State.setLevel
  dsimp only
  split
  · exact onlySignalled_trans hset (assertSource_signalled ..)
  · exact hset

theorem settleMbx_signalled (s : State) (d : MbxSide) : OnlySignalled s (s.settleMbx d) := by
  unfold State.settleMbx
  split
  · exact setLevel_signalled ..
  · exact onlySignalled_refl s

theorem raiseMbxOut_signalled (s : State) (d : MbxSide) : OnlySignalled s (s.raiseMbxOut d) := by
  unfold State.raiseMbxOut
  split
  · exact assertSource_signalled ..
  · exact onlySignalled_refl s

/-! ### Step 7: interrupt state, mailboxes and semaphores -/

theorem modMbx_signalled (s : State) (k : Nat) (f : Mbx → Mbx) : OnlySignalled s (s.modMbx k f) := modImb_signalled ..

theorem resetSide_signalled (s : State) (d : MbxSide) : OnlySignalled s (s.resetSide d) :=
  onlySignalled_trans (modMbx_signalled ..) (onlySignalled_trans (onlySignalled_trans (modMbx_signalled ..) (modMbx_signalled ..))
    (onlySignalled_trans (settleMbx_signalled ..) (raiseMbxOut_signalled ..)))

/-- The mailbox sides that are reset with a function. -/
def State.sidesReset (s : State) (fn : Nat) : State :=
  if fn == 0 then forUpTo 63 (fun n u => u.resetSide (.pf0Vf (n + 1))) (s.resetSide .pf0) else s.resetSide (.vf fn)

theorem sidesReset_signalled (s : State) (fn : Nat) : OnlySignalled s (s.sidesReset fn) := by
  unfold State.sidesReset
  split
  · exact forUpTo_induct (P := OnlySignalled s) 63 (fun n t ht => onlySignalled_trans ht (resetSide_signalled ..)) _ (resetSide_signalled ..)
  · exact resetSide_signalled ..

/-- A function's sources as at reset. -/
def State.sourcesReset (s : State) (fn : Nat) : State :=
  forEach (s.slots fn) (fun n u => u.modSrc n fun _ => Src.init) (s.sidesReset fn)

theorem sourcesReset_signalled (s : State) (fn : Nat) : OnlySignalled s (s.sourcesReset fn) :=
  forEach_induct (P := OnlySignalled s) _ (fun _ _ t ht => onlySignalled_trans ht (modImb_signalled t _)) (s.sidesReset fn) (sidesReset_signalled s fn)

/-- A function's level stack and masks as at reset. -/
def State.masksReset (s : State) (fn : Nat) : State :=
  ((s.sourcesReset fn).modTarget fn fun _ => Target.init).modImb fun b =>
    { b with mask := tblSet [] b.mask fn [], pba := tblSet [] b.pba fn [] }

theorem resetImb_eq (s : State) (fn : Nat) : s.resetImb fn = (s.masksReset fn).abandonSems fn := rfl

theorem masksReset_signalled (s : State) (fn : Nat) : OnlySignalled s (s.masksReset fn) :=
  onlySignalled_trans (sourcesReset_signalled s fn) (onlySignalled_trans (modImb_signalled (s.sourcesReset fn) _) (modImb_signalled ..))

theorem masksReset_target (s : State) (fn : Nat) : (s.masksReset fn).target fn = Target.init :=
  modTarget_target (s.sourcesReset fn) fn fun _ => Target.init

theorem masksReset_mask (s : State) (fn : Nat) : tblGet [] (s.masksReset fn).imb.mask fn = [] ∧ tblGet [] (s.masksReset fn).imb.pba fn = [] :=
  ⟨tblGet_tblSet_same [] ((s.sourcesReset fn).modTarget fn fun _ => Target.init).imb.mask fn [],
    tblGet_tblSet_same [] ((s.sourcesReset fn).modTarget fn fun _ => Target.init).imb.pba fn []⟩

theorem onlySignalled_of_sems {s t : State} (h : OnlySems s t) : OnlySignalled s t := by
  unfold OnlySems at h
  rw [h]
  exact ⟨rfl, fun _ => funcKept_refl _, rfl, rfl⟩

theorem resetImb_signalled (s : State) (fn : Nat) : OnlySignalled s (s.resetImb fn) :=
  onlySignalled_trans (masksReset_signalled s fn) (onlySignalled_of_sems (abandonSems_sems ..))

/-- A function's interrupt state as at reset. -/
structure ImbReset (fn : Nat) (t : State) : Prop where
  target : t.target fn = Target.init
  mask : tblGet [] t.imb.mask fn = []
  pba : tblGet [] t.imb.pba fn = []
  sems : ∀ n, n < 64 → (t.sem n).holder ≠ some fn

theorem resetImb_resets (s : State) (fn : Nat) : ImbReset fn (s.resetImb fn) := by
  rw [resetImb_eq]
  have hsems := abandonSems_sems (s.masksReset fn) fn
  have hholder := fun n (hn : n < 64) => abandonSems_holder (s.masksReset fn) fn hn
  have htarget := masksReset_target s fn
  obtain ⟨hmask, hpba⟩ := masksReset_mask s fn
  generalize s.masksReset fn = u at *
  generalize u.abandonSems fn = t at *
  unfold OnlySems at hsems
  refine ⟨?_, ?_, ?_, fun n hn => ?_⟩
  · rw [hsems]
    exact htarget
  · rw [hsems]
    exact hmask
  · rw [hsems]
    exact hpba
  · rw [hholder n hn]
    split
    · exact fun h => nomatch h
    · assumption

end Sys2Proof.Machine
end

section
/-! PROOFS. The per-function reset (R372): what its steps leave as it was. -/
namespace Sys2Proof.Machine

/-! ### What the reset keeps -/

/-- A queue has left with its function, or it is as it was but for entries that have gone. -/
def QueueEnds (v w : WorkQ) : Prop := w = WorkQ.init ∨ QueueKept v w

theorem queueEnds_trans {u v w : WorkQ} (h : QueueEnds u v) (k : QueueEnds v w) : QueueEnds u w := by
  obtain hw | ⟨kv, knone⟩ := k
  · exact .inl hw
  · obtain rfl | hkept := h
    · rw [knone rfl] at kv
      exact .inl kv
    · exact .inr (queueKept_trans hkept ⟨kv, knone⟩)

theorem queueEnds_init {w : WorkQ} (h : QueueEnds WorkQ.init w) : w = WorkQ.init := by
  obtain hinit | ⟨hkept, hnone⟩ := h
  · exact hinit
  · rw [hnone rfl] at hkept
    exact hkept

theorem queueEnds_refl (w : WorkQ) : QueueEnds w w := .inr (queueKept_refl w)

/-- Only what per-function resets touch has changed; the image, the protection tables and the safe state stand. -/
structure OnlyWiped (s t : State) : Prop where
  frame : t = { s with
    admq := t.admq, boot := t.boot, bpm := t.bpm, cfgq := t.cfgq, clusters := t.clusters, ctx := t.ctx, dmv := t.dmv, dsc := t.dsc,
    evq := t.evq, fcl := t.fcl, funcs := t.funcs, halves := t.halves, heldV := t.heldV, heldW := t.heldW, hlu := t.hlu, imb := t.imb,
    latched := t.latched, latches := t.latches, mau := t.mau, mem := t.mem, out := t.out, pcf := t.pcf, queues := t.queues,
    sessions := t.sessions }
  queues : ∀ q, QueueEnds (s.queue q) (t.queue q)
  rings : ∀ k, s.ring k = EvRing.init → t.ring k = EvRing.init
  boot : t.boot.image = s.boot.image ∧ t.boot.regions = s.boot.regions ∧ t.boot.protLock = s.boot.protLock
  safe : t.fcl.inSafe = s.fcl.inSafe

theorem onlyWiped_trans {s t u : State} (h : OnlyWiped s t) (k : OnlyWiped t u) : OnlyWiped s u where
  frame := by
    have hframe := h.frame
    have kframe := k.frame
    rw [hframe] at kframe
    exact kframe
  queues := fun q => queueEnds_trans (h.queues q) (k.queues q)
  rings := fun n hn => k.rings n (h.rings n hn)
  boot := by
    obtain ⟨himage, hregions, hlock⟩ := h.boot
    obtain ⟨kimage, kregions, klock⟩ := k.boot
    exact ⟨kimage.trans himage, kregions.trans hregions, klock.trans hlock⟩
  safe := k.safe.trans h.safe

theorem onlyWiped_refl (s : State) : OnlyWiped s s := ⟨rfl, fun _ => queueEnds_refl _, fun _ => id, ⟨rfl, rfl, rfl⟩, rfl⟩

/-- Besides, no function has changed but for what is held for it, and no VF came or went. -/
structure OnlyReset (s t : State) : Prop where
  wiped : OnlyWiped s t
  funcs : ∀ k, FuncKept (s.func k) (t.func k)
  vfs : t.hlu.vfEn = s.hlu.vfEn ∧ t.hlu.numVfs = s.hlu.numVfs

theorem onlyReset_trans {s t u : State} (h : OnlyReset s t) (k : OnlyReset t u) : OnlyReset s u where
  wiped := onlyWiped_trans h.wiped k.wiped
  funcs := fun n => funcKept_trans (h.funcs n) (k.funcs n)
  vfs := ⟨k.vfs.1.trans h.vfs.1, k.vfs.2.trans h.vfs.2⟩

theorem onlyReset_refl (s : State) : OnlyReset s s := ⟨onlyWiped_refl s, fun _ => funcKept_refl _, rfl, rfl⟩

theorem queueEnds_of_same {s t : State} (h : t.queues = s.queues) (q : Nat) : QueueEnds (s.queue q) (t.queue q) := by
  have hq : t.queue q = s.queue q := congrArg (tblGet WorkQ.init · q) h
  rw [hq]
  exact queueEnds_refl _

theorem onlyReset_of_closed {s t : State} (h : OnlyClosed s t) : OnlyReset s t := by
  obtain ⟨hframe, -, hfuncs, hqueues, hvfs⟩ := h
  refine ⟨⟨by rw [hframe], fun q => .inr (hqueues q), fun k hk => ?_, ?_, by rw [hframe]⟩, hfuncs, hvfs⟩
  · rw [ring_congr (s := s) (by rw [hframe]), hk]
  · rw [hframe]
    exact ⟨rfl, rfl, rfl⟩

theorem onlyReset_of_signalled {s t : State} (h : OnlySignalled s t) : OnlyReset s t := by
  obtain ⟨hframe, hfuncs, hvfs⟩ := h
  refine ⟨⟨by rw [hframe], queueEnds_of_same (by rw [hframe]), fun k hk => ?_, ?_, by rw [hframe]⟩, hfuncs, hvfs⟩
  · rw [ring_congr (s := s) (by rw [hframe]), hk]
  · rw [hframe]
    exact ⟨rfl, rfl, rfl⟩

theorem forEach_reset {β : Type} {f : β → State → State} (xs : List β) (hf : ∀ x t, OnlyReset t (f x t)) (s : State) :
    OnlyReset s (forEach xs f s) :=
  forEach_induct (P := OnlyReset s) xs (fun x _ t ht => onlyReset_trans ht (hf x t)) s (onlyReset_refl s)

theorem forUpTo_reset {f : Nat → State → State} (n : Nat) (hf : ∀ k t, OnlyReset t (f k t)) (s : State) : OnlyReset s (forUpTo n f s) :=
  forUpTo_induct (P := OnlyReset s) n (fun k t ht => onlyReset_trans ht (hf k t)) s (onlyReset_refl s)

/-! ### Changes of one part -/

theorem modBpm_reset (s : State) (f : Bpm → Bpm) : OnlyReset s (s.modBpm f) :=
  ⟨⟨rfl, fun _ => queueEnds_refl _, fun _ => id, ⟨rfl, rfl, rfl⟩, rfl⟩, fun _ => funcKept_refl _, rfl, rfl⟩

theorem modPath_reset (s : State) (fn : Nat) (f : RegPath → RegPath) : OnlyReset s (s.modPath fn f) := modBpm_reset ..

theorem setPool_reset (s : State) (k : Nat) (v : Option Pool) : OnlyReset s (s.setPool k v) := modBpm_reset ..

theorem modPool_reset (s : State) (k : Nat) (f : Pool → Pool) : OnlyReset s (s.modPool k f) := setPool_reset ..

theorem modChan_reset (s : State) (g : Nat) (f : Chan → Chan) : OnlyReset s (s.modChan g f) := onlyReset_of_closed (modDmv_closed ..)

theorem modFcl_reset (s : State) {f : Fcl → Fcl} (h : (f s.fcl).inSafe = s.fcl.inSafe) : OnlyReset s (s.modFcl f) :=
  ⟨⟨rfl, fun _ => queueEnds_refl _, fun _ => id, ⟨rfl, rfl, rfl⟩, h⟩, fun _ => funcKept_refl _, rfl, rfl⟩

theorem report_reset (s : State) (code source : Nat) (fn session : Option Nat) (info : Nat) (tag : BitVec 16) (addr : Nat) :
    OnlyReset s (s.report code source fn session info tag addr) := modFcl_reset s rfl

theorem modCfgQ_reset (s : State) (f : AdmQ → AdmQ) : OnlyReset s (s.modCfgQ f) :=
  ⟨⟨rfl, fun _ => queueEnds_refl _, fun _ => id, ⟨rfl, rfl, rfl⟩, rfl⟩, fun _ => funcKept_refl _, rfl, rfl⟩

theorem modBoot_reset (s : State) {f : Boot → Boot}
    (h : (f s.boot).image = s.boot.image ∧ (f s.boot).regions = s.boot.regions ∧ (f s.boot).protLock = s.boot.protLock) :
    OnlyReset s (s.modBoot f) :=
  ⟨⟨rfl, fun _ => queueEnds_refl _, fun _ => id, h, rfl⟩, fun _ => funcKept_refl _, rfl, rfl⟩

theorem resetPairs_reset (s : State) (fn : Nat) : OnlyReset s (s.resetPairs fn) :=
  ⟨⟨rfl, fun _ => queueEnds_refl _, fun _ => id, ⟨rfl, rfl, rfl⟩, rfl⟩, fun _ => funcKept_refl _, rfl, rfl⟩

/-- An event ring that changes: it is there, or it is as at reset. -/
theorem modRing_reset (s : State) {fn : Nat} {f : EvRing → EvRing} (h : s.ring fn = EvRing.init → f EvRing.init = EvRing.init) :
    OnlyReset s (s.modRing fn f) := by
  refine ⟨⟨rfl, fun _ => queueEnds_refl _, fun k hk => ?_, ⟨rfl, rfl, rfl⟩, rfl⟩, fun _ => funcKept_refl _, rfl, rfl⟩
  by_cases hfn : fn = k
  · subst hfn
    rw [modRing_ring, hk, h hk]
  · rw [modRing_ring_other _ _ _ _ hfn, hk]

theorem modQueue_wipes (s : State) (q : Nat) : OnlyReset s (s.modQueue q fun _ => WorkQ.init) := by
  refine ⟨⟨rfl, fun p => ?_, fun _ => id, ⟨rfl, rfl, rfl⟩, rfl⟩, fun _ => funcKept_refl _, rfl, rfl⟩
  by_cases hp : q = p
  · subst hp
    exact .inl (modQueue_queue ..)
  · rw [modQueue_queue_other _ _ _ _ hp]
    exact queueEnds_refl _

/-! ### Events of a reset -/

theorem tellRing_reset {s : State} {fn : Nat} (f : EvRing → EvRing) (h : (s.ring fn).isThere = true) :
    OnlyReset s ((s.modRing fn f).putEventWord fn) := by
  refine onlyReset_trans (modRing_reset s fun hinit => ?_) (onlyReset_of_closed (putRecord_closed ..))
  rw [hinit] at h
  exact absurd h (by decide)

theorem event_reset (s : State) (fn type : Nat) (queue : Option Nat) (cause session : Nat) (seq tag : Word) (arg : Nat) :
    OnlyReset s (s.event fn type queue cause session seq tag arg) := by
  unfold State.event
  dsimp only
  split
  · exact onlyReset_refl s
  next hopen =>
    have hthere : (s.ring fn).isThere = true := by
      simp only [Bool.or_eq_true, not_or, Bool.not_eq_true, Bool.not_eq_false'] at hopen
      tauto
    split
    · exact tellRing_reset _ hthere
    · refine onlyReset_trans (onlyReset_trans (onlyReset_of_closed (putRecord_closed ..)) (tellRing_reset _ ?_))
        (onlyReset_of_signalled (assertSource_signalled ..))
      rw [ring_congr (s := s) (by rw [putRecord_put]), hthere]

/-! ### Steps 2 to 5: queues, units, sessions and copies -/

theorem resetQueues_reset (s : State) (qs : List Nat) : OnlyReset s (s.resetQueues qs) := forEach_reset qs (fun q t => modQueue_wipes t q) s

theorem resetQueues_queue {qs : List Nat} {q : Nat} (s : State) (h : q ∈ qs) : (s.resetQueues qs).queue q = WorkQ.init := by
  unfold State.resetQueues
  induction qs generalizing s with
  | nil => exact absurd h List.not_mem_nil
  | cons p qs ih =>
    rw [forEach]
    by_cases hq : q ∈ qs
    · exact ih _ hq
    · have hp : q = p := (List.mem_cons.1 h).resolve_right hq
      subst hp
      have hends := (resetQueues_reset (s.modQueue q fun _ => WorkQ.init) qs).wiped.queues q
      rw [modQueue_queue] at hends
      exact queueEnds_init hends

theorem resetSess_reset (s : State) (n : Nat) : OnlyReset s (s.resetSess n) := by
  unfold State.resetSess
  split
  · exact onlyReset_of_closed (onlyClosed_trans (modSess_closed ..) (settleDrain_closed ..))
  · exact onlyReset_of_closed (drainSession_closed ..)

theorem endCopy_reset (s : State) (q : Nat) (seq : Word) (c k n : Nat) : OnlyReset s (s.endCopy q seq c k n) :=
  onlyReset_of_closed (onlyClosed_trans (onlyClosed_trans (onlyClosed_trans (modDsc_closed ..) (modDmv_closed ..)) (modEntry_closed ..))
    (closeEntry_closed ..))

theorem withdraw_reset (s : State) (h : Nat) : OnlyReset s (s.withdraw h) := onlyReset_of_closed (modDmv_closed ..)

theorem unask_reset (s : State) (g : Nat) : OnlyReset s (s.unask g) := forEach_reset _ (fun p t => modPool_reset t p _) s

/-- A channel as at reset, with nothing that waits for it. -/
def State.chanReset (s : State) (fn l : Nat) : State :=
  ((s.unask (s.chanOf fn l)).modChan (s.chanOf fn l) fun _ => Chan.init).modDmv fun d =>
    { d with slots := d.slots.filter fun x => x.user != .channel (s.chanOf fn l) }

theorem chanReset_reset (s : State) (fn l : Nat) : OnlyReset s (s.chanReset fn l) :=
  onlyReset_trans (onlyReset_trans (unask_reset ..) (modChan_reset ..)) (onlyReset_of_closed (modDmv_closed ..))

theorem resetMover_reset (s : State) (fn : Nat) (qs : List Nat) : OnlyReset s (s.resetMover fn qs) := by
  unfold State.resetMover
  have hcopies := forEach_reset (s.dmv.copies.filter fun c => qs.contains c.q) (fun c t => endCopy_reset t c.q c.seq 0 0 0) s
  have hdemand (hs : List Nat) (u : State) := forEach_reset hs (fun h t => withdraw_reset t h) u
  have hchans (n : Nat) (u : State) := forUpTo_reset n (fun l t => chanReset_reset t fn l) u
  exact onlyReset_trans (onlyReset_trans hcopies (hdemand _ _)) (hchans _ _)

/-! ### Step 6: pools, event ring, admin queue and register path -/

theorem chanFail_reset (s : State) (g cause : Nat) : OnlyReset s (s.chanFail g cause) :=
  onlyReset_trans (onlyReset_trans (modChan_reset ..) (onlyReset_of_signalled (assertSource_signalled ..))) (report_reset ..)

theorem askPool_reset (s : State) (g : Nat) : OnlyReset s (s.askPool g) := by
  unfold State.askPool
  split
  · exact onlyReset_refl s
  · split
    · exact onlyReset_trans (onlyReset_trans (modChan_reset ..) (modChan_reset ..)) (chanFail_reset ..)
    · split
      · exact onlyReset_refl s
      · exact onlyReset_trans (modChan_reset ..) (modPool_reset ..)

theorem poolEvent_reset (s : State) (fn code arg : Nat) : OnlyReset s (s.poolEvent fn code arg) :=
  onlyReset_trans (onlyReset_trans (event_reset ..) (modBpm_reset ..)) (report_reset ..)

theorem freeDone_reset (s : State) (fn code : Nat) : OnlyReset s (s.freeDone fn code) := modPath_reset ..

theorem allocDone_reset (s : State) (fn a flags : Nat) : OnlyReset s (s.allocDone fn a flags) := modPath_reset ..

/-- A request of a pool that goes away is refused, or its channel asks elsewhere. -/
def State.requestDropped (s : State) (r : PoolReq) : State :=
  if r.port < 64 then (if r.isFree then (s.poolEvent r.port 3 256).freeDone r.port 3 else s.allocDone r.port 0 5)
  else (s.modChan (r.port - 64) fun c => { c with asking := false }).askPool (r.port - 64)

theorem requestDropped_reset (s : State) (r : PoolReq) : OnlyReset s (s.requestDropped r) := by
  unfold State.requestDropped
  split
  · split
    · exact onlyReset_trans (poolEvent_reset ..) (freeDone_reset ..)
    · exact allocDone_reset ..
  · exact onlyReset_trans (modChan_reset ..) (askPool_reset ..)

theorem dropPool_reset (s : State) (k : Nat) : OnlyReset s (s.dropPool k) := by
  unfold State.dropPool
  split
  · exact onlyReset_refl s
  · exact onlyReset_trans (setPool_reset ..) (forEach_reset _ (fun r t => requestDropped_reset t r) _)

theorem dropPath_reset (s : State) (fn : Nat) (isFree : Bool) : OnlyReset s (s.dropPath fn isFree) :=
  forEach_reset _ (fun p t => modPool_reset t p _) s

/-- The function without its pools, its register path as at reset. -/
def State.poolsReset (s : State) (fn : Nat) : State :=
  (forEach ((tblKeys s.bpm.pools).filter fun p => (s.ownPool fn p).isSome) (fun p t => t.dropPool p) ((s.dropPath fn false).dropPath fn true)).modPath fn
    fun _ => RegPath.init

theorem poolsReset_reset (s : State) (fn : Nat) : OnlyReset s (s.poolsReset fn) :=
  onlyReset_trans (onlyReset_trans (onlyReset_trans (dropPath_reset ..) (dropPath_reset ..)) (forEach_reset _ (fun p t => dropPool_reset t p) _))
    (modPath_reset ..)

theorem poolsReset_path (s : State) (fn : Nat) : (s.poolsReset fn).path fn = RegPath.init := modPath_path ..

/-- The function's event ring and admin queue as at reset. -/
def State.ringsReset (s : State) (fn : Nat) : State := (s.modRing fn fun _ => EvRing.init).modAdmQ fn fun _ => AdmQ.init

/-- PF0's configuration queue as at reset, and no restructure under way. -/
def State.cfgReset (s : State) : State := (s.modCfgQ fun _ => AdmQ.init).modBoot fun b => { b with restruct := none, stopped := [] }

theorem ringsReset_reset (s : State) (fn : Nat) : OnlyReset s (s.ringsReset fn) :=
  onlyReset_trans (modRing_reset s fun _ => rfl) (onlyReset_of_closed (modAdmQ_closed ..))

theorem cfgReset_reset (s : State) : OnlyReset s s.cfgReset := onlyReset_trans (modCfgQ_reset ..) (modBoot_reset _ ⟨rfl, rfl, rfl⟩)

theorem resetObjects_eq (s : State) (fn : Nat) :
    s.resetObjects fn = if fn == 0 then ((s.poolsReset fn).ringsReset fn).cfgReset else (s.poolsReset fn).ringsReset fn := rfl

/-- A function's queues of commands, its event ring and its register path as at reset. -/
structure ObjectsReset (fn : Nat) (t : State) : Prop where
  admQ : t.admQ fn = AdmQ.init
  ring : t.ring fn = EvRing.init
  path : t.path fn = RegPath.init
  cfgq : fn = 0 → t.cfgq = AdmQ.init

theorem ringsReset_objects (s : State) (fn : Nat) :
    (s.ringsReset fn).admQ fn = AdmQ.init ∧ (s.ringsReset fn).ring fn = EvRing.init ∧ (s.ringsReset fn).path fn = s.path fn :=
  ⟨modAdmQ_admQ .., modRing_ring s fn fun _ => EvRing.init, rfl⟩

theorem resetObjects_resets (s : State) (fn : Nat) : ObjectsReset fn (s.resetObjects fn) := by
  obtain ⟨hadm, hring, hpath⟩ := ringsReset_objects (s.poolsReset fn) fn
  rw [poolsReset_path] at hpath
  rw [resetObjects_eq]
  split
  next => exact ⟨hadm, hring, hpath, fun _ => rfl⟩
  next hne => exact ⟨hadm, hring, hpath, fun h => absurd (beq_iff_eq.2 h) hne⟩

theorem resetObjects_reset (s : State) (fn : Nat) : OnlyReset s (s.resetObjects fn) := by
  have hrings : OnlyReset s ((s.poolsReset fn).ringsReset fn) := onlyReset_trans (poolsReset_reset ..) (ringsReset_reset ..)
  rw [resetObjects_eq]
  split
  · exact onlyReset_trans hrings (cfgReset_reset _)
  · exact hrings

end Sys2Proof.Machine
end

section
/-! PROOFS. Function-level resets, VF Enable, hot reset, link down and training (R356, R360, R370 to R373, R503). -/
namespace Sys2Proof.Machine

/-! ### One function's reset (R372) -/

/-- A function as its reset begins. -/
def Func.resets (f : Func) : Func := { f with flr := true, d3 := false, held := [], roEn := true }

/-- Step 1. -/
def State.resetBegun (s : State) (fn : Nat) : State := (s.modFunc fn Func.resets).hushFaults fn

/-- Steps 2 to 5: queues, units, copies and sessions. -/
def State.workReset (s : State) (fn : Nat) : State :=
  forEach ((tblKeys s.sessions).filter fun n => (s.sess n).state != .free && (s.sess n).fn == fn) (fun n t => t.resetSess n)
    ((((s.resetBegun fn).resetQueues (s.queuesOf fn)).resetUnits fn).resetMover fn (s.queuesOf fn))

theorem resetFn_eq (s : State) (fn : Nat) : s.resetFn fn = (((s.workReset fn).resetObjects fn).resetImb fn).resetPairs fn := rfl

theorem hushFaults_reset (s : State) (fn : Nat) : OnlyReset s (s.hushFaults fn) := modFcl_reset s rfl

theorem resetBegun_reset (s : State) (fn : Nat) : OnlyReset (s.modFunc fn Func.resets) (s.resetBegun fn) := hushFaults_reset ..

theorem queuesReset_work (s : State) (fn : Nat) : OnlyReset ((s.resetBegun fn).resetQueues (s.queuesOf fn)) (s.workReset fn) :=
  onlyReset_trans (onlyReset_trans (onlyReset_of_closed (stopUnits_closed ..)) (resetMover_reset ..)) (forEach_reset _ (fun n t => resetSess_reset t n) _)

theorem workReset_rest (s : State) (fn : Nat) : OnlyReset (s.workReset fn) (s.resetFn fn) :=
  onlyReset_trans (onlyReset_trans (resetObjects_reset ..) (onlyReset_of_signalled (resetImb_signalled ..))) (resetPairs_reset ..)

theorem resetFn_reset (s : State) (fn : Nat) : OnlyReset (s.modFunc fn Func.resets) (s.resetFn fn) :=
  onlyReset_trans (onlyReset_trans (onlyReset_trans (resetBegun_reset ..) (resetQueues_reset ..)) (queuesReset_work ..)) (workReset_rest ..)

theorem resetFn_queue {s : State} {fn q : Nat} (h : q ∈ s.queuesOf fn) : (s.resetFn fn).queue q = WorkQ.init := by
  have hends := (onlyReset_trans (queuesReset_work s fn) (workReset_rest s fn)).wiped.queues q
  rw [resetQueues_queue _ h] at hends
  exact queueEnds_init hends

theorem objectsReset_of_signalled {fn : Nat} {s t : State} (h : OnlySignalled s t) (k : ObjectsReset fn s) : ObjectsReset fn t := by
  have hframe := h.frame
  exact ⟨(admQ_congr (by rw [hframe]) fn).trans k.admQ, (ring_congr (by rw [hframe]) fn).trans k.ring, by rw [hframe]; exact k.path,
    fun h0 => by rw [hframe]; exact k.cfgq h0⟩

theorem objectsReset_pairs {fn : Nat} {s : State} (k : Nat) (h : ObjectsReset fn s) : ObjectsReset fn (s.resetPairs k) :=
  ⟨h.admQ, h.ring, h.path, h.cfgq⟩

theorem imbReset_pairs {fn : Nat} {s : State} (k : Nat) (h : ImbReset fn s) : ImbReset fn (s.resetPairs k) := ⟨h.target, h.mask, h.pba, h.sems⟩

/-- What a function's reset leaves of it, and of the rest. -/
structure FnReset (fn : Nat) (s t : State) : Prop where
  wiped : OnlyWiped s t
  func : t.func fn = (s.func fn).resets
  there : ∀ k, (t.func k).isThere = (s.func k).isThere
  queues : ∀ q ∈ s.queuesOf fn, t.queue q = WorkQ.init
  objects : ObjectsReset fn t
  imb : ImbReset fn t
  vfs : t.hlu.vfEn = s.hlu.vfEn ∧ t.hlu.numVfs = s.hlu.numVfs

theorem modFunc_wiped (s : State) (fn : Nat) (f : Func → Func) : OnlyWiped s (s.modFunc fn f) :=
  ⟨rfl, fun _ => queueEnds_refl _, fun _ => id, ⟨rfl, rfl, rfl⟩, rfl⟩

theorem modHlu_wiped (s : State) (f : Hlu → Hlu) : OnlyWiped s (s.modHlu f) :=
  ⟨rfl, fun _ => queueEnds_refl _, fun _ => id, ⟨rfl, rfl, rfl⟩, rfl⟩

theorem resetFn_there (s : State) (fn k : Nat) : ((s.resetFn fn).func k).isThere = (s.func k).isThere := by
  have hkept := ((resetFn_reset s fn).funcs k).1
  rw [hkept]
  by_cases hk : fn = k
  · subst hk
    rw [modFunc_func]
    rfl
  · rw [modFunc_func_other _ _ _ _ hk]

theorem resetFn_resets (s : State) (fn : Nat) : FnReset fn s (s.resetFn fn) where
  wiped := onlyWiped_trans (modFunc_wiped ..) (resetFn_reset s fn).wiped
  func := by
    obtain ⟨-, hflr⟩ := (resetFn_reset s fn).funcs fn
    rw [modFunc_func] at hflr
    exact hflr rfl
  there := resetFn_there s fn
  queues := fun _ => resetFn_queue
  objects := by
    rw [resetFn_eq]
    exact objectsReset_pairs fn (objectsReset_of_signalled (resetImb_signalled ..) (resetObjects_resets ..))
  imb := by
    rw [resetFn_eq]
    exact imbReset_pairs fn (resetImb_resets ..)
  vfs := (resetFn_reset s fn).vfs

/-! ### VFs that come and go (R360) -/

/-- VF `n + 1` is reset, and ceases to exist. -/
def State.vfEnded (s : State) (n : Nat) : State := (s.resetFn (n + 1)).modFunc (n + 1) fun _ => Func.init

theorem vfEnded_wiped (s : State) (n : Nat) : OnlyWiped s (s.vfEnded n) := onlyWiped_trans (resetFn_resets s (n + 1)).wiped (modFunc_wiped ..)

/-- VFs 1 to `n` have ceased to exist. -/
def State.vfsEnded (s : State) (n : Nat) : State := forUpTo n (fun n t => t.vfEnded n) s

theorem clearVfs_eq (s : State) : s.clearVfs = if s.hlu.vfEn then (s.vfsEnded s.hlu.numVfs).modHlu fun h => { h with vfEn := false } else s := rfl

theorem vfsEnded_wiped (s : State) (n : Nat) : OnlyWiped s (s.vfsEnded n) :=
  forUpTo_induct (P := OnlyWiped s) n (fun n t ht => onlyWiped_trans ht (vfEnded_wiped t n)) s (onlyWiped_refl s)

/-- A function that does not exist, and has no event ring. -/
def State.vfAbsent (s : State) (k : Nat) : Prop := (s.func k).isThere = false ∧ s.ring k = EvRing.init

theorem modFunc_absent {s : State} {k : Nat} (h : s.ring k = EvRing.init) : (s.modFunc k fun _ => Func.init).vfAbsent k := by
  refine ⟨?_, h⟩
  rw [modFunc_func]
  rfl

theorem vfEnded_absent (s : State) (n : Nat) : (s.vfEnded n).vfAbsent (n + 1) := modFunc_absent (resetFn_resets s (n + 1)).objects.ring

theorem vfEnded_stays {s : State} {k : Nat} (n : Nat) (h : s.vfAbsent k) : (s.vfEnded n).vfAbsent k := by
  obtain ⟨hthere, hring⟩ := h
  refine ⟨?_, (vfEnded_wiped s n).rings k hring⟩
  unfold State.vfEnded
  by_cases hk : n + 1 = k
  · rw [hk, modFunc_func]
    rfl
  · rw [modFunc_func_other _ _ _ _ hk, resetFn_there, hthere]

theorem vfsEnded_absent (s : State) (n : Nat) {k : Nat} (hk : 1 ≤ k) (hn : k ≤ n) : (s.vfsEnded n).vfAbsent k := by
  induction n with
  | zero => omega
  | succ n ih =>
    have hstep : s.vfsEnded (n + 1) = (s.vfsEnded n).vfEnded n := rfl
    rw [hstep]
    by_cases hlast : k = n + 1
    · rw [hlast]
      exact vfEnded_absent ..
    · exact vfEnded_stays n (ih (by omega))

theorem clearVfs_wiped (s : State) : OnlyWiped s s.clearVfs := by
  rw [clearVfs_eq]
  split
  · exact onlyWiped_trans (vfsEnded_wiped ..) (modHlu_wiped ..)
  · exact onlyWiped_refl s

theorem clearVfs_vfEn (s : State) : s.clearVfs.hlu.vfEn = false := by
  rw [clearVfs_eq]
  split
  next => rfl
  next h => exact Bool.not_eq_true _ ▸ h

/-- A VF as VF Enable makes it. -/
def Func.newVf : Func := { Func.init with isThere := true, ready := true, roEn := true }

/-- VFs 1 to `n` exist and are ready. -/
def State.vfsMade (s : State) (n : Nat) : State := forUpTo n (fun k t => t.modFunc (k + 1) fun _ => Func.newVf) s

theorem vfEnableSetOp_eq (n : Nat) (s : State) : vfEnableSetOp n s = (s.vfsMade n).modHlu fun h => { h with vfEn := true, numVfs := n } := rfl

/-- Only functions have changed. -/
def OnlyFuncs (s t : State) : Prop := t = { s with funcs := t.funcs }

theorem modFunc_onlyFuncs {s t : State} (fn : Nat) (f : Func → Func) (h : OnlyFuncs s t) : OnlyFuncs s (t.modFunc fn f) := by
  unfold OnlyFuncs at *
  rw [h]
  rfl

theorem vfsMade_only (s : State) (n : Nat) : OnlyFuncs s (s.vfsMade n) :=
  forUpTo_induct (P := OnlyFuncs s) n (fun k _ ht => modFunc_onlyFuncs (k + 1) (fun _ => Func.newVf) ht) s rfl

theorem vfsMade_func (s : State) (n k : Nat) : (s.vfsMade n).func k = if 1 ≤ k ∧ k ≤ n then Func.newVf else s.func k := by
  induction n with
  | zero => exact (if_neg (by omega)).symm
  | succ n ih =>
    have hstep : s.vfsMade (n + 1) = (s.vfsMade n).modFunc (n + 1) fun _ => Func.newVf := rfl
    rw [hstep]
    by_cases hk : n + 1 = k
    · rw [hk, modFunc_func, if_pos (by omega)]
    · rw [modFunc_func_other _ _ _ _ hk, ih]
      refine if_congr ?_ rfl rfl
      omega

/-! ### The arms -/

theorem exec_flr {fn : Nat} {s : State} (hrun : s.running = true) (hthere : (s.func fn).isThere = true) (hready : (s.func fn).ready = true)
    (hflr : (s.func fn).flr = false) : exec (.flr fn) s = .next (flrOp fn s) := by
  have harm : exec (.flr fn) s = execFlr fn s := rfl
  rw [harm, execFlr, onlyIf, if_pos (by simp [hrun, hthere, hready, hflr])]

theorem exec_flrComplete {fn : Nat} {s : State} (hrun : s.running = true) (hflr : (s.func fn).flr = true) (hnone : s.noSessions fn = true) :
    exec (.flrComplete fn) s = .next (flrCompleteOp fn s) := by
  have harm : exec (.flrComplete fn) s = execFlrComplete fn s := rfl
  rw [harm, execFlrComplete, onlyIf, if_pos (by simp [hrun, hflr, hnone])]

theorem exec_vfEnableSet {n : Nat} {s : State} (hrun : s.running = true) (hready : (s.func 0).ready = true) (hflr : (s.func 0).flr = false)
    (hvf : s.hlu.vfEn = false) (hn : n ≤ s.totalVfs) : exec (.vfEnableSet n) s = .next (vfEnableSetOp n s) := by
  have harm : exec (.vfEnableSet n) s = execVfEnableSet n s := rfl
  rw [harm, execVfEnableSet, onlyIf, if_pos (by simp [hrun, hready, hflr, hvf, hn])]

theorem exec_vfEnableClear {s : State} (hrun : s.running = true) (hvf : s.hlu.vfEn = true) : exec .vfEnableClear s = .next s.clearVfs := by
  have harm : exec .vfEnableClear s = execVfEnableClear s := rfl
  rw [harm, execVfEnableClear, onlyIf, if_pos (by simp [hrun, hvf]), vfEnableClearOp]

theorem exec_linkReset {c : Instr} {s : State} (hc : c ∈ [Instr.hotReset, .linkDown, .refclkLoss]) (hrun : s.running = true) :
    exec c s = .next s.linkReset := by
  have hop : onlyIf s.running State.linkReset s = s.linkReset := if_pos hrun
  rw [← hop]
  simp only [List.mem_cons, List.not_mem_nil, or_false] at hc
  obtain rfl | rfl | rfl := hc <;> rfl

theorem exec_linkTrained {m : LinkMode} {s : State} (hrun : s.running = true) (hlegal : LinkMode.legal m = true) :
    exec (.linkTrained m) s = .next (linkTrainedOp m s) := by
  have harm : exec (.linkTrained m) s = execLinkTrained m s := rfl
  rw [harm, execLinkTrained, onlyIf, if_pos (by simp [hrun, hlegal])]

/-! ### FLR (R372, R373) -/

/-- A queue of a function stays the function's until it leaves, whatever resets other functions undergo. -/
theorem queuesOf_wiped {s t : State} {fn q : Nat} (h : OnlyWiped s t) (hq : q ∈ s.queuesOf fn) : t.queue q = WorkQ.init ∨ q ∈ t.queuesOf fn := by
  obtain hinit | ⟨hkept, -⟩ := h.queues q
  · exact .inl hinit
  · rw [State.queuesOf, List.mem_filter, Bool.and_eq_true] at hq
    obtain ⟨-, hstate, hfn⟩ := hq
    have kstate : ((t.queue q).state != .free) = true := by rw [hkept, hstate]
    have kfn : ((t.queue q).fn == fn) = true := by rw [hkept, hfn]
    refine .inr (List.mem_filter.2 ⟨mem_tblKeys_of_ne (d := WorkQ.init) fun hinit => ?_, Bool.and_eq_true_iff.2 ⟨kstate, kfn⟩⟩)
    rw [State.queue, hinit] at kstate
    exact absurd kstate (by decide)

theorem resetFn_frees {s u : State} {fn q : Nat} (h : OnlyWiped s u) (hq : q ∈ s.queuesOf fn) :
    ((u.resetFn fn).queue q).state = .free ∧ ((u.resetFn fn).queue q).entries = [] := by
  have hinit : (u.resetFn fn).queue q = WorkQ.init := by
    obtain hleft | hstays := queuesOf_wiped h hq
    · have hends := (resetFn_resets u fn).wiped.queues q
      rw [hleft] at hends
      exact queueEnds_init hends
    · exact resetFn_queue hstays
  rw [hinit]
  exact ⟨rfl, rfl⟩

/-- The state on which the reset of an FLR runs: one of PF0 clears VF Enable and NumVFs first (R373). -/
def State.flrFrom (s : State) (fn : Nat) : State := if fn == 0 then s.clearVfs.modHlu fun h => { h with numVfs := 0 } else s

theorem flrFrom_wiped (s : State) (fn : Nat) : OnlyWiped s (s.flrFrom fn) := by
  unfold State.flrFrom
  split
  · exact onlyWiped_trans (clearVfs_wiped s) (modHlu_wiped ..)
  · exact onlyWiped_refl s

theorem flrFrom_vfs (s : State) : (s.flrFrom 0).hlu.vfEn = false ∧ (s.flrFrom 0).hlu.numVfs = 0 := by
  have hpf : s.flrFrom 0 = s.clearVfs.modHlu fun h => { h with numVfs := 0 } := if_pos (by rfl)
  have hvf := clearVfs_vfEn s
  rw [hpf]
  generalize s.clearVfs = t at *
  exact ⟨hvf, rfl⟩

/-! ### The end of an FLR, and of the link -/

theorem tellHost_tells (s : State) (o : Out) :
    (s.tellHost o).out = s.out ++ (if s.linkPasses then [o] else []) ∧ (s.tellHost o).hlu.flrCount = s.hlu.flrCount
      ∧ s.tellHost o = { s with hlu := (s.tellHost o).hlu, out := (s.tellHost o).out } := by
  unfold State.tellHost
  split
  · refine ⟨send_out .., ?_, rfl⟩
    simp only [State.send, State.emit, State.modHlu, Hlu.awake]
    split <;> rfl
  · exact ⟨(List.append_nil _).symm, rfl, rfl⟩

/-- The state on which Function Readiness Status goes out. -/
def State.flrCounted (s : State) (fn : Nat) : State :=
  (s.modFunc fn fun f => { f with flr := false }).modHlu fun h => { h with flrCount := sat32 h.flrCount 1 }

theorem flrCompleteOp_eq (fn : Nat) (s : State) : flrCompleteOp fn s = (s.flrCounted fn).tellHost (.frs fn) := rfl

theorem flrCounted_frame (s : State) (fn : Nat) :
    s.flrCounted fn = { s with funcs := (s.flrCounted fn).funcs, hlu := { s.hlu with flrCount := sat32 s.hlu.flrCount 1 } } := rfl

theorem flrCounted_func (s : State) (fn : Nat) :
    ((s.flrCounted fn).func fn).flr = false ∧ ∀ k, k ≠ fn → (s.flrCounted fn).func k = s.func k :=
  ⟨congrArg Func.flr (modFunc_func s fn fun f => { f with flr := false }), fun _ hk => modFunc_func_other s _ _ (fun f => { f with flr := false }) hk.symm⟩

theorem flrCounted_linkPasses (s : State) (fn : Nat) : (s.flrCounted fn).linkPasses = s.linkPasses := rfl

/-- An FLR ends with Function Readiness Status where the link passes it (R373). -/
theorem flrComplete_ends {fn : Nat} {s : State} (hrun : s.running = true) (hflr : (s.func fn).flr = true) (hnone : s.noSessions fn = true) :
    ∃ t, exec (.flrComplete fn) s = .next t ∧ (t.func fn).flr = false ∧ t.hlu.flrCount = sat32 s.hlu.flrCount 1
      ∧ t.out = s.out ++ (if s.linkPasses then [.frs fn] else []) ∧ (∀ k, k ≠ fn → t.func k = s.func k)
      ∧ t = { s with funcs := t.funcs, hlu := t.hlu, out := t.out } := by
  refine ⟨_, exec_flrComplete hrun hflr hnone, ?_⟩
  rw [flrCompleteOp_eq]
  obtain ⟨hout, hcount, hframe⟩ := tellHost_tells (s.flrCounted fn) (.frs fn)
  obtain ⟨hfunc, hothers⟩ := flrCounted_func s fn
  have hcounted := flrCounted_frame s fn
  rw [flrCounted_linkPasses] at hout
  generalize (s.flrCounted fn).tellHost (.frs fn) = t at *
  generalize s.flrCounted fn = u at *
  have hsame (k : Nat) : t.func k = u.func k := by
    rw [hframe]
    rfl
  refine ⟨?_, ?_, ?_, fun k hk => (hsame k).trans (hothers k hk), ?_⟩
  · rw [hsame, hfunc]
  · rw [hcount, hcounted]
  · rw [hout, hcounted]
  · rw [hframe, hcounted]

/-- The reset of every function, before the link goes down. -/
def State.linkFuncs (s : State) : State := (s.clearVfs.resetFn 0).modFunc 0 fun f => { f with flr := false, ready := false }

theorem linkReset_eq (s : State) : s.linkReset = s.linkFuncs.modHlu Hlu.down := rfl

theorem linkFuncs_wiped (s : State) : OnlyWiped s s.linkFuncs :=
  onlyWiped_trans (onlyWiped_trans (clearVfs_wiped s) (resetFn_resets _ 0).wiped) (modFunc_wiped ..)

theorem linkFuncs_func (s : State) : (s.linkFuncs.func 0).ready = false ∧ (s.linkFuncs.func 0).flr = false := by
  have hfunc : s.linkFuncs.func 0 = _ := modFunc_func (s.clearVfs.resetFn 0) 0 fun f => { f with flr := false, ready := false }
  rw [hfunc]
  exact ⟨rfl, rfl⟩

theorem modFunc_objects {fn : Nat} {s : State} (k : Nat) (f : Func → Func) (h : ObjectsReset fn s) : ObjectsReset fn (s.modFunc k f) :=
  ⟨h.admQ, h.ring, h.path, h.cfgq⟩

theorem linkFuncs_objects (s : State) : ObjectsReset 0 s.linkFuncs := modFunc_objects 0 _ (resetFn_resets s.clearVfs 0).objects

/-- Settles O49: `resetFn_resets` for what a function's reset leaves, on the state where VF Enable has been cleared (`clearVfs_wiped`) where it is
PF0's. -/
theorem functionAndLinkResets : Obligations.FunctionAndLinkResets := by
  refine ⟨?flr, ?ends, ?vfSet, ?vfClear, ?link, ?trained⟩
  case flr =>
    intro fn s hrun hthere hready hflr
    have hop : flrOp fn s = (s.flrFrom fn).resetFn fn := rfl
    obtain ⟨hwiped, hfunc, -, -, hobjects, himb, hvfs⟩ := resetFn_resets (s.flrFrom fn) fn
    refine ⟨_, (exec_flr hrun hthere hready hflr).trans (congrArg _ hop), ?_, ?_, ?_, fun q hq => resetFn_frees (flrFrom_wiped s fn) hq, hobjects.admQ,
      hobjects.ring, hobjects.path, himb.target, himb.mask, himb.pba, himb.sems, fun h0 => ⟨?_, ?_, hobjects.cfgq h0⟩,
      (onlyWiped_trans (flrFrom_wiped s fn) hwiped).frame⟩
    · rw [hfunc]
      rfl
    · rw [hfunc]
      rfl
    · rw [hfunc]
      rfl
    · subst h0
      exact hvfs.1.trans (flrFrom_vfs s).1
    · subst h0
      exact hvfs.2.trans (flrFrom_vfs s).2
  case ends => exact fun fn s hrun hflr hnone => flrComplete_ends hrun hflr hnone
  case vfSet =>
    intro n s hrun hready hflr hvf hn
    have hframe := vfsMade_only s n
    have hfunc := vfsMade_func s n
    have hmade := exec_vfEnableSet hrun hready hflr hvf hn
    rw [vfEnableSetOp_eq] at hmade
    generalize s.vfsMade n = u at *
    unfold OnlyFuncs at hframe
    have hsame (k : Nat) : (u.modHlu fun h => { h with vfEn := true, numVfs := n }).func k = u.func k := rfl
    refine ⟨_, hmade, ?_, fun k hk hkn => ?_, fun k hk => ?_, ?_⟩
    · rw [hframe]
      rfl
    · rw [hsame, hfunc, if_pos ⟨hk, hkn⟩]
      exact ⟨rfl, rfl, rfl⟩
    · rw [hsame, hfunc, if_neg (by omega)]
    · rw [hframe]
      rfl
  case vfClear =>
    intro s hrun hvf
    have heq : s.clearVfs = (s.vfsEnded s.hlu.numVfs).modHlu fun h => { h with vfEn := false } := by rw [clearVfs_eq, if_pos hvf]
    refine ⟨_, exec_vfEnableClear hrun hvf, clearVfs_vfEn s, fun k hk hn => ?_, (clearVfs_wiped s).frame⟩
    have habsent := vfsEnded_absent s s.hlu.numVfs hk hn
    rw [heq]
    generalize s.vfsEnded s.hlu.numVfs = u at *
    exact habsent
  case link =>
    intro c hc s hrun
    have hwiped := onlyWiped_trans (linkFuncs_wiped s) (modHlu_wiped s.linkFuncs Hlu.down)
    obtain ⟨hready, hflr⟩ := linkFuncs_func s
    obtain ⟨hadm, -, -, hcfg⟩ := linkFuncs_objects s
    refine ⟨_, exec_linkReset hc hrun, ?_⟩
    rw [linkReset_eq]
    generalize s.linkFuncs = u at *
    obtain ⟨himage, hregions, hlock⟩ := hwiped.boot
    exact ⟨hready, hflr, rfl, rfl, rfl, rfl, rfl, rfl, hadm, hcfg rfl, himage, hregions, hlock, hwiped.safe, hwiped.frame⟩
  case trained =>
    intro m s hrun hlegal
    refine ⟨_, exec_linkTrained hrun hlegal, rfl, ?_, fun k hk => ?_, rfl⟩
    · rw [linkTrainedOp, modFunc_func]
      rfl
    · rw [linkTrainedOp, modFunc_func_other _ _ _ _ hk.symm]
      rfl

end Sys2Proof.Machine
end
